-- ==== Sys2Proof/Word.lean ====
section
/-!
DEFINITION. Sys2Proof/Word.lean: the words and index types of the block, and the four access ports (R11, R14, R80).
-/
namespace Sys2Proof

/-- A register word (R4). -/
abbrev Word := BitVec 32

/-- A 64-bit register, a power word (R26) or a fabric time. -/
abbrev Word64 := BitVec 64

/-- A byte on the I3C port or on the Chain. -/
abbrev Octet := BitVec 8

/-- A die index: CD00 to CD31 are 0 to 31, FD0 to FD3 32 to 35, HD0 and HD1 36 and 37, HX0 and HX1 38 and 39 (R14). -/
abbrev Die := Fin 40

/-- A compute die. -/
abbrev CDie := Fin 32

/-- A core of a compute die, or a clock domain index k of another die (R160). -/
abbrev Core := Fin 4

/-- An engine of a core: E0 array, E1 vector, E2 to E5 DMA. -/
abbrev Engine := Fin 6

/-- A command queue of a core. -/
abbrev Queue := Fin 128

/-- A rail channel (R80). -/
abbrev Rail := Fin 64

/-- A phase of a rail, counted from its lowest phase channel. -/
abbrev Phase := Fin 4

/-- A partition, and the ring set that serves it. -/
abbrev Part := Fin 16

/-- Hall A is 0 and Hall B is 1 (R17). -/
abbrev Hall := Fin 2

/-- A crystal, XTAL0 at HD0 or XTAL1 at HD1. -/
abbrev Xtal := Fin 2

/-- A mailbox MB0 to MB3 (R317). -/
abbrev Mbox := Fin 4

/-- The four access ports of R11. -/
inductive Port where
  /-- host die HX0 -/
  | hx0
  /-- host die HX1 -/
  | hx1
  /-- the tray manager's I3C port -/
  | i3c
  /-- the control complex -/
  | cc
  deriving DecidableEq, Repr

/-- The number a port has in tables kept per port. -/
def Port.num : Port → Nat
  | .hx0 => 0
  | .hx1 => 1
  | .i3c => 2
  | .cc => 3

/-- A host port carries PCIe requests and MSI-X (R298). -/
def Port.isHost : Port → Bool
  | .hx0 | .hx1 => true
  | .i3c | .cc => false

end Sys2Proof
end

