-- ==== Sys2Proof/Syntax.lean ====
section
/-!
DEFINITION. Sys2Proof/Syntax.lean: the commands of the block, one constructor per row of the spec's table of operations and
events, in the table's order, and the data they carry. A command that only names an instant carries nothing: what it does
follows from the state.
-/
namespace Sys2Proof

/-- How many bytes a register access carries; anything below 4 is narrow (R4). -/
inductive Width where
  | byte | half | word
  deriving DecidableEq, Repr

/-- Where a read begins and how many bytes it takes (R4). -/
structure ReadAt where
  addr : BitVec 20
  width : Width
  deriving DecidableEq, Repr

/-- What hardware does to the fields of a word in the cycle of an access (R10): the fields that it updates, as the bits they stand in, and what it
brings to them: for RW1C flags the bits it sets, for counters the increment, for peaks the value measured, for any other field the value. -/
structure HwUpdate where
  fields : Word
  val : Word
  deriving DecidableEq, Repr

/-- What a warm reset resets (R9): a control complex, a host die's port, or a compute die. -/
inductive ResetDomain where
  /-- the control complex of a Hall -/
  | control (h : Hall)
  /-- a host die: HX0 is 0, HX1 is 1 -/
  | host (h : Hall)
  /-- a compute die (a compute-recovery reset, which leaves its die agent running) -/
  | compute (d : CDie)
  deriving DecidableEq, Repr

/-- The forcing faults of R292. -/
inductive ForcingFault where
  | lockstep | parity | watchdog
  deriving DecidableEq, Repr

/-- Counts of one counter of R53 latched on ACTIVITY for one engine, at one effective trim level and one permit. -/
structure Act where
  core : Core
  eng : Engine
  ctr : Fin 16
  lvl : Fin 3
  permit : Fin 3
  queue : Queue
  n : Nat
  deriving DecidableEq, Repr

/-- The cycles for which RUNNING named a queue on an engine in a period (R30). -/
structure Run where
  core : Core
  eng : Engine
  queue : Queue
  cycles : Nat
  deriving DecidableEq, Repr

/-- A core's WAIT_FEED for the period that ends: waiting engines, oldest wait, and whether all six engines were waiting
for the whole period (R198), and the engines whose head waits on synchronisation (R175). -/
structure WaitFeed where
  core : Core
  count : Fin 7
  obj : Fin 48
  eng : Engine
  coll : Bool
  all : Bool
  sync : List Engine
  deriving DecidableEq, Repr

/-- What a die agent latches at a fast-period boundary: the remote-sense voltages of its own, memory and PHY rails averaged
over the period in 0.5 mV, its counts, its RUNNING times and its wait feeds (R19, R25, R53, R54). -/
structure DieInput where
  die : Die
  vOwn : Nat
  vMem : Nat
  vPhy : Nat
  acts : List Act
  runs : List Run
  waits : List WaitFeed
  deriving DecidableEq, Repr

/-- A ring set's control block as Elkward reads it (R301). -/
structure CtlBlock where
  cmdpi : Word
  cplci : Word
  telci : Word
  stmci : Word
  deriving DecidableEq, Repr

/-- A 64-byte command entry: CMDW, TGT and the fourteen operand words from 0x08 (R306). -/
structure CmdEntry where
  cmdw : Word
  tgt : Word
  oper : List Word
  deriving DecidableEq, Repr

/-- What a read of a host buffer brings: the data, or a failed access. -/
inductive Dma (α : Type) where
  | data (a : α)
  | failed
  deriving DecidableEq, Repr

/-- Which register of a partition a membership write addresses (R185). -/
inductive PartReg where
  | dies | bind
  deriving DecidableEq, Repr

/-- The levels of a dual-polarity error pair (R285). -/
inductive PairLevel where
  | l00 | l01 | l10 | l11
  deriving DecidableEq, Repr

/-- The FATAL faults of R281. -/
inductive FatalCause where
  | short | railLatched | thermtrip | agent | steward
  deriving DecidableEq, Repr

/-- What the last flash or memory read found: no error, or one or two bits in error (R182). -/
inductive Ecc where
  | ok | single | double
  deriving DecidableEq, Repr

/-- What the die agent has counted for an invocation that completes since the last fast-period boundary, or since its start where that
came later: its counts, and its branch cycles (R163). -/
structure Measured where
  acts : List Act
  cycles : Nat
  deriving DecidableEq, Repr

/-- Where a descriptor comes from: a core queue, or a calibration pattern built into the core (R25, R373). -/
inductive DescSource where
  | queue (q : Queue)
  | pattern
  deriving DecidableEq, Repr

/-- A read of the Larder or the Cellar for a flit from a die: what the memory shows, and the parity of the flit (R20, R182). -/
structure LaneRead where
  ecc : Ecc
  parityOk : Bool
  deriving DecidableEq, Repr

/-- A flit that reaches a die agent: the die, and its parity (R20). -/
structure LaneFlit where
  die : CDie
  parityOk : Bool
  deriving DecidableEq, Repr

/-- A domain whose extension falls by a sixteenth, and the cycles of the step that it ran before the count as DROOP last changed, change by
change (R151, R153). -/
structure ReleaseRun where
  dom : Core
  cycles : List Nat
  deriving DecidableEq, Repr

/-- The second part of a targeted self-test: how many of its 1 024 launches tripped; and the third: the tap that its sweep found (R157). -/
structure QuietTest where
  tripped : Nat
  deriving DecidableEq, Repr
structure SweepTest where
  tap : Nat
  deriving DecidableEq, Repr

/-- A unit that ramps: a clock domain, or a core branch of a CCLK domain (R137, R140). -/
inductive ClockUnit where
  | domain (d : Fin 80)
  | branch (k : Fin 128)
  deriving DecidableEq, Repr

/-- A memory whose word is self-tested (R288). -/
inductive MemUnit where
  | larder | cellar
  deriving DecidableEq, Repr

/-- Why a control pair stops (R325). -/
inductive PairStop where
  | mismatch | ecc
  deriving DecidableEq, Repr

/-- A seed record read from a host buffer: the eight words of a Larder entry (R162, R178). -/
structure SeedRec where
  words : List Word
  deriving DecidableEq, Repr

/-- A synchronisation wait that has ended on a core, as its synchronisation unit reports it (R357). -/
structure WaitInfo where
  core : Core
  eng : Engine
  queue : Queue
  obj : Fin 48
  sigDie : Die
  sigCore : Core
  sigEng : Fin 8
  coll : Bool
  periods : Nat
  deriving DecidableEq, Repr

/-- An engine that starts a descriptor, as RUNNING names it, and whether it has issued that descriptor's last operation by the end of the
slot (R124, R164). -/
structure EngStart where
  core : Core
  eng : Engine
  queue : Queue
  ended : Bool
  deriving DecidableEq, Repr

/-- What a die agent senses in one slot of a rail: VSENSE averaged over root counts S − 600 to S − 400 in 0.5 mV, the sums over the
slot's IMON samples of each wired phase in 1/16 A before the offset is removed, how many samples, TMON in mV, and the engines that
started a descriptor in the slot (R82, R87, R124). -/
structure SlotInput where
  vsense : Nat
  imon : List Int
  samples : Nat
  tmon : Nat
  starts : List EngStart
  deriving DecidableEq, Repr

/-- What a die agent has at the end of a rail's pre-start window: each wired phase's IMON offset in 1/16 A, and the sensed voltage in 0.5 mV, from
which the rail starts (R92, R93). -/
structure WindowRead where
  offs : List Int
  vsense : Nat
  deriving DecidableEq, Repr

/-- A Chain frame as it is received, without its check: 32 bytes (R244). -/
structure Frame where
  bytes : List Octet
  deriving DecidableEq, Repr

/-- Why an ageing measurement ends without a result (R267): the rail left REG, a bind arrived, or the Halls changed roles. -/
inductive AbandonCause where
  | rail | bind | role
  deriving DecidableEq, Repr

/-- What one ageing monitor counted over the gate: its stressed and its shielded oscillator (R265). -/
structure GateCount where
  stressed : Nat
  shielded : Nat
  deriving DecidableEq, Repr

/-- What the sweep of one droop detector found: the highest taps that every launch reached at the two voltages (R155). -/
structure DetFound where
  det : Fin 64
  clo : Octet
  chi : Octet
  deriving DecidableEq, Repr

/-- What the control complex finds on one die: its detectors' characteristics, the coefficients, leakage grid points and memory-rail static
power that its regression refines, and the feed-forward gain (R54, R122, R155). -/
structure DieFound where
  die : Die
  dets : List DetFound
  coefs : List (Fin 16 × BitVec 24)
  leak : List (Fin 64 × BitVec 16)
  memlk : Option (BitVec 16)
  ffgain : Option (BitVec 10)
  deriving DecidableEq, Repr

/-- The compensator coefficients that tuning finds for a rail: B0 to B3, then A1 to A3 (R88). -/
structure RailFound where
  rail : Rail
  coefs : List (BitVec 16)
  deriving DecidableEq, Repr

/-- How a calibration step ended: what it found, and the dies that it had not finished when its time was over (R373). -/
structure StepResult where
  rails : List RailFound
  dies : List DieFound
  missed : List Die
  deriving DecidableEq, Repr

/-- An image as it lies in memory: the words of its header and of its two parts (R328). -/
structure Image where
  words : List Word
  deriving DecidableEq, Repr

/-- A policy blob as it lies in memory: the words of its header, its records and its check word (R332). -/
structure Blob where
  words : List Word
  deriving DecidableEq, Repr

/-- The commands. Each docstring gives the rule and the table's own summary. -/
inductive Instr where
  /-- R7: A write to a register field that has no row of its own lands according to its access kind, or is discarded with or without a flag (narrow, unmapped, read-only or wrong-port writes). -/
  | registerWrite (port : Port) (addr : BitVec 20) (val : Word) (width : Width) (hw : Option HwUpdate)
  /-- R6: A read of the lower half of a 64-bit register latches the upper half in the port's own read latch. -/
  | lowerHalfRead (port : Port) (addr : ReadAt)
  /-- R6: A write to the upper half of a 64-bit register commits the whole value with the lower half held by the same port. -/
  | upperHalfWrite (port : Port) (addr : BitVec 20) (val : Word)
  /-- R7: A read of a read-to-clear field returns its value and then clears it, keeping any same-cycle hardware update. -/
  | rcRead (port : Port) (addr : ReadAt) (hw : Option HwUpdate)
  /-- R9: A reset that leaves the always-on supply up clears RW, RW1C and RC fields in the blocks it resets and keeps RWS and RWL fields. -/
  | warmReset (dom : ResetDomain)
  /-- R371: AON_PWRGD rises, the boot ROM starts and the service state becomes COLD. -/
  | powerOn
  /-- R282: The always-on supply is removed or AON_PWRGD falls, which clears FATAL, latched rails, retirements and RWL limits. -/
  | aonRemoved
  /-- R16: A die agent's island regains power after an outage, increments its generation tag and runs its die at the FLOOR settings. -/
  | dieAgentReset (die : Die)
  /-- R289: The Hall admits a restarted die agent at its new generation, restores its calibration and retirement state and sends its first grant. -/
  | dieAdmit (die : Die)
  /-- R19: At a fast-period boundary each die agent applies the grant received, latches the period's counts and starts its period report. -/
  | periodBoundary (ins : List DieInput)
  /-- R20: A Hall receives a period report, drops it on bad parity or a stale generation, and charges late or over-limit energy. -/
  | reportReceived (hall : Hall) (die : Die) (parityOk : Bool) (late : Bool)
  /-- R32: At B + 40 ns the active Hall samples every limit input, forms the period limit and computes the allocation and grants. -/
  | samplingInstant
  /-- R197: A die agent receives a grant, and discards it if its period, generation or role epoch is stale. -/
  | grantReceived (die : Die) (parityOk : Bool)
  /-- R18: The standby Hall receives the active Hall's period beacon. -/
  | beaconReceived
  /-- R292: The standby Hall declares a missed beacon, and on the fourth consecutive miss takes the active role. -/
  | beaconMissed
  /-- R292: The active Hall reports a lockstep mismatch, logic parity error or watchdog expiry, and the standby takes over at the next B + 150 ns. -/
  | hallForcingFault (kind : ForcingFault)
  /-- R293: A die agent reaches a boundary with no new grant, enters STEWARD and holds its last grant. -/
  | stewardEntry (die : Die)
  /-- R201: After 8 held periods in STEWARD, the die agent takes its stewardship share and sets its divisors to fit it. -/
  | stewardHoldEnd (die : CDie)
  /-- R295: STEWARD has lasted FLT.STEWMAX without a grant, and the latches set FATAL. -/
  | stewardTimeout
  /-- R294: A restarted control complex passes its boot checks, completes its mirror and rejoins as standby. -/
  | standbyRejoin
  /-- R383: POWER_ALERT_N falls past its glitch filter and every die agent forces the floor state within 100 ns. -/
  | powerAlertAssert
  /-- R36: POWER_ALERT_N has been high for 1 ms, and its forcing of the floor state is released. -/
  | powerAlertRelease
  /-- R382: A filtered edge of THROTTLE_N changes tray_cap at the next sampling instant. -/
  | throttleEdge (level : Bool)
  /-- R27: A descriptor enters a lookahead window, its power word is read once, reserved codes are substituted and the Pantry lookup starts. -/
  | descriptorEntersWindow (die : CDie) (core : Core) (eng : Engine) (src : DescSource) (pw : Word64)
  /-- R110: A core raises STEP_REQ for the head descriptor of an engine whose class is at or above the request threshold. -/
  | stepRequest (die : CDie) (core : Core) (eng : Engine)
  /-- R163: An engine issues the last operation of a descriptor, and the die agent measures its energy and cycles and queues an update record. -/
  | invocationComplete (die : CDie) (core : Core) (eng : Engine) (m : Measured)
  /-- R391: A compute die enters compute-recovery reset, abandoning running descriptors, windows and pending requests. -/
  | computeRecoveryReset (die : CDie)
  /-- R111: At A_g the die agent ranks the pending requests and serves, delays or refuses them against the slot budget and the headroom. -/
  | admissionArbitration (die : CDie)
  /-- R87: In each slot of a switching rail, the die agent averages the sense, evaluates the compensator, fires the assigned phase and updates slot means, taps and shedding. -/
  | railSlot (rail : Rail) (inp : SlotInput)
  /-- R100: A phase current reaches a cycle-by-cycle limit and the pulse ends at once, or the rail sum exceeds OCLIM.RAIL and the rail enters HICCUP. -/
  | pulseCurrentLimit (rail : Rail) (phase : Phase) (cur : Nat) (sum : Nat)
  /-- R82: A phase IMON is out of range for 4 consecutive samples, is masked and starts its targeted self-test. -/
  | imonMask (rail : Rail) (phase : Phase)
  /-- R91: The sense has exceeded VMAX plus 20 mV for 4 slots, and the rail's phases are tri-stated for the rest of each switching cycle. -/
  | vmaxCut (rail : Rail)
  /-- R98: The rail current has stayed below the shed threshold for DLY cycles, and the highest active phase is shed. -/
  | phaseShed (rail : Rail)
  /-- R88: Writing COMP.A3C.COMMIT copies the shadow coefficient set into use at the next slot boundary, unless the pole check fails. -/
  | compCommit (rail : Rail)
  /-- R93: Setting CFG.EN moves an OFF rail to CHECK and starts the input wait. -/
  | railEnable (rail : Rail)
  /-- R97: Clearing CFG.EN moves a switching rail to DOWN, or ends a check at once. -/
  | railDisable (rail : Rail)
  /-- R93: TMON reaches 0.30 V in CHECK and the decay wait begins. -/
  | checkInputPresent (rail : Rail)
  /-- R93: TMON does not show input within 10 ms, so the rail returns to OFF with NOINPUT and a CONTAINED fault. -/
  | checkInputTimeout (rail : Rail)
  /-- R93: The sensed voltage falls to 0.25 V or below and the 200 µs window opens. -/
  | checkDecayed (rail : Rail)
  /-- R93: The rail has not decayed within 20 ms and a short is declared. -/
  | checkDecayTimeout (rail : Rail)
  /-- R93: The 200 µs window ends, the phase offsets are stored and the rail enters RAMP. -/
  | checkWindowEnd (rail : Rail) (win : WindowRead)
  /-- R102: A start has not reached 90 % of target within four ramp times plus 1 ms, and is handled as a hiccup. -/
  | railStartTimeout (rail : Rail)
  /-- R101: After 8 current-limited cycles or a TMON fault, the rail enters HICCUP, its dies are held in reset, the counts rise, and the rail latches at CONSEC 4. -/
  | hiccupEntry (rail : Rail) (tmon : Bool)
  /-- R101: The 20 ms hiccup ends and the rail enters CHECK. -/
  | hiccupEnd (rail : Rail)
  /-- R103: A rail that has stayed in REG for 1 s clears HICCUP.CONSEC. -/
  | consecClear (rail : Rail)
  /-- R104: TMON has been below 0.20 V for 1 ms in REG, so the rail enters CHECK with NOINPUT and a CONTAINED fault. -/
  | railInputLost (rail : Rail)
  /-- R97: A rail in DOWN reaches 0.10 V and enters OFF. -/
  | railDownComplete (rail : Rail)
  /-- R106: At each fabric-time second the rail's 1 s averages update. -/
  | railTel1s (rail : Rail)
  /-- R226: At H_m the die agents latch the sensor means and node energies, the Hall closes the window bin, and the gains and 1 ms rail averages update. -/
  | hearthBoundary
  /-- R74: Every 1 ms the Hall checkpoints every die's queue accumulators. -/
  | accumulatorCheckpoint
  /-- R226: The Hearth run's outputs are committed together at H_m + 200 µs, replacing the running credit. -/
  | hearthRunCommit
  /-- R227: A run is not ready at H_m + 200 µs, MISS counts it, and the 4-miss and 20-miss responses apply. -/
  | hearthRunMissed
  /-- R219: A sensor conversion completes, is trimmed, and is compared with the 115 °C and 125 °C thresholds. -/
  | thermalConversion (die : Die) (idx : Fin 48) (raw : Int)
  /-- R219: Every sensor of a tripped die has read below the release level for 10 ms, and the junction-trip floor state is released. -/
  | lintelTripRelease
  /-- R218: A suspect sensor's reference-junction test completes, and the sensor is cleared or retired. -/
  | sensorSelftest (die : Die) (idx : Fin 48) (err : Int)
  /-- R225: The tray manager writes HRT.INLET.VAL, which is clamped if out of range and clears STALE. -/
  | inletWrite (port : Port) (val : BitVec 16)
  /-- R225: INLET.AGE reaches 1 000 ms, STALE is set and the worst inlet temperature is used. -/
  | inletStale
  /-- R232: At each fabric-time second the Hall latches e1, W1PK and W1COOL. -/
  | windowLatch1s
  /-- R232: At each multiple of 30 s the Hall latches e30 into HRT.W30LAT. -/
  | windowLatch30s
  /-- R65: A telemetry sample interval ends, the sample is quantised and coded, and the block closes if full. -/
  | telemetrySample (die : Die)
  /-- R69: A multiple of STMTIVL after binding is reached, and a PERIODIC statement falls due. -/
  | statementPeriodic (part : Part)
  /-- R73: A pending statement is written as four parts to the statement ring when there is room, with merging if pending statements overflow. -/
  | statementDelivery (rs : Part)
  /-- R129: Amplitude is detected on a crystal, which enters COUNT. -/
  | xtalAmplitude (x : Xtal)
  /-- R129: A crystal completes 1 048 576 cycles without a drop and becomes STABLE. -/
  | xtalStable (x : Xtal)
  /-- R134: A STABLE crystal drops amplitude for 4 cycles, becomes FAILED, and if selected the reference switches. -/
  | xtalLoss (x : Xtal)
  /-- R129: A crystal is not STABLE within 250 ms of AON_PWRGD or of a retry, and becomes FAILED. -/
  | xtalTimeout (x : Xtal)
  /-- R130: A FAILED crystal starts a retry 1 s after its previous attempt. -/
  | xtalRetry (x : Xtal)
  /-- R131: A 1 ms trim gate ends and the internal oscillator's trim code is set or adjusted. -/
  | oscTrimGate (beacons : Bool) (count : Nat)
  /-- R132: Once TRIMMED, the selector switches the reference from the internal oscillator to the first STABLE crystal. -/
  | refSwitch
  /-- R136: A root PLL loses lock and enters holdover, and its CCLK branches take ÷32. -/
  | pllLossOfLock (die : Die)
  /-- R136: A PLL in holdover regains lock, and its branches ramp back. -/
  | pllRelock (die : Die)
  /-- R136: Holdover lasts 1 ms, a CONTAINED fault is raised, and the die is excluded from allocation. -/
  | pllHoldoverTimeout (die : Die)
  /-- R140: After CYC cycles at a divisor, the branch or domain moves one dither step towards its target and recomputes the governed depth. -/
  | divisorRampStep (tgt : ClockUnit)
  /-- R150: A detector trips at the capture instant, which sets the droop extension X and restarts hold. -/
  | droopTrip (die : Die) (det : Fin 64) (tap : BitVec 8) (queue : Queue)
  /-- R150: The hold of LEN cycles ends, and X begins to fall. -/
  | droopHoldEnd (die : Die) (dom : Core) (cycles : List Nat)
  /-- R151: After CYC cycles, X falls by 1/16, and the episode ends when X reaches zero. -/
  | droopReleaseStep (die : Die) (run : ReleaseRun)
  /-- R156: In each fabric-time millisecond, one detector is tested, and it is retired if it fails. -/
  | detectorSelftest (die : Die) (hi : Bool) (lo : Bool)
  /-- R157: The three-part targeted test of a detector completes, and the detector resumes or is retired. -/
  | detectorTargetedTest (die : Die) (det : Fin 64) (forced : Bool) (quiet : QuietTest) (sweep : SweepTest)
  /-- R159: X has stayed above zero for 16 fast periods, so PERSIST is set and a CORRECTED fault is raised. -/
  | droopPersist (die : Die) (dom : Core)
  /-- R159: X has stayed above zero for 1 ms and a CONTAINED fault is raised. -/
  | droopPersistLong (die : Die) (dom : Core)
  /-- R166: The active Hall applies an arriving update record to the Larder entry, fetching it from the Cellar or creating it. -/
  | larderUpdateRecord (read : LaneRead)
  /-- R169: A Pantry miss reaches the Hall, which answers from the Larder or issues a Cellar read or a default reply. -/
  | larderLookupRequest (die : CDie) (read : LaneRead)
  /-- R169: A Cellar read completes, and the entry moves into the Larder and is sent to the die. -/
  | cellarReadComplete (ecc : Ecc)
  /-- R169: A lookup reply reaches the die agent and is installed in the Pantry or the overflow buffer. -/
  | lookupReply (flit : LaneFlit)
  /-- R169: No reply has come by L + 4 000 ns, so the default is used and PNTLATE increments. -/
  | lookupTimeout (die : CDie)
  /-- R177: The standby Hall receives a streamed Larder entry and drops the replayed records it covers. -/
  | larderMirrorReceive
  /-- R185: A write to ALC.PART[p].DIES or BIND is checked for overlap, then committed in two phases at a boundary, causing a FINAL statement on rebind. -/
  | partitionWrite (port : Port) (part : Part) (which : PartReg) (val : Word)
  /-- R290: Die agents receive PREPARE(g), stage it, apply its lowering parts and acknowledge. -/
  | twoPhasePrepare (die : CDie)
  /-- R290: Die agents receive COMMIT(g) and apply the rest of the change. -/
  | twoPhaseCommit (die : CDie)
  /-- R291: An acknowledgement is still missing at P + 5 µs, so ABORT(g) is sent and the change is rolled back. -/
  | twoPhaseAbort
  /-- R281: The FATAL latches set, the floor state is forced, GOV_ERR reads 10 and the package enters FAILSAFE. -/
  | fatalLatch (src : FatalCause) (unit : BitVec 16)
  /-- R280: A CONTAINED fault's escalation timer expires, and every partition in scope is unbound and stopped with a STOPPED statement. -/
  | escalation (slot : Fin 16)
  /-- R278: A write to FLT.ACK acknowledges one or every pending fault and cancels escalation. -/
  | faultAck (port : Port) (val : Word)
  /-- R284: A write to FLT.FCLR re-arms first-error capture for the classes selected. -/
  | firstErrorRearm (port : Port) (cls : BitVec 3)
  /-- R287: Arms one inverted check bit on the next Larder write. -/
  | injectLard1 (port : Port)
  /-- R287: Arms two inverted check bits on the next Larder write. -/
  | injectLard2 (port : Port)
  /-- R287: Arms one inverted check bit on the next Cellar write. -/
  | injectCell1 (port : Port)
  /-- R287: Arms two inverted check bits on the next Cellar write. -/
  | injectCell2 (port : Port)
  /-- R287: Arms inverted parity on the next flit from die DIE to the active Hall. -/
  | injectLane (port : Port) (die : Die)
  /-- R287: Arms inverted parity on the next write to mailbox MB. -/
  | injectMbox (port : Port) (mb : Mbox)
  /-- R287: Arms an inverted check bit 0 on the next Chain frame originated. -/
  | injectChain (port : Port)
  /-- R241: Writing CHN.INJ.CRCINV inverts bit 0 of the check of the next frame the node originates. -/
  | chnInjCrcinv (port : Port)
  /-- R285: An error pair holds 10 for two samples, setting FATAL, or 00 or 11 for two samples, marking the pair broken. -/
  | errorPairLevel (die : Die) (hall : Hall) (level : PairLevel)
  /-- R288: A masked phase's TMIN pulse test completes, and the phase is kept or retired. -/
  | phaseSelftest (rail : Rail) (phase : Phase) (before : Int) (during : Int)
  /-- R288: A Larder or Cellar word is rewritten and read back twice, and the way is withdrawn if it fails. -/
  | memoryWordSelftest (u : MemUnit) (set : Nat) (pass : Bool)
  /-- R288: 64 test flits are sent on a governor lane, and the lane is retired and relayed if they fail. -/
  | laneSelftest (die : Die) (hall : Hall) (pass : Bool)
  /-- R288: A test word is written to a mailbox and read back, and a CONTAINED fault is raised if it fails. -/
  | mailboxSelftest (mb : Mbox) (pass : Bool)
  /-- R288: A die agent has sent no report at its generation for 16 periods, or has lost both lanes, and is handled by die kind. -/
  | agentUnresponsive (die : Die)
  /-- R288: The 100 µs island power cut of an unresponsive die agent ends and the switch closes again. -/
  | islandCycleEnd (die : Die)
  /-- R325: A control pair's firmware watchdog expires and the pair stops. -/
  | watchdogExpiry (hall : Hall)
  /-- R325: A lockstep mismatch or uncorrectable SRAM error stops a control pair. -/
  | lockstepMismatch (hall : Hall) (kind : PairStop)
  /-- R238: A Chain receiver sees 64 valid commas and becomes aligned, then starts listening. -/
  | chainAligned
  /-- R238: 4 code violations within 64 characters make the receiver lose alignment. -/
  | chainAlignLoss
  /-- R258: After a LEDGER passes, or 64 µs pass with none, the node asserts CHAIN_BYP_HOLD and joins the ring. -/
  | chainListenEnd
  /-- R260: The receiver has stayed unaligned for 1 ms, so NOLINK is set and a CONTAINED fault is raised. -/
  | chainNolink
  /-- R240: A node starts a frame of its own after at least 4 idles and the standby's acknowledgement. -/
  | frameInsert
  /-- R240: A /S/ arrives during the node's own frame, so it sends /A/, forwards the arriving frame and resends later. -/
  | frameAbort
  /-- R241: A received frame with a wrong check is forwarded stomped, counted and raises a CORRECTED fault. -/
  | crcErrorFrame (f : Frame) (check : Word)
  /-- R245: A frame of reserved type is forwarded unchanged except for HOPS and counted in CHN.UNKNOWN. -/
  | reservedFrame (f : Frame)
  /-- R243: A node strips its own returning frame, or a frame at HOPS 127 or more. -/
  | frameStrip (f : Frame)
  /-- R256: An ACTIVE node that has seen no LEDGER for 64 µs, or whose claim did not return, sends a CLAIM. -/
  | claimSend
  /-- R256: A node forwards, withdraws on or strips a CLAIM, and becomes originator when its own CLAIM returns. -/
  | claimReceived (f : Frame)
  /-- R256: The random 16 to 64 µs claim back-off ends, and the node claims again if still without a LEDGER. -/
  | claimBackoffEnd
  /-- R248: The originator sends the next LEDGER round with its flags, epoch, RVER and previous totals. -/
  | ledgerSend
  /-- R248: An ACTIVE node forwarding a LEDGER adopts epoch and RVER, takes its position, adds its holding and home, and then decides on lending. -/
  | ledgerPass (f : Frame)
  /-- R250: The originator checks the returned LEDGER plus seam sum against HOME and sets the next round's flags. -/
  | ledgerReturn (f : Frame)
  /-- R251: A LEDGER has not returned within 2 × RNDIVL + 8 µs, so it is counted lost and the next round is sent. -/
  | ledgerLost
  /-- R254: The named taker takes an OFFER by rewriting it to TAKE and adds AMOUNT once the check proves correct, or forwards it. -/
  | offerReceived (f : Frame)
  /-- R254: A lender's frame returns as TAKE, recording the loan, or as OFFER, re-adding AMOUNT in the current epoch. -/
  | offerReturn (f : Frame)
  /-- R253: An outstanding OFFER times out after 2 × RNDIVL + 8 µs without re-adding AMOUNT. -/
  | offerTimeout (k : Nat)
  /-- R252: Every BCNIVL an ACTIVE node sends a BEACON with up to three partition records. -/
  | chainBeaconSend
  /-- R252: A node keeps the received partition records and their slack, TAKEOK and RECALL flags. -/
  | chainBeaconReceived (f : Frame)
  /-- R261: Every 1 ms an ACTIVE node sends a VERSION frame. -/
  | versionSend
  /-- R261: The originator records a node's VMIN and VMAX in order to set RVER. -/
  | versionReceived (f : Frame)
  /-- R246: A write to CHN.HOME sets holding to home the first time, and later applies the difference at the next LEDGER pass. -/
  | homeWrite (port : Port) (val : BitVec 16)
  /-- R267: At a qualifying job boundary the control complex excludes the die, holds it at ÷32 and 0.75 V, and opens the gate. -/
  | ageMeasureStart (die : Die)
  /-- R265: The 1 ms ageing gate ends, slowdowns and ΔV are formed, and margin and forecast are updated. -/
  | ageMeasureComplete (die : Die) (counts : List GateCount)
  /-- R267: A rail leaves REG, a bind arrives, or a role change happens, so the measurement is abandoned and the die is released. -/
  | ageMeasureAbandon (die : Die) (cause : AbandonCause)
  /-- R269: The control complex raises the V-F table or rail target, re-characterises the detectors and returns the die. -/
  | ageReplan (die : Die) (found : DieFound)
  /-- R273: A suspect monitor's four repeated gates complete, and the reading stands or the monitor is retired. -/
  | monitorSelftest (die : Die) (idx : Fin 8) (dev : Nat) (counted : Bool)
  /-- R266: Every 60 s the control complex writes AGE.OPTIME to the flash. -/
  | optimeSave
  /-- R266: A die unmeasured for 168 operating hours, or with a re-plan overdue, sets PEND. -/
  | agePend (die : Die)
  /-- R313: A write of 1s to HIF.DBSET latches doorbell bits in DBPEND, or discards them and sets DBDISC. -/
  | doorbellSet (port : Port) (val : Word)
  /-- R313: Firmware takes a pending, unmasked doorbell, clears it and reads the ring set's control block. -/
  | doorbellTake (bit : Fin 32) (ctl : CtlBlock)
  /-- R301: Every 1 ms Elkward reads a RUNNING ring set's control block. -/
  | controlBlockPoll (rs : Part) (ctl : CtlBlock)
  /-- R305: Setting CTRL.EN from DISABLED moves the ring set to RUNNING with the indexes at 0 and the phases at 1. -/
  | ringSetEnable (port : Port) (rs : Part) (val : Word)
  /-- R305: Clearing CTRL.EN moves the ring set to STOPPING, and no new fetch starts. -/
  | ringSetDisable (port : Port) (rs : Part) (val : Word)
  /-- R305: A STOPPING ring set has no access outstanding, sets IDLE and becomes DISABLED. -/
  | ringSetIdle (rs : Part)
  /-- R300: A host memory request completes with an error, so the ring set enters ERROR and a CORRECTED fault is raised. -/
  | hostAccessFail (rs : Part)
  /-- R309: Elkward fetches a command entry, checks PHASE and reserved bytes, and starts it subject to barriers and the limit of 8. -/
  | commandFetch (rs : Part) (entry : CmdEntry)
  /-- R307: Command 0x01 completes with no effect. -/
  | nop (rs : Part) (cid : BitVec 16)
  /-- R307: Command 0x02 acknowledges a pending fault or all pending faults. -/
  | ackfault (rs : Part) (cid : BitVec 16)
  /-- R307: Command 0x03 changes the class of the masked cores from the next sampling instant. -/
  | setclass (rs : Part) (cid : BitVec 16)
  /-- R307: Command 0x04 causes a DEMAND statement. -/
  | statement (rs : Part) (cid : BitVec 16)
  /-- R307: Command 0x05 writes a FINAL statement and clears the binding by two-phase change. -/
  | endjob (rs : Part) (cid : BitVec 16)
  /-- R307: Command 0x06 sets a partition's dies and job tag by two-phase change. -/
  | bind (rs : Part) (cid : BitVec 16)
  /-- R307: Command 0x07 sets a partition's policy and cap by two-phase change. -/
  | setpolicy (rs : Part) (cid : BitVec 16)
  /-- R307: Command 0x08 writes ALC.HOSTCAP, refused as a raise in HELD. -/
  | hostcap (rs : Part) (cid : BitVec 16)
  /-- R178: Command 0x09 installs seed records into the Larder with COUNT capped at SEEDCAP. -/
  | lseed (rs : Part) (cid : BitVec 16) (recs : Dma (List SeedRec))
  /-- R179: Command 0x0A removes a key or a whole tag from the Larder, the available Cellar parts and every Pantry. -/
  | lclear (rs : Part) (cid : BitVec 16)
  /-- R180: Command 0x0B writes every entry of a tag to a host buffer. -/
  | lexport (rs : Part) (cid : BitVec 16) (ok : Bool)
  /-- R352: Command 0x0C arms a counter freeze at a fabric time. -/
  | freeze (rs : Part) (cid : BitVec 16)
  /-- R360: Command 0x0D requests a hang snapshot of all die agents and the Chain port. -/
  | snapshot (rs : Part) (cid : BitVec 16)
  /-- R360: At the first boundary after SNAPSHOT starts, the hardware captures the state and writes it to the buffer. -/
  | snapshotCapture (rs : Part) (cid : BitVec 16) (ok : Bool)
  /-- R338: Command 0x0E accepts a live update and starts DOWNLOAD of the image into the inactive slot. -/
  | update (rs : Part) (cid : BitVec 16) (img : Dma Image)
  /-- R334: An UPDATE whose buffer begins with the blob magic checks the policy blob, then erases and programs the policy region. -/
  | policyInstall (rs : Part) (cid : BitVec 16) (blob : Blob)
  /-- R316: IMOD after the last send, a moderated vector is sent if an entry has been written since. -/
  | msixModerationExpiry (vec : Fin 32)
  /-- R318: A sender's TAG write posts the message, sets FULL or COLLISION, and tells the receiver. -/
  | mailboxPost (port : Port) (mb : Mbox) (tag : Word)
  /-- R318: The receiver writes 1 to STAT.FULL, which releases the mailbox and tells the sender. -/
  | mailboxRelease (port : Port) (mb : Mbox)
  /-- R321: The receiver reads PTR or TAG, and a parity error sets PERR, releases the mailbox and raises a fault. -/
  | mailboxRead (port : Port) (mb : Mbox) (tag : Bool)
  /-- R331: A boot ROM runs its self-test, updates the selector if first, and loads and verifies the image slot. -/
  | bootRom (hall : Hall) (selfOk : Bool)
  /-- R333: At control-complex start, firmware checks the policy blob and applies its records, or uses the factory defaults. -/
  | policyApply (hall : Hall)
  /-- R335: A write to FWC.CRCSEED loads the port's running CRC value and clears CRCCNT. -/
  | crcSeed (port : Port) (val : Word)
  /-- R335: A write to FWC.CRCW feeds four bytes into the port's CRC. -/
  | crcFeedWord (port : Port) (val : Word)
  /-- R335: A write to FWC.CRCB feeds one byte into the port's CRC. -/
  | crcFeedByte (port : Port) (val : Octet)
  /-- R338: The image copy into the inactive slot completes, and verification follows. -/
  | updateDownloadDone (ok : Bool)
  /-- R329: Verification of the downloaded slot completes, and the standby restarts on it or the update fails. -/
  | updateVerifyDone
  /-- R340: The standby control complex runs the new image, and the active firmware quiesces and writes the handover record. -/
  | standbyLoaded
  /-- R340: The standby firmware replies ACCEPT or REFUSE to the handover record. -/
  | handoverReply (accept : Bool)
  /-- R341: At B_s the roles swap with no lost grant and the role epoch increments. -/
  | updateSwap
  /-- R342: The new firmware has resumed fetching, answered mailboxes and committed its first Hearth run, and LOADOLD begins. -/
  | takeoverComplete
  /-- R342: Takeover is not complete by B_s + 10 ms, so the old Hall takes the role back and the update fails. -/
  | takeoverDeadline
  /-- R338: The old active Hall restarts on the new slot and the selector is written for TRIAL. -/
  | oldHallReloaded
  /-- R343: A write of FWC.UPD.CONFIRM in TRIAL sets CONFIRMED and blows the SVN fuses if needed. -/
  | updateConfirm (port : Port)
  /-- R343: A write of FWC.UPD.ABORT in stages 1 to 4 fails the update with FAILC 6. -/
  | updateAbort (port : Port)
  /-- R351: At each fabric-time second, the WIN sets and GSTAT latch from LIVE and LIVE restarts. -/
  | obsSecondLatch
  /-- R349: A read of a view page's QDATA returns QEA[QSEL] for the partition's own dies, or zero with DENY set. -/
  | viewQdataRead (port : Port) (part : Part) (word : Fin 4)
  /-- R352: Writing the upper half of OBS.FRZT arms a freeze at time T, or at the next boundary with LATE set. -/
  | freezeArm (port : Port) (val : Word)
  /-- R352: At the first boundary at or after T, every covered counter freezes its readable value. -/
  | freezeStart
  /-- R353: A write of FRZCTL.THAW ends the freeze at the next boundary, and due latches are taken. -/
  | freezeThaw (port : Port)
  /-- R353: The freeze has lasted MAXMS and ends. -/
  | freezeMaxExpiry
  /-- R355: A token allows a die agent to drain a record to the active Hall, which writes it to the trace ring. -/
  | traceDrain (die : Die)
  /-- R358: 1 ms after an entry is written below the watermark, vector 34 is sent. -/
  | traceVectorTimer
  /-- R361: A queued event is written as an Attic record subject to the rate limit, with the sector ahead erased. -/
  | atticRecordWrite (ok : Bool)
  /-- R366: Flash programming fails twice or the flash stops answering, and recording moves to the RAM ring. -/
  | atticFailure
  /-- R364: A write to ATC.CUR starts a fetch of the record at that index. -/
  | atticCursorWrite (port : Port) (val : Word)
  /-- R364: The record fetch completes, DATA holds it, BUSY clears and BAD or EMPTY are set. -/
  | atticFetchComplete (port : Port)
  /-- R364: With CUR.AUTO set, a read of DATA[7] advances the cursor and fetches the next record. -/
  | atticData7Read (port : Port)
  /-- R365: Setting ATC.CFG.FREEZE stops recording after the record in progress, and events queue. -/
  | atticFreeze (port : Port)
  /-- R365: FREEZE clears itself 10 s after it was set, and the queued events are recorded. -/
  | atticFreezeExpiry
  /-- R371: At a fast-period boundary where all conditions hold, the service state advances COLD to FLOOR to CALIBRATING to FULL. -/
  | stateAdvance
  /-- R372: Once every rail of the previous group has VREADY, the firmware starts the next Voxrov rail group. -/
  | railGroupStart
  /-- R373: A calibration step completes or overruns its time, and the next step starts. -/
  | calibrationStepEnd (r : StepResult)
  /-- R374: 2 s in CALIBRATING pass, after which FULL no longer waits for a ready standby. -/
  | calibratingWaitExpiry
  /-- R375: CCC ENTDAA assigns the I3C port a dynamic address. -/
  | entdaa (da : BitVec 7)
  /-- R375: CCC RSTDAA clears the I3C port's dynamic address. -/
  | rstdaa
  /-- R375: CCC SETNEWDA changes the I3C port's dynamic address. -/
  | setnewda (da : BitVec 7)
  /-- R375: CCC ENEC enables in-band interrupts. -/
  | enec
  /-- R375: CCC DISEC disables in-band interrupts. -/
  | disec
  /-- R375: CCC GETPID returns the 48-bit provisional ID. -/
  | getpid
  /-- R375: CCC GETBCR returns BCR 0x06. -/
  | getbcr
  /-- R375: CCC GETDCR returns DCR 0x00. -/
  | getdcr
  /-- R375: CCC GETSTATUS returns the target status. -/
  | getstatus
  /-- R375: CCC GETMWL reports a maximum write length of 64 bytes. -/
  | getmwl
  /-- R375: CCC GETMRL reports a maximum read length of 64 bytes. -/
  | getmrl
  /-- R376: A private write carries an address and up to 15 words to consecutive registers, or is discarded as a protocol error. -/
  | i3cPrivateWrite (bytes : List Octet)
  /-- R376: After an address write, a private read returns 1 to 16 words from consecutive registers. -/
  | i3cPrivateRead (words : Nat)
  /-- R377: An unacknowledged in-band interrupt is raised again after 1 ms while its cause stands. -/
  | ibiRetry
  /-- R378: An edge on TM_HEARTBEAT is timed against the 250 µs to 2 ms interval window. -/
  | tmHeartbeatEdge (interval : Nat)
  /-- R380: After 16 valid intervals TM_HEARTBEAT is present, and HELD ends at the next sampling instant. -/
  | tmHeartbeatPresent
  /-- R379: No edge has come for 500 ms, so FULL enters HELD with a CORRECTED fault and a STATE notice. -/
  | tmHeartbeatLost
  /-- R379: 8 s after the last heartbeat edge, the floor state is forced and a STOPREQ notice is posted. -/
  | held8s
  /-- R25: Every 500 µs the active Hall toggles GOV_HEARTBEAT, except in FAILSAFE. -/
  | govHeartbeatToggle
  /-- R385: A write of 1 to GOV.TMCTL.SHUT starts the orderly shutdown with FINAL statements and the grain drain. -/
  | shutdown (port : Port) (val : Word)
  /-- R385: HOLDING reaches home or DRAINMS passes, so the node goes PASSIVE, forces the floor state and saves OPTIME. -/
  | shutdownDrainEnd
  /-- R385: Once the previous group is OFF, the next rail group stops in reverse order, and after the last SHUTDONE is set and the state becomes COLD. -/
  | shutdownRailGroupStop
  /-- R129: An amplitude drop below the detection level while a crystal is in COUNT returns it to NOAMP and discards the count. -/
  | xtalCountDrop (x : Xtal)
  /-- R135: A die's root PLL acquires lock within 50 µs of the reference being present and its CLK.LOCK bit is set. -/
  | rootPllLock (die : Die)
  /-- R93: The sensed rail voltage rises above 0.25 V at a sample in the 200 µs CHECK window, a short is declared and the rail enters SHORT. -/
  | shortInWindow (rail : Rail)
  /-- R286: A hub die reads back a GOV_ERR ball level that differs from the level driven for two samples, sets FLT.STATUS.GOVERRBAD and raises a CORRECTED fault. -/
  | govErrReadback (hall : Hall)
  /-- R358: Every 1 ms while OBS.TRCCFG.EN is set, Elkward reads the trace ring's consumer index from its control block and resumes draining into freed entries. -/
  | traceRingPoll (ci : Word)
  /-- R357: A core's synchronisation wait ends, its unit reports the signaller, and the die agent records a WAIT trace event with queue, object, source and duration. -/
  | waitEnd (die : Die) (w : WaitInfo)
  /-- R323: The PCIe link of a host die comes up or goes down and HIF.PORTST.LINK0 or LINK1 changes. -/
  | pcieLinkChange (hx : Hall) (up : Bool)
  deriving DecidableEq, Repr

end Sys2Proof
end

