-- ==== Sys2Proof/Config.lean ====
section
/-!
DEFINITION. Sys2Proof/Config.lean: what the spec leaves open. Every constant here is opaque and has no body, so no proof can
see a value of it (assumption log 1, 2 and 3).
-/
namespace Sys2Proof.Config

/-- A free value: applied to State.free, a counter that every use advances, so that each use is unconstrained. -/
opaque freeValue : Nat → BitVec 64

/-- The direction in which the hardware rounds an inexact quotient that the spec gives no rounding for: true takes the
greater of the two neighbouring whole numbers. The first argument names the place. -/
opaque roundUp : Nat → Rat → Bool

/-- The sum of two values as the FP32 accumulators round it: the spec says FP32 and gives neither a rounding rule nor an order (R209). -/
opaque fp32Add : Rat → Rat → Rat

/-- Whether an image's public key matches the fused key hash and its signature verifies (R329): the fused hash is not published, and the
arithmetic of SHA-384 and ECDSA P-384 lies outside the spec. The argument is the image's words. -/
opaque verifies : List (BitVec 32) → Bool

/-- What a region of the flash holds before Elkward has written it: 0 and 1 the boot selector's copies, 2 the policy blob, 3 and 4 the image
slots. The board's flash is programmed from outside (R326, R327). -/
opaque factoryFlash : Nat → List (BitVec 32)

/-- The ratio r0 of ageing monitor i, fused at manufacture (R265). -/
opaque monitorR0 : Nat → Rat

/-- The fused two-point trim of sensor i of a die, from a conversion in 1/16 °C to the reading that it stands for: the two points, fused at manufacture,
and the trim's arithmetic are not published (R216). -/
opaque twoPoint : Nat → Nat → Int → Int

/-- The fixed hashes of a 52-bit key that select the Larder set, the Cellar set and the Pantry set; they are not published
(R172). -/
opaque larderHash : Nat → Nat
opaque cellarHash : Nat → Nat
opaque pantryHash : Nat → Nat

/-- A die's thermal network as one solver step of 100 µs sees it: what the temperature of node j, a power unit injected at node j, and the
inlet temperature contribute to the temperature of node i. The networks' conductances, capacities and blob format, and the solver's
arithmetic, are not published (R221, R222, R332). The first argument is the network record in force, the second the die. -/
opaque netT : List Nat → Nat → Nat → Nat → Rat
opaque netP : List Nat → Nat → Nat → Nat → Rat
opaque netIn : List Nat → Nat → Nat → Rat

/-- The nominal share of die power at a node, and the temperature at which a node's network starts (R221, R223). -/
opaque netShare : List Nat → Nat → Nat → Rat
opaque netStart : List Nat → Nat → Nat → Rat

end Sys2Proof.Config
end

