-- ==== Sys2Proof/Machine/Field.lean ====
section
/-!
DEFINITION. Sys2Proof/Machine/Field.lean: the register map of the spec as data. One constructor of Field per register
field, and fieldDef gives its block, address, bits, access kind, port rule and reset value. A value is the Nat its bits denote.
-/
namespace Sys2Proof.Machine

/-- The register blocks of the window (chapter 19). -/
inductive Blk where
  | gov | hif | flt | clk | alc | hrt | chn | lrd | atc | obs | fwc | age | dag | rgc | qea | view
  deriving DecidableEq, Repr

/-- The access kinds of R7. -/
inductive Kind where
  | rw | ro | wo | rw1c | rc | rwl | rws
  deriving DecidableEq, Repr

/-- Which ports a field's access column names (R11): any, the I3C port, the host ports, the control complex alone, or a
mailbox's sender or receiver. -/
inductive PortRule where
  | any | i3c | host | cc | sender | receiver
  deriving DecidableEq, Repr

/-- Every field of every register, named block, register and field in camel case. -/
inductive Field where
  | alcPkglimLim
  | alcPkglimCause
  | alcPkglimBand
  | alcPkglimSpend
  | alcElecpkPeak
  | alcElecmidMid
  | alcElecmidAlen
  | alcElecbaseBase
  | alcElecbaseBlen
  | alcElecbktAfill
  | alcElecbktBfill
  | alcTraycapCap
  | alcHostcapCap
  | alcSustainS
  | alcSustainGrains
  | alcThermlimLim
  | alcCredit
  | alcCreditrsvRsv
  | alcOvercntCount
  | alcStatusWrdrop
  | alcStatusRaiserej
  | alcStatusHeldrej
  | dagEcoefCoef
  | dagEleakLo
  | dagEleakHi
  | dagEgainGown
  | dagEgainGmem
  | dagEcalConv
  | dagEcalRejcnt
  | dagEdieE
  | dagEpwrPer
  | dagEpwrMs
  | dagEmemlkMemlk
  | obsPenergyE
  | obsPkgenergyE
  | obsUnasgnE
  | obsTelcfgDecim
  | obsTelcfgShared
  | obsStmtivlIvl
  | obsEstatCalall
  | obsEstatMerge
  | obsEstatBusy
  | qeaEnergy
  | qeaTrimt
  | qeaServed
  | qeaDelayed
  | qeaRefused
  | rgcCfgEn
  | rgcCfgPhcnt
  | rgcCfgTest
  | rgcCfgNoshed
  | rgcSlotS
  | rgcVidV
  | rgcVmaxV
  | rgcOcpPhase
  | rgcOclimPhase
  | rgcOclimRail
  | rgcSeqMode
  | rgcSeqLeader
  | rgcSeqRamp
  | rgcSeqSlew
  | rgcShedPhmin
  | rgcShedLo
  | rgcShedHi
  | rgcShedDly
  | rgcDutyTmin
  | rgcDutyDmax
  | rgcStaggerOffs
  | rgcStaggerTgt
  | rgcCompB0
  | rgcCompB1
  | rgcCompB2
  | rgcCompB3
  | rgcCompA1
  | rgcCompA2
  | rgcCompA3
  | rgcCompCommit
  | rgcTelV1ms
  | rgcTelI1ms
  | rgcTelP1ms
  | rgcTelT1ms
  | rgcTelV1s
  | rgcTelI1s
  | rgcTelP1s
  | rgcTelT1s
  | rgcPeakVhi
  | rgcPeakVlo
  | rgcPeakIhi
  | rgcPeakPhi
  | rgcPeakThi
  | rgcPhstatPh
  | rgcHiccupCount
  | rgcHiccupConsec
  | rgcStatusState
  | rgcStatusVready
  | rgcStatusVclamp
  | rgcStatusCfgerr
  | rgcStatusSeqerr
  | rgcStatusCommiterr
  | rgcStatusNoinput
  | rgcStatusShort
  | rgcStatusWrdrop
  | rgcStatusRaiserej
  | dagAdmcfgBudget
  | dagAdmcfgMaxdly
  | dagAdmcfgRefcap
  | dagAdmcfgLearn
  | dagAdmcfgFfen
  | dagAdmffFfgain
  | dagAdmffFffrac
  | dagAdmffUnann
  | dagAdmcoreOut
  | dagAdmcoreDly
  | dagAdmcoreCause
  | dagAdmcoreEngine
  | dagAdmcoreQueue
  | dagAdmcoreClass
  | dagAdmcoreConsec
  | dagAdmcorePromo
  | dagAdmcorePend
  | dagAdmsrv
  | dagAdmdly
  | dagAdmref
  | dagAdmslots
  | dagAdmffw
  | dagAdmuna
  | dagAdmlrn
  | dagAdmstatBud
  | dagAdmstatPend
  | dagAdmstatFloorref
  | dagAdmstatUnannf
  | clkSrcX0
  | clkSrcX1
  | clkSrcRefsel
  | clkXcntCount
  | clkOsctrimCode
  | clkOsctrimTsrc
  | clkOsctrimTrimmed
  | clkLock
  | clkHold
  | clkRampCyc
  | clkLintelFmax
  | clkDomTgt
  | clkDomCur
  | clkDomStr
  | clkDomForced
  | clkCbrTgt
  | clkCbrCur
  | clkCbrGdep
  | clkStatusWrdrop
  | clkStatusRaiserej
  | clkStatusDivclamp
  | clkStatusRefsw
  | dagDrpcfgEn
  | dagDrpcfgScope
  | dagDrpcfgDep1
  | dagDrpcfgDep2
  | dagDrpcfgLen
  | dagDrpcfgRetmax
  | dagDrpcfgRetdiv
  | dagDrpthrDthr1
  | dagDrpthrDthr2
  | dagDrptcTcal
  | dagDrptcTco
  | dagDrpcyc
  | dagDrpepiL1
  | dagDrpepiL2
  | dagDrpann
  | dagDrpuna
  | dagDrpxX
  | dagDrpxHold
  | dagDrpstatCfgerr
  | dagDrpstatPersist
  | dagDrpstatLone
  | dagDrpstatRetcnt
  | dagDrpstatClamp
  | dagDrpretRet
  | dagDrpchrClo
  | dagDrpchrChi
  | dagDrpchrTap1
  | dagDrpchrTap2
  | dagDrpcntT1
  | dagDrpcntT2
  | lrdCfgLearn
  | lrdCfgSigk
  | lrdCfgMincnt
  | lrdCfgSeedcap
  | lrdCfgPantage
  | lrdCellarSize
  | lrdCellarAvail
  | lrdDefdurDur
  | lrdDefpwrLo
  | lrdDefpwrHi
  | lrdLhit
  | lrdLmiss
  | lrdChit
  | lrdCmiss
  | lrdEvict
  | lrdCdrop
  | lrdCpause
  | lrdEcccor
  | lrdOccLarder
  | lrdCoccCellar
  | lrdMirrorPend
  | lrdMirrorOvf
  | lrdStatusWrdrop
  | dagPnthit
  | dagPntmiss
  | dagPntdef
  | dagPntlate
  | dagPntupd
  | dagPntstatOcc
  | dagPntstatPin
  | dagPntstatOvfl
  | alcClswtBg
  | alcClswtStd
  | alcClswtCrit
  | alcLendAge
  | alcFloorshFloor
  | alcCbud
  | alcCbudReserve
  | alcAlstatUnder
  | alcAlstatParterr
  | alcAlstatUndercnt
  | alcCclassCls
  | alcPartDies
  | alcPartBindTag
  | alcPartBindValid
  | alcPartPolAskdiv
  | alcPartPolFloordiv
  | alcPartPolTrimmax
  | alcPartPolMaxdly
  | alcPartPol2Dlypct
  | alcPartPol2Stepb
  | alcPartCap
  | alcPartSlack
  | alcPartAlloc
  | alcPartCause
  | dagGrantG
  | dagGrantSb
  | dagGrantGen
  | dagStewshSh
  | dagCgrantDiv
  | dagCgrantTrim
  | dagCgrantLever
  | dagCgrantCause
  | dagCgrantClass
  | dagCallocAlloc
  | dagCallocNeed
  | dagVfLo
  | dagVfHi
  | dagWaitCount
  | dagWaitObj
  | dagWaitEng
  | dagWaitColl
  | dagWaitAge
  | dagAlstatDupgrant
  | dagTrimsav0Bf16t1
  | dagTrimsav0Bf16t2
  | dagTrimsav0Fp16t1
  | dagTrimsav0Fp16t2
  | dagTrimsav1Fp8t1
  | dagTrimsav1Fp8t2
  | dagTrimlvlLvl
  | dagTrimt1
  | dagTrimt2
  | hrtTargetT
  | hrtLtripTrip
  | hrtLtripRel
  | hrtTtripTrip
  | hrtInletVal
  | hrtInletAge
  | hrtInletwcT
  | hrtW1limLim
  | hrtW30limLim
  | hrtStalelimLim
  | hrtE1
  | hrtE30
  | hrtW1lat
  | hrtW30lat
  | hrtW1statW1pk
  | hrtW1statW1cool
  | hrtCfgRetmarg
  | hrtRunSeq
  | hrtRunMiss
  | hrtHstatStale
  | hrtHstatInclamp
  | hrtHstatHstale
  | hrtHstatLtripact
  | hrtHstatTtrip
  | hrtDieTpred
  | hrtDieTmax
  | hrtDieTerm
  | hrtDieRetcnt
  | hrtStatusWrdrop
  | hrtStatusRaiserej
  | hrtStatusCfgerr
  | dagTsT
  | dagTsOffs
  | dagTsSuspect
  | dagTsRetired
  | chnCfgEn
  | chnCfgLenden
  | chnCfgBcnivl
  | chnCfgRndivl
  | chnNodeidId
  | chnHome
  | chnTotal
  | chnHoldHolding
  | chnHoldEff
  | chnPos
  | chnPosOrig
  | chnPosM
  | chnPosRole
  | chnPosEpoch
  | chnPosFrozen
  | chnPosLink
  | chnRound
  | chnPrevHome
  | chnLendLendq
  | chnLendLendivl
  | chnLendGap
  | chnHlimMinhold
  | chnHlimMaxhold
  | chnPthrLend
  | chnPthrRecall
  | chnCrcerr
  | chnStomp
  | chnRepeat
  | chnStrip
  | chnAbort
  | chnLdglost
  | chnMismatch
  | chnUnknown
  | chnGrin
  | chnGrout
  | chnVerVmin
  | chnVerVmax
  | chnVerRver
  | chnInjCrcinv
  | chnStatusWrdrop
  | chnStatusOversub
  | chnStatusUndersub
  | chnStatusTotaldiff
  | chnStatusNolink
  | chnStatusVererr
  | ageCfgNexp
  | ageCfgMaxstep
  | ageCfgBlind
  | ageOptimeSec
  | ageDieMargin
  | ageDieRaise
  | ageDieFcast
  | ageDieLastplan
  | ageDieTopdiv
  | ageDieMarginlow
  | ageDiePend
  | ageDieBlindf
  | ageDieSens
  | ageMonDelta
  | ageMonSuspect
  | ageMonRetired
  | ageStatusWrdrop
  | ageStatusMarginlow
  | ageStatusPend
  | fltCfgEsct
  | fltStewmaxMs
  | fltAckSeq
  | fltAckAll
  | fltFclrCls
  | fltInjLard1
  | fltInjLard2
  | fltInjCell1
  | fltInjCell2
  | fltInjLane
  | fltInjMbox
  | fltInjChain
  | fltInjDie
  | fltInjMb
  | fltPairbrkBrk
  | fltCmtGen
  | fltCmtState
  | fltCmtQueued
  | fltCmtmapAck
  | fltHallEpoch
  | fltHallFocnt
  | fltHallLast
  | fltFirstAddr
  | fltFirstSrc
  | fltFirstAcc
  | fltFirstValid
  | fltFirstUnit
  | fltFirstDetail
  | fltFirstMore
  | fltFirstTime
  | fltFirstScope
  | fltFirstPart
  | fltCorr
  | fltCont
  | fltFatalc
  | fltTrans
  | fltLasting
  | fltFullns
  | fltAonns
  | fltStatusWrdrop
  | fltStatusFatal
  | fltStatusPendovf
  | fltStatusNostby
  | fltStatusGoverrbad
  | fltStatusEscal
  | fltStatusSteward
  | fltPendSeq
  | fltPendSrc
  | fltPendScope
  | fltPendPart
  | fltPendValid
  | fltPendRemain
  | fltPendMerged
  | fltSrccntCorr
  | fltSrccntCont
  | hifCfgMbport
  | hifDbset
  | hifDbpend
  | hifDbmask
  | hifPortstLink0
  | hifPortstLink1
  | hifStatusWrdrop
  | hifStatusCfgerr
  | hifStatusDbdisc
  | hifStatusMbdown
  | hifRsCmdbase
  | hifRsCplbase
  | hifRsTelbase
  | hifRsStmbase
  | hifRsCtlbase
  | hifRsSizesCmd
  | hifRsSizesCpl
  | hifRsSizesTel
  | hifRsSizesStm
  | hifRsCtrlEn
  | hifRsCtrlPort
  | hifRsCtrlImod
  | hifRsStatState
  | hifRsStatIdle
  | hifRsStatErrc
  | hifRsStatNotelost
  | hifRsStatInflight
  | hifRsTeldrop
  | hifRsCmdci
  | hifRsCplpi
  | hifMbPtr
  | hifMbTag
  | hifMbStatFull
  | hifMbStatCollision
  | hifMbStatAborted
  | hifMbStatPerr
  | fwcImgVer
  | fwcBootSlot
  | fwcBootTrial
  | fwcBootConfirmed
  | fwcBootRollback
  | fwcBootAltslot
  | fwcBootPolicydefaulted
  | fwcBootSvnf
  | fwcPolicyPver
  | fwcPolicySkip
  | fwcUpdStage
  | fwcUpdFailc
  | fwcUpdNum
  | fwcUpdConfirm
  | fwcUpdAbort
  | fwcWdtPeriod
  | fwcCcerrEcc
  | fwcCcerrLsm
  | fwcCrcseed
  | fwcCrcw
  | fwcCrcb
  | fwcCrcout
  | fwcCrccnt
  | fwcLogWr
  | fwcLogRd
  | fwcLogLost
  | fwcTpWr
  | fwcTpRd
  | fwcTpDrop
  | fwcTpEn
  | fwcStatusWrdrop
  | obsPrivRs
  | obsPrivValid
  | obsFrztT
  | obsFrzctlArmed
  | obsFrzctlFrozen
  | obsFrzctlLate
  | obsFrzctlThaw
  | obsFrzctlMaxms
  | obsTrcbase
  | obsTrcctl
  | obsTrccfgEn
  | obsTrccfgSize
  | obsTrccfgWmark
  | obsTrcenType
  | obsTrcenAdmall
  | obsTrcenWmin
  | obsTrcpart
  | obsTrcpi
  | obsTrcfull
  | obsGstatV
  | obsStatusWrdrop
  | obsStatusFrzwr
  | dagTrcocc
  | dagTrcdrop
  | atcCfgRaten
  | atcCfgRatewin
  | atcCfgFreeze
  | atcStatRam
  | atcStatFrozen
  | atcStatBusy
  | atcStatBad
  | atcStatEmpty
  | atcWrptr
  | atcOldest
  | atcCurIdx
  | atcCurAuto
  | atcData
  | atcSupp
  | atcHeldlost
  | atcPwrcyc
  | atcStatusWrdrop
  | govIdPart
  | govIdStep
  | govStateCur
  | govStatePrev
  | govStateFloorf
  | govStateWait
  | govHallActive
  | govHallStbyrdy
  | govTmctlRailgo
  | govTmctlShut
  | govTmhbPresent
  | govTmhbSeen
  | govTmhbAge
  | govThrottleLim
  | govShutDrainms
  | govTmstatDa
  | govTmstatShutdone
  | govTmstatPerr
  | govStatusWrdrop
  | govStatusRaiserej
  | govStatusAccerr
  | dagStatusWrdrop
  | dagStatusPwfmt
  | dagStatusLaterep
  | viewPerseq
  | viewWinseq
  | viewJobseq
  | viewDeny
  | viewFrozen
  | viewQsel
  | viewLive
  | viewPer
  | viewWin
  | viewJob
  deriving DecidableEq, Repr

/-- One field's row of the register map. Element j of the field stands at off + (j / per) * stride, bit lo + (j % per) * bstride,
and has width bits; count is how many elements the field has in one block. -/
structure FieldDef where
  blk : Blk
  off : Nat
  lo : Nat
  width : Nat
  kind : Kind
  port : PortRule
  reset : Nat
  count : Nat
  stride : Nat
  per : Nat
  bstride : Nat
  deriving DecidableEq, Repr

/-- A row for a field that stands alone in its block. -/
def one (b : Blk) (off lo width : Nat) (k : Kind) (p : PortRule) (reset : Nat) : FieldDef :=
  { blk := b, off, lo, width, kind := k, port := p, reset, count := 1, stride := 0, per := 1, bstride := 0 }

/-- A row for a field with one element per word. -/
def many (b : Blk) (off lo width : Nat) (k : Kind) (p : PortRule) (reset count stride : Nat) : FieldDef :=
  { blk := b, off, lo, width, kind := k, port := p, reset, count, stride, per := 1, bstride := 0 }

/-- A row for a field with several elements in one word. -/
def packed (b : Blk) (off lo width : Nat) (k : Kind) (p : PortRule) (reset count stride per bstride : Nat) : FieldDef :=
  { blk := b, off, lo, width, kind := k, port := p, reset, count, stride, per, bstride }

/-- The register map (chapters 1 to 18, each field as its chapter's register table gives it). Reset values that are fused,
set by rail type, or kept in the flash are 0 here and are given by fieldReset. -/
def fieldDef : Field → FieldDef
  | .alcPkglimLim => one .alc 0x0 0 16 .ro .any 0
  | .alcPkglimCause => one .alc 0x0 16 4 .ro .any 0
  | .alcPkglimBand => one .alc 0x0 20 2 .ro .any 0
  | .alcPkglimSpend => one .alc 0x0 22 1 .ro .any 0
  | .alcElecpkPeak => one .alc 0x4 0 16 .rwl .any 0x8340
  | .alcElecmidMid => one .alc 0x8 0 16 .rwl .any 0x7080
  | .alcElecmidAlen => one .alc 0x8 16 16 .rwl .any 0x50
  | .alcElecbaseBase => one .alc 0xc 0 16 .rwl .any 0x6400
  | .alcElecbaseBlen => one .alc 0xc 16 16 .rwl .any 0x9c40
  | .alcElecbktAfill => one .alc 0x10 0 16 .ro .any 0
  | .alcElecbktBfill => one .alc 0x10 16 16 .ro .any 0
  | .alcTraycapCap => one .alc 0x14 0 16 .rw .i3c 0xffff
  | .alcHostcapCap => one .alc 0x18 0 16 .rw .host 0xffff
  | .alcSustainS => one .alc 0x1c 0 16 .ro .any 0
  | .alcSustainGrains => one .alc 0x1c 16 16 .ro .any 0
  | .alcThermlimLim => one .alc 0x20 0 16 .ro .any 0xffff
  | .alcCredit => one .alc 0x24 0 64 .ro .any 0
  | .alcCreditrsvRsv => one .alc 0x2c 0 32 .rw .any 0xf4240
  | .alcOvercntCount => one .alc 0x30 0 32 .rc .any 0
  | .alcStatusWrdrop => one .alc 0xfc 0 1 .rw1c .any 0
  | .alcStatusRaiserej => one .alc 0xfc 1 1 .rw1c .any 0
  | .alcStatusHeldrej => one .alc 0xfc 2 1 .rw1c .any 0
  | .dagEcoefCoef => many .dag 0x200 0 24 .rw .cc 0 16 4
  | .dagEleakLo => many .dag 0x240 0 16 .rw .cc 0 32 4
  | .dagEleakHi => many .dag 0x240 16 16 .rw .cc 0 32 4
  | .dagEgainGown => one .dag 0x2c0 0 16 .ro .any 0x4000
  | .dagEgainGmem => one .dag 0x2c0 16 16 .ro .any 0x4000
  | .dagEcalConv => one .dag 0x2c4 0 1 .ro .any 0
  | .dagEcalRejcnt => one .dag 0x2c4 8 8 .rc .any 0
  | .dagEdieE => one .dag 0x2c8 0 64 .ro .any 0
  | .dagEpwrPer => one .dag 0x2d0 0 16 .ro .any 0
  | .dagEpwrMs => one .dag 0x2d0 16 16 .ro .any 0
  | .dagEmemlkMemlk => one .dag 0x2d4 0 16 .rw .cc 0
  | .obsPenergyE => many .obs 0x800 0 64 .ro .any 0 16 8
  | .obsPkgenergyE => one .obs 0x880 0 64 .ro .any 0
  | .obsUnasgnE => one .obs 0x888 0 64 .ro .any 0
  | .obsTelcfgDecim => one .obs 0x890 0 4 .rw .any 0xc
  | .obsTelcfgShared => one .obs 0x890 4 1 .rw .any 0
  | .obsStmtivlIvl => one .obs 0x894 0 32 .rw .any 0x2710
  | .obsEstatCalall => one .obs 0x898 0 1 .ro .any 0
  | .obsEstatMerge => one .obs 0x898 1 1 .rw1c .any 0
  | .obsEstatBusy => one .obs 0x898 2 1 .rw1c .any 0
  | .qeaEnergy => one .qea 0x0 0 64 .rw .any 0
  | .qeaTrimt => one .qea 0x8 0 32 .rc .any 0
  | .qeaServed => one .qea 0xc 0 12 .rc .any 0
  | .qeaDelayed => one .qea 0xc 12 10 .rc .any 0
  | .qeaRefused => one .qea 0xc 22 10 .rc .any 0
  | .rgcCfgEn => one .rgc 0x0 0 1 .rw .cc 0
  | .rgcCfgPhcnt => one .rgc 0x0 1 3 .rw .cc 0
  | .rgcCfgTest => one .rgc 0x0 4 1 .rw .cc 0
  | .rgcCfgNoshed => one .rgc 0x0 5 1 .rw .cc 0
  | .rgcSlotS => one .rgc 0x4 0 14 .rw .cc 0
  | .rgcVidV => one .rgc 0x8 0 16 .rw .cc 0
  | .rgcVmaxV => one .rgc 0xc 0 16 .rwl .any 0
  | .rgcOcpPhase => one .rgc 0x10 0 16 .rw .cc 0
  | .rgcOclimPhase => one .rgc 0x14 0 16 .rwl .any 0
  | .rgcOclimRail => one .rgc 0x14 16 16 .rwl .any 0
  | .rgcSeqMode => one .rgc 0x18 0 2 .rw .cc 0
  | .rgcSeqLeader => one .rgc 0x18 2 6 .rw .cc 0
  | .rgcSeqRamp => one .rgc 0x18 8 8 .rw .cc 8
  | .rgcSeqSlew => one .rgc 0x18 16 8 .rw .cc 0x50
  | .rgcShedPhmin => one .rgc 0x1c 0 3 .rw .cc 0
  | .rgcShedLo => one .rgc 0x1c 4 8 .rw .cc 0x28
  | .rgcShedHi => one .rgc 0x1c 12 8 .rw .cc 0x3c
  | .rgcShedDly => one .rgc 0x1c 20 12 .rw .cc 0x40
  | .rgcDutyTmin => one .rgc 0x20 0 12 .rw .cc 0xc0
  | .rgcDutyDmax => one .rgc 0x20 12 8 .rw .cc 0x40
  | .rgcStaggerOffs => one .rgc 0x24 0 14 .ro .any 0
  | .rgcStaggerTgt => one .rgc 0x24 16 14 .ro .any 0
  | .rgcCompB0 => one .rgc 0x40 0 16 .rw .cc 0
  | .rgcCompB1 => one .rgc 0x40 16 16 .rw .cc 0
  | .rgcCompB2 => one .rgc 0x44 0 16 .rw .cc 0
  | .rgcCompB3 => one .rgc 0x44 16 16 .rw .cc 0
  | .rgcCompA1 => one .rgc 0x48 0 16 .rw .cc 0
  | .rgcCompA2 => one .rgc 0x48 16 16 .rw .cc 0
  | .rgcCompA3 => one .rgc 0x4c 0 16 .rw .cc 0
  | .rgcCompCommit => one .rgc 0x4c 16 1 .wo .cc 0
  | .rgcTelV1ms => one .rgc 0x80 0 16 .ro .any 0
  | .rgcTelI1ms => one .rgc 0x80 16 16 .ro .any 0
  | .rgcTelP1ms => one .rgc 0x84 0 16 .ro .any 0
  | .rgcTelT1ms => one .rgc 0x84 16 16 .ro .any 0
  | .rgcTelV1s => one .rgc 0x88 0 16 .ro .any 0
  | .rgcTelI1s => one .rgc 0x88 16 16 .ro .any 0
  | .rgcTelP1s => one .rgc 0x8c 0 16 .ro .any 0
  | .rgcTelT1s => one .rgc 0x8c 16 16 .ro .any 0
  | .rgcPeakVhi => one .rgc 0x90 0 16 .rc .any 0
  | .rgcPeakVlo => one .rgc 0x90 16 16 .rc .any 0xffff
  | .rgcPeakIhi => one .rgc 0x94 0 16 .rc .any 0
  | .rgcPeakPhi => one .rgc 0x94 16 16 .rc .any 0
  | .rgcPeakThi => one .rgc 0x98 0 16 .rc .any 0x8000
  | .rgcPhstatPh => packed .rgc 0xa0 0 4 .ro .any 0 4 0 4 4
  | .rgcHiccupCount => one .rgc 0xa4 0 16 .rws .any 0
  | .rgcHiccupConsec => one .rgc 0xa4 16 3 .ro .any 0
  | .rgcStatusState => one .rgc 0xfc 0 3 .ro .any 0
  | .rgcStatusVready => one .rgc 0xfc 3 1 .ro .any 0
  | .rgcStatusVclamp => one .rgc 0xfc 4 1 .rw1c .any 0
  | .rgcStatusCfgerr => one .rgc 0xfc 5 1 .rw1c .any 0
  | .rgcStatusSeqerr => one .rgc 0xfc 6 1 .rw1c .any 0
  | .rgcStatusCommiterr => one .rgc 0xfc 7 1 .rw1c .any 0
  | .rgcStatusNoinput => one .rgc 0xfc 8 1 .rw1c .any 0
  | .rgcStatusShort => one .rgc 0xfc 9 1 .rws .any 0
  | .rgcStatusWrdrop => one .rgc 0xfc 10 1 .rw1c .any 0
  | .rgcStatusRaiserej => one .rgc 0xfc 11 1 .rw1c .any 0
  | .dagAdmcfgBudget => one .dag 0x300 0 16 .rw .cc 0x180
  | .dagAdmcfgMaxdly => one .dag 0x300 16 4 .rw .cc 4
  | .dagAdmcfgRefcap => one .dag 0x300 20 4 .rw .cc 4
  | .dagAdmcfgLearn => one .dag 0x300 24 1 .rw .cc 1
  | .dagAdmcfgFfen => one .dag 0x300 25 1 .rw .cc 1
  | .dagAdmffFfgain => one .dag 0x304 0 10 .rw .cc 0x50
  | .dagAdmffFffrac => one .dag 0x304 10 4 .rw .cc 0xc
  | .dagAdmffUnann => one .dag 0x304 16 6 .rw .cc 0x18
  | .dagAdmcoreOut => many .dag 0x310 0 2 .ro .any 0 4 4
  | .dagAdmcoreDly => many .dag 0x310 2 4 .ro .any 0 4 4
  | .dagAdmcoreCause => many .dag 0x310 6 4 .ro .any 0 4 4
  | .dagAdmcoreEngine => many .dag 0x310 10 3 .ro .any 0 4 4
  | .dagAdmcoreQueue => many .dag 0x310 13 7 .ro .any 0 4 4
  | .dagAdmcoreClass => many .dag 0x310 20 3 .ro .any 0 4 4
  | .dagAdmcoreConsec => many .dag 0x310 23 4 .ro .any 0 4 4
  | .dagAdmcorePromo => many .dag 0x310 27 1 .ro .any 0 4 4
  | .dagAdmcorePend => many .dag 0x310 28 3 .ro .any 0 4 4
  | .dagAdmsrv => one .dag 0x320 0 32 .rc .any 0
  | .dagAdmdly => one .dag 0x324 0 32 .rc .any 0
  | .dagAdmref => one .dag 0x328 0 32 .rc .any 0
  | .dagAdmslots => one .dag 0x32c 0 32 .rc .any 0
  | .dagAdmffw => one .dag 0x330 0 32 .rc .any 0
  | .dagAdmuna => one .dag 0x334 0 32 .rc .any 0
  | .dagAdmlrn => one .dag 0x338 0 32 .rc .any 0
  | .dagAdmstatBud => one .dag 0x33c 0 16 .ro .any 0
  | .dagAdmstatPend => one .dag 0x33c 16 5 .ro .any 0
  | .dagAdmstatFloorref => one .dag 0x33c 21 1 .ro .any 0
  | .dagAdmstatUnannf => one .dag 0x33c 22 1 .rw1c .any 0
  | .clkSrcX0 => one .clk 0x0 0 2 .ro .any 0
  | .clkSrcX1 => one .clk 0x0 2 2 .ro .any 0
  | .clkSrcRefsel => one .clk 0x0 4 2 .ro .any 2
  | .clkXcntCount => many .clk 0x4 0 21 .ro .any 0 2 4
  | .clkOsctrimCode => one .clk 0xc 0 10 .ro .any 0x200
  | .clkOsctrimTsrc => one .clk 0xc 10 2 .ro .any 0
  | .clkOsctrimTrimmed => one .clk 0xc 12 1 .ro .any 0
  | .clkLock => one .clk 0x10 0 40 .ro .any 0
  | .clkHold => one .clk 0x18 0 40 .ro .any 0
  | .clkRampCyc => one .clk 0x20 0 8 .rw .cc 0x40
  | .clkLintelFmax => one .clk 0x24 0 12 .rwl .any 0x780
  | .clkDomTgt => many .clk 0x100 0 12 .rw .cc 0 80 4
  | .clkDomCur => many .clk 0x100 12 12 .ro .any 0 80 4
  | .clkDomStr => many .clk 0x100 24 3 .ro .any 0 80 4
  | .clkDomForced => many .clk 0x100 27 1 .ro .any 0 80 4
  | .clkCbrTgt => many .clk 0x300 0 12 .ro .any 0x100 128 4
  | .clkCbrCur => many .clk 0x300 12 12 .ro .any 0x100 128 4
  | .clkCbrGdep => many .clk 0x300 24 3 .ro .any 0 128 4
  | .clkStatusWrdrop => one .clk 0xfc 0 1 .rw1c .any 0
  | .clkStatusRaiserej => one .clk 0xfc 1 1 .rw1c .any 0
  | .clkStatusDivclamp => one .clk 0xfc 2 1 .rw1c .any 0
  | .clkStatusRefsw => one .clk 0xfc 3 1 .rw1c .any 0
  | .dagDrpcfgEn => one .dag 0x400 0 1 .rw .cc 1
  | .dagDrpcfgScope => one .dag 0x400 1 1 .rw .cc 0
  | .dagDrpcfgDep1 => one .dag 0x400 2 3 .rw .cc 1
  | .dagDrpcfgDep2 => one .dag 0x400 5 3 .rw .cc 2
  | .dagDrpcfgLen => one .dag 0x400 8 8 .rw .cc 0x10
  | .dagDrpcfgRetmax => one .dag 0x400 16 4 .rw .cc 4
  | .dagDrpcfgRetdiv => one .dag 0x400 20 12 .rw .cc 0x60
  | .dagDrpthrDthr1 => one .dag 0x404 0 16 .rw .cc 0x3c
  | .dagDrpthrDthr2 => one .dag 0x404 16 16 .rw .cc 0x78
  | .dagDrptcTcal => one .dag 0x408 0 16 .rw .cc 0
  | .dagDrptcTco => one .dag 0x408 16 8 .rw .cc 0
  | .dagDrpcyc => many .dag 0x410 0 32 .rc .any 0 4 4
  | .dagDrpepiL1 => many .dag 0x420 0 16 .rc .any 0 4 4
  | .dagDrpepiL2 => many .dag 0x420 16 16 .rc .any 0 4 4
  | .dagDrpann => one .dag 0x440 0 32 .rc .any 0
  | .dagDrpuna => one .dag 0x444 0 32 .rc .any 0
  | .dagDrpxX => many .dag 0x430 0 7 .ro .any 0 4 4
  | .dagDrpxHold => many .dag 0x430 7 1 .ro .any 0 4 4
  | .dagDrpstatCfgerr => one .dag 0x448 0 1 .rw1c .any 0
  | .dagDrpstatPersist => one .dag 0x448 1 1 .rw1c .any 0
  | .dagDrpstatLone => one .dag 0x448 2 1 .rw1c .any 0
  | .dagDrpstatRetcnt => one .dag 0x448 3 7 .ro .any 0
  | .dagDrpstatClamp => one .dag 0x448 10 1 .ro .any 0
  | .dagDrpretRet => one .dag 0x450 0 64 .ro .any 0
  | .dagDrpchrClo => many .dag 0x500 0 8 .rw .cc 0 64 4
  | .dagDrpchrChi => many .dag 0x500 8 8 .rw .cc 0 64 4
  | .dagDrpchrTap1 => many .dag 0x500 16 8 .ro .any 0 64 4
  | .dagDrpchrTap2 => many .dag 0x500 24 8 .ro .any 0 64 4
  | .dagDrpcntT1 => many .dag 0x600 0 16 .rc .any 0 64 4
  | .dagDrpcntT2 => many .dag 0x600 16 16 .rc .any 0 64 4
  | .lrdCfgLearn => one .lrd 0x0 0 1 .rw .cc 1
  | .lrdCfgSigk => one .lrd 0x0 1 4 .rw .cc 4
  | .lrdCfgMincnt => one .lrd 0x0 5 4 .rw .cc 1
  | .lrdCfgSeedcap => one .lrd 0x0 9 7 .rw .cc 0x10
  | .lrdCfgPantage => one .lrd 0x0 16 8 .rw .cc 0x40
  | .lrdCellarSize => one .lrd 0x4 0 23 .ro .any 0
  | .lrdCellarAvail => one .lrd 0x4 24 4 .ro .any 0
  | .lrdDefdurDur => one .lrd 0x8 0 32 .rw .cc 0x780
  | .lrdDefpwrLo => many .lrd 0x40 0 32 .rw .cc 0x20100c08 8 8
  | .lrdDefpwrHi => many .lrd 0x44 0 32 .rw .cc 0xb0a06038 8 8
  | .lrdLhit => one .lrd 0x80 0 32 .rc .any 0
  | .lrdLmiss => one .lrd 0x84 0 32 .rc .any 0
  | .lrdChit => one .lrd 0x88 0 32 .rc .any 0
  | .lrdCmiss => one .lrd 0x8c 0 32 .rc .any 0
  | .lrdEvict => one .lrd 0x90 0 32 .rc .any 0
  | .lrdCdrop => one .lrd 0x94 0 32 .rc .any 0
  | .lrdCpause => one .lrd 0x98 0 32 .rc .any 0
  | .lrdEcccor => one .lrd 0x9c 0 32 .rc .any 0
  | .lrdOccLarder => one .lrd 0xb0 0 19 .ro .any 0
  | .lrdCoccCellar => one .lrd 0xb4 0 23 .ro .any 0
  | .lrdMirrorPend => one .lrd 0xb8 0 15 .ro .any 0
  | .lrdMirrorOvf => one .lrd 0xb8 15 1 .rw1c .any 0
  | .lrdStatusWrdrop => one .lrd 0xfc 0 1 .rw1c .any 0
  | .dagPnthit => one .dag 0x700 0 32 .rc .any 0
  | .dagPntmiss => one .dag 0x704 0 32 .rc .any 0
  | .dagPntdef => one .dag 0x708 0 32 .rc .any 0
  | .dagPntlate => one .dag 0x70c 0 32 .rc .any 0
  | .dagPntupd => one .dag 0x710 0 32 .rc .any 0
  | .dagPntstatOcc => one .dag 0x714 0 13 .ro .any 0
  | .dagPntstatPin => one .dag 0x714 13 8 .ro .any 0
  | .dagPntstatOvfl => one .dag 0x714 21 6 .ro .any 0
  | .alcClswtBg => one .alc 0x40 0 8 .rw .any 1
  | .alcClswtStd => one .alc 0x40 8 8 .rw .any 2
  | .alcClswtCrit => one .alc 0x40 16 8 .rw .any 4
  | .alcLendAge => one .alc 0x44 0 8 .rw .any 8
  | .alcFloorshFloor => one .alc 0x48 0 16 .rw .cc 0x2800
  | .alcCbud => one .alc 0x4c 0 16 .ro .any 0
  | .alcCbudReserve => one .alc 0x4c 16 16 .ro .any 0
  | .alcAlstatUnder => one .alc 0x50 0 1 .ro .any 0
  | .alcAlstatParterr => one .alc 0x50 1 1 .rw1c .any 0
  | .alcAlstatUndercnt => one .alc 0x50 16 16 .rc .any 0
  | .alcCclassCls => packed .alc 0x60 0 2 .rw .any 1 128 4 16 2
  | .alcPartDies => many .alc 0x100 0 32 .rw .any 0 16 32
  | .alcPartBindTag => many .alc 0x104 0 16 .rw .any 0 16 32
  | .alcPartBindValid => many .alc 0x104 16 1 .rw .any 0 16 32
  | .alcPartPolAskdiv => many .alc 0x108 0 12 .rw .any 0x50 16 32
  | .alcPartPolFloordiv => many .alc 0x108 12 12 .rw .any 0x60 16 32
  | .alcPartPolTrimmax => many .alc 0x108 24 2 .rw .any 0 16 32
  | .alcPartPolMaxdly => many .alc 0x108 26 4 .rw .any 4 16 32
  | .alcPartPol2Dlypct => many .alc 0x10c 0 8 .rw .any 0x10 16 32
  | .alcPartPol2Stepb => many .alc 0x10c 8 8 .rw .any 0x18 16 32
  | .alcPartCap => many .alc 0x110 0 16 .rw .any 0xffff 16 32
  | .alcPartSlack => many .alc 0x114 0 16 .ro .any 0 16 32
  | .alcPartAlloc => many .alc 0x118 0 16 .ro .any 0 16 32
  | .alcPartCause => many .alc 0x118 16 4 .ro .any 0 16 32
  | .dagGrantG => one .dag 0x800 0 16 .ro .any 0
  | .dagGrantSb => one .dag 0x800 16 8 .ro .any 8
  | .dagGrantGen => one .dag 0x800 24 4 .ro .any 0
  | .dagStewshSh => one .dag 0x808 0 16 .ro .any 0x140
  | .dagCgrantDiv => many .dag 0x810 0 12 .ro .any 0x100 4 4
  | .dagCgrantTrim => many .dag 0x810 12 2 .ro .any 0 4 4
  | .dagCgrantLever => many .dag 0x810 14 3 .ro .any 0 4 4
  | .dagCgrantCause => many .dag 0x810 17 4 .ro .any 0 4 4
  | .dagCgrantClass => many .dag 0x810 21 2 .ro .any 1 4 4
  | .dagCallocAlloc => many .dag 0x820 0 16 .ro .any 0 4 4
  | .dagCallocNeed => many .dag 0x820 16 16 .ro .any 0 4 4
  | .dagVfLo => many .dag 0x840 0 16 .rw .cc 0 14 4
  | .dagVfHi => many .dag 0x840 16 16 .rw .cc 0 14 4
  | .dagWaitCount => many .dag 0x880 0 3 .ro .any 0 4 4
  | .dagWaitObj => many .dag 0x880 3 6 .ro .any 0 4 4
  | .dagWaitEng => many .dag 0x880 9 3 .ro .any 0 4 4
  | .dagWaitColl => many .dag 0x880 12 1 .ro .any 0 4 4
  | .dagWaitAge => many .dag 0x880 13 8 .ro .any 0 4 4
  | .dagAlstatDupgrant => one .dag 0x890 0 16 .rc .any 0
  | .dagTrimsav0Bf16t1 => one .dag 0x900 0 8 .ro .any 0x1c
  | .dagTrimsav0Bf16t2 => one .dag 0x900 8 8 .ro .any 0x34
  | .dagTrimsav0Fp16t1 => one .dag 0x900 16 8 .ro .any 0x18
  | .dagTrimsav0Fp16t2 => one .dag 0x900 24 8 .ro .any 0x2c
  | .dagTrimsav1Fp8t1 => one .dag 0x904 0 8 .ro .any 0x12
  | .dagTrimsav1Fp8t2 => one .dag 0x904 8 8 .ro .any 0x22
  | .dagTrimlvlLvl => packed .dag 0x908 0 2 .ro .any 0 4 0 4 2
  | .dagTrimt1 => many .dag 0x910 0 32 .rc .any 0 4 4
  | .dagTrimt2 => many .dag 0x920 0 32 .rc .any 0 4 4
  | .hrtTargetT => one .hrt 0x0 0 16 .rwl .any 0x690
  | .hrtLtripTrip => one .hrt 0x4 0 16 .rwl .any 0
  | .hrtLtripRel => one .hrt 0x4 16 16 .rw .cc 0x6e0
  | .hrtTtripTrip => one .hrt 0x8 0 16 .ro .any 0x7d0
  | .hrtInletVal => one .hrt 0xc 0 16 .rw .i3c 0
  | .hrtInletAge => one .hrt 0xc 16 16 .ro .any 0xffff
  | .hrtInletwcT => one .hrt 0x10 0 16 .rw .cc 0x2d0
  | .hrtW1limLim => one .hrt 0x14 0 16 .rwl .any 0x6400
  | .hrtW30limLim => one .hrt 0x18 0 16 .rwl .any 0x5dc0
  | .hrtStalelimLim => one .hrt 0x1c 0 16 .rw .cc 0x4b00
  | .hrtE1 => one .hrt 0x20 0 64 .ro .any 0
  | .hrtE30 => one .hrt 0x28 0 64 .ro .any 0
  | .hrtW1lat => one .hrt 0x30 0 64 .ro .any 0
  | .hrtW30lat => one .hrt 0x38 0 64 .ro .any 0
  | .hrtW1statW1pk => one .hrt 0x40 0 16 .ro .any 0
  | .hrtW1statW1cool => one .hrt 0x40 16 10 .ro .any 0
  | .hrtCfgRetmarg => one .hrt 0x44 0 8 .rw .cc 0x50
  | .hrtRunSeq => one .hrt 0x48 0 16 .ro .any 0
  | .hrtRunMiss => one .hrt 0x48 16 8 .ro .any 0
  | .hrtHstatStale => one .hrt 0x4c 0 1 .ro .any 1
  | .hrtHstatInclamp => one .hrt 0x4c 1 1 .rw1c .any 0
  | .hrtHstatHstale => one .hrt 0x4c 2 1 .ro .any 0
  | .hrtHstatLtripact => one .hrt 0x4c 3 1 .ro .any 0
  | .hrtHstatTtrip => one .hrt 0x4c 4 1 .rws .any 0
  | .hrtDieTpred => many .hrt 0x100 0 16 .ro .any 0 40 8
  | .hrtDieTmax => many .hrt 0x100 16 16 .ro .any 0 40 8
  | .hrtDieTerm => many .hrt 0x104 0 16 .ro .any 0xffff 40 8
  | .hrtDieRetcnt => many .hrt 0x104 16 6 .ro .any 0 40 8
  | .hrtStatusWrdrop => one .hrt 0xfc 0 1 .rw1c .any 0
  | .hrtStatusRaiserej => one .hrt 0xfc 1 1 .rw1c .any 0
  | .hrtStatusCfgerr => one .hrt 0xfc 2 1 .rw1c .any 0
  | .dagTsT => many .dag 0xa00 0 16 .ro .any 0 48 4
  | .dagTsOffs => many .dag 0xa00 16 8 .rw .cc 0 48 4
  | .dagTsSuspect => many .dag 0xa00 24 1 .ro .any 0 48 4
  | .dagTsRetired => many .dag 0xa00 25 1 .ro .any 0 48 4
  | .chnCfgEn => one .chn 0x0 0 1 .rw .cc 1
  | .chnCfgLenden => one .chn 0x0 1 1 .rw .cc 1
  | .chnCfgBcnivl => one .chn 0x0 2 8 .rw .cc 0xa
  | .chnCfgRndivl => one .chn 0x0 10 10 .rw .cc 0xa
  | .chnNodeidId => one .chn 0x4 0 64 .ro .any 0
  | .chnHome => one .chn 0xc 0 16 .rw .i3c 0
  | .chnTotal => one .chn 0x10 0 32 .rw .i3c 0
  | .chnHoldHolding => one .chn 0x14 0 16 .ro .any 0
  | .chnHoldEff => one .chn 0x14 16 16 .ro .any 0
  | .chnPos => one .chn 0x18 0 7 .ro .any 0
  | .chnPosOrig => one .chn 0x18 7 1 .ro .any 0
  | .chnPosM => one .chn 0x18 8 8 .ro .any 1
  | .chnPosRole => one .chn 0x18 16 2 .ro .any 0
  | .chnPosEpoch => one .chn 0x18 18 8 .ro .any 0
  | .chnPosFrozen => one .chn 0x18 26 1 .ro .any 0
  | .chnPosLink => one .chn 0x18 27 1 .ro .any 0
  | .chnRound => one .chn 0x1c 0 32 .ro .any 0
  | .chnPrevHome => one .chn 0x20 0 32 .ro .any 0
  | .chnLendLendq => one .chn 0x28 0 8 .rw .cc 4
  | .chnLendLendivl => one .chn 0x28 8 8 .rw .cc 0xa
  | .chnLendGap => one .chn 0x28 16 8 .rw .cc 0x10
  | .chnHlimMinhold => one .chn 0x2c 0 16 .rw .cc 0x708
  | .chnHlimMaxhold => one .chn 0x2c 16 16 .rw .cc 0xbb8
  | .chnPthrLend => many .chn 0x40 0 16 .rw .any 0x3333 16 4
  | .chnPthrRecall => many .chn 0x40 16 16 .rw .any 0xccd 16 4
  | .chnCrcerr => one .chn 0x80 0 32 .rc .any 0
  | .chnStomp => one .chn 0x84 0 32 .rc .any 0
  | .chnRepeat => one .chn 0x88 0 32 .rc .any 0
  | .chnStrip => one .chn 0x8c 0 32 .rc .any 0
  | .chnAbort => one .chn 0x90 0 32 .rc .any 0
  | .chnLdglost => one .chn 0x94 0 32 .rc .any 0
  | .chnMismatch => one .chn 0x98 0 32 .rc .any 0
  | .chnUnknown => one .chn 0x9c 0 32 .rc .any 0
  | .chnGrin => one .chn 0xa0 0 32 .rc .any 0
  | .chnGrout => one .chn 0xa4 0 32 .rc .any 0
  | .chnVerVmin => one .chn 0xb0 0 4 .ro .any 1
  | .chnVerVmax => one .chn 0xb0 4 4 .ro .any 2
  | .chnVerRver => one .chn 0xb0 8 4 .ro .any 1
  | .chnInjCrcinv => one .chn 0xc0 0 1 .wo .any 0
  | .chnStatusWrdrop => one .chn 0xfc 0 1 .rw1c .any 0
  | .chnStatusOversub => one .chn 0xfc 1 1 .ro .any 0
  | .chnStatusUndersub => one .chn 0xfc 2 1 .ro .any 0
  | .chnStatusTotaldiff => one .chn 0xfc 3 1 .ro .any 0
  | .chnStatusNolink => one .chn 0xfc 4 1 .rw1c .any 0
  | .chnStatusVererr => one .chn 0xfc 5 1 .ro .any 0
  | .ageCfgNexp => one .age 0x0 0 6 .rw .cc 0
  | .ageCfgMaxstep => one .age 0x0 6 4 .rw .cc 4
  | .ageCfgBlind => one .age 0x0 10 16 .rw .cc 0xfa0
  | .ageOptimeSec => one .age 0x4 0 64 .ro .any 0
  | .ageDieMargin => many .age 0x100 0 16 .ro .any 0 40 16
  | .ageDieRaise => many .age 0x100 16 16 .ro .any 0 40 16
  | .ageDieFcast => many .age 0x104 0 32 .ro .any 0xffffffff 40 16
  | .ageDieLastplan => many .age 0x108 0 32 .ro .any 0 40 16
  | .ageDieTopdiv => many .age 0x10c 0 5 .ro .any 5 40 16
  | .ageDieMarginlow => many .age 0x10c 5 1 .ro .any 0 40 16
  | .ageDiePend => many .age 0x10c 6 1 .ro .any 0 40 16
  | .ageDieBlindf => many .age 0x10c 7 1 .ro .any 0 40 16
  | .ageDieSens => many .age 0x10c 8 8 .ro .any 0 40 16
  | .ageMonDelta => many .age 0x400 0 16 .ro .any 0 288 4
  | .ageMonSuspect => many .age 0x400 16 1 .ro .any 0 288 4
  | .ageMonRetired => many .age 0x400 17 1 .ro .any 0 288 4
  | .ageStatusWrdrop => one .age 0xfc 0 1 .rw1c .any 0
  | .ageStatusMarginlow => one .age 0xfc 1 1 .ro .any 0
  | .ageStatusPend => one .age 0xfc 2 1 .ro .any 0
  | .fltCfgEsct => one .flt 0x0 0 20 .rw .any 0x7d0
  | .fltStewmaxMs => one .flt 0x4 0 16 .rw .any 0x3e8
  | .fltAckSeq => one .flt 0x10 0 16 .wo .any 0
  | .fltAckAll => one .flt 0x10 16 1 .wo .any 0
  | .fltFclrCls => one .flt 0x14 0 3 .wo .any 0
  | .fltInjLard1 => one .flt 0x18 0 1 .wo .any 0
  | .fltInjLard2 => one .flt 0x18 1 1 .wo .any 0
  | .fltInjCell1 => one .flt 0x18 2 1 .wo .any 0
  | .fltInjCell2 => one .flt 0x18 3 1 .wo .any 0
  | .fltInjLane => one .flt 0x18 4 1 .wo .any 0
  | .fltInjMbox => one .flt 0x18 5 1 .wo .any 0
  | .fltInjChain => one .flt 0x18 6 1 .wo .any 0
  | .fltInjDie => one .flt 0x18 8 6 .rw .any 0
  | .fltInjMb => one .flt 0x18 14 2 .rw .any 0
  | .fltPairbrkBrk => one .flt 0x20 0 40 .ro .any 0
  | .fltCmtGen => one .flt 0x28 0 16 .ro .any 0
  | .fltCmtState => one .flt 0x28 16 2 .ro .any 0
  | .fltCmtQueued => one .flt 0x28 18 3 .ro .any 0
  | .fltCmtmapAck => one .flt 0x30 0 40 .ro .any 0
  | .fltHallEpoch => one .flt 0x38 0 8 .ro .any 0
  | .fltHallFocnt => one .flt 0x38 8 16 .rws .any 0
  | .fltHallLast => one .flt 0x38 24 4 .ro .any 0
  | .fltFirstAddr => many .flt 0x40 0 64 .ro .any 0 3 32
  | .fltFirstSrc => many .flt 0x48 0 5 .ro .any 0 3 32
  | .fltFirstAcc => many .flt 0x48 5 4 .ro .any 0 3 32
  | .fltFirstValid => many .flt 0x48 9 1 .ro .any 0 3 32
  | .fltFirstUnit => many .flt 0x48 16 16 .ro .any 0 3 32
  | .fltFirstDetail => many .flt 0x4c 0 8 .ro .any 0 3 32
  | .fltFirstMore => many .flt 0x4c 16 16 .rc .any 0 3 32
  | .fltFirstTime => many .flt 0x50 0 64 .ro .any 0 3 32
  | .fltFirstScope => many .flt 0x58 0 2 .ro .any 0 3 32
  | .fltFirstPart => many .flt 0x58 2 4 .ro .any 0 3 32
  | .fltCorr => one .flt 0xa0 0 32 .rc .any 0
  | .fltCont => one .flt 0xa4 0 32 .rc .any 0
  | .fltFatalc => one .flt 0xa8 0 32 .rws .any 0
  | .fltTrans => one .flt 0xac 0 32 .rc .any 0
  | .fltLasting => one .flt 0xb0 0 32 .rc .any 0
  | .fltFullns => one .flt 0xc0 0 64 .ro .any 0
  | .fltAonns => one .flt 0xc8 0 64 .ro .any 0
  | .fltStatusWrdrop => one .flt 0xfc 0 1 .rw1c .any 0
  | .fltStatusFatal => one .flt 0xfc 1 1 .ro .any 0
  | .fltStatusPendovf => one .flt 0xfc 2 1 .rw1c .any 0
  | .fltStatusNostby => one .flt 0xfc 3 1 .ro .any 0
  | .fltStatusGoverrbad => one .flt 0xfc 4 1 .rw1c .any 0
  | .fltStatusEscal => one .flt 0xfc 5 1 .rw1c .any 0
  | .fltStatusSteward => one .flt 0xfc 6 1 .ro .any 0
  | .fltPendSeq => many .flt 0x100 0 16 .ro .any 0 16 8
  | .fltPendSrc => many .flt 0x100 16 5 .ro .any 0 16 8
  | .fltPendScope => many .flt 0x100 21 2 .ro .any 0 16 8
  | .fltPendPart => many .flt 0x100 23 4 .ro .any 0 16 8
  | .fltPendValid => many .flt 0x100 31 1 .ro .any 0 16 8
  | .fltPendRemain => many .flt 0x104 0 20 .ro .any 0 16 8
  | .fltPendMerged => many .flt 0x104 20 12 .ro .any 0 16 8
  | .fltSrccntCorr => many .flt 0x200 0 16 .rc .any 0 32 4
  | .fltSrccntCont => many .flt 0x200 16 16 .rc .any 0 32 4
  | .hifCfgMbport => one .hif 0x0 0 1 .rw .any 0
  | .hifDbset => one .hif 0x4 0 32 .wo .any 0
  | .hifDbpend => one .hif 0x8 0 32 .ro .any 0
  | .hifDbmask => one .hif 0xc 0 32 .rw .any 0
  | .hifPortstLink0 => one .hif 0x10 0 1 .ro .any 0
  | .hifPortstLink1 => one .hif 0x10 1 1 .ro .any 0
  | .hifStatusWrdrop => one .hif 0xfc 0 1 .rw1c .any 0
  | .hifStatusCfgerr => one .hif 0xfc 1 1 .rw1c .any 0
  | .hifStatusDbdisc => one .hif 0xfc 2 1 .rw1c .any 0
  | .hifStatusMbdown => one .hif 0xfc 3 1 .rw1c .any 0
  | .hifRsCmdbase => many .hif 0x100 0 64 .rw .any 0 16 64
  | .hifRsCplbase => many .hif 0x108 0 64 .rw .any 0 16 64
  | .hifRsTelbase => many .hif 0x110 0 64 .rw .any 0 16 64
  | .hifRsStmbase => many .hif 0x118 0 64 .rw .any 0 16 64
  | .hifRsCtlbase => many .hif 0x120 0 64 .rw .any 0 16 64
  | .hifRsSizesCmd => many .hif 0x128 0 4 .rw .any 0 16 64
  | .hifRsSizesCpl => many .hif 0x128 4 4 .rw .any 0 16 64
  | .hifRsSizesTel => many .hif 0x128 8 4 .rw .any 0 16 64
  | .hifRsSizesStm => many .hif 0x128 12 4 .rw .any 0 16 64
  | .hifRsCtrlEn => many .hif 0x12c 0 1 .rw .any 0 16 64
  | .hifRsCtrlPort => many .hif 0x12c 1 1 .rw .any 0 16 64
  | .hifRsCtrlImod => many .hif 0x12c 2 8 .rw .any 0 16 64
  | .hifRsStatState => many .hif 0x130 0 2 .ro .any 0 16 64
  | .hifRsStatIdle => many .hif 0x130 2 1 .ro .any 1 16 64
  | .hifRsStatErrc => many .hif 0x130 3 3 .ro .any 0 16 64
  | .hifRsStatNotelost => many .hif 0x130 6 1 .rw1c .any 0 16 64
  | .hifRsStatInflight => many .hif 0x130 7 4 .ro .any 0 16 64
  | .hifRsTeldrop => many .hif 0x134 0 32 .rc .any 0 16 64
  | .hifRsCmdci => many .hif 0x138 0 16 .ro .any 0 16 64
  | .hifRsCplpi => many .hif 0x138 16 16 .ro .any 0 16 64
  | .hifMbPtr => many .hif 0x600 0 64 .rw .sender 0 4 32
  | .hifMbTag => many .hif 0x608 0 32 .rw .sender 0 4 32
  | .hifMbStatFull => many .hif 0x60c 0 1 .rw1c .receiver 0 4 32
  | .hifMbStatCollision => many .hif 0x60c 1 1 .rw1c .receiver 0 4 32
  | .hifMbStatAborted => many .hif 0x60c 2 1 .rw1c .sender 0 4 32
  | .hifMbStatPerr => many .hif 0x60c 3 1 .rw1c .receiver 0 4 32
  | .fwcImgVer => many .fwc 0x0 0 32 .ro .any 0 2 4
  | .fwcBootSlot => one .fwc 0x8 0 1 .ro .any 0
  | .fwcBootTrial => one .fwc 0x8 1 2 .ro .any 0
  | .fwcBootConfirmed => one .fwc 0x8 3 1 .ro .any 0
  | .fwcBootRollback => one .fwc 0x8 4 1 .ro .any 0
  | .fwcBootAltslot => one .fwc 0x8 5 1 .ro .any 0
  | .fwcBootPolicydefaulted => one .fwc 0x8 6 1 .ro .any 0
  | .fwcBootSvnf => one .fwc 0x8 8 6 .ro .any 0
  | .fwcPolicyPver => one .fwc 0xc 0 16 .ro .any 0
  | .fwcPolicySkip => one .fwc 0xc 16 16 .ro .any 0
  | .fwcUpdStage => one .fwc 0x10 0 4 .ro .any 0
  | .fwcUpdFailc => one .fwc 0x10 4 3 .ro .any 0
  | .fwcUpdNum => one .fwc 0x10 8 8 .ro .any 0
  | .fwcUpdConfirm => one .fwc 0x10 16 1 .wo .any 0
  | .fwcUpdAbort => one .fwc 0x10 17 1 .wo .any 0
  | .fwcWdtPeriod => one .fwc 0x14 0 16 .rw .cc 0x64
  | .fwcCcerrEcc => one .fwc 0x18 0 16 .rc .any 0
  | .fwcCcerrLsm => one .fwc 0x18 16 16 .rc .any 0
  | .fwcCrcseed => one .fwc 0x40 0 32 .wo .any 0
  | .fwcCrcw => one .fwc 0x44 0 32 .wo .any 0
  | .fwcCrcb => one .fwc 0x48 0 8 .wo .any 0
  | .fwcCrcout => one .fwc 0x4c 0 32 .ro .any 0
  | .fwcCrccnt => one .fwc 0x50 0 32 .ro .any 0
  | .fwcLogWr => many .fwc 0x80 0 7 .ro .any 0 2 16
  | .fwcLogRd => many .fwc 0x84 0 7 .rw .any 0 2 16
  | .fwcLogLost => many .fwc 0x88 0 32 .rc .any 0 2 16
  | .fwcTpWr => many .fwc 0xa0 0 8 .ro .any 0 2 16
  | .fwcTpRd => many .fwc 0xa4 0 8 .rw .any 0 2 16
  | .fwcTpDrop => many .fwc 0xa8 0 32 .rc .any 0 2 16
  | .fwcTpEn => many .fwc 0xac 0 32 .rw .any 0 2 16
  | .fwcStatusWrdrop => one .fwc 0xfc 0 1 .rw1c .any 0
  | .obsPrivRs => one .obs 0x0 0 4 .rw .i3c 0
  | .obsPrivValid => one .obs 0x0 4 1 .rw .i3c 1
  | .obsFrztT => one .obs 0x8 0 64 .rw .any 0
  | .obsFrzctlArmed => one .obs 0x10 0 1 .ro .any 0
  | .obsFrzctlFrozen => one .obs 0x10 1 1 .ro .any 0
  | .obsFrzctlLate => one .obs 0x10 2 1 .rw1c .any 0
  | .obsFrzctlThaw => one .obs 0x10 3 1 .wo .any 0
  | .obsFrzctlMaxms => one .obs 0x10 4 16 .rw .any 0x3e8
  | .obsTrcbase => one .obs 0x20 0 64 .rw .any 0
  | .obsTrcctl => one .obs 0x28 0 64 .rw .any 0
  | .obsTrccfgEn => one .obs 0x30 0 1 .rw .any 0
  | .obsTrccfgSize => one .obs 0x30 1 5 .rw .any 8
  | .obsTrccfgWmark => one .obs 0x30 6 20 .rw .any 0x100
  | .obsTrcenType => one .obs 0x34 1 8 .rw .any 0
  | .obsTrcenAdmall => one .obs 0x34 9 1 .rw .any 0
  | .obsTrcenWmin => one .obs 0x34 10 8 .rw .any 4
  | .obsTrcpart => one .obs 0x38 0 16 .rw .any 0xffff
  | .obsTrcpi => one .obs 0x3c 0 20 .ro .any 0
  | .obsTrcfull => one .obs 0x3c 20 1 .ro .any 0
  | .obsGstatV => many .obs 0x400 0 64 .ro .any 0 32 8
  | .obsStatusWrdrop => one .obs 0xfc 0 1 .rw1c .any 0
  | .obsStatusFrzwr => one .obs 0xfc 1 1 .rw1c .any 0
  | .dagTrcocc => one .dag 0xb00 0 13 .ro .any 0
  | .dagTrcdrop => one .dag 0xb04 0 32 .rc .any 0
  | .atcCfgRaten => one .atc 0x0 0 8 .rw .cc 8
  | .atcCfgRatewin => one .atc 0x0 8 16 .rw .cc 0x3c
  | .atcCfgFreeze => one .atc 0x0 24 1 .rw .any 0
  | .atcStatRam => one .atc 0x4 0 1 .ro .any 0
  | .atcStatFrozen => one .atc 0x4 1 1 .ro .any 0
  | .atcStatBusy => one .atc 0x4 2 1 .ro .any 0
  | .atcStatBad => one .atc 0x4 3 1 .ro .any 0
  | .atcStatEmpty => one .atc 0x4 4 1 .ro .any 0
  | .atcWrptr => one .atc 0x8 0 17 .ro .any 0
  | .atcOldest => one .atc 0xc 0 17 .ro .any 0
  | .atcCurIdx => one .atc 0x10 0 17 .rw .any 0
  | .atcCurAuto => one .atc 0x10 31 1 .rw .any 0
  | .atcData => many .atc 0x20 0 32 .ro .any 0 8 4
  | .atcSupp => one .atc 0x40 0 32 .rc .any 0
  | .atcHeldlost => one .atc 0x44 0 32 .rc .any 0
  | .atcPwrcyc => one .atc 0x48 0 32 .ro .any 0
  | .atcStatusWrdrop => one .atc 0xfc 0 1 .rw1c .any 0
  | .govIdPart => one .gov 0x0 0 16 .ro .any 0x4e56
  | .govIdStep => one .gov 0x0 16 8 .ro .any 0
  | .govStateCur => one .gov 0x4 0 3 .ro .any 0
  | .govStatePrev => one .gov 0x4 3 3 .ro .any 0
  | .govStateFloorf => one .gov 0x4 6 6 .ro .any 0
  | .govStateWait => one .gov 0x4 12 3 .ro .any 0
  | .govHallActive => one .gov 0x8 0 1 .rw .cc 0
  | .govHallStbyrdy => one .gov 0x8 1 1 .ro .any 0
  | .govTmctlRailgo => one .gov 0x10 0 1 .rw .i3c 0
  | .govTmctlShut => one .gov 0x10 1 1 .rw .i3c 0
  | .govTmhbPresent => one .gov 0x14 0 1 .ro .any 0
  | .govTmhbSeen => one .gov 0x14 1 1 .ro .any 0
  | .govTmhbAge => one .gov 0x14 16 16 .ro .any 0xffff
  | .govThrottleLim => one .gov 0x18 0 16 .rw .i3c 0x3e80
  | .govShutDrainms => one .gov 0x1c 0 16 .rw .i3c 0x64
  | .govTmstatDa => one .gov 0x20 0 7 .ro .any 0
  | .govTmstatShutdone => one .gov 0x20 7 1 .ro .any 0
  | .govTmstatPerr => one .gov 0x20 16 16 .rc .any 0
  | .govStatusWrdrop => one .gov 0xfc 0 1 .rw1c .any 0
  | .govStatusRaiserej => one .gov 0xfc 1 1 .rw1c .any 0
  | .govStatusAccerr => one .gov 0xfc 2 1 .rw1c .any 0
  | .dagStatusWrdrop => one .dag 0xfc 0 1 .rw1c .any 0
  | .dagStatusPwfmt => one .dag 0xfc 1 1 .rw1c .any 0
  | .dagStatusLaterep => one .dag 0xfc 16 16 .rc .any 0
  | .viewPerseq => one .view 0x8 0 32 .ro .any 0
  | .viewWinseq => one .view 0xc 0 16 .ro .any 0
  | .viewJobseq => one .view 0xc 16 16 .ro .any 0
  | .viewDeny => one .view 0x10 0 1 .rw1c .any 0
  | .viewFrozen => one .view 0x10 1 1 .ro .any 0
  | .viewQsel => one .view 0x20 0 14 .rw .any 0
  | .viewLive => many .view 0x100 0 64 .ro .any 0 32 8
  | .viewPer => many .view 0x200 0 64 .ro .any 0 32 8
  | .viewWin => many .view 0x300 0 64 .ro .any 0 32 8
  | .viewJob => many .view 0x400 0 64 .ro .any 0 32 8

/-- The fields of block GOV. -/
def govFields : List Field :=
  [.govIdPart, .govIdStep, .govStateCur, .govStatePrev, .govStateFloorf, .govStateWait, .govHallActive,
   .govHallStbyrdy, .govTmctlRailgo, .govTmctlShut, .govTmhbPresent, .govTmhbSeen, .govTmhbAge, .govThrottleLim,
   .govShutDrainms, .govTmstatDa, .govTmstatShutdone, .govTmstatPerr, .govStatusWrdrop, .govStatusRaiserej,
   .govStatusAccerr]

/-- Fields of block HIF, part 1 of 2. -/
def hifFields1 : List Field :=
  [.hifCfgMbport, .hifDbset, .hifDbpend, .hifDbmask, .hifPortstLink0, .hifPortstLink1, .hifStatusWrdrop,
   .hifStatusCfgerr, .hifStatusDbdisc, .hifStatusMbdown, .hifRsCmdbase, .hifRsCplbase, .hifRsTelbase, .hifRsStmbase,
   .hifRsCtlbase, .hifRsSizesCmd, .hifRsSizesCpl, .hifRsSizesTel, .hifRsSizesStm, .hifRsCtrlEn, .hifRsCtrlPort,
   .hifRsCtrlImod, .hifRsStatState, .hifRsStatIdle]

/-- Fields of block HIF, part 2 of 2. -/
def hifFields2 : List Field :=
  [.hifRsStatErrc, .hifRsStatNotelost, .hifRsStatInflight, .hifRsTeldrop, .hifRsCmdci, .hifRsCplpi, .hifMbPtr,
   .hifMbTag, .hifMbStatFull, .hifMbStatCollision, .hifMbStatAborted, .hifMbStatPerr]

/-- The fields of block HIF. -/
def hifFields : List Field := hifFields1 ++ hifFields2

/-- Fields of block FLT, part 1 of 3. -/
def fltFields1 : List Field :=
  [.fltCfgEsct, .fltStewmaxMs, .fltAckSeq, .fltAckAll, .fltFclrCls, .fltInjLard1, .fltInjLard2, .fltInjCell1,
   .fltInjCell2, .fltInjLane, .fltInjMbox, .fltInjChain, .fltInjDie, .fltInjMb, .fltPairbrkBrk, .fltCmtGen,
   .fltCmtState, .fltCmtQueued, .fltCmtmapAck, .fltHallEpoch, .fltHallFocnt, .fltHallLast, .fltFirstAddr, .fltFirstSrc]

/-- Fields of block FLT, part 2 of 3. -/
def fltFields2 : List Field :=
  [.fltFirstAcc, .fltFirstValid, .fltFirstUnit, .fltFirstDetail, .fltFirstMore, .fltFirstTime, .fltFirstScope,
   .fltFirstPart, .fltCorr, .fltCont, .fltFatalc, .fltTrans, .fltLasting, .fltFullns, .fltAonns, .fltStatusWrdrop,
   .fltStatusFatal, .fltStatusPendovf, .fltStatusNostby, .fltStatusGoverrbad, .fltStatusEscal, .fltStatusSteward,
   .fltPendSeq, .fltPendSrc]

/-- Fields of block FLT, part 3 of 3. -/
def fltFields3 : List Field :=
  [.fltPendScope, .fltPendPart, .fltPendValid, .fltPendRemain, .fltPendMerged, .fltSrccntCorr, .fltSrccntCont]

/-- The fields of block FLT. -/
def fltFields : List Field := fltFields1 ++ fltFields2 ++ fltFields3

/-- The fields of block CLK. -/
def clkFields : List Field :=
  [.clkSrcX0, .clkSrcX1, .clkSrcRefsel, .clkXcntCount, .clkOsctrimCode, .clkOsctrimTsrc, .clkOsctrimTrimmed,
   .clkLock, .clkHold, .clkRampCyc, .clkLintelFmax, .clkDomTgt, .clkDomCur, .clkDomStr, .clkDomForced, .clkCbrTgt,
   .clkCbrCur, .clkCbrGdep, .clkStatusWrdrop, .clkStatusRaiserej, .clkStatusDivclamp, .clkStatusRefsw]

/-- Fields of block ALC, part 1 of 2. -/
def alcFields1 : List Field :=
  [.alcPkglimLim, .alcPkglimCause, .alcPkglimBand, .alcPkglimSpend, .alcElecpkPeak, .alcElecmidMid, .alcElecmidAlen,
   .alcElecbaseBase, .alcElecbaseBlen, .alcElecbktAfill, .alcElecbktBfill, .alcTraycapCap, .alcHostcapCap,
   .alcSustainS, .alcSustainGrains, .alcThermlimLim, .alcCredit, .alcCreditrsvRsv, .alcOvercntCount,
   .alcStatusWrdrop, .alcStatusRaiserej, .alcStatusHeldrej, .alcClswtBg, .alcClswtStd]

/-- Fields of block ALC, part 2 of 2. -/
def alcFields2 : List Field :=
  [.alcClswtCrit, .alcLendAge, .alcFloorshFloor, .alcCbud, .alcCbudReserve, .alcAlstatUnder, .alcAlstatParterr,
   .alcAlstatUndercnt, .alcCclassCls, .alcPartDies, .alcPartBindTag, .alcPartBindValid, .alcPartPolAskdiv,
   .alcPartPolFloordiv, .alcPartPolTrimmax, .alcPartPolMaxdly, .alcPartPol2Dlypct, .alcPartPol2Stepb, .alcPartCap,
   .alcPartSlack, .alcPartAlloc, .alcPartCause]

/-- The fields of block ALC. -/
def alcFields : List Field := alcFields1 ++ alcFields2

/-- Fields of block HRT, part 1 of 2. -/
def hrtFields1 : List Field :=
  [.hrtTargetT, .hrtLtripTrip, .hrtLtripRel, .hrtTtripTrip, .hrtInletVal, .hrtInletAge, .hrtInletwcT, .hrtW1limLim,
   .hrtW30limLim, .hrtStalelimLim, .hrtE1, .hrtE30, .hrtW1lat, .hrtW30lat, .hrtW1statW1pk, .hrtW1statW1cool,
   .hrtCfgRetmarg, .hrtRunSeq, .hrtRunMiss, .hrtHstatStale, .hrtHstatInclamp, .hrtHstatHstale, .hrtHstatLtripact,
   .hrtHstatTtrip]

/-- Fields of block HRT, part 2 of 2. -/
def hrtFields2 : List Field :=
  [.hrtDieTpred, .hrtDieTmax, .hrtDieTerm, .hrtDieRetcnt, .hrtStatusWrdrop, .hrtStatusRaiserej, .hrtStatusCfgerr]

/-- The fields of block HRT. -/
def hrtFields : List Field := hrtFields1 ++ hrtFields2

/-- Fields of block CHN, part 1 of 2. -/
def chnFields1 : List Field :=
  [.chnCfgEn, .chnCfgLenden, .chnCfgBcnivl, .chnCfgRndivl, .chnNodeidId, .chnHome, .chnTotal, .chnHoldHolding,
   .chnHoldEff, .chnPos, .chnPosOrig, .chnPosM, .chnPosRole, .chnPosEpoch, .chnPosFrozen, .chnPosLink, .chnRound,
   .chnPrevHome, .chnLendLendq, .chnLendLendivl, .chnLendGap, .chnHlimMinhold, .chnHlimMaxhold, .chnPthrLend]

/-- Fields of block CHN, part 2 of 2. -/
def chnFields2 : List Field :=
  [.chnPthrRecall, .chnCrcerr, .chnStomp, .chnRepeat, .chnStrip, .chnAbort, .chnLdglost, .chnMismatch, .chnUnknown,
   .chnGrin, .chnGrout, .chnVerVmin, .chnVerVmax, .chnVerRver, .chnInjCrcinv, .chnStatusWrdrop, .chnStatusOversub,
   .chnStatusUndersub, .chnStatusTotaldiff, .chnStatusNolink, .chnStatusVererr]

/-- The fields of block CHN. -/
def chnFields : List Field := chnFields1 ++ chnFields2

/-- The fields of block LRD. -/
def lrdFields : List Field :=
  [.lrdCfgLearn, .lrdCfgSigk, .lrdCfgMincnt, .lrdCfgSeedcap, .lrdCfgPantage, .lrdCellarSize, .lrdCellarAvail,
   .lrdDefdurDur, .lrdDefpwrLo, .lrdDefpwrHi, .lrdLhit, .lrdLmiss, .lrdChit, .lrdCmiss, .lrdEvict, .lrdCdrop,
   .lrdCpause, .lrdEcccor, .lrdOccLarder, .lrdCoccCellar, .lrdMirrorPend, .lrdMirrorOvf, .lrdStatusWrdrop]

/-- The fields of block ATC. -/
def atcFields : List Field :=
  [.atcCfgRaten, .atcCfgRatewin, .atcCfgFreeze, .atcStatRam, .atcStatFrozen, .atcStatBusy, .atcStatBad,
   .atcStatEmpty, .atcWrptr, .atcOldest, .atcCurIdx, .atcCurAuto, .atcData, .atcSupp, .atcHeldlost, .atcPwrcyc,
   .atcStatusWrdrop]

/-- Fields of block OBS, part 1 of 2. -/
def obsFields1 : List Field :=
  [.obsPenergyE, .obsPkgenergyE, .obsUnasgnE, .obsTelcfgDecim, .obsTelcfgShared, .obsStmtivlIvl, .obsEstatCalall,
   .obsEstatMerge, .obsEstatBusy, .obsPrivRs, .obsPrivValid, .obsFrztT, .obsFrzctlArmed, .obsFrzctlFrozen,
   .obsFrzctlLate, .obsFrzctlThaw, .obsFrzctlMaxms, .obsTrcbase, .obsTrcctl, .obsTrccfgEn, .obsTrccfgSize,
   .obsTrccfgWmark, .obsTrcenType, .obsTrcenAdmall]

/-- Fields of block OBS, part 2 of 2. -/
def obsFields2 : List Field :=
  [.obsTrcenWmin, .obsTrcpart, .obsTrcpi, .obsTrcfull, .obsGstatV, .obsStatusWrdrop, .obsStatusFrzwr]

/-- The fields of block OBS. -/
def obsFields : List Field := obsFields1 ++ obsFields2

/-- Fields of block FWC, part 1 of 2. -/
def fwcFields1 : List Field :=
  [.fwcImgVer, .fwcBootSlot, .fwcBootTrial, .fwcBootConfirmed, .fwcBootRollback, .fwcBootAltslot,
   .fwcBootPolicydefaulted, .fwcBootSvnf, .fwcPolicyPver, .fwcPolicySkip, .fwcUpdStage, .fwcUpdFailc, .fwcUpdNum,
   .fwcUpdConfirm, .fwcUpdAbort, .fwcWdtPeriod, .fwcCcerrEcc, .fwcCcerrLsm, .fwcCrcseed, .fwcCrcw, .fwcCrcb,
   .fwcCrcout, .fwcCrccnt, .fwcLogWr]

/-- Fields of block FWC, part 2 of 2. -/
def fwcFields2 : List Field :=
  [.fwcLogRd, .fwcLogLost, .fwcTpWr, .fwcTpRd, .fwcTpDrop, .fwcTpEn, .fwcStatusWrdrop]

/-- The fields of block FWC. -/
def fwcFields : List Field := fwcFields1 ++ fwcFields2

/-- The fields of block AGE. -/
def ageFields : List Field :=
  [.ageCfgNexp, .ageCfgMaxstep, .ageCfgBlind, .ageOptimeSec, .ageDieMargin, .ageDieRaise, .ageDieFcast,
   .ageDieLastplan, .ageDieTopdiv, .ageDieMarginlow, .ageDiePend, .ageDieBlindf, .ageDieSens, .ageMonDelta,
   .ageMonSuspect, .ageMonRetired, .ageStatusWrdrop, .ageStatusMarginlow, .ageStatusPend]

/-- Fields of block DAG, part 1 of 5. -/
def dagFields1 : List Field :=
  [.dagEcoefCoef, .dagEleakLo, .dagEleakHi, .dagEgainGown, .dagEgainGmem, .dagEcalConv, .dagEcalRejcnt, .dagEdieE,
   .dagEpwrPer, .dagEpwrMs, .dagEmemlkMemlk, .dagAdmcfgBudget, .dagAdmcfgMaxdly, .dagAdmcfgRefcap, .dagAdmcfgLearn,
   .dagAdmcfgFfen, .dagAdmffFfgain, .dagAdmffFffrac, .dagAdmffUnann, .dagAdmcoreOut, .dagAdmcoreDly,
   .dagAdmcoreCause, .dagAdmcoreEngine, .dagAdmcoreQueue]

/-- Fields of block DAG, part 2 of 5. -/
def dagFields2 : List Field :=
  [.dagAdmcoreClass, .dagAdmcoreConsec, .dagAdmcorePromo, .dagAdmcorePend, .dagAdmsrv, .dagAdmdly, .dagAdmref,
   .dagAdmslots, .dagAdmffw, .dagAdmuna, .dagAdmlrn, .dagAdmstatBud, .dagAdmstatPend, .dagAdmstatFloorref,
   .dagAdmstatUnannf, .dagDrpcfgEn, .dagDrpcfgScope, .dagDrpcfgDep1, .dagDrpcfgDep2, .dagDrpcfgLen, .dagDrpcfgRetmax,
   .dagDrpcfgRetdiv, .dagDrpthrDthr1, .dagDrpthrDthr2]

/-- Fields of block DAG, part 3 of 5. -/
def dagFields3 : List Field :=
  [.dagDrptcTcal, .dagDrptcTco, .dagDrpcyc, .dagDrpepiL1, .dagDrpepiL2, .dagDrpann, .dagDrpuna, .dagDrpxX,
   .dagDrpxHold, .dagDrpstatCfgerr, .dagDrpstatPersist, .dagDrpstatLone, .dagDrpstatRetcnt, .dagDrpstatClamp,
   .dagDrpretRet, .dagDrpchrClo, .dagDrpchrChi, .dagDrpchrTap1, .dagDrpchrTap2, .dagDrpcntT1, .dagDrpcntT2,
   .dagPnthit, .dagPntmiss, .dagPntdef]

/-- Fields of block DAG, part 4 of 5. -/
def dagFields4 : List Field :=
  [.dagPntlate, .dagPntupd, .dagPntstatOcc, .dagPntstatPin, .dagPntstatOvfl, .dagGrantG, .dagGrantSb, .dagGrantGen,
   .dagStewshSh, .dagCgrantDiv, .dagCgrantTrim, .dagCgrantLever, .dagCgrantCause, .dagCgrantClass, .dagCallocAlloc,
   .dagCallocNeed, .dagVfLo, .dagVfHi, .dagWaitCount, .dagWaitObj, .dagWaitEng, .dagWaitColl, .dagWaitAge,
   .dagAlstatDupgrant]

/-- Fields of block DAG, part 5 of 5. -/
def dagFields5 : List Field :=
  [.dagTrimsav0Bf16t1, .dagTrimsav0Bf16t2, .dagTrimsav0Fp16t1, .dagTrimsav0Fp16t2, .dagTrimsav1Fp8t1,
   .dagTrimsav1Fp8t2, .dagTrimlvlLvl, .dagTrimt1, .dagTrimt2, .dagTsT, .dagTsOffs, .dagTsSuspect, .dagTsRetired,
   .dagTrcocc, .dagTrcdrop, .dagStatusWrdrop, .dagStatusPwfmt, .dagStatusLaterep]

/-- The fields of block DAG. -/
def dagFields : List Field := dagFields1 ++ dagFields2 ++ dagFields3 ++ dagFields4 ++ dagFields5

/-- Fields of block RGC, part 1 of 3. -/
def rgcFields1 : List Field :=
  [.rgcCfgEn, .rgcCfgPhcnt, .rgcCfgTest, .rgcCfgNoshed, .rgcSlotS, .rgcVidV, .rgcVmaxV, .rgcOcpPhase, .rgcOclimPhase,
   .rgcOclimRail, .rgcSeqMode, .rgcSeqLeader, .rgcSeqRamp, .rgcSeqSlew, .rgcShedPhmin, .rgcShedLo, .rgcShedHi,
   .rgcShedDly, .rgcDutyTmin, .rgcDutyDmax, .rgcStaggerOffs, .rgcStaggerTgt, .rgcCompB0, .rgcCompB1]

/-- Fields of block RGC, part 2 of 3. -/
def rgcFields2 : List Field :=
  [.rgcCompB2, .rgcCompB3, .rgcCompA1, .rgcCompA2, .rgcCompA3, .rgcCompCommit, .rgcTelV1ms, .rgcTelI1ms, .rgcTelP1ms,
   .rgcTelT1ms, .rgcTelV1s, .rgcTelI1s, .rgcTelP1s, .rgcTelT1s, .rgcPeakVhi, .rgcPeakVlo, .rgcPeakIhi, .rgcPeakPhi,
   .rgcPeakThi, .rgcPhstatPh, .rgcHiccupCount, .rgcHiccupConsec, .rgcStatusState, .rgcStatusVready]

/-- Fields of block RGC, part 3 of 3. -/
def rgcFields3 : List Field :=
  [.rgcStatusVclamp, .rgcStatusCfgerr, .rgcStatusSeqerr, .rgcStatusCommiterr, .rgcStatusNoinput, .rgcStatusShort,
   .rgcStatusWrdrop, .rgcStatusRaiserej]

/-- The fields of block RGC. -/
def rgcFields : List Field := rgcFields1 ++ rgcFields2 ++ rgcFields3

/-- The fields of block QEA. -/
def qeaFields : List Field :=
  [.qeaEnergy, .qeaTrimt, .qeaServed, .qeaDelayed, .qeaRefused]

/-- The fields of block VIEW. -/
def viewFields : List Field :=
  [.viewPerseq, .viewWinseq, .viewJobseq, .viewDeny, .viewFrozen, .viewQsel, .viewLive, .viewPer, .viewWin, .viewJob]

/-- The fields of a block. -/
def blkFields : Blk → List Field
  | .gov => govFields
  | .hif => hifFields
  | .flt => fltFields
  | .clk => clkFields
  | .alc => alcFields
  | .hrt => hrtFields
  | .chn => chnFields
  | .lrd => lrdFields
  | .atc => atcFields
  | .obs => obsFields
  | .fwc => fwcFields
  | .age => ageFields
  | .dag => dagFields
  | .rgc => rgcFields
  | .qea => qeaFields
  | .view => viewFields

end Sys2Proof.Machine
end

