-- ==== Sys2Proof/Machine/RegMap.lean ====
section
/-!
DEFINITION. Sys2Proof/Machine/RegMap.lean: which elements of the register map exist (R5), where each stands (R387 to R389) and
what each holds at reset.
-/
namespace Sys2Proof.Machine

/-- One element of one register field: field f of block instance i (die, rail channel, queue, partition's view page, or port
for the registers kept per port), element j. -/
structure FieldRef where
  f : Field
  i : Nat
  j : Nat
  deriving DecidableEq, Repr

/-- The order of register elements in a canonical table: by field, instance and element. -/
def FieldRef.lt (a b : FieldRef) : Bool :=
  decide (a.f.ctorIdx < b.f.ctorIdx) ||
    (decide (a.f.ctorIdx = b.f.ctorIdx) &&
      (decide (a.i < b.i) || (decide (a.i = b.i) && decide (a.j < b.j))))

/-- The rail types of R80 and R107. -/
inductive RailType where
  | vcmp | vmem | vfab | vhub | vhost | vphy
  deriving DecidableEq, Repr

/-- The type of a rail channel; channels 60 to 63 have none (R80). -/
def railType (r : Nat) : Option RailType :=
  if r < 32 then some .vcmp
  else if r < 48 then some .vmem
  else if r < 52 then some .vfab
  else if r < 54 then some .vhub
  else if r < 56 then some .vhost
  else if r < 60 then some .vphy
  else none

/-- The die whose die agent owns a rail channel (R80). -/
def railOwner (r : Nat) : Option Nat :=
  match railType r with
  | some .vcmp => some r
  | some .vmem => some (2 * (r - 32))
  | some .vfab => some (32 + (r - 48))
  | some .vhub => some (36 + (r - 52))
  | some .vhost => some (38 + (r - 54))
  | some .vphy => some (32 + (r - 56))
  | none => none

/-- Phase channels wired to a rail channel (R80). -/
def railWired (r : Nat) : Nat :=
  match railType r with
  | some .vcmp => 4
  | some .vmem => 2
  | some .vfab => 3
  | some .vhub => 2
  | some .vhost => 2
  | some .vphy => 1
  | none => 2

/-- One of six values, by rail type, and 0 on a channel with no type. -/
def byType (r a b c d e g : Nat) : Nat :=
  match railType r with
  | some .vcmp => a
  | some .vmem => b
  | some .vfab => c
  | some .vhub => d
  | some .vhost => e
  | some .vphy => g
  | none => 0

/-- The registers that each access port has of its own (R389). -/
def Field.perPort : Field → Bool
  | .fwcCrcseed | .fwcCrcw | .fwcCrcb | .fwcCrcout | .fwcCrccnt | .atcCurIdx | .atcCurAuto | .atcData => true
  | _ => false

/-- How many instances a field has: of its block, or of its port. -/
def Field.instances (f : Field) : Nat :=
  if f.perPort then 4
  else match (fieldDef f).blk with
    | .dag => 40
    | .rgc => 64
    | .qea => 16384
    | .view => 16
    | _ => 1

/-- The droop domains k of a die (R160). -/
def dieDomains (d : Nat) : Nat :=
  if d < 32 then 4 else if d < 36 then 2 else if d < 38 then 1 else 2

/-- The detectors of a die (R14). -/
def dieDetectors (d : Nat) : Nat := if d < 32 then 64 else 16

/-- The thermal sensors of a die (R14). -/
def dieSensors (d : Nat) : Nat := if d < 32 then 48 else 16

/-- The ageing monitors of a die (R14). -/
def dieMonitors (d : Nat) : Nat := if d < 32 then 8 else 4

/-- The compute-die registers of a die agent, which read as zero on dies 32 to 39 (R127, R184, R204, R215). -/
def computeOnly (off : Nat) : Bool :=
  (decide (0x300 ≤ off) && decide (off < 0x400)) || (decide (0x700 ≤ off) && decide (off < 0xA00))

/-- Whether a register element exists on its instance. One that does not reads as zero and discards writes without a flag
(R5, R54, R80, R127, R160, R184, R204, R215, R234). -/
def FieldRef.exists (r : FieldRef) : Bool :=
  let d := fieldDef r.f
  decide (r.i < r.f.instances) && decide (r.j < d.count) &&
  match d.blk with
  | .rgc => (railType r.i).isSome
  | .dag =>
    match r.f with
    | .dagEgainGmem | .dagEmemlkMemlk => decide (r.i < 32) && decide (r.i % 2 = 0)
    | .dagDrpcyc | .dagDrpepiL1 | .dagDrpepiL2 | .dagDrpxX | .dagDrpxHold => decide (r.j < dieDomains r.i)
    | .dagDrpchrClo | .dagDrpchrChi | .dagDrpchrTap1 | .dagDrpchrTap2 | .dagDrpcntT1 | .dagDrpcntT2 =>
      decide (r.j < dieDetectors r.i)
    | .dagTsT | .dagTsOffs | .dagTsSuspect | .dagTsRetired => decide (r.j < dieSensors r.i)
    | _ => decide (r.i < 32) || !computeOnly d.off
  | _ => true

/-- The default divisor of a clock domain, in the format of R138 (R137). -/
def domDefault (d : Nat) : Nat :=
  if d < 32 then 0x100
  else if d < 64 then 0x060
  else if d < 72 then (if d % 2 = 0 then 0x050 else 0x040)
  else if d < 76 then (if d % 2 = 0 then 0x060 else 0x0C0)
  else if d % 2 = 0 then 0x060 else 0x080

/-- The reset value of a register element. Fused values the spec gives no figure for, and values from the flash, are 0
(assumption log 4); the Voxrov figures of R107 and R219 are given here. -/
def FieldRef.reset (r : FieldRef) : Nat :=
  match r.f with
  | .rgcCfgPhcnt => byType r.i 4 2 2 2 1 1
  | .rgcSlotS => byType r.i 2000 4000 4000 4000 8000 8000
  | .rgcVidV => byType r.i 1500 1560 1500 1500 1600 2000
  | .rgcVmaxV => byType r.i 1800 1700 1700 1700 1800 2100
  | .rgcOcpPhase => byType r.i 1400 1000 1000 800 800 600
  | .rgcOclimPhase => byType r.i 1792 1280 1280 1024 1024 768
  | .rgcOclimRail => byType r.i 7168 2560 2560 2048 1024 768
  | .rgcShedPhmin => byType r.i 2 1 1 1 1 1
  | .clkDomTgt | .clkDomCur => domDefault r.j
  | .hrtLtripTrip => 0x730
  | .ageDieTopdiv => if r.j < 32 then 5 else 0
  | f => (fieldDef f).reset

/-- A sticky or lower-only field keeps its value across every reset that leaves the always-on supply up (R7, R8). -/
def Field.kept (f : Field) : Bool :=
  match (fieldDef f).kind with
  | .rws | .rwl => true
  | _ => false

/-- A lower-only field (R7). -/
def Field.isLimit (f : Field) : Bool := decide ((fieldDef f).kind = .rwl)

end Sys2Proof.Machine
end

