-- ==== Sys2Proof/Machine/Store.lean ====
section
/-!
DEFINITION. Sys2Proof/Machine/Store.lean: sparse tables as lists of key and value pairs. A key that is not listed holds the
table's default, a write adds the newest pair in front, and seal puts a table in its one canonical form: keys rising by the
given order, each once, and none holding its default.
-/
namespace Sys2Proof.Machine

/-- A sparse table. -/
abbrev Store (κ α : Type) := List (κ × α)

/-- The value a table holds at a key: that of the first pair listed for it, else the default. -/
def Store.get {κ α : Type} [DecidableEq κ] (d : κ → α) : Store κ α → κ → α
  | [], k => d k
  | (k', v) :: l, k => if k' = k then v else Store.get d l k

/-- A table with one key's value replaced. -/
def Store.set {κ α : Type} (l : Store κ α) (k : κ) (v : α) : Store κ α := (k, v) :: l

/-- A table with one key's value changed by a function. -/
def Store.upd {κ α : Type} [DecidableEq κ] (d : κ → α) (l : Store κ α) (k : κ) (f : α → α) : Store κ α :=
  Store.set l k (f (Store.get d l k))

/-- A pair put in its place in a rising list, replacing the pair of the same key. -/
def Store.insert {κ α : Type} [DecidableEq κ] (lt : κ → κ → Bool) (k : κ) (v : α) : Store κ α → Store κ α
  | [] => [(k, v)]
  | (k', v') :: l =>
    if k = k' then (k, v) :: l
    else if lt k k' then (k, v) :: (k', v') :: l
    else (k', v') :: Store.insert lt k v l

/-- A list without the pairs of one key. -/
def Store.drop {κ α : Type} [DecidableEq κ] (k : κ) : Store κ α → Store κ α
  | [] => []
  | (k', v') :: l => if k' = k then Store.drop k l else (k', v') :: Store.drop k l

/-- The canonical form of a table. -/
def Store.seal {κ α : Type} [DecidableEq κ] [DecidableEq α] (lt : κ → κ → Bool) (d : κ → α) : Store κ α → Store κ α
  | [] => []
  | (k, v) :: l =>
    if v = d k then Store.drop k (Store.seal lt d l) else Store.insert lt k v (Store.seal lt d l)

/-- A table is in canonical form: its keys rise, and no pair holds its key's default. -/
def Store.wf {κ α : Type} [DecidableEq α] (lt : κ → κ → Bool) (d : κ → α) : Store κ α → Bool
  | [] => true
  | [(k, v)] => !decide (v = d k)
  | (k, v) :: (k', v') :: l => !decide (v = d k) && lt k k' && Store.wf lt d ((k', v') :: l)

/-- The order of tables keyed by numbers. -/
def natLt (a b : Nat) : Bool := decide (a < b)

end Sys2Proof.Machine
end

