-- ==== Sys2Proof/Machine/State.lean ====
section
/-!
DEFINITION. Sys2Proof/Machine/State.lean: the state of the block as plain data, the reasons it stops, and the state after
reset. Register fields live in a table keyed by FieldRef; what the spec gives the machine beside its registers has a
structure of its own here.
-/
namespace Sys2Proof.Machine

/-! ## Register ports (R6, R11, R315, R389) -/

/-- How an access ended (R319). -/
inductive BusResp where
  | ok | error
  deriving DecidableEq, Repr

/-- What one access port keeps of its own: its read latches, by lower word address, its held lower halves, by block base,
and the data and response of its last access. -/
structure PortState where
  latch : Store Nat Nat
  held : Store Nat (Option (Nat × Nat))
  rdata : Nat
  resp : BusResp
  deriving DecidableEq, Repr

/-- The MSI-X table words and pending bits of one host port (R315). -/
structure MsixState where
  table : Store Nat Nat
  pba : Nat
  deriving DecidableEq, Repr

/-! ## Faults (R276 to R287) -/

/-- The three classes of R276. -/
inductive FaultClass where
  | corrected | contained | fatal
  deriving DecidableEq, Repr

/-- The scopes of R277. -/
inductive Scope where
  | die | pair | package
  deriving DecidableEq, Repr

/-- A fault as its source reports it: class, source, detail, unit, scope, access type, address and time (R283, R284). -/
structure FaultRec where
  cls : FaultClass
  src : Nat
  detail : Nat
  unit : Nat
  scope : Scope
  acc : Nat
  addr : Nat
  deriving DecidableEq, Repr

/-- What the collector keeps of a pending fault beside its registers: the end of its timer, its unit and detail (R278). -/
structure PendInfo where
  deadline : Nat
  unit : Nat
  detail : Nat
  deriving DecidableEq, Repr

/-- Armed injections (R287): check bits to invert on the next Larder and Cellar writes, dies whose next flit and mailboxes
whose next write carries inverted parity, and the next Chain frame. -/
structure Inject where
  lard : Nat
  cell : Nat
  lanes : List Nat
  mboxes : List Nat
  chain : Bool
  deriving DecidableEq, Repr

/-- The conditions that force the floor state (R36, R379, R385). -/
structure Forcing where
  alert : Bool
  junction : Bool
  fatal : Bool
  thermtrip : Bool
  held8 : Bool
  shutdown : Bool
  deriving DecidableEq, Repr

/-- The package balls Elkward reads or drives (R22). -/
structure Pins where
  powerAlertN : Bool
  throttleN : Bool
  thermtripN : Bool
  govErrP : Bool
  govErrN : Bool
  govHeartbeat : Bool
  bypHold : Bool
  deriving DecidableEq, Repr

/-! ## Period reports and grants (R19, R59, R189, R196) -/

/-- A core's part of a period report. -/
structure CoreReport where
  fc1 : Nat
  fc2 : Nat
  age : Nat
  coll : Bool
  sv1 : Nat
  sv2 : Nat
  dyn : Nat
  deriving DecidableEq, Repr

/-- A die agent's report for one period. Energies are in 2^-16 µJ and powers in 1/8 W. -/
structure Report where
  period : Nat
  gen : Nat
  energy : Nat
  cum : Nat
  idleCum : Nat
  fc : List Nat
  cores : List CoreReport
  vref : Nat
  leakTerm : Nat
  c15 : Nat
  vNow : Nat
  links : Nat
  acks : List Nat
  fatalReq : Bool
  deriving DecidableEq, Repr

/-- A core's part of a grant (R196). -/
structure CoreGrant where
  div : Nat
  trim : Nat
  lever : Nat
  cause : Nat
  cls : Nat
  alloc : Nat
  need : Nat
  deriving DecidableEq, Repr

/-- The key of a Larder entry: job tag, layer, operator and precision (R161). -/
structure LKey where
  tag : Nat
  layer : Nat
  op : Nat
  prec : Nat
  deriving DecidableEq, Repr

/-- An invalidation of Pantry copies: of one key, or of every key of its tag (R171). -/
structure Inval where
  key : LKey
  whole : Bool
  deriving DecidableEq, Repr

/-- A grant on its lane. -/
structure Grant where
  period : Nat
  gen : Nat
  epoch : Nat
  g : Nat
  sb : Nat
  maxdly : Nat
  cores : List CoreGrant
  stewsh : Nat
  invals : List Inval
  deriving DecidableEq, Repr

/-! ## The Larder (R161 to R182) -/

/-- A Larder entry (R162): energies in 2^-8 µJ, durations in branch cycles. -/
structure LEntry where
  key : LKey
  emean : Nat
  dmean : Nat
  evar : Nat
  count : Nat
  maxstep : Nat
  seeded : Bool
  last : Nat
  deriving DecidableEq, Repr

/-- A Pantry copy of an entry and the instant it was fetched (R168, R171). -/
structure PEntry where
  ent : LEntry
  fetched : Nat
  deriving DecidableEq, Repr

/-- An update record (R166): its die, the key, the class learned, whether a class was observed, the energy in 2^-8 µJ, the cycles,
and the number it takes when it is sent (R177). -/
structure UpdRec where
  die : Nat
  key : LKey
  k : Nat
  observed : Bool
  energy : Nat
  cycles : Nat
  seq : Nat
  deriving DecidableEq, Repr

/-- A reply to a lookup: the entry found, or the default reply (R169). -/
structure LReply where
  key : LKey
  ent : Option LEntry
  /-- the generation of the die agent that it answers (R20) -/
  gen : Nat
  deriving DecidableEq, Repr

/-- A lookup on its way: the die, the key, and the generation of its agent (R20, R169). -/
structure LReq where
  die : Nat
  key : LKey
  gen : Nat
  deriving DecidableEq, Repr

/-- What the active Hall streams to the standby: an entry written, or a key whose entry left the Larder (R177). -/
inductive MirrorOp where
  | put (e : LEntry)
  | drop (k : LKey)
  deriving DecidableEq, Repr

/-- The Larder of the active Hall and the standby's copy of it, the Cellar, the lookups and update records on their way, and the
standby's replay buffer. -/
structure LarderState where
  larder : List LEntry
  mirror : List LEntry
  cellar : List LEntry
  lookups : List LReq
  cellarReads : List LReq
  updates : List UpdRec
  replay : List UpdRec
  /-- writes on their way to the standby, each with the number of the last record applied (R177) -/
  stream : List (MirrorOp × Nat)
  recIn : Nat
  recDone : Nat
  /-- words that hold inverted check bits: Cellar or not, key, how many (R287) -/
  badWords : List (Bool × LKey × Nat)
  invals : List Inval
  /-- sets of the Larder and of the Cellar from which a way is withdrawn, once for each way (R288) -/
  withdrawn : List Nat
  withdrawnC : List Nat
  deriving DecidableEq, Repr

/-! ## Windows, requests and the die agent (R16, R25 to R29, R53, R110, R355) -/

/-- A descriptor in a lookahead window: the fields of its power word after R27, its queue, whether it is a calibration pattern (R373), the
job tag bound to its partition, whether it waits on synchronisation, the instant it entered, whether it runs, for how many branch cycles and
with what energy in 2^-16 µJ up to the last boundary (R163), whether it has been forecast with the default, and the current observed for it
in 1/16 A, if any (R164). -/
structure WinDesc where
  layer : Nat
  op : Nat
  step : Nat
  prec : Nat
  trim : Nat
  queue : Nat
  pattern : Bool
  tag : Option Nat
  waiting : Bool
  since : Nat
  running : Bool
  cycles : Nat
  energy : Rat
  defaulted : Bool
  observed : Option Nat
  deriving DecidableEq, Repr

/-- What an engine's completed descriptors of one queue drew since the last boundary: core × 6 + engine, the queue, branch cycles, and energy in
2^-16 µJ (R163). -/
structure DoneRun where
  eng : Nat
  queue : Nat
  cycles : Nat
  energy : Rat
  deriving DecidableEq, Repr

/-- A lookup that a die agent waits for: its key, the instant its descriptor entered, whether it has been sent, and whether 4 000 ns have
passed (R169). -/
structure Lookup where
  key : LKey
  start : Nat
  sent : Bool
  late : Bool
  deriving DecidableEq, Repr

/-- A trace record before it has its place in the ring (R357). -/
structure TraceRec where
  type : Nat
  core : Nat
  eng : Nat
  a : Nat
  b : Nat
  time : Nat
  deriving DecidableEq, Repr

/-! ## Load admission (R108 to R127) -/

/-- A pending step request (R110): its engine and queue, whether it is a calibration pattern's, the class it is charged at once it has been
arbitrated, whether that is a learned class, the slots it has waited, and whether it was delayed in this fast period (R72). -/
structure AdmReq where
  core : Nat
  eng : Nat
  queue : Nat
  pattern : Bool
  cls : Nat
  charge : Option Nat
  learned : Bool
  dly : Nat
  hit : Bool
  deriving DecidableEq, Repr

/-- A step served in a slot: its engine and queue, its charge and its feed-forward current in 1/16 A, the on-time in root periods that it
carried, none where it carried no increment, and whether its descriptor has yet to complete (R122, R164). -/
structure Served where
  core : Nat
  eng : Nat
  queue : Nat
  charge : Nat
  cur : Rat
  ff : Option Rat
  live : Bool
  deriving DecidableEq, Repr

/-- An engine that started a descriptor in a slot: the queue, and whether the descriptor has yet to complete (R124, R164). -/
structure SlotStart where
  core : Nat
  eng : Nat
  queue : Nat
  live : Bool
  deriving DecidableEq, Repr

/-- One slot of a VCMP rail as admission looks back on it: the steps served in it, the engines that started a descriptor in it, and
its mean current in 1/16 A, once known (R82, R123, R124). -/
structure SlotRec where
  served : List Served
  starts : List SlotStart
  mean : Option Rat
  deriving DecidableEq, Repr

/-- A STEP_OUT notice (R119). -/
structure StepOut where
  core : Nat
  eng : Nat
  out : Nat
  go : Bool
  dly : Nat
  cause : Nat
  deriving DecidableEq, Repr

/-- An issue limiter: its engine, the fraction of full rate as n of 8 or of 32, 0 until the boundary of the slot it starts with, and the charge
that a full rise stands for (R120). -/
structure Limiter where
  core : Nat
  eng : Nat
  num : Nat
  den : Nat
  charge : Nat
  deriving DecidableEq, Repr

/-- What admission keeps on a compute die: pending requests, the round-robin pointer, the rest of a large charge, the steps of this
fast period and of the last, the limiters, the slots looked back on (newest first, the first not yet ended), excesses to take from
coming budgets, unannounced steps in this millisecond, and the notices of the last arbitration. -/
structure AdmState where
  reqs : List AdmReq
  ptr : Nat
  debt : Nat
  chargeNow : Nat
  chargeLast : Nat
  limiters : List Limiter
  slots : List SlotRec
  /-- taken from the budget of the slot arbitrated next (R124) -/
  excess : Rat
  unaMs : Nat
  /-- steps served in the slot arbitrated last, and whether that slot is yet to begin -/
  next : List Served
  arbDone : Bool
  notices : List StepOut
  deriving DecidableEq, Repr

/-! ## Droop (R144 to R160) -/

/-- A droop episode of a domain or branch (R152, R154): first detector, highest level, peak extension in 1/16 root period, length in
cycles, whether announced, the queue on E0 at detection, and its start. The cycles that run are told when the hold ends or a release step is
done, so the runs of them that differ in whether they count as DROOP are kept, oldest first: those up to the last trip, those that have ended since,
and whether the cycles that run now count (R153). -/
structure Episode where
  det : Nat
  level : Nat
  peak : Nat
  cycles : Nat
  announced : Bool
  queue : Nat
  start : Nat
  before : List Bool
  since : List Bool
  counts : Bool
  deriving DecidableEq, Repr

/-- What a die agent keeps for its droop detectors: the episode of each domain, trips in the slot that runs (detector and domain), lone
trips of each detector in this millisecond, detectors whose targeted self-test is due, domains clamped, and cores that had an
extension in force in this fast period. -/
structure DroopState where
  episodes : Store Nat Episode
  trips : List (Nat × Nat)
  lone : Store Nat Nat
  testDue : List Nat
  clamped : List Nat
  hit : List Nat
  deriving DecidableEq, Repr

/-- What a die agent keeps of a thermal sensor (R218, R219, R226): consecutive conversions at or above the Lintel trip and at or above
the THERMTRIP level, consecutive conversions more than 10 °C from the estimate of its node, and the sum and count of this millisecond's
conversions in 1/16 °C. -/
structure SensorState where
  above : Nat
  trip : Nat
  dev : Nat
  sum : Int
  n : Nat
  deriving DecidableEq, Repr

/-- A telemetry interval that has ended: its start, its energy in 2^-16 µJ, its length as a power of two of fast periods, and whether the
interval in force changes at its end (R65, R68). -/
structure TelDue where
  t0 : Nat
  sum : Nat
  decim : Nat
  last : Bool
  deriving DecidableEq, Repr

/-- What a die agent holds beside its registers. Energies are in 2^-16 µJ. -/
structure DieState where
  /-- its island has power (R15, R288) -/
  powered : Bool
  /-- its die is in compute-recovery reset (R9, R391) -/
  inReset : Bool
  /-- generation tag, 4 bits (R16) -/
  gen : Nat
  /-- highest role epoch it has seen (R292) -/
  epoch : Nat
  /-- in STEWARD (R293), for how many periods, and with its stewardship share in force (R201) -/
  steward : Bool
  held : Nat
  onShare : Bool
  /-- a grant received and not yet applied, and the period number of the last one applied (R197) -/
  next : Option Grant
  applied : Option Nat
  /-- the last grant whose boundary came in the floor state: recorded, and applied at its release (R49) -/
  recorded : Option Grant
  /-- cumulative energy and the part of it for idle cores (R59, R60) -/
  cum : Nat
  idleCum : Nat
  /-- the last period: its energy, its static part and counter-15 part, and each core's dynamic energy (R60, R201) -/
  perEnergy : Nat
  perStatic : Nat
  coreDyn : List Nat
  /-- the counter-15 energy and the voltage of that period, from which R190 prices a static part (R201) -/
  perC15 : Nat
  perV : Nat
  /-- periods in STEWARD whose estimate no setting fitted into the share, to be charged as over-limits (R201) -/
  shareOver : Nat
  /-- sums since the last Hearth boundary: ungained own-rail and memory-rail energy, and die energy (R55, R77) -/
  rawOwn : Nat
  rawMem : Nat
  /-- energies since then by node: cores 0 to 3, memory rail, leakage and counter 15 (R221) -/
  msNodes : List Nat
  /-- what each sensor has been seen to do (R218, R219) -/
  sensors : Store Nat SensorState
  msEnergy : Nat
  /-- energy of the telemetry interval that runs, and the intervals that have ended and are not yet coded, oldest first (R65) -/
  telSum : Nat
  telDue : List TelDue
  /-- consecutive milliseconds converged, and consecutive milliseconds with a rejection (R57) -/
  convRun : Nat
  rejRun : Nat
  /-- mean of the die's sensors over the last millisecond, in 1/16 °C (R54) -/
  tMean : Int
  /-- reports on the lane to Hall A and to Hall B, oldest first (R19) -/
  laneA : List Report
  laneB : List Report
  /-- fault reports held in STEWARD, at most 16 (R293) -/
  faultHold : List FaultRec
  /-- change generations staged and to be acknowledged (R290) -/
  staged : Option Nat
  acks : List Nat
  /-- the highest trim level in force on each core since the last boundary (R205, R206) -/
  trimRun : List Nat
  /-- trace buffer, oldest first, events lost since it was full, and drain tokens (R355) -/
  trace : List TraceRec
  traceLost : Nat
  traceTokens : Nat
  /-- update buffer of 64 records (R166) -/
  updBuf : List UpdRec
  /-- Pantry, most recently used first, and overflow buffer (R168) -/
  pantry : List PEntry
  overflow : List PEntry
  /-- what descriptors that have completed drew since the last boundary (R163) -/
  done : List DoneRun
  /-- lookups that wait for a reply, at most 32 of them sent, and replies on the lane (R169) -/
  asked : List Lookup
  replies : List LReply
  /-- cores with a request that has ended delayed or refused in the period (R72) -/
  admHit : List Nat
  adm : AdmState
  droop : DroopState
  /-- lookahead windows by core × 6 + engine, head first (R110) -/
  windows : Store Nat (List WinDesc)
  deriving DecidableEq, Repr

/-- What the active Hall keeps of a die (R59, R74, R188, R288, R289). -/
structure HallDie where
  /-- admitted at its current generation (R16) -/
  admitted : Bool
  gen : Nat
  /-- the last report received in time, and whether one came for the period just ended -/
  rep : Option Report
  fresh : Bool
  /-- the last report that came late (R20) -/
  late : Option Report
  /-- the cumulative counters at the last report of any kind, that of energy in full (R59, R75) -/
  lastCum : Nat
  lastIdle : Nat
  lastRepPeriod : Nat
  /-- it has been in STEWARD or has reset: with its next report the Hall reads its EDIE (R75) -/
  readEdie : Bool
  /-- periods since a report at the current generation (R288) -/
  silent : Nat
  /-- why it is excluded from allocation: 0 a rail LATCHED, 1 holdover, 2 an ageing measurement (R103, R136, R267) -/
  excl : List Nat
  /-- the last grant sent, for R20 and R34 -/
  lastGrant : Option Grant
  heldG : Nat
  heldSb : Nat
  /-- grants on the lane, oldest first -/
  lane : List Grant
  /-- lanes retired, to Hall A and to Hall B (R288) -/
  laneOutA : Bool
  laneOutB : Bool
  /-- error pairs broken, to Hall A and to Hall B (R285) -/
  pairA : Bool
  pairB : Bool
  /-- checkpoint of the queue accumulators, and what each gained in the last complete interval (R74) -/
  ckpt : Store Nat Nat
  ckptGain : Store Nat Nat
  /-- the die's cumulative energy and the period at that checkpoint (R74), and when its island's power was cut (R288) -/
  ckptCum : Nat
  ckptPeriod : Nat
  /-- its idle energy at that checkpoint -/
  ckptIdle : Nat
  cutAt : Option Nat
  /-- copies of calibration and retirement state to restore (R57, R288, R289) -/
  copy : List (FieldRef × Nat)
  /-- core-periods collective-waiting in each of the last periods, newest first (R200) -/
  collHist : List Nat
  deriving DecidableEq, Repr

/-! ## Accounts and statements (R62 to R73, R350) -/

/-- The quantities that the statistics sets and statements count. -/
inductive Stat where
  | energy | idle | shared | vec | sramRd | sramWr | lbufRd | lbufWr | vrfRd | vrfWr | d2d | fab
  | served | delayed | refused | droopCyc | trimT1 | trimT2
  | mac (p : Nat)
  | thr (c : Nat)
  deriving DecidableEq, Repr

/-- Counts by quantity; a quantity not listed is 0. -/
abbrev Counts := Store Stat Nat

/-- The kinds of statement (R71). -/
inductive StmtKind where
  | periodic | final | stopped | demand
  deriving DecidableEq, Repr

/-- A statement that has fallen due: its cause, its partition's dies and tag, its number and the end of its interval. -/
structure StmtDue where
  kind : StmtKind
  part : Nat
  tag : Nat
  dies : Nat
  seq : Nat
  tEnd : Nat
  deriving DecidableEq, Repr

/-- A statement whose interval has ended and which awaits delivery (R70, R73). -/
structure Stmt where
  kind : StmtKind
  part : Nat
  tag : Nat
  dies : Nat
  seq : Nat
  tStart : Nat
  tEnd : Nat
  counts : List (Stat × Nat)
  peak : Nat
  flags : Nat
  deriving DecidableEq, Repr

/-- What the Hall keeps of a partition: the statement interval open, its flags, its counts and its peak power, the next
PERIODIC instant, and whether its JOB set is held (R69, R71, R351). -/
structure PartState where
  tStart : Nat
  nextPeriodic : Nat
  flags : Nat
  counts : Counts
  /-- what the fast period now accounted for has added, for the PER set (R351) -/
  open_ : Counts
  peak : Nat
  jobHeld : Bool
  /-- the boundary at which a new binding starts its accounts (R69, R351) -/
  bindAt : Option Nat
  /-- the membership in force at each period boundary at which it changed, newest first: period and dies (R59) -/
  history : List (Nat × Nat)
  /-- the boundary at which the present binding began: a period that ended by then belongs to the one before (R59) -/
  jobFrom : Nat
  /-- its energy in each of the last periods, newest first, in 2^-16 µJ (R70) -/
  power : List (Nat × Nat)
  deriving DecidableEq, Repr

/-- An open telemetry block of a die (R66, R67). -/
structure TelBlock where
  t0 : Nat
  q0 : Nat
  last : Nat
  nsamp : Nat
  bits : List Bool
  decim : Nat
  deriving DecidableEq, Repr

/-- What the Hall keeps until it can apportion shared energy (R62): the energy of dies 32 to 39 by period, and the link bytes of each
partition in each of the last periods, newest first. -/
structure AcctState where
  shared : List (Nat × Nat)
  links : List (Nat × List (Nat × Nat))
  deriving DecidableEq, Repr

/-! ## Rings and mailboxes (R301 to R318) -/

/-- A command fetched and running (R309): its identifier, opcode, target word, operands and the privilege it was fetched
with. -/
structure CmdRun where
  cid : Nat
  opcode : Nat
  tgt : Nat
  oper : List Word
  priv : Bool
  /-- its effect has been asked for, and it waits for its end -/
  started : Bool
  deriving DecidableEq, Repr

/-- A ring set beside its registers: indexes last read, Elkward's own indexes and phases, and running commands. -/
structure RingState where
  cmdpi : Nat
  cplci : Nat
  telci : Nat
  stmci : Nat
  telpi : Nat
  stmpi : Nat
  cmdPhase : Bool
  cplPhase : Bool
  telPhase : Bool
  stmPhase : Bool
  running : List CmdRun
  lost : Bool
  stmSeq : Nat
  due : List StmtDue
  stmts : List Stmt
  /-- last sending of the ring set's two vectors, and whether an entry awaits moderation (R316) -/
  lastCpl : Option Nat
  lastTel : Option Nat
  cplWaits : Bool
  telWaits : Bool
  deriving DecidableEq, Repr

/-- A write that Elkward has made to host memory: the port, the byte address and the words. -/
structure HostWrite where
  port : Port
  addr : Nat
  words : List Word
  deriving DecidableEq, Repr

/-- An MSI-X message sent: port, vector, address and data of the table entry (R315). -/
structure MsixSend where
  port : Port
  vector : Nat
  addr : Nat
  data : Nat
  deriving DecidableEq, Repr

/-- An event for the Attic (R361, R362): code, severity, unit, partition if any, and time. -/
structure AtticEvent where
  code : Nat
  sev : Nat
  unit : Nat
  part : Option Nat
  time : Nat
  deriving DecidableEq, Repr

/-- An Attic record; bad means its CHECK fails (R361, R367). -/
structure AtticRec where
  ev : AtticEvent
  supp : Nat
  optime : Nat
  pwrcyc : Nat
  seq : Nat
  bad : Bool
  deriving DecidableEq, Repr

/-- Rate-limit state of one event code (R363): start of its interval, records made in it, and events suppressed. -/
structure RateState where
  start : Option Nat
  made : Nat
  supp : Nat
  deriving DecidableEq, Repr

/-- The Attic's flash region and RAM ring, its event queue and its rate limits (R361 to R366). -/
structure AtticState where
  flash : Store Nat (Option AtticRec)
  ram : List AtticRec
  queue : List AtticEvent
  seq : Nat
  /-- records put into the RAM ring beside record 0, and access ports whose cursor fetch runs -/
  ramN : Nat
  fetching : List Nat
  rates : Store Nat RateState
  fails : Nat
  freezeAt : Nat
  deriving DecidableEq, Repr

/-- The host trace ring's indexes, phase and timer (R358). -/
structure TraceRing where
  ci : Nat
  phase : Bool
  lastWrite : Option Nat
  deriving DecidableEq, Repr

/-! ## Changes that span dies (R290, R291) -/

/-- What a change does when it completes beside its register writes. -/
inductive ChangeKind where
  /-- membership or binding of a partition; whether the binding ends and whether a new one begins (R185, R351) -/
  | bind (part : Nat) (ends starts : Bool)
  /-- ENDJOB: a FINAL statement and the end of the binding (R307) -/
  | endJob (part : Nat)
  /-- partition policy (R203) -/
  | policy (part : Nat)
  /-- floor share and stewardship shares (R201) -/
  | floorShare
  deriving DecidableEq, Repr

/-- A two-phase change: its generation, register writes and the values to restore, the dies concerned, those that have
acknowledged and those that have taken the commit, its start P, and the command to complete. -/
structure Change where
  gen : Nat
  kind : ChangeKind
  writes : List (FieldRef × Nat)
  before : List (FieldRef × Nat)
  dies : List Nat
  acked : List Nat
  committed : List Nat
  start : Nat
  cmd : Option (Nat × Nat)
  /-- the result of its command where that is not the die bitmap -/
  result : Option Nat
  deriving DecidableEq, Repr

/-! ## The fast loop's own state (R32 to R43) -/

/-- A grant entered in the buckets of R39: the limit granted, which of bands A and B it filled by one period, and which it made full. -/
structure GrantFill where
  lim : Nat
  a : Bool
  b : Bool
  fullA : Bool
  fullB : Bool
  deriving DecidableEq, Repr

/-- A period that the Hall has charged, kept for reports that come late (R20, R39, R47): the boundary that ended it, its period limit, the
limit it counts as granted, its measured energy, whether it has been counted an over-limit, and the bands it has filled by that energy. -/
structure PastPeriod where
  period : Nat
  lim : Option Nat
  glim : Nat
  energy : Nat
  counted : Bool
  fillA : Bool
  fillB : Bool
  deriving DecidableEq, Repr

/-- The active Hall's limit state. Headrooms are in 1/4 000 of 2^-16 µJ, so that the leaving-bin share is exact. -/
structure LimState where
  /-- the limits of the period in force and of the one before, with what the buckets took each as granted -/
  lim1 : Option Nat
  lim2 : Option Nat
  glim1 : GrantFill
  glim2 : GrantFill
  /-- the floor state has been forced in the period that runs, and in the one that ended last (R39) -/
  floorRun : Bool
  floorEnded : Bool
  aFull : Bool
  bFull : Bool
  aDrain : Nat
  bDrain : Nat
  head30 : Int
  head1 : Int
  since30 : Int
  since1 : Int
  leave30 : Nat
  leave1 : Nat
  s : Nat
  w1 : Nat
  /-- elec_ceiling and therm_lim at the last sampling, and at entry to HELD (R34) -/
  elec : Nat
  therm : Nat
  heldElec : Option Nat
  heldTherm : Option Nat
  /-- the band of elec_ceiling at the last sampling, and at entry to HELD (R34, R51) -/
  band : Nat
  heldBand : Nat
  /-- the periods charged, newest first -/
  past : List PastPeriod
  /-- the envelope and the caps as the last sampling instant took them, which reads show (R52) -/
  sampled : List (FieldRef × Nat)
  /-- THROTTLE_N low at the last filtered edge (R382) -/
  throttle : Bool
  deriving DecidableEq, Repr

/-! ## The I3C target port (R375 to R377) -/

/-- The I3C port: its dynamic address, whether ENEC has enabled interrupts, the interrupt bytes raised, the last one raised and when,
the address of the last address write, the words of the last read, and the second of the last protocol-error fault. -/
structure I3cState where
  da : Option Nat
  ibiEn : Bool
  ibiOut : List Nat
  ibiLast : Option Nat
  ptr : Option Nat
  reply : List Nat
  errSecond : Option Nat
  ibiAt : Nat
  deriving DecidableEq, Repr

/-! ## The control complexes (R324 to R331) -/

/-- A Hall's control complex: running or stopped, the image slot it runs, whether its boot ROM has run since the always-on supply came up
and failed its self-test or found no image, and the version it runs. -/
structure HallState where
  up : Bool
  slot : Nat
  tried : Bool
  failed : Bool
  version : Nat
  deriving DecidableEq, Repr

/-! ## Rails (R80 to R107) -/

/-- Sums for the averages of R106: voltage in 0.5 mV, current in 1/16 A, power in 1/8 W, temperature in 1/16 °C, and how many slots. -/
structure RailSums where
  v : Rat
  i : Rat
  p : Rat
  t : Rat
  n : Nat
  deriving DecidableEq, Repr

/-- What the owning die agent keeps of a rail beside its registers. Voltages are in 0.5 mV, currents in 1/16 A, times in root
periods unless a name says otherwise. -/
structure RailState where
  /-- the ramped target (R87), and the rail's own ramp where it follows a leader (R96) -/
  vref : Rat
  ramp : Rat
  /-- the averaged sense of the last slot -/
  vs : Nat
  /-- the slot that runs, counted from root count OFFS -/
  slot : Nat
  /-- errors and outputs of the last three slots, newest first, and the carry (R87) -/
  e : List Rat
  u : List Rat
  carry : Rat
  /-- feed-forward of the next pulse (R122, R123) -/
  ff : Rat
  /-- the last pulse: phase and on-time, none where the slot carried none -/
  pulse : Option (Nat × Nat)
  /-- slots in which the sense has been within 2 mV of the target (R90) -/
  near : Nat
  /-- IMON zero offsets by wired phase (R93) -/
  offs : List Rat
  /-- step of the check: 0 input, 1 decay, 2 window, 3 waiting for its leader (R93, R96) -/
  chk : Nat
  /-- fabric times of the last change of state and of the last entry into REG, if there has been one -/
  since : Nat
  regAt : Option Nat
  /-- a pulse of this switching cycle was cut, consecutive cycles so cut, and the Lintel limit on the sum exceeded (R100, R101) -/
  cut : Bool
  cutRun : Nat
  sumOver : Bool
  /-- consecutive slots above and at or below VMAX + 20 mV, the excursion, and the cut in force (R91) -/
  above : Nat
  under : Nat
  excursion : Bool
  tri : Bool
  /-- consecutive slots below the shed threshold (R98) -/
  low : Nat
  /-- slot length and phase count that wait for the next start (R83), the shadow coefficients B0 to B3 and A1 to A3, and a set of them that
  the next slot boundary puts in use (R88) -/
  heldS : Option Nat
  heldN : Option Nat
  shadow : List Nat
  newComp : Option (List Nat)
  /-- a target that waits for FLOOR to end (R89) -/
  heldV : Option Nat
  mean : Rat
  ms : RailSums
  sec : RailSums
  /-- out of regulation, or with a phase added, shed, retired or masked, since the last Hearth boundary (R56) -/
  disturbed : Bool
  deriving DecidableEq, Repr

/-! ## Clock sources (R129 to R134) -/

/-- What the clock unit keeps beside its registers: for each crystal the start of its present attempt and whether that is a retry;
gates done against the present trim source; whether a crystal has ever been selected. -/
structure ClockState where
  start0 : Nat
  start1 : Nat
  retry0 : Bool
  retry1 : Bool
  gates : Nat
  picked : Bool
  /-- when each crystal's stability count began (R129) -/
  count0 : Nat
  count1 : Nat
  /-- the trim source in use, 0 and 1 the crystals, 2 the beacons, and whether beacons came with the last gate (R131) -/
  trimBy : Option Nat
  beacons : Bool
  /-- the pattern index of each domain, and of branch k as unit 80 + k, 0 to 15, so far as commands tell the cycles run (R138; assumption log 97) -/
  pattern : Store Nat Nat
  /-- ramp steps that each branch has made towards its next release of one root period of an excess governed depth (R50) -/
  release : Store Nat Nat
  /-- when each die's PLL entered holdover -/
  holdAt : Store Nat Nat
  deriving DecidableEq, Repr

/-! ## The Hearth (R221 to R232) -/

/-- What the Hearth keeps of a die. Temperatures are in 1/16 °C, energies in 2^-16 µJ. -/
structure HearthDie where
  /-- the network's eight nodes; none before the first run (R222) -/
  temps : List Rat
  /-- latched at H_m: energies of nodes 0 to 5, the highest unsuspect mean of each junction node, and the highest mean of all -/
  power : List Nat
  nodeMax : List (Option Rat)
  tMax : Option Rat
  /-- how far each of the die's domains has been lowered, in 1/16 of a divisor (R224) -/
  lowered : List Nat
  /-- the term at entry to HELD (R34, R228) -/
  heldTerm : Nat
  deriving DecidableEq, Repr

/-- The Hearth: closed window bins, newest first and at most 30 000, their sums, the bin that is open and the one that closed at the
last H_m and is not yet fixed; what the second's latches gather; the runs; the junction trips; and the coolant inlet. -/
structure HearthState where
  bins : List Nat
  e1 : Nat
  e30 : Nat
  openBin : Nat
  closing : Option Nat
  /-- highest bin of this second, and milliseconds of it attributed COOL; whether this millisecond is -/
  secPeak : Nat
  secCool : Nat
  coolMs : Bool
  /-- the last H_m, in milliseconds -/
  ms : Nat
  /-- s and the W1 limit in force at the last H_m (R230) -/
  sAt : Nat
  w1At : Nat
  /-- when the active Hall's firmware first ran after the cold start, and when the active role last changed (R227, R228) -/
  fwSince : Option Nat
  roleAt : Option Nat
  /-- a run is due for the last H_m; and the active Hall has held its role long enough to make it (R227, R228) -/
  due : Bool
  able : Bool
  /-- the inlet temperature that the run took when it started, none while it is the one in force; and when VAL was last written (R225, R226) -/
  inletRun : Option Int
  inletAt : Option Nat
  /-- the milliseconds at which the windows were last latched (R232) -/
  lat1 : Nat
  lat30 : Nat
  /-- dies in a Lintel junction trip, and when one of their sensors last read at or above the release level (R219) -/
  tripped : List Nat
  hotAt : Nat
  dies : Store Nat HearthDie
  /-- the thermal networks in force: data record 1 of the policy blob, empty for the fused ones (R332, R333) -/
  network : List Nat
  deriving DecidableEq, Repr

/-! ## The Chain (R235 to R262) -/

/-- A frame of this node's own (R240, R244): its 32 bytes, whether bit 0 of its check is inverted (R241), and whether it has been sent
before and cut. -/
structure OwnFrame where
  bytes : List Nat
  inv : Bool
  resend : Bool
  deriving DecidableEq, Repr

/-- A frame put on CHAIN_TX: its bytes, its check, and whether /A/ ended it (R240, R241). -/
structure ChainTx where
  bytes : List Nat
  check : Nat
  aborted : Bool
  deriving DecidableEq, Repr

/-- An OFFER of this node that is outstanding (R253). -/
structure OfferOut where
  part : Nat
  taker : Nat
  amount : Nat
  epoch : Nat
  alive : Nat
  sentAt : Nat
  deriving DecidableEq, Repr

/-- The last BEACON record received for a position and partition (R252). -/
structure BeaconRec where
  pos : Nat
  part : Nat
  tag : Nat
  slack : Nat
  takeOk : Bool
  asksBack : Bool
  time : Nat
  deriving DecidableEq, Repr

/-- A VERSION report that the originator has recorded (R261). -/
structure VersionRec where
  node : Nat
  vmin : Nat
  vmax : Nat
  time : Nat
  deriving DecidableEq, Repr

/-- What the node keeps of the Chain beside its registers. -/
structure ChainState where
  /-- listening through the tap since when, and whether a LEDGER has been heard (R258) -/
  listening : Bool
  listenAt : Nat
  heard : Bool
  /-- it has asserted CHAIN_BYP_HOLD since it was last aligned; when it last lost alignment; the next LEDGER takes holding from home -/
  joined : Bool
  /-- the active Hall has stopped with no standby to take over, so its transmitter sends no longer (R236) -/
  silent : Bool
  lostAt : Nat
  joinHome : Bool
  /-- ALIVE of the last frame originated, how many have been, and the last ALIVE acted on from each origin (R242) -/
  alive : Nat
  originated : Nat
  seen : Store Nat Nat
  /-- own frames that wait, the one sent last while it may still be cut, and what has gone out -/
  outq : List OwnFrame
  sending : Option OwnFrame
  tx : List ChainTx
  /-- the home that the LEDGER counts, once HOME has been written (R246) -/
  home : Option Nat
  /-- the holding at entry to HELD (R247) -/
  heldHold : Option Nat
  /-- when a LEDGER was last seen, and the highest epoch seen -/
  lastLedger : Option Nat
  maxEpoch : Nat
  /-- claiming, when the last CLAIM was sent, and a back-off that runs with its start (R256) -/
  claiming : Bool
  claimAt : Nat
  backoff : Option Nat
  /-- at the originator: the LEDGER that is out (its ALIVE), when the last was sent, the seam sum, the round, the flags of the next LEDGER
  and of the last, and the previous round's COUNT and HOME (R248 to R250) -/
  ledgerOut : Option Nat
  ledgerAt : Option Nat
  seam : Nat
  round : Nat
  nextFlags : Nat
  lastFlags : Nat
  prevM : Nat
  prevHome : Nat
  versions : List VersionRec
  /-- lending: OFFERs outstanding, when each partition last offered, when a recall was last answered, and records received -/
  offers : List OfferOut
  lastOffer : Store Nat Nat
  lastRecall : Option Nat
  recs : List BeaconRec
  /-- the partition that the next BEACON starts with, and when the last BEACON and VERSION were sent -/
  rotate : Nat
  beaconAt : Option Nat
  versionAt : Option Nat
  deriving DecidableEq, Repr

/-! ## Ageing and the flash (R264 to R275, R327 to R334) -/

/-- What the control complex keeps of a die's ageing. Times are operating seconds. -/
structure AgeDie where
  /-- the gate runs, and the fabric time at which the measurement started; a re-plan is to follow within the exclusion (R267, R269) -/
  measuring : Bool
  startAt : Nat
  planning : Bool
  /-- the last measurement, the last re-plan, the last one that a measurement led to, and since when one has been due -/
  measAt : Option Nat
  planAt : Option Nat
  sensedAt : Option Nat
  dueSince : Option Nat
  /-- blind steps taken since the last measured plan (R273) -/
  blind : Nat
  /-- the required rise in voltage units (R265) -/
  dv : Rat
  deriving DecidableEq, Repr

/-- Operating time in nanoseconds, the ageing of each die, and each monitor's last reading in 0.001 %, exact. -/
structure AgeState where
  opNs : Nat
  dies : Store Nat AgeDie
  delta : Store Nat Rat
  deriving DecidableEq, Repr

/-- The flash (R327) but for the Attic: the operating time and power-cycle count saved, and the words of the regions: 0 and 1 the boot
selector's copies, 2 the policy blob, 3 and 4 the image slots. A region not listed holds what it was programmed with outside. -/
structure FlashState where
  optime : Nat
  pwrcyc : Nat
  regions : Store Nat (List Word)
  deriving DecidableEq, Repr

/-- A live update in progress (R338 to R342): the image words being copied, the slot they go to, the Hall that was active when it began, B_s,
and what the new active firmware has done of its takeover. -/
structure UpdState where
  words : List Word
  slot : Nat
  oldHall : Nat
  accepted : Bool
  swapAt : Nat
  quiet : Bool
  deriving DecidableEq, Repr

/-- Start-up and shutdown (R371 to R385): the entry into CALIBRATING and its step in hand, 0 before it and 6 when all have ended; TM_HEARTBEAT
edge intervals in a row, the last edge, and its loss; the groups of rails started or stopped; the shutdown's start, and whether the node
drains; the last toggle of GOV_HEARTBEAT. -/
structure StartState where
  /-- a boot ROM has reached the boot selector since the supply came up (R331) -/
  booted : Bool
  /-- CHN.TOTAL has been written, and CHN.HOME after it (R374) -/
  totalSet : Bool
  grains : Bool
  calAt : Nat
  step : Nat
  waitOver : Bool
  edges : Nat
  lastEdge : Option Nat
  lost : Bool
  group : Nat
  shutAt : Nat
  draining : Bool
  stopping : Bool
  stopped : Nat
  hbAt : Nat
  fullAt : Option Nat
  deriving DecidableEq, Repr

/-- The state of the block: every register, buffer, counter, mode and pin the spec gives it, and the queue of the commands
that wait. -/
structure State where
  /-- the always-on supply is up: AON_PWRGD is high (R22) -/
  aon : Bool
  /-- fabric time in nanoseconds (R3) -/
  now : Nat
  /-- the index of the last fast-period boundary: it stood at 250 × period ns -/
  period : Nat
  /-- every register field but the lower-only ones -/
  regs : Store FieldRef Nat
  /-- the lower-only fields (R8) -/
  limits : Store FieldRef Nat
  /-- the fraction of each account below 1 µJ, in 2^-16 µJ (R61) -/
  frac : Store FieldRef Nat
  /-- the register values at the freeze boundary, while counters are frozen (R352) -/
  frozen : Option (Store FieldRef Nat)
  freezeT : Option Nat
  frozeAt : Nat
  thaw : Bool
  /-- sets whose latch fell due while counters are frozen, and partitions whose JOB set's did (R353) -/
  perDue : Bool
  winDue : Bool
  jobDue : List Nat
  ports : Store Nat PortState
  msix : Store Nat MsixState
  faultSeq : Nat
  pend : Store Nat PendInfo
  inject : Inject
  force : Forcing
  pins : Pins
  /-- the floor state is in force: entered with a forcing condition and not yet released (R37) -/
  floorOn : Bool
  /-- the service state that STEWARD hides (R293) -/
  svcUnder : Nat
  /-- phases retired, as rail and phase, kept by the Hall (R99, R288) -/
  phasesOut : List (Nat × Nat)
  dies : Store Nat DieState
  halls : Store Nat HallDie
  lard : LarderState
  parts : Store Nat PartState
  acct : AcctState
  rings : Store Nat RingState
  tel : Store Nat (Option TelBlock)
  /-- the sample interval in force, as a power of two of fast periods (R68) -/
  telDecim : Nat
  /-- the package's counts since the last fabric-time second, for GSTAT (R350) -/
  gopen : Counts
  mbBad : List Nat
  fwInt : List Nat
  dma : List HostWrite
  msixOut : List MsixSend
  attic : AtticState
  tring : TraceRing
  change : Option Change
  changes : List Change
  changeGen : Nat
  lim : LimState
  /-- consecutive beacons the standby has missed, and beacons on their way (R18) -/
  missed : Nat
  beacons : Nat
  /-- how many free values have been used (assumption log 1) -/
  free : Nat
  i3c : I3cState
  /-- the control complexes of Hall A and Hall B -/
  ctrl : Store Nat HallState
  rails : Store Nat RailState
  clock : ClockState
  hearth : HearthState
  chain : ChainState
  age : AgeState
  flash : FlashState
  upd : UpdState
  start : StartState
  /-- the commands that wait, first in first out -/
  pending : List Instr
  deriving DecidableEq, Repr

/-- Why the block stops. -/
inductive Fault where
  /-- A command other than POWER_ON comes while the always-on supply is absent: nothing in the block runs (R282, R371).
  Raised by State.run. Safe: the hardware does nothing there either. -/
  | noSupply
  deriving DecidableEq, Repr

/-- Why a command has no meaning. -/
inductive Refusal where
  /-- The command's meaning has not been written. Raised by an arm of exec alone. Safe. -/
  | notModelled (mnemonic : String)
  deriving DecidableEq, Repr

/-! ## Defaults of the tables -/

/-- A port after reset. -/
def PortState.init : PortState := { latch := [], held := [], rdata := 0, resp := .ok }

/-- The MSI-X structures of a port after reset: every vector masked, as PCIe has it (assumption log 9). -/
def MsixState.init : MsixState := { table := [], pba := 0 }

/-- A word of an MSI-X table after reset: word 3 of each entry is its Vector Control, whose mask bit is set. -/
def msixWordInit (w : Nat) : Nat := if w % 4 = 3 then 1 else 0

/-- Nothing requested and nothing served. -/
def AdmState.init : AdmState :=
  { reqs := [], ptr := 0, debt := 0, chargeNow := 0, chargeLast := 0, limiters := [], slots := [], excess := 0, unaMs := 0,
    next := [], arbDone := false, notices := [] }

/-- No episode and no trip. -/
def DroopState.init : DroopState := { episodes := [], trips := [], lone := [], testDue := [], clamped := [], hit := [] }

/-- A die agent just come up with generation g (R16). -/
def DieState.fresh (g : Nat) : DieState :=
  { powered := true, inReset := false, gen := g, epoch := 0, steward := false, held := 0, onShare := false, next := none,
    applied := none, recorded := none, cum := 0, idleCum := 0, perEnergy := 0, perStatic := 0, coreDyn := [0, 0, 0, 0], perC15 := 0,
    perV := 0, shareOver := 0, rawOwn := 0,
    rawMem := 0, msNodes := [0, 0, 0, 0, 0, 0], sensors := [], msEnergy := 0, telSum := 0, telDue := [], convRun := 0, rejRun := 0,
    tMean := 400, laneA := [], laneB := [], faultHold := [],
    staged := none, acks := [], trimRun := [0, 0, 0, 0], trace := [], traceLost := 0, traceTokens := 1776, updBuf := [], pantry := [],
    overflow := [], done := [], asked := [], replies := [], admHit := [], adm := AdmState.init,
    droop := DroopState.init, windows := [] }

/-- A die agent at cold start: a compute die is in reset until its rails are in REG (R372). -/
def DieState.init (d : Nat) : DieState := { DieState.fresh 0 with inReset := decide (d < 32) }

/-- The Hall's record of a die at cold start: not yet admitted. -/
def HallDie.init (_ : Nat) : HallDie :=
  { admitted := false, gen := 0, rep := none, fresh := false, late := none, lastCum := 0, lastIdle := 0, lastRepPeriod := 0, readEdie := false,
    silent := 0, excl := [], lastGrant := none, heldG := 0xFFFF, heldSb := 64, lane := [], laneOutA := false,
    laneOutB := false, pairA := false, pairB := false, ckpt := [], ckptGain := [], ckptCum := 0, ckptPeriod := 0, ckptIdle := 0, cutAt := none,
    copy := [], collHist := [] }

/-- A partition no job tag has been bound to. -/
def PartState.init (_ : Nat) : PartState :=
  { tStart := 0, nextPeriodic := 0, flags := 0, counts := [], open_ := [], peak := 0, jobHeld := true, bindAt := none, history := [],
    jobFrom := 0, power := [] }

/-- A ring set just enabled: every index 0 and every pass phase 1 (R305). -/
def RingState.init (_ : Nat) : RingState :=
  { cmdpi := 0, cplci := 0, telci := 0, stmci := 0, telpi := 0, stmpi := 0, cmdPhase := true, cplPhase := true,
    telPhase := true, stmPhase := true, running := [], lost := false, stmSeq := 0, due := [], stmts := [],
    lastCpl := none, lastTel := none, cplWaits := false, telWaits := false }

/-- No fault pending in a slot. -/
def PendInfo.init (_ : Nat) : PendInfo := { deadline := 0, unit := 0, detail := 0 }

/-- A code with no record made (R363). -/
def RateState.init (_ : Nat) : RateState := { start := none, made := 0, supp := 0 }

/-- The Larder with no entries. -/
def LarderState.init : LarderState :=
  { larder := [], mirror := [], cellar := [], lookups := [], cellarReads := [], updates := [], replay := [], stream := [],
    badWords := [], invals := [], recIn := 0, recDone := 0, withdrawn := [], withdrawnC := [] }

/-- The Attic with an erased region. -/
def AtticState.init : AtticState :=
  { flash := [], ram := [], queue := [], seq := 0, ramN := 0, fetching := [], rates := [], fails := 0, freezeAt := 0 }

/-- Nothing granted. -/
def GrantFill.init : GrantFill := { lim := 0, a := false, b := false, fullA := false, fullB := false }

/-- No limit formed yet, empty buckets, no headroom. -/
def LimState.init : LimState :=
  { lim1 := none, lim2 := none, glim1 := GrantFill.init, glim2 := GrantFill.init, floorRun := false, floorEnded := false,
    aFull := false, bFull := false, aDrain := 0, bDrain := 0,
    head30 := 0, head1 := 0, since30 := 0, since1 := 0, leave30 := 0, leave1 := 0, s := 0, w1 := 0, elec := 0xFFFF,
    therm := 0xFFFF, heldElec := none, heldTherm := none, band := 0, heldBand := 0, past := [], sampled := [],
    throttle := false }

/-- The I3C port at power-on: no dynamic address, interrupts not enabled. -/
def I3cState.init : I3cState :=
  { da := none, ibiEn := false, ibiOut := [], ibiLast := none, ptr := none, reply := [], errSecond := none, ibiAt := 0 }

/-- A control complex whose boot ROM is running. -/
def HallState.init (_ : Nat) : HallState := { up := false, slot := 0, tried := false, failed := false, version := 0 }

/-- No slots summed. -/
def RailSums.init : RailSums := { v := 0, i := 0, p := 0, t := 0, n := 0 }

/-- The coefficients of a compensator, B0 to B3 and A1 to A3 (R88). -/
def compFields : List Field := [.rgcCompB0, .rgcCompB1, .rgcCompB2, .rgcCompB3, .rgcCompA1, .rgcCompA2, .rgcCompA3]

/-- A rail that has not started; its shadow set holds what the set in use holds (R88). -/
def RailState.init (r : Nat) : RailState :=
  { vref := 0, ramp := 0, vs := 0, slot := 0, e := [0, 0, 0], u := [0, 0, 0], carry := 0, ff := 0, pulse := none, near := 0,
    offs := [0, 0, 0, 0], chk := 0, since := 0, regAt := none, cut := false, cutRun := 0, sumOver := false, above := 0,
    under := 0, excursion := false, tri := false, low := 0, heldS := none, heldN := none,
    shadow := compFields.map fun f => FieldRef.reset ⟨f, r, 0⟩, newComp := none, heldV := none, mean := 0, ms := RailSums.init, sec := RailSums.init,
    disturbed := false }

/-- Clock sources at power-on. -/
def ClockState.init : ClockState :=
  { start0 := 0, start1 := 0, retry0 := false, retry1 := false, gates := 0, picked := false, count0 := 0, count1 := 0, trimBy := none,
    beacons := false, pattern := [], release := [], holdAt := [] }

/-- A die whose network has not run. -/
def HearthDie.init (_ : Nat) : HearthDie :=
  { temps := [], power := [0, 0, 0, 0, 0, 0], nodeMax := [none, none, none, none], tMax := none, lowered := [], heldTerm := 0xFFFF }

/-- No bins, no run, and an inlet not yet written. -/
def HearthState.init : HearthState :=
  { bins := [], e1 := 0, e30 := 0, openBin := 0, closing := none, secPeak := 0, secCool := 0, coolMs := false, ms := 0, sAt := 0,
    w1At := 0, fwSince := none, roleAt := none, due := false, able := true, inletRun := none, inletAt := none, lat1 := 0, lat30 := 0,
    tripped := [], hotAt := 0, dies := [], network := [] }

/-- A node that has not been aligned. -/
def ChainState.init : ChainState :=
  { listening := false, listenAt := 0, heard := false, joined := false, silent := false, lostAt := 0, joinHome := false, alive := 0, originated := 0,
    seen := [], outq := [], sending := none, tx := [], home := none, heldHold := none, lastLedger := none, maxEpoch := 0,
    claiming := false, claimAt := 0, backoff := none, ledgerOut := none, ledgerAt := none, seam := 0, round := 0, nextFlags := 0,
    lastFlags := 0, prevM := 1, prevHome := 0, versions := [], offers := [], lastOffer := [], lastRecall := none, recs := [],
    rotate := 0, beaconAt := none, versionAt := none }


/-- A die never measured. -/
def AgeDie.init (_ : Nat) : AgeDie :=
  { measuring := false, startAt := 0, planning := false, measAt := none, planAt := none, sensedAt := none, dueSince := none, blind := 0,
    dv := 0 }

/-- No operating time. -/
def AgeState.init : AgeState := { opNs := 0, dies := [], delta := [] }

/-- A flash as it was programmed outside. -/
def FlashState.init : FlashState := { optime := 0, pwrcyc := 0, regions := [] }

/-- No update. -/
def UpdState.init : UpdState := { words := [], slot := 0, oldHall := 0, accepted := false, swapAt := 0, quiet := false }

/-- Nothing started. -/
def StartState.init : StartState :=
  { booted := false, totalSet := false, grains := false, calAt := 0, step := 0, waitOver := false, edges := 0, lastEdge := none,
    lost := false, group := 0, shutAt := 0, draining := false, stopping := false, stopped := 0, hbAt := 0, fullAt := none }

/-- The machine right after its always-on supply has come up (R371): the service state is COLD, every register holds its
reset value, no memory or buffer holds anything, and no command waits. -/
def State.reset : State :=
  { aon := true, now := 0, period := 0, regs := [], limits := [], frac := [], frozen := none, freezeT := none,
    frozeAt := 0, thaw := false, perDue := false, winDue := false, jobDue := [], ports := [], msix := [], faultSeq := 0, pend := [],
    inject := { lard := 0, cell := 0, lanes := [], mboxes := [], chain := false },
    force := { alert := false, junction := false, fatal := false, thermtrip := false, held8 := false,
               shutdown := false },
    pins := { powerAlertN := true, throttleN := true, thermtripN := true, govErrP := false, govErrN := true,
              govHeartbeat := false, bypHold := false },
    floorOn := false, svcUnder := 0, phasesOut := [],
    dies := [], halls := [], lard := LarderState.init, parts := [], acct := { shared := [], links := [] }, rings := [], tel := [],
    telDecim := 12, gopen := [], mbBad := [], fwInt := [],
    dma := [], msixOut := [], attic := AtticState.init, tring := { ci := 0, phase := true, lastWrite := none },
    change := none, changes := [], changeGen := 0, lim := LimState.init, missed := 0, beacons := 0, free := 0,
    i3c := I3cState.init,
    ctrl := [],
    rails := [],
    clock := ClockState.init,
    hearth := HearthState.init,
    chain := ChainState.init,
    age := AgeState.init,
    flash := FlashState.init,
    upd := UpdState.init,
    start := StartState.init,
    pending := [] }

end Sys2Proof.Machine
end

