-- ==== Sys2Proof/Machine/Ops.lean ====
section
/-!
DEFINITION. Sys2Proof/Machine/Ops.lean: the named operations that every command's meaning is built from: reading and writing
register elements, counters, free values, time, and the guard under which a command runs.
-/
namespace Sys2Proof.Machine

/-! ## Register elements -/

/-- What a register element holds: 0 where it does not exist (R5). -/
def State.reg (s : State) (r : FieldRef) : Nat :=
  if r.exists then
    (if r.f.isLimit then Store.get FieldRef.reset s.limits r else Store.get FieldRef.reset s.regs r)
  else 0

/-- The state with a register element holding v, cut to the field's width; nothing changes where the element does not exist
(R5). -/
def State.put (s : State) (r : FieldRef) (v : Nat) : State :=
  if r.exists then
    (if r.f.isLimit then { s with limits := Store.set s.limits r (v % 2 ^ (fieldDef r.f).width) }
     else { s with regs := Store.set s.regs r (v % 2 ^ (fieldDef r.f).width) })
  else s

/-- What element j of field f of instance i holds. -/
def State.rd (s : State) (f : Field) (i : Nat := 0) (j : Nat := 0) : Nat := s.reg ⟨f, i, j⟩

/-- The state with element j of field f of instance i holding v. -/
def State.wr (s : State) (f : Field) (v : Nat) (i : Nat := 0) (j : Nat := 0) : State := s.put ⟨f, i, j⟩ v

/-- A one-bit field read as a truth value. -/
def State.flag (s : State) (f : Field) (i : Nat := 0) (j : Nat := 0) : Bool := decide (s.rd f i j = 1)

/-- The number of a truth value. -/
def bit (b : Bool) : Nat := if b then 1 else 0

/-- A counter raised by n, saturating at the field's greatest value. -/
def State.count (s : State) (f : Field) (n : Nat := 1) (i : Nat := 0) (j : Nat := 0) : State :=
  s.wr f (min (s.rd f i j + n) (2 ^ (fieldDef f).width - 1)) i j

/-- A list of register writes made in order. -/
def State.puts (s : State) : List (FieldRef × Nat) → State
  | [] => s
  | (r, v) :: l => (s.put r v).puts l

/-- The value of a register element restored to its reset value. -/
def State.resetReg (s : State) (r : FieldRef) : State := s.put r r.reset

/-! ## Structures kept per unit -/

def State.die (s : State) (d : Nat) : DieState := Store.get DieState.init s.dies d

def State.updDie (s : State) (d : Nat) (f : DieState → DieState) : State :=
  { s with dies := Store.upd DieState.init s.dies d f }

def State.hd (s : State) (d : Nat) : HallDie := Store.get HallDie.init s.halls d

def State.updHd (s : State) (d : Nat) (f : HallDie → HallDie) : State :=
  { s with halls := Store.upd HallDie.init s.halls d f }

def State.part (s : State) (p : Nat) : PartState := Store.get PartState.init s.parts p

def State.updPart (s : State) (p : Nat) (f : PartState → PartState) : State :=
  { s with parts := Store.upd PartState.init s.parts p f }

def State.ring (s : State) (n : Nat) : RingState := Store.get RingState.init s.rings n

def State.updRing (s : State) (n : Nat) (f : RingState → RingState) : State :=
  { s with rings := Store.upd RingState.init s.rings n f }

/-- A die is excluded from allocation (R188). -/
def HallDie.excluded (x : HallDie) : Bool := !x.excl.isEmpty

def State.rail (s : State) (r : Nat) : RailState := Store.get RailState.init s.rails r

def State.updRail (s : State) (r : Nat) (f : RailState → RailState) : State :=
  { s with rails := Store.upd RailState.init s.rails r f }

/-- The rail that feeds a die's logic: VCMP, VFAB, VHUB or VHOST (R80). -/
def ownRail (d : Nat) : Nat := if d < 32 then d else d + 16

/-- The ramped target of a rail in whole voltage units (R87). -/
def State.vref (s : State) (r : Nat) : Nat := (s.rail r).vref.floor.toNat

/-- A port before its first access. -/
def portInit (_ : Nat) : PortState := PortState.init

def State.port (s : State) (p : Port) : PortState := Store.get portInit s.ports p.num

def State.updPort (s : State) (p : Port) (f : PortState → PortState) : State :=
  { s with ports := Store.upd portInit s.ports p.num f }

/-- A port's held lower half in the block at an address: the address of the half and its value (R6; assumption log 76). -/
def State.heldHalf (s : State) (p : Port) (base : Nat) : Option (Nat × Nat) := Store.get (fun _ => none) (s.port p).held base

/-- A port's held lower half replaced, or dropped. -/
def State.setHeld (s : State) (p : Port) (base : Nat) (x : Option (Nat × Nat)) : State :=
  s.updPort p fun y =>
    { y with held := match x with | some z => Store.insert natLt base (some z) y.held | none => Store.drop base y.held }

/-- A write to another register of the block drops the port's held lower half (R6). -/
def State.dropHeld (s : State) (p : Port) (base a : Nat) : State :=
  match s.heldHalf p base with
  | some x => if a = x.1 || a = x.1 + 4 then s else s.setHeld p base none
  | none => s

/-- An access of a port that has not ended in an error. -/
def State.answered (s : State) (p : Port) : State := s.updPort p fun x => { x with resp := .ok }

/-- A write by a port to the register at an offset of the block at an address, of a row that has a command of its own: it is answered, and
drops the half that the port holds of another register of the block (R6). -/
def State.wrote (s : State) (p : Port) (base off : Nat) : State := (s.answered p).dropHeld p base (base + off)

/-- MSI-X structures before their first write. -/
def msixInit (_ : Nat) : MsixState := MsixState.init

def State.msixOf (s : State) (p : Port) : MsixState := Store.get msixInit s.msix p.num

def State.updMsix (s : State) (p : Port) (f : MsixState → MsixState) : State :=
  { s with msix := Store.upd msixInit s.msix p.num f }

def State.hall (s : State) (h : Nat) : HallState := Store.get HallState.init s.ctrl h

def State.updHall (s : State) (h : Nat) (f : HallState → HallState) : State :=
  { s with ctrl := Store.upd HallState.init s.ctrl h f }

/-- The active Hall's control complex is running. -/
def State.ccUp (s : State) : Bool := (s.hall (s.rd .govHallActive)).up

/-! ## Folding over units -/

/-- A change made once for each member of a list, in order. -/
def State.each {α : Type} (s : State) (l : List α) (f : State → α → State) : State := l.foldl f s

/-- The indexes 0 to n - 1. -/
def upto (n : Nat) : List Nat := List.range n

/-! ## Open values -/

/-- The next free value, cut to w bits. -/
def State.freeNat (s : State) (w : Nat) : Nat := (Config.freeValue s.free).toNat % 2 ^ w

/-- The state after a free value has been used. -/
def State.useFree (s : State) : State := { s with free := s.free + 1 }

/-- A quotient as a whole number: itself where it is whole, else the neighbour that Config.roundUp takes. -/
def roundFree (site : Nat) (q : Rat) : Int :=
  if q.den = 1 then q.num else q.floor + (if Config.roundUp site q then 1 else 0)

/-- roundFree where the result is known not to be negative. -/
def roundNat (site : Nat) (q : Rat) : Nat := (roundFree site q).toNat

/-- A signed value of w bits read from its two's complement (R2). -/
def toSigned (w n : Nat) : Int := if n < 2 ^ (w - 1) then n else (n : Int) - 2 ^ w

/-- The two's complement of a signed value in w bits. -/
def ofSigned (w : Nat) (z : Int) : Nat := (z % (2 ^ w : Nat)).toNat

/-- A value held between two bounds. -/
def clampNat (lo hi v : Nat) : Nat := max lo (min hi v)

/-! ## Service state (R12) -/

def svcCold : Nat := 0
def svcFloor : Nat := 1
def svcCalibrating : Nat := 2
def svcFull : Nat := 3
def svcHeld : Nat := 4
def svcSteward : Nat := 5
def svcFailsafe : Nat := 6

/-- The service state shown in GOV.STATE.CUR. -/
def State.svc (s : State) : Nat := s.rd .govStateCur

/-- The service state beneath STEWARD, which hides it while any die agent runs by itself (R293). -/
def State.baseSvc (s : State) : Nat := if s.svc = svcSteward then s.svcUnder else s.svc

/-- Whether some condition forces the floor state (R36, R37). -/
def State.floored (s : State) : Bool :=
  s.force.alert || s.force.junction || s.force.fatal || s.force.thermtrip || s.force.held8 || s.force.shutdown

/-- The conditions that force the floor state as GOV.STATE.FLOORF shows them (R386). -/
def Forcing.bits (f : Forcing) : Nat :=
  bit f.alert + 2 * bit f.junction + 4 * bit f.thermtrip + 8 * bit f.fatal + 16 * bit f.held8 + 32 * bit f.shutdown

/-- The Chain role (R236, R237): 0 OUT, 1 PASSIVE, 2 ACTIVE. -/
def State.chainRole (s : State) : Nat :=
  if !s.pins.bypHold then 0
  else if (s.svc = svcFull || s.svc = svcHeld) && s.flag .chnCfgEn && !s.flag .chnStatusVererr && !s.force.shutdown then 2
  else 1

/-- The active Hall: 0 for Hall A, 1 for Hall B (R17). -/
def State.active (s : State) : Nat := s.rd .govHallActive

/-! ## Time -/

/-- Operating time moved on by d ns outside COLD (R266). -/
def State.operate (s : State) (d : Nat) : State :=
  if s.svc = svcCold then s
  else { s.wr .ageOptimeSec ((s.age.opNs + d) / 1000000000) with age := { s.age with opNs := s.age.opNs + d } }

/-- Fabric time moved on to t where t lies ahead, with the availability counters of R296 and the operating time of R266. -/
def State.advanceTo (s : State) (t : Nat) : State :=
  if s.now < t then
    let d := t - s.now
    let s1 := (s.wr .fltAonns (s.rd .fltAonns + d)).operate d
    let s2 := if s.svc = svcFull then s1.wr .fltFullns (s1.rd .fltFullns + d) else s1
    { s2 with now := t }
  else s

/-- The first multiple of k at or after t. -/
def ceilTo (k t : Nat) : Nat := ((t + (k - 1)) / k) * k

/-- The last fast-period boundary. -/
def State.lastB (s : State) : Nat := 250 * s.period

/-! ## Partitions (R185) -/

/-- Whether bit k of n is set. -/
def testBit (n k : Nat) : Bool := decide ((n / 2 ^ k) % 2 = 1)

/-- Whether a partition is in force. -/
def State.inForce (s : State) (p : Nat) : Bool := s.flag .alcPartBindValid 0 p

/-- The partitions in force, lowest first. -/
def State.partsInForce (s : State) : List Nat := (upto 16).filter fun p => s.inForce p

/-- The partition in force that a compute die belongs to. -/
def State.partOf (s : State) (d : Nat) : Option Nat :=
  if d < 32 then (upto 16).find? fun p => s.inForce p && testBit (s.rd .alcPartDies 0 p) d else none

/-- The compute dies of a partition. -/
def State.diesOf (s : State) (p : Nat) : List Nat := (upto 32).filter fun d => testBit (s.rd .alcPartDies 0 p) d

/-! ## The guard under which a command runs -/

/-- The fraction that an account holds before it has drawn anything. -/
def fracInit (_ : FieldRef) : Nat := 0

/-- Before its first sample a die has no open telemetry block. -/
def telInit (_ : Nat) : Option TelBlock := none

/-- Tables in canonical form, the queue and the lower-only fields as they were. -/
def State.commit (old new : State) : State :=
  { new with
    pending := old.pending
    limits := old.limits
    now := max old.now new.now
    regs := Store.seal FieldRef.lt FieldRef.reset new.regs
    frac := Store.seal FieldRef.lt fracInit new.frac
    ports := Store.seal natLt portInit new.ports
    msix := Store.seal natLt msixInit new.msix
    pend := Store.seal natLt PendInfo.init new.pend
    tel := Store.seal natLt telInit new.tel
    ctrl := Store.seal natLt HallState.init new.ctrl
    dies := Store.seal natLt DieState.init new.dies
    halls := Store.seal natLt HallDie.init new.halls
    parts := Store.seal natLt PartState.init new.parts
    rings := Store.seal natLt RingState.init new.rings
    rails := Store.seal natLt RailState.init new.rails }

/-- A command that leaves the lower-only fields alone: it runs while the always-on supply is up. -/
def State.run (s : State) (f : State → State) : Host.Outcome State Fault Refusal :=
  if s.aon then .next (s.commit (f s)) else .fault .noSupply

/-- Whether value a of a lower-only field is not above value b: the two limits that are temperatures compare as signed (R2, R7). -/
def limitLe (f : Field) (a b : Nat) : Bool :=
  match f with
  | .hrtTargetT | .hrtLtripTrip => decide (toSigned 16 a ≤ toSigned 16 b)
  | _ => decide (a ≤ b)

/-- The lower-only fields after a command that may lower them: what it wrote lands only where it is not above the old value
(R7, R8). -/
def lowered (old new : Store FieldRef Nat) : Store FieldRef Nat :=
  Store.seal FieldRef.lt FieldRef.reset
    ((new.filter fun e => limitLe e.1.f e.2 (Store.get FieldRef.reset old e.1)) ++ old)

/-- A command that may lower lower-only fields, as register writes do. -/
def State.runLower (s : State) (f : State → State) : Host.Outcome State Fault Refusal :=
  if s.aon then .next { s.commit (f s) with limits := lowered s.limits (f s).limits } else .fault .noSupply

end Sys2Proof.Machine
end

