-- ==== Sys2Proof/Machine/Operands.lean ====
section
/-!
DEFINITION. Sys2Proof/Machine/Operands.lean: how operands and records are laid out: CRC-32C (R70, R335), bytes and words, and the
power word (R26, R27).
-/
namespace Sys2Proof.Machine

/-! ## CRC-32C -/

/-- One bit of the reflected Castagnoli division: the polynomial 0x1EDC6F41 reflected is 0x82F63B78. -/
def crcBit (c : Nat) : Nat := if c % 2 = 1 then (c / 2) ^^^ 0x82F63B78 else c / 2

/-- One byte fed into a running value. -/
def crcByte (c b : Nat) : Nat :=
  let x := c ^^^ (b % 256)
  crcBit (crcBit (crcBit (crcBit (crcBit (crcBit (crcBit (crcBit x)))))))

/-- Bytes fed in order. -/
def crcBytes (c : Nat) (l : List Nat) : Nat := l.foldl crcByte c

/-- CRC-32C of a list of bytes: initial value and final XOR 0xFFFFFFFF (R70). -/
def crc32c (l : List Nat) : Nat := crcBytes 0xFFFFFFFF l ^^^ 0xFFFFFFFF

/-- The four bytes of a word, least significant first. -/
def wordBytes (n : Nat) : List Nat := [n % 256, n / 256 % 256, n / 65536 % 256, n / 16777216 % 256]

/-- The word that four bytes make, least significant first. -/
def bytesWord : List Nat → Nat
  | [] => 0
  | b :: l => b + 256 * bytesWord l

/-- A list of bits, least significant first, as a number. -/
def bitsNat : List Bool → Nat
  | [] => 0
  | b :: l => bit b + 2 * bitsNat l

/-- The w low bits of a number, least significant first. -/
def natBits : Nat → Nat → List Bool
  | 0, _ => []
  | w + 1, n => decide (n % 2 = 1) :: natBits w (n / 2)

/-! ## The power word -/

/-- A power word read once as a descriptor enters its window: a reserved precision code is handled as 7, a trim permit of 3 as
0 (R26, R27). A calibration pattern names no queue (R373). -/
def readPowerWord (pw : Word64) (src : DescSource) (now : Nat) : WinDesc :=
  let n := pw.toNat
  let prec := n / 2 ^ 35 % 16
  let trim := n / 2 ^ 39 % 4
  { layer := n % 2 ^ 16, op := n / 2 ^ 16 % 2 ^ 16, step := n / 2 ^ 32 % 8, prec := if 8 ≤ prec then 7 else prec,
    trim := if trim = 3 then 0 else trim, queue := match src with | .queue q => q.val | .pattern => 0, pattern := decide (src = .pattern)
    tag := none, waiting := false, since := now, running := false, cycles := 0, energy := 0, defaulted := false, observed := none }

/-- Whether a power word holds a reserved code or non-zero reserved bits, which sets PWFMT (R27). -/
def badPowerWord (pw : Word64) : Bool :=
  let n := pw.toNat
  decide (8 ≤ n / 2 ^ 35 % 16) || decide (n / 2 ^ 39 % 4 = 3) || decide (n / 2 ^ 41 ≠ 0)

end Sys2Proof.Machine
end

