-- ==== Sys2Proof/Machine/Notify.lean ====
section
/-!
DEFINITION. Sys2Proof/Machine/Notify.lean: what the block says to its partners: MSI-X vectors (R315, R316), ring entries
(R302, R303, R311), notices (R312), mailboxes (R317, R318), trace records (R355, R356) and events for the Attic (R362).
-/
namespace Sys2Proof.Machine

/-! ## MSI-X -/

/-- A word of a port's MSI-X table. -/
def State.msixWord (s : State) (p : Port) (w : Nat) : Nat := Store.get msixWordInit (s.msixOf p).table w

/-- A vector sent on a port: its message goes out, or its pending bit is set while the vector is masked (R315). -/
def State.sendVector (s : State) (p : Port) (v : Nat) : State :=
  if s.msixWord p (4 * v + 3) % 2 = 1 then
    s.updMsix p fun m => if testBit m.pba v then m else { m with pba := m.pba + 2 ^ v }
  else
    { s with msixOut := s.msixOut ++
        [{ port := p, vector := v, addr := s.msixWord p (4 * v) + 2 ^ 32 * s.msixWord p (4 * v + 1),
           data := s.msixWord p (4 * v + 2) }] }

/-- The host port a port bit names. -/
def hostPort (b : Nat) : Port := if b = 0 then .hx0 else .hx1

/-- The port of ring set n (R300). -/
def State.ringPort (s : State) (n : Nat) : Port := hostPort (s.rd .hifRsCtrlPort 0 n)

/-- The port of MB1 and of vectors 32 and 33 (R323). -/
def State.mbPort (s : State) : Port := hostPort (s.rd .hifCfgMbport)

/-- A ring set's completion vector sent now (R316). -/
def State.sendCpl (s : State) (n : Nat) : State :=
  (s.sendVector (s.ringPort n) n).updRing n fun r => { r with lastCpl := some s.now, cplWaits := false }

/-- A ring set's telemetry and statement vector sent now. -/
def State.sendTel (s : State) (n : Nat) : State :=
  (s.sendVector (s.ringPort n) (n + 16)).updRing n fun r => { r with lastTel := some s.now, telWaits := false }

/-- Whether IMOD has passed since a vector was last sent (R316). -/
def State.imodOver (s : State) (n : Nat) (last : Option Nat) : Bool :=
  match last with
  | none => true
  | some t => decide (t + 1000 * s.rd .hifRsCtrlImod 0 n ≤ s.now)

/-- An entry written to a completion ring: its vector goes out at once when it is urgent or IMOD has passed, and otherwise
waits (R316). -/
def State.cplWritten (s : State) (n : Nat) (urgent : Bool) : State :=
  if urgent || s.imodOver n (s.ring n).lastCpl then s.sendCpl n else s.updRing n fun r => { r with cplWaits := true }

/-- As cplWritten, for a telemetry or statement entry. -/
def State.telWritten (s : State) (n : Nat) : State :=
  if s.imodOver n (s.ring n).lastTel then s.sendTel n else s.updRing n fun r => { r with telWaits := true }

/-! ## Ring entries -/

/-- A 32-bit word of a number. -/
def w32 (n : Nat) : Word := BitVec.ofNat 32 n

/-- The two words of a 64-bit number, the lower first (R4). -/
def w64 (n : Nat) : List Word := [w32 n, w32 (n / 2 ^ 32)]

/-- An entry at a byte address: bytes 4 onward in a first write, bytes 0 to 3 in a second, so that PHASE shows last (R302). -/
def State.writeEntry (s : State) (p : Port) (addr : Nat) (first : Nat) (rest : List Word) : State :=
  { s with dma := s.dma ++ [{ port := p, addr := addr + 4, words := rest }, { port := p, addr := addr, words := [w32 first] }] }

/-- The size of a ring whose log2 is k. -/
def ringSize (k : Nat) : Nat := 2 ^ k

/-- Free entries of a ring that Elkward produces (R303). -/
def ringFree (size pi ci : Nat) : Nat := (size + ci - pi - 1) % size

/-- Free entries of ring set n's completion ring. -/
def State.cplFree (s : State) (n : Nat) : Nat :=
  ringFree (ringSize (s.rd .hifRsSizesCpl 0 n)) (s.rd .hifRsCplpi 0 n) (s.ring n).cplci

/-- Whether ring set n is RUNNING (R305). -/
def State.ringRunning (s : State) (n : Nat) : Bool := decide (s.rd .hifRsStatState 0 n = 1)

/-- An entry put into ring set n's completion ring: word 0 without its PHASE bit, then the other three words (R311). -/
def State.putCpl (s : State) (n : Nat) (first : Nat) (rest : List Word) : State :=
  let pi := s.rd .hifRsCplpi 0 n
  let size := ringSize (s.rd .hifRsSizesCpl 0 n)
  let s1 := s.writeEntry (s.ringPort n) (s.rd .hifRsCplbase 0 n + 16 * pi) (first + bit (s.ring n).cplPhase) rest
  let s2 := s1.wr .hifRsCplpi ((pi + 1) % size) 0 n
  if pi + 1 = size then s2.updRing n fun r => { r with cplPhase := !r.cplPhase } else s2

/-- A notice for one ring set: discarded with NOTELOST when the completion ring is full, and the next one written then
carries LOST (R303, R311, R312). -/
def State.noticeTo (s : State) (ncode seq detail : Nat) (n : Nat) : State :=
  if s.ringRunning n then
    if s.cplFree n = 0 then (s.wr .hifRsStatNotelost 1 0 n).updRing n fun r => { r with lost := true }
    else
      let first := 2 + 16 * bit (s.ring n).lost + 2 ^ 8 * ncode + 2 ^ 16 * seq
      ((s.putCpl n first (w32 detail :: w64 s.now)).updRing n fun r => { r with lost := false }).cplWritten n
        (decide (ncode = 1 || ncode = 2 || ncode = 3))
  else s

/-- The privileged ring set, while there is one (R347). -/
def State.privRing (s : State) : Option Nat := if s.flag .obsPrivValid then some (s.rd .obsPrivRs) else none

/-- A notice for one partition: to its ring set and to the privileged one (R312). -/
def State.noticePart (s : State) (ncode seq detail p : Nat) : State :=
  let s1 := s.noticeTo ncode seq detail p
  match s.privRing with
  | some q => if q = p then s1 else s1.noticeTo ncode seq detail q
  | none => s1

/-! ## Telemetry blocks -/

/-- The ring set a die's blocks go to: its partition's, or for dies 32 to 39 the privileged one while SHARED is set (R68). -/
def State.telRing (s : State) (d : Nat) : Option Nat :=
  if d < 32 then s.partOf d else if s.flag .obsTelcfgShared then s.privRing else none

/-- Free entries of a telemetry ring (R303). -/
def State.telFree (s : State) (n : Nat) : Nat :=
  ringFree (ringSize (s.rd .hifRsSizesTel 0 n)) (s.ring n).telpi (s.ring n).telci

/-- The words of a closed block, with the phase of its entry (R67). -/
def blockWords (d : Nat) (b : TelBlock) (phase : Bool) : Nat × List Word :=
  (bit phase + 2 * d + 2 ^ 8 * b.nsamp + 2 ^ 15 * b.decim,
   w64 b.t0 ++ [w32 b.q0] ++ (upto 12).map fun k => w32 (bitsNat ((b.bits.drop (32 * k)).take 32)))

/-- A die's open block closed and written to a ring set's telemetry ring; a full ring discards it and counts it (R67, R303). -/
def State.closeBlock (s : State) (d : Nat) : State :=
  match Store.get (fun _ => none) s.tel d with
  | none => s
  | some b =>
    let s1 := { s with tel := Store.set s.tel d none }
    match s.telRing d with
    | none => s1
    | some n =>
      if !s1.ringRunning n then s1
      else if s1.telFree n = 0 then s1.count .hifRsTeldrop 1 0 n
      else
        let r := s1.ring n
        let size := ringSize (s1.rd .hifRsSizesTel 0 n)
        let e := blockWords d b r.telPhase
        let s2 := s1.writeEntry (s1.ringPort n) (s1.rd .hifRsTelbase 0 n + 64 * r.telpi) e.1 e.2
        (s2.updRing n fun x =>
          { x with telpi := (r.telpi + 1) % size, telPhase := if r.telpi + 1 = size then !r.telPhase else r.telPhase }).telWritten n

/-! ## In-band interrupts -/

/-- An in-band interrupt with its data byte, raised while ENEC has enabled interrupts (R377). -/
def State.raiseIbi (s : State) (byte : Nat) : State :=
  if s.i3c.ibiEn then { s with i3c := { s.i3c with ibiOut := s.i3c.ibiOut ++ [byte], ibiLast := some byte, ibiAt := s.now } } else s

/-! ## Mailboxes -/

/-- A message posted to a mailbox: FULL is set, COLLISION too where it was set already, and the receiver is told: MB1 by
vector 32, MB3 by an in-band interrupt, MB0 and MB2 by a firmware interrupt (R317, R318). -/
def State.mbPost (s : State) (m : Nat) : State :=
  let s1 := if s.flag .hifMbStatFull 0 m then s.wr .hifMbStatCollision 1 0 m else s
  let s2 := s1.wr .hifMbStatFull 1 0 m
  let s3 := if m = 0 && s.flag .hifMbStatFull 0 0 then s2.sendVector s2.mbPort 33 else s2
  if m = 1 then s3.sendVector s3.mbPort 32
  else if m = 3 then s3.raiseIbi 1
  else { s3 with fwInt := s3.fwInt ++ [m] }

/-- Whether the stored message of a mailbox carries bad parity after a write: an injection is armed for it (R287). -/
def State.mbParity (s : State) (m : Nat) : State :=
  if s.inject.mboxes.contains m then
    { s with mbBad := m :: s.mbBad.filter (· ≠ m), inject := { s.inject with mboxes := s.inject.mboxes.filter (· ≠ m) } }
  else { s with mbBad := s.mbBad.filter (· ≠ m) }

/-- A notice that Elkward posts through a mailbox: PTR is the fabric time, TAG the code and the detail (R317). -/
def State.mbNotice (s : State) (m ncode detail : Nat) : State :=
  (((s.wr .hifMbPtr s.now 0 m).wr .hifMbTag (ncode + 2 ^ 8 * (detail % 2 ^ 24)) 0 m).mbParity m).mbPost m

/-- A notice for the package: to every RUNNING ring set, and through MB3 for the codes R312 marks. -/
def State.noticeAll (s : State) (ncode detail : Nat) : State :=
  let s1 := s.each (upto 16) fun s n => s.noticeTo ncode 0 detail n
  if 3 ≤ ncode then s1.mbNotice 3 ncode detail else s1

/-! ## Attic events -/

/-- The partition that bits [5:0] of a unit identifier lie in. -/
def State.unitPart (s : State) (unit : Nat) : Option Nat := s.partOf (unit % 64)

/-- An event queued for the Attic; the fault collector's queue holds 64, and what comes beyond it is lost and counted
(R365). -/
def State.event (s : State) (code sev unit : Nat) (part : Option Nat) : State :=
  if s.attic.queue.length < 64 then
    { s with attic := { s.attic with queue := s.attic.queue ++ [{ code, sev, unit, part, time := s.now }] } }
  else s.count .atcHeldlost

/-- An INFO event of source 0 (R362). -/
def State.info (s : State) (detail : Nat) : State := s.event detail 0 0 none

/-! ## Traces -/

/-- A unit identifier (R283). -/
def unitOf (die inst : Nat) : Nat := die + 64 * inst

/-- A record put into a die agent's trace buffer, or counted as dropped while the buffer is full; the first record after
space returns is a LOST record with the count (R355). -/
def State.traceRecord (s : State) (d : Nat) (r : TraceRec) : State :=
  let ds := s.die d
  if !ds.powered then s
  else if 4096 ≤ ds.trace.length then
    (s.count .dagTrcdrop 1 d).updDie d fun x => { x with traceLost := x.traceLost + 1 }
  else
    let lost : TraceRec := { type := 8, core := 0, eng := 0, a := 0, b := ds.traceLost, time := s.now }
    let buf := if ds.traceLost = 0 then ds.trace ++ [r] else (ds.trace ++ [lost] ++ [r]).take 4096
    let dropped := if ds.traceLost ≠ 0 && decide (ds.trace.length = 4095) then 1 else 0
    let s1 := s.updDie d fun x => { x with trace := buf, traceLost := dropped }
    (if dropped = 1 then s1.count .dagTrcdrop 1 d else s1).wr .dagTrcocc buf.length d

/-- Whether a trace type is recorded for a die: its bit of TRCEN is set, and the die belongs to a partition of TRCPART
(R356). -/
def State.traced (s : State) (d type : Nat) : Bool :=
  testBit (s.rd .obsTrcenType) (type - 1) &&
    match s.partOf d with
    | some p => testBit (s.rd .obsTrcpart) p
    | none => false

/-- A trace event of a die (R355 to R357). -/
def State.trace (s : State) (d type core eng a b : Nat) : State :=
  if s.traced d type then s.traceRecord d { type, core, eng, a := a % 2 ^ 15, b := b % 2 ^ 32, time := s.now } else s

/-! ## Service state -/

/-- A hub die's request for CHAIN_BYP_HOLD: its Hall is active, or a ready standby; the receiver is aligned and has listened; and the active Hall's
transmitter is sending, in STEWARD not (R236, R258). -/
def State.hubRequests (s : State) (h : Nat) : Bool :=
  (decide (h = s.active) || s.flag .govHallStbyrdy) && s.flag .chnPosLink && s.chain.joined && !s.chain.silent && decide (s.svc ≠ svcSteward)

/-- The two requests combined (R24). -/
def State.bypWanted (s : State) : Bool := s.hubRequests 0 || s.hubRequests 1

/-- The node leaves the ring: its bypass closes, and it is neither claimant nor originator any more (R236, R257). -/
def State.chainOut (s : State) : State :=
  { s.wr .chnPosOrig 0 with
    pins := { s.pins with bypHold := false }
    chain := { s.chain with claiming := false, backoff := none, ledgerOut := none, seam := 0, sending := none } }

/-- A live update is in progress: DOWNLOAD to LOADOLD (R71, R338; assumption log 86). -/
def State.inUpdate (s : State) : Bool := decide (1 ≤ s.rd .fwcUpdStage) && decide (s.rd .fwcUpdStage ≤ 6)

/-- The stage of a live update shown, with an Attic event (R338, R362). -/
def State.setStage (s : State) (n : Nat) : State := (s.wr .fwcUpdStage n).info 2

/-- A live update failed: the old image runs on, command fetching resumes, and a control complex that had restarted on the new slot is back on
the slot of the other Hall (R338, R340; assumption log 57). -/
def State.failUpdate (s : State) (code : Nat) : State :=
  let h := 1 - s.active
  let back := (s.hall s.active).slot
  let ver := (s.hall s.active).version
  let s1 := if 3 ≤ s.rd .fwcUpdStage && (s.hall h).slot ≠ back then
      (s.updHall h fun x => { x with slot := back, version := ver, up := true }).wr .fwcImgVer ver 0 h
    else s
  ({ s1 with upd := { s1.upd with accepted := false, quiet := false } }.wr .fwcUpdFailc code).setStage 9

/-- Whether a live update is in stages 1 to 4, in which it may still fail (R338, R345). -/
def State.updating (s : State) : Bool := decide (1 ≤ s.rd .fwcUpdStage) && decide (s.rd .fwcUpdStage ≤ 4)

/-- The service state changed: CUR and PREV show it, a STATE notice goes out, and the Attic has an event; in STEWARD the node is out of
the Chain ring, and leaving FULL fails a live update before its swap (R12, R237, R312, R345, R362, R386). -/
def State.setSvc (s : State) (st : Nat) : State :=
  if s.svc = st then s
  else
    let old := s.svc
    let s0 := (((s.wr .govStatePrev old).wr .govStateCur st).noticeAll 4 (st + 8 * old)).info 1
    let s1 := if old = svcFull && st ≠ svcFailsafe && s0.updating then s0.failUpdate 5 else s0
    if st = svcSteward then s1.chainOut
    else if old = svcSteward then { s1 with pins := { s1.pins with bypHold := s1.bypWanted } }
    else s1

end Sys2Proof.Machine
end

