-- ==== Sys2Proof/Machine/FaultOps.lean ====
section
/-!
DEFINITION. Sys2Proof/Machine/FaultOps.lean: raising a fault (R276 to R284), statements that fall due (R69), escalation
(R280), the floor state (R37) and the FATAL latches (R281).
-/
namespace Sys2Proof.Machine

/-! ## Statements falling due -/

/-- The tag bound to a partition. -/
def State.tagOf (s : State) (p : Nat) : Nat := s.rd .alcPartBindTag 0 p

/-- A statement of a partition falls due now: its interval ends at the first fast-period boundary at or after now, and it
takes the next sequence number of the ring set (R69, R70). -/
def State.stmtDue (s : State) (kind : StmtKind) (p : Nat) : State :=
  s.updRing p fun r =>
    { r with
      due := r.due ++ [{ kind, part := p, tag := s.tagOf p, dies := s.rd .alcPartDies 0 p, seq := r.stmSeq,
                         tEnd := ceilTo 250 s.now }]
      stmSeq := (r.stmSeq + 1) % 2 ^ 32 }

/-! ## The floor state -/

/-- The core branches of a compute die. -/
def branchesOf (d : Nat) : List Nat := [4 * d, 4 * d + 1, 4 * d + 2, 4 * d + 3]

/-- A core branch takes ÷32 at its next edge, without ramping; its target stays recorded (R37, R140, R142). -/
def State.branchTo32 (s : State) (k : Nat) : State := (s.wr .clkCbrCur 0x200 0 k).wr .clkCbrGdep 0 0 k

/-- The fastest of the divisors of a die's branches. -/
def State.fastestCur (s : State) (d : Nat) : Nat :=
  (branchesOf d).foldl (fun m k => min m (s.rd .clkCbrCur 0 k)) 0xFFF

/-- A CCLK domain shows the divisor of its fastest branch (R137). -/
def State.showDomain (s : State) (d : Nat) : State := s.wr .clkDomCur (s.fastestCur d) 0 d

/-- Entry into the floor state: every compute branch takes ÷32, and each CCLK domain shows it forced (R36, R37). -/
def State.enterFloor (s : State) : State :=
  (s.each (upto 32) fun s d =>
    (((branchesOf d).foldl State.branchTo32 s).showDomain d).wr .clkDomForced 1 0 d).wr .govStateFloorf s.force.bits

/-- A condition added to those that force the floor state; the period that runs counts as one in which it is forced (R39). -/
def State.forceFloor (s : State) (f : Forcing → Forcing) : State :=
  ({ s with force := f s.force, floorOn := true, lim := { s.lim with floorRun := true } }).enterFloor

/-- A condition taken from those that force the floor state. -/
def State.releaseFloor (s : State) (f : Forcing → Forcing) : State :=
  let s1 := { s with force := f s.force }
  s1.wr .govStateFloorf s1.force.bits

/-! ## Raising a fault -/

/-- The dies that a scope names: the unit's die, both dies fed by its VMEM rail, or none in particular (R277). -/
def scopeDies (sc : Scope) (unit : Nat) : List Nat :=
  match sc with
  | .die => [unit % 64]
  | .pair => [unit % 64 - unit % 64 % 2, unit % 64 - unit % 64 % 2 + 1]
  | .package => []

/-- The partitions that escalation of a fault stops (R277). -/
def State.scopeParts (s : State) (sc : Scope) (unit : Nat) : List Nat :=
  match sc with
  | .package => s.partsInForce
  | _ => s.partsInForce.filter fun p => (scopeDies sc unit).any fun d => decide (s.partOf d = some p)

/-- The code of a scope. -/
def Scope.num : Scope → Nat
  | .die => 0
  | .pair => 1
  | .package => 2

/-- The code of a class (R276). -/
def FaultClass.num : FaultClass → Nat
  | .corrected => 0
  | .contained => 1
  | .fatal => 2

/-- The counters of a fault (R276, R297). -/
def State.countFault (s : State) (f : FaultRec) : State :=
  match f.cls with
  | .corrected => (s.count .fltCorr).count .fltSrccntCorr 1 0 f.src
  | .contained => (s.count .fltCont).count .fltSrccntCont 1 0 f.src
  | .fatal => s.count .fltFatalc

/-- First-error capture: the first fault of a class since it was re-armed is captured, a later one only counted (R284). -/
def State.capture (s : State) (f : FaultRec) : State :=
  let c := f.cls.num
  if s.flag .fltFirstValid 0 c then s.count .fltFirstMore 1 0 c
  else s.puts
    [(⟨.fltFirstAddr, 0, c⟩, f.addr), (⟨.fltFirstSrc, 0, c⟩, f.src), (⟨.fltFirstAcc, 0, c⟩, f.acc),
     (⟨.fltFirstValid, 0, c⟩, 1), (⟨.fltFirstUnit, 0, c⟩, f.unit), (⟨.fltFirstDetail, 0, c⟩, f.detail),
     (⟨.fltFirstTime, 0, c⟩, s.now), (⟨.fltFirstScope, 0, c⟩, f.scope.num),
     (⟨.fltFirstPart, 0, c⟩, (s.unitPart f.unit).getD 0)]

/-- The 4-bit partition field of a pending fault or notice: that of the unit's die, or the first in scope. -/
def State.faultPart (s : State) (f : FaultRec) : Nat := ((s.scopeParts f.scope f.unit).head?).getD 0

/-- What the collector keeps of a pending fault. -/
def State.pendOf (s : State) (j : Nat) : PendInfo := Store.get PendInfo.init s.pend j

/-- The pending slot of a fault of the same source, unit and detail, which a recurrence merges into (R278). -/
def State.samePending (s : State) (f : FaultRec) : Option Nat :=
  (upto 16).find? fun j => s.flag .fltPendValid 0 j && decide (s.rd .fltPendSrc 0 j = f.src) &&
    decide ((s.pendOf j).unit = f.unit) && decide ((s.pendOf j).detail = f.detail)

/-- The lowest free pending slot. -/
def State.freePending (s : State) : Option Nat := (upto 16).find? fun j => !s.flag .fltPendValid 0 j

/-- The escalation time in nanoseconds: ESCT held to 1 µs to 1 s (R278, R297). -/
def State.escNs (s : State) : Nat := 1000 * clampNat 1 1000000 (s.rd .fltCfgEsct)

/-- The FAULT notice of a CONTAINED fault: to the partitions of its dies for scope DIE and PAIR, to every RUNNING ring set
for scope PACKAGE (R312). -/
def State.faultNotice (s : State) (f : FaultRec) (seq : Nat) : State :=
  let detail := f.src + 2 ^ 5 * f.scope.num + 2 ^ 7 * s.faultPart f + 2 ^ 11 * f.unit
  match f.scope with
  | .package => s.each (upto 16) fun s n => s.noticeTo 1 seq detail n
  | _ => s.each (s.scopeParts f.scope f.unit) fun s p => s.noticePart 1 seq detail p

/-- A fault put into a pending slot with its escalation timer started (R278). -/
def State.addPending (s : State) (f : FaultRec) (j seq : Nat) : State :=
  let s1 := s.puts
    [(⟨.fltPendSeq, 0, j⟩, seq), (⟨.fltPendSrc, 0, j⟩, f.src), (⟨.fltPendScope, 0, j⟩, f.scope.num),
     (⟨.fltPendPart, 0, j⟩, s.faultPart f), (⟨.fltPendValid, 0, j⟩, 1), (⟨.fltPendRemain, 0, j⟩, s.escNs / 1000),
     (⟨.fltPendMerged, 0, j⟩, 0)]
  { s1 with pend := Store.set s1.pend j { deadline := s.now + s.escNs, unit := f.unit, detail := f.detail } }

/-- A pending slot emptied. -/
def State.dropPending (s : State) (j : Nat) : State :=
  (s.wr .fltPendValid 0 0 j).wr .fltPendRemain 0 0 j

/-- A completion posted for a fetched command: status, and its 64-bit result (R308, R311). -/
def State.postCpl (s : State) (n cid status result : Nat) : State :=
  let s1 := s.wr .hifRsStatInflight (s.ring n).running.length 0 n
  if s1.ringRunning n && decide (s1.cplFree n ≠ 0) then
    ((s1.putCpl n (2 ^ 8 * status + 2 ^ 16 * cid) (w32 (s1.rd .hifRsCmdci 0 n) :: w64 result))).cplWritten n false
  else s1

/-- A command that runs no longer, and its completion (R308, R309, R311). -/
def State.complete (s : State) (n cid status result : Nat) : State :=
  (s.updRing n fun r => { r with running := r.running.eraseP fun c => decide (c.cid = cid) }).postCpl n cid status result

/-- LSEED, LCLEAR, LEXPORT and SNAPSHOT of a stopped partition that still run complete ABORTED (R310). -/
def State.abortRunning (s : State) (p : Nat) : State :=
  s.each ((s.ring p).running.filter fun c => c.opcode = 9 || c.opcode = 10 || c.opcode = 11 || c.opcode = 13)
    fun s c => s.complete p c.cid 8 0

/-- One partition stopped by escalation: its dies' open telemetry blocks closed, its binding cleared, a STOPPED statement due, a stop
notice posted and running buffer commands aborted (R67, R280). -/
def State.stopPart (s : State) (seq p : Nat) : State :=
  let s1 := (s.stmtDue .stopped p).each (s.diesOf p) State.closeBlock
  let s2 := s1.wr .alcPartBindValid 0 0 p
  let s3 := s2.noticePart 2 seq (p + 2 ^ 4 * s.tagOf p) p
  ((s3.abortRunning p).wr .fltStatusEscal 1).event 6 0 0 (some p)

/-- Escalation of a fault: every partition in its scope is stopped (R280). -/
def State.escalate (s : State) (sc : Scope) (unit seq : Nat) : State :=
  s.each (s.scopeParts sc unit) fun s p => s.stopPart seq p

/-- A CONTAINED fault at the collector: merged into the same fault still pending, or put into a free slot with its notice
sent, or escalated at once for lack of one (R276, R278, R279). -/
def State.collect (s : State) (f : FaultRec) : State :=
  match s.samePending f with
  | some j => s.count .fltPendMerged 1 0 j
  | none =>
    let seq := s.faultSeq
    let s1 := { s with faultSeq := (seq + 1) % 2 ^ 16 }
    match s1.freePending with
    | some j => (s1.addPending f j seq).faultNotice f seq
    | none => ((s1.wr .fltStatusPendovf 1).faultNotice f seq).escalate f.scope f.unit seq

/-- The FATAL latches set: the floor state is forced, GOV_ERR reads 10, the Chain role becomes PASSIVE, trim ends, the
heartbeat is held low, FATAL notices go out, vector 35 is sent on both ports, and the service state is FAILSAFE (R25, R206,
R237, R281, R312, R315). -/
def State.failsafe (s : State) (src unit : Nat) : State :=
  if s.flag .fltStatusFatal then s
  else
    let s1 := (s.wr .fltStatusFatal 1).forceFloor fun f => { f with fatal := true }
    let s2 := { s1 with pins := { s1.pins with govErrP := true, govErrN := false, govHeartbeat := false } }
    let s3 := s2.each (upto 32) fun s d => s.each (upto 4) fun s c => s.wr .dagTrimlvlLvl 0 d c
    let s5 := (s3.noticeAll 3 (src + 2 ^ 5 * unit)).setSvc svcFailsafe
    (s5.sendVector .hx0 35).sendVector .hx1 35

/-- A fault raised: counted, captured, recorded in the Attic, and answered by its class (R276, R361). -/
def State.raise (s : State) (f : FaultRec) : State :=
  let s1 := ((s.countFault f).capture f).event (f.src * 256 + f.detail) (f.cls.num + 1) f.unit (s.unitPart f.unit)
  match f.cls with
  | .corrected => s1
  | .contained => s1.collect f
  | .fatal => s1.failsafe f.src f.unit

/-- A fault whose reaction does not wait for the timer: raised, and escalated at once (R279). -/
def State.raiseNow (s : State) (f : FaultRec) : State :=
  let s1 := (((s.countFault f).capture f).event (f.src * 256 + f.detail) (f.cls.num + 1) f.unit (s.unitPart f.unit))
  let s2 := { s1 with faultSeq := (s.faultSeq + 1) % 2 ^ 16 }
  (s2.faultNotice f s.faultSeq).escalate f.scope f.unit s.faultSeq

/-- A CORRECTED fault. -/
def corr (src detail unit acc : Nat) (addr : Nat := 0) : FaultRec :=
  { cls := .corrected, src, detail, unit, scope := .die, acc, addr }

/-- A CONTAINED fault. -/
def cont (src detail unit : Nat) (scope : Scope) (acc : Nat) (addr : Nat := 0) : FaultRec :=
  { cls := .contained, src, detail, unit, scope, acc, addr }

/-- A FATAL fault. -/
def fatalFault (src detail unit acc : Nat) : FaultRec :=
  { cls := .fatal, src, detail, unit, scope := .package, acc, addr := 0 }

/-- A fault that a die agent reports: held by it in STEWARD, at most 16, until a Hall admits it; FATAL reaches the latch
through the error pairs in any state (R285, R293). -/
def State.dieFault (s : State) (d : Nat) (f : FaultRec) : State :=
  if (s.die d).steward && decide (f.cls ≠ .fatal) then
    s.updDie d fun x => if x.faultHold.length < 16 then { x with faultHold := x.faultHold ++ [f] } else x
  else s.raise f

/-- The scope that a fault of a die's unit takes: DIE on a compute die, PACKAGE on any other (R277). -/
def dieScope (d : Nat) : Scope := if d < 32 then .die else .package

/-- A self-test's result counted (R288). -/
def State.selfTest (s : State) (pass : Bool) : State := s.count (if pass then .fltTrans else .fltLasting)

/-! ## Flits on the lanes -/

/-- A flit from a die to the active Hall: false where its parity is bad, by itself or by the injection armed for the lane, which it uses up; it is
then dropped with a CORRECTED fault (R20, R287). -/
def State.flitIn (s : State) (d : Nat) (parityOk : Bool) : Bool × State :=
  let hit := s.inject.lanes.contains d
  let s1 := if hit then { s with inject := { s.inject with lanes := s.inject.lanes.filter (· ≠ d) } } else s
  if parityOk && !hit then (true, s1) else (false, s1.raise (corr 1 1 (unitOf d s.active) 3))

end Sys2Proof.Machine
end

