-- ==== Sys2Proof/Machine/Trim.lean ====
section
/-!
DEFINITION. Sys2Proof/Machine/Trim.lean: trimmed arithmetic as the arrays apply it to their operands, and what the products come to
(R205, R207 to R210). No command of the table carries operands: what reaches the state is how many multiplies ran at each effective level
(R211, R213).
-/
namespace Sys2Proof.Machine

/-- The operand formats of the arrays (R207). -/
inductive Format where
  | bf16 | fp16 | e4m3 | e5m2 | e2m1 | int8
  deriving DecidableEq, Repr

/-- The exponent bits of a format (R207); an INT8 operand has none. -/
def expBits : Format → Nat
  | .bf16 => 8 | .fp16 => 5 | .e4m3 => 4 | .e5m2 => 5 | .e2m1 => 2 | .int8 => 0

/-- The fraction bits of a format (R207). -/
def fracBits : Format → Nat
  | .bf16 => 7 | .fp16 => 10 | .e4m3 => 3 | .e5m2 => 2 | .e2m1 => 1 | .int8 => 7

/-- The fraction bits kept at an effective level; FP4 and INT8 operands keep all (R207). -/
def keptBits (f : Format) (lvl : Nat) : Nat :=
  match f, lvl with
  | .bf16, 1 => 5 | .bf16, 2 => 3
  | .fp16, 1 => 7 | .fp16, 2 => 5
  | .e4m3, 1 => 2 | .e4m3, 2 => 1
  | .e5m2, 1 => 1 | .e5m2, 2 => 0
  | f, _ => fracBits f

/-- The effective level of a multiply: the lower of its core's TRIM_LVL and its descriptor's permit, of which 3 is handled as 0 (R27, R205). -/
def effLevel (lvl permit : Nat) : Nat := min lvl (if permit = 3 then 0 else permit)

/-- The format of the operands of a precision code; each operand of a mixed descriptor has its own, and FP32 uses no array (R26, R210). -/
def formatOf : Nat → Option Format
  | 0 => some .e4m3 | 1 => some .e5m2 | 2 => some .e2m1 | 3 => some .bf16 | 4 => some .fp16 | 5 => some .int8 | _ => none

/-- An operand's fraction and exponent fields. -/
def fracField (f : Format) (x : Nat) : Nat := x % 2 ^ fracBits f
def expField (f : Format) (x : Nat) : Nat := x / 2 ^ fracBits f % 2 ^ expBits f

/-- An infinity or a NaN in its own format; E4M3 has no infinities, and its NaNs have every exponent and fraction bit set (R208). -/
def isSpecial (f : Format) (x : Nat) : Bool :=
  match f with
  | .e2m1 | .int8 => false
  | .e4m3 => decide (expField f x = 15) && decide (fracField f x = 7)
  | _ => decide (expField f x = 2 ^ expBits f - 1)

/-- An operand as the array multiplies it: an infinity or a NaN passes unchanged, and else the fraction bits that are not kept are cleared, so that
a subnormal operand with no kept bit set becomes a zero of the same sign (R207, R208). -/
def trimOperand (f : Format) (lvl x : Nat) : Nat :=
  if isSpecial f x then x else x - x % 2 ^ (fracBits f - keptBits f lvl)

/-! ## Values, products and sums (R209, R210) -/

/-- The exponent of a format's subnormal operands, and of its least normal ones (R207); FP4 and INT8 are never trimmed. -/
def emin : Format → Int
  | .bf16 => -126 | .fp16 => -14 | .e4m3 => -6 | .e5m2 => -14 | .e2m1 => 0 | .int8 => 0

/-- An operand's sign; an INT8 operand is in two's complement. -/
def signBit (f : Format) (x : Nat) : Bool := testBit x (expBits f + fracBits f)

/-- The magnitude of an operand that is neither an infinity nor a NaN. -/
def magnitude (f : Format) (x : Nat) : Rat :=
  if f = .int8 then ((toSigned 8 (x % 256)).natAbs : Rat)
  else
    let frac : Rat := (fracField f x : Rat) / 2 ^ fracBits f
    if expField f x = 0 then frac * 2 ^ emin f else (1 + frac) * 2 ^ ((expField f x : Int) - 1 + emin f)

/-- A normal operand: a finite one whose exponent field is not zero. -/
def isNormal (f : Format) (x : Nat) : Bool := !isSpecial f x && decide (expField f x ≠ 0) && decide (f ≠ .int8)

/-- The value of an operand that is neither an infinity nor a NaN. -/
def operandValue (f : Format) (x : Nat) : Rat := if signBit f x then -magnitude f x else magnitude f x

/-- Two operands of a product, each with its own format (R210). -/
structure Factors where
  fa : Format
  a : Nat
  fb : Format
  b : Nat
  deriving DecidableEq, Repr

/-- The product that the array forms of two finite operands at an effective level, each trimmed by the row of its own format (R207, R210). -/
def product (lvl : Nat) (x : Factors) : Rat := operandValue x.fa (trimOperand x.fa lvl x.a) * operandValue x.fb (trimOperand x.fb lvl x.b)

/-- The formats that a descriptor's precision code lets the operands of a product have: one for codes 0 to 5, each operand its own for the mixed
code 7, and none for code 6, which uses the vector unit alone and is never trimmed (R26, R210). -/
def precAllows (prec : Nat) (x : Factors) : Bool :=
  decide (prec = 7) || (decide (formatOf prec = some x.fa) && decide (formatOf prec = some x.fb))

/-- The array's product for a descriptor of a precision code and permit on a core at a level; none where the code gives no such product. -/
def arrayProduct (prec lvl permit : Nat) (x : Factors) : Option Rat :=
  if precAllows prec x then some (product (effLevel lvl permit) x) else none

/-- Products accumulated in FP32, exactly as without trim (R209). -/
def accumulate (lvl : Nat) (l : List Factors) : Rat := l.foldl (fun acc x => Config.fp32Add acc (product lvl x)) 0

/-- The bound on the relative reduction of a product of two normal operands of which ka and kb fraction bits are kept (R209, R210). -/
def productBound (ka kb : Nat) : Rat := 1 / 2 ^ ka + 1 / 2 ^ kb - 1 / 2 ^ (ka + kb)

end Sys2Proof.Machine
end

