-- ==== Sys2Proof/Machine/Estimate.lean ====
section
/-!
DEFINITION. Sys2Proof/Machine/Estimate.lean: a die's energy in one fast period (R53, R54, R211), its division among queues
(R60, R61), and the accounts it enters (R59, R62, R63).
-/
namespace Sys2Proof.Machine

/-! ## The estimator -/

/-- An estimator value as a die's estimate takes it: what the register holds once the die has been admitted, and the fused value before
(R57). -/
def State.est (s : State) (d : Nat) (r : FieldRef) : Nat :=
  if (s.hd d).admitted then s.reg r else if r.exists then r.reset else 0

/-- The effective level at which counts are charged: that of their tag, no higher than the permit and the TRIM_LVL in force in the period
allow (R205, R206). -/
def State.actLevel (s : State) (d : Nat) (a : Act) : Nat :=
  min a.lvl.val (effLevel (((s.die d).trimRun[a.core.val]?).getD 0) a.permit.val)

/-- (v / 0.75 V)^2 for a voltage in 0.5 mV. -/
def vRatio (v : Nat) : Rat := ((v : Rat) / 1500) * ((v : Rat) / 1500)

/-- The saving of a trimmed MAC of array counter i at a level, from TRIMSAV, in units of 1/200 (R211). -/
def State.saving (s : State) (d ctr lvl : Nat) : Nat :=
  match ctr, lvl with
  | 0, 1 | 1, 1 => s.rd .dagTrimsav1Fp8t1 d
  | 0, 2 | 1, 2 => s.rd .dagTrimsav1Fp8t2 d
  | 3, 1 => s.rd .dagTrimsav0Bf16t1 d
  | 3, 2 => s.rd .dagTrimsav0Bf16t2 d
  | 4, 1 => s.rd .dagTrimsav0Fp16t1 d
  | 4, 2 => s.rd .dagTrimsav0Fp16t2 d
  | _, _ => 0

/-- A counter of a die feeds its memory rail (R53). -/
def onMem (d ctr : Nat) : Bool := decide (d < 32) && (decide (ctr = 7) || decide (ctr = 8))

/-- A counter of a die feeds its PHY rail (R53). -/
def onPhy (d ctr : Nat) : Bool := decide (32 ≤ d) && decide (d < 36) && decide (ctr = 14)

/-- A counter is present on a die (R53). -/
def ctrPresent (d ctr : Nat) : Bool :=
  if d < 32 then true
  else if d < 36 then decide (13 ≤ ctr)
  else if d < 38 then decide (ctr = 7 || ctr = 8 || ctr = 13 || ctr = 15)
  else decide (13 ≤ ctr)

/-- The ungained energy of counts of one counter at a voltage, in 2^-16 µJ, before any trim saving (R54). -/
def State.actPlain (s : State) (d v : Nat) (a : Act) : Rat :=
  if ctrPresent d a.ctr.val then (s.est d ⟨.dagEcoefCoef, d, a.ctr.val⟩ : Rat) * a.n / 65536 * vRatio v else 0

/-- The same with the trim saving of their effective level (R54, R205, R211). -/
def State.actRaw (s : State) (d v : Nat) (a : Act) : Rat :=
  s.actPlain d v a * (1 - (s.saving d a.ctr.val (s.actLevel d a) : Rat) / 200)

/-- A point of the leakage grid (R54, R77). -/
def State.leakAt (s : State) (d vp tp : Nat) : Nat :=
  let k := vp * 8 + tp
  if k % 2 = 0 then s.est d ⟨.dagEleakLo, d, k / 2⟩ else s.est d ⟨.dagEleakHi, d, k / 2⟩

/-- A position in a grid of eight points starting at base with a given step: the point below it, and the fraction of the
way to the next; clamped at the edges. -/
def gridPos (base step x : Int) : Nat × Rat :=
  if x ≤ base then (0, 0)
  else if base + 7 * step ≤ x then (6, 1)
  else (((x - base) / step).toNat, ((x - base) % step : Rat) / step)

/-- The leakage of a die at a voltage in 0.5 mV and a temperature in 1/16 °C, in power units: bilinear in the 8 × 8 grid,
clamped at its edges (R54). -/
def State.leak (s : State) (d v : Nat) (t : Int) : Rat :=
  let pv := gridPos 1100 100 v
  let pt := gridPos 400 240 t
  let at_ (a b : Nat) : Rat := s.leakAt d (pv.1 + a) (pt.1 + b)
  (at_ 0 0 * (1 - pt.2) + at_ 0 1 * pt.2) * (1 - pv.2) + (at_ 1 0 * (1 - pt.2) + at_ 1 1 * pt.2) * pv.2

/-- The even partner whose VMEM rail a compute die shares (R54). -/
def memDie (d : Nat) : Nat := d - d % 2

/-- g_own, from units of 2^-14; 1 until the die has been admitted (R57). -/
def State.gOwn (s : State) (d : Nat) : Rat := (s.est d ⟨.dagEgainGown, d, 0⟩ : Rat) / 16384

/-- g_mem of the die's pair, 1 until the die that calibrates it has been admitted; 0 on dies other than compute dies (R54, R57). -/
def State.gMem (s : State) (d : Nat) : Rat :=
  if d < 32 then (s.est (memDie d) ⟨.dagEgainGmem, memDie d, 0⟩ : Rat) / 16384 else 0

/-- Half of the pair's memory static power over a period, in 2^-16 µJ: 1/8 W for 250 ns is 2 048 of them. -/
def State.memHalf (s : State) (d : Nat) : Rat :=
  if d < 32 then (s.est (memDie d) ⟨.dagEmemlkMemlk, memDie d, 0⟩ : Rat) * 1024 else 0

/-- The gained energy of counts before the voltage factor and any trim saving, as an invocation is measured; counter 15 is left out (R163). -/
def State.actNorm (s : State) (d : Nat) (a : Act) : Rat :=
  if a.ctr.val = 15 || !ctrPresent d a.ctr.val then 0
  else (s.est d ⟨.dagEcoefCoef, d, a.ctr.val⟩ : Rat) * a.n / 65536 * (if onMem d a.ctr.val then s.gMem d else s.gOwn d)

/-- The normalised energy of the counts that one engine made for one queue (R163). -/
def State.normOf (s : State) (d eng queue : Nat) (l : List Act) : Rat :=
  ((l.filter fun a => a.core.val * 6 + a.eng.val = eng && a.queue.val = queue).map (s.actNorm d)).foldl (· + ·) 0

/-- The energy that one engine's counts of one kind add to the die, gained, in 2^-16 µJ. -/
def State.actEnergy (s : State) (i : DieInput) (a : Act) : Rat :=
  let d := i.die.val
  if onMem d a.ctr.val then s.gMem d * s.actRaw d i.vMem a
  else if onPhy d a.ctr.val then s.gOwn d * s.actRaw d i.vPhy a
  else s.gOwn d * s.actRaw d i.vOwn a

/-- The sum of a list of rationals. -/
def sumRat (l : List Rat) : Rat := l.foldl (· + ·) 0

/-- A die's static part of a period: leakage, the memory-rail static share and counter-15 energy, gained (R54, R60). -/
def State.staticEnergy (s : State) (i : DieInput) : Rat :=
  let d := i.die.val
  s.gOwn d * (s.leak d i.vOwn (s.die d).tMean * 2048) + s.gMem d * s.memHalf d +
    sumRat ((i.acts.filter fun a => a.ctr.val = 15).map (s.actEnergy i))

/-- The dynamic energy of one engine of a die: its counts but counter 15 (R60). -/
def State.engineDyn (s : State) (i : DieInput) (c e : Nat) : Rat :=
  sumRat ((i.acts.filter fun a => a.ctr.val ≠ 15 && a.core.val = c && a.eng.val = e).map (s.actEnergy i))

/-- A die's whole energy in the period: every count, the leakage and the memory share (R54). -/
def State.dieEnergy (s : State) (i : DieInput) : Rat :=
  s.staticEnergy i + sumRat ((i.acts.filter fun a => a.ctr.val ≠ 15).map (s.actEnergy i))

/-- The ungained energies of the period for the die's own rails and for its memory rail (R55). -/
def State.rawOwnMem (s : State) (i : DieInput) : Rat × Rat :=
  let d := i.die.val
  (s.leak d i.vOwn (s.die d).tMean * 2048 +
      sumRat ((i.acts.filter fun a => !onMem d a.ctr.val).map fun a =>
        s.actRaw d (if onPhy d a.ctr.val then i.vPhy else i.vOwn) a),
   s.memHalf d + sumRat ((i.acts.filter fun a => onMem d a.ctr.val).map (s.actRaw d i.vMem)))

/-- The period's energy by node of the thermal network: each core's own-rail dynamic energy, or a quarter of the die's; the memory rail;
leakage and counter 15 (R221; assumption log 46). -/
def State.nodeParts (s : State) (i : DieInput) : List Rat :=
  let d := i.die.val
  let act (p : Act → Bool) : Rat := sumRat ((i.acts.filter p).map (s.actEnergy i))
  let st := s.gOwn d * (s.leak d i.vOwn (s.die d).tMean * 2048) + act fun a => a.ctr.val = 15
  if d < 32 then
    ((List.range 4).map fun c => act fun a => a.ctr.val ≠ 15 && !onMem d a.ctr.val && a.core.val = c) ++
      [s.gMem d * s.memHalf d + act (fun a => onMem d a.ctr.val), st]
  else
    let q := act (fun a => a.ctr.val ≠ 15) / 4
    [q, q, q, q, 0, st]

/-! ## Attribution to queues -/

/-- The busy cycles of an engine in a period. -/
def busyCycles (i : DieInput) (c e : Nat) : Nat :=
  (i.runs.filter fun r => r.core.val = c && r.eng.val = e).foldl (fun n r => n + r.cycles) 0

/-- The engines of a core that ran something in the period. -/
def busyEngines (i : DieInput) (c : Nat) : List Nat := (upto 6).filter fun e => busyCycles i c e ≠ 0

/-- Where a share of a die's energy goes: a queue of a core, or the core's idle account. -/
inductive Payee where
  | queue (core q : Nat)
  | idle (core : Nat)
  deriving DecidableEq, Repr

/-- The share of one busy engine: its dynamic energy, its part of the core's static share, and its part of what the idle
engines of the core leave, in proportion to busy cycles (R60). -/
def State.engineShare (s : State) (i : DieInput) (c e : Nat) : Rat :=
  let busy := busyEngines i c
  let each := s.staticEnergy i / 24
  let cyc := sumRat (busy.map fun x => (busyCycles i c x : Rat))
  let idleN : Rat := 6 - (busy.length : Rat)
  s.engineDyn i c e + each + each * idleN * (busyCycles i c e : Rat) / cyc

/-- What each queue and idle account is due from one core (R30, R60). -/
def State.corePayees (s : State) (i : DieInput) (c : Nat) : List (Payee × Rat) :=
  if (busyEngines i c).isEmpty then
    [(.idle c, s.staticEnergy i / 4 + sumRat ((upto 6).map (s.engineDyn i c)))]
  else
    (i.runs.filter fun r => r.core.val = c && r.cycles ≠ 0).map fun r =>
      (.queue c r.queue.val,
       s.engineShare i c r.eng.val * (r.cycles : Rat) / (busyCycles i c r.eng.val : Rat)) 

/-- What an engine with counts but no running queue drew stays with its core's idle account, so that nothing is lost. -/
def State.strayDyn (s : State) (i : DieInput) (c : Nat) : Rat :=
  if (busyEngines i c).isEmpty then 0
  else sumRat (((upto 6).filter fun e => busyCycles i c e = 0).map (s.engineDyn i c))

/-- The die's payees in order, with the exact part each is due. -/
def State.payees (s : State) (i : DieInput) : List (Payee × Rat) :=
  if i.die.val < 32 then
    (upto 4).flatMap fun c => s.corePayees i c ++ [(Payee.idle c, s.strayDyn i c)]
  else []

/-- Exact parts cut to whole units of 2^-16 µJ so that they add up to the whole exactly: each running total is rounded, and a
payee receives its rise (R60, R61). -/
def wholeParts : List (Payee × Rat) → Rat → Nat → List (Payee × Nat)
  | [], _, _ => []
  | (p, x) :: l, acc, done =>
    let upto' := max done (roundNat 1 (acc + x))
    (p, upto' - done) :: wholeParts l (acc + x) upto'

/-! ## Accounts -/

/-- An energy in 2^-16 µJ added to an account held in µJ with its fraction kept (R61). -/
def State.accrue (s : State) (r : FieldRef) (e : Nat) : State :=
  let t := Store.get (fun _ => 0) s.frac r + e
  let s1 := { s with frac := Store.set s.frac r (t % 65536) }
  s1.put r (s1.reg r + t / 65536)

/-- The package-wide queue number (R64). -/
def queueNo (d c q : Nat) : Nat := d * 512 + c * 128 + q

/-- A payee's part entered in its queue accumulator, or in the die's idle sum. -/
def State.pay (s : State) (d : Nat) (x : Payee × Nat) : State :=
  match x.1 with
  | .queue c q => s.accrue ⟨.qeaEnergy, queueNo d c q, 0⟩ x.2
  | .idle _ => s.updDie d fun y => { y with idleCum := y.idleCum + x.2 }

/-- A number for each quantity, so that counts are listed in one order. -/
def Stat.num : Stat → Nat
  | .energy => 0 | .idle => 1 | .shared => 2 | .vec => 3 | .sramRd => 4 | .sramWr => 5 | .lbufRd => 6 | .lbufWr => 7
  | .vrfRd => 8 | .vrfWr => 9 | .d2d => 10 | .fab => 11 | .served => 12 | .delayed => 13 | .refused => 14 | .droopCyc => 15
  | .trimT1 => 16 | .trimT2 => 17 | .mac p => 2 * p + 18 | .thr c => 2 * c + 19

/-- A count raised by n. -/
def addCount (l : Counts) (q : Stat) (n : Nat) : Counts :=
  Store.insert (fun a b => natLt a.num b.num) q (Store.get (fun _ => 0) l q + n) l

/-- The place of a quantity among the 32 statistics of R350; those a statement alone counts have none. -/
def Stat.place : Stat → Option Nat
  | .energy => some 0
  | .idle => some 1
  | .mac p => if p < 6 then some (2 + p) else none
  | .vec => some 8
  | .sramRd => some 9
  | .sramWr => some 10
  | .lbufRd | .lbufWr => some 11
  | .vrfRd | .vrfWr => some 12
  | .d2d | .fab => some 13
  | .served => some 14
  | .delayed => some 15
  | .refused => some 16
  | .droopCyc => some 17
  | .trimT1 => some 18
  | .trimT2 => some 19
  | .thr c => if 1 ≤ c && c ≤ 12 then some (19 + c) else none
  | .shared => none

/-- Whether a quantity is an energy, counted in 2^-16 µJ with a fraction. -/
def Stat.isEnergy : Stat → Bool
  | .energy | .idle | .shared => true
  | _ => false

/-- A quantity added to one statistic of a set: an energy with its fraction, anything else whole. -/
def State.bumpStat (s : State) (f : Field) (p : Nat) (q : Stat) (n : Nat) : State :=
  match q.place with
  | some i => if q.isEnergy then s.accrue ⟨f, p, i⟩ n else s.wr f (s.rd f p i + n) p i
  | none => s

/-- A quantity counted for a partition: in its open statement interval, its LIVE set, and its JOB set while a job is bound
(R350, R351). -/
def State.tally (s : State) (p : Nat) (q : Stat) (n : Nat) : State :=
  if n = 0 then s
  else
    let s1 := s.updPart p fun x =>
      { x with counts := addCount x.counts q n, open_ := addCount x.open_ q n }
    let s2 := s1.bumpStat .viewLive p q n
    if (s2.part p).jobHeld then s2 else s2.bumpStat .viewJob p q n

/-- As tally, for the partition a die belongs to. -/
def State.tallyDie (s : State) (d : Nat) (q : Stat) (n : Nat) : State :=
  let s1 := { s with gopen := addCount s.gopen q n }
  match s.partOf d with
  | some p => s1.tally p q n
  | none => s1

/-- The quantity that a counter of R53 feeds. -/
def ctrStat (ctr : Nat) : Option Stat :=
  if ctr < 6 then some (.mac ctr)
  else match ctr with
    | 6 => some .vec
    | 7 => some .sramRd
    | 8 => some .sramWr
    | 9 => some .lbufRd
    | 10 => some .lbufWr
    | 11 => some .vrfRd
    | 12 => some .vrfWr
    | 13 => some .d2d
    | 14 => some .fab
    | _ => none

/-- The partition a compute die belonged to in a period, from the record of membership changes (R59). -/
def State.partIn (s : State) (d period : Nat) : Option Nat :=
  (upto 16).find? fun p =>
    match (s.part p).history.find? fun h => decide (h.1 ≤ period) with
    | some h => testBit h.2 d
    | none => false

/-- A partition's dies in the period that a boundary ended, from the same record. -/
def State.membersIn (s : State) (p period : Nat) : Option Nat :=
  ((s.part p).history.find? fun h => decide (h.1 ≤ period)).map fun h => h.2

/-! ### Energy of a period (R59, R63, R70) -/

/-- The interval of a statement takes in the period that a boundary ended. -/
def Stmt.holds (st : Stmt) (k : Nat) : Bool := decide (st.tStart < 250 * k) && decide (250 * k ≤ st.tEnd)

/-- An energy added to a statement that awaits delivery, in whole µJ; what is left below one is the second result (R61). -/
def Stmt.addEnergy (st : Stmt) (q : Stat) (n : Nat) : Stmt × Nat :=
  let t := Store.get (fun _ => 0) st.counts q + n
  ({ st with counts := addCount st.counts q (n - t % 65536) }, t % 65536)

/-- A partition's power in a period raised by e; the first result is the period's energy so far. The last 400 periods are kept (assumption
log 84). -/
def PartState.addPower (x : PartState) (k e : Nat) : Nat × PartState :=
  match x.power.find? fun y => decide (y.1 = k) with
  | some y => (y.2 + e, { x with power := x.power.map fun z => if z.1 = k then (k, y.2 + e) else z })
  | none => (e, { x with power := ((k, e) :: x.power).take 400 })

/-- A quantity of energy counted for a partition in the interval that a period lies in: in the statement that holds the period, where that
awaits delivery, else in the open interval (R59, R70). -/
def State.countEnergyAt (s : State) (p k : Nat) (q : Stat) (n : Nat) : State :=
  if n = 0 then s
  else
    let late := if 250 * k ≤ (s.part p).tStart then (s.ring p).stmts.find? fun st => st.part = p && st.holds k else none
    match late with
    | some st =>
      let r := st.addEnergy q n
      (s.updRing p fun x => { x with stmts := x.stmts.map fun y => if y = st then r.1 else y }).updPart p fun x =>
        { x with counts := addCount x.counts q r.2 }
    | none => s.updPart p fun x => { x with counts := addCount x.counts q n }

/-- The greatest power of a period of the interval that the period lies in (R70). -/
def State.notePeak (s : State) (p k e : Nat) : State :=
  let r := (s.part p).addPower k e
  let s1 := s.updPart p fun _ => r.2
  let v := r.1 / 2048
  if 250 * k ≤ (s.part p).tStart then
    s1.updRing p fun x => { x with stmts := x.stmts.map fun y => if y.part = p && y.holds k then { y with peak := max y.peak v } else y }
  else s1.updPart p fun x => { x with peak := max x.peak v }

/-- An energy entered in a partition's view sets, and in its PER set where it is of the period accounted for now (R350, R351). -/
def State.viewEnergy (s : State) (p k : Nat) (q : Stat) (n : Nat) : State :=
  if n = 0 then s
  else
    let s1 := if k = s.period then s.updPart p fun x => { x with open_ := addCount x.open_ q n } else s
    let s2 := s1.bumpStat .viewLive p q n
    if (s2.part p).jobHeld then s2 else s2.bumpStat .viewJob p q n

/-- Energy of no partition: the unassigned account and the package account (R62, R63). -/
def State.unassigned (s : State) (e : Nat) : State :=
  let s1 := (s.accrue ⟨.obsUnasgnE, 0, 0⟩ e).accrue ⟨.obsPkgenergyE, 0, 0⟩ e
  { s1 with gopen := addCount s1.gopen .energy e }

/-- A period lies before the present binding of a partition (R59). -/
def State.beforeJob (s : State) (p k : Nat) : Bool := decide (k ≤ (s.part p).jobFrom)

/-- A statement that awaits delivery holds a period of a partition. -/
def State.stmtAwaits (s : State) (p k : Nat) : Bool := (s.ring p).stmts.any fun st => st.part = p && st.holds k

/-- A partition's energy of one period: its account, its statement, its view sets, and the package account. Energy of a period before the
present binding enters the statement of the binding it belongs to; where that has been delivered it is of no partition any more (R59, R63,
R70; assumption log 84). -/
def State.partEnergy (s : State) (p k e idle shared : Nat) : State :=
  if s.beforeJob p k && !s.stmtAwaits p k then s.unassigned e
  else
    let s0 := if s.beforeJob p k then s else s.accrue ⟨.obsPenergyE, 0, p⟩ e
    let s1 := s0.accrue ⟨.obsPkgenergyE, 0, 0⟩ e
    let s2 := { s1 with gopen := addCount (addCount s1.gopen .energy e) .idle idle }
    let s3 := (((s2.countEnergyAt p k .energy e).countEnergyAt p k .idle idle).countEnergyAt p k .shared shared).notePeak p k e
    if s.beforeJob p k then s3
    else ((s3.viewEnergy p k .energy e).viewEnergy p k .idle idle).viewEnergy p k .shared shared

end Sys2Proof.Machine
end

