-- ==== Sys2Proof/Machine/Report.lean ====
section
/-!
DEFINITION. Sys2Proof/Machine/Report.lean: the demand forecast (R175), the period report (R19, R189, R212), the Hall's use of a
report (R20, R59), and the application of a grant at a boundary (R44, R194, R196).
-/
namespace Sys2Proof.Machine

/-! ## The demand forecast -/

/-- The integer square root, found bit by bit from bit k down. -/
def isqrtFrom (n : Nat) : Nat → Nat → Nat
  | 0, r => r
  | k + 1, r => if (r + 2 ^ k) * (r + 2 ^ k) ≤ n then isqrtFrom n k (r + 2 ^ k) else isqrtFrom n k r

/-- The greatest r of at most 48 bits with r * r at most n. -/
def isqrt (n : Nat) : Nat := isqrtFrom n 48 0

/-- The standard deviation of an entry in 2^-8 µJ, to 20 fraction bits (R175; assumption log 12). -/
def sigma (evar : Nat) : Rat := (isqrt (evar * 256 * 2 ^ 40) : Rat) / 2 ^ 20

/-- The default power of a precision and class, in power units (R170, R183). -/
def State.defPower (s : State) (p c : Nat) : Nat :=
  if c < 4 then s.rd .lrdDefpwrLo 0 p / 2 ^ (8 * c) % 256 else s.rd .lrdDefpwrHi 0 p / 2 ^ (8 * (c - 4)) % 256

/-- The default duration in cycles; 0 is handled as 1 (R183). -/
def State.defDur (s : State) : Nat := max 1 (s.rd .lrdDefdurDur)

/-- The key of a descriptor, while its partition has a job tag bound (R161). -/
def WinDesc.key (w : WinDesc) : Option LKey := w.tag.map fun t => { tag := t, layer := w.layer, op := w.op, prec := w.prec }

/-- The copy a die agent holds of a key, in its Pantry or its overflow buffer (R168). -/
def DieState.copyOf (x : DieState) (k : LKey) : Option PEntry :=
  match x.pantry.find? fun e => e.ent.key = k with
  | some e => some e
  | none => x.overflow.find? fun e => e.ent.key = k

/-- The entry that a descriptor of a die is forecast with: the copy held, where it has been learned from often enough; else
none, and the default stands in (R169, R170). -/
def State.entryOf (s : State) (d : Nat) (w : WinDesc) : Option LEntry :=
  match w.key.bind (s.die d).copyOf with
  | some e => if s.rd .lrdCfgMincnt ≤ e.ent.count then some e.ent else none
  | none => none

/-- Energy, spread and duration a descriptor is forecast with: its entry's, or the default's, whose power stands at 0.75 V
and 1.92 GHz (R170). -/
def State.forecastOf (s : State) (d : Nat) (w : WinDesc) : Rat × Rat × Rat :=
  match s.entryOf d w with
  | some e => (e.emean, sigma e.evar, max 1 e.dmean)
  | none => ((s.defPower w.prec w.step : Rat) / 8 * (s.defDur : Rat) / 1920 * 256, 0, s.defDur)

/-- The length of the cycle at a pattern index, in root periods, for a divisor in 1/16 (R138). -/
def cycleLen (div i : Nat) : Nat := div / 16 + ((i + 1) * (div % 16) / 16 - i * (div % 16) / 16)

/-- The mean length of n cycles at a divisor of 1/16 units, in nanoseconds: the root is 9.6 GHz (R138). -/
def cyclesNs (n : Rat) (div : Nat) : Rat := n * div * 10 / 1536

/-- The overlap of two spans of time. -/
def overlap (a b c d : Rat) : Rat := max 0 (min b d - max a c)

/-- What a window's descriptors add to the four forecasts, in power units, walking from time t after B (R175). -/
def State.walkWindow (s : State) (d v div : Nat) : List WinDesc → Bool → Rat → List Rat → List Rat
  | [], _, _, acc => acc
  | w :: l, head, t, acc =>
    if (head && w.waiting) || decide ((1250 : Rat) ≤ t) then acc
    else
      let f := s.forecastOf d w
      let len := cyclesNs f.2.2 div
      let p := (f.1 + (s.rd .lrdCfgSigk : Rat) / 4 * f.2.1) * vRatio v * s.gOwn d / 256 * 8000 / len
      let run := max 0 (f.2.2 - (if w.running then (w.cycles : Rat) else 0))
      let u := t + cyclesNs run div
      let acc' := acc.zipIdx.map fun x =>
        x.1 + p * overlap t u (250 * ((x.2 : Rat) + 1)) (250 * ((x.2 : Rat) + 2)) / 250
      s.walkWindow d v div l false u acc'

/-- The dynamic part of a core's four forecasts. -/
def State.coreForecast (s : State) (d c : Nat) : List Rat :=
  (upto 6).foldl (fun acc e =>
    s.walkWindow d (s.rd .rgcVidV d) (s.rd .clkCbrTgt 0 (4 * d + c))
      (Store.get (fun _ => []) (s.die d).windows (c * 6 + e)) true 0 acc) [0, 0, 0, 0]

/-- The static power of a die's last period, in power units. -/
def State.staticPower (s : State) (d : Nat) : Rat := ((s.die d).perStatic : Rat) / 2048

/-- A forecast as the report carries it: whole power units, saturating (R175). -/
def carried (x : Rat) : Nat := min 0xFFFF (roundNat 2 x)

/-- The four forecasts of a die (R175, R176). -/
def State.forecast (s : State) (d : Nat) : List Nat :=
  if d < 32 then
    (upto 4).map fun k =>
      carried (s.staticPower d + sumRat ((upto 4).map fun c => ((s.coreForecast d c)[k]?).getD 0))
  else [s.rd .dagEpwrMs d, s.rd .dagEpwrMs d, s.rd .dagEpwrMs d, s.rd .dagEpwrMs d]

/-! ## The report -/

/-- The trim saving term sv(t, k) of a core in units of 1/256, from the untrimmed array energies of the period of the descriptors that permit
at least level t, so that the lower of t and their permit is t (R212). -/
def State.svTerm (s : State) (i : DieInput) (c t : Nat) : Nat :=
  let d := i.die.val
  let num := sumRat ((i.acts.filter fun a => a.core.val = c && decide (a.ctr.val < 6) && decide (t ≤ a.permit.val)).map
    fun a => (s.saving d a.ctr.val t : Rat) / 200 * (s.gOwn d * s.actPlain d i.vOwn a))
  let den := sumRat ((upto 6).map (s.engineDyn i c))
  if den = 0 then 0 else roundNat 3 (num / den * 256)

/-- A core's part of the report. -/
def State.coreReport (s : State) (i : DieInput) (c : Nat) : CoreReport :=
  let d := i.die.val
  let f := s.coreForecast d c
  { fc1 := carried (s.staticPower d / 4 + (f[0]?).getD 0), fc2 := carried (s.staticPower d / 4 + (f[1]?).getD 0),
    age := s.rd .dagWaitAge d c, coll := s.flag .dagWaitColl d c, sv1 := s.svTerm i c 1, sv2 := s.svTerm i c 2,
    dyn := ((s.die d).coreDyn[c]?).getD 0 }

/-- Link bytes of a die in the period: counters 13 and 14 (R62). -/
def linkBytes (i : DieInput) : Nat :=
  (i.acts.filter fun a => a.ctr.val = 13 || a.ctr.val = 14).foldl (fun n a => n + a.n) 0

/-- The report of a die for the period that ends at the boundary (R19, R59). -/
def State.report (s : State) (i : DieInput) : Report :=
  let d := i.die.val
  let x := s.die d
  { period := s.period, gen := x.gen, energy := x.perEnergy, cum := x.cum % 2 ^ 48, idleCum := x.idleCum,
    fc := s.forecast d, cores := if d < 32 then (upto 4).map (s.coreReport i) else [], vref := s.vref d,
    leakTerm := x.perStatic, c15 := x.perC15, vNow := x.perV,
    links := linkBytes i, acks := x.acks, fatalReq := false }

/-! ## The Hall's use of a report -/

/-- The rise of a 48-bit cumulative counter (R59). -/
def cumRise (old new : Nat) : Nat := (new + 2 ^ 48 - old % 2 ^ 48) % 2 ^ 48

/-- The cumulative energy in full, from its low 48 bits and EDIE in µJ: the greatest value that both allow (R75). -/
def fullCum (edie cum : Nat) : Nat :=
  let m := edie * 65536 + 65535
  m - (m + 2 ^ 48 - cum % 2 ^ 48) % 2 ^ 48

/-- Link bytes that a compute die reports for a period, entered for its partition in that period; the last 400 periods are kept (R62;
assumption log 84). -/
def State.noteLinks (s : State) (d k n : Nat) : State :=
  match s.partIn d k with
  | none => s
  | some p =>
    let l := s.acct.links
    let l' := match l.find? fun x => decide (x.1 = k) with
      | some x => l.map fun y => if y.1 = k then (k, (p, n) :: x.2) else y
      | none => ((k, [(p, n)]) :: l).take 400
    { s with acct := { s.acct with links := l' } }

/-- The partitions of a period and their weights: link bytes, or, in a period with none known, compute dies (R62, R75). -/
def State.shares (s : State) (k : Nat) : List (Nat × Nat) :=
  let ps := (upto 16).filterMap fun p => match s.membersIn p k with
    | some m => if m = 0 then none else some (p, ((upto 32).filter (testBit m)).length)
    | none => none
  let seen := ((s.acct.links.find? fun x => decide (x.1 = k)).map fun x => x.2).getD []
  let links := ps.map fun x => (x.1, (seen.filter fun y => decide (y.1 = x.1)).foldl (fun n y => n + y.2) 0)
  if links.all fun x => x.2 = 0 then ps else links

/-- An energy divided in proportion to weights, the parts adding up to it exactly. -/
def divideBy (e : Nat) : List (Nat × Nat) → Nat → Nat → Nat → List (Nat × Nat)
  | [], _, _, _ => []
  | (p, w) :: l, total, acc, done =>
    let cut := if total = 0 then 0 else max done (roundNat 5 ((e : Rat) * (acc + w : Nat) / total))
    (p, cut - done) :: divideBy e l total (acc + w) cut

/-- The energy of a die of 32 to 39 in a period apportioned among the partitions of that period, or unassigned where there is none (R62). -/
def State.apportion (s : State) (k e : Nat) : State :=
  let ws := s.shares k
  let total := ws.foldl (fun n x => n + x.2) 0
  if total = 0 then s.unassigned e
  else s.each (divideBy e ws total 0 0) fun s x => s.partEnergy x.1 k x.2 0 x.2

/-- Every shared energy that waits apportioned, once the reports of its period are in (R62). -/
def State.apportionAll (s : State) : State :=
  s.acct.shared.foldl (fun s x => s.apportion x.1 x.2) { s with acct := { s.acct with shared := [] } }

/-- The energy a die drew over the periods of a gap: equal parts, each attributed by the membership and binding of its own period (R59).
n parts remain, the first for period k. Shared energy waits for the link bytes of its period (R62). -/
def State.gapEnergy (s : State) (d e idle : Nat) : Nat → Nat → State
  | 0, _ => s
  | n + 1, k =>
    let part := e / (n + 1)
    let ip := min part (idle / (n + 1))
    let s1 := if 32 ≤ d then { s with acct := { s.acct with shared := s.acct.shared ++ [(k, part)] } }
      else match s.partIn d k with
      | some p => s.partEnergy p k part ip 0
      | none => s.unassigned part
    s1.gapEnergy d (e - part) (idle - ip) n (k + 1)

/-- Energy reported enters the bin that closed at the last H_m while that is not yet fixed and the period lies before it, else the open
bin (R226, R229; assumption log 45). -/
def State.binEnergy (s : State) (e period : Nat) : State :=
  { s with hearth :=
    match s.hearth.closing with
    | some c =>
      if period ≤ 4000 * s.hearth.ms then { s.hearth with closing := some (c + e) } else { s.hearth with openBin := s.hearth.openBin + e }
    | none => { s.hearth with openBin := s.hearth.openBin + e } }

/-- The cumulative energy of a report in full: by its rise, or by EDIE where the Hall reads that (R59, R75). -/
def State.cumOf (s : State) (d : Nat) (r : Report) : Nat :=
  let h := s.hd d
  if h.readEdie then max h.lastCum (fullCum (s.rd .dagEdieE d) r.cum) else h.lastCum + cumRise h.lastCum r.cum

/-- The accounts take a report's energy by the difference of cumulative values, over the periods since the last report; a report no newer than
that brings nothing (R59, R75). -/
def State.account (s : State) (d : Nat) (r : Report) : State :=
  let h := s.hd d
  if r.period ≤ h.lastRepPeriod then s
  else
    let full := s.cumOf d r
    let e := full - h.lastCum
    let n := r.period - h.lastRepPeriod
    let s0 := if d < 32 && decide (s.svc ≠ svcSteward) then s.noteLinks d r.period r.links else s
    let s1 := s0.gapEnergy d e (r.idleCum - h.lastIdle) n (r.period + 1 - n)
    (s1.binEnergy e r.period).updHd d fun x =>
      { x with lastCum := full, lastIdle := r.idleCum, lastRepPeriod := r.period, readEdie := (s.die d).steward }

/-! ## Applying a grant -/

/-- A divisor request held to what a branch may run: N no lower than 4, no faster than FMAX (R138, R139). The first result is
the divisor, the second says that it was replaced, the third that FMAX replaced it. -/
def State.legalDiv (s : State) (branch : Bool) (d : Nat) : Nat × Bool × Bool :=
  let d1 := clampNat 0x040 0xFF0 d
  let f := s.rd .clkLintelFmax
  let slowest := if f = 0 then 0xFF0 else min 0xFF0 ((153600 + f - 1) / f)
  if branch && decide (d1 < slowest) then (slowest, true, true) else (d1, decide (d1 ≠ d), false)

/-- The governed depth of a branch that slows from divisor d towards t: min(4, ceil(t - d)) (R44, R141). -/
def governed (d t : Nat) : Nat := if d < t then min 4 ((t - d + 15) / 16) else 0

/-- The slowest divisor that excess retired detectors hold a branch to, 0 for none (R158). -/
def State.clampDiv (s : State) (k : Nat) : Nat :=
  if (s.die (k / 4)).droop.clamped.contains (k % 4) then s.rd .dagDrpcfgRetdiv (k / 4) else 0

/-- A die's root PLL is in holdover (R136). -/
def State.holdover (s : State) (d : Nat) : Bool := testBit (s.rd .clkHold) d

/-- Whether the cycles that a domain runs now count as DROOP: its extension is no smaller than its governed depth, which only a CCLK branch
has (R153). -/
def State.droopCounts (s : State) (d k : Nat) : Bool :=
  decide (16 * (if d < 32 then s.rd .clkCbrGdep 0 (4 * d + k) else 0) ≤ s.rd .dagDrpxX d k)

/-- The run of cycles that count alike ends where that changes. -/
def Episode.turn (e : Episode) (counts : Bool) : Episode :=
  if e.counts = counts then e else { e with since := e.since ++ [e.counts], counts }

/-- A domain's episode notes whether its cycles count from now on. -/
def State.noteRun (s : State) (d k : Nat) : State :=
  s.updDie d fun y => { y with droop := { y.droop with
    episodes := y.droop.episodes.map fun e => if e.1 = k then (k, e.2.turn (s.droopCounts d k)) else e } }

/-- A branch's governed depth set, between two notes of its episode. -/
def State.setGdep (s : State) (k v : Nat) : State :=
  ((s.noteRun (k / 4) (k % 4)).wr .clkCbrGdep v 0 k).noteRun (k / 4) (k % 4)

/-- A branch given a target divisor: the governed stretch applies at once, and one deeper than the new target needs is left to the ramp to
release; in the floor state the target is only recorded (R44, R50, R139, R141, R142). -/
def State.setBranch (s : State) (k div : Nat) : State :=
  let l := s.legalDiv true (max (s.clampDiv k) div)
  let s1 := s.wr .clkCbrTgt l.1 0 k
  let s2 := if l.2.1 then s1.wr .clkStatusDivclamp 1 else s1
  let s3 := if l.2.2 then s2.raise (corr 15 2 (unitOf (k / 4) (k % 4)) 8) else s2
  if s.floorOn || s.holdover (k / 4) then s3 else s3.setGdep k (max (s.rd .clkCbrGdep 0 k) (governed (s.rd .clkCbrCur 0 k) l.1))

/-- The governed stretch of a die's branches from where they stand to their targets (R141). -/
def State.rampFrom (s : State) (d : Nat) : State :=
  s.each (branchesOf d) fun s k =>
    if s.floorOn || s.holdover d then s else s.setGdep k (governed (s.rd .clkCbrCur 0 k) (s.rd .clkCbrTgt 0 k))

/-- The fastest target of a die's branches. -/
def State.fastestTgt (s : State) (d : Nat) : Nat :=
  (branchesOf d).foldl (fun m k => min m (s.rd .clkCbrTgt 0 k)) 0xFFF

/-- The V-F table's voltage for integer divisor n, held to the table's ends (R194, R204). -/
def State.vf (s : State) (d n : Nat) : Nat :=
  let i := clampNat 5 32 n - 5
  if i % 2 = 0 then s.rd .dagVfLo d (i / 2) else s.rd .dagVfHi d (i / 2)

/-- The voltage range of a rail type in 0.5 mV (R80). -/
def railRange (r : Nat) : Nat × Nat :=
  (byType r 1100 1400 1400 1400 1500 1900, byType r 1800 1700 1700 1700 1800 2100)

/-- The ceiling of a rail: the lesser of VMAX and the top of its range (R270). -/
def State.ceiling (s : State) (r : Nat) : Nat := min (railRange r).2 (s.rd .rgcVmaxV r)

/-- The fastest integer divisor that may be granted on a compute die: not faster than TOPDIV, and none whose V-F entry lies above the ceiling
(R270). -/
def State.topLimit (s : State) (d : Nat) : Nat :=
  let n0 := max 5 (s.rd .ageDieTopdiv 0 d)
  (((upto 28).map (n0 + ·)).find? fun n => decide (32 ≤ n) || decide (s.vf d n ≤ s.ceiling d)).getD 32

/-- A rail target written by its owner: clamped to the rail's range and to VMAX, with VCLAMP set when it was. VREADY is to be earned again at a new
target (R89, R90). -/
def State.setVid (s : State) (r v : Nat) : State :=
  let lo := (railRange r).1
  let hi := s.ceiling r
  let v1 := max lo (min hi v)
  let s1 := if v1 = s.rd .rgcVidV r then s
    else ((s.wr .rgcVidV v1 r).wr .rgcStatusVready 0 r).updRail r fun x => { x with near := 0 }
  if v1 = v then s1 else s1.wr .rgcStatusVclamp 1 r

/-- A compute die's CCLK domain shows its fastest branch's target, and its VCMP target follows: raised at once, lowered only
when every branch has completed its ramp (R90, R137, R194). In FLOOR, until its die agent has been admitted, and during an ageing measurement
the target is 0.75 V (R16, R89, R267). -/
def State.followVf (s : State) (d : Nat) : State :=
  let t := s.fastestTgt d
  let s1 := s.wr .clkDomTgt t 0 d
  if s.svc = svcFloor || !(s.hd d).admitted || (s.hd d).excl.contains 2 then s1.setVid d 1500
  else
    let v := s.vf d (t / 16)
    let settled := (branchesOf d).all fun k => decide (s.rd .clkCbrTgt 0 k ≤ s.rd .clkCbrCur 0 k)
    if s.rd .rgcVidV d ≤ v || settled then s1.setVid d v else s1

/-- Whether trim may be in force (R206). -/
def State.trimAllowed (s : State) (d : Nat) : Bool :=
  !s.floorOn && !(s.die d).onShare && decide (s.svc = svcFull || s.svc = svcHeld || s.svc = svcSteward)

/-- One core's part of a grant put in force (R29, R187, R196); where FMAX holds its divisor the cause is LINTEL
(R13, R139). A LEVEL event is recorded when its divisor, trim or lever changes (R357). -/
def State.applyCore (s : State) (d c : Nat) (g : CoreGrant) : State :=
  let k := 4 * d + c
  let cause := if (s.legalDiv true (max (s.clampDiv k) g.div)).2.2 then 8 else g.cause
  let changed := decide (s.rd .dagCgrantDiv d c ≠ g.div) || decide (s.rd .dagCgrantTrim d c ≠ g.trim) ||
    decide (s.rd .dagCgrantLever d c ≠ g.lever)
  let s1 := s.puts
    [(⟨.dagCgrantDiv, d, c⟩, g.div), (⟨.dagCgrantTrim, d, c⟩, g.trim), (⟨.dagCgrantLever, d, c⟩, g.lever),
     (⟨.dagCgrantCause, d, c⟩, cause), (⟨.dagCgrantClass, d, c⟩, g.cls), (⟨.dagCallocAlloc, d, c⟩, g.alloc),
     (⟨.dagCallocNeed, d, c⟩, g.need), (⟨.dagTrimlvlLvl, d, c⟩, if s.trimAllowed d then g.trim else 0)]
  let s2 := s1.setBranch k g.div
  if changed then
    s2.trace d 6 c 0 (g.lever % 8 + 2 ^ 3 * g.trim + 2 ^ 5 * cause + 2 ^ 9 * bit (decide (g.lever = 7)))
      (g.div + 2 ^ 12 * g.alloc)
  else s2

/-- Whether an invalidation touches a key (R171). -/
def hitBy (l : List Inval) (k : LKey) : Bool := l.any fun i => if i.whole then i.key.tag = k.tag else i.key = k

/-- A die agent takes a grant at a boundary: STEWARD ends, and the Pantry drops the keys that the grant invalidates (R171, R197, R293). -/
def State.takeGrant (s : State) (d : Nat) (g : Grant) : State :=
  s.updDie d fun x =>
    { x with next := none, applied := some g.period, recorded := none, steward := false, held := 0, onShare := false,
             pantry := x.pantry.filter fun e => !hitBy g.invals e.ent.key,
             overflow := x.overflow.filter fun e => !hitBy g.invals e.ent.key }

/-- The settings of a grant put in force on a compute die: step budget, stewardship share, MAXDLY, and each core's part (R44, R196). -/
def State.useGrant (s : State) (d : Nat) (g : Grant) : State :=
  let s1 := s.puts
    [(⟨.dagGrantG, d, 0⟩, g.g), (⟨.dagGrantSb, d, 0⟩, g.sb), (⟨.dagGrantGen, d, 0⟩, g.gen),
     (⟨.dagStewshSh, d, 0⟩, g.stewsh), (⟨.dagAdmcfgMaxdly, d, 0⟩, g.maxdly)]
  (s1.each g.cores.zipIdx fun s x => s.applyCore d x.2 x.1).followVf d

/-- A grant whose boundary comes in the floor state: recorded with its CDIV targets, and applied when that is released (R49, R142). -/
def State.recordGrant (s : State) (d : Nat) (g : Grant) : State :=
  (s.updDie d fun x => { x with recorded := some g }).each g.cores.zipIdx fun s x =>
    s.wr .clkCbrTgt (s.legalDiv true (max (s.clampDiv (4 * d + x.2)) x.1.div)).1 0 (4 * d + x.2)

/-- A grant applied at a boundary (R44, R49, R171, R196, R293). -/
def State.applyGrant (s : State) (d : Nat) (g : Grant) : State :=
  let s1 := s.takeGrant d g
  if 32 ≤ d then s1 else if s1.floorOn then s1.recordGrant d g else s1.useGrant d g

/-- The grant recorded in the floor state put in force; trim waits for a grant made after the release (R49, R206). -/
def State.useRecorded (s : State) (d : Nat) : State :=
  match (s.die d).recorded with
  | some g => (s.updDie d fun x => { x with recorded := none }).useGrant d { g with cores := g.cores.map fun c => { c with trim := 0 } }
  | none => s

end Sys2Proof.Machine
end

