-- ==== Sys2Proof/Machine/Alloc.lean ====
section
/-!
DEFINITION. Sys2Proof/Machine/Alloc.lean: the period limit (R32 to R43), the allocation of the compute budget among cores (R185 to
R200) and the grants it makes (R34, R196).
-/
namespace Sys2Proof.Machine

/-! ## The electrical envelope -/

/-- The energy of one period at a power of p units, in 2^-16 µJ: 1/8 W for 250 ns is 2 048 of them. -/
def periodE (p : Nat) : Nat := 2048 * p

/-- Bucket A filled by one period; its fill never exceeds its length, and reaching it makes the band full (R39; DESIGN CHOICE, assumption log
81: the rule does not say whether a full bucket fills on). -/
def State.fillA (s : State) : State :=
  let len := s.rd .alcElecmidAlen
  let f := min (s.rd .alcElecbktAfill + 1) len
  let s1 := s.wr .alcElecbktAfill f
  { s1 with lim := { s1.lim with aFull := s1.lim.aFull || decide (len ≤ f) } }

/-- Bucket B filled by one period (R39). -/
def State.fillB (s : State) : State :=
  let len := s.rd .alcElecbaseBlen
  let f := min (s.rd .alcElecbktBfill + 1) len
  let s1 := s.wr .alcElecbktBfill f
  { s1 with lim := { s1.lim with bFull := s1.lim.bFull || decide (len ≤ f) } }

/-- One period at or below BASE: bucket A drains by 1 for every 16 of them, bucket B by 1 for every 4; a fill that returns to 0
ends the full state (R39). -/
def State.drainBuckets (s : State) : State :=
  let a := s.rd .alcElecbktAfill
  let b := s.rd .alcElecbktBfill
  let a' := if s.lim.aDrain = 15 then a - 1 else a
  let b' := if s.lim.bDrain = 3 then b - 1 else b
  let s1 := (s.wr .alcElecbktAfill a').wr .alcElecbktBfill b'
  { s1 with lim := { s1.lim with
      aDrain := if a = 0 then 0 else (s1.lim.aDrain + 1) % 16
      bDrain := if b = 0 then 0 else (s1.lim.bDrain + 1) % 4
      aFull := s1.lim.aFull && decide (a' ≠ 0)
      bFull := s1.lim.bFull && decide (b' ≠ 0) } }

/-- What a granted limit does to the buckets: the bands that it fills, and those that it makes full. -/
def State.grantFill (s : State) (g : Nat) : GrantFill :=
  let a := decide (s.rd .alcElecmidMid < g) && decide (s.rd .alcElecbktAfill < s.rd .alcElecmidAlen)
  let b := decide (s.rd .alcElecbaseBase < g) && decide (s.rd .alcElecbktBfill < s.rd .alcElecbaseBlen)
  { lim := g, a, b
    fullA := a && !s.lim.aFull && decide (s.rd .alcElecmidAlen ≤ s.rd .alcElecbktAfill + 1)
    fullB := b && !s.lim.bFull && decide (s.rd .alcElecbaseBlen ≤ s.rd .alcElecbktBfill + 1) }

/-- A grant's fills taken back: the floor state has been forced in its period, which counts as granted at or below BASE (R32, R39). -/
def State.retract (s : State) (x : GrantFill) : State :=
  let s1 := if x.a then s.wr .alcElecbktAfill (s.rd .alcElecbktAfill - 1) else s
  let s2 := if x.b then s1.wr .alcElecbktBfill (s1.rd .alcElecbktBfill - 1) else s1
  { s2 with lim := { s2.lim with aFull := s2.lim.aFull && !x.fullA, bFull := s2.lim.bFull && !x.fullB } }

/-- The period that has ended and the one that runs count as granted at or below BASE where the floor state has been forced in them (R39). -/
def State.floorGrants (s : State) : State :=
  let s1 := if s.lim.floorEnded then
      let a := s.retract s.lim.glim2
      { a with lim := { a.lim with glim2 := GrantFill.init } }
    else s
  if s1.lim.floorRun then
    let a := s1.retract s1.lim.glim1
    { a with lim := { a.lim with glim1 := GrantFill.init } }
  else s1

/-- The granted limit of a period enters the buckets: each band fills when it lies above the band's floor (R39). -/
def State.bucketGrant (s : State) (g : Nat) : State :=
  let s1 := if s.rd .alcElecmidMid < g then s.fillA else s
  if s1.rd .alcElecbaseBase < g then s1.fillB else s1

/-- The measured energy of a period, granted as g, enters the buckets: a band fills when it lay above the band's floor and the
grant did not, and both drain when grant and energy lay at or below BASE (R39). -/
def State.bucketMeasure (s : State) (e g : Nat) : State :=
  let mid := s.rd .alcElecmidMid
  let base := s.rd .alcElecbaseBase
  let s1 := if periodE mid < e && g ≤ mid then s.fillA else s
  let s2 := if periodE base < e && g ≤ base then s1.fillB else s1
  if g ≤ base && e ≤ periodE base then s2.drainBuckets else s2

/-- A bucket whose length has been lowered to its fill is full (R39, R40). -/
def State.bucketFull (s : State) : State :=
  { s with lim := { s.lim with
      aFull := s.lim.aFull || decide (s.rd .alcElecmidAlen ≤ s.rd .alcElecbktAfill)
      bFull := s.lim.bFull || decide (s.rd .alcElecbaseBlen ≤ s.rd .alcElecbktBfill) } }

/-- elec_ceiling and the code of its band (R39, R51). -/
def State.elecCeiling (s : State) : Nat × Nat :=
  if s.lim.bFull then (s.rd .alcElecbaseBase, 2)
  else if s.lim.aFull then (s.rd .alcElecmidMid, 1)
  else (s.rd .alcElecpkPeak, 0)

/-! ## Burst credit -/

/-- The two headrooms changed. -/
def State.moveHead (s : State) (d30 d1 : Int) : State :=
  { s with lim := { s.lim with head30 := s.lim.head30 + d30, head1 := s.lim.head1 + d1 } }

/-- The two headrooms changed by measured energy and leaving bins, which also run since the last Hearth boundary (R41, R226). -/
def State.addHead (s : State) (d30 d1 : Int) : State :=
  let s1 := s.moveHead d30 d1
  { s1 with lim := { s1.lim with since30 := s.lim.since30 + d30, since1 := s.lim.since1 + d1 } }

/-- Credit in µJ: the lesser headroom, from 1/4 000 of 2^-16 µJ, rounded down (R41; assumption log 13). -/
def State.credit (s : State) : Int := (min s.lim.head30 s.lim.head1) / (65536 * 4000)

/-- ALC.CREDIT shows the credit, signed (R41). -/
def State.showCredit (s : State) : State := s.wr .alcCredit (ofSigned 64 s.credit)

/-- The measured energy of a period taken from both headrooms, and each window's leaving-bin share added (R41). -/
def State.chargeEnergy (s : State) (e : Nat) : State :=
  s.addHead ((s.lim.leave30 : Int) - 4000 * e) ((s.lim.leave1 : Int) - 4000 * e)

/-- The credit reserve: values below 100 000 µJ count as that (R51). -/
def State.creditRsv (s : State) : Nat := max 100000 (s.rd .alcCreditrsvRsv)

/-! ## Charging the period that has ended -/

/-- The energy measured for the period that has ended, from the reports received (R20, R47). -/
def State.measuredNow (s : State) : Nat :=
  (upto 40).foldl (fun n d =>
    match (s.hd d).fresh, (s.hd d).rep, (s.hd d).late with
    | true, some r, _ => n + r.energy
    | false, _, some r => if r.period = s.period then n + r.energy else n
    | _, _, _ => n) 0

/-- Whether a measured energy lies above a limit, if one was formed for its period (R47). -/
def overLimit (lim : Option Nat) (e : Nat) : Bool :=
  match lim with
  | some l => decide (periodE l < e)
  | none => false

/-- The period that has ended is charged: to the headrooms, to the buckets, and as an over-limit when its energy exceeds its
period limit (R39, R41, R47, R48). The last 400 periods are kept for reports that come late. -/
def State.chargePeriod (s : State) : State :=
  let e := s.measuredNow
  let g := s.lim.glim2.lim
  let exceeds := overLimit s.lim.lim2 e
  let s1 := s.chargeEnergy e
  let s2 := (if exceeds then s1.count .alcOvercntCount else s1).bucketMeasure e g
  let p : PastPeriod :=
    { period := s.period, lim := s.lim.lim2, glim := g, energy := e, counted := exceeds
      fillA := decide (s.rd .alcElecmidMid < g) || decide (periodE (s.rd .alcElecmidMid) < e)
      fillB := decide (s.rd .alcElecbaseBase < g) || decide (periodE (s.rd .alcElecbaseBase) < e) }
  { s2 with lim := { s2.lim with past := (p :: s2.lim.past).take 400 } }

/-- Energy of a report that came late, charged when it is received: it leaves the headrooms, and where it lifts its period above a band's
floor or above its own period limit, the band fills by one and the period counts as an over-limit, each once (R20, R39, R47, R48; assumption
log 81). A period not yet charged takes it with the other reports. -/
def State.chargeLate (s : State) (k e : Nat) : State :=
  match s.lim.past.find? fun p => decide (p.period = k) with
  | none => if s.lim.past.all fun p => decide (p.period < k) then s else s.addHead (-(4000 * (e : Int))) (-(4000 * (e : Int)))
  | some p =>
    let total := p.energy + e
    let s1 := s.addHead (-(4000 * (e : Int))) (-(4000 * (e : Int)))
    let a := !p.fillA && decide (periodE (s.rd .alcElecmidMid) < total)
    let b := !p.fillB && decide (periodE (s.rd .alcElecbaseBase) < total)
    let exceeds := !p.counted && overLimit p.lim total
    let s2 := if a then s1.fillA else s1
    let s3 := if b then s2.fillB else s2
    let s4 := if exceeds then s3.count .alcOvercntCount else s3
    let p' := { p with energy := total, counted := p.counted || exceeds, fillA := p.fillA || a, fillB := p.fillB || b }
    { s4 with lim := { s4.lim with past := s4.lim.past.map fun q => if q.period = k then p' else q } }

/-! ## Forming the limit -/

/-- w30_limit: the lesser of the two window limits (R229). -/
def State.w30Limit (s : State) : Nat := min (s.rd .hrtW30limLim) (s.rd .hrtW1limLim)

/-- In COLD, FLOOR and CALIBRATING the limit omits the share and credit (R34). -/
def State.preChain (s : State) : Bool := decide (s.baseSvc < svcFull)

/-- tray_cap: TRAYCAP, and the THROTTLE_N limit while that ball is low in FULL, HELD or STEWARD (R33, R382, R384). The second
result says that the throttle limit stands at or below TRAYCAP (R38). -/
def State.trayCap (s : State) : Nat × Bool :=
  let t := s.rd .alcTraycapCap
  let l := s.rd .govThrottleLim
  if s.lim.throttle && !s.preChain then (min t l, decide (l ≤ t)) else (t, false)

/-- The grains held that enter the limit (R247). -/
def State.grainsHeld (s : State) : Nat := s.rd .chnHoldEff

/-- The sustained level s (R32, R34). -/
def State.sustained (s : State) : Nat :=
  if s.preChain then s.w30Limit else min s.w30Limit (8 * s.grainsHeld)

/-- A change of s or of the W1 limit moves the headrooms at once: credit is s × 30 s - e30 and w1_limit × 1 s - e1 (R43). -/
def State.moveHeads (s : State) : State :=
  let w1 := s.rd .hrtW1limLim
  let k : Int := 65536 * 4000 * 1000000 / 8
  let s1 := s.moveHead (((s.sustained : Int) - s.lim.s) * 30 * k) (((w1 : Int) - s.lim.w1) * k)
  { s1 with lim := { s1.lim with s := s.sustained, w1 } }

/-- The period limit, its cause, and whether credit may be spent (R32 to R34, R38, R42). -/
structure Formed where
  lim : Nat
  cause : Nat
  band : Nat
  spend : Bool
  elec : Nat
  therm : Nat
  deriving DecidableEq, Repr

/-- The cause of the floor state in force: junction trip LINTEL, POWER_ALERT_N ALERT, any other FLOOR (R38). Where every condition has been
released and the state lasts until FULL (R37), the spec names no cause, and FLOOR is taken (DESIGN CHOICE, assumption log 80). -/
def State.floorCause (s : State) : Nat :=
  if s.force.junction then 8 else if s.force.alert then 7 else 12

/-- The period limit formed from every input (R32, R33, R34, R38). A term binds, and is the cause, only while the work asks more than the
limit, as the examples of R50 and R232 have it; in HELD the band is the one of the ceiling at entry where that holds (R51; assumption log 85). -/
def State.formLimit (s : State) (demand : Rat) : Formed :=
  let c := s.elecCeiling
  let elec := match s.lim.heldElec with | some x => min c.1 x | none => c.1
  let therm := match s.lim.heldTherm with | some x => min (s.rd .alcThermlimLim) x | none => s.rd .alcThermlimLim
  let tray := s.trayCap
  let host := s.rd .alcHostcapCap
  let spend := decide (s.svc = svcFull) && decide ((s.creditRsv : Int) ≤ s.credit) && !s.flag .hrtHstatHstale
  let lim0 := min (min elec therm) (min tray.1 host)
  let lim := if spend then lim0 else min lim0 s.sustained
  let cool := !spend && decide (lim = s.w30Limit)
  let share := !spend && !s.preChain && decide (lim = 8 * s.grainsHeld)
  let cause :=
    if s.floorOn then s.floorCause
    else if demand ≤ lim then 0
    else if lim = elec then 1
    else if lim = therm then 2
    else if cool then 3
    else if tray.2 && decide (lim = tray.1) then 7
    else if lim = tray.1 then 6
    else if share then 4
    else 5
  let band := match s.lim.heldElec with | some x => if x < c.1 then s.lim.heldBand else c.2 | none => c.2
  { lim := min lim 0xFFFF, cause, band, spend, elec, therm }

/-! ## Pricing a core -/

/-- The static power of a compute die at voltage v, in power units: leakage at v and t_mean, the memory share held, and the
counter-15 energy of a period at voltage vNow scaled by the voltage (R54, R190). -/
def State.staticOf (s : State) (d v c15 vNow : Nat) : Rat :=
  s.gOwn d * s.leak d v (s.die d).tMean + s.gMem d * s.memHalf d / 2048 + (c15 : Rat) / 2048 * ((v : Rat) / vNow) * ((v : Rat) / vNow)

/-- The same as the Hall has it from the die's last report (R190). -/
def State.staticAt (s : State) (d v : Nat) : Rat :=
  match (s.hd d).rep with
  | some r => s.staticOf d v r.c15 r.vNow
  | none => s.staticOf d v 0 0

/-- A core as the allocation sees it. Powers are exact. -/
structure CoreCalc where
  k : Nat
  part : Nat
  tier : Nat
  wt : Nat
  lender : Bool
  need : Rat
  dy : Rat
  base : Rat
  alloc : Rat
  deriving DecidableEq, Repr

/-- The class of a core; 3 is handled as STANDARD (R186). -/
def State.classOf (s : State) (k : Nat) : Nat :=
  let c := s.rd .alcCclassCls 0 k
  if c = 3 then 1 else c

/-- The weight of a class; 0 is handled as 1 (R186, R203). -/
def State.classWeight (s : State) (c : Nat) : Nat :=
  max 1 (if c = 0 then s.rd .alcClswtBg else if c = 2 then s.rd .alcClswtCrit else s.rd .alcClswtStd)

/-- The asked divisor of a partition, held to ÷5 to ÷24 (R203). -/
def State.askDiv (s : State) (p : Nat) : Nat := clampNat 0x050 0x180 (s.rd .alcPartPolAskdiv 0 p)

/-- The highest trim level of a partition; 3 is handled as 0 (R203). -/
def State.trimMax (s : State) (p : Nat) : Nat :=
  let t := s.rd .alcPartPolTrimmax 0 p
  if t = 3 then 0 else t

/-- The step budget of a partition in A, held to 8 to 64 (R203). -/
def State.stepBudget (s : State) (p : Nat) : Nat := clampNat 8 64 (s.rd .alcPartPol2Stepb 0 p)

/-- A ratio that is 1 where its divisor is 0. -/
def ratio (a b : Rat) : Rat := if b = 0 then 1 else a / b

/-- A compute die is in service: in a partition in force, admitted, and not excluded (R188). -/
def State.inService (s : State) (d : Nat) : Bool :=
  (s.partOf d).isSome && (s.hd d).admitted && !(s.hd d).excluded

/-- A core's part of its die's last report. -/
def State.coreRep (s : State) (k : Nat) : Option CoreReport :=
  match (s.hd (k / 4)).rep with
  | some r => r.cores[k % 4]?
  | none => none

/-- The need of a core and its dynamic part at the asked point: the greater of its two forecast parts, restated at ASKDIV and
VF(ASKDIV) (R189, R190). -/
def State.needOf (s : State) (k p : Nat) : Rat × Rat :=
  let d := k / 4
  let ask := s.askDiv p
  let vask := s.vf d (ask / 16)
  let v := s.rd .rgcVidV d
  let part : Rat := match s.coreRep k with | some c => (max c.fc1 c.fc2 : Nat) | none => 0
  let st : Rat := match (s.hd d).rep with | some r => (r.leakTerm : Rat) / 2048 | none => 0
  let dyn := max 0 (part - st / 4)
  let dy := dyn * ratio (s.rd .clkCbrTgt 0 k) ask * ratio vask v * ratio vask v
  (s.staticAt d vask / 4 + dy, dy)

/-- The price of a core at divisor x, trim level t and voltage v, in power units (R190). -/
def State.price (s : State) (c : CoreCalc) (x t v : Nat) : Rat :=
  let d := c.k / 4
  let ask := s.askDiv c.part
  let vask := s.vf d (ask / 16)
  let sv : Rat := match s.coreRep c.k with
    | some r => (if t = 1 then r.sv1 else if t = 2 then r.sv2 else 0 : Nat) / 256
    | none => 0
  s.staticAt d v / 4 + c.dy * ratio ask x * ratio v vask * ratio v vask * (1 - sv)

/-- The VCMP vref of a die as its last report gave it (R190). -/
def State.repVref (s : State) (d : Nat) : Nat := match (s.hd d).rep with | some r => r.vref | none => s.vref d

/-- The voltage a core is priced at for divisor x: never below the vref in force (R190). -/
def State.priceV (s : State) (d x : Nat) : Nat := max (s.vf d (x / 16)) (s.repVref d)

/-- Whether a core lends: its all-waiting age exceeds LEND.AGE; 0 disables lending (R198). -/
def State.lends (s : State) (k : Nat) : Bool :=
  let lim := s.rd .alcLendAge
  match s.coreRep k with
  | some r => decide (lim ≠ 0) && decide (lim < r.age)
  | none => false

/-! ## The allocation procedure -/

/-- The cores in service with their weights and needs (R188, R189). -/
def State.coresInService (s : State) : List CoreCalc :=
  ((upto 128).filter fun k => s.inService (k / 4)).map fun k =>
    let p := (s.partOf (k / 4)).getD 0
    let n := s.needOf k p
    { k, part := p, tier := s.classOf k, wt := s.classWeight (s.classOf k), lender := s.lends k, need := n.1, dy := n.2,
      base := 0, alloc := 0 }

/-- The sum of a figure over the cores that satisfy a condition. -/
def sumCores (l : List CoreCalc) (f : CoreCalc → Rat) : Rat := sumRat (l.map f)

/-- A partition's share of the budget before and after its cap (R191). -/
def State.partShare (s : State) (cbud : Rat) (l : List CoreCalc) (p : Nat) : Rat × Rat :=
  let all := sumCores l fun c => c.wt
  let own := sumCores (l.filter fun c => c.part = p) fun c => c.wt
  let share := if all = 0 then 0 else cbud * own / all
  (share, min share (s.rd .alcPartCap 0 p))

/-- The base shares and first allocations (R191). -/
def State.firstAlloc (s : State) (cbud : Rat) (l : List CoreCalc) : List CoreCalc :=
  l.map fun c =>
    let own := sumCores (l.filter fun x => x.part = c.part) fun x => x.wt
    let base := (s.partShare cbud l c.part).2 * c.wt / own
    let alloc := if c.lender then s.staticAt (c.k / 4) (s.priceV (c.k / 4) (s.rd .clkCbrTgt 0 c.k)) / 4 else min base c.need
    { c with base, alloc }

/-- The die limit of a compute die: the Hearth's per-die term, the rated current of its VCMP rail times vref, and in HELD the
power grant of its last grant before HELD; with the cause of the least (R34, R99, R192). That the ceiling of HELD is charged to HOST is a DESIGN
CHOICE (assumption log 78). -/
def State.dieLimit (s : State) (d : Nat) : Rat × Nat :=
  let term : Rat := s.rd .hrtDieTerm 0 d
  let phases := s.rd .rgcCfgPhcnt d - (s.phasesOut.filter fun x => x.1 = d).length
  let rated : Rat := (70 * phases : Nat) * (s.repVref d : Rat) / 2000 * 8
  let held : Rat := if s.baseSvc = svcHeld then (s.hd d).heldG else 0xFFFF
  if rated ≤ term && rated ≤ held then (rated, 1) else if term ≤ held then (term, 2) else (held, 5)

/-- The cores of one die. -/
def ofDie (l : List CoreCalc) (d : Nat) : List CoreCalc := l.filter fun c => c.k / 4 = d

/-- The first allocations cut in proportion where a die's sum lies above its die limit (R192). -/
def State.cutDies (s : State) (l : List CoreCalc) : List CoreCalc :=
  l.map fun c =>
    let lim := s.dieLimit (c.k / 4)
    let tot := sumCores (ofDie l (c.k / 4)) fun x => x.alloc
    if lim.1 < tot then { c with alloc := c.alloc * lim.1 / tot } else c

/-- Amounts asked for, held to the room left on each die and then in each partition by cutting in proportion (R191, R192). -/
def State.boundAsks (s : State) (l : List CoreCalc) (ask : List (CoreCalc × Rat)) : List (CoreCalc × Rat) :=
  let byDie := ask.map fun x =>
    let d := x.1.k / 4
    let room := max 0 ((s.dieLimit d).1 - sumCores (ofDie l d) fun c => c.alloc)
    let tot := sumRat ((ask.filter fun y => y.1.k / 4 = d).map fun y => y.2)
    (x.1, if room < tot then x.2 * room / tot else x.2)
  byDie.map fun x =>
    let p := x.1.part
    let room := max 0 ((s.rd .alcPartCap 0 p : Rat) - sumCores (l.filter fun c => c.part = p) fun c => c.alloc)
    let cap : Rat := if s.rd .alcPartCap 0 p = 0xFFFF then sumRat (byDie.map fun y => y.2) else room
    let tot := sumRat ((byDie.filter fun y => y.1.part = p).map fun y => y.2)
    (x.1, if cap < tot then x.2 * cap / tot else x.2)

/-- Amounts given to cores out of a pool, each at most what it asks and in proportion where the pool falls short. -/
def giveOut (l : List CoreCalc) (ask : List (CoreCalc × Rat)) (pool : Rat) : List CoreCalc × Rat :=
  let tot := sumRat (ask.map fun x => x.2)
  let part (x : Rat) : Rat := if tot ≤ pool then x else x * pool / tot
  (l.map fun c => match ask.find? fun x => x.1.k = c.k with
    | some x => { c with alloc := c.alloc + part x.2 }
    | none => c, pool - min pool tot)

/-- One tier served from the pool (R191). -/
def State.serveTier (s : State) (lp : List CoreCalc × Rat) (tier : Nat) : List CoreCalc × Rat :=
  let l := lp.1
  let ask := (l.filter fun c => c.tier = tier && !c.lender && decide (c.alloc < c.need)).map fun c => (c, c.need - c.alloc)
  giveOut l (s.boundAsks l ask) lp.2

/-- The allocations of a period: base shares, die limits, tiers from CRITICAL down, and what is left spread in proportion to
base shares (R191). -/
def State.allocate (s : State) (cbud : Rat) : List CoreCalc :=
  let l := s.cutDies (s.firstAlloc cbud s.coresInService)
  let pool := max 0 (cbud - sumCores l fun c => c.alloc)
  let lp := [2, 1, 0].foldl s.serveTier (l, if l.isEmpty then 0 else pool)
  let bases := sumCores lp.1 fun c => c.base
  let ask := lp.1.map fun c => (c, if bases = 0 then 0 else lp.2 * c.base / bases)
  (giveOut lp.1 (s.boundAsks lp.1 ask) lp.2).1

/-! ## The levers -/

/-- The fastest divisor from a first one, in 1/16 steps, at which a core's price is within its alloc; n steps are tried. -/
def State.fitFrom (s : State) (c : CoreCalc) (t : Nat) (v : Option Nat) : Nat → Nat → Option Nat
  | 0, _ => none
  | n + 1, x =>
    let pv := match v with | some u => u | none => s.priceV (c.k / 4) x
    if s.price c x t pv ≤ c.alloc then some x else s.fitFrom c t v n (x + 1)

/-- Divisors from one to another in 1/16 steps. -/
def stepsTo (a b : Nat) : Nat := b + 1 - a

/-- A core's alloc lies below its price at the lowest working point: ÷24, TRIMMAX and VF(24) (R195). -/
def State.starved (s : State) (c : CoreCalc) : Bool :=
  !c.lender && decide (c.alloc < s.price c 0x180 (s.trimMax c.part) (s.vf (c.k / 4) 24))

/-- A core's divisor, trim level and lever by steps 1 to 4 of R193, with R195 and R198. -/
def State.lever (s : State) (c : CoreCalc) : Nat × Nat × Nat :=
  let p := c.part
  let ask := s.askDiv p
  let tm := if s.trimAllowed (c.k / 4) then s.trimMax p else 0
  if c.lender then (s.rd .clkCbrTgt 0 c.k, 0, 7)
  else if s.starved c then (0x180, tm, 6)
  else if c.need ≤ c.alloc then (ask, 0, if c.need ≤ c.base then 0 else 1)
  else if c.need - c.alloc ≤ (s.rd .alcPartPol2Dlypct 0 p : Rat) / 256 * c.need then (ask, 0, 2)
  else
    let floorD := s.rd .alcPartPolFloordiv 0 p
    let d0 := (s.fitFrom c 0 none (stepsTo ask 0x180) ask).getD 0x181
    let fits (t : Nat) : Bool := (s.fitFrom c t none (stepsTo ask (min floorD 0x180)) ask).isSome
    let t := if d0 ≤ floorD || tm = 0 then 0 else if fits 1 then 1 else tm
    let x := (s.fitFrom c t none (stepsTo ask 0x180) ask).getD 0x180
    (x, t, if x = ask then 3 else 4)

/-- The slowest divisor that a clamp of R158, TOPDIV or the rail's ceiling holds a core to (R158, R270). -/
def State.clampOf (s : State) (k : Nat) : Nat := max (s.clampDiv k) (16 * s.topLimit (k / 4))

/-- The cause that bound a core which runs slower than it asked: ELEC where a clamp holds its divisor, the cause of its die limit or the cap
of its partition where the sum of the allocations has reached that, else the package cause (R158, R192, R196). -/
def State.boundCause (s : State) (pkgCause : Nat) (l : List CoreCalc) (c : CoreCalc) (clamped : Bool) : Nat :=
  let d := c.k / 4
  let lim := s.dieLimit d
  let cap := s.rd .alcPartCap 0 c.part
  if clamped then 1
  else if lim.1 ≤ sumCores (ofDie l d) fun y => y.alloc then lim.2
  else if cap ≠ 0xFFFF && decide ((cap : Rat) ≤ sumCores (l.filter fun y => y.part = c.part) fun y => y.alloc) then 5
  else pkgCause

/-- The settings of one die's cores: steps 1 to 4 for each, then step 5 prices every core at the voltage of the fastest, and
the lever reads VOLTAGE below VF(ASKDIV) (R193, R194, R195). -/
def State.dieSettings (s : State) (pkgCause : Nat) (l : List CoreCalc) (d : Nat) : List CoreGrant :=
  let first := (ofDie l d).map fun c => (c, s.lever c)
  let fast := first.foldl (fun m x => min m x.2.1) 0x180
  let v := s.priceV d fast
  first.map fun x =>
    let c := x.1
    let ask := s.askDiv c.part
    let own := if x.2.2.2 = 7 || x.2.2.2 = 6 || x.2.1 = ask then x.2.1
      else (s.fitFrom c x.2.2.1 (some v) (stepsTo x.2.1 0x180) x.2.1).getD 0x180
    let div := max (s.clampOf c.k) own
    let lever := if x.2.2.2 = 7 || x.2.2.2 = 6 || div = ask then x.2.2.2
      else if v < s.vf d (ask / 16) then 5 else 4
    { div, trim := x.2.2.1, lever, cause := if div = ask then 0 else s.boundCause pkgCause l c (decide (own < div)), cls := s.classOf c.k,
      alloc := min 0xFFFF c.alloc.floor.toNat, need := min 0xFFFF (roundNat 6 c.need) }

/-! ## What the work asks -/

/-- The forecast of a die of 32 to 39 (R176, R188). -/
def State.sharedDemand (s : State) (d : Nat) : Nat := match (s.hd d).rep with | some r => (r.fc[0]?).getD 0 | none => 0

/-- The reserve: the forecasts of dies 32 to 39, and the last period power of compute dies with no core in service (R188). -/
def State.reserve (s : State) : Nat :=
  (upto 40).foldl (fun n d =>
    if 32 ≤ d then n + s.sharedDemand d
    else if s.inService d then n
    else n + s.rd .dagEpwrPer d) 0

/-- What the package's work asks for: the forecasts of dies 32 to 39, the draw of the compute dies at fixed settings, and the needs of the
cores in service, of which a lender asks its static part (R38, R188, R189). -/
def State.demand (s : State) : Rat :=
  if s.preChain then
    (((upto 32).foldl (fun n d => n + s.rd .dagEpwrPer d) 0 + (upto 40).foldl (fun n d => if d < 32 then n else n + s.sharedDemand d) 0 : Nat) : Rat)
  else (s.reserve : Rat) + sumCores s.coresInService fun c => if c.lender then c.need - c.dy else c.need

end Sys2Proof.Machine
end

