-- ==== Sys2Proof/Machine/FastLoop.lean ====
section
/-!
DEFINITION. Sys2Proof/Machine/FastLoop.lean: the fast period: the boundary (R19, R44, R53 to R63, R166, R198, R201, R205, R213),
reports (R20), the sampling instant (R32 to R43, R52, R188 to R200), grants (R197) and the commanders' edges (R21, R36, R382).
-/
namespace Sys2Proof.Machine

/-! ## The boundary: what one die agent latches -/

/-- What a die agent latches when nothing is given for it: no counts, and its rails as they were last sensed. -/
def State.quiet (s : State) (d : Die) : DieInput :=
  { die := d, vOwn := (s.rail (ownRail d.val)).vs, vMem := (s.rail (32 + d.val / 2)).vs, vPhy := (s.rail (56 + (d.val - 32))).vs,
    acts := [], runs := [], waits := [] }

/-- The counts of a period entered for the partition of the die (R53, R350). -/
def State.tallyActs (s : State) (i : DieInput) : State :=
  s.each i.acts fun s a =>
    match ctrStat a.ctr.val with
    | some q => if ctrPresent i.die.val a.ctr.val then s.tallyDie i.die.val q a.n else s
    | none => s

/-- The trim level at which a core was engaged in the period: the highest effective level of its multiplies (R213). -/
def State.engagedLevel (s : State) (i : DieInput) (c : Nat) : Nat :=
  (i.acts.filter fun a => a.core.val = c && decide (a.ctr.val < 6) && decide (a.n ≠ 0)).foldl (fun m a => max m (s.actLevel i.die.val a)) 0

/-- The members of a list, each once. -/
def distinct : List Nat → List Nat
  | [] => []
  | x :: l => x :: (distinct l).filter (· ≠ x)

/-- Whether counts are of trimmed multiplies: FP4 and INT8 are never trimmed (R207, R210). -/
def State.trimmed (s : State) (d : Nat) (a : Act) : Bool :=
  decide (a.ctr.val < 6) && decide (a.ctr.val ≠ 2) && decide (a.ctr.val ≠ 5) && decide (s.actLevel d a ≠ 0) && decide (a.n ≠ 0)

/-- Engaged trim counted for a core and for the queues whose descriptors issued trimmed multiplies (R213). -/
def State.countTrim (s : State) (i : DieInput) (c : Nat) : State :=
  let d := i.die.val
  let l := s.engagedLevel i c
  let s1 := if l = 1 then (s.count .dagTrimt1 1 d c).tallyDie d .trimT1 1
    else if l = 2 then (s.count .dagTrimt2 1 d c).tallyDie d .trimT2 1 else s
  let qs := (i.acts.filter fun a => a.core.val = c && s.trimmed d a).map fun a => a.queue.val
  s1.each (distinct qs) fun s q => s.count .qeaTrimt 1 (queueNo d c q)

/-- The throttle cause a core is charged to for the period, 0 for none (R72). A core whose clock, after stretch, is below the asked one while
neither its grant nor a droop accounts for that (it still ramps up) is charged to the cause of its grant, NONE included (DESIGN CHOICE,
assumption log 83). -/
def State.throttleCause (s : State) (i : DieInput) (c : Nat) : Nat :=
  let d := i.die.val
  let k := 4 * d + c
  let ask := match s.partOf d with | some p => s.askDiv p | none => 0x180
  if ask < s.rd .clkCbrCur 0 k + 16 * s.rd .clkCbrGdep 0 k then
    if s.floorOn then s.floorCause
    else if s.svc = svcFloor || s.svc = svcCalibrating || s.svc = svcSteward then 12
    else s.rd .dagCgrantCause d c
  else if (s.die d).droop.hit.contains c then 9
  else if (s.die d).admHit.contains c || (s.die d).adm.reqs.any fun r => r.core = c && r.hit then 10
  else if s.engagedLevel i c ≠ 0 then 11
  else 0

/-- One core-period charged to its throttle cause, for a core with a busy engine (R72). -/
def State.chargeThrottle (s : State) (i : DieInput) (c : Nat) : State :=
  let cause := s.throttleCause i c
  if (busyEngines i c).isEmpty || cause = 0 then s else s.tallyDie i.die.val (.thr cause) 1

/-- What WAIT_FEED gives for a core: what is latched for it, or what its windows and RUNNING say. A core with no descriptor in any window and
no engine running reports as waiting, with the collective-bound flag clear (R198). -/
def State.feedOf (s : State) (i : DieInput) (c : Core) : WaitFeed :=
  let free (e : Nat) : Bool :=
    (Store.get (fun _ => ([] : List WinDesc)) (s.die i.die.val).windows (c.val * 6 + e)).isEmpty && decide (busyCycles i c.val e = 0)
  let n := ((upto 6).filter free).length
  (i.waits.find? fun w => w.core = c).getD
    { core := c, count := if n = 6 then 6 else Fin.ofNat 7 n, obj := 0, eng := 0, coll := false, all := decide (n = 6), sync := [] }

/-- A core's wait feed shown, with its age: up by one where all six engines waited for the whole period, else 0 (R198). -/
def State.showWait (s : State) (d : Nat) (w : WaitFeed) : State :=
  let c := w.core.val
  let age := if w.all then min 255 (s.rd .dagWaitAge d c + 1) else 0
  s.puts [(⟨.dagWaitCount, d, c⟩, w.count.val), (⟨.dagWaitObj, d, c⟩, w.obj.val), (⟨.dagWaitEng, d, c⟩, w.eng.val),
          (⟨.dagWaitColl, d, c⟩, bit w.coll), (⟨.dagWaitAge, d, c⟩, age)]

/-- The energy of the period entered in the die agent's counters and shown (R54, R59, R61, R77). -/
def State.countEnergy (s : State) (i : DieInput) : State :=
  let d := i.die.val
  let parts := wholeParts (s.payees i) 0 0
  let e := if d < 32 then parts.foldl (fun n x => n + x.2) 0 else roundNat 1 (s.dieEnergy i)
  let raw := s.rawOwnMem i
  let dyn := (upto 4).map fun c => roundNat 7 (sumRat ((upto 6).map (s.engineDyn i c)))
  let st := roundNat 8 (s.staticEnergy i)
  let c15 := roundNat 4 (sumRat ((i.acts.filter fun a => a.ctr.val = 15).map (s.actEnergy i)))
  let nodes := (s.nodeParts i).map (roundNat 25)
  let s1 := s.each parts fun s x => s.pay d x
  let s2 := s1.updDie d fun x =>
    { x with cum := x.cum + e, perEnergy := e, perStatic := st, coreDyn := dyn, perC15 := c15, perV := i.vOwn, msEnergy := x.msEnergy + e,
             telSum := x.telSum + e,
             rawOwn := x.rawOwn + roundNat 9 raw.1, rawMem := x.rawMem + roundNat 9 raw.2,
             msNodes := List.zipWith (· + ·) x.msNodes nodes }
  (s2.wr .dagEdieE ((s2.die d).cum / 65536) d).wr .dagEpwrPer (min 0xFFFF (roundNat 10 ((e : Rat) / 2048))) d

/-- A telemetry interval ends at a boundary that is a multiple of its length; a changed DECIM takes effect at a multiple of the longer of the
two intervals (R65, R68). -/
def State.endTel (s : State) (d : Nat) : State :=
  let n := 2 ^ s.telDecim
  if s.period % n ≠ 0 then s
  else
    let want := s.rd .obsTelcfgDecim
    s.updDie d fun x =>
      { x with telSum := 0
               telDue := x.telDue ++ [{ t0 := 250 * (s.period - n), sum := x.telSum, decim := s.telDecim
                                        last := decide (want ≠ s.telDecim) && decide (s.period % 2 ^ want = 0) }] }

/-- The sample interval in force from a boundary (R68). -/
def State.newDecim (s : State) : State :=
  let want := s.rd .obsTelcfgDecim
  if want ≠ s.telDecim && decide (s.period % 2 ^ max want s.telDecim = 0) then { s with telDecim := want } else s

/-- Whether the Hall learns in the present service state (R167). -/
def State.learning (s : State) : Bool := s.flag .lrdCfgLearn && decide (s.svc = svcFull || s.svc = svcHeld)

/-- Up to 16 update records sent to both Halls, the active one's queue and a ready standby's replay buffer; while the Hall does not learn
they are discarded without count (R166, R167, R177). -/
def State.sendUpdates (s : State) (d : Nat) : State :=
  let buf := (s.die d).updBuf
  if buf.isEmpty then s
  else if !s.learning || (s.die d).steward then s.updDie d fun x => { x with updBuf := [] }
  else
    let out := ((buf.take 16).zipIdx).map fun x => { x.1 with seq := s.lard.recIn + x.2 + 1 }
    let s1 := s.updDie d fun x => { x with updBuf := buf.drop 16 }
    let rep := if s.flag .govHallStbyrdy then s1.lard.replay ++ out else s1.lard.replay
    let ovf := rep.length - 16384
    let s2 := { s1 with lard := { s1.lard with updates := s1.lard.updates ++ out, replay := rep.drop ovf,
                                               recIn := s1.lard.recIn + out.length } }
    if ovf = 0 then s2 else (s2.wr .lrdMirrorOvf 1).raise (corr 3 3 (41 - s.active) 0)

/-- A window's head as the period leaves it: whether it waits on synchronisation; and, of what its engine ran of its queue in the period, the
cycles and the energy that descriptors completed since the last boundary did not draw (R30, R163, R175). -/
def State.trackHead (s : State) (i : DieInput) (eng : Nat) (w : WinDesc) : WinDesc :=
  let d := i.die.val
  let before := (s.die d).done.filter fun x => x.eng = eng && x.queue = w.queue
  let ran : Nat := (i.runs.filter fun r => r.core.val * 6 + r.eng.val = eng && r.queue.val = w.queue).foldl (fun n r => n + r.cycles) 0
  let n : Nat := ran - before.foldl (fun n x => n + x.cycles) 0
  let runs := w.running || decide (n ≠ 0)
  { w with waiting := i.waits.any fun x => decide (x.core.val = eng / 6) && x.sync.any fun y => decide (y.val = eng % 6)
           running := runs, cycles := w.cycles + n
           energy := if runs then w.energy + (s.normOf d eng w.queue i.acts - sumRat (before.map fun x => x.energy)) else w.energy }

/-- The lookahead windows at a boundary: heads tracked, and descriptors first forecast with the default counted (R163, R175, R184). -/
def State.trackWindows (s : State) (i : DieInput) : State :=
  let d := i.die.val
  let mark (w : WinDesc) : WinDesc := { w with defaulted := w.defaulted || (s.entryOf d w).isNone }
  let ws := (s.die d).windows
  let ws' := ws.map fun x => (x.1, (match x.2 with
    | [] => []
    | w :: l => s.trackHead i x.1 w :: l).map mark)
  let count (l : Store Nat (List WinDesc)) : Nat :=
    l.foldl (fun n x => n + (x.2.filter fun w => w.defaulted).length) 0
  let s1 := s.updDie d fun x => { x with windows := ws', done := [] }
  s1.count .dagPntdef (count ws' - count ws) d

/-- Trim falls to 0 where it may not be in force (R206). -/
def State.dropTrim (s : State) (d : Nat) : State :=
  if d < 32 && !s.trimAllowed d then s.each (upto 4) fun s c => s.wr .dagTrimlvlLvl 0 d c else s

/-! ## Stewardship (R201) -/

/-- A die's last period estimate repriced with every branch at a trial divisor, in power units: the static part of that period, and each core's
dynamic energy in it (R190, R201). -/
def State.stewardPower (s : State) (d : Nat) (divs : List Nat) : Rat :=
  let fast := divs.foldl min 0xFFF
  let v := max (s.vf d (fast / 16)) (s.vref d)
  let v0 := (s.die d).perV
  s.staticOf d v (s.die d).perC15 v0 + sumRat (divs.zipIdx.map fun x =>
    ((((s.die d).coreDyn[x.2]?).getD 0 : Nat) : Rat) / 2048 * ratio (s.rd .clkCbrCur 0 (4 * d + x.2)) x.1 *
      ratio v v0 * ratio v v0)

/-- The fastest branch of a list slowed by one 1/16 step, the lowest-numbered of equals. -/
def slowFastest (divs : List Nat) : List Nat :=
  let m := divs.foldl min 0xFFF
  let k := divs.findIdx fun x => x = m
  divs.zipIdx.map fun x => if x.2 = k then min 0x200 (x.1 + 1) else x.1

/-- The divisors that fit the stewardship share, found by slowing the fastest branch one step at a time; n steps at most. -/
def State.stewardDivs (s : State) (d : Nat) : Nat → List Nat → List Nat
  | 0, l => l
  | n + 1, l =>
    if s.stewardPower d l ≤ s.rd .dagStewshSh d || l.all fun x => x = 0x200 then l
    else s.stewardDivs d n (slowFastest l)

/-- A die agent that holds its stewardship share sets its branches to fit it, each period, no trim engaged and nothing lent. A period whose
estimate exceeds the share with every branch at ÷32 is noted, to be charged when a Hall next admits the die. A die agent not yet admitted keeps
the FLOOR settings (R16, R201, R206). -/
def State.stewardSet (s : State) (d : Nat) : State :=
  if !(s.hd d).admitted then s
  else
    let l := s.stewardDivs d 1740 ((upto 4).map fun c => s.rd .dagCgrantDiv d c)
    let above := decide ((s.rd .dagStewshSh d : Rat) < s.stewardPower d l)
    let s1 := (s.wr .dagGrantG (s.rd .dagStewshSh d) d).updDie d fun x => { x with shareOver := x.shareOver + bit above }
    let s2 := s1.each l.zipIdx fun s x => (s.setBranch (4 * d + x.2) x.1).wr .dagTrimlvlLvl 0 d x.2
    s2.followVf d

/-! ## The boundary -/

/-- One die agent at a boundary: it latches its counts and charges them, applies the grant it has received or goes on holding,
and puts its report on both lanes (R19, R44, R197, R201). -/
def State.boundaryDie (s : State) (i : DieInput) : State :=
  let d := i.die.val
  if !(s.die d).powered then s
  else
    let s1 := (s.tallyActs i).countEnergy i
    let s2 := if d < 32 then
        s1.each (upto 4) fun s c => (s.countTrim i c).chargeThrottle i c
      else s1
    let s2 := if d < 32 then s2.each (List.finRange 4) fun s c => s.showWait d (s.feedOf i c) else s2
    let s3 := ((s2.endTel d).trackWindows i).updDie d fun x =>
      { x with admHit := [], traceTokens := min 1776 (x.traceTokens + 250)
               droop := { x.droop with hit := x.droop.episodes.map fun e => e.1 }
               adm := { x.adm with chargeNow := 0, chargeLast := x.adm.chargeNow
                                   reqs := x.adm.reqs.map fun r => { r with hit := false } } }
    let s4 := match (s3.die d).next with
      | some g => s3.applyGrant d g
      | none =>
        if (s3.die d).steward then
          let s' := s3.updDie d fun x => { x with held := x.held + 1 }
          if (s'.die d).onShare && decide (d < 32) then s'.stewardSet d else s'
        else s3
    let s5 := (s4.dropTrim d).sendUpdates d
    let r := s5.report i
    s5.updDie d fun x => { x with trimRun := (upto 4).map fun c => s5.rd .dagTrimlvlLvl d c, laneA := x.laneA ++ [r], laneB := x.laneB ++ [r], acks := [] }

/-- The input of a die: the one given, or a quiet one. -/
def State.inputOf (s : State) (ins : List DieInput) (d : Die) : DieInput :=
  (ins.find? fun i => i.die = d).getD (s.quiet d)

/-- The membership of every partition recorded for the period that starts, where it has changed (R59). -/
def State.recordMembers (s : State) : State :=
  s.each (upto 16) fun s p =>
    let m := if s.inForce p then s.rd .alcPartDies 0 p else 0
    match (s.part p).history.head? with
    | some h => if h.2 = m then s else s.updPart p fun x => { x with history := (s.period + 1, m) :: x.history }
    | none => if m = 0 then s else s.updPart p fun x => { x with history := [(s.period + 1, m)] }

/-- No die agent is in STEWARD any more: the service state beneath it returns (R293). -/
def State.leaveSteward (s : State) : State :=
  if s.svc = svcSteward && (upto 40).all fun d => !(s.die d).steward then
    (s.wr .fltStatusSteward 0).setSvc s.svcUnder
  else s

/-- A partition's open statement interval marked: UPDATE while a live update is in progress, UNCAL while a die of it lacks CONV or the package
is outside FULL, STEWARD while one of its dies is in it (R71, R75, R76). -/
def State.flagInterval (s : State) (p : Nat) : State :=
  let upd := s.inUpdate
  let uncal := decide (s.svc ≠ svcFull) || (s.diesOf p).any fun d => !s.flag .dagEcalConv d
  let stew := (s.diesOf p).any fun d => (s.die d).steward
  if upd || uncal || stew then s.updPart p fun x => { x with flags := x.flags ||| (4 * bit upd + 8 * bit uncal + 16 * bit stew) } else s

/-- The bin that closed at the last H_m is fixed: it joins the windows, e1 and e30 show it, the headrooms run from here, and the bins that
leave the windows in this millisecond are known (R41, R226, R229, R230). -/
def State.fixBin (s : State) : State :=
  match s.hearth.closing with
  | none => s
  | some b =>
    let h := s.hearth
    let e1 := h.e1 + b - (h.bins[999]?).getD 0
    let e30 := h.e30 + b - (h.bins[29999]?).getD 0
    let bins := (b :: h.bins).take 30000
    let s1 := { s with
      hearth := { h with bins, e1, e30, closing := none, secPeak := max h.secPeak b }
      lim := { s.lim with since30 := 0, since1 := 0, leave30 := (bins[29999]?).getD 0, leave1 := (bins[999]?).getD 0 } }
    (s1.wr .hrtE1 (e1 / 65536)).wr .hrtE30 (e30 / 65536)

/-- Frozen counters show their live copies again, and the sequence numbers of sets that fell due advance once (R353). -/
def State.unfreeze (s : State) : State :=
  if s.frozen.isNone then s
  else
    let s1 := { s with frozen := none, thaw := false, perDue := false, winDue := false, jobDue := [] }.wr .obsFrzctlFrozen 0
    s1.each (upto 16) fun a p =>
      let a1 := if s.perDue then a.wr .viewPerseq (a.rd .viewPerseq p + 1) p else a
      let a2 := if s.winDue then a1.wr .viewWinseq (a1.rd .viewWinseq p + 1) p else a1
      if s.jobDue.contains p then a2.wr .viewJobseq (a2.rd .viewJobseq p + 1) p else a2

/-- Targets of VCMP rails written in FLOOR and held are put in force at the first boundary after it has ended (R89; assumption log 94). -/
def State.takeVids (s : State) : State :=
  if s.svc = svcFloor then s
  else s.each (upto 32) fun s r => match (s.rail r).heldV with
    | some v => (s.setVid r v).updRail r fun x => { x with heldV := none }
    | none => s

/-- A fast-period boundary, at which a freeze that has been thawed ends (R353). -/
def State.boundary (s : State) (ins : List DieInput) : State :=
  let b := max (s.period + 1) ((s.now + 249) / 250)
  let s0 := if s.thaw then s.unfreeze else s
  let s1 := { s0.fixBin.advanceTo (250 * b) with period := b }
  let s1 := { s1 with lim := { s1.lim with floorEnded := s1.lim.floorRun, floorRun := s1.floorOn } }
  let s2 := s1.takeVids.each ((List.finRange 40).map (s1.inputOf ins)) State.boundaryDie
  let s3 := s2.newDecim.recordMembers.leaveSteward
  s3.each s3.partsInForce State.flagInterval

end Sys2Proof.Machine
end

