-- ==== Sys2Proof/Machine/Period.lean ====
section
/-!
DEFINITION. Sys2Proof/Machine/Period.lean: the meanings of the fast loop's commands: boundaries, reports, the sampling instant,
grants, beacons received, STEWARD, and the edges of POWER_ALERT_N and THROTTLE_N.
-/
namespace Sys2Proof.Machine

/-- PERIOD_BOUNDARY: every die agent with power applies its grant, latches its counts and sends its report (R19). -/
def execPeriodBoundary (ins : List DieInput) (s : State) : Host.Outcome State Fault Refusal :=
  s.run fun s => s.boundary ins

/-! ## Reports -/

/-- The lane of a die to a Hall. -/
def DieState.laneTo (x : DieState) (h : Hall) : List Report := if h.val = 0 then x.laneA else x.laneB

/-- The head report of a lane taken off it. -/
def DieState.takeLane (x : DieState) (h : Hall) : DieState :=
  if h.val = 0 then { x with laneA := x.laneA.drop 1 } else { x with laneB := x.laneB.drop 1 }

/-- A report not used for its period: counted, and the die keeps its previous grant (R20). -/
def State.lateReport (s : State) (d : Nat) : State := s.count .dagStatusLaterep 1 d

/-- An acknowledgement in a report: it counts only for the change in flight (R290, R291). -/
def State.noteAcks (s : State) (d : Nat) (acks : List Nat) : State :=
  match s.change with
  | some c =>
    if acks.contains c.gen && !c.acked.contains d then
      { s.wr .fltCmtmapAck (s.rd .fltCmtmapAck + if testBit (s.rd .fltCmtmapAck) d then 0 else 2 ^ d) with
        change := some { c with acked := c.acked ++ [d] } }
    else s
  | none => s

/-- What a die agent held in STEWARD, delivered: its fault reports, and the periods above its share as over-limits (R201, R293). -/
def State.deliverHeld (s : State) (d : Nat) : State :=
  let fs := (s.die d).faultHold
  if (s.die d).steward then s
  else
    ((s.count .alcOvercntCount (s.die d).shareOver).updDie d fun x => { x with faultHold := [], shareOver := 0 }).each fs fun s f => s.raise f

/-- A core-period is collective-waiting when its age is at least 1 and its oldest wait is collective-bound (R200). -/
def collWaiting (r : Report) : Nat := (r.cores.filter fun c => decide (1 ≤ c.age) && c.coll).length

/-- A report in time at the active Hall: kept for the sampling instant and entered in the accounts (R20, R59). -/
def State.useReport (s : State) (d : Nat) (r : Report) : State :=
  let s1 := (s.account d r).updHd d fun x =>
    { x with rep := some r, fresh := true, silent := 0 }
  let s2 := (s1.noteAcks d r.acks).deliverHeld d
  if r.fatalReq then s2.failsafe 17 (unitOf d 0) else s2

/-- REPORT_RECEIVED (R20, R59, R287). -/
def State.reportIn (s : State) (h : Hall) (d : Nat) (parityOk late : Bool) : State :=
  match ((s.die d).laneTo h).head? with
  | none => s
  | some r =>
    let s1 := s.updDie d fun x => x.takeLane h
    let toActive := decide (h.val = s.active)
    let hit := toActive && s1.inject.lanes.contains d
    let s2 := if hit then { s1 with inject := { s1.inject with lanes := s1.inject.lanes.filter (· ≠ d) } } else s1
    if !parityOk || hit then
      let s3 := s2.raise (corr 1 1 (unitOf d h.val) 3)
      if toActive then s3.lateReport d else s3
    else if r.gen ≠ (s.die d).gen || !toActive then s2
    else if late then
      (((s2.fixBin.lateReport d).account d r).chargeLate r.period r.energy).updHd d fun x => { x with silent := 0, late := some r }
    else s2.useReport d r

def execReportReceived (hall : Hall) (die : Die) (parityOk late : Bool) (s : State) : Host.Outcome State Fault Refusal :=
  s.run fun s => s.reportIn hall die.val parityOk late

/-! ## The sampling instant -/

/-- A compute die at the release of the floor state: the grant recorded meanwhile is applied, and its branches ramp from ÷32, with a governed
stretch where a target lies beyond that (R37, R49, R141). -/
def State.releaseDie (s : State) (d : Nat) : State :=
  ((s.wr .clkDomForced (bit (s.holdover d)) 0 d).useRecorded d).rampFrom d

/-- Every forcing condition released in FULL: the floor state ends (R37). -/
def State.floorRelease (s : State) : State :=
  if s.floorOn && !s.floored && decide (s.svc = svcFull) then
    ({ s with floorOn := false }).each (upto 32) State.releaseDie
  else s

/-- The grains held (R246). -/
def State.holding (s : State) : Nat := s.rd .chnHoldHolding

/-- EFF: in HELD no more than at entry; under OVERSUB the part that TOTAL is of PREVHOME (R247). -/
def State.showHold (s : State) : State :=
  let h := s.holding
  let held := match s.chain.heldHold with | some x => min h x | none => h
  let above := if s.flag .chnStatusOversub && decide (s.rd .chnPrevHome ≠ 0) then h * s.rd .chnTotal / s.rd .chnPrevHome else h
  s.wr .chnHoldEff (min 0xFFFF (min held above))

/-- HELD ends at the next sampling instant once TM_HEARTBEAT is present again (R380). -/
def State.heldEnds (s : State) : State :=
  if s.baseSvc = svcHeld && s.flag .govTmhbPresent then
    let s1 := { s with lim := { s.lim with heldElec := none, heldTherm := none, heldBand := 0 }, chain := { s.chain with heldHold := none },
                         svcUnder := svcFull }
    if s.svc = svcHeld then s1.showHold.setSvc svcFull else s1.showHold
  else s

/-- The envelope and the caps that reads show as the last sampling instant took them (R52). -/
def sampledRefs : List FieldRef :=
  [⟨.alcElecpkPeak, 0, 0⟩, ⟨.alcElecmidMid, 0, 0⟩, ⟨.alcElecbaseBase, 0, 0⟩, ⟨.alcTraycapCap, 0, 0⟩, ⟨.alcHostcapCap, 0, 0⟩]

/-- The period limit formed and shown; the buckets take it as granted, or as at or below BASE in the floor state (R32, R39,
R51, R52). -/
def State.sampleLimit (s : State) : State :=
  let s1 := s.floorGrants.chargePeriod.bucketFull.moveHeads
  let f := s1.formLimit s1.demand
  let g := if s1.floorOn then 0 else f.lim
  let s2 := s1.puts
    [(⟨.alcPkglimLim, 0, 0⟩, f.lim), (⟨.alcPkglimCause, 0, 0⟩, f.cause), (⟨.alcPkglimBand, 0, 0⟩, f.band),
     (⟨.alcPkglimSpend, 0, 0⟩, bit f.spend), (⟨.alcSustainS, 0, 0⟩, min 0xFFFF s1.sustained),
     (⟨.alcSustainGrains, 0, 0⟩, s1.grainsHeld)]
  let cool := s2.hearth.coolMs || decide (f.cause = 3)
  let s3 := { s2 with
    hearth := { s2.hearth with coolMs := cool }
    lim := { s2.lim with lim2 := s2.lim.lim1, lim1 := some f.lim, glim2 := s2.lim.glim1, glim1 := s2.grantFill g,
                         elec := f.elec, therm := f.therm, band := f.band, sampled := sampledRefs.map fun r => (r, s2.reg r) } }
  (s3.bucketGrant g).showCredit

/-- The stewardship share of a compute die: floor(FLOORSH / 32), FLOORSH held to its range (R201, R203). -/
def State.stewShare (s : State) : Nat := clampNat 5120 16000 (s.rd .alcFloorshFloor) / 32

/-- A setting of four equal cores with their cause, none faster than its die may run (R270). -/
def evenCores (s : State) (d div cause : Nat) : List CoreGrant :=
  (upto 4).map fun c =>
    { div := max div (16 * s.topLimit d), trim := 0, lever := 0, cause, cls := s.classOf (4 * d + c), alloc := 0, need := 0 }

/-- The grant of an admitted die in COLD, FLOOR and CALIBRATING: the fixed settings of the state with cause FLOOR, ÷32 while its ageing is
measured, G of 0xFFFF, and the step budget of ADMCFG.BUDGET (R12, R13, R34, R267). A budget that is no whole number of amperes is cut to whole
amperes, which is what the grant carries (DESIGN CHOICE, assumption log 79). -/
def State.fixedGrant (s : State) (d : Nat) : Grant :=
  { period := s.period, gen := (s.die d).gen, epoch := s.rd .fltHallEpoch, g := 0xFFFF, sb := s.rd .dagAdmcfgBudget d / 16,
    maxdly := s.rd .dagAdmcfgMaxdly d, cores := evenCores s d (if (s.hd d).excl.contains 2 then 0x200 else 0x100) 12
    stewsh := s.stewShare, invals := s.lard.invals }

/-- In HELD neither the power grant nor the step budget of a die rises above the last grant made before it (R34). -/
def State.heldGrant (s : State) (d : Nat) (g : Grant) : Grant :=
  if s.baseSvc = svcHeld then { g with g := min g.g (s.hd d).heldG, sb := min g.sb (s.hd d).heldSb } else g

/-- The grant of a compute die with no core in service: ÷24, or ÷32 while its ageing is measured, with cause NONE (R188, R267). -/
def State.idleGrant (s : State) (d : Nat) : Grant :=
  s.heldGrant d { s.fixedGrant d with
    g := s.rd .dagEpwrPer d, sb := 8, maxdly := 4, cores := evenCores s d (if (s.hd d).excl.contains 2 then 0x200 else 0x180) 0 }

/-- The grant of a die of 32 to 39: period, generation and Larder invalidations (R196). -/
def State.bareGrant (s : State) (d : Nat) : Grant :=
  { s.fixedGrant d with g := 0, sb := 0, maxdly := 0, cores := [], stewsh := 0 }

/-- The grant that an allocation makes for a compute die in service (R34, R196). -/
def State.allocGrant (s : State) (pkgCause : Nat) (l : List CoreCalc) (d : Nat) : Grant :=
  let p := (s.partOf d).getD 0
  let cs := s.dieSettings pkgCause l d
  s.heldGrant d { s.fixedGrant d with
    g := min 0xFFFF (cs.foldl (fun n c => n + c.alloc) 0)
    sb := s.stepBudget p
    maxdly := s.rd .alcPartPolMaxdly 0 p
    cores := cs }

/-- The grant of a die this period (R20, R34, R188, R196): one whose report is missing keeps its previous grant unchanged. -/
def State.grantFor (s : State) (pkgCause : Nat) (l : List CoreCalc) (d : Nat) : Grant :=
  let fixed := if 32 ≤ d then s.bareGrant d else if s.preChain then s.fixedGrant d
    else if s.inService d then s.allocGrant pkgCause l d else s.idleGrant d
  match (s.hd d).lastGrant with
  | some g =>
    if !(s.hd d).fresh && decide (g.gen = (s.die d).gen) then
      { g with period := s.period, epoch := s.rd .fltHallEpoch, invals := s.lard.invals }
    else fixed
  | none => fixed

/-- One grant put on its lane. -/
def State.sendGrant (s : State) (d : Nat) (g : Grant) : State :=
  s.updHd d fun x => { x with lane := x.lane ++ [g], lastGrant := some g }

/-- The cause that binds most cores of a partition. -/
def commonest (l : List Nat) : Nat :=
  (upto 13).foldl (fun m c => if (l.filter (· = m)).length < (l.filter (· = c)).length then c else m) 0

/-- A partition's allocation, commonest cause and slack shown; nothing of a partition not in force (R200, R203). -/
def State.showPart (s : State) (gs : List (Nat × Grant)) (p : Nat) : State :=
  let own := gs.filter fun x => decide (s.partOf x.1 = some p)
  let dies := if s.inForce p then s.diesOf p else []
  let coll : Nat := dies.foldl (fun n d => n + (s.hd d).collHist.foldl (fun a b => a + b) 0) 0
  let slack := if dies.isEmpty then 0 else roundNat 11 ((coll : Rat) * 65536 / (1600 * dies.length : Nat))
  s.puts
    [(⟨.alcPartAlloc, 0, p⟩, min 0xFFFF (own.foldl (fun n x => x.2.cores.foldl (fun m c => m + c.alloc) n) 0)),
     (⟨.alcPartCause, 0, p⟩, commonest (own.flatMap fun x => x.2.cores.map fun c => c.cause)),
     (⟨.alcPartSlack, 0, p⟩, min 0xFFFF slack)]

/-- A die that the Hall sends a grant now: admitted, and not yet given one for this period (R196, R289). -/
def State.wantsGrant (s : State) (d : Nat) : Bool :=
  (s.hd d).admitted && !(match (s.hd d).lastGrant with
    | some g => decide (g.period = s.period) && decide (g.epoch = s.rd .fltHallEpoch) && decide (0 < s.period)
    | none => false)

/-- The allocation of the period, the grants sent for it and the beacon (R18, R19, R188 to R199). -/
def State.sendGrants (s : State) : State :=
  let res := s.reserve
  let cbud := s.rd .alcPkglimLim - res
  let l := if s.preChain then [] else s.allocate cbud
  let cause := s.rd .alcPkglimCause
  let gs := ((upto 40).filter s.wantsGrant).map fun d => (d, s.grantFor cause l d)
  let under := gs.any fun x => x.2.cores.any fun c => c.lever = 6
  let s1 := s.puts [(⟨.alcCbud, 0, 0⟩, cbud), (⟨.alcCbudReserve, 0, 0⟩, min 0xFFFF res), (⟨.alcAlstatUnder, 0, 0⟩, bit under)]
  let s2 := if under then s1.count .alcAlstatUndercnt else s1
  let s3 := s2.each gs fun s x => s.sendGrant x.1 x.2
  let s4 := s3.each (upto 16) fun s p => s.showPart gs p
  { s4 with beacons := s4.beacons + 1, lard := { s4.lard with invals := [] } }

/-- Core-periods of a die collective-waiting in the period just ended, as far as its reports have come (R200). -/
def HallDie.collNow (x : HallDie) (period : Nat) : Nat :=
  match x.fresh, x.rep, x.late with
  | true, some r, _ => collWaiting r
  | false, _, some r => if r.period = period then collWaiting r else 0
  | _, _, _ => 0

/-- The slack's window of 400 periods moves on by one (R200). -/
def State.slideSlack (s : State) : State :=
  s.each (upto 32) fun s d => s.updHd d fun x => { x with collHist := (x.collNow s.period :: x.collHist).take 400 }

/-- After a sampling instant no report waits for it; a die agent that has sent none at its generation is counted silent
(R288). -/
def State.endSample (s : State) : State :=
  s.each (upto 40) fun s d =>
    s.updHd d fun x => { x with fresh := false, silent := if x.fresh then 0 else x.silent + 1 }

/-- Two consecutive PERIODIC statements merged: counts summed, the higher peak, the flags of both and MERGED (R73). -/
def Stmt.merge (a b : Stmt) : Stmt :=
  { b with
    tStart := a.tStart
    counts := b.counts.foldl (fun l x => addCount l x.1 x.2) a.counts
    peak := max a.peak b.peak
    flags := a.flags ||| b.flags ||| 32 }

/-- The two oldest PERIODIC statements of a list merged into one, if there are two. -/
def mergeOldest : List Stmt → List Stmt
  | [] => []
  | a :: l =>
    if a.kind = .periodic then
      match l.find? fun b => b.kind = .periodic with
      | some b => (a.merge b) :: l.erase b
      | none => a :: l
    else a :: mergeOldest l

/-- Beyond 16 pending statements the two oldest PERIODIC ones merge, as often as there are two (R73). -/
def State.mergePending (s : State) (n : Nat) : State :=
  let l := (s.ring n).stmts
  let excess := min (l.length - 16) ((l.filter fun x => x.kind = .periodic).length - 1)
  if excess = 0 then s
  else (s.updRing n fun r => { r with stmts := (upto excess).foldl (fun l _ => mergeOldest l) l }).wr .obsEstatMerge 1

/-- The fractions below 1 µJ of energies counted, which are carried on (R61). -/
def fractions (c : Counts) : Counts :=
  (c.filter fun x => x.1.isEnergy && decide (x.2 % 65536 ≠ 0)).map fun x => (x.1, x.2 % 65536)

/-- Counts with their energies cut to whole µJ (R61). -/
def wholeCounts (c : Counts) : Counts := c.map fun x => if x.1.isEnergy then (x.1, x.2 - x.2 % 65536) else x

/-- A statement whose interval ended at the boundary just passed is cut from the open counts, the fractions of which go on; it lists the dies of
its partition in the last period of the interval; beyond 16 pending, statements merge (R61, R69, R70, R73). -/
def State.closeStmt (s : State) (d : StmtDue) : State :=
  let p := s.part d.part
  let st : Stmt := { kind := d.kind, part := d.part, tag := d.tag, dies := (s.membersIn d.part (d.tEnd / 250)).getD d.dies, seq := d.seq,
                     tStart := p.tStart, tEnd := d.tEnd, counts := wholeCounts p.counts, peak := p.peak, flags := p.flags }
  let s1 := s.updRing d.part fun r => { r with stmts := r.stmts ++ [st], due := r.due.filter (· ≠ d) }
  let ends := d.kind = .final || d.kind = .stopped
  (s1.updPart d.part fun x =>
    { x with tStart := d.tEnd, counts := fractions p.counts, peak := 0, flags := 0, jobHeld := if ends then true else x.jobHeld }).mergePending
      d.part

/-- Every statement due by the last boundary is closed, a partition's sequence number for its JOB set advancing where its job
ends (R69, R351). -/
def State.closeStmts (s : State) : State :=
  s.each (upto 16) fun s p =>
    s.each ((s.ring p).due.filter fun d => decide (d.tEnd ≤ s.lastB)) fun s d =>
      let s1 := s.closeStmt d
      if d.kind = .final || d.kind = .stopped then
        (if s1.frozen.isSome then { s1 with jobDue := if s1.jobDue.contains p then s1.jobDue else s1.jobDue ++ [p] }
         else s1.wr .viewJobseq (s1.rd .viewJobseq p + 1) p)
      else s1

/-- The PER set of a partition latched from what the period added, with its sequence number; fractions go on (R61, R351). While counters are
frozen the number waits for the thaw (R353). -/
def State.latchPer (s : State) (p : Nat) : State :=
  let c := (s.part p).open_
  let w (i : Nat) : Nat :=
    c.foldl (fun n x => if x.1.place = some i then n + (if x.1.isEnergy then x.2 / 65536 else x.2) else n) 0
  let s1 := s.each (upto 32) fun s i => s.wr .viewPer (w i) p i
  let s2 := if s.frozen.isSome then { s1 with perDue := true } else s1.wr .viewPerseq (s1.rd .viewPerseq p + 1) p
  s2.updPart p fun x => { x with open_ := fractions c }

/-! ## Grants and beacons -/

/-- A grant at its die agent: discarded and counted when its period has been applied, its generation is not current, or its role
epoch is below the highest seen; with bad parity it is dropped as a CORRECTED fault (R20, R197, R292). -/
def State.grantIn (s : State) (d : Nat) (parityOk : Bool) : State :=
  match (s.hd d).lane.head? with
  | none => s
  | some g =>
    let s1 := s.updHd d fun x => { x with lane := x.lane.drop 1 }
    let x := s.die d
    let stale := decide (x.applied = some g.period) || decide (g.gen ≠ x.gen) || decide (g.epoch < x.epoch) ||
      (match x.next with | some n => decide (n.period = g.period) | none => false)
    if !x.powered then s1
    else if !parityOk then s1.raise (corr 1 1 (unitOf d s.active) 4)
    else if stale then (if d < 32 then s1.count .dagAlstatDupgrant 1 d else s1)
    else s1.updDie d fun y => { y with next := some g, epoch := max y.epoch g.epoch }

def execGrantReceived (die : Die) (parityOk : Bool) (s : State) : Host.Outcome State Fault Refusal :=
  s.run fun s => s.grantIn die.val parityOk

/-- BEACON_RECEIVED: the standby Hall's count of missed beacons starts again (R18, R19). -/
def execBeaconReceived (s : State) : Host.Outcome State Fault Refusal :=
  s.run fun s => { s with beacons := s.beacons - 1, missed := 0 }

/-! ## STEWARD -/

/-- STEWARD_ENTRY: a die agent that reached a boundary with no new grant keeps its last grant, the first of 8 holds (R197, R293). One that the Hall
has not admitted gets none, and goes on at the FLOOR settings (R16). -/
def execStewardEntry (die : Die) (s : State) : Host.Outcome State Fault Refusal :=
  s.run fun s =>
    let d := die.val
    if (s.die d).steward || !(s.die d).powered || (s.die d).next.isSome || !(s.hd d).admitted then s
    else
      let s1 := (s.updDie d fun x => { x with steward := true, held := 1 }).updHd d fun x => { x with readEdie := true }
      let s2 := s1.wr .fltStatusSteward 1
      let s3 := match s2.partOf d with
        | some p => s2.updPart p fun x => { x with flags := x.flags ||| 16 }
        | none => s2
      if s3.svc = svcSteward || s3.svc = svcFailsafe then s3
      else ({ s3 with svcUnder := s3.svc }).setSvc svcSteward

/-- STEWARD_HOLD_END: after 8 held periods a compute die agent takes its stewardship share (R201). -/
def execStewardHoldEnd (die : CDie) (s : State) : Host.Outcome State Fault Refusal :=
  s.run fun s =>
    let d := die.val
    if (s.die d).steward && decide (8 < (s.die d).held) then
      (s.updDie d fun x => { x with onShare := true }).stewardSet d
    else s

/-- STEWARD_TIMEOUT: STEWARD has lasted STEWMAX without a grant, and the latches set FATAL; a limit of 0 is handled as 1 ms
(R295, R297). -/
def execStewardTimeout (s : State) : Host.Outcome State Fault Refusal :=
  s.run fun s =>
    if s.svc = svcSteward then
      (s.advanceTo (s.now + 1000000 * max 1 (s.rd .fltStewmaxMs))).raise (fatalFault 16 6 40 0)
    else s

/-! ## The commanders' edges -/

/-- POWER_ALERT_ASSERT: the floor state is forced (R21, R36, R383). -/
def execPowerAlertAssert (s : State) : Host.Outcome State Fault Refusal :=
  s.run fun s =>
    ({ s with pins := { s.pins with powerAlertN := false } }).forceFloor fun f => { f with alert := true }

/-- POWER_ALERT_RELEASE: the ball has been high for 1 ms (R36). -/
def execPowerAlertRelease (s : State) : Host.Outcome State Fault Refusal :=
  s.run fun s =>
    ({ s with pins := { s.pins with powerAlertN := true } }).releaseFloor fun f => { f with alert := false }

/-- THROTTLE_EDGE: a filtered edge, used from the next sampling instant (R382). -/
def execThrottleEdge (level : Bool) (s : State) : Host.Outcome State Fault Refusal :=
  s.run fun s =>
    { s with pins := { s.pins with throttleN := level }, lim := { s.lim with throttle := !level } }

end Sys2Proof.Machine
end

