-- ==== Sys2Proof/Machine/Accounts.lean ====
section
/-!
DEFINITION. Sys2Proof/Machine/Accounts.lean: checkpoints of the accumulators (R74), compressed telemetry (R65 to R68) and energy
statements (R69 to R73).
-/
namespace Sys2Proof.Machine

/-- The queue accumulators of a compute die that are not zero. -/
def State.accumulators (s : State) (d : Nat) : Store Nat Nat :=
  (upto 512).filterMap fun q =>
    let e := s.rd .qeaEnergy (d * 512 + q)
    if e = 0 then none else some (q, e)

/-- ACCUMULATOR_CHECKPOINT: every 1 ms the Hall copies every die's queue accumulators, and notes what each gained since the last
checkpoint (R74). -/
def execAccumulatorCheckpoint (s : State) : Host.Outcome State Fault Refusal :=
  s.run fun s => (s.each (upto 32) fun s d =>
    let now := s.accumulators d
    if !(s.die d).powered then s else s.updHd d fun x =>
      { x with ckpt := now, ckptCum := (s.die d).cum, ckptPeriod := s.period, ckptIdle := (s.die d).idleCum,
               ckptGain := now.map fun e => (e.1, e.2 - Store.get (fun _ => 0) x.ckpt e.1) })

/-! ## Telemetry -/

/-- The code of a sample after another: 6 bits of difference, or the escape and 16 bits where it lies outside -31 to 31 (R66). -/
def sampleCode (prev q : Nat) : List Bool :=
  let d : Int := (q : Int) - prev
  if -31 ≤ d && d ≤ 31 then natBits 6 (ofSigned 6 d) else natBits 6 0x20 ++ natBits 16 q

/-- A sample put into a die's block: a new block where none is open, where the code would not fit, where the block holds 65 samples, or where it
is of another interval (R66 to R68). -/
def State.addSample (s : State) (d q t0 decim : Nat) : State :=
  let start : TelBlock := { t0, q0 := q, last := q, nsamp := 1, bits := [], decim }
  match Store.get (fun _ => none) s.tel d with
  | none => { s with tel := Store.set s.tel d (some start) }
  | some b =>
    let c := sampleCode b.last q
    if b.decim = decim && decide (b.nsamp < 65) && decide ((b.bits ++ c).length ≤ 384) then
      let b' := { b with last := q, nsamp := b.nsamp + 1, bits := b.bits ++ c }
      let s1 := { s with tel := Store.set s.tel d (some b') }
      if b'.nsamp = 65 then s1.closeBlock d else s1
    else
      let s1 := s.closeBlock d
      { s1 with tel := Store.set s1.tel d (some start) }

/-- The mean power of an interval of 2^k fast periods quantised to 0.5 W: floor(P / 0.5 W + 1/2) (R65). -/
def quantise (sum k : Nat) : Nat := min 0xFFFF ((sum : Rat) / (2048 * 4 * 2 ^ k : Nat) + 1 / 2).floor.toNat

/-- TELEMETRY_SAMPLE: a die's sample interval has ended; the oldest one not yet coded goes into the die's block, which closes where the interval
in force has changed with it (R65 to R68). -/
def execTelemetrySample (die : Die) (s : State) : Host.Outcome State Fault Refusal :=
  s.run fun s =>
    let d := die.val
    match (s.die d).telDue with
    | [] => s
    | x :: rest =>
      let s1 := s.updDie d fun y => { y with telDue := rest }
      let s2 := if (s.telRing d).isSome then s1.addSample d (quantise x.sum x.decim) x.t0 x.decim else s1
      if x.last then s2.closeBlock d else s2

/-! ## Statements -/

/-- The PERIODIC interval in nanoseconds, IVL held to 100 ms to 3 600 s (R78). -/
def State.stmtIvl (s : State) : Nat := 1000000 * clampNat 100 3600000 (s.rd .obsStmtivlIvl)

/-- STATEMENT_PERIODIC: a multiple of STMTIVL after the partition's tag was bound (R69). -/
def execStatementPeriodic (part : Part) (s : State) : Host.Outcome State Fault Refusal :=
  s.run fun s =>
    let p := part.val
    if s.inForce p then
      let s1 := s.advanceTo (s.part p).nextPeriodic
      (s1.stmtDue .periodic p).updPart p fun x => { x with nextPeriodic := x.nextPeriodic + s.stmtIvl }
    else s

/-- The KIND code (R71). -/
def StmtKind.num : StmtKind → Nat
  | .periodic => 0
  | .final => 1
  | .stopped => 2
  | .demand => 3

/-- A count of a statement. -/
def Stmt.of (st : Stmt) (q : Stat) : Nat := Store.get (fun _ => 0) st.counts q

/-- An energy of a statement in whole µJ (R61). -/
def Stmt.energyOf (st : Stmt) (q : Stat) : Nat := st.of q / 65536

/-- Core time in core-µs from core-periods of 0.25 core-µs, before saturation (R70). -/
def Stmt.timeOf (st : Stmt) (q : Stat) : Nat := roundNat 12 ((st.of q : Rat) / 4)

/-- The times a statement carries in 4 bytes each. -/
def stmtTimes : List Stat := [.trimT1, .trimT2] ++ (upto 12).map fun k => .thr (k + 1)

/-- The flags word of a statement: SAT where a 4-byte time saturates (R70, R71). -/
def Stmt.flagsWord (st : Stmt) : Nat :=
  if stmtTimes.any fun q => decide (0xFFFFFFFF ≤ st.timeOf q) then st.flags ||| 64 else st.flags

/-- A 4-byte time, saturating. -/
def Stmt.time32 (st : Stmt) (q : Stat) : Nat := min 0xFFFFFFFF (st.timeOf q)

/-- The mean power of a statement in power units, rounded down (R70). -/
def Stmt.avg (st : Stmt) : Nat :=
  if st.tEnd = st.tStart then 0 else min 0xFFFF (st.energyOf .energy * 8000 / (st.tEnd - st.tStart))

/-- The part word of part k without PHASE (R70). -/
def Stmt.partWord (st : Stmt) (k : Nat) : Nat := 2 * k + 2 ^ 8 * (st.seq % 2 ^ 24)

/-- The 15 words after the part word of each part, the last of part 3 being CHECK and computed apart (R70). -/
def Stmt.body (st : Stmt) : Nat → List Nat
  | 0 => [st.tag + 2 ^ 16 * st.part + 2 ^ 24 * st.kind.num, st.flagsWord, st.seq, st.tStart % 2 ^ 32,
      st.tStart / 2 ^ 32, st.tEnd % 2 ^ 32, st.tEnd / 2 ^ 32, st.energyOf .energy % 2 ^ 32,
      st.energyOf .energy / 2 ^ 32, st.energyOf .idle % 2 ^ 32, st.energyOf .idle / 2 ^ 32,
      st.avg + 2 ^ 16 * min 0xFFFF st.peak, st.dies, st.of .vec % 2 ^ 32, st.of .vec / 2 ^ 32]
  | 1 => [st.time32 .trimT1] ++
      (upto 6).flatMap (fun k => [st.of (.mac k) % 2 ^ 32, st.of (.mac k) / 2 ^ 32]) ++
      [st.of .sramRd % 2 ^ 32, st.of .sramRd / 2 ^ 32]
  | 2 => [st.time32 .trimT2] ++
      [Stat.sramWr, .lbufRd, .lbufWr, .vrfRd, .vrfWr, .d2d, .fab].flatMap fun q => [st.of q % 2 ^ 32, st.of q / 2 ^ 32]
  | _ => (upto 11).map (fun k => st.time32 (.thr (k + 1))) ++
      [st.energyOf .shared % 2 ^ 32, st.energyOf .shared / 2 ^ 32, st.time32 (.thr 12)]

/-- CHECK: CRC-32C of every byte but the part words and itself, in order (R70). -/
def Stmt.check (st : Stmt) : Nat :=
  crc32c ((st.body 0 ++ st.body 1 ++ st.body 2 ++ st.body 3).flatMap wordBytes)

/-- The words of part k after its part word. -/
def Stmt.words (st : Stmt) (k : Nat) : List Word :=
  ((st.body k) ++ (if k = 3 then [st.check] else [])).map w32

/-- Free entries of a statement ring (R303). -/
def State.stmFree (s : State) (n : Nat) : Nat :=
  ringFree (ringSize (s.rd .hifRsSizesStm 0 n)) (s.ring n).stmpi (s.ring n).stmci

/-- One part of a statement written at the producer index, which moves on (R70, R302). -/
def State.putPart (s : State) (n : Nat) (st : Stmt) (k : Nat) : State :=
  let r := s.ring n
  let size := ringSize (s.rd .hifRsSizesStm 0 n)
  (s.writeEntry (s.ringPort n) (s.rd .hifRsStmbase 0 n + 64 * r.stmpi) (st.partWord k + bit r.stmPhase) (st.words k)).updRing n
    fun x => { x with stmpi := (r.stmpi + 1) % size, stmPhase := if r.stmpi + 1 = size then !r.stmPhase else r.stmPhase }

/-- STATEMENT_DELIVERY: the oldest pending statement goes to the ring as four parts when four entries are free (R70, R73). -/
def execStatementDelivery (rs : Part) (s : State) : Host.Outcome State Fault Refusal :=
  s.run fun s =>
    let n := rs.val
    match (s.ring n).stmts with
    | [] => s
    | st :: rest =>
      if s.ringRunning n && decide (4 ≤ s.stmFree n) then
        let s1 := s.updRing n fun r => { r with stmts := rest }
        ((upto 4).foldl (fun s k => s.putPart n st k) s1).telWritten n
      else s

end Sys2Proof.Machine
end

