-- ==== Sys2Proof/Machine/Changes.lean ====
section
/-!
DEFINITION. Sys2Proof/Machine/Changes.lean: changes that span dies commit in two phases (R185, R290, R291).
-/
namespace Sys2Proof.Machine

/-- Whether a register write lowers a limit or a share: a lower cap, floor share or step budget, or a slower asked divisor (R290,
R291). -/
def State.lowers (s : State) (w : FieldRef × Nat) : Bool :=
  match w.1.f with
  | .alcPartCap | .alcFloorshFloor | .alcPartPol2Stepb => decide (w.2 < s.reg w.1)
  | .alcPartPolAskdiv => decide (s.reg w.1 < w.2)
  | _ => false

/-- A change put in the queue; none when four already wait (R291). -/
def State.requestChange (s : State) (c : Change) : Option State :=
  if s.changes.length < 4 then
    some ({ s with changes := s.changes ++ [c] }.wr .fltCmtQueued (s.changes.length + 1))
  else none

/-- A change with nothing acknowledged yet. -/
def State.mkChange (s : State) (kind : ChangeKind) (ws : List (FieldRef × Nat)) (dies : List Nat) (cmd : Option (Nat × Nat)) :
    Change :=
  { gen := 0, kind, writes := ws, before := ws.map fun w => (w.1, s.reg w.1), dies, acked := [], committed := [], start := 0, cmd, result := none }

/-- A new binding starts a partition's accounts: PENERGY, the JOB set and the statement interval (R69, R78, R351). -/
def State.startJob (s : State) (p t : Nat) : State :=
  let s1 := (s.wr .obsPenergyE 0 0 p).each (upto 32) fun s i =>
    { s.wr .viewJob 0 p i with frac := Store.set s.frac ⟨.viewJob, p, i⟩ 0 }
  ({ s1 with frac := Store.set s1.frac ⟨.obsPenergyE, 0, p⟩ 0 }).updPart p fun x =>
    { x with tStart := t, nextPeriodic := t + s.stmtIvl, counts := [], peak := 0, flags := 0, jobHeld := false,
             bindAt := none, jobFrom := t / 250 }

/-- The accounts of every binding whose boundary has passed start, once the FINAL statements before them are cut. -/
def State.startJobs (s : State) : State :=
  s.each (upto 16) fun s p =>
    match (s.part p).bindAt with
    | some t => if t ≤ s.lastB then s.startJob p t else s
    | none => s

/-- The rest of a change put in force: a binding that ends brings a FINAL statement, one that starts opens its accounts at the next
boundary, and open telemetry blocks of the dies close (R67, R69, R185, R290). -/
def State.effectChange (s : State) (c : Change) : State :=
  let s1 := match c.kind with
    | .bind p ends starts =>
      let a := if ends && s.inForce p then s.stmtDue .final p else s
      let b := a.each c.dies State.closeBlock
      if starts then b.updPart p fun x => { x with bindAt := some (ceilTo 250 s.now) } else b
    | .endJob p => (s.stmtDue .final p).each c.dies State.closeBlock
    | _ => s
  (s1.puts c.writes).wr .fltCmtState 2

/-- A change after its rest has taken effect: ENDJOB answers with the number of its FINAL statement (R307). -/
def State.markChange (s : State) (c : Change) : Change :=
  match c.kind with
  | .endJob p => { c with result := some (s.ring p).stmSeq }
  | _ => c

/-- The dies a change concerns as a bitmap. -/
def dieMap (l : List Nat) : Nat := (distinct l).foldl (fun n d => n + 2 ^ d) 0

/-- A change done with: its command completes, and no change is in flight (R291, R307). -/
def State.endChange (s : State) (c : Change) (status : Nat) : State :=
  let s1 := { s with change := none }
  match c.cmd with
  | some x => s1.complete x.1 x.2 status (if status = 0 then c.result.getD (dieMap c.acked) else dieMap c.acked)
  | none => s1

/-- Whether a set of dies shares a die with a partition in force other than p (R185). -/
def State.clashes (s : State) (p dies : Nat) : Bool :=
  s.partsInForce.any fun q => decide (q ≠ p) && decide (dies &&& s.rd .alcPartDies 0 q ≠ 0)

/-- What a field holds once a change's writes are in force. -/
def State.once (s : State) (ws : List (FieldRef × Nat)) (r : FieldRef) : Nat :=
  match ws.find? fun w => decide (w.1 = r) with
  | some w => w.2
  | none => s.reg r

/-- A change as it stands when its turn comes: the dies it concerns, the values it would replace, and whether a binding ends and another begins
(R185, R290). -/
def State.atAccept (s : State) (c : Change) : Change :=
  let c1 := { c with before := c.writes.map fun w => (w.1, s.reg w.1) }
  match c.kind with
  | .bind p _ _ =>
    let was := s.inForce p
    let valid := decide (s.once c.writes ⟨.alcPartBindValid, 0, p⟩ = 1)
    let again := c.cmd.isSome || decide (s.once c.writes ⟨.alcPartBindTag, 0, p⟩ ≠ s.tagOf p) || !valid
    { c1 with kind := .bind p (was && again) (valid && (!was || again))
              dies := distinct ((if was then s.diesOf p else []) ++ (upto 32).filter (testBit (s.once c.writes ⟨.alcPartDies, 0, p⟩))) }
  | .endJob p => { c1 with dies := s.diesOf p }
  | .policy p => { c1 with dies := if s.inForce p then s.diesOf p else [] }
  | .floorShare => c1

/-- A change that would put a die into two partitions in force (R185). -/
def State.overlaps (s : State) (c : Change) : Bool :=
  match c.kind with
  | .bind p _ _ =>
    decide (s.once c.writes ⟨.alcPartBindValid, 0, p⟩ = 1) && s.clashes p (s.once c.writes ⟨.alcPartDies, 0, p⟩)
  | _ => false

/-- A partition's trim limit lowered (R214). -/
def State.lowersTrim (s : State) (w : FieldRef × Nat) : Bool :=
  match w.1.f with
  | .alcPartPolTrimmax => decide (w.2 < s.reg w.1)
  | _ => false

/-- The next queued change is accepted at this sampling instant when none is in flight: one that has come to overlap is discarded, and a lower trim
limit is in force at once (R185, R214, R290, R291; assumption log 99). -/
def State.acceptChange (s : State) : State :=
  match s.change, s.changes with
  | none, c :: rest =>
    let s0 := { s with changes := rest }.wr .fltCmtQueued rest.length
    if s.overlaps c then
      let s1 := s0.wr .alcAlstatParterr 1
      match c.cmd with
      | some x => s1.complete x.1 x.2 4 0
      | none => s1
    else
      let g := (s.changeGen + 1) % 2 ^ 16
      let s1 := { s0 with change := some { s.atAccept c with gen := g, start := s.now }, changeGen := g }
      (s1.puts [(⟨.fltCmtGen, 0, 0⟩, g), (⟨.fltCmtState, 0, 0⟩, 1), (⟨.fltCmtmapAck, 0, 0⟩, 0)]).puts (c.writes.filter s.lowersTrim)
  | _, _ => s

/-- A change that concerns no die takes effect as soon as it is accepted (assumption log 32). -/
def State.emptyChange (s : State) : State :=
  match s.change with
  | some c => if c.dies.isEmpty then (s.effectChange c).endChange (s.markChange c) 0 else s
  | none => s

/-- TWO_PHASE_PREPARE: a die agent stages the change, its lowering parts take effect, and it will acknowledge in its next report
(R290). -/
def execTwoPhasePrepare (die : CDie) (s : State) : Host.Outcome State Fault Refusal :=
  s.run fun s =>
    match s.change with
    | some c =>
      if c.dies.contains die.val && (s.die die.val).powered then
        let s1 := s.puts (c.writes.filter s.lowers)
        s1.updDie die.val fun x => { x with staged := some c.gen, acks := x.acks ++ [c.gen] }
      else s
    | none => s

/-- TWO_PHASE_COMMIT: with every acknowledgement held, a die agent receives COMMIT and the rest of the change takes effect; the last
one ends it (R290). -/
def execTwoPhaseCommit (die : CDie) (s : State) : Host.Outcome State Fault Refusal :=
  s.run fun s =>
    match s.change with
    | some c =>
      if c.dies.all (fun d => c.acked.contains d) && c.dies.contains die.val && !c.committed.contains die.val then
        let s1 := if c.committed.isEmpty then s.effectChange c else s
        let c0 := if c.committed.isEmpty then s.markChange c else c
        let c' := { c0 with committed := c.committed ++ [die.val] }
        let s2 := ({ s1 with change := some c' }).updDie die.val fun x => { x with staged := none }
        if c.dies.all fun d => c'.committed.contains d then s2.endChange c' 0 else s2
      else s
    | none => s

/-- TWO_PHASE_ABORT: an acknowledgement is still missing at P + 5 µs, so the change is rolled back (R290, R291). -/
def execTwoPhaseAbort (s : State) : Host.Outcome State Fault Refusal :=
  s.run fun s =>
    match s.change with
    | some c =>
      if c.dies.all fun d => c.acked.contains d then s
      else
        let s1 := (s.advanceTo (c.start + 5000)).puts c.before
        let s2 := s1.each c.dies fun s d => s.updDie d fun x => { x with staged := none }
        ((s2.wr .fltCmtState 3).raise (corr 18 1 (40 + s.active) 9)).endChange c 5
    | none => s

/-! ## Membership and binding requested -/

/-- A change of a partition's dies or binding waits or is in flight. -/
def State.binding (s : State) (p : Nat) : Bool :=
  (s.change.toList ++ s.changes).any fun c => match c.kind with
    | .bind q _ _ | .endJob q => decide (q = p)
    | _ => false

/-- A partition's dies, tag and validity set as a software write or a BIND asks: refused for an overlap, landing at once while the
partition stays out of force with no change of it under way, and otherwise a change of two phases that writes the fields ws. The first result
is a refusal: 1 overlap, 2 no room. -/
def State.bindChange (s : State) (p dies tag valid : Nat) (ws : List (FieldRef × Nat)) (cmd : Option (Nat × Nat)) : Option Nat × State :=
  let was := s.inForce p
  if valid = 1 && s.clashes p dies then (some 1, s.wr .alcAlstatParterr 1)
  else
    if !was && valid = 0 && cmd.isNone && !s.binding p then (none, s.puts ws)
    else
      let again := cmd.isSome || decide (tag ≠ s.tagOf p) || decide (valid = 0)
      let all := distinct ((if was then s.diesOf p else []) ++ (upto 32).filter (testBit dies))
      let kind := ChangeKind.bind p (was && again) (decide (valid = 1) && (!was || again))
      match s.requestChange (s.mkChange kind ws all cmd) with
      | some s1 => (none, s1)
      | none => (some 2, s)

/-- A register write to ALC.PART[p].DIES or BIND (R185). -/
def State.partitionWrite (s : State) (p : Nat) (which : PartReg) (v : Nat) : State :=
  match which with
  | .dies => (s.bindChange p v (s.tagOf p) (s.rd .alcPartBindValid 0 p) [(⟨.alcPartDies, 0, p⟩, v)] none).2
  | .bind =>
    let tag := v % 2 ^ 16
    let valid := v / 2 ^ 16 % 2
    (s.bindChange p (s.rd .alcPartDies 0 p) tag valid [(⟨.alcPartBindTag, 0, p⟩, tag), (⟨.alcPartBindValid, 0, p⟩, valid)] none).2

/-- PARTITION_WRITE (R185). -/
def execPartitionWrite (_port : Port) (part : Part) (which : PartReg) (val : Word) (s : State) :
    Host.Outcome State Fault Refusal :=
  s.run fun s => s.partitionWrite part.val which val.toNat

end Sys2Proof.Machine
end

