-- ==== Sys2Proof/Machine/HostOps.lean ====
section
/-!
DEFINITION. Sys2Proof/Machine/HostOps.lean: doorbells (R313, R314), control blocks (R301), ring set states (R305), command fetch
(R306 to R309), moderation (R316) and mailboxes (R317 to R322).
-/
namespace Sys2Proof.Machine

/-! ## Doorbells -/

/-- Whether a doorbell bit means something now: bits 16 to 18, or the bit of a RUNNING ring set (R313). -/
def State.dbValid (s : State) (b : Nat) : Bool :=
  if b < 16 then s.ringRunning b else decide (b < 19)

/-- A write of 1s to DBSET: valid bits latch, any other sets DBDISC (R313). -/
def State.doorbellSet (s : State) (v : Nat) : State :=
  let bits := (upto 32).filter (testBit v)
  let good := bits.filter s.dbValid
  let s1 := s.wr .hifDbpend (s.rd .hifDbpend ||| good.foldl (fun n b => n + 2 ^ b) 0)
  if good.length = bits.length then s1 else s1.wr .hifStatusDbdisc 1

/-- The address of the HIF block (R387). -/
def hifBase : Nat := 0x1000

/-- A host port writes the HIF block; from the I3C port its registers are out of reach (R323, R376). -/
def hifPort (p : Port) : Bool := p.isHost || decide (p = .cc)

/-- DOORBELL_SET: a write of HIF.DBSET (R313, R323). -/
def execDoorbellSet (port : Port) (val : Word) (s : State) : Host.Outcome State Fault Refusal :=
  s.run fun s => if hifPort port then (s.wrote port hifBase 4).doorbellSet val.toNat else s.answered port

/-- A ring set moved to ERROR with its cause; vector 35 goes out on both ports (R305, R315). -/
def State.ringError (s : State) (n errc : Nat) : State :=
  ((((s.wr .hifRsStatState 2 0 n).wr .hifRsStatErrc errc 0 n).sendVector .hx0 35).sendVector .hx1 35)

/-- A control block read: the indexes it holds are kept, or the ring set enters ERROR where one is out of range (R301, R305). -/
def State.readCtl (s : State) (n : Nat) (c : CtlBlock) : State :=
  if !s.ringRunning n then s
  else
    let bad (i f : Nat) : Bool := decide (ringSize f ≤ i)
    if bad c.cmdpi.toNat (s.rd .hifRsSizesCmd 0 n) || bad c.cplci.toNat (s.rd .hifRsSizesCpl 0 n) ||
        bad c.telci.toNat (s.rd .hifRsSizesTel 0 n) || bad c.stmci.toNat (s.rd .hifRsSizesStm 0 n) ||
        decide (c.stmci.toNat % 4 ≠ 0) then s.ringError n 3
    else s.updRing n fun r =>
      { r with cmdpi := c.cmdpi.toNat, cplci := c.cplci.toNat, telci := c.telci.toNat, stmci := c.stmci.toNat }

/-- The trace ring's consumer index read: draining resumes into freed entries (R358). -/
def State.readTraceCi (s : State) (ci : Nat) : State :=
  let size := ringSize (s.rd .obsTrccfgSize)
  let s1 := { s with tring := { s.tring with ci := ci % size } }
  if ringFree size (s1.rd .obsTrcpi) (ci % size) = 0 then s1 else s1.wr .obsTrcfull 0

/-- DOORBELL_TAKE: firmware takes one pending, unmasked doorbell and clears it; a ring set's doorbell brings its control block, and
doorbell 18 the trace ring's consumer index, which is word 0 of the block (R301, R313, R314, R358). -/
def execDoorbellTake (bit : Fin 32) (ctl : CtlBlock) (s : State) : Host.Outcome State Fault Refusal :=
  s.run fun s =>
    let b := bit.val
    if s.ccUp && testBit (s.rd .hifDbpend) b && !testBit (s.rd .hifDbmask) b then
      let s1 := s.wr .hifDbpend (s.rd .hifDbpend - 2 ^ b)
      if b < 16 then s1.readCtl b ctl else if b = 18 then s1.readTraceCi ctl.cmdpi.toNat else s1
    else s

/-- CONTROL_BLOCK_POLL: every 1 ms Elkward reads a RUNNING ring set's control block; while its doorbell is masked only the
consumer indexes are released (R301, R314). -/
def execControlBlockPoll (rs : Part) (ctl : CtlBlock) (s : State) : Host.Outcome State Fault Refusal :=
  s.run fun s =>
    let n := rs.val
    if testBit (s.rd .hifDbmask) n then s.readCtl n { ctl with cmdpi := w32 (s.ring n).cmdpi } else s.readCtl n ctl

/-! ## Ring set states -/

/-- Fields of RS[n].CTRL other than EN, from a written word: bit 1 PORT and bits 9 to 2 IMOD (R323). -/
def State.writeCtrl (s : State) (n v : Nat) : State :=
  (s.wr .hifRsCtrlPort (v / 2 % 2) 0 n).wr .hifRsCtrlImod (v / 4 % 256) 0 n

/-- A ring's size: 2^4 to 2^12 entries (R304). -/
def ringSizeLegal (k : Nat) : Bool := decide (4 ≤ k) && decide (k ≤ 12)

/-- A ring set whose four sizes are legal, so that its configuration is complete (R304). -/
def State.ringReady (s : State) (n : Nat) : Bool :=
  ringSizeLegal (s.rd .hifRsSizesCmd 0 n) && ringSizeLegal (s.rd .hifRsSizesCpl 0 n) && ringSizeLegal (s.rd .hifRsSizesTel 0 n) &&
    ringSizeLegal (s.rd .hifRsSizesStm 0 n)

/-- RING_SET_ENABLE: EN set from DISABLED; every index starts at 0 and every pass phase at 1 (R305). Before the sizes are legal the write is
discarded with CFGERR (R304; assumption log 70). -/
def State.ringEnable (s : State) (n v : Nat) : State :=
  if !s.ringReady n then s.wr .hifStatusCfgerr 1 else
  let s1 := (s.writeCtrl n v).wr .hifRsCtrlEn 1 0 n
  if s.rd .hifRsStatState 0 n = 0 then
    let old := s.ring n
    let s2 := s1.updRing n fun _ => { RingState.init n with stmSeq := old.stmSeq, due := old.due, stmts := old.stmts }
    s2.puts [(⟨.hifRsStatState, 0, n⟩, 1), (⟨.hifRsStatIdle, 0, n⟩, 0), (⟨.hifRsStatErrc, 0, n⟩, 0),
             (⟨.hifRsCmdci, 0, n⟩, 0), (⟨.hifRsCplpi, 0, n⟩, 0), (⟨.hifRsStatInflight, 0, n⟩, 0)]
  else s1

/-- RING_SET_DISABLE: EN cleared from RUNNING or ERROR; no new fetch starts (R305). -/
def State.ringDisable (s : State) (n v : Nat) : State :=
  let s1 := (s.writeCtrl n v).wr .hifRsCtrlEn 0 0 n
  if s.rd .hifRsStatState 0 n = 1 || s.rd .hifRsStatState 0 n = 2 then s1.wr .hifRsStatState 3 0 n else s1

/-- The offset of RS[n].CTRL (R323). -/
def ctrlOff (n : Nat) : Nat := 0x12C + 0x40 * n

def execRingSetEnable (port : Port) (rs : Part) (val : Word) (s : State) : Host.Outcome State Fault Refusal :=
  s.run fun s =>
    if hifPort port then (s.wrote port hifBase (ctrlOff rs.val)).ringEnable rs.val val.toNat else s.answered port

def execRingSetDisable (port : Port) (rs : Part) (val : Word) (s : State) : Host.Outcome State Fault Refusal :=
  s.run fun s =>
    if hifPort port then (s.wrote port hifBase (ctrlOff rs.val)).ringDisable rs.val val.toNat else s.answered port

/-- RING_SET_IDLE: a STOPPING ring set with no access outstanding is idle and DISABLED; its commands have run to their effect and
post no completion (R305). -/
def execRingSetIdle (rs : Part) (s : State) : Host.Outcome State Fault Refusal :=
  s.run fun s =>
    let n := rs.val
    if s.rd .hifRsStatState 0 n = 3 then
      ((s.wr .hifRsStatState 0 0 n).wr .hifRsStatIdle 1 0 n).wr .hifRsStatInflight 0 0 n |>.updRing n fun r =>
        { r with running := [] }
    else s

/-- HOST_ACCESS_FAIL: a request of a ring set ended in an error: ERROR, and a CORRECTED fault with source HOST (R300, R305). -/
def execHostAccessFail (rs : Part) (s : State) : Host.Outcome State Fault Refusal :=
  s.run fun s =>
    let n := rs.val
    if s.ringRunning n then (s.ringError n 1).raise (corr 21 1 (unitOf (38 + s.rd .hifRsCtrlPort 0 n) n) 2) else s

/-! ## Command fetch -/

/-- Bits of each operand word that an opcode uses; all others are reserved and must be zero (R306, R307). -/
def operMask (op : Nat) : Option (List Nat) :=
  match op with
  | 1 | 4 | 5 => some []
  | 2 => some [0x1FFFF]
  | 3 => some [0xFFFFFFFF, 0xFFFFFFFF, 0xFFFFFFFF, 0xFFFFFFFF, 3]
  | 6 => some [0xFFFFFFFF, 0xFFFF]
  | 7 => some [0x3FFFFFFF, 0xFFFF, 0xFFFF]
  | 8 => some [0xFFFF]
  | 9 => some [0xFFFFFFFF, 0xFFFFFFFF, 0xFFFFFFFF]
  | 10 => some [0xFFFFFFFF, 0x000FFFFF, 1]
  | 11 => some [0xFFFFFFFF, 0xFFFFFFFF, 0xFFFFFFFF, 1]
  | 12 => some [0xFFFFFFFF, 0xFFFFFFFF]
  | 13 | 14 => some [0xFFFFFFFF, 0xFFFFFFFF, 0xFFFFFFFF]
  | _ => none

/-- Whether an entry's opcode is defined and its reserved bits are zero (R306). -/
def entryLegal (e : CmdEntry) : Bool :=
  match operMask (e.cmdw.toNat / 256 % 256) with
  | none => false
  | some m =>
    decide (e.cmdw.toNat / 2 % 128 = 0) && decide (e.tgt.toNat / 32 = 0) &&
      e.oper.zipIdx.all fun x => decide (x.1.toNat &&& ((m[x.2]?).getD 0) = x.1.toNat)

/-- Opcodes that act as barriers (R309). -/
def isBarrier (op : Nat) : Bool := op = 3 || (5 ≤ op && op ≤ 8) || op = 12 || op = 14

/-- Whether a command may start now: at most 8 run, a barrier starts alone and nothing starts beside one, and 5 completion entries
are free (R303, R309). -/
def State.mayStart (s : State) (n op : Nat) : Bool :=
  let run := (s.ring n).running
  decide (run.length < 8) && decide (5 ≤ s.cplFree n) && !(run.any fun c => isBarrier c.opcode) &&
    (!isBarrier op || run.isEmpty)

/-- COMMAND_FETCH: the next entry of a RUNNING ring set's command ring; a wrong PHASE is an ERROR, and a reserved opcode or bit
completes INVALID (R302, R305 to R309, R347). -/
def execCommandFetch (rs : Part) (entry : CmdEntry) (s : State) : Host.Outcome State Fault Refusal :=
  s.run fun s =>
    let n := rs.val
    let ci := s.rd .hifRsCmdci 0 n
    let op := entry.cmdw.toNat / 256 % 256
    let cid := entry.cmdw.toNat / 65536
    if !s.ringRunning n || s.svc = svcCold || !s.ccUp || s.upd.quiet || ci = (s.ring n).cmdpi || testBit (s.rd .hifDbmask) n || !s.mayStart n op then s
    else if decide (entry.cmdw.toNat % 2 = 1) ≠ (s.ring n).cmdPhase then s.ringError n 2
    else
      let size := ringSize (s.rd .hifRsSizesCmd 0 n)
      let s1 := (s.wr .hifRsCmdci ((ci + 1) % size) 0 n).updRing n fun r =>
        { r with cmdPhase := if ci + 1 = size then !r.cmdPhase else r.cmdPhase }
      if entryLegal entry then
        let c : CmdRun := { cid, opcode := op, tgt := entry.tgt.toNat, oper := entry.oper,
                            priv := decide (s.privRing = some n), started := false }
        let s2 := s1.updRing n fun r => { r with running := r.running ++ [c] }
        s2.wr .hifRsStatInflight (s2.ring n).running.length 0 n
      else s1.postCpl n cid 4 0

/-! ## Moderation -/

/-- MSIX_MODERATION_EXPIRY: IMOD after the last send, a vector goes out if an entry has been written since (R316). -/
def execMsixModerationExpiry (vec : Fin 32) (s : State) : Host.Outcome State Fault Refusal :=
  s.run fun s =>
    let v := vec.val
    if v < 16 then
      if (s.ring v).cplWaits then
        (s.advanceTo (((s.ring v).lastCpl.getD s.now) + 1000 * s.rd .hifRsCtrlImod 0 v)).sendCpl v
      else s
    else if (s.ring (v - 16)).telWaits then
      (s.advanceTo (((s.ring (v - 16)).lastTel.getD s.now) + 1000 * s.rd .hifRsCtrlImod 0 (v - 16))).sendTel (v - 16)
    else s

/-! ## Mailboxes -/

/-- The port is the sender of a mailbox (R317). -/
def isSender (p : Port) (m : Nat) : Bool :=
  match m with
  | 0 => p.isHost
  | 2 => decide (p = .i3c)
  | _ => decide (p = .cc)

/-- The port is the receiver of a mailbox (R317). -/
def isReceiver (p : Port) (m : Nat) : Bool :=
  match m with
  | 1 => p.isHost
  | 3 => decide (p = .i3c)
  | _ => decide (p = .cc)

/-- The ports that may write a mailbox as its sender, or as its receiver: the control complex may do what host software and the tray manager may
(R11). -/
def mayPost (p : Port) (m : Nat) : Bool := isSender p m || decide (p = .cc)
def mayRelease (p : Port) (m : Nat) : Bool := isReceiver p m || decide (p = .cc)

/-- Whether a mailbox's receiver domain is up: the active Hall's control complex for MB0 and MB2, the host die of MBPORT for MB1,
which has power while its rail is in REG, and always for MB3 (R317, R319). -/
def State.receiverUp (s : State) (m : Nat) : Bool :=
  match m with
  | 0 | 2 => s.ccUp
  | 1 => s.rd .rgcStatusState (54 + s.rd .hifCfgMbport) = 3
  | _ => true

/-- A sender's access while the receiver is down: it changes nothing and gets the error response of its path (R319). -/
def State.mbDown (s : State) (p : Port) : State :=
  if p.isHost then s.wr .hifStatusMbdown 1 else s.updPort p fun x => { x with resp := .error }

/-- MAILBOX_POST: a sender's TAG write posts the message with the PTR it wrote before (R317 to R319). -/
def State.mailboxPost (s : State) (p : Port) (m tag : Nat) : State :=
  if !mayPost p m then s
  else if !s.receiverUp m then s.mbDown p
  else ((s.wr .hifMbTag tag 0 m).mbParity m).mbPost m

def execMailboxPost (port : Port) (mb : Mbox) (tag : Word) (s : State) : Host.Outcome State Fault Refusal :=
  s.run fun s =>
    if isSender port mb.val && !s.receiverUp mb.val then s.mbDown port
    else if mayPost port mb.val then (s.wrote port hifBase (0x608 + 0x20 * mb.val)).mailboxPost port mb.val tag.toNat
    else s.answered port

/-- The sender of a mailbox told that it has been released (R315, R318, R377). -/
def State.tellSender (s : State) (m : Nat) (released : Bool) : State :=
  match m with
  | 0 => s.sendVector s.mbPort 33
  | 2 => s.raiseIbi (if released then 2 else 3)
  | _ => { s with fwInt := s.fwInt ++ [m] }

/-- MAILBOX_RELEASE: the receiver writes 1 to STAT.FULL (R318). -/
def State.mailboxRelease (s : State) (p : Port) (m : Nat) : State :=
  if mayRelease p m && s.flag .hifMbStatFull 0 m then (s.wr .hifMbStatFull 0 0 m).tellSender m true else s

def execMailboxRelease (port : Port) (mb : Mbox) (s : State) : Host.Outcome State Fault Refusal :=
  s.run fun s =>
    if mayRelease port mb.val then (s.wrote port hifBase (0x60C + 0x20 * mb.val)).mailboxRelease port mb.val else s.answered port

/-- The byte address of a mailbox (R323). -/
def mbAddr (m : Nat) : Nat := 0x1600 + 0x20 * m

/-- The receiver's read of PTR or TAG with bad parity: the stored value stands, PERR is set, the mailbox is released, the sender is told and a
CORRECTED fault names the byte address (R284, R321). -/
def State.mailboxRead (s : State) (p : Port) (m : Nat) (tag : Bool) : State :=
  if isReceiver p m && s.mbBad.contains m then
    let s1 := ({ s with mbBad := s.mbBad.filter (· ≠ m) }.wr .hifMbStatPerr 1 0 m).wr .hifMbStatFull 0 0 m
    (s1.tellSender m false).raise (corr 6 1 (unitOf (36 + s.active) m) 1 (mbAddr m + if tag then 8 else 0))
  else s

/-- A mailbox whose receiver domain resets while FULL is set: cleared, ABORTED set, the sender told (R320). -/
def State.mailboxAbort (s : State) (m : Nat) : State :=
  if s.flag .hifMbStatFull 0 m then
    let s1 := s.puts [(⟨.hifMbPtr, 0, m⟩, 0), (⟨.hifMbTag, 0, m⟩, 0), (⟨.hifMbStatFull, 0, m⟩, 0), (⟨.hifMbStatAborted, 0, m⟩, 1)]
    s1.tellSender m false
  else s

/-- PCIE_LINK_CHANGE (R323). -/
def execPcieLinkChange (hx : Hall) (up : Bool) (s : State) : Host.Outcome State Fault Refusal :=
  s.run fun s => s.wr (if hx.val = 0 then .hifPortstLink0 else .hifPortstLink1) (bit up)

end Sys2Proof.Machine
end

