-- ==== Sys2Proof/Machine/Sampling.lean ====
section
/-!
DEFINITION. Sys2Proof/Machine/Sampling.lean: the sampling instant as one command (R32).
-/
namespace Sys2Proof.Machine

/-- SAMPLING_INSTANT: at B + 40 ns the active Hall accepts a change, charges the period that ended, forms the period limit, allocates and sends its
grants (R32, R47, R191, R214, R290). -/
def execSamplingInstant (s : State) : Host.Outcome State Fault Refusal :=
  s.run fun s =>
    let s1 := (s.advanceTo (s.lastB + 40)).heldEnds.floorRelease.acceptChange
    let s2 := s1.sampleLimit.slideSlack.sendGrants.endSample.apportionAll
    let s3 := s2.each (upto 16) State.latchPer
    s3.closeStmts.startJobs.emptyChange

end Sys2Proof.Machine
end

