-- ==== Sys2Proof/Machine/HostCmd.lean ====
section
/-!
DEFINITION. Sys2Proof/Machine/HostCmd.lean: the commands of the command ring that act on faults, classes, statements,
bindings, policy, the host cap and the counter freeze (R306 to R309).
-/
namespace Sys2Proof.Machine

/-! ## Running a ring command -/

/-- Opcodes that must come from the privileged ring set (R307). -/
def privOpcode (op : Nat) : Bool := (decide (6 ≤ op) && decide (op ≤ 8)) || (decide (12 ≤ op) && decide (op ≤ 14))

/-- Opcodes allowed in FAILSAFE (R308, status STATE). -/
def failsafeOpcode (op : Nat) : Bool := op = 1 || op = 2 || op = 4 || op = 11 || op = 13

/-- Word k of a command's operands. -/
def CmdRun.word (c : CmdRun) (k : Nat) : Nat := ((c.oper[k]?).getD 0#32).toNat

/-- Words k and k + 1 of a command's operands as one number. -/
def CmdRun.dword (c : CmdRun) (k : Nat) : Nat := c.word k + 2 ^ 32 * c.word (k + 1)

/-- The OTHER bit of the target word (R306). -/
def CmdRun.other (c : CmdRun) : Bool := testBit c.tgt 4

/-- The partition a command of ring set n acts for (R306). -/
def CmdRun.target (c : CmdRun) (n : Nat) : Nat := if c.other then c.tgt % 16 else n

/-- Whether a command is refused for want of permission: OTHER or a privileged opcode from a ring set that was not privileged
when the command was fetched (R306, R307, R347). -/
def CmdRun.forbidden (c : CmdRun) : Bool := (c.other || privOpcode c.opcode) && !c.priv

/-- The command with this identifier and opcode that has been fetched and has not been started. -/
def State.cmdOf (s : State) (n cid op : Nat) : Option CmdRun :=
  (s.ring n).running.find? fun c => decide (c.cid = cid) && decide (c.opcode = op) && !c.started

/-- A fetched command run: PERM and STATE first, then its own effect; nothing where no such command waits (assumption log 35,
36). -/
def State.hostCmd (s : State) (n cid op : Nat) (f : CmdRun → State → State) : State :=
  match s.cmdOf n cid op with
  | none => s
  | some c =>
    if c.forbidden then s.complete n cid 3 0
    else if s.svc = svcFailsafe && !failsafeOpcode op then s.complete n cid 6 0
    else f c s

/-- A command whose end comes later is marked as started. -/
def State.markStarted (s : State) (n cid : Nat) : State :=
  s.updRing n fun r => { r with running := r.running.map fun c => if c.cid = cid then { c with started := true } else c }

/-- NOP (R307). -/
def execNop (rs : Part) (cid : BitVec 16) (s : State) : Host.Outcome State Fault Refusal :=
  s.run fun s => s.hostCmd rs.val cid.toNat 1 fun _ s => s.complete rs.val cid.toNat 0 0

/-! ## Acknowledging faults -/

/-- The pending slots that an acknowledgement names: all of them, or that with the sequence number (R278). -/
def State.ackSlots (s : State) (seq : Nat) (all : Bool) : List Nat :=
  (upto 16).filter fun j => s.flag .fltPendValid 0 j && (all || decide (s.rd .fltPendSeq 0 j = seq))

/-- Whether a pending fault belongs to partition p with scope DIE or PAIR (R307). -/
def State.pendIsOf (s : State) (p j : Nat) : Bool :=
  match s.rd .fltPendScope 0 j with
  | 0 => (s.scopeParts .die (s.pendOf j).unit).contains p
  | 1 => (s.scopeParts .pair (s.pendOf j).unit).contains p
  | _ => false

/-- Pending faults acknowledged: their timers stop and their slots are free (R278). -/
def State.ack (s : State) (slots : List Nat) : State := s.each slots State.dropPending

/-- ACKFAULT: a fault that the ring set may not acknowledge makes the command PERM (R307). -/
def execAckfault (rs : Part) (cid : BitVec 16) (s : State) : Host.Outcome State Fault Refusal :=
  s.run fun s => s.hostCmd rs.val cid.toNat 2 fun c s =>
    let all := testBit (c.word 0) 16
    let named := s.ackSlots (c.word 0 % 2 ^ 16) all
    let mine := if c.priv then named else named.filter (s.pendIsOf rs.val)
    if !all && mine.length < named.length then s.complete rs.val cid.toNat 3 0
    else (s.ack mine).complete rs.val cid.toNat 0 mine.length

/-! ## Classes -/

/-- The cores of a mask. -/
def maskCores (m : Nat) : List Nat := (upto 128).filter (testBit m)

/-- SETCLASS: a core outside the partition makes the command INVALID; the classes take part from the next sampling instant (R187,
R307). -/
def execSetclass (rs : Part) (cid : BitVec 16) (s : State) : Host.Outcome State Fault Refusal :=
  s.run fun s => s.hostCmd rs.val cid.toNat 3 fun c s =>
    let cores := maskCores (c.dword 0 + 2 ^ 64 * c.dword 2)
    if cores.all fun k => decide (s.partOf (k / 4) = some (c.target rs.val)) then
      (s.each cores fun s k => s.wr .alcCclassCls (c.word 4 % 4) 0 k).complete rs.val cid.toNat 0 0
    else s.complete rs.val cid.toNat 4 0

/-! ## Statements and bindings -/

/-- Whether 8 statements that are never merged are pending for a ring set (R73). -/
def State.stmtsFull (s : State) (n : Nat) : Bool :=
  decide (8 ≤ ((s.ring n).due.filter fun d => d.kind ≠ .periodic).length +
    ((s.ring n).stmts.filter fun d => d.kind ≠ .periodic).length)

/-- A command refused for want of room for its statement (R73). -/
def State.stmtBusy (s : State) (n cid : Nat) : State := (s.wr .obsEstatBusy 1).complete n cid 2 0

/-- STATEMENT: a DEMAND statement falls due, and RESULT is its number (R69, R73, R307). -/
def execStatement (rs : Part) (cid : BitVec 16) (s : State) : Host.Outcome State Fault Refusal :=
  s.run fun s => s.hostCmd rs.val cid.toNat 4 fun c s =>
    let p := c.target rs.val
    if !s.inForce p then s.complete rs.val cid.toNat 4 0
    else if s.stmtsFull p then s.stmtBusy rs.val cid.toNat
    else (s.stmtDue .demand p).complete rs.val cid.toNat 0 (s.ring p).stmSeq

/-- A change put in the queue for a command, which waits for its end; BUSY where four already wait (R291, R308). -/
def State.cmdChange (s : State) (n cid : Nat) (c : Change) : State :=
  match s.requestChange { c with cmd := some (n, cid) } with
  | some s1 => s1.markStarted n cid
  | none => s.complete n cid 2 0

/-- ENDJOB: a FINAL statement, and VALID cleared by a two-phase change (R69, R290, R307). -/
def execEndjob (rs : Part) (cid : BitVec 16) (s : State) : Host.Outcome State Fault Refusal :=
  s.run fun s => s.hostCmd rs.val cid.toNat 5 fun c s =>
    let p := c.target rs.val
    if !s.inForce p then s.complete rs.val cid.toNat 4 0
    else if s.stmtsFull p then s.stmtBusy rs.val cid.toNat
    else s.cmdChange rs.val cid.toNat (s.mkChange (.endJob p) [(⟨.alcPartBindValid, 0, p⟩, 0)] (s.diesOf p) none)

/-- BIND: dies and tag by a two-phase change. A set that overlaps another partition in force completes INVALID with PARTERR set
(R185, R290, R307, assumption log 36). -/
def execBind (rs : Part) (cid : BitVec 16) (s : State) : Host.Outcome State Fault Refusal :=
  s.run fun s => s.hostCmd rs.val cid.toNat 6 fun c s =>
    let p := c.target rs.val
    if s.inForce p && s.stmtsFull p then s.stmtBusy rs.val cid.toNat
    else
      let ws := [(⟨.alcPartDies, 0, p⟩, c.word 0), (⟨.alcPartBindTag, 0, p⟩, c.word 1), (⟨.alcPartBindValid, 0, p⟩, 1)]
      let r := s.bindChange p (c.word 0) (c.word 1) 1 ws (some (rs.val, cid.toNat))
      match r.1 with
      | none => r.2.markStarted rs.val cid.toNat
      | some 1 => r.2.complete rs.val cid.toNat 4 0
      | some _ => r.2.complete rs.val cid.toNat 2 0

/-! ## Policy and the host cap -/

/-- The register writes of a POL word (R203). -/
def polWrites (p v : Nat) : List (FieldRef × Nat) :=
  [(⟨.alcPartPolAskdiv, 0, p⟩, v % 2 ^ 12), (⟨.alcPartPolFloordiv, 0, p⟩, v / 2 ^ 12 % 2 ^ 12),
   (⟨.alcPartPolTrimmax, 0, p⟩, v / 2 ^ 24 % 4), (⟨.alcPartPolMaxdly, 0, p⟩, v / 2 ^ 26 % 16)]

/-- The register writes of a POL2 word; a step budget outside 8 to 64 is clamped (R203). -/
def pol2Writes (p v : Nat) : List (FieldRef × Nat) :=
  [(⟨.alcPartPol2Dlypct, 0, p⟩, v % 256), (⟨.alcPartPol2Stepb, 0, p⟩, clampNat 8 64 (v / 256 % 256))]

/-- SETPOLICY (R203, R290, R307). -/
def execSetpolicy (rs : Part) (cid : BitVec 16) (s : State) : Host.Outcome State Fault Refusal :=
  s.run fun s => s.hostCmd rs.val cid.toNat 7 fun c s =>
    let p := c.target rs.val
    let ws := polWrites p (c.word 0) ++ pol2Writes p (c.word 1) ++ [(⟨.alcPartCap, 0, p⟩, c.word 2)]
    s.cmdChange rs.val cid.toNat (s.mkChange (.policy p) ws (if s.inForce p then s.diesOf p else []) none)

/-- Whether a write would raise the host cap or the tray cap while HELD forbids it (R34). -/
def State.heldForbids (s : State) (f : Field) (v : Nat) : Bool := decide (s.baseSvc = svcHeld) && decide (s.rd f < v)

/-- HOSTCAP (R35, R307, R308). -/
def execHostcap (rs : Part) (cid : BitVec 16) (s : State) : Host.Outcome State Fault Refusal :=
  s.run fun s => s.hostCmd rs.val cid.toNat 8 fun c s =>
    if s.heldForbids .alcHostcapCap (c.word 0) then (s.wr .alcStatusHeldrej 1).complete rs.val cid.toNat 6 0
    else (s.wr .alcHostcapCap (c.word 0)).complete rs.val cid.toNat 0 0

/-! ## The counter freeze and the snapshot -/

/-- A freeze armed at fabric time t; less than 1 µs ahead it takes the next boundary with LATE set (R352, R353). -/
def State.armFreeze (s : State) (t : Nat) : State :=
  let s1 := s.wr .obsFrzctlArmed 1
  if t < s.now + 1000 then { s1.wr .obsFrzctlLate 1 with freezeT := some (ceilTo 250 (s.now + 1)) }
  else { s1 with freezeT := some t }

/-- FREEZE (R307, R352). -/
def execFreeze (rs : Part) (cid : BitVec 16) (s : State) : Host.Outcome State Fault Refusal :=
  s.run fun s => s.hostCmd rs.val cid.toNat 12 fun c s => (s.armFreeze (c.dword 0)).complete rs.val cid.toNat 0 0

/-- Whether a buffer address breaks the 64-byte alignment of R307. -/
def CmdRun.misaligned (c : CmdRun) : Bool := decide (c.dword 0 % 64 ≠ 0)

/-- SNAPSHOT: the capture is asked for; a length below 64 or a misaligned buffer is INVALID (R307, R360). -/
def execSnapshot (rs : Part) (cid : BitVec 16) (s : State) : Host.Outcome State Fault Refusal :=
  s.run fun s => s.hostCmd rs.val cid.toNat 13 fun c s =>
    if c.misaligned || decide (c.word 2 < 64) then s.complete rs.val cid.toNat 4 0 else s.markStarted rs.val cid.toNat

end Sys2Proof.Machine
end

