-- ==== Sys2Proof/Machine/Faults.lean ====
section
/-!
DEFINITION. Sys2Proof/Machine/Faults.lean: FATAL, escalation, acknowledgement, re-arming, injection, error pairs and the
self-tests of lanes and mailboxes (R278 to R288).
-/
namespace Sys2Proof.Machine

/-! ## FATAL and escalation -/

/-- The fault that a FATAL cause reports (R281, R283, R362). -/
def fatalRec (c : FatalCause) (unit : Nat) : FaultRec :=
  match c with
  | .short => fatalFault 7 3 unit 8
  | .railLatched => fatalFault 7 2 unit 8
  | .thermtrip => fatalFault 10 5 unit 6
  | .agent => fatalFault 17 1 unit 3
  | .steward => fatalFault 16 6 unit 0

/-- FATAL_LATCH (R281). -/
def execFatalLatch (src : FatalCause) (unit : BitVec 16) (s : State) : Host.Outcome State Fault Refusal :=
  s.run fun s => s.raise (fatalRec src unit.toNat)

/-- The scope that a code names. -/
def scopeOf (n : Nat) : Scope := if n = 0 then .die else if n = 1 then .pair else .package

/-- ESCALATION: a pending fault's timer ends, and every partition in its scope is stopped (R278, R280). -/
def execEscalation (slot : Fin 16) (s : State) : Host.Outcome State Fault Refusal :=
  s.run fun s =>
    let j := slot.val
    if s.flag .fltPendValid 0 j then
      ((s.advanceTo (s.pendOf j).deadline).dropPending j).escalate (scopeOf (s.rd .fltPendScope 0 j)) (s.pendOf j).unit
        (s.rd .fltPendSeq 0 j)
    else s

/-- FAULT_ACK: a write to FLT.ACK, from any port (R278, R297). -/
def execFaultAck (_port : Port) (val : Word) (s : State) : Host.Outcome State Fault Refusal :=
  s.run fun s => s.ack (s.ackSlots (val.toNat % 2 ^ 16) (testBit val.toNat 16))

/-- FIRST_ERROR_REARM: bit c of a write to FLT.FCLR re-arms the capture of class c (R284). -/
def execFirstErrorRearm (_port : Port) (cls : BitVec 3) (s : State) : Host.Outcome State Fault Refusal :=
  s.run fun s => s.each ((upto 3).filter (testBit cls.toNat)) fun s c => s.wr .fltFirstValid 0 0 c

/-! ## Injection -/

def execInjectLard1 (_port : Port) (s : State) : Host.Outcome State Fault Refusal :=
  s.run fun s => { s with inject := { s.inject with lard := 1 } }

def execInjectLard2 (_port : Port) (s : State) : Host.Outcome State Fault Refusal :=
  s.run fun s => { s with inject := { s.inject with lard := 2 } }

def execInjectCell1 (_port : Port) (s : State) : Host.Outcome State Fault Refusal :=
  s.run fun s => { s with inject := { s.inject with cell := 1 } }

def execInjectCell2 (_port : Port) (s : State) : Host.Outcome State Fault Refusal :=
  s.run fun s => { s with inject := { s.inject with cell := 2 } }

/-- A number put into a list that holds it at most once. -/
def addTo (l : List Nat) (n : Nat) : List Nat := if l.contains n then l else l ++ [n]

/-- INJECT_LANE: the write's DIE field lands too (R287, R297). -/
def execInjectLane (_port : Port) (die : Die) (s : State) : Host.Outcome State Fault Refusal :=
  s.run fun s => { s.wr .fltInjDie die.val with inject := { s.inject with lanes := addTo s.inject.lanes die.val } }

/-- INJECT_MBOX: the write's MB field lands too (R287, R297). -/
def execInjectMbox (_port : Port) (mb : Mbox) (s : State) : Host.Outcome State Fault Refusal :=
  s.run fun s => { s.wr .fltInjMb mb.val with inject := { s.inject with mboxes := addTo s.inject.mboxes mb.val } }

/-- The check of the next Chain frame originated is armed for inversion (R241, R287). -/
def State.injectChain (s : State) : State := { s with inject := { s.inject with chain := true } }

def execInjectChain (_port : Port) (s : State) : Host.Outcome State Fault Refusal := s.run State.injectChain

/-- CHN_INJ_CRCINV (R241). -/
def execChnInjCrcinv (_port : Port) (s : State) : Host.Outcome State Fault Refusal := s.run State.injectChain

/-! ## Error pairs -/

/-- Whether a die's pair to a Hall is broken. -/
def HallDie.pairTo (x : HallDie) (h : Nat) : Bool := if h = 0 then x.pairA else x.pairB

/-- FLT.PAIRBRK shows the pairs to the active Hall (R297). -/
def State.showPairs (s : State) : State :=
  s.wr .fltPairbrkBrk (((upto 40).filter fun d => (s.hd d).pairTo s.active).foldl (fun n d => n + 2 ^ d) 0)

/-- A pair's condition kept. -/
def State.setPair (s : State) (d h : Nat) (b : Bool) : State :=
  (s.updHd d fun x => if h = 0 then { x with pairA := b } else { x with pairB := b }).showPairs

/-- A pair found broken: a CORRECTED fault, or a CONTAINED one when both pairs of the die are (R285). -/
def State.pairBroken (s : State) (d h : Nat) : State :=
  if (s.hd d).pairTo h then s
  else
    let s1 := s.setPair d h true
    if (s1.hd d).pairA && (s1.hd d).pairB then s1.raise (cont 2 2 (unitOf d h) (dieScope d) 0)
    else s1.raise (corr 2 1 (unitOf d h) 0)

/-- ERROR_PAIR_LEVEL: 10 for two samples sets the latches, 00 or 11 marks the pair broken, 01 is no error (R285). The fault that asks
for FATAL is counted where it is raised (assumption log 37). -/
def execErrorPairLevel (die : Die) (hall : Hall) (level : PairLevel) (s : State) : Host.Outcome State Fault Refusal :=
  s.run fun s =>
    match level with
    | .l10 => s.failsafe 0 die.val
    | .l01 => if (s.hd die.val).pairTo hall.val then s.setPair die.val hall.val false else s
    | .l00 | .l11 => s.pairBroken die.val hall.val

/-- GOV_ERR_READBACK (R286). -/
def execGovErrReadback (hall : Hall) (s : State) : Host.Outcome State Fault Refusal :=
  s.run fun s => (s.wr .fltStatusGoverrbad 1).raise (corr 2 3 (40 + hall.val) 0)

/-! ## Self-tests of lanes and mailboxes -/

/-- LANE_SELFTEST: a lane that fails is retired, with a CORRECTED fault (R288, R362). -/
def execLaneSelftest (die : Die) (hall : Hall) (pass : Bool) (s : State) : Host.Outcome State Fault Refusal :=
  s.run fun s =>
    let s1 := s.selfTest pass
    if pass then s1
    else
      (s1.updHd die.val fun x => if hall.val = 0 then { x with laneOutA := true } else { x with laneOutB := true }).raise
        (corr 1 2 (unitOf die.val hall.val) 7)

/-- MAILBOX_SELFTEST: a mailbox that fails raises a CONTAINED fault with scope PACKAGE and stays in use (R288). -/
def execMailboxSelftest (mb : Mbox) (pass : Bool) (s : State) : Host.Outcome State Fault Refusal :=
  s.run fun s =>
    let s1 := s.selfTest pass
    if pass then s1 else s1.raise (cont 6 2 (unitOf (36 + s.active) mb.val) .package 7 (mbAddr mb.val))

end Sys2Proof.Machine
end

