-- ==== Sys2Proof/Machine/Larder.lean ====
section
/-!
DEFINITION. Sys2Proof/Machine/Larder.lean: the Larder, the Cellar and the Pantries: lookup, learning, mirroring, the self-test of their words,
and the host's commands over them (R161 to R182, R288), and descriptors that enter and leave a lookahead window (R26, R27, R163).
-/
namespace Sys2Proof.Machine

/-! ## Sets -/

/-- The 52-bit key as a number (R161, R162). -/
def LKey.num (k : LKey) : Nat := k.tag + 2 ^ 16 * k.layer + 2 ^ 32 * k.op + 2 ^ 48 * k.prec

/-- The Larder set of a key (R172). -/
def larderSet (k : LKey) : Nat := Config.larderHash k.num % 32768

/-- The Pantry set of a key (R168). -/
def pantrySet (k : LKey) : Nat := Config.pantryHash k.num % 1024

/-- The Cellar set of a key: there are a quarter as many sets as entries (R173). -/
def State.cellarSet (s : State) (k : LKey) : Nat := Config.cellarHash k.num % max 1 (s.rd .lrdCellarSize / 4)

/-- Whether the Cellar is enabled (R173). -/
def State.cellarOn (s : State) : Bool := decide (s.rd .lrdCellarSize ≠ 0)

/-- The Cellar part on CDm is available: its die is not in compute-recovery reset, its VMEM rail is in REG, and the die is not
excluded from allocation (R174). -/
def State.partAvail (s : State) (m : Nat) : Bool :=
  s.cellarOn && !(s.die m).inReset && decide (s.rd .rgcStatusState (32 + m / 2) = 3) && !(s.hd m).excluded

/-- The part of a key's Cellar set: its low two bits (R173). -/
def State.partOfKey (s : State) (k : LKey) : Nat := s.cellarSet k % 4

/-- Whether the part that a key belongs to is available. -/
def State.keyAvail (s : State) (k : LKey) : Bool := s.partAvail (s.partOfKey k)

/-! ## Reads and writes with their check bits -/

/-- A state with its Larder changed. -/
def State.updLard (s : State) (f : LarderState → LarderState) : State := { s with lard := f s.lard }

/-- Check bits inverted in a word of the Larder or the Cellar. -/
def State.badBits (s : State) (cellar : Bool) (k : LKey) : Nat :=
  ((s.lard.badWords.find? fun b => b.1 = cellar && b.2.1 = k).map fun b => b.2.2).getD 0

/-- The bad bits of a word forgotten. -/
def State.clearBad (s : State) (cellar : Bool) (k : LKey) : State :=
  s.updLard fun l => { l with badWords := l.badWords.filter fun b => !(b.1 = cellar && b.2.1 = k) }

/-- A word written: an armed injection inverts its check bits once (R287). -/
def State.writeCheck (s : State) (cellar : Bool) (k : LKey) : State :=
  let n := if cellar then s.inject.cell else s.inject.lard
  let s1 := s.clearBad cellar k
  if n = 0 then s1
  else
    let s2 := s1.updLard fun l => { l with badWords := (cellar, k, n) :: l.badWords }
    { s2 with inject := if cellar then { s2.inject with cell := 0 } else { s2.inject with lard := 0 } }

/-- The stronger of a word's injected error and one that the memory shows by itself. -/
def eccBits (e : Ecc) (n : Nat) : Nat :=
  max n (match e with | .ok => 0 | .single => 1 | .double => 2)

/-- A change of the Larder streamed to the standby Hall, while one is ready (R177, R294). -/
def State.stream (s : State) (x : MirrorOp) : State :=
  if s.flag .govHallStbyrdy then s.updLard fun l => { l with stream := l.stream ++ [(x, l.recDone)] } else s

/-- Removes an entry from the Larder or the Cellar. -/
def State.removeEntry (s : State) (cellar : Bool) (k : LKey) : State :=
  let s1 := s.clearBad cellar k
  if cellar then s1.updLard fun l => { l with cellar := l.cellar.filter fun e => e.key ≠ k }
  else (s1.updLard fun l => { l with larder := l.larder.filter fun e => e.key ≠ k }).stream (.drop k)

/-- An entry read: a single-bit error is corrected and counted, a double-bit error invalidates the entry, and either raises a
CORRECTED fault (R182). The address in SRAM is left open, since the hashes are (R172, R284). -/
def State.readEntry (s : State) (cellar : Bool) (k : LKey) (ecc : Ecc) : Option LEntry × State :=
  match (if cellar then s.lard.cellar else s.lard.larder).find? fun e => e.key = k with
  | none => (none, s)
  | some e =>
    let src := if cellar then 4 else 3
    let unit := if cellar then s.partOfKey k else 40 + s.active
    match eccBits ecc (s.badBits cellar k) with
    | 0 => (some e, s)
    | 1 => (some e, (((s.clearBad cellar k).count .lrdEcccor).raise (corr src 1 unit 1 (s.freeNat 64))).useFree)
    | _ => (none, ((s.removeEntry cellar k).raise (corr src 2 unit 1 (s.freeNat 64))).useFree)

/-- The oldest of a list of entries by LAST (assumption log 38). -/
def oldest : List LEntry → Option LEntry
  | [] => none
  | e :: l => match oldest l with
    | some m => if m.last < e.last then some m else some e
    | none => some e

/-- The entries of a set of the Larder or of the Cellar, and the ways that it has left (R172, R173, R288). -/
def State.setOf (s : State) (cellar : Bool) (set : Nat) : List LEntry × Nat :=
  if cellar then (s.lard.cellar.filter fun x => s.cellarSet x.key = set, 4 - (s.lard.withdrawnC.filter fun x => x = set).length)
  else (s.lard.larder.filter fun x => larderSet x.key = set, 8 - (s.lard.withdrawn.filter fun x => x = set).length)

/-- An entry put into the Cellar: its set's oldest way is lost where the set is full (R173). -/
def State.toCellar (s : State) (e : LEntry) : State :=
  let set := s.cellarSet e.key
  let ms := (s.setOf true set).1.filter fun x => x.key ≠ e.key
  let ways := (s.setOf true set).2
  let s1 :=
    if ms.length < ways then s
    else match oldest ms with
      | some v => (s.removeEntry true v.key).count .lrdCdrop
      | none => s
  if ways = 0 then s1.count .lrdCdrop
  else (s1.updLard fun l => { l with cellar := e :: l.cellar.filter fun x => x.key ≠ e.key }).writeCheck true e.key

/-- An entry evicted from the Larder: read, with an error in it handled as at any read, and written to the Cellar where that is enabled. One that
a double-bit error invalidates only frees its way (R172, R182). -/
def State.evict (s : State) (v : LEntry) : State :=
  let r := s.readEntry false v.key .ok
  match r.1 with
  | none => r.2
  | some x =>
    let s1 := r.2.removeEntry false v.key
    (if s.cellarOn then s1.toCellar x else s1).count .lrdEvict

/-- Room made in a Larder set: nothing where a way is free; else the oldest way is evicted to the Cellar, the oldest whose Cellar set
is available where a part is not; false where there is no such way (R172, R174). -/
def State.makeRoom (s : State) (k : LKey) : Bool × State :=
  let set := larderSet k
  let ms := (s.setOf false set).1
  let ways := (s.setOf false set).2
  if ms.length < ways then (true, s)
  else
    let ok := ms.filter fun x => !s.cellarOn || s.keyAvail x.key
    match oldest ms, oldest ok with
    | some w, some v => (true, (if w.key = v.key then s else s.count .lrdCpause).evict v)
    | _, _ => (false, s.count .lrdCpause)

/-- An entry written to the Larder, replacing the one of its key or taking a way of its set; the write is streamed to the standby
(R172, R177). False where the install is abandoned. -/
def State.install (s : State) (e : LEntry) : Bool × State :=
  let put (s : State) : State :=
    ((s.updLard fun l => { l with larder := e :: l.larder.filter fun x => x.key ≠ e.key }).stream (.put e)).writeCheck false e.key
  if s.lard.larder.any fun x => x.key = e.key then (true, put s)
  else
    let r := s.makeRoom e.key
    if r.1 then (true, put r.2) else r

/-- A set that holds more entries than it has ways loses the one whose word is bad, or the oldest where none is (R288; DESIGN CHOICE, assumption
log 107). -/
def State.fitSet (s : State) (cellar : Bool) (set : Nat) : State :=
  let l := s.setOf cellar set
  let bad := l.1.filter fun x => decide (s.badBits cellar x.key ≠ 0)
  if l.1.length ≤ l.2 then s
  else match oldest (if bad.isEmpty then l.1 else bad) with
    | some v => s.removeEntry cellar v.key
    | none => s

/-- MEMORY_WORD_SELFTEST: a word of the set named that fails withdraws its way, so that capacity falls by one entry (R288). -/
def execMemoryWordSelftest (u : MemUnit) (set : Nat) (pass : Bool) (s : State) : Host.Outcome State Fault Refusal :=
  s.run fun s =>
    let s1 := s.selfTest pass
    if pass then s1
    else match u with
      | .larder => (s1.updLard fun l => { l with withdrawn := l.withdrawn ++ [set] }).fitSet false set
      | .cellar => (s1.updLard fun l => { l with withdrawnC := l.withdrawnC ++ [set] }).fitSet true set

/-! ## Learning (R165) -/

/-- Whether an entry is confident (R165). -/
def LEntry.confident (e : LEntry) : Bool := decide (16 ≤ e.count)

/-- An entry with every field zero but its key (R166). -/
def LEntry.fresh (k : LKey) : LEntry :=
  { key := k, emean := 0, dmean := 0, evar := 0, count := 0, maxstep := 0, seeded := false, last := 0 }

/-- An entry after one update record: running mean up to 16 invocations, then an exponential average of weight 1/16 (R165). Each
field is rounded once, as it is stored (assumption log 2). -/
def LEntry.learn (e : LEntry) (r : UpdRec) (now : Nat) : LEntry :=
  let count := min (e.count + 1) 4095
  let w : Rat := if count ≤ 16 then 1 / (count : Rat) else 1 / 16
  let d : Rat := (r.energy : Rat) - (e.emean : Rat)
  let mean : Rat := (e.emean : Rat) + d * w
  let var : Rat :=
    if count ≤ 16 then (e.evar : Rat) + (d * ((r.energy : Rat) - mean) / 256 - (e.evar : Rat)) * w
    else 15 / 16 * ((e.evar : Rat) + d * d / 256 / 16)
  { e with
    emean := min 0xFFFFFFFF (roundNat 13 mean)
    evar := min 0xFFFFFFFF (roundNat 14 var)
    dmean := min 0xFFFFFFFF (roundNat 15 ((e.dmean : Rat) + ((r.cycles : Rat) - (e.dmean : Rat)) * w))
    count, maxstep := max e.maxstep r.k, last := now }

/-- An update record applied by the active Hall: to the entry in the Larder, to the one it fetches from the Cellar, or to a fresh one
(R166, R174). -/
def State.applyRecord (s : State) (r : UpdRec) (ecc : Ecc) : State :=
  let s0 := s.updLard fun l => { l with recDone := r.seq }
  let inL := s0.readEntry false r.key ecc
  match inL.1 with
  | some e => (inL.2.install (e.learn r s.now)).2
  | none =>
    if s.cellarOn && !s.keyAvail r.key then inL.2.count .lrdCpause
    else
      let inC := inL.2.readEntry true r.key ecc
      match inC.1 with
      | some e =>
        let q := (inC.2.removeEntry true r.key).install (e.learn r s.now)
        if q.1 then q.2 else inC.2.count .lrdCpause
      | none => (inC.2.install ((LEntry.fresh r.key).learn r s.now)).2

/-- LARDER_UPDATE_RECORD: the oldest record on its way is applied, or discarded without count by both Halls while they do not learn; with bad
parity it is dropped (R20, R166, R167). -/
def execLarderUpdateRecord (read : LaneRead) (s : State) : Host.Outcome State Fault Refusal :=
  s.run fun s =>
    match s.lard.updates with
    | [] => s
    | r :: rest =>
      let q := (s.updLard fun l => { l with updates := rest }).flitIn r.die read.parityOk
      if !q.1 then q.2
      else if s.learning then q.2.applyRecord r read.ecc
      else q.2.updLard fun l => { l with replay := l.replay.filter fun x => x.seq ≠ r.seq }

/-- The standby's copy after one streamed change (R177). -/
def mirrored (l : List LEntry) : MirrorOp → List LEntry
  | .put e => e :: l.filter fun x => x.key ≠ e.key
  | .drop k => l.filter fun x => x.key ≠ k

/-- LARDER_MIRROR_RECEIVE: the standby receives a streamed change and drops the records it covers (R177). -/
def execLarderMirrorReceive (s : State) : Host.Outcome State Fault Refusal :=
  s.run fun s =>
    match s.lard.stream with
    | [] => s
    | x :: rest => s.updLard fun l =>
      { l with mirror := mirrored l.mirror x.1, stream := rest, replay := l.replay.filter fun r => decide (x.2 < r.seq) }

/-- The standby's copy is complete: it has what the active Hall has (R294; assumption log 88). -/
def State.fillMirror (s : State) : State := s.updLard fun l => { l with mirror := l.larder, stream := [], replay := l.updates }

/-- The Larder taken over by the new active Hall: its own copy, to which it applies the records left in its replay buffer in arrival order;
nothing of the old Hall's is on its way any more, and the Hall that has become standby holds a complete copy when it is ready (R177, R294;
assumption log 88). -/
def State.larderTakeover (s : State) : State :=
  let left := s.lard.replay
  let s1 := s.updLard fun l =>
    { l with larder := l.mirror, badWords := l.badWords.filter fun b => b.1, updates := [], replay := [], stream := [], lookups := [], cellarReads := [] }
  (s1.each left fun s r => s.applyRecord r .ok).fillMirror

/-! ## Lookup -/

/-- A reply put on a die's lane (R20, R169). -/
def State.reply (s : State) (x : LReq) (e : Option LEntry) : State :=
  s.updDie x.die fun y => { y with replies := y.replies ++ [{ key := x.key, ent := e, gen := x.gen }] }

/-- LARDER_LOOKUP_REQUEST: a die's oldest request at the Hall, answered from the Larder, sent on to the Cellar, or answered with the
default; with bad parity it is dropped (R20, R167, R169, R174). -/
def execLarderLookupRequest (die : CDie) (read : LaneRead) (s : State) : Host.Outcome State Fault Refusal :=
  s.run fun s =>
    match s.lard.lookups.find? fun x => x.die = die.val with
    | none => s
    | some x =>
      let q := (s.updLard fun l => { l with lookups := l.lookups.erase x }).flitIn die.val read.parityOk
      if !q.1 then q.2
      else
        let r := q.2.readEntry false x.key read.ecc
        match r.1 with
        | some e => (r.2.count .lrdLhit).reply x (some e)
        | none =>
          let s2 := r.2.count .lrdLmiss
          if !s.cellarOn then s2.reply x none
          else if !s.keyAvail x.key then (s2.count .lrdCpause).reply x none
          else s2.updLard fun l => { l with cellarReads := l.cellarReads ++ [x] }

/-- CELLAR_READ_COMPLETE: a hit moves the entry into the Larder and answers the die; a miss answers with the default. An entry that has come into
the Larder meanwhile is read from there (R169, R173, R174, R177). -/
def execCellarReadComplete (ecc : Ecc) (s : State) : Host.Outcome State Fault Refusal :=
  s.run fun s =>
    match s.lard.cellarReads with
    | [] => s
    | x :: rest =>
      let s1 := s.updLard fun l => { l with cellarReads := rest }
      let inL := s1.readEntry false x.key .ok
      match inL.1 with
      | some e => inL.2.reply x (some e)
      | none =>
        if !s.keyAvail x.key then (inL.2.count .lrdCpause).reply x none
        else
          let r := inL.2.readEntry true x.key ecc
          match r.1 with
          | some e =>
            let q := ((r.2.count .lrdChit).removeEntry true x.key).install e
            (if q.1 then q.2 else (r.2.count .lrdChit).count .lrdCpause).reply x (some e)
          | none => (r.2.count .lrdCmiss).reply x none

/-! ## The Pantry -/

/-- A key is pinned while some descriptor in a window of the die has it (R168). -/
def DieState.pinned (x : DieState) (k : LKey) : Bool := x.windows.any fun w => w.2.any fun y => decide (y.key = some k)

/-- The least recently used unpinned copy of a set, the list being in order of use. -/
def DieState.victim (x : DieState) (set : Nat) : Option PEntry :=
  (x.pantry.reverse).find? fun e => decide (pantrySet e.ent.key = set) && !x.pinned e.ent.key

/-- A fetched entry installed: over its own copy, into a free way, over the least recently used unpinned way, or into the overflow
buffer; discarded where that is full (R168, R171). -/
def DieState.fetch (x : DieState) (e : PEntry) : DieState :=
  let k := e.ent.key
  let set := pantrySet k
  let rest := x.pantry.filter fun y => y.ent.key ≠ k
  let ov := x.overflow.filter fun y => y.ent.key ≠ k
  if rest.length < x.pantry.length || decide ((rest.filter fun y => pantrySet y.ent.key = set).length < 4) then
    { x with pantry := e :: rest, overflow := ov }
  else match x.victim set with
    | some v => { x with pantry := e :: rest.filter fun y => y.ent.key ≠ v.ent.key, overflow := ov }
    | none => if ov.length < 32 && x.pinned k then { x with overflow := e :: ov } else x

/-- Overflow copies whose descriptor has left the window are dropped (R168). -/
def DieState.trimOverflow (x : DieState) : DieState := { x with overflow := x.overflow.filter fun e => x.pinned e.ent.key }

/-- The oldest lookup not yet sent goes to the Hall while fewer than 32 are outstanding (R169; assumption log 87). -/
def State.sendAsk (s : State) (d : Nat) : State :=
  let x := s.die d
  match x.asked.find? fun a => !a.sent with
  | none => s
  | some a =>
    if 32 ≤ (x.asked.filter fun b => b.sent).length then s
    else (s.updDie d fun x => { x with asked := x.asked.map fun b => if b.key = a.key then { b with sent := true } else b }).updLard fun l =>
      { l with lookups := l.lookups ++ [{ die := d, key := a.key, gen := x.gen }] }

/-- A key asked of the Hall, unless it is asked for already (R169). -/
def State.ask (s : State) (d : Nat) (k : LKey) : State :=
  if (s.die d).asked.any fun a => a.key = k then s
  else (s.updDie d fun x => { x with asked := x.asked ++ [{ key := k, start := s.now, sent := false, late := false }] }).sendAsk d

/-- LOOKUP_REPLY: a reply reaches the die agent; an entry found is installed and in use from then on. One for another generation, or with bad
parity, is dropped (R20, R168, R169). -/
def execLookupReply (flit : LaneFlit) (s : State) : Host.Outcome State Fault Refusal :=
  s.run fun s =>
    let d := flit.die.val
    match (s.die d).replies with
    | [] => s
    | r :: rest =>
      let s0 := s.updDie d fun x => { x with replies := rest }
      if r.gen ≠ (s.die d).gen then s0
      else if !flit.parityOk then s0.raise (corr 1 1 (unitOf d s.active) 4)
      else
        let s1 := s0.updDie d fun x => { x with asked := x.asked.filter fun a => a.key ≠ r.key }
        (match r.ent with
        | some e => s1.updDie d fun x => x.fetch { ent := e, fetched := s.now }
        | none => s1).sendAsk d

/-- Whether the answer to a lookup of a die is still to come. -/
def State.awaited (s : State) (d : Nat) (a : Lookup) : Bool :=
  !a.sent || ((s.lard.lookups ++ s.lard.cellarReads).any fun x => x.die = d && x.key = a.key && x.gen = (s.die d).gen) ||
    (s.die d).replies.any fun r => r.key = a.key && r.gen = (s.die d).gen

/-- LOOKUP_TIMEOUT: 4 000 ns after a lookup no reply has come; the default is in use, and PNTLATE counts it. A reply that comes later is used all
the same; a request that was lost is outstanding no more (R169; assumption log 87). -/
def execLookupTimeout (die : CDie) (s : State) : Host.Outcome State Fault Refusal :=
  s.run fun s =>
    let d := die.val
    match (s.die d).asked.find? fun a => !a.late with
    | none => s
    | some a =>
      let keep := s.awaited d a
      (((s.advanceTo (a.start + 4000)).updDie d fun x =>
        { x with asked := (x.asked.map fun b => if b.key = a.key then { b with late := true } else b).filter fun b => keep || decide (b.key ≠ a.key) }).count
          .dagPntlate 1 d).sendAsk d

/-! ## Descriptors -/

/-- The window of an engine, head first. -/
def DieState.window (x : DieState) (i : Nat) : List WinDesc := Store.get (fun _ => []) x.windows i

/-- A window replaced. -/
def DieState.setWindow (x : DieState) (i : Nat) (l : List WinDesc) : DieState :=
  let rest := x.windows.filter fun w => w.1 ≠ i
  { x with windows := if l.isEmpty then rest else (i, l) :: rest }

/-- A die that looks keys up in its Pantry alone: in STEWARD (R167). -/
def State.pantryOnly (s : State) (d : Nat) : Bool := (s.die d).steward || decide (s.svc = svcSteward)

/-- The Pantry lookup of a descriptor that enters: a hit is in use and becomes the most recently used, and one fetched more than
PANTAGE ago is fetched afresh; a miss is asked of the Hall, but not in STEWARD (R167 to R171). -/
def State.lookup (s : State) (d : Nat) (k : LKey) : State :=
  match (s.die d).copyOf k with
  | some e =>
    let s1 := (s.count .dagPnthit 1 d).updDie d fun x =>
      if x.pantry.contains e then { x with pantry := e :: x.pantry.erase e } else x
    if s.pantryOnly d || decide (s.now ≤ e.fetched + 4000 * max 1 (s.rd .lrdCfgPantage)) then s1 else s1.ask d k
  | none =>
    let s1 := s.count .dagPntmiss 1 d
    if s.pantryOnly d then s1 else s1.ask d k

/-- A calibration pattern runs in step 4 of CALIBRATING only (R373). -/
def State.patternsRun (s : State) : Bool := decide (s.svc = svcCalibrating) && decide (s.start.step = 4)

/-- DESCRIPTOR_ENTERS_WINDOW: the power word is read once, reserved codes are substituted with PWFMT set, and the lookup starts; a
window holds eight (R27, R110, R169). No core runs in COLD (R28). A calibration pattern comes before the descriptors of the engine's queues that
have not started, and has no job tag (R373; assumption log 89). -/
def execDescriptorEntersWindow (die : CDie) (core : Core) (eng : Engine) (src : DescSource) (pw : Word64) (s : State) :
    Host.Outcome State Fault Refusal :=
  s.run fun s =>
    let d := die.val
    let i := core.val * 6 + eng.val
    let x := s.die d
    let l := x.window i
    if !x.powered || x.inReset || s.svc = svcCold || decide (8 ≤ l.length) || (decide (src = .pattern) && !s.patternsRun) then s
    else
      let w0 := readPowerWord pw src s.now
      let w := if w0.pattern then w0 else { w0 with tag := (s.partOf d).map s.tagOf }
      let l' := if w.pattern then l.filter (fun y => y.running || y.pattern) ++ [w] ++ l.filter (fun y => !(y.running || y.pattern)) else l ++ [w]
      let s1 := s.updDie d fun x => x.setWindow i l'
      let s2 := if badPowerWord pw then s1.wr .dagStatusPwfmt 1 d else s1
      match w.key with
      | some k => s2.lookup d k
      | none => s2

/-- The class bounds of R26 in 1/16 A. -/
def classBound (c : Nat) : Nat := if c = 0 then 0 else 16 * 2 ^ (c - 1)

/-- The lowest class whose bound is not less than a current in 1/16 A, 7 above 64 A (R164). -/
def observedClass (i : Nat) : Nat := ((upto 8).find? fun c => decide (i ≤ classBound c)).getD 7

/-- The update record of an invocation that has drawn an energy in 2^-16 µJ over a number of cycles (R163, R164, R166). -/
def WinDesc.record (w : WinDesc) (d : Nat) (k : LKey) (energy : Rat) (cycles : Nat) : UpdRec :=
  { die := d, key := k, k := match w.observed with | some i => max w.step (observedClass i) | none => w.step
    observed := w.observed.isSome, energy := min 0xFFFFFFFF (roundNat 19 (energy / 256)), cycles := min 0xFFFFFFFF cycles, seq := 0 }

/-- A die agent's own record: put in its update buffer of 64 and applied to its Pantry copy at once; in STEWARD to the copy alone
(R166, R167). -/
def State.learnAt (s : State) (d : Nat) (r : UpdRec) : State :=
  let steward := s.pantryOnly d
  if !s.flag .lrdCfgLearn || !(steward || s.svc = svcFull || s.svc = svcHeld) then s
  else
    let up (e : PEntry) : PEntry := if e.ent.key = r.key then { e with ent := e.ent.learn r s.now } else e
    let s1 := s.updDie d fun x => { x with pantry := x.pantry.map up, overflow := x.overflow.map up }
    if steward then s1
    else if (s.die d).updBuf.length < 64 then s1.updDie d fun x => { x with updBuf := x.updBuf ++ [r] }
    else s1.count .dagPntupd 1 d

/-- What admission looks back on of an engine whose descriptor has completed: no current is observed for it any more (R164). -/
def AdmState.ended (x : AdmState) (c e : Nat) : AdmState :=
  let off (y : Served) : Served := if y.core = c && y.eng = e then { y with live := false } else y
  { x with next := x.next.map off
           slots := x.slots.map fun l =>
             { l with served := l.served.map off, starts := l.starts.map fun y => if y.core = c && y.eng = e then { y with live := false } else y } }

/-- INVOCATION_COMPLETE: the head of an engine's window has issued its last operation; it is learned from, with what it drew up to the last boundary
and since, and leaves the window (R163 to R166, R168). -/
def execInvocationComplete (die : CDie) (core : Core) (eng : Engine) (m : Measured) (s : State) :
    Host.Outcome State Fault Refusal :=
  s.run fun s =>
    let d := die.val
    let i := core.val * 6 + eng.val
    match (s.die d).window i with
    | [] => s
    | w :: l =>
      let e := s.normOf d i w.queue m.acts
      let s1 := match w.key with
        | some k => s.learnAt d (w.record d k (w.energy + e) (w.cycles + m.cycles))
        | none => s
      s1.updDie d fun x =>
        { (x.setWindow i l).trimOverflow with
          done := { eng := i, queue := w.queue, cycles := m.cycles, energy := e } :: x.done, adm := x.adm.ended core.val eng.val }

/-! ## Host commands -/

/-- The job tag that a command may name: that of its partition while it is in force. -/
def State.ownTag (s : State) (p : Nat) : Option Nat := if s.inForce p then some (s.tagOf p) else none

/-- A 32-byte record in the layout of a Larder entry, with its reserved bits (R162). -/
def readSeed (r : SeedRec) : LEntry × Bool :=
  let w (i : Nat) : Nat := ((r.words[i]?).getD 0).toNat
  ({ key := { tag := w 0 % 2 ^ 16, layer := w 0 / 2 ^ 16, op := w 1 % 2 ^ 16, prec := w 1 / 2 ^ 16 % 16 }, emean := w 2, dmean := w 3, evar := w 4
     count := w 5 % 2 ^ 12, maxstep := w 5 / 2 ^ 12 % 8, seeded := testBit (w 5) 15, last := w 6 + 2 ^ 32 * w 7 },
   decide (w 1 / 2 ^ 20 = 0) && decide (w 5 / 2 ^ 16 = 0))

/-- One seed record: skipped for another tag, non-zero reserved bits or a PREC above 7; else installed with COUNT capped, SEEDED set and
LAST now (R178). True where it was installed. -/
def State.seed (s : State) (any : Bool) (own : Option Nat) (r : SeedRec) : Bool × State :=
  let x := readSeed r
  let k := x.1.key
  if !x.2 || decide (7 < k.prec) || !(any || decide (own = some k.tag)) then (false, s)
  else
    let e : LEntry := { x.1 with count := min x.1.count (s.rd .lrdCfgSeedcap), seeded := true, last := s.now }
    let s1 := if s.lard.larder.any fun x => x.key = k then s else s.removeEntry true k
    let q := s1.install e
    if q.1 then (true, q.2.updLard fun l => { l with invals := l.invals ++ [{ key := k, whole := false }] }) else q

/-- LSEED (R178, R307). A buffer that cannot be read completes DMAERR. -/
def execLseed (rs : Part) (cid : BitVec 16) (recs : Dma (List SeedRec)) (s : State) : Host.Outcome State Fault Refusal :=
  s.run fun s => s.hostCmd rs.val cid.toNat 9 fun c s =>
    if c.misaligned then s.complete rs.val cid.toNat 4 0
    else match recs with
      | .failed => s.complete rs.val cid.toNat 7 0
      | .data l =>
        let rows := l.take (c.word 2)
        let r := rows.foldl (fun (a : Nat × State) x =>
          let q := a.2.seed c.priv (s.ownTag (c.target rs.val)) x
          (a.1 + bit q.1, q.2)) (0, s)
        r.2.complete rs.val cid.toNat 0 (r.1 + 2 ^ 32 * (rows.length - r.1))

/-- Whether every Cellar part a set of keys lies in is available; with the Cellar disabled there is none to be unavailable. -/
def State.allAvail (s : State) : Bool := !s.cellarOn || (upto 4).all s.partAvail

/-- The key that an LCLEAR names (R162, R307). -/
def CmdRun.lkey (c : CmdRun) : LKey :=
  { tag := c.word 0 % 2 ^ 16, layer := c.word 0 / 2 ^ 16, op := c.word 1 % 2 ^ 16, prec := c.word 1 / 2 ^ 16 % 16 }

/-- LCLEAR: a key or a whole tag removed from the Larder, from the available Cellar parts and, with the next grants, from every Pantry;
PARTIAL where a part concerned is unavailable (R171, R179, R307). -/
def execLclear (rs : Part) (cid : BitVec 16) (s : State) : Host.Outcome State Fault Refusal :=
  s.run fun s => s.hostCmd rs.val cid.toNat 10 fun c s =>
    let k := c.lkey
    let whole := testBit (c.word 2) 0
    if !c.priv && decide (s.ownTag (c.target rs.val) ≠ some k.tag) then s.complete rs.val cid.toNat 3 0
    else
      let hit (x : LEntry) : Bool := if whole then x.key.tag = k.tag else x.key = k
      let ls := s.lard.larder.filter hit
      let cs := s.lard.cellar.filter fun x => hit x && s.keyAvail x.key
      let s1 := s.each ls fun s x => s.removeEntry false x.key
      let s2 := s1.each cs fun s x => s.removeEntry true x.key
      let s3 := s2.updLard fun l => { l with invals := l.invals ++ [{ key := k, whole }] }
      let part := if whole then !s.allAvail else s.cellarOn && !s.keyAvail k
      s3.complete rs.val cid.toNat (bit part) (ls.length + cs.length)

/-- The words of an entry's record (R162). -/
def LEntry.words (e : LEntry) : List Word :=
  [w32 (e.key.tag + 2 ^ 16 * e.key.layer), w32 (e.key.op + 2 ^ 16 * e.key.prec), w32 e.emean, w32 e.dmean, w32 e.evar,
   w32 (e.count + 2 ^ 12 * e.maxstep + 2 ^ 15 * bit e.seeded)] ++ w64 e.last

/-- LEXPORT: the entries of the partition's tag written to the buffer; PARTIAL where it fills or a Cellar part asked for is unavailable,
DMAERR where a write fails (R180, R307). -/
def execLexport (rs : Part) (cid : BitVec 16) (ok : Bool) (s : State) : Host.Outcome State Fault Refusal :=
  s.run fun s => s.hostCmd rs.val cid.toNat 11 fun c s =>
    let withC := testBit (c.word 3) 0
    if c.misaligned then s.complete rs.val cid.toNat 4 0
    else match s.ownTag (c.target rs.val) with
      | none => s.complete rs.val cid.toNat 4 0
      | some t =>
        let keys := (s.lard.larder.filter fun x => x.key.tag = t).map (fun x => (false, x.key)) ++
          (if withC then
            (s.lard.cellar.filter fun x => x.key.tag = t && s.keyAvail x.key &&
              !(s.lard.larder.any fun y => y.key = x.key)).map (fun x => (true, x.key)) else [])
        let r := (keys.take (c.word 2)).foldl (fun (a : List LEntry × State) k =>
          let q := a.2.readEntry k.1 k.2 .ok
          (a.1 ++ q.1.toList, q.2)) ([], s)
        if !ok then r.2.complete rs.val cid.toNat 7 0
        else
          let out := (r.1.zipIdx).map fun x =>
            ({ port := s.ringPort rs.val, addr := c.dword 0 + 32 * x.2, words := x.1.words } : HostWrite)
          let part := decide (c.word 2 < keys.length) || (withC && !s.allAvail)
          ({ r.2 with dma := r.2.dma ++ out }).complete rs.val cid.toNat (bit part) r.1.length

end Sys2Proof.Machine
end

