-- ==== Sys2Proof/Machine/Rails.lean ====
section
/-!
DEFINITION. Sys2Proof/Machine/Rails.lean: how a rail starts, stops, protects itself and sheds phases, and the states of R92 (R80,
R82, R88, R91 to R104, R106, R288, R391).
-/
namespace Sys2Proof.Machine

/-! ## Rail states (R92) -/

def railOff : Nat := 0
def railCheck : Nat := 1
def railRamp : Nat := 2
def railReg : Nat := 3
def railHiccup : Nat := 4
def railLatched : Nat := 5
def railShort : Nat := 6
def railDown : Nat := 7

/-- The state of a rail. -/
def State.railSt (s : State) (r : Nat) : Nat := s.rd .rgcStatusState r

/-- A rail channel that has an owner whose island has power: only such a rail is regulated (R80, R97). -/
def State.railLives (s : State) (r : Nat) : Bool :=
  match railOwner r with
  | some d => (s.die d).powered
  | none => false

/-- A rail whose phases switch. -/
def State.railOn (s : State) (r : Nat) : Bool :=
  s.railSt r = railRamp || s.railSt r = railReg || s.railSt r = railDown

/-- The phase rating of a rail in amperes (R80). -/
def phaseRating (r : Nat) : Nat := byType r 70 50 50 40 40 30

/-- The phase channel of a rail's wired phase p (R80). -/
def phaseChannel (r p : Nat) : Nat :=
  p + byType r (4 * r) (128 + 2 * (r - 32)) (160 + 3 * (r - 48)) (172 + 2 * (r - 52)) (176 + 2 * (r - 54)) (180 + (r - 56))

/-- The unit identifier of a rail, and of one of its phases (R283). -/
def railUnit (r : Nat) : Nat := unitOf ((railOwner r).getD 0) r
def phaseUnit (r p : Nat) : Nat := unitOf ((railOwner r).getD 0) (phaseChannel r p)

/-- The scope of a CONTAINED fault of a rail (R277). -/
def railScope (r : Nat) : Scope :=
  match railType r with
  | some .vcmp => .die
  | some .vmem => .pair
  | _ => .package

/-- The compute dies that a rail feeds. -/
def fedDies (r : Nat) : List Nat :=
  match railType r with
  | some .vcmp => [r]
  | some .vmem => [2 * (r - 32), 2 * (r - 32) + 1]
  | _ => []

/-- Slot length and phase count of a rail, never 0. -/
def State.slotS (s : State) (r : Nat) : Nat := max 1 (s.rd .rgcSlotS r)
def State.slotN (s : State) (r : Nat) : Nat := max 1 (s.rd .rgcCfgPhcnt r)

/-! ## Phases (R98, R99) -/

/-- The condition bits of a phase: 1 active, 2 shed, 4 retired, 8 IMON masked (R107). -/
def State.ph (s : State) (r p : Nat) : Nat := s.rd .rgcPhstatPh r p

def State.phActive (s : State) (r p : Nat) : Bool := testBit (s.ph r p) 0
def State.phShed (s : State) (r p : Nat) : Bool := testBit (s.ph r p) 1
def State.phRetired (s : State) (r p : Nat) : Bool := testBit (s.ph r p) 2
def State.phMasked (s : State) (r p : Nat) : Bool := testBit (s.ph r p) 3

/-- The enabled phases of a rail, lowest first. -/
def State.phases (s : State) (r : Nat) : List Nat := upto (s.slotN r)

/-- The active phases of a rail. -/
def State.actives (s : State) (r : Nat) : List Nat := (s.phases r).filter (s.phActive r)

/-- The 1 ms sample of a rail spoilt for calibration (R56). -/
def State.disturb (s : State) (r : Nat) : State := s.updRail r fun x => { x with disturbed := true }

/-- A phase made active or shed; a retired phase stays as it is (R99). -/
def State.setPhase (s : State) (r p : Nat) (on : Bool) : State :=
  if s.phRetired r p || decide (s.phActive r p = on ∧ s.phShed r p = !on) then s
  else (s.wr .rgcPhstatPh ((if on then 1 else 2) + 8 * bit (s.phMasked r p)) r p).disturb r

/-- Every enabled phase active. -/
def State.allPhases (s : State) (r : Nat) : State :=
  ((s.phases r).foldl (fun s p => s.setPhase r p true) s).updRail r fun x => { x with low := 0 }

/-- Every phase at tri-state: none active, none shed. -/
def State.noPhases (s : State) (r : Nat) : State :=
  s.each (upto 4) fun s p =>
    s.wr .rgcPhstatPh (4 * bit (s.phRetired r p) + 8 * bit (s.phMasked r p)) r p

/-- Phases retired on a rail. -/
def State.retiredPhases (s : State) (r : Nat) : Nat := (s.phasesOut.filter fun x => x.1 = r).length

/-! ## The slot grid (R84) -/

/-- The stagger offset that a rail approaches: outside the Chain pos is 0 and m is 1 (R84). -/
def State.staggerTgt (s : State) (r : Nat) : Nat :=
  let inChain := decide (s.chainRole = 2)
  let pos := if inChain then s.rd .chnPos else 0
  let m := if inChain then max 1 (s.rd .chnPosM) else 1
  s.slotS r * (16 * pos + r % 16) / (16 * m)

/-- The root count of fabric time, rounded down (R83). -/
def rootCount (t : Nat) : Nat := t * 48 / 5

/-- The fabric time in whole nanoseconds of the boundary at the end of a rail's slot n. -/
def State.slotEnd (s : State) (r n : Nat) : Nat := (s.rd .rgcStaggerOffs r + (n + 1) * s.slotS r) * 5 / 48

/-! ## Changes of state -/

/-- A rail enters a state. -/
def State.railTo (s : State) (r st : Nat) : State :=
  ((s.wr .rgcStatusState st r).wr .rgcStatusVready 0 r).updRail r fun x => { x with since := s.now, disturbed := true }

/-- A coefficient set that waits for a slot boundary put in use (R88). -/
def State.takeComp (s : State) (r : Nat) : State :=
  match (s.rail r).newComp with
  | none => s
  | some l => (s.puts ((compFields.zip l).map fun x => (⟨x.1, r, 0⟩, x.2))).updRail r fun x => { x with newComp := none }

/-- A rail stops driving: RAILnn_EN low and every phase at tri-state; an excursion above VMAX ends with it (R91). -/
def State.railQuiet (s : State) (r st : Nat) : State :=
  (((s.takeComp r).railTo r st).noPhases r).updRail r fun x =>
    { x with vref := 0, ramp := 0, ff := 0, pulse := none, near := 0, cut := false, cutRun := 0, sumOver := false, above := 0, under := 0,
             excursion := false, tri := false, low := 0 }

/-- The Cellar part of a die lost with its memory rail's power: it returns empty, with a CORRECTED fault (R174, R362). -/
def State.loseCellar (s : State) (m : Nat) : State :=
  if m < 4 && s.cellarOn then
    let keep := s.lard.cellar.filter fun e => s.partOfKey e.key ≠ m
    (s.updLard fun l => { l with cellar := keep }).raise (corr 4 3 m 0)
  else s

/-- A memory rail that leaves REG loses the Cellar parts on its dies (R174). -/
def State.leaveReg (s : State) (r : Nat) : State :=
  if s.railSt r = railReg && decide (32 ≤ r) && decide (r < 34) then
    (s.loseCellar (2 * (r - 32))).loseCellar (2 * (r - 32) + 1)
  else s

/-- A compute die enters compute-recovery reset: running descriptors and windows are abandoned, pending requests end with no notice,
and the issue limiters are cleared; its die agent keeps everything else (R391). The remainder of a large charge goes with the request that it was
charged for (R113; DESIGN CHOICE, assumption log 77). -/
def State.enterReset (s : State) (d : Nat) : State :=
  let s1 := s.updDie d fun x =>
    { x with windows := [], overflow := []
             adm := { (upto 24).foldl (fun a i => a.ended (i / 6) (i % 6)) x.adm with reqs := [], limiters := [], debt := 0, notices := [] } }
  (s1.each (upto 4) fun s c => s.wr .dagAdmcorePend 0 d c).wr .dagAdmstatPend 0 d

/-- Both rails that feed a compute die are in REG. -/
def State.dieFed (s : State) (d : Nat) : Bool := s.railSt d = railReg && s.railSt (32 + d / 2) = railReg

/-- A compute die held in compute-recovery reset until the rails that feed it are in REG again (R101; assumption log 39). -/
def State.holdReset (s : State) (d : Nat) : State :=
  (s.enterReset d).updDie d fun x => { x with inReset := true }

/-- The dies a rail feeds leave compute-recovery reset where both their rails are in REG. -/
def State.freeReset (s : State) (r : Nat) : State :=
  s.each (fedDies r) fun s d => if s.dieFed d then s.updDie d fun x => { x with inReset := false } else s

/-- The followers of a rail: rails of the same owner in mode 1 or 2 that name it as leader (R96). -/
def State.followers (s : State) (r : Nat) : List Nat :=
  (upto 60).filter fun f => decide (f ≠ r) && (s.rd .rgcSeqMode f = 1 || s.rd .rgcSeqMode f = 2) &&
    decide (s.rd .rgcSeqLeader f = r)

/-- The leader of a rail in mode 1 or 2. -/
def State.leader (s : State) (r : Nat) : Option Nat :=
  if s.rd .rgcSeqMode r = 1 || s.rd .rgcSeqMode r = 2 then some (s.rd .rgcSeqLeader r) else none

/-- Whether a rail's chain of leaders is legal: each with the rail's owner, and no cycle; n bounds its length (R96). -/
def State.leadersOk (s : State) (r : Nat) : Nat → Nat → Bool
  | 0, _ => false
  | n + 1, x =>
    match s.leader x with
    | none => true
    | some l => decide (railOwner l = railOwner r) && (railType l).isSome && s.leadersOk r n l

/-- A rail and its followers, and theirs, to depth n. -/
def State.withFollowers (s : State) : Nat → Nat → List Nat
  | 0, r => [r]
  | n + 1, r => r :: (s.followers r).flatMap fun f => s.withFollowers n f

/-- The rails a leader takes with it: at most three share an owner. -/
def State.family (s : State) (r : Nat) : List Nat := distinct (s.withFollowers 2 r)

/-- Values held for the next start put in force (R83). -/
def State.takeHeld (s : State) (r : Nat) : State :=
  let x := s.rail r
  let s1 := match x.heldS with | some v => s.wr .rgcSlotS v r | none => s
  let s2 := match x.heldN with | some v => s1.wr .rgcCfgPhcnt v r | none => s1
  s2.updRail r fun x => { x with heldS := none, heldN := none }

/-- One rail enters CHECK and waits for its input (R93). -/
def State.enterCheck (s : State) (r : Nat) : State :=
  (((s.takeHeld r).railQuiet r railCheck)).updRail r fun x => { x with chk := 0 }

/-- A rail that starts: CHECK together with its enabled followers that are OFF, and theirs; a broken chain of leaders leaves a rail OFF with
SEQERR (R93, R96). -/
def State.startRail (s : State) (r : Nat) : State :=
  if s.railSt r ≠ railOff || !s.flag .rgcCfgEn r || !s.railLives r then s
  else if !s.leadersOk r 4 r then s.wr .rgcStatusSeqerr 1 r
  else
    let wait : Bool := match s.leader r with | some l => decide (s.railSt l = railOff) | none => false
    if wait then s
    else (s.enterCheck r).each ((s.family r).filter fun f => decide (f ≠ r) && s.railSt f = railOff && s.flag .rgcCfgEn f)
      fun s f => if s.leadersOk f 4 f then s.enterCheck f else s.wr .rgcStatusSeqerr 1 f

/-- A rail enters RAMP: histories and carry zero, vref from the voltage sensed at the end of its window, all enabled phases active, the grid at
its target offset (R84, R87, R92). -/
def State.enterRamp (s : State) (r : Nat) : State :=
  let t := s.staggerTgt r
  let s1 := (((s.railTo r railRamp).wr .rgcStaggerOffs t r).wr .rgcStaggerTgt t r).allPhases r
  s1.updRail r fun x =>
    { x with vref := x.vs, ramp := x.vs, e := [0, 0, 0], u := [0, 0, 0], carry := 0, ff := 0, near := 0, cut := false, cutRun := 0,
             above := 0, under := 0, excursion := false, slot := (rootCount s.now - t) / s.slotS r }

/-- Whether a rail that has passed its check waits for its leader to switch (R96). -/
def State.waitsLeader (s : State) (r : Nat) : Bool := match s.leader r with | some l => !s.railOn l | none => false

/-- A rail that has passed its check enters RAMP, unless it waits for its leader; followers that wait enter as their leaders do (R96). -/
def State.passCheck (s : State) (r : Nat) : State :=
  if s.waitsLeader r then s.updRail r fun x => { x with chk := 3 }
  else (s.enterRamp r).each ((s.family r).filter fun f => decide (f ≠ r)) fun s f =>
    if s.railSt f = railCheck && decide ((s.rail f).chk = 3) && !s.waitsLeader f then s.enterRamp f else s

/-- The rails that leave REG with a rail for a state that it is driven to: itself, and from REG its followers that are neither OFF nor already
LATCHED or SHORT (R97). -/
def State.takenWith (s : State) (r : Nat) : List Nat :=
  if s.railSt r = railReg then
    (s.family r).filter fun x => decide (x = r) || !(s.railSt x = railOff || s.railSt x = railLatched || s.railSt x = railShort)
  else [r]

/-- A short is declared: SHORT, the sticky bit, and FATAL; followers of a rail in REG go with it (R94, R97). -/
def State.railShorted (s : State) (r : Nat) : State :=
  let s1 := s.each (s.takenWith r) fun s x => (s.leaveReg x).railQuiet x railShort
  (s1.wr .rgcStatusShort 1 r).raise (fatalFault 7 3 (railUnit r) 8)

/-- A reason to exclude a die added or removed. -/
def State.setExcl (s : State) (d reason : Nat) (on : Bool) : State :=
  s.updHd d fun x => { x with excl := if on then addTo x.excl reason else x.excl.filter (· ≠ reason) }

/-- A rail LATCHED: its dies are excluded with a CONTAINED fault, or FATAL where it feeds a fabric, hub or host die (R103). -/
def State.latchRail (s : State) (r : Nat) : State :=
  let s1 := s.railQuiet r railLatched
  match railType r with
  | some .vcmp | some .vmem =>
    (s1.each (fedDies r) fun s d => s.setExcl d 0 true).raise (cont 7 2 (railUnit r) (railScope r) 8)
  | _ => s1.raise (fatalFault 7 2 (railUnit r) 8)

/-- Whether a hiccup or failed start now is consecutive with the one before: less than 1 s after the rail last entered REG. Of a rail that has never
entered it the rule says nothing, and its failed starts count as consecutive (R103; DESIGN CHOICE, assumption log 93). -/
def State.consecutive (s : State) (r : Nat) : Bool :=
  match (s.rail r).regAt with
  | some t => decide (s.now < t + 1000000000)
  | none => true

/-- One rail in HICCUP: the dies it feeds held in reset, a CONTAINED fault with the detail given, and the counts (R101, R103). -/
def State.hiccupOne (s : State) (r detail : Nat) : State :=
  let s1 := (((s.leaveReg r).railQuiet r railHiccup).each (fedDies r) State.holdReset).count .rgcHiccupCount 1 r
  (s1.wr .rgcHiccupConsec (min 7 ((if s.consecutive r then s.rd .rgcHiccupConsec r else 0) + 1)) r).raise
    (cont 7 detail (railUnit r) (railScope r) 8)

/-- A hiccup or a failed start of a rail and, from REG, of the followers it takes with it; at CONSEC 4 a rail is LATCHED, and a leader's followers
with it (R97, R101, R102, R103). -/
def State.hiccup (s : State) (r detail : Nat) : State :=
  let rs := s.takenWith r
  let s1 := s.each rs fun s x => s.hiccupOne x detail
  let all := decide (4 ≤ s1.rd .rgcHiccupConsec r)
  s1.each rs fun s x => if all || decide (4 ≤ s.rd .rgcHiccupConsec x) then s.latchRail x else s

/-! ## Starting and stopping -/

/-- RAIL_ENABLE (R93, R95, R96). -/
def execRailEnable (rail : Rail) (s : State) : Host.Outcome State Fault Refusal :=
  s.run fun s => if (railType rail.val).isSome then (s.wr .rgcCfgEn 1 rail.val).startRail rail.val else s

/-- EN cleared: a switching rail and its followers go DOWN, a check ends at once, and HICCUP, LATCHED and SHORT last (R97, R105). -/
def State.disableRail (s : State) (r : Nat) : State :=
  let s1 := s.wr .rgcCfgEn 0 r
  if s1.railSt r = railRamp || s1.railSt r = railReg then
    s1.each ((s1.family r).filter fun x => s1.railSt x = railRamp || s1.railSt x = railReg) fun s x => (s.leaveReg x).railTo x railDown
  else if s1.railSt r = railCheck then
    (s1.railQuiet r railOff).each ((s1.family r).filter fun f => decide (f ≠ r) && s1.railSt f = railCheck) fun s f => s.railQuiet f railOff
  else s1

/-- RAIL_DISABLE (R97). -/
def execRailDisable (rail : Rail) (s : State) : Host.Outcome State Fault Refusal :=
  s.run fun s => if (railType rail.val).isSome then s.disableRail rail.val else s

/-- A change that takes place while a rail is in CHECK at a given step. -/
def State.inCheck (s : State) (r step : Nat) (f : State → State) : State :=
  if s.railSt r = railCheck && (s.rail r).chk = step then f s else s

/-- CHECK_INPUT_PRESENT (R93). -/
def execCheckInputPresent (rail : Rail) (s : State) : Host.Outcome State Fault Refusal :=
  s.run fun s => s.inCheck rail.val 0 fun s => s.updRail rail.val fun x => { x with chk := 1, since := s.now }

/-- CHECK_INPUT_TIMEOUT: no input within 10 ms (R93). -/
def execCheckInputTimeout (rail : Rail) (s : State) : Host.Outcome State Fault Refusal :=
  s.run fun s => s.inCheck rail.val 0 fun s =>
    let r := rail.val
    let s1 := (s.advanceTo ((s.rail r).since + 10000000)).railQuiet r railOff
    (s1.wr .rgcStatusNoinput 1 r).raise (cont 7 4 (railUnit r) (railScope r) 6)

/-- CHECK_DECAYED (R93). -/
def execCheckDecayed (rail : Rail) (s : State) : Host.Outcome State Fault Refusal :=
  s.run fun s => s.inCheck rail.val 1 fun s => s.updRail rail.val fun x => { x with chk := 2, since := s.now }

/-- CHECK_DECAY_TIMEOUT: not decayed within 20 ms (R93, R94). -/
def execCheckDecayTimeout (rail : Rail) (s : State) : Host.Outcome State Fault Refusal :=
  s.run fun s => s.inCheck rail.val 1 fun s => (s.advanceTo ((s.rail rail.val).since + 20000000)).railShorted rail.val

/-- CHECK_WINDOW_END: 200 µs have passed and the offsets are stored; a voltage above 0.25 V at the last sample is a short as well (R92, R93,
R96). -/
def execCheckWindowEnd (rail : Rail) (win : WindowRead) (s : State) : Host.Outcome State Fault Refusal :=
  s.run fun s => s.inCheck rail.val 2 fun s =>
    let s0 := s.advanceTo ((s.rail rail.val).since + 200000)
    if 500 < win.vsense then s0.railShorted rail.val
    else
      (s0.updRail rail.val fun x =>
        { x with vs := win.vsense, offs := ((win.offs ++ [0, 0, 0, 0]).take 4).map fun (n : Int) => (n : Rat) }).passCheck rail.val

/-- SHORT_IN_WINDOW (R93, R94). -/
def execShortInWindow (rail : Rail) (s : State) : Host.Outcome State Fault Refusal :=
  s.run fun s => s.inCheck rail.val 2 fun s => s.railShorted rail.val

/-- The target of a rail, never 0 where it divides. -/
def State.target (s : State) (r : Nat) : Nat := max 1 (s.rd .rgcVidV r)

/-- The nominal ramp time of a start in nanoseconds: from 0 to the target at SEQ.RAMP, in 0.125 mV/µs (R92, R107). -/
def State.rampNs (s : State) (r : Nat) : Nat := s.target r * 4000 / max 1 (s.rd .rgcSeqRamp r)

/-- RAIL_START_TIMEOUT: a start that has not reached 90 % of its target is a hiccup (R102). -/
def execRailStartTimeout (rail : Rail) (s : State) : Host.Outcome State Fault Refusal :=
  s.run fun s =>
    let r := rail.val
    if s.railSt r = railRamp && decide (10 * (s.rail r).vs < 9 * s.target r) then
      (s.advanceTo ((s.rail r).since + 4 * s.rampNs r + 1000000)).hiccup r 5
    else s

/-- A rail that the Lintel limit on its summed current can still stop: in any state but those in which it is off (R100). -/
def State.sumStops (s : State) (r : Nat) : Bool := s.railOn r || s.railSt r = railCheck

/-- HICCUP_ENTRY: eight current-limited cycles in REG, a TMON fault, or the Lintel limit on the summed current (R100, R101). -/
def execHiccupEntry (rail : Rail) (tmon : Bool) (s : State) : Host.Outcome State Fault Refusal :=
  s.run fun s =>
    let r := rail.val
    if (s.railSt r = railReg && (tmon || decide (8 ≤ (s.rail r).cutRun))) || ((s.rail r).sumOver && s.sumStops r) then s.hiccup r 1 else s

/-- HICCUP_END: after 20 ms the rail enters CHECK, or OFF where EN has been cleared (R101, R105). -/
def execHiccupEnd (rail : Rail) (s : State) : Host.Outcome State Fault Refusal :=
  s.run fun s =>
    let r := rail.val
    if s.railSt r = railHiccup then
      let s1 := s.advanceTo ((s.rail r).since + 20000000)
      if s.flag .rgcCfgEn r then s1.enterCheck r else s1.railQuiet r railOff
    else s

/-- CONSEC_CLEAR: 1 s in REG (R103). -/
def execConsecClear (rail : Rail) (s : State) : Host.Outcome State Fault Refusal :=
  s.run fun s =>
    let r := rail.val
    match (s.rail r).regAt with
    | some t => if s.railSt r = railReg then (s.advanceTo (t + 1000000000)).wr .rgcHiccupConsec 0 r else s
    | none => s

/-- RAIL_INPUT_LOST (R104). -/
def execRailInputLost (rail : Rail) (s : State) : Host.Outcome State Fault Refusal :=
  s.run fun s =>
    let r := rail.val
    if s.railSt r = railReg then
      (((s.leaveReg r).enterCheck r).wr .rgcStatusNoinput 1 r).raise (cont 7 4 (railUnit r) (railScope r) 6)
    else s

/-- RAIL_DOWN_COMPLETE: vref has fallen to 0.10 V (R97). -/
def execRailDownComplete (rail : Rail) (s : State) : Host.Outcome State Fault Refusal :=
  s.run fun s => if s.railSt rail.val = railDown && decide ((s.rail rail.val).vref ≤ 200) then s.railQuiet rail.val railOff else s

/-! ## Protection -/

/-- The service limit of a phase in 1/16 A: folded back in CHECK, RAMP and TEST to OCP.PHASE × max(0.25, vsense / target), and
capped by the Lintel limit (R100, R102). -/
def State.ocp (s : State) (r : Nat) : Rat :=
  if s.railSt r = railCheck || s.railSt r = railRamp || s.flag .rgcCfgTest r then
    (s.rd .rgcOcpPhase r : Rat) * max (1 / 4) (((s.rail r).vs : Rat) / s.target r)
  else (min (s.rd .rgcOcpPhase r) (s.rd .rgcOclimPhase r) : Nat)

/-- PULSE_CURRENT_LIMIT: a phase current in 1/16 A that reaches a limit ends its pulse, and a summed current above the Lintel limit brings
HICCUP at the next slot (R100, R105). -/
def execPulseCurrentLimit (rail : Rail) (phase : Phase) (cur : Nat) (sum : Nat) (s : State) : Host.Outcome State Fault Refusal :=
  s.run fun s =>
    let r := rail.val
    if !s.sumStops r then s
    else
      let hit := s.phActive r phase.val && (decide (s.ocp r ≤ cur) || decide (s.rd .rgcOclimPhase r ≤ cur))
      let pulse := (s.rail r).pulse.filter fun y => !(hit && decide (y.1 = phase.val))
      s.updRail r fun x => { x with cut := x.cut || hit, pulse, sumOver := x.sumOver || decide (s.rd .rgcOclimRail r < sum) }

/-- VMAX_CUT: every phase at tri-state for the rest of the switching cycle; one CORRECTED fault for each excursion (R91). -/
def execVmaxCut (rail : Rail) (s : State) : Host.Outcome State Fault Refusal :=
  s.run fun s =>
    let r := rail.val
    let x := s.rail r
    if s.railOn r && decide (4 ≤ x.above) then
      let s1 := s.updRail r fun x => { x with tri := true, excursion := true }
      if x.excursion then s1 else s1.raise (corr 15 1 (railUnit r) 8)
    else s

/-- IMON_MASK: the phase's current is taken from the others, and its self-test runs (R82). -/
def execImonMask (rail : Rail) (phase : Phase) (s : State) : Host.Outcome State Fault Refusal :=
  s.run fun s =>
    let r := rail.val
    let p := phase.val
    if (railType r).isSome && decide (p < railWired r) && !s.phMasked r p && !s.phRetired r p then
      ((s.wr .rgcPhstatPh (s.ph r p + 8) r p).disturb r).raise (corr 8 1 (phaseUnit r p) 6)
    else s

/-- A phase retired and held at tri-state; the fault is CONTAINED where too few phases stay active (R99, R288). -/
def State.retirePhase (s : State) (r p : Nat) : State :=
  let s1 := { (s.wr .rgcPhstatPh 4 r p).disturb r with phasesOut := s.phasesOut ++ [(r, p)] }
  if (s1.actives r).length < s1.rd .rgcShedPhmin r then s1.raise (cont 8 2 (phaseUnit r p) (railScope r) 7)
  else s1.raise (corr 8 2 (phaseUnit r p) 7)

/-- PHASE_SELFTEST: IMON during a pulse of TMIN must rise at least 1 A above the sample before it, both in 1/16 A (R288). -/
def execPhaseSelftest (rail : Rail) (phase : Phase) (before : Int) (during : Int) (s : State) :
    Host.Outcome State Fault Refusal :=
  s.run fun s =>
    let r := rail.val
    let p := phase.val
    if s.phMasked r p then
      let pass := decide (before + 16 ≤ during)
      let s1 := s.selfTest pass
      if pass then (s1.wr .rgcPhstatPh (s.ph r p - 8) r p).disturb r else s1.retirePhase r p
    else s

/-! ## Shedding -/

/-- Whether a rail may shed phases now (R98). -/
def State.mayShed (s : State) (r : Nat) : Bool :=
  s.railSt r = railReg && !s.flag .rgcCfgNoshed r && decide (s.svc = svcFull || s.svc = svcHeld || s.svc = svcSteward)

/-- PHASE_SHED: after DLY switching cycles below the threshold the highest active phase is shed, down to PHMIN (R98). -/
def execPhaseShed (rail : Rail) (s : State) : Host.Outcome State Fault Refusal :=
  s.run fun s =>
    let r := rail.val
    let act := s.actives r
    if s.mayShed r && decide (s.rd .rgcShedDly r * s.slotN r ≤ (s.rail r).low) && decide (s.rd .rgcShedPhmin r < act.length) then
      match act.getLast? with
      | some p => (s.setPhase r p false).updRail r fun x => { x with low := 0 }
      | none => s
    else s

/-! ## Coefficients and averages -/

/-- The shadow set of a rail goes into use at the next slot boundary, at once where the rail has no slots, unless |1 + a1 + a2 + a3| exceeds
2^-14 (R88). -/
def State.commitComp (s : State) (r : Nat) : State :=
  if (railType r).isNone then s
  else
    let l := (s.rail r).shadow
    let a (k : Nat) : Int := toSigned 16 ((l[k]?).getD 0)
    if (16384 + a 4 + a 5 + a 6).natAbs ≤ 1 then
      let s1 := s.updRail r fun x => { x with newComp := some l }
      if s.railOn r then s1 else s1.takeComp r
    else s.wr .rgcStatusCommiterr 1 r

/-- COMP_COMMIT (R88). -/
def execCompCommit (rail : Rail) (s : State) : Host.Outcome State Fault Refusal :=
  s.run fun s => s.commitComp rail.val

/-- The four means of a span of slots, voltage, current, power and temperature, as their registers hold them. -/
def RailSums.means (x : RailSums) : List Nat :=
  let m (site : Nat) (v : Rat) : Nat := ofSigned 16 (roundFree site (v / (x.n : Rat)))
  [m 16 x.v, m 17 x.i, m 18 x.p, m 19 x.t]

/-- The averages of a span taken, and the span begun again; outside REG they hold, and what has been summed is dropped (R106). -/
def State.telMeans (s : State) (r : Nat) (x : RailSums) (v i p t : Field) : State :=
  if x.n = 0 || decide (s.railSt r ≠ railReg) then s
  else
    let m := x.means
    s.puts [(⟨v, r, 0⟩, (m[0]?).getD 0), (⟨i, r, 0⟩, (m[1]?).getD 0), (⟨p, r, 0⟩, (m[2]?).getD 0), (⟨t, r, 0⟩, (m[3]?).getD 0)]

/-- The 1 ms averages of a rail updated (R106). -/
def State.tel1ms (s : State) (r : Nat) : State :=
  (s.telMeans r (s.rail r).ms .rgcTelV1ms .rgcTelI1ms .rgcTelP1ms .rgcTelT1ms).updRail r fun y => { y with ms := RailSums.init }

/-- RAIL_TEL_1S: at each multiple of 1 s (R106). -/
def execRailTel1s (rail : Rail) (s : State) : Host.Outcome State Fault Refusal :=
  s.run fun s =>
    let r := rail.val
    ((s.advanceTo (ceilTo 1000000000 s.now)).telMeans r (s.rail r).sec .rgcTelV1s .rgcTelI1s .rgcTelP1s .rgcTelT1s).updRail r fun y =>
      { y with sec := RailSums.init }

end Sys2Proof.Machine
end

