-- ==== Sys2Proof/Machine/Admission.lean ====
section
/-!
DEFINITION. Sys2Proof/Machine/Admission.lean: step requests and their arbitration slot by slot (R28, R108 to R122, R126), and
compute-recovery reset (R391).
-/
namespace Sys2Proof.Machine

/-! ## Requests -/

/-- A die whose agent has not been admitted at its generation runs as in FLOOR (R16). -/
def State.unadmitted (s : State) (d : Nat) : Bool := !(s.hd d).admitted

/-- The request threshold (R28). -/
def State.threshold (s : State) (d : Nat) : Nat :=
  if s.floorOn || s.unadmitted d || s.svc = svcFloor || s.svc = svcCalibrating || s.svc = svcFailsafe then 3 else 4

/-- Requests pending shown: on the die, and of each core (R127). -/
def State.showPend (s : State) (d : Nat) : State :=
  let l := (s.die d).adm.reqs
  (s.wr .dagAdmstatPend l.length d).each (upto 4) fun s c => s.wr .dagAdmcorePend (l.filter fun r => r.core = c).length d c

/-- STEP_REQUEST: for the head of an engine's window whose declared class is at or above the threshold; an engine has one request
pending at most. In CALIBRATING only calibration patterns raise requests (R28, R110, R126, R373). -/
def execStepRequest (die : CDie) (core : Core) (eng : Engine) (s : State) : Host.Outcome State Fault Refusal :=
  s.run fun s =>
    let d := die.val
    let x := s.die d
    match x.window (core.val * 6 + eng.val) with
    | [] => s
    | w :: _ =>
      if !x.powered || x.inReset || s.svc = svcCold || w.running || decide (w.step < s.threshold d) ||
          (decide (s.svc = svcCalibrating) && !w.pattern) ||
          (x.adm.reqs.any fun r => r.core = core.val && r.eng = eng.val) then s
      else
        (s.updDie d fun x => { x with adm := { x.adm with reqs := x.adm.reqs ++
          [{ core := core.val, eng := eng.val, queue := w.queue, pattern := w.pattern, cls := w.step, charge := none, learned := false
             dly := 0, hit := false }] } }).showPend d

/-- COMPUTE_RECOVERY_RESET: entered; held while a rail that feeds the die is not in REG (R391; assumption log 39). -/
def execComputeRecoveryReset (die : CDie) (s : State) : Host.Outcome State Fault Refusal :=
  s.run fun s => (s.enterReset die.val).updDie die.val fun x => { x with inReset := !s.dieFed die.val }

/-! ## Charges, budget and headroom -/

/-- The class a request is charged at: the greater of its declared class and a confident entry's highest (R109). -/
def State.chargeClass (s : State) (d : Nat) (r : AdmReq) : Nat :=
  match (s.die d).window (r.core * 6 + r.eng) with
  | [] => r.cls
  | w :: _ =>
    match w.key.bind (s.die d).copyOf with
    | some e => if s.flag .dagAdmcfgLearn d && e.ent.confident then max r.cls e.ent.maxstep else r.cls
    | none => r.cls

/-- The class of a request, and its charge in 1/16 A. -/
def AdmReq.class (r : AdmReq) : Nat := r.charge.getD r.cls
def AdmReq.amps (r : AdmReq) : Nat := classBound r.class

/-- The charge class of every request settled at its first arbitration; those above the declared class are counted (R109, R110). -/
def State.settle (s : State) (d : Nat) : State :=
  s.each (s.die d).adm.reqs fun s r =>
    if r.charge.isSome then s
    else
      let k := s.chargeClass d r
      let s1 := s.updDie d fun x => { x with adm := { x.adm with reqs := x.adm.reqs.map (fun q =>
        if q.core = r.core && q.eng = r.eng then { q with charge := some k, learned := decide (r.cls < k) } else q) } }
      if r.cls < k then s1.count .dagAdmlrn 1 d else s1

/-- The slot budget B in 1/16 A: the lesser of BUDGET, held to 8 to 64 A, and the step budget in force (R112, R127). -/
def State.slotBudget (s : State) (d : Nat) : Nat := min (clampNat 128 1024 (s.rd .dagAdmcfgBudget d)) (16 * s.rd .dagGrantSb d)

/-- The power of a charge in 1/16 A on a die's VCMP rail, in power units (R114). -/
def State.chargePower (s : State) (d c : Nat) : Rat := (c : Rat) * (s.rd .rgcVidV d : Rat) / 4000

/-- Whether no request is served before its third arbitration (R126). -/
def State.slowStart (s : State) (d : Nat) : Bool := s.svc = svcFloor || s.svc = svcCalibrating || s.unadmitted d

/-- The headroom of a die in power units. G is 0xFFFF in FLOOR, CALIBRATING and before admission, and until the first grant of an admitted die
agent applies (R34, R114, R126). -/
def State.headroom (s : State) (d : Nat) : Rat :=
  let g := if s.slowStart d || decide ((s.die d).applied = none) then 0xFFFF else s.rd .dagGrantG d
  (g : Rat) - s.rd .dagEpwrPer d - s.chargePower d ((s.die d).adm.chargeNow + (s.die d).adm.chargeLast)

/-- The rated current of a VCMP rail in 1/16 A: its phases less the retired ones (R99). -/
def State.rated (s : State) (r : Nat) : Nat := 16 * phaseRating r * (s.slotN r - s.retiredPhases r)

/-- Whether a request is refused with RAIL (R119). -/
def State.railRefuses (s : State) (d : Nat) (r : AdmReq) : Bool :=
  decide (s.railSt d ≠ railReg) || decide ((s.rated d : Rat) - (s.rail d).mean < r.amps)

/-- The maximum delay M; at least 2 in FLOOR, CALIBRATING and before admission (R118, R126). -/
def State.maxDelay (s : State) (d : Nat) : Nat :=
  let m := s.rd .dagAdmcfgMaxdly d
  if s.svc = svcFloor || s.svc = svcCalibrating || s.unadmitted d then max m 2 else m

/-! ## Ranking (R115) -/

/-- The tier of a request: promoted, unless REFCAP is 0; CRITICAL, STANDARD, BACKGROUND (R115, R117, R186). -/
def State.tier (s : State) (d : Nat) (r : AdmReq) : Nat :=
  if s.flag .dagAdmcorePromo d r.core && decide (s.rd .dagAdmcfgRefcap d ≠ 0) then 3
  else match s.rd .dagCgrantClass d r.core with
    | 0 => 0
    | 2 => 2
    | _ => 1

/-- Whether request a comes before request b. -/
def State.before (s : State) (d : Nat) (a b : AdmReq) : Bool :=
  let p := (s.die d).adm.ptr
  let ka := (3 - s.tier d a, 15 - min 15 a.dly, (a.core + 4 - p) % 4, a.eng)
  let kb := (3 - s.tier d b, 15 - min 15 b.dly, (b.core + 4 - p) % 4, b.eng)
  decide (ka.1 < kb.1) || (decide (ka.1 = kb.1) && (decide (ka.2.1 < kb.2.1) || (decide (ka.2.1 = kb.2.1) &&
    (decide (ka.2.2.1 < kb.2.2.1) || (decide (ka.2.2.1 = kb.2.2.1) && decide (ka.2.2.2 < kb.2.2.2))))))

/-- A request put in its place in a ranked list. -/
def insertBy (lt : AdmReq → AdmReq → Bool) (r : AdmReq) : List AdmReq → List AdmReq
  | [] => [r]
  | q :: l => if lt r q then r :: q :: l else q :: insertBy lt r l

/-- The pending requests of a die in the order of R115. -/
def State.ranked (s : State) (d : Nat) : List AdmReq :=
  (s.die d).adm.reqs.foldl (fun l r => insertBy (s.before d) r l) []

/-! ## Outcomes -/

/-- A STEP_OUT notice (R119). -/
def State.notice (s : State) (d : Nat) (n : StepOut) : State :=
  s.updDie d fun x => { x with adm := { x.adm with notices := x.adm.notices ++ [n] } }

/-- A core counted as delayed or refused in this fast period (R72). -/
def State.admHits (s : State) (d c : Nat) : State := s.updDie d fun x => { x with admHit := addTo x.admHit c }

/-- The head of an engine's window started, by a notice with GO (R119). -/
def DieState.startHead (x : DieState) (i : Nat) : DieState :=
  match x.window i with
  | [] => x
  | w :: l => x.setWindow i ({ w with running := true } :: l)

/-- The final outcome of a request: its notice with GO, on which its descriptor starts, the counts of its queue, its core and its die, CONSEC and
promotion, and its trace event. A calibration pattern has no queue (R79, R117, R119, R121, R356, R357, R373). -/
def State.admEnd (s : State) (d : Nat) (r : AdmReq) (out cause : Nat) : State :=
  let c := r.core
  let q := queueNo d c r.queue
  let s1 := s.updDie d fun x => { x.startHead (c * 6 + r.eng) with adm := { x.adm with
    reqs := x.adm.reqs.filter (fun y => !(y.core = c && y.eng = r.eng)) } }
  let s2 := s1.notice d { core := c, eng := r.eng, out, go := true, dly := r.dly, cause }
  let promo := s.rd .dagAdmcorePromo d c
  let consec := if out = 3 then min 15 (s.rd .dagAdmcoreConsec d c + 1) else 0
  let cap := s.rd .dagAdmcfgRefcap d
  let s3 := s2.puts
    [(⟨.dagAdmcoreOut, d, c⟩, out), (⟨.dagAdmcoreDly, d, c⟩, r.dly), (⟨.dagAdmcoreCause, d, c⟩, cause),
     (⟨.dagAdmcoreEngine, d, c⟩, r.eng), (⟨.dagAdmcoreQueue, d, c⟩, r.queue), (⟨.dagAdmcoreClass, d, c⟩, r.class),
     (⟨.dagAdmcoreConsec, d, c⟩, consec),
     (⟨.dagAdmcorePromo, d, c⟩, if out = 3 && decide (cap ≠ 0) then (if cap ≤ consec then 1 else promo) else 0)]
  let s4 := s3.count .dagAdmslots r.dly d
  let forQueue (s : State) (f : Field) : State := if r.pattern then s else s.count f 1 q
  let s5 := if out = 1 then (forQueue (s4.count .dagAdmsrv 1 d) .qeaServed).tallyDie d .served 1
    else if out = 2 then (forQueue (s4.count .dagAdmdly 1 d) .qeaDelayed).tallyDie d .delayed 1
    else (forQueue (s4.count .dagAdmref 1 d) .qeaRefused).tallyDie d .refused 1
  let s6 := if out = 1 then s5 else s5.admHits d c
  if out ≠ 1 || s.flag .obsTrcenAdmall then
    s6.trace d 2 c r.eng (r.queue + 2 ^ 7 * r.class)
      (out + 2 ^ 2 * r.dly + 2 ^ 6 * cause + 2 ^ 10 * promo + 2 ^ 11 * bit r.learned)
  else s6

/-- The parts in which a limiter that starts now rises (R120). -/
def State.limiterDen (s : State) : Nat := if s.floorOn then 32 else 8

/-- A request refused: the engine's issue limiter starts at its first fraction at the boundary of the slot (R120; assumption log 89). -/
def State.admRefuse (s : State) (d : Nat) (r : AdmReq) (cause : Nat) : State :=
  let den := s.limiterDen
  (s.admEnd d r 3 cause).updDie d fun x =>
    let others := x.adm.limiters.filter fun l => !(l.core = r.core && l.eng = r.eng)
    let lim : Limiter := { core := r.core, eng := r.eng, num := 0, den := den, charge := r.amps }
    { x with adm := { x.adm with limiters := lim :: others } }

/-- The feed-forward current of a step in 1/16 A (R122). -/
def State.ffCurrent (s : State) (d : Nat) (r : AdmReq) : Rat := (s.rd .dagAdmffFffrac d : Rat) / 16 * r.amps

/-- The on-time that a step adds in root periods, none where no increment is added (R122). -/
def State.stepFf (s : State) (d : Nat) (r : AdmReq) : Option Rat :=
  let g := s.rd .dagAdmffFfgain d
  if s.flag .dagAdmcfgFfen d && decide (g ≠ 0) then some (g * s.ffCurrent d r / 16) else none

/-- A request served: charged against the headroom, its feed-forward added to the next pulse, its limiter ended, and every shed phase
restored for a class of 4 or more (R99, R112, R120, R122). -/
def State.admServe (s : State) (d : Nat) (r : AdmReq) : State :=
  let ff := s.stepFf d r
  let s1 := s.admEnd d r (if r.dly = 0 then 1 else 2) 0
  let s2 := s1.updDie d fun x => { x with adm := { x.adm with
    chargeNow := x.adm.chargeNow + r.amps
    next := x.adm.next ++ [{ core := r.core, eng := r.eng, queue := r.queue, charge := r.amps, cur := s.ffCurrent d r, ff, live := true }]
    ptr := (r.core + 1) % 4
    limiters := x.adm.limiters.filter (fun l => !(l.core = r.core && l.eng = r.eng)) } }
  let s3 := match ff with
    | some f => s2.updRail d fun x => { x with ff := x.ff + f }
    | none => s2
  if 4 ≤ r.class then s3.allPhases d else s3

/-- A request left in place: told that it is delayed (R119). -/
def State.admDelay (s : State) (d : Nat) (r : AdmReq) : State :=
  (s.updDie d fun x => { x with adm := { x.adm with reqs := x.adm.reqs.map (fun y =>
    if y.core = r.core && y.eng = r.eng then { y with dly := r.dly + 1, hit := true } else y) } }).notice d
    { core := r.core, eng := r.eng, out := 2, go := false, dly := min 15 (r.dly + 1), cause := 0 }

/-! ## Arbitration -/

/-- Where an arbitration stands: the budget of the slot and what remains of it, whether a step has been served, whether the slot is
blocked, and what a large charge leaves for later slots. -/
structure Arb where
  budget : Nat
  rem : Rat
  served : Bool
  blocked : Bool
  debt : Rat
  deriving DecidableEq, Repr

/-- The cause for which a request is refused before any request is served: the floor state, its rail, or its size at its first arbitration (R113,
R119, R126, R136; assumption log 89). -/
def State.refusedAtOnce (s : State) (d budget : Nat) (r : AdmReq) : Option Nat :=
  if s.floorOn || s.holdover d then some 3
  else if s.railRefuses d r then some 4
  else if r.dly = 0 && decide (4 * budget < r.amps) then some 5
  else none

/-- The first fraction of a refused engine comes off what remains of the slot's budget (R120; assumption log 89). -/
def State.refuseFrom (s : State) (d : Nat) (a : Arb) (r : AdmReq) (cause : Nat) : Arb × State :=
  ({ a with rem := max 0 (a.rem - (r.amps : Rat) / s.limiterDen) }, s.admRefuse d r cause)

/-- One request in its turn. A charge above four budgets, which a cut may bring about while it waits, is not served (R113, R114, R116, R118, R119,
R126). -/
def State.arbitrate1 (s : State) (d : Nat) (first : Bool) (a : Arb) (r : AdmReq) : Arb × State :=
  let large := decide (a.budget < r.amps) && decide (r.amps ≤ 4 * a.budget) && !a.served && decide (a.rem = (a.budget : Rat))
  let fitsB := decide ((r.amps : Rat) ≤ a.rem) || large
  let fitsH := decide (s.chargePower d r.amps ≤ s.headroom d)
  let early := s.slowStart d && decide (r.dly < 2)
  if fitsB && fitsH && !early && !a.blocked then
    let spent := min a.rem r.amps
    ({ a with rem := a.rem - spent, served := true, debt := a.debt + ((r.amps : Rat) - spent) }, s.admServe d r)
  else
    let a1 := { a with blocked := a.blocked || (first && decide (2 ≤ r.dly)) }
    if s.maxDelay d ≤ r.dly then s.refuseFrom d a1 r (if fitsB && !fitsH then 2 else 1) else (a1, s.admDelay d r)

/-- Those of a list of requests that are refused at once. -/
def State.refuseAll (s : State) (d : Nat) (a : Arb) : List AdmReq → Arb × State
  | [] => (a, s)
  | r :: l => match s.refusedAtOnce d a.budget r with
    | some c => let q := s.refuseFrom d a r c; q.2.refuseAll d q.1 l
    | none => s.refuseAll d a l

/-- The requests in their order, the first of them told apart. -/
def State.arbitrateAll (s : State) (d : Nat) : Bool → Arb → List AdmReq → Arb × State
  | _, a, [] => (a, s)
  | first, a, r :: l =>
    let q := s.arbitrate1 d first a r
    q.2.arbitrateAll d false q.1 l

/-- The arbitration of a slot: the rest of a large charge, excesses and limiter rises come off the budget first (R111 to R120, R124). -/
def State.arbitrate (s : State) (d : Nat) : State :=
  let b := s.slotBudget d
  let x := (s.die d).adm
  let rises : Rat := x.limiters.foldl (fun n l => n + (l.charge : Rat) / l.den) 0
  let owed := min (x.debt : Rat) b
  let rem := max 0 ((b : Rat) - owed - x.excess - rises)
  let s1 := s.updDie d fun x => { x with adm := { x.adm with notices := [], next := [], arbDone := true, excess := 0, debt := 0 } }
  let s2 := s1.settle d
  let a := s2.refuseAll d { budget := b, rem, served := false, blocked := false, debt := (x.debt : Rat) - owed } (s2.ranked d)
  let r := a.2.arbitrateAll d true a.1 (a.2.ranked d)
  let s3 := r.2.updDie d fun y => { y with adm := { y.adm with debt := r.1.debt.floor.toNat } }
  ((s3.wr .dagAdmstatBud b d).wr .dagAdmstatFloorref (bit (s.floorOn || s.holdover d)) d).showPend d

/-- ADMISSION_ARBITRATION: once for each slot of the die's VCMP rail (R111). -/
def execAdmissionArbitration (die : CDie) (s : State) : Host.Outcome State Fault Refusal :=
  s.run fun s =>
    let x := s.die die.val
    if !x.powered || x.inReset || (x.adm.arbDone && s.railOn die.val) then s else s.arbitrate die.val

end Sys2Proof.Machine
end

