-- ==== Sys2Proof/Machine/Slot.lean ====
section
/-!
DEFINITION. Sys2Proof/Machine/Slot.lean: one slot of a switching rail (R82 to R92, R96 to R98, R106, R120, R123 to R125, R147,
R157, R164).
-/
namespace Sys2Proof.Machine

/-! ## Slot means -/

/-- The offset-trimmed mean current of a wired phase over a slot, in 1/16 A (R82). -/
def State.phaseMean (s : State) (r : Nat) (i : SlotInput) (p : Nat) : Rat :=
  if i.samples = 0 then 0
  else (((i.imon[p]?).getD 0 : Int) : Rat) / i.samples - (((s.rail r).offs[p]?).getD 0)

/-- The slot mean of a rail's current: its active phases summed, a masked one taken as the mean of the others. Where every active phase is masked
there are no others, and the mean is taken as 0 (R82; DESIGN CHOICE, assumption log 90). -/
def State.slotMean (s : State) (r : Nat) (i : SlotInput) : Rat :=
  let act := s.actives r
  let good := act.filter fun p => !s.phMasked r p
  let sum := sumRat (good.map (s.phaseMean r i))
  if good.isEmpty then 0 else sum + (act.length - good.length : Nat) * (sum / good.length)

/-- The stage temperature in 1/16 °C: 0.60 V at 25 °C and 8.0 mV/°C (R81). -/
def stageTemp (mv : Nat) : Int := 2 * (mv : Int) - 800

/-- A slot entered in the sums of R106. -/
def RailSums.add (x : RailSums) (v i p t : Rat) : RailSums :=
  { v := x.v + v, i := x.i + i, p := x.p + p, t := x.t + t, n := x.n + 1 }

/-- The highest stage temperature held (R106). -/
def State.peakTemp (s : State) (r mv : Nat) : State :=
  let t := stageTemp mv
  if toSigned 16 (s.rd .rgcPeakThi r) < t then s.wr .rgcPeakThi (ofSigned 16 t) r else s

/-- Peaks and sums of a slot; the averages and the voltage peaks only in REG (R106). -/
def State.slotTel (s : State) (r : Nat) (i : SlotInput) (cur : Rat) : State :=
  let v := i.vsense
  let pw : Rat := (v : Rat) * cur / 4000
  let reg := s.railSt r = railReg
  let up (s : State) (f : Field) (n : Nat) : State := if s.rd f r < n then s.wr f (min 0xFFFF n) r else s
  let s1 := up (up s .rgcPeakIhi (roundNat 20 cur)) .rgcPeakPhi (roundNat 21 pw)
  let s2 := s1.peakTemp r i.tmon
  if reg then
    let s3 := up s2 .rgcPeakVhi v
    let s4 := if v < s3.rd .rgcPeakVlo r then s3.wr .rgcPeakVlo v r else s3
    let t := stageTemp i.tmon
    s4.updRail r fun x => { x with ms := x.ms.add v cur pw (t : Int), sec := x.sec.add v cur pw (t : Int) }
  else s2

/-! ## Admission looking back -/

/-- A current observed for the descriptor that an engine runs, unless the one concerned has completed (R164). -/
def State.observe (s : State) (d c e : Nat) (live : Bool) (i : Rat) : State :=
  s.updDie d fun x =>
    match x.window (c * 6 + e) with
    | [] => x
    | w :: l => if live then x.setWindow (c * 6 + e) ({ w with observed := some (max 0 i).ceil.toNat } :: l) else x

/-- The slot n records back, 0 for the one that has just ended. -/
def slotAt (l : List SlotRec) (n : Nat) : SlotRec := (l[n]?).getD { served := [], starts := [], mean := none }

/-- The increments of slot g judged at the end of slot g + 2: the rise R is shared among the steps of the window as their observed
currents, and an increment whose current did not appear is withdrawn (R123, R164). -/
def State.ffJudge (s : State) (d : Nat) : State :=
  let l := (s.die d).adm.slots
  match (slotAt l 0).mean, (slotAt l 1).mean, (slotAt l 2).mean, (slotAt l 3).mean with
  | some a, some b, some c, some base =>
    let rise := max a (max b c) - base
    let all := (l.take 5).flatMap fun x => x.served
    let w := sumRat (all.map fun x => x.cur)
    let ch := sumRat (all.map fun x => (x.charge : Rat))
    s.each (slotAt l 2).served fun s x =>
      match x.ff with
      | none => s
      | some f =>
        let s1 := if ch = 0 then s else s.observe d x.core x.eng x.live (rise * x.charge / ch)
        if rise < w / 4 then
          (((s1.updRail d fun y => { y with ff := y.ff - f }).count .dagAdmffw 1 d).trace d 7 x.core x.eng x.queue
            (roundNat 22 f))
        else s1
  | _, _, _, _ => s

/-- The charge of a descriptor that an engine started in the last two slots: that of its served step, or its declared class's bound
(R164). -/
def State.ownCharge (s : State) (d : Nat) (x : SlotStart) : Nat :=
  let l := (s.die d).adm.slots
  match ((slotAt l 0).served ++ (slotAt l 1).served).find? fun y => y.core = x.core && y.eng = x.eng with
  | some y => y.charge
  | none => match (s.die d).window (x.core * 6 + x.eng) with
    | w :: _ => classBound w.step
    | [] => 0

/-- U in 1/16 A (R124, R127). -/
def State.unannU (s : State) (d : Nat) : Nat := 4 * max 8 (s.rd .dagAdmffUnann d)

/-- The excess of a slot's mean over the mean before it, the charges served and U, if there is any (R124). -/
def State.excess (s : State) (d : Nat) : Option Rat :=
  let l := (s.die d).adm.slots
  match (slotAt l 0).mean, (slotAt l 1).mean with
  | some a, some b =>
    let ch := sumRat (((slotAt l 0).served ++ (slotAt l 1).served).map fun x => (x.charge : Rat))
    let x := a - b - ch - s.unannU d
    if 0 < x then some x else none
  | _, _ => none

/-- An unannounced step: its excess comes off the budget arbitrated next, it is counted and traced, and each descriptor named has its
observed current; 16 in a millisecond raise one CORRECTED fault (R124, R125, R164). -/
def State.unannounced (s : State) (d : Nat) : State :=
  match s.excess d with
  | none => s
  | some x =>
    let l := (s.die d).adm.slots
    let named := (slotAt l 1).starts ++ (slotAt l 0).starts
    let s1 := s.updDie d fun y => { y with adm := { y.adm with excess := x, unaMs := y.adm.unaMs + 1 } }
    let s2 := s1.each named fun s n => s.observe d n.core n.eng n.live ((s.ownCharge d n : Rat) + x / (named.length : Rat))
    let f := (named.head?).getD { core := 0, eng := 0, queue := 0, live := false }
    let s3 := (s2.count .dagAdmuna 1 d).trace d 4 f.core f.eng (f.queue + 2 ^ 7 * named.length) x.floor.toNat
    if (s3.die d).adm.unaMs = 16 then (s3.wr .dagAdmstatUnannf 1 d).raise (corr 13 1 (unitOf d 0) 6) else s3

/-- Every issue limiter one step further; at full rate it ends (R120). -/
def State.limitersStep (s : State) (d : Nat) : State :=
  s.updDie d fun x => { x with adm := { x.adm with limiters :=
    (x.adm.limiters.map fun l => { l with num := l.num + 1 }).filter fun l => decide (l.num < l.den) } }

/-- A VCMP slot's end as admission sees it: the slot's mean and starts are entered, the look-backs run, and the slot arbitrated last
begins (R123, R124). -/
def State.admSlot (s : State) (d : Nat) (i : SlotInput) (mean : Rat) : State :=
  let st := i.starts.map fun y => ({ core := y.core.val, eng := y.eng.val, queue := y.queue.val, live := !y.ended } : SlotStart)
  let s1 := s.updDie d fun x =>
    let l := match x.adm.slots with
      | [] => [{ served := [], starts := st, mean := some mean }]
      | y :: r => { y with starts := st, mean := some mean } :: r
    { x with adm := { x.adm with slots := l } }
  let s2 := ((s1.ffJudge d).unannounced d).limitersStep d
  s2.updDie d fun x => { x with adm := { x.adm with
    slots := ({ served := x.adm.next, starts := [], mean := none } :: x.adm.slots).take 7, next := [], arbDone := false } }

/-! ## Droop detectors at a slot boundary -/

/-- The domain k that a detector is bound to (R144, R160). -/
def detDomain (d i : Nat) : Nat := if d < 32 then i / 16 else if d < 36 then i / 8 else if d < 38 then 0 else (if i < 10 then 0 else 1)

/-- A detector is retired (R158). -/
def State.detRetired (s : State) (d i : Nat) : Bool := testBit (s.rd .dagDrpretRet d) i

/-- What a detector's characteristic gives at a voltage and the die's mean temperature, in taps (R147). -/
def State.charTap (s : State) (d i : Nat) (v : Rat) : Rat :=
  let r := ownRail d
  let lo : Rat := (railRange r).1
  let hi : Rat := (railRange r).2
  let clo : Rat := s.rd .dagDrpchrClo d i
  let chi : Rat := s.rd .dagDrpchrChi d i
  let t := clo + (chi - clo) * (v - lo) / (hi - lo)
  let dt : Rat := ((s.die d).tMean - toSigned 16 (s.rd .dagDrptcTcal d) : Int)
  t + (toSigned 8 (s.rd .dagDrptcTco d) : Int) * dt / 256

/-- A tap for a threshold below vref (R147). -/
def State.tap (s : State) (d i : Nat) (dthr : Nat) : Nat :=
  min 255 (s.charTap d i ((s.rail (ownRail d)).vref - dthr)).ceil.toNat

/-- The taps of every detector of a die recomputed (R147). -/
def State.retap (s : State) (d : Nat) : State :=
  s.each (upto (dieDetectors d)) fun s i =>
    (s.wr .dagDrpchrTap1 (s.tap d i (s.rd .dagDrpthrDthr1 d)) d i).wr .dagDrpchrTap2 (s.tap d i (s.rd .dagDrpthrDthr2 d)) d i

/-- Trips of a slot judged at its end: the only unretired detector of its domain to trip, while the sense stayed above
vref - DTHR1 / 2, tripped alone; 64 such trips in a millisecond raise a CORRECTED fault once, and the targeted self-test is due (R157). -/
def State.loneTrips (s : State) (d vs : Nat) : State :=
  let x := (s.die d).droop
  let calm := decide ((s.rail (ownRail d)).vref - (s.rd .dagDrpthrDthr1 d : Rat) / 2 < vs)
  let lone := x.trips.filter fun t => calm && !(x.trips.any fun o => o.2 = t.2 && o.1 ≠ t.1)
  let s1 := s.updDie d fun y => { y with droop := { y.droop with trips := [] } }
  s1.each lone fun s t =>
    let n := Store.get (fun _ => 0) (s.die d).droop.lone t.1 + 1
    let s2 := s.updDie d fun y => { y with droop := { y.droop with lone := Store.insert natLt t.1 n y.droop.lone } }
    if n = 64 then
      ((s2.updDie d fun y => { y with droop := { y.droop with testDue := addTo y.droop.testDue t.1 } }).wr .dagDrpstatLone 1 d).raise
        (corr 9 1 (unitOf d t.1) 6)
    else s2

/-! ## The slot -/

/-- The grid slides one root period towards its target offset, the shorter way round, forward where both are equal (R85). -/
def slide (offs tgt len : Nat) : Nat :=
  let fwd := (tgt + len - offs % len) % len
  if fwd = 0 then offs else if 2 * fwd ≤ len then (offs + 1) % len else (offs + len - 1) % len

/-- A value moved towards another by a step at most. -/
def toward (x y step : Rat) : Rat := if x ≤ y then min y (x + step) else max y (x - step)

/-- The step of vref in one slot for a rate in 0.125 mV/µs, in voltage units (R90, R92). -/
def State.slotStep (s : State) (r rate : Nat) : Rat := (rate : Rat) * s.slotS r / 38400

/-- What a follower's own ramp is held to by its leader (R96). -/
def State.led (s : State) (r : Nat) (own : Rat) : Rat :=
  match s.leader r with
  | none => own
  | some l =>
    if s.rd .rgcSeqMode r = 1 then min own (s.rail l).vs
    else ((s.rail l).vs : Rat) * s.target r / s.target l

/-- vref in the next slot: it rises from the sensed voltage, slews to the target, or falls to 0.10 V; it holds while a phase is cut in
RAMP and TEST (R90, R92, R97, R102). -/
def State.moveVref (s : State) (r : Nat) : State :=
  let x := s.rail r
  let t : Rat := s.rd .rgcVidV r
  let up := s.slotStep r (max 1 (s.rd .rgcSeqRamp r))
  if s.railSt r = railRamp then
    if x.cut then s
    else s.updRail r fun x => let n := toward x.ramp t up; { x with ramp := n, vref := s.led r n }
  else if s.railSt r = railReg then
    if x.cut && s.flag .rgcCfgTest r then s
    else s.updRail r fun x => { x with vref := toward x.vref t (s.slotStep r (clampNat 8 160 (s.rd .rgcSeqSlew r))) }
  else s.updRail r fun x => { x with vref := min x.vref (s.led r (max 200 (x.vref - up))) }

/-- The phase a slot is assigned to (R86). -/
def State.phaseOf (s : State) (r n : Nat) : Nat := (n % s.slotN r + n / s.slotN r) % s.slotN r

/-- A signed coefficient in units of 2^-k. -/
def State.coef (s : State) (f : Field) (r k : Nat) : Rat := (toSigned 16 (s.rd f r) : Int) / (2 ^ k : Nat)

/-- Element k of a history. -/
def hist (l : List Rat) (k : Nat) : Rat := (l[k]?).getD 0

/-- The compensator's output before the clamp (R87). -/
def State.compU (s : State) (r : Nat) (e : Rat) : Rat :=
  let x := s.rail r
  s.coef .rgcCompB0 r 8 * e + s.coef .rgcCompB1 r 8 * hist x.e 0 + s.coef .rgcCompB2 r 8 * hist x.e 1 +
    s.coef .rgcCompB3 r 8 * hist x.e 2 - s.coef .rgcCompA1 r 14 * hist x.u 0 - s.coef .rgcCompA2 r 14 * hist x.u 1 -
    s.coef .rgcCompA3 r 14 * hist x.u 2

/-- The longest pulse in whole root periods; a part of one is cut (R87, R107; DESIGN CHOICE, assumption log 92). -/
def State.dmax (s : State) (r : Nat) : Nat := s.rd .rgcDutyDmax r * (s.slotN r * s.slotS r) / 256

/-- The compensator evaluated with the slot's own vref, as vref[n] and vsense[n] stand for one slot (DEDUCED, assumption log 92), and the next
slot's pulse fired. A slot whose phase is not active, or whose phases are cut, carries no
pulse, and leaves the carry and the feed-forward to the next that does (R86, R87, R122; assumption log 40). -/
def State.fire (s : State) (r : Nat) (i : SlotInput) (vref : Rat) : State :=
  let x := s.rail r
  let e := vref - i.vsense
  let u := s.compU r e
  let p := s.phaseOf r (x.slot + 1)
  if !s.phActive r p || x.tri then
    s.updRail r fun y => { y with e := (e :: y.e).take 3, u := (u :: y.u).take 3, pulse := none }
  else
    let v := u + x.ff + x.carry
    let top : Int := s.dmax r
    let t0 := min v.floor top
    let ton : Int := if t0 < s.rd .rgcDutyTmin r then 0 else t0
    let u1 := if ton = top then (top : Rat) - x.ff else u
    s.updRail r fun y =>
      { y with e := (e :: y.e).take 3, u := (u1 :: y.u).take 3, carry := v - ton, ff := 0,
               pulse := if ton = 0 then none else some (p, ton.toNat) }

/-- VREADY: vref at the target, and the sense within 2 mV of that for 16 slots; it falls when vref leaves the target (R90). -/
def State.slotReady (s : State) (r : Nat) (i : SlotInput) : State :=
  let x := s.rail r
  let t : Rat := s.rd .rgcVidV r
  let close := decide ((i.vsense : Rat) ≤ t + 4) && decide (t ≤ (i.vsense : Rat) + 4)
  let n := if close then x.near + 1 else 0
  let s1 := s.updRail r fun y => { y with near := min 16 n }
  if x.vref ≠ t then s1.wr .rgcStatusVready 0 r
  else if 16 ≤ n && decide (s.railSt r = railReg) then s1.wr .rgcStatusVready 1 r else s1

/-- A ramping rail whose vref has reached its target enters REG, and the dies it feeds leave reset (R92, R101). -/
def State.rampDone (s : State) (r : Nat) : State :=
  let x := s.rail r
  if s.railSt r = railRamp && decide (x.vref = (s.rd .rgcVidV r : Rat)) then
    ((s.railTo r railReg).updRail r fun y => { y with regAt := some s.now, cutRun := 0, low := 0 }).freeReset r
  else s

/-- Phases added, and consecutive slots below the shed threshold counted while phases may be shed (R98). -/
def State.shedStep (s : State) (r : Nat) (cur : Rat) : State :=
  let n : Rat := (s.actives r).length
  let rate : Rat := 16 * phaseRating r
  if !s.mayShed r then
    (if (s.phases r).any (s.phShed r) then s.allPhases r else s).updRail r fun x => { x with low := 0 }
  else
    let s1 := s.updRail r fun x =>
      { x with low := if cur < (n - 1) * (s.rd .rgcShedLo r : Rat) / 100 * rate then x.low + 1 else 0 }
    if n * (s.rd .rgcShedHi r : Rat) / 100 * rate < cur then
      match (s.phases r).find? (s.phShed r) with
      | some p => s1.setPhase r p true
      | none => s1
    else s1

/-- Slots above and below VMAX + 20 mV; an excursion ends after four below (R91). -/
def State.vmaxTrack (s : State) (r : Nat) (i : SlotInput) : State :=
  let hi := decide (s.rd .rgcVmaxV r + 40 < i.vsense)
  s.updRail r fun x =>
    let above := if hi then min 4 (x.above + 1) else 0
    let under := if hi then 0 else min 4 (x.under + 1)
    { x with above, under, excursion := x.excursion && decide (under < 4) }

/-- The grid slid by one root period. Where the offset passes a whole slot the slots are counted anew, by R86 (R84, R85, R86). -/
def State.slideGrid (s : State) (r : Nat) : State :=
  let tgt := s.staggerTgt r
  let old := s.rd .rgcStaggerOffs r
  let new := slide old tgt (s.slotS r)
  let s1 := (s.wr .rgcStaggerOffs new r).wr .rgcStaggerTgt tgt r
  if old + 1 < new then s1.updRail r fun x => { x with slot := x.slot - 1 }
  else if new + 1 < old then s1.updRail r fun x => { x with slot := x.slot + 1 }
  else s1

/-- The end of a switching cycle: a cycle with a cut pulse counts towards hiccup in REG outside TEST, a cut excursion goes on, and the
grid slides (R85, R91, R101, R102). -/
def State.cycleEnd (s : State) (r : Nat) : State :=
  let x := s.rail r
  if (x.slot + 1) % s.slotN r = 0 then
    let counts := x.cut && s.railSt r = railReg && !s.flag .rgcCfgTest r
    (s.updRail r fun y =>
      { y with cut := false, cutRun := if counts then y.cutRun + 1 else if x.cut then y.cutRun else 0, tri := y.excursion }).slideGrid r
  else s

/-- What a slot leaves of a rail that goes on: vref moves, a cycle may end, the next pulse fires, and phases are added (R85 to R90, R98). -/
def State.slotGoesOn (s : State) (r : Nat) (i : SlotInput) (cur : Rat) : State :=
  let s1 := (s.moveVref r).cycleEnd r
  let s2 := (((s1.fire r i (s.rail r).vref).takeComp r).rampDone r).slotReady r i
  (s2.shedStep r cur).updRail r fun x => { x with slot := x.slot + 1 }

/-- One slot of a switching rail. A summed current above the Lintel limit in it puts the rail in HICCUP at the next slot (R100). -/
def State.railSlot (s : State) (r : Nat) (i : SlotInput) : State :=
  let cur := s.slotMean r i
  let d := (railOwner r).getD 0
  let own := decide (ownRail d = r)
  let s1 := (s.advanceTo (s.slotEnd r (s.rail r).slot)).updRail r fun x => { x with vs := i.vsense, mean := cur }
  let s2 := ((s1.slotTel r i cur).vmaxTrack r i)
  let s3 := if r < 32 then s2.admSlot d i cur else s2
  let s4 := if own then s3.loneTrips d i.vsense else s3
  let s5 := if (s4.rail r).sumOver then s4.hiccup r 1 else s4.slotGoesOn r i cur
  if own then s5.retap d else s5

/-- RAIL_SLOT: of a rail that does not switch only the stage temperature is seen (R87, R106). -/
def execRailSlot (rail : Rail) (inp : SlotInput) (s : State) : Host.Outcome State Fault Refusal :=
  s.run fun s =>
    if !s.railLives rail.val then s
    else if s.railOn rail.val then s.railSlot rail.val inp
    else s.peakTemp rail.val inp.tmon

end Sys2Proof.Machine
end

