-- ==== Sys2Proof/Machine/Clocks.lean ====
section
/-!
DEFINITION. Sys2Proof/Machine/Clocks.lean: crystals, the internal oscillator's trim, the choice of reference, the root PLLs, and the
ramps of divisors (R129 to R143).
-/
namespace Sys2Proof.Machine

/-! ## Crystals (R129, R130) -/

def xtalNoamp : Nat := 0
def xtalCount : Nat := 1
def xtalStable : Nat := 2
def xtalFailed : Nat := 3

/-- The field that holds a crystal's state. -/
def xtalField (x : Nat) : Field := if x = 0 then .clkSrcX0 else .clkSrcX1

/-- A crystal's state. -/
def State.xtal (s : State) (x : Nat) : Nat := s.rd (xtalField x)

/-- A crystal takes a state, and its stability count shows n. -/
def State.xtalTo (s : State) (x st n : Nat) : State := (s.wr (xtalField x) st).wr .clkXcntCount n 0 x

/-- When a crystal's present attempt began, and whether that attempt is a retry. -/
def ClockState.start (c : ClockState) (x : Nat) : Nat := if x = 0 then c.start0 else c.start1
def ClockState.retry (c : ClockState) (x : Nat) : Bool := if x = 0 then c.retry0 else c.retry1

/-- An attempt noted as begun at t, first or again. -/
def ClockState.attempt (c : ClockState) (x t : Nat) (again : Bool) : ClockState :=
  if x = 0 then { c with start0 := t, retry0 := again } else { c with start1 := t, retry1 := again }

/-- When a crystal's stability count began. -/
def ClockState.count (c : ClockState) (x : Nat) : Nat := if x = 0 then c.count0 else c.count1

/-- A stability count begun at t. -/
def ClockState.begin (c : ClockState) (x t : Nat) : ClockState := if x = 0 then { c with count0 := t } else { c with count1 := t }

/-- What a crystal's stability counter reads: in COUNT the cycles of 20 ns since it began (R129, R143). -/
def State.xtalCycles (s : State) (x : Nat) : Nat :=
  if s.xtal x = xtalCount then min 1048576 ((s.now - s.clock.count x) / 20) else s.rd .clkXcntCount 0 x

/-- An entry into FAILED: CORRECTED while the other crystal is STABLE, else CONTAINED (R130). -/
def State.xtalFault (s : State) (x : Nat) : State :=
  let u := unitOf (36 + x) 0
  if s.xtal (1 - x) = xtalStable then s.raise (corr 12 1 u 0) else s.raise (cont 12 1 u .package 0)

/-- The reference selected, with the sticky bit of R143 (R132, R134). -/
def State.selectRef (s : State) (r : Nat) : State :=
  if s.rd .clkSrcRefsel = r then s else (s.wr .clkSrcRefsel r).wr .clkStatusRefsw 1

/-- XTAL_AMPLITUDE (R129). -/
def execXtalAmplitude (x : Xtal) (s : State) : Host.Outcome State Fault Refusal :=
  s.run fun s =>
    if s.xtal x.val = xtalNoamp then
      let s1 := s.xtalTo x.val xtalCount 0
      { s1 with clock := s1.clock.begin x.val s1.now }
    else s

/-- XTAL_COUNT_DROP (R129). -/
def execXtalCountDrop (x : Xtal) (s : State) : Host.Outcome State Fault Refusal :=
  s.run fun s => if s.xtal x.val = xtalCount then s.xtalTo x.val xtalNoamp 0 else s

/-! ## The trim source of the internal oscillator (R131) -/

/-- The trim source: the crystal in use while it stays STABLE, a STABLE crystal, or the fabric-time beacons if they come. -/
def State.trimSource (s : State) (beacons : Bool) : Option Nat :=
  match s.clock.trimBy.filter fun x => decide (x < 2) && decide (s.xtal x = xtalStable) with
  | some x => some x
  | none =>
    if s.xtal 0 = xtalStable then some 0 else if s.xtal 1 = xtalStable then some 1 else if beacons then some 2 else none

/-- The trim source chosen again and shown by TSRC; one that disappears or changes takes the gates done with it. -/
def State.retrim (s : State) (beacons : Bool) : State :=
  let t := s.trimSource beacons
  let s1 := s.wr .clkOsctrimTsrc (match t with | none => 0 | some 2 => 2 | some _ => 1)
  { s1 with clock := { s1.clock with trimBy := t, beacons, gates := if t = s.clock.trimBy then s.clock.gates else 0 } }

/-- XTAL_STABLE: the count of 1 048 576 cycles, 20.97152 ms, has completed within the 250 ms of the attempt (R129). -/
def execXtalStable (x : Xtal) (s : State) : Host.Outcome State Fault Refusal :=
  s.run fun s =>
    let t := s.clock.count x.val + 20971520
    if s.xtal x.val = xtalCount && decide (t ≤ s.clock.start x.val + 250000000) then
      ((s.advanceTo t).xtalTo x.val xtalStable 1048576).retrim s.clock.beacons
    else s

/-- XTAL_LOSS: FAILED with its fault; a lost trim source takes its gates with it, and a lost reference gives way to the other crystal if it is
STABLE, else to the internal oscillator (R129, R130, R131, R134). -/
def execXtalLoss (x : Xtal) (s : State) : Host.Outcome State Fault Refusal :=
  s.run fun s =>
    if s.xtal x.val = xtalStable then
      let s1 := ((s.xtalTo x.val xtalFailed 0).retrim s.clock.beacons).xtalFault x.val
      if s1.rd .clkSrcRefsel = x.val then s1.selectRef (if s1.xtal (1 - x.val) = xtalStable then 1 - x.val else 2) else s1
    else s

/-- XTAL_TIMEOUT: 250 ms have passed since the attempt began; a retry fails silently (R129, R130). -/
def execXtalTimeout (x : Xtal) (s : State) : Host.Outcome State Fault Refusal :=
  s.run fun s =>
    if s.xtal x.val = xtalNoamp || s.xtal x.val = xtalCount then
      let s1 := (s.advanceTo (s.clock.start x.val + 250000000)).xtalTo x.val xtalFailed 0
      if s.clock.retry x.val then s1 else s1.xtalFault x.val
    else s

/-- XTAL_RETRY: 1 s after the previous attempt began (R130). -/
def execXtalRetry (x : Xtal) (s : State) : Host.Outcome State Fault Refusal :=
  s.run fun s =>
    if s.xtal x.val = xtalFailed then
      let s1 := (s.advanceTo (s.clock.start x.val + 1000000000)).xtalTo x.val xtalNoamp 0
      { s1 with clock := s1.clock.attempt x.val s1.now true }
    else s

/-! ## The internal oscillator (R131) -/

/-- The code after gate k of the approximation, 1 to 10, in which the oscillator made n cycles in 1 ms: the bit on trial is kept unless
the oscillator is fast, and the next bit is tried. A greater code is a faster oscillator (assumption log 43). -/
def sarCode (code k n : Nat) : Nat :=
  let kept := if 50000 < n then code - 2 ^ (10 - k) else code
  if k < 10 then kept + 2 ^ (9 - k) else kept

/-- The code moved by at most one step. -/
def trackCode (code n : Nat) : Nat :=
  if 50000 < n then code - 1 else if n < 50000 then min 1023 (code + 1) else code

/-- OSC_TRIM_GATE: a 1 ms gate ends in which the oscillator made count cycles, the beacons present or not. With no source the code
holds; a change of source before the tenth gate starts the approximation again (R131). -/
def execOscTrimGate (beacons : Bool) (count : Nat) (s : State) : Host.Outcome State Fault Refusal :=
  s.run fun s =>
    let s1 := s.retrim beacons
    if s1.clock.trimBy = none then s1
    else if s.flag .clkOsctrimTrimmed then s1.wr .clkOsctrimCode (trackCode (s.rd .clkOsctrimCode) count)
    else
      let k := s1.clock.gates + 1
      let code := sarCode (if k = 1 then 0x200 else s.rd .clkOsctrimCode) k count
      let s2 := { s1.wr .clkOsctrimCode code with clock := { s1.clock with gates := k } }
      if 10 ≤ k then s2.wr .clkOsctrimTrimmed 1 else s2

/-- REF_SWITCH: the first time a crystal is STABLE once TRIMMED is set, XTAL0 preferred (R132). -/
def execRefSwitch (s : State) : Host.Outcome State Fault Refusal :=
  s.run fun s =>
    if !s.clock.picked && s.flag .clkOsctrimTrimmed && decide (s.rd .clkSrcRefsel = 2) then
      if s.xtal 0 = xtalStable then { s.selectRef 0 with clock := { s.clock with picked := true } }
      else if s.xtal 1 = xtalStable then { s.selectRef 1 with clock := { s.clock with picked := true } }
      else s
    else s

/-! ## Root PLLs (R135, R136) -/

/-- Bit k of a field set or cleared. -/
def State.setBit (s : State) (f : Field) (k : Nat) (on : Bool) (i : Nat := 0) (j : Nat := 0) : State :=
  let v := s.rd f i j
  if testBit v k = on then s else s.wr f (if on then v + 2 ^ k else v - 2 ^ k) i j

/-- A die out of holdover: its branches ramp again, with a governed stretch where a target lies beyond ÷32, unless the floor state holds them
(R136, R141, R142). -/
def State.leaveHold (s : State) (d : Nat) : State :=
  let s1 := (s.setBit .clkHold d false).setBit .clkLock d true
  if d < 32 then (s1.wr .clkDomForced (bit s1.floorOn) 0 d).rampFrom d else s1

/-- ROOT_PLL_LOCK (R135). -/
def execRootPllLock (die : Die) (s : State) : Host.Outcome State Fault Refusal :=
  s.run fun s => if s.holdover die.val || !(s.die die.val).powered then s else s.setBit .clkLock die.val true

/-- PLL_LOSS_OF_LOCK: holdover, and a compute die's branches take ÷32 (R136). -/
def execPllLossOfLock (die : Die) (s : State) : Host.Outcome State Fault Refusal :=
  s.run fun s =>
    let d := die.val
    if testBit (s.rd .clkLock) d then
      let s1 := (s.setBit .clkLock d false).setBit .clkHold d true
      let s2 := { s1 with clock := { s1.clock with holdAt := (d, s1.now) :: s1.clock.holdAt.filter fun x => x.1 ≠ d } }
      if d < 32 then (((branchesOf d).foldl State.branchTo32 s2).showDomain d).wr .clkDomForced 1 0 d else s2
    else s

/-- PLL_RELOCK: within 1 ms with a CORRECTED fault; later, the exclusion of PLL_HOLDOVER_TIMEOUT ends (R136). -/
def execPllRelock (die : Die) (s : State) : Host.Outcome State Fault Refusal :=
  s.run fun s =>
    let d := die.val
    if s.holdover d then
      let s1 := s.leaveHold d
      if (s.hd d).excl.contains 1 then s1.setExcl d 1 false else s1.raise (corr 12 2 (unitOf d 0) 0)
    else s

/-- PLL_HOLDOVER_TIMEOUT: 1 ms in holdover (R136). -/
def execPllHoldoverTimeout (die : Die) (s : State) : Host.Outcome State Fault Refusal :=
  s.run fun s =>
    let d := die.val
    if s.holdover d && !(s.hd d).excl.contains 1 then
      ((s.advanceTo (Store.get (fun _ => 0) s.clock.holdAt d + 1000000)).setExcl d 1 true).raise (cont 12 3 (unitOf d 0) (dieScope d) 0)
    else s

/-! ## Ramps (R140, R141) -/

/-- Whether a branch may run faster now: its rail stands at or above what the V-F table asks for its target (R90). -/
def State.mayQuicken (s : State) (k : Nat) : Bool :=
  let d := k / 4
  s.flag .rgcStatusVready d && decide (s.vf d (s.rd .clkCbrTgt 0 k / 16) ≤ s.rd .rgcVidV d)

/-- The pattern index of a unit after n cycles more (R138). -/
def State.runCycles (s : State) (u n : Nat) : State :=
  { s with clock := { s.clock with pattern := Store.insert natLt u ((Store.get (fun _ => 0) s.clock.pattern u + n) % 16) s.clock.pattern } }

/-- One ramp step of a governed depth deeper than the way to the target needs: sixteen of them release one root period, as fast as the ramp
would (R50, R141; DEDUCED, assumption log 98). -/
def State.easeStretch (s : State) (k : Nat) : State :=
  let n := Store.get (fun _ => 0) s.clock.release k + 1
  let s1 : State := { s with clock := { s.clock with release := Store.insert natLt k (n % 16) s.clock.release } }
  if n % 16 = 0 then s1.setGdep k (s.rd .clkCbrGdep 0 k - 1) else s1

/-- One dither step of a branch towards its target: the governed depth is recomputed, an excess of it released first where the branch is to run
faster, the domain shows its fastest branch, and the rail follows a ramp that has ended (R50, R90, R137, R140, R141). -/
def State.stepBranch (s : State) (k : Nat) : State :=
  let d := k / 4
  let cur := s.rd .clkCbrCur 0 k
  let tgt := s.rd .clkCbrTgt 0 k
  let excess := decide (governed cur tgt < s.rd .clkCbrGdep 0 k)
  if s.floorOn || s.holdover d then s
  else if cur < tgt then
    let s1 := s.wr .clkCbrCur (cur + 1) 0 k
    let s2 := if excess then s1.easeStretch k else s1.setGdep k (governed (cur + 1) tgt)
    (s2.showDomain d).followVf d
  else if excess then s.easeStretch k
  else if tgt < cur && s.mayQuicken k then ((s.wr .clkCbrCur (cur - 1) 0 k).showDomain d).followVf d
  else s

/-- One dither step of a domain outside CCLK. -/
def State.stepDomain (s : State) (d : Nat) : State :=
  let cur := s.rd .clkDomCur 0 d
  let tgt := s.rd .clkDomTgt 0 d
  if d < 32 then s
  else if cur < tgt then s.wr .clkDomCur (cur + 1) 0 d
  else if tgt < cur then s.wr .clkDomCur (cur - 1) 0 d
  else s

/-- DIVISOR_RAMP_STEP: CYC cycles at the present divisor have passed (R138, R140). -/
def execDivisorRampStep (tgt : ClockUnit) (s : State) : Host.Outcome State Fault Refusal :=
  s.run fun s =>
    match tgt with
    | .branch k => (s.runCycles (80 + k.val) (max 64 (s.rd .clkRampCyc))).stepBranch k.val
    | .domain d => (s.runCycles d.val (max 64 (s.rd .clkRampCyc))).stepDomain d.val

end Sys2Proof.Machine
end

