-- ==== Sys2Proof/Machine/Droop.lean ====
section
/-!
DEFINITION. Sys2Proof/Machine/Droop.lean: droop trips, their stretches and episodes, and the self-tests and retirement of detectors (R144
to R159).
-/
namespace Sys2Proof.Machine

/-! ## Trips -/

/-- The depth of a level in root periods: each held to 1 to 4, the second no lower than the first (R150, R160). -/
def State.droopDepth (s : State) (d level : Nat) : Nat :=
  let d1 := clampNat 1 4 (s.rd .dagDrpcfgDep1 d)
  if level = 2 then max d1 (clampNat 1 4 (s.rd .dagDrpcfgDep2 d)) else d1

/-- A step was served in the slot that runs or in the two before it (R154). -/
def State.announced (s : State) (d : Nat) : Bool :=
  decide (d < 32) && ((s.die d).adm.slots.take 3).any fun x => !x.served.isEmpty

/-- The domains a trip stretches: the detector's, or all four branches with SCOPE set on a compute die (R144). -/
def State.tripDomains (s : State) (d i : Nat) : List Nat :=
  if d < 32 && s.flag .dagDrpcfgScope d then upto 4 else [detDomain d i]

/-- Neighbours that are equal told once. -/
def squeeze : List Bool → List Bool
  | [] => []
  | b :: l => match squeeze l with
    | [] => [b]
    | c :: m => if b = c then c :: m else b :: c :: m

/-- A trip restarts hold: the runs of cycles so far stand before it. -/
def Episode.hold (e : Episode) : Episode := { e with before := squeeze (e.before ++ e.since ++ [e.counts]), since := [] }

/-- A domain's episode begun or carried on by a trip, once X has risen (R152, R154). -/
def State.noteEpisode (s : State) (d k i level x queue : Nat) : State :=
  let old := (s.die d).droop.episodes.find? fun e => e.1 = k
  let ep : Episode := match old with
    | some e => { e.2.hold with level := max e.2.level level, peak := max e.2.peak x, counts := s.droopCounts d k }
    | none => { det := i, level, peak := x, cycles := 0, announced := s.announced d, queue, start := s.now, before := [], since := []
                counts := s.droopCounts d k }
  s.updDie d fun y => { y with droop := { y.droop with
    episodes := Store.insert natLt k ep y.droop.episodes
    hit := addTo y.droop.hit k } }

/-- A domain stretched at a level: X rises to the level's depth unless it is greater, and hold starts again (R150, R152). -/
def State.stretch (s : State) (d i level queue k : Nat) : State :=
  let x := max (s.rd .dagDrpxX d k) (16 * s.droopDepth d level)
  ((((s.noteRun d k).wr .dagDrpxX x d k).wr .dagDrpxHold 1 d k)).noteEpisode d k i level x queue

/-- The level of a trip whose transition reached a tap: 0 for none (R146). -/
def State.tripLevel (s : State) (d i tap : Nat) : Nat :=
  if tap < s.rd .dagDrpchrTap2 d i then 2 else if tap < s.rd .dagDrpchrTap1 d i then 1 else 0

/-- Detection enabled: software clears it in CALIBRATING alone, and it is set again when that ends (R155, R160). -/
def State.detectsOn (s : State) (d : Nat) : Bool := s.flag .dagDrpcfgEn d || decide (s.svc ≠ svcCalibrating)

/-- Whether a detector's trips are applied and counted (R148, R153, R155). -/
def State.detects (s : State) (d i : Nat) : Bool :=
  (s.die d).powered && decide (i < dieDetectors d) && !s.detRetired d i && s.detectsOn d &&
    (s.railSt (ownRail d) = railReg || s.railSt (ownRail d) = railRamp)

/-- DROOP_TRIP: a capture at which the transition had reached tap (R146 to R153). -/
def execDroopTrip (die : Die) (det : Fin 64) (tap : BitVec 8) (queue : Queue) (s : State) : Host.Outcome State Fault Refusal :=
  s.run fun s =>
    let d := die.val
    let i := det.val
    let level := s.tripLevel d i tap.toNat
    if !s.detects d i || level = 0 then s
    else
      let s1 := s.count .dagDrpcntT1 1 d i
      let s2 := if level = 2 then s1.count .dagDrpcntT2 1 d i else s1
      let s3 := s2.updDie d fun y => { y with droop := { y.droop with trips := y.droop.trips ++ [(i, detDomain d i)] } }
      s3.each (s.tripDomains d i) fun s k => s.stretch d i level queue.val k

/-! ## Hold, release and the end of an episode -/

/-- The clock domain that detectors of domain k of a die other than a compute die are bound to (R144). -/
def droopClock (d k : Nat) : Nat :=
  if d < 36 then 64 + 2 * (d - 32) + k else if d < 38 then 72 + 2 * (d - 36) else 76 + 2 * (d - 38) + k

/-- The unit that keeps a droop domain's pattern index: its clock domain, or 80 and the number of its branch (R138). -/
def patternUnit (d k : Nat) : Nat := if d < 32 then 80 + (4 * d + k) else droopClock d k

/-- Cycles run: they lengthen the episode, and count as DROOP where X was no smaller than the governed depth (R153, R154). -/
def State.droopCycles (s : State) (d k : Nat) (counts : Bool) (n : Nat) : State :=
  let s1 := (s.runCycles (patternUnit d k) n).updDie d fun y =>
    let l := y.droop.episodes.map fun e => if e.1 = k then (k, { e.2 with cycles := e.2.cycles + n }) else e
    { y with droop := { y.droop with episodes := l } }
  if counts then (s1.count .dagDrpcyc n d k).tallyDie d .droopCyc n else s1

/-- A hold or a release step of len cycles from the last trip or step is done. The cycles of each run that ended in it, or before its last trip,
are told; the run that ends it took the rest of len (R150, R151, R153). -/
def State.closeRuns (s : State) (d k len : Nat) (cycles : List Nat) : State :=
  match (s.die d).droop.episodes.find? fun e => e.1 = k with
  | none => s
  | some (_, e) =>
    let told := (e.before ++ e.since).zipIdx.map fun x => (x.1, (cycles[x.2]?).getD 0)
    let spent := ((told.drop e.before.length).map fun x => x.2).foldl (· + ·) 0
    let s1 := (told ++ [(e.counts, len - spent)]).foldl (fun s x => s.droopCycles d k x.1 x.2) s
    s1.updDie d fun y => { y with droop := { y.droop with
      episodes := y.droop.episodes.map fun e => if e.1 = k then (k, { e.2 with before := [], since := [] }) else e } }

/-- An episode that has ended: counted, classed on a CCLK branch, and traced (R154, R357). -/
def State.endEpisode (s : State) (d k : Nat) : State :=
  match (s.die d).droop.episodes.find? fun e => e.1 = k with
  | none => s
  | some (_, e) =>
    let s1 := s.count .dagDrpepiL1 1 d k
    let s2 := if e.level = 2 then s1.count .dagDrpepiL2 1 d k else s1
    let s3 := if d < 32 then s2.count (if e.announced then .dagDrpann else .dagDrpuna) 1 d else s2
    let s4 := s3.updDie d fun y => { y with droop := { y.droop with episodes := y.droop.episodes.filter (fun e => e.1 ≠ k) } }
    s4.trace d 3 k 0 (e.det + 2 ^ 6 * bit (decide (e.level = 2)) + 2 ^ 7 * bit e.announced + 2 ^ 8 * e.queue)
      (e.peak + 2 ^ 7 * min (2 ^ 25 - 1) e.cycles)

/-- X falls by a sixteenth, and at zero the episode ends (R151, R152). -/
def State.dropX (s : State) (d k : Nat) : State :=
  let x := s.rd .dagDrpxX d k
  let s1 := (s.wr .dagDrpxX (x - 1) d k).noteRun d k
  if x = 1 then s1.endEpisode d k else s1

/-- The hold in cycles, 0 handled as 1 (R150, R160). -/
def State.holdLen (s : State) (d : Nat) : Nat := max 1 (s.rd .dagDrpcfgLen d)

/-- DROOP_HOLD_END: LEN cycles have passed since the one in which the last trip was captured, and X falls at once; cycles tells the runs of
cycles that ended before (R150, R151). -/
def execDroopHoldEnd (die : Die) (dom : Core) (cycles : List Nat) (s : State) : Host.Outcome State Fault Refusal :=
  s.run fun s =>
    let d := die.val
    let k := dom.val
    if s.flag .dagDrpxHold d k then
      (((s.noteRun d k).closeRuns d k (s.holdLen d) cycles).wr .dagDrpxHold 0 d k).dropX d k
    else s

/-- DROOP_RELEASE_STEP: CYC cycles have passed outside hold (R151). -/
def execDroopReleaseStep (die : Die) (run : ReleaseRun) (s : State) : Host.Outcome State Fault Refusal :=
  s.run fun s =>
    let d := die.val
    let k := run.dom.val
    if s.rd .dagDrpxX d k ≠ 0 && !s.flag .dagDrpxHold d k then
      ((s.noteRun d k).closeRuns d k (max 64 (s.rd .clkRampCyc)) run.cycles).dropX d k
    else s

/-- An episode's start, if its domain has one. -/
def State.episodeStart (s : State) (d k : Nat) : Option Nat :=
  ((s.die d).droop.episodes.find? fun e => e.1 = k).map fun e => e.2.start

/-- DROOP_PERSIST: X above zero for 16 fast periods (R159). -/
def execDroopPersist (die : Die) (dom : Core) (s : State) : Host.Outcome State Fault Refusal :=
  s.run fun s =>
    match s.episodeStart die.val dom.val with
    | some t => ((s.advanceTo (t + 4000)).wr .dagDrpstatPersist 1 die.val).dieFault die.val (corr 9 4 (unitOf die.val dom.val) 6)
    | none => s

/-- DROOP_PERSIST_LONG: X above zero for 1 ms (R159). -/
def execDroopPersistLong (die : Die) (dom : Core) (s : State) : Host.Outcome State Fault Refusal :=
  s.run fun s =>
    match s.episodeStart die.val dom.val with
    | some t => (s.advanceTo (t + 1000000)).dieFault die.val (cont 9 5 (unitOf die.val dom.val) (dieScope die.val) 6)
    | none => s

/-! ## Self-test and retirement (R156 to R158) -/

/-- The slowest target that excess retirement leaves a domain outside CCLK, 0 for none. -/
def State.domClamp (s : State) (c : Nat) : Nat :=
  (upto 8).foldl (fun m n =>
    let d := 32 + n
    (s.die d).droop.clamped.foldl (fun m k => if droopClock d k = c then max m (s.rd .dagDrpcfgRetdiv d) else m) m) 0

/-- A target given to a domain outside CCLK and GCLK: held to 4.0 to 255.0 and to the clamp of R158 (R137, R139). -/
def State.setDomain (s : State) (c div : Nat) : State :=
  let l := s.legalDiv false (max (s.domClamp c) div)
  let s1 := s.wr .clkDomTgt l.1 0 c
  if l.2.1 then s1.wr .clkStatusDivclamp 1 else s1

/-- Retired detectors of domain k. -/
def State.retiredIn (s : State) (d k : Nat) : Nat :=
  ((upto (dieDetectors d)).filter fun i => s.detRetired d i && decide (detDomain d i = k)).length

/-- A domain's branch or clock held to its clamp (R158). -/
def State.holdClamp (s : State) (d k : Nat) : State :=
  if d < 32 then (s.setBranch (4 * d + k) (s.rd .clkCbrTgt 0 (4 * d + k))).followVf d
  else s.setDomain (droopClock d k) (s.rd .clkDomTgt 0 (droopClock d k))

/-- Too many detectors of a domain retired: its branch or domain is clamped, with a CONTAINED fault (R158). -/
def State.clampDomain (s : State) (d k : Nat) : State :=
  if (s.die d).droop.clamped.contains k || decide (s.retiredIn d k ≤ s.rd .dagDrpcfgRetmax d) then s
  else
    let s1 := (s.updDie d fun y => { y with droop := { y.droop with clamped := addTo y.droop.clamped k } }).wr .dagDrpstatClamp 1 d
    (s1.holdClamp d k).dieFault d (cont 9 3 (unitOf d k) (dieScope d) 7)

/-- RETMAX or RETDIV written: a domain with more detectors retired than are tolerated is clamped, one with no more is free of its clamp, and a clamp
that stands takes the new divisor (R158; DEDUCED, assumption log 96). -/
def State.reclamp (s : State) (d : Nat) : State :=
  let keep := (s.die d).droop.clamped.filter fun k => decide (s.rd .dagDrpcfgRetmax d < s.retiredIn d k)
  let s1 := (s.updDie d fun y => { y with droop := { y.droop with clamped := keep } }).wr .dagDrpstatClamp (bit (!keep.isEmpty)) d
  let s2 := keep.foldl (fun s k => s.holdClamp d k) s1
  (upto (dieDomains d)).foldl (fun s k => s.clampDomain d k) s2

/-- A detector retired until the always-on supply is removed (R158). -/
def State.retireDetector (s : State) (d i : Nat) : State :=
  let s1 := s.setBit .dagDrpretRet i true d
  let s2 := s1.wr .dagDrpstatRetcnt (min 64 (s.rd .dagDrpstatRetcnt d + 1)) d
  (s2.dieFault d (corr 9 2 (unitOf d i) 7)).clampDomain d (detDomain d i)

/-- DETECTOR_SELFTEST: the detector whose turn the fabric-time millisecond fixes must trip with the tap at 255 and not with the tap at 0
(R156). -/
def execDetectorSelftest (die : Die) (hi lo : Bool) (s : State) : Host.Outcome State Fault Refusal :=
  s.run fun s =>
    let d := die.val
    let i := s.now / 1000000 % dieDetectors d
    if (s.die d).powered && (s.svc = svcFull || s.svc = svcHeld || s.svc = svcSteward) && !s.detRetired d i && !(hi && !lo) then
      s.retireDetector d i
    else s

/-- The three parts of the targeted self-test: the two launches of R156; fewer than 16 trips at the tap in force; and a sweep within 4 taps of the
characteristic at the sensed voltage (R157; DEDUCED: the current voltage is the sensed one, assumption log 96). -/
def State.targetedPass (s : State) (d i : Nat) (forced : Bool) (quiet : QuietTest) (sweep : SweepTest) : Bool :=
  let c := s.charTap d i ((s.rail (ownRail d)).vs : Rat)
  forced && decide (quiet.tripped < 16) && decide (c - 4 ≤ (sweep.tap : Rat)) && decide ((sweep.tap : Rat) ≤ c + 4)

/-- DETECTOR_TARGETED_TEST: the test that 64 lone trips called for; a pass is a transient error, a failure retires the detector (R157). -/
def execDetectorTargetedTest (die : Die) (det : Fin 64) (forced : Bool) (quiet : QuietTest) (sweep : SweepTest) (s : State) :
    Host.Outcome State Fault Refusal :=
  s.run fun s =>
    let d := die.val
    let i := det.val
    if (s.die d).powered && (s.die d).droop.testDue.contains i then
      let s1 := s.updDie d fun y => { y with droop := { y.droop with testDue := y.droop.testDue.filter (· ≠ i) } }
      if s.detRetired d i then s1
      else
        let pass := s.targetedPass d i forced quiet sweep
        let s2 := s1.selfTest pass
        if pass then s2 else s2.retireDetector d i
    else s

end Sys2Proof.Machine
end

