-- ==== Sys2Proof/Machine/Hearth.lean ====
section
/-!
DEFINITION. Sys2Proof/Machine/Hearth.lean: sensors and thermal thresholds, the calibration of gains, the Hearth's runs, and the cooling
windows (R55 to R57, R216 to R232).
-/
namespace Sys2Proof.Machine

/-! ## What the Hearth keeps -/

def State.hearthDie (s : State) (d : Nat) : HearthDie := Store.get HearthDie.init s.hearth.dies d

def State.updHearthDie (s : State) (d : Nat) (f : HearthDie → HearthDie) : State :=
  { s with hearth := { s.hearth with dies := Store.insert natLt d (f (s.hearthDie d)) s.hearth.dies } }

/-- A sensor that has converted nothing. -/
def sensorInit (_ : Nat) : SensorState := { above := 0, trip := 0, dev := 0, sum := 0, n := 0 }

def State.sensor (s : State) (d i : Nat) : SensorState := Store.get sensorInit (s.die d).sensors i

def State.setSensor (s : State) (d i : Nat) (x : SensorState) : State :=
  s.updDie d fun y => { y with sensors := Store.insert natLt i x y.sensors }

/-- The junction node that a sensor observes (R221). -/
def sensorNode (d i : Nat) : Nat := i / (dieSensors d / 4)

/-- A sensor's last trimmed conversion in 1/16 °C. -/
def State.sensorT (s : State) (d i : Nat) : Int := toSigned 16 (s.rd .dagTsT d i)

def State.sensorOut (s : State) (d i : Nat) : Bool := s.flag .dagTsRetired d i

/-! ## Calibration of the gains (R55 to R57) -/

/-- The rails whose sum a die agent calibrates g_own against (R54, R55). -/
def ownRails (d : Nat) : List Nat := if 32 ≤ d && d < 36 then [ownRail d, 56 + (d - 32)] else [ownRail d]

/-- A rail's energy over the last millisecond, from its 1 ms power average, in 2^-16 µJ. -/
def State.railEnergy (s : State) (r : Nat) : Nat := s.rd .rgcTelP1ms r * 8192000

/-- Whether a rail's last millisecond may calibrate (R56). -/
def State.railSample (s : State) (r : Nat) : Bool :=
  s.railSt r = railReg && !(s.rail r).disturbed && !((upto 4).any fun p => s.phMasked r p)

/-- A calibration step of one gain from measured and raw energy: the new gain, or none where the sample is rejected. With a raw energy of 0 the ratio
has no value, and the sample is rejected as one outside 0.5 to 2.0 (R55, R56; DESIGN CHOICE, assumption log 82). -/
def newGain (ok : Bool) (g meas raw : Nat) : Option Nat :=
  if !ok || raw = 0 then none
  else
    let q : Rat := (meas : Rat) / raw
    if q < 1 / 2 || 2 < q then none
    else some (clampNat 12288 20480 (roundNat 23 ((g : Rat) + (q * 16384 - g) / 16)))

/-- A gain's step: its field and index, its value before, and the sample's outcome. -/
abbrev GainStep := FieldRef × Nat × Option Nat

/-- The steps of the gains that a die agent calibrates (R55). -/
def State.gainSteps (s : State) (d : Nat) : List GainStep :=
  let rs := ownRails d
  let own := newGain (rs.all s.railSample) (s.rd .dagEgainGown d) (rs.foldl (fun n r => n + s.railEnergy r) 0) (s.die d).rawOwn
  let a : GainStep := (⟨.dagEgainGown, d, 0⟩, s.rd .dagEgainGown d, own)
  if d < 32 && d % 2 = 0 then
    let m := 32 + d / 2
    let raw := (s.die d).rawMem + (s.die (d + 1)).rawMem
    [a, (⟨.dagEgainGmem, d, 0⟩, s.rd .dagEgainGmem d, newGain (s.railSample m) (s.rd .dagEgainGmem d) (s.railEnergy m) raw)]
  else [a]

/-- Whether a gain was updated from an accepted sample and changed by less than 2^-8 (R57). -/
def GainStep.calm (x : GainStep) : Bool :=
  match x.2.2 with
  | some g => decide (g < x.2.1 + 64) && decide (x.2.1 < g + 64)
  | none => false

/-- A die agent's gains updated, its rejected samples counted, and CONV set or cleared; one not yet admitted keeps its fused values and unit
gains (R55 to R57). -/
def State.calibrate (s : State) (d : Nat) (l : List GainStep) : State :=
  if !(s.die d).powered || !(s.hd d).admitted then s
  else
    let rejected := (l.filter fun x => x.2.2.isNone).length
    let conv := if l.all GainStep.calm then min 64 ((s.die d).convRun + 1) else 0
    let rej := if rejected = 0 then 0 else min 16 ((s.die d).rejRun + 1)
    let s1 := s.each l fun s x => match x.2.2 with | some g => s.put x.1 g | none => s
    let s2 := (s1.count .dagEcalRejcnt rejected d).updDie d fun y => { y with convRun := conv, rejRun := rej }
    if rej = 16 then s2.wr .dagEcalConv 0 d else if conv = 64 then s2.wr .dagEcalConv 1 d else s2

/-! ## The Hearth boundary (R226) -/

/-- The mean of a sensor's conversions of the last millisecond, if it is not retired and converted at all. -/
def State.sensorMean (s : State) (d i : Nat) : Option Rat :=
  let x := s.sensor d i
  if s.sensorOut d i || x.n = 0 then none else some ((x.sum : Rat) / x.n)

/-- The greatest of a list. -/
def maxRat (l : List Rat) : Option Rat := l.foldl (fun m x => match m with | some y => some (max y x) | none => some x) none

/-- A die agent latches its sensor means and node energies, its mean power and t_mean; a die without power has drawn none and reads no sensor
(R54, R77, R222, R226). -/
def State.latchDie (s : State) (d : Nat) : State :=
  if !(s.die d).powered then
    s.updHearthDie d fun x => { x with power := [0, 0, 0, 0, 0, 0], nodeMax := [none, none, none, none], tMax := none }
  else
    let ns := upto (dieSensors d)
    let means := ns.filterMap (s.sensorMean d)
    let node (j : Nat) : Option Rat :=
      maxRat ((ns.filter fun i => decide (sensorNode d i = j) && !s.flag .dagTsSuspect d i).filterMap (s.sensorMean d))
    let s1 := s.updHearthDie d fun x =>
      { x with power := (s.die d).msNodes, nodeMax := (upto 4).map node, tMax := maxRat means }
    let s2 := s1.wr .dagEpwrMs (min 0xFFFF (roundNat 10 (((s.die d).msEnergy : Rat) / 8192000))) d
    s2.updDie d fun x =>
      { x with
        msEnergy := 0, msNodes := [0, 0, 0, 0, 0, 0], rawOwn := 0, rawMem := 0
        tMean := if means.isEmpty then x.tMean else roundFree 26 (sumRat means / (means.length : Rat))
        sensors := x.sensors.map fun e => (e.1, { e.2 with sum := 0, n := 0 })
        adm := { x.adm with unaMs := 0 }, droop := { x.droop with lone := [] } }

/-- The open bin closed, the millisecond's COOL mark entered, s and the W1 limit in force noted, and the run judged: due once the firmware has run
for 1 ms, and made by the active Hall once it has held its role for 1 ms (R226 to R228, R230, R232). -/
def State.closeBin (s : State) (m : Nat) : State :=
  let h := s.hearth
  let due := match h.fwSince with | some t => decide (t + 1000000 ≤ 1000000 * m) | none => false
  let able := match h.roleAt with | some t => decide (t + 1000000 ≤ 1000000 * m) | none => true
  { s with hearth := { h with ms := m, closing := some h.openBin, openBin := 0, secCool := h.secCool + bit h.coolMs,
                              coolMs := false, due, able, inletRun := none, sAt := s.lim.s, w1At := s.lim.w1 } }

/-- The inlet temperature in force (R225). -/
def State.inletNow (s : State) : Int := toSigned 16 (if s.flag .hrtHstatStale then s.rd .hrtInletwcT else s.rd .hrtInletVal)

/-- A run that has started, at H_m + 10 µs, keeps the inlet temperature it started with: what is to change it comes too late (R226). -/
def State.takeInlet (s : State) : State :=
  if s.hearth.inletRun.isNone && decide (1000000 * s.hearth.ms + 10000 ≤ s.now) then
    { s with hearth := { s.hearth with inletRun := some s.inletNow } }
  else s

/-- HEARTH_BOUNDARY: the next multiple of 1 ms (R55, R106, R226). -/
def execHearthBoundary (s : State) : Host.Outcome State Fault Refusal :=
  s.run fun s =>
    let s0 := s.fixBin
    let m := max (s0.hearth.ms + 1) ((s0.now + 999999) / 1000000)
    let s1 := (s0.advanceTo (1000000 * m)).each (upto 60) State.tel1ms
    let steps := (upto 40).map fun d => (d, s1.gainSteps d)
    let s2 := s1.each steps fun s x => s.calibrate x.1 x.2
    let s3 := (s2.each (upto 40) State.latchDie).closeBin m
    s3.each (upto 60) fun s r => s.updRail r fun x => { x with disturbed := false }

/-! ## The run (R222 to R224, R230) -/

/-- One solver step of 100 µs of a linear network: temperatures in 1/16 °C, powers in 1/8 W (R222). -/
def netStep (net : List Nat) (d : Nat) (power : List Rat) (inlet : Rat) (t : List Rat) : List Rat :=
  (upto 8).map fun i =>
    sumRat ((upto 8).map fun j => Config.netT net d i j * hist t j) +
      sumRat ((upto 6).map fun j => Config.netP net d i j * hist power j) + Config.netIn net d i * inlet

/-- n solver steps. -/
def netRun (net : List Nat) (d : Nat) (power : List Rat) (inlet : Rat) : Nat → List Rat → List Rat
  | 0, t => t
  | n + 1, t => netRun net d power inlet n (netStep net d power inlet t)

/-- A junction node corrected a quarter of the way to its reading (R222). -/
def corrected (t : List Rat) (read : List (Option Rat)) : List Rat :=
  t.zipIdx.map fun x =>
    match (read[x.2]?).getD none with
    | some r => x.1 + (r - x.1) / 4
    | none => x.1

/-- What a run finds for one die: the network's state, the term in power units, and the highest predicted junction temperature. -/
structure HearthRun where
  temps : List Rat
  term : Nat
  pred : Rat
  deriving DecidableEq, Repr

/-- The target less RETMARG where too many of a die's sensors are retired, that margin first (R218, R223). -/
def State.hearthMargin (s : State) (d : Nat) : Nat :=
  if (if d < 32 then 8 else 4) < s.rd .hrtDieRetcnt 0 d then s.rd .hrtCfgRetmarg else 0

/-- The run of one die (R222, R223). -/
def State.hearthSolve (s : State) (d : Nat) : HearthRun :=
  let h := s.hearthDie d
  let net := s.hearth.network
  let inlet : Rat := (s.hearth.inletRun.getD s.inletNow : Int)
  let power : List Rat := h.power.map fun (e : Nat) => (e : Rat) / 8192000
  let start := if h.temps.isEmpty then (upto 8).map (Config.netStart net d) else h.temps
  let t := corrected (netRun net d power inlet 10 start) h.nodeMax
  let total := sumRat power
  let shares := if total = 0 then (upto 6).map (Config.netShare net d) else power.map fun p => p / total
  let f := netRun net d [] inlet 100 t
  let g := netRun net d shares 0 100 []
  let margin := s.hearthMargin d
  let tgt : Rat := (toSigned 16 (s.rd .hrtTargetT) - margin : Int)
  let term (j : Nat) : Nat := if hist g j ≤ 0 then 0xFFFF else min 0xFFFF ((tgt - hist f j) / hist g j).floor.toNat
  let pred := (upto 4).map fun j => hist f j + hist g j * total + margin
  { temps := t, term := (upto 4).foldl (fun m j => min m (term j)) 0xFFFF, pred := (maxRat pred).getD 0 }

/-- The domains of a die outside compute that follow its term: all but GCLK (R137, R224). -/
def termDomains (d : Nat) : List Nat :=
  if d < 32 then [] else if d < 36 then [64 + 2 * (d - 32), 65 + 2 * (d - 32)]
  else if d < 38 then [72 + 2 * (d - 36)] else [76 + 2 * (d - 38), 77 + 2 * (d - 38)]

/-- The forecast of a die of 32 to 39 (R176). -/
def State.dieForecast (s : State) (d : Nat) : Nat := match (s.hd d).rep with | some r => (r.fc[0]?).getD 0 | none => 0

/-- How far domain i of a die has been lowered. -/
def HearthDie.low (x : HearthDie) (i : Nat) : Nat := (x.lowered[i]?).getD 0

/-- A new target of a domain, set by the control complex, is one that the Hearth has not lowered (R137, R224). -/
def State.forgetLowered (s : State) (c : Nat) : State :=
  if c < 64 then s
  else s.updHearthDie (32 + (c - 64) / 2) fun x =>
    { x with lowered := (upto 2).map fun i => if i = (c - 64) % 2 then 0 else x.low i }

/-- A domain moved by at most one whole divisor step, slower or back towards where it stood (R224). -/
def State.stepDomainTerm (s : State) (d i c : Nat) (up : Bool) : State :=
  let old := s.rd .clkDomTgt 0 c
  let n := (s.hearthDie d).low i
  let s1 := s.setDomain c (if up then min 0xFF0 (old + 16) else old - min 16 n)
  let new := s1.rd .clkDomTgt 0 c
  s1.updHearthDie d fun x =>
    { x with lowered := (upto 2).map fun k => if k = i then (if up then n + (new - old) else n - min 16 n) else x.low k }

/-- A die of 32 to 39 whose term in force lies below its forecast runs one whole divisor step slower, and one faster while its prediction stays 3 °C
below the target (R224). -/
def State.stepDomains (s : State) (d : Nat) (r : HearthRun) : State :=
  let move (up : Bool) : State := s.each (termDomains d).zipIdx fun s x => s.stepDomainTerm d x.2 x.1 up
  if s.rd .hrtDieTerm 0 d < s.dieForecast d then move true
  else if r.pred ≤ (toSigned 16 (s.rd .hrtTargetT) - 48 : Int) then move false
  else s

/-- A run's outputs for one die committed; in HELD a term does not rise above its value at entry (R226, R228). -/
def State.commitDie (s : State) (d : Nat) (r : HearthRun) : State :=
  let h := s.hearthDie d
  let term := if s.baseSvc = svcHeld then min r.term h.heldTerm else r.term
  let s1 := s.puts [(⟨.hrtDieTerm, 0, d⟩, term), (⟨.hrtDieTpred, 0, d⟩, ofSigned 16 (roundFree 29 r.pred))]
  let s2 := match h.tMax with | some t => s1.wr .hrtDieTmax (ofSigned 16 (roundFree 27 t)) 0 d | none => s1
  (s2.updHearthDie d fun x => { x with temps := r.temps }).stepDomains d r

/-- therm_lim: the compute dies' terms, and the lesser of term and forecast of every other die (R224). -/
def State.thermLim (s : State) : Nat :=
  min 0xFFFF ((upto 40).foldl (fun n d =>
    let t := s.rd .hrtDieTerm 0 d
    n + if d < 32 then t else min t (s.dieForecast d)) 0)

/-- The two headrooms replaced by the Hearth's at the s and the W1 limit in force at H_m, less the energy measured since and plus the leaving bins; the
next sampling instant takes what either has changed by (R43, R226, R230; DEDUCED, assumption log 100). -/
def State.replaceCredit (s : State) : State :=
  let k : Int := 65536 * 4000 * 1000000 / 8
  let h := s.hearth
  let s1 := { s with lim := { s.lim with
    head30 := (h.sAt : Int) * 30 * k - 4000 * (h.e30 : Int) + s.lim.since30
    head1 := (h.w1At : Int) * k - 4000 * (h.e1 : Int) + s.lim.since1
    s := h.sAt, w1 := h.w1At } }
  s1.showCredit

/-- HEARTH_RUN_COMMIT: H_m + 200 µs, where a run is due and the active Hall can have made it (R226 to R228). -/
def execHearthRunCommit (s : State) : Host.Outcome State Fault Refusal :=
  s.run fun s =>
    if !(s.hearth.due && s.hearth.able) then s
    else
      let s1 := s.fixBin.advanceTo (1000000 * s.hearth.ms + 200000)
      let runs := (upto 40).map fun d => (d, s1.hearthSolve d)
      let s2 := s1.each runs fun s x => s.commitDie x.1 x.2
      let s3 := (s2.wr .alcThermlimLim s2.thermLim).replaceCredit
      let s4 := s3.puts [(⟨.hrtRunSeq, 0, 0⟩, s3.rd .hrtRunSeq + 1), (⟨.hrtRunMiss, 0, 0⟩, 0), (⟨.hrtHstatHstale, 0, 0⟩, 0)]
      { s4 with hearth := { s4.hearth with due := false } }

/-- Twenty misses: therm_lim no higher than STALELIM, and every term scaled by the same ratio (R227). -/
def State.staleTerms (s : State) : State :=
  let old := s.rd .alcThermlimLim
  let new := min old (s.rd .hrtStalelimLim)
  let s1 := s.each (upto 40) fun s d => s.wr .hrtDieTerm (roundNat 28 ((s.rd .hrtDieTerm 0 d : Rat) * ratio new old)) 0 d
  s1.wr .alcThermlimLim new

/-- HEARTH_RUN_MISSED: H_m + 200 µs, where a run is due (R227). -/
def execHearthRunMissed (s : State) : Host.Outcome State Fault Refusal :=
  s.run fun s =>
    if !s.hearth.due then s
    else
      let s1 := (s.fixBin.advanceTo (1000000 * s.hearth.ms + 200000)).count .hrtRunMiss
      let s2 := { s1 with hearth := { s1.hearth with due := false } }
      let n := s2.rd .hrtRunMiss
      let u := unitOf (40 + s.active) 0
      if n = s.rd .hrtRunMiss then s2
      else if n = 4 then (s2.wr .hrtHstatHstale 1).raise (corr 14 1 u 0)
      else if n = 20 then s2.staleTerms.raise (cont 14 2 u .package 0)
      else s2

/-! ## Sensors (R216 to R220) -/

/-- A sensor marked suspect: one CORRECTED fault, and its self-test follows (R218). -/
def State.suspect (s : State) (d i : Nat) : State :=
  if s.flag .dagTsSuspect d i || s.sensorOut d i then s
  else (s.wr .dagTsSuspect 1 d i).dieFault d (corr 10 1 (unitOf d i) 6)

/-- A Lintel junction trip of a die: the floor state for the package, and one CONTAINED fault for each die that trips (R36, R219, R220). -/
def State.junctionTrip (s : State) (d : Nat) : State :=
  if s.hearth.tripped.contains d then s
  else
    let s1 := (s.forceFloor fun f => { f with junction := true }).wr .hrtHstatLtripact 1
    let s2 := { s1 with hearth := { s1.hearth with tripped := s1.hearth.tripped ++ [d], hotAt := s1.now } }
    s2.dieFault d (cont 10 4 (unitOf d 0) (dieScope d) 6)

/-- THERMTRIP: the ball asserted and latched, the floor state, and FATAL, whatever software has written to TTRIP (R219, R220). -/
def State.thermTrip (s : State) (d i : Nat) : State :=
  if s.force.thermtrip then s.wr .hrtHstatTtrip 1
  else
    let s1 := (s.wr .hrtHstatTtrip 1).forceFloor fun f => { f with thermtrip := true }
    { s1 with pins := { s1.pins with thermtripN := false } }.dieFault d (fatalFault 10 5 (unitOf d i) 6)

/-- A trimmed conversion of a sensor compared with its thresholds, its plausible range and its node's estimate (R218, R219). -/
def State.conversion (s : State) (d i : Nat) (t : Int) : State :=
  let x := s.sensor d i
  let above := if toSigned 16 (s.rd .hrtLtripTrip) ≤ t then x.above + 1 else 0
  let trip := if toSigned 16 (s.rd .hrtTtripTrip) ≤ t then x.trip + 1 else 0
  let est := (s.hearthDie d).temps
  let far : Bool := match est[sensorNode d i]? with
    | some e => decide (160 < (t : Rat) - e) || decide (160 < e - (t : Rat))
    | none => false
  let dev := if far then x.dev + 1 else 0
  let s1 := (s.wr .dagTsT (ofSigned 16 t) d i).setSensor d i
    { above := min 2 above, trip := min 2 trip, dev := min 50 dev, sum := x.sum + t, n := x.n + 1 }
  let s2 := if t < -640 || 2400 < t || dev = 50 then s1.suspect d i else s1
  let s3 := if s2.hearth.tripped.contains d && decide (toSigned 16 (s2.rd .hrtLtripRel) ≤ t) then
    { s2 with hearth := { s2.hearth with hotAt := s2.now } } else s2
  let s4 := if 2 ≤ above then s3.junctionTrip d else s3
  if 2 ≤ trip then s4.thermTrip d i else s4

/-- A conversion of a sensor corrected by its fused two-point trim and its offset trim, in 1/16 °C, held to the field's range (R216; assumption log
48). -/
def State.trimmedT (s : State) (d i : Nat) (raw : Int) : Int :=
  max (-32768) (min 32767 (Config.twoPoint d i raw + toSigned 8 (s.rd .dagTsOffs d i)))

/-- THERMAL_CONVERSION: a conversion before its trims (R216 to R220). -/
def execThermalConversion (die : Die) (idx : Fin 48) (raw : Int) (s : State) : Host.Outcome State Fault Refusal :=
  s.run fun s =>
    let d := die.val
    let i := idx.val
    if !(s.die d).powered || decide (dieSensors d ≤ i) then s
    else
      let t := s.trimmedT d i raw
      if s.sensorOut d i then s.wr .dagTsT (ofSigned 16 t) d i else s.conversion d i t

/-- LINTEL_TRIP_RELEASE: no sensor of a tripped die at or above the release level for 10 ms (R219). -/
def execLintelTripRelease (s : State) : Host.Outcome State Fault Refusal :=
  s.run fun s =>
    let rel := toSigned 16 (s.rd .hrtLtripRel)
    let cool := s.hearth.tripped.all fun d => (upto (dieSensors d)).all fun i => s.sensorOut d i || decide (s.sensorT d i < rel)
    if s.force.junction && cool then
      let s1 := s.advanceTo (s.hearth.hotAt + 10000000)
      ({ s1 with hearth := { s1.hearth with tripped := [] } }.wr .hrtHstatLtripact 0).releaseFloor fun f => { f with junction := false }
    else s

/-- A sensor retired: counted, with a CORRECTED fault; beyond the limit of its die, a CONTAINED one (R218). -/
def State.retireSensor (s : State) (d i : Nat) : State :=
  let n := s.rd .hrtDieRetcnt 0 d + 1
  let lim := if d < 32 then 8 else 4
  let s1 := s.puts [(⟨.dagTsSuspect, d, i⟩, 0), (⟨.dagTsRetired, d, i⟩, 1), (⟨.hrtDieRetcnt, 0, d⟩, n)]
  let s2 := s1.dieFault d (corr 10 2 (unitOf d i) 7)
  if n = lim + 1 then s2.dieFault d (cont 10 3 (unitOf d i) (dieScope d) 7) else s2

/-- SENSOR_SELFTEST: the reference junction must read within 1.5 °C of its fused value; err is the difference in 1/16 °C (R218, R288). -/
def execSensorSelftest (die : Die) (idx : Fin 48) (err : Int) (s : State) : Host.Outcome State Fault Refusal :=
  s.run fun s =>
    let d := die.val
    let i := idx.val
    if (s.die d).powered && s.flag .dagTsSuspect d i then
      let pass := decide (-24 ≤ err) && decide (err ≤ 24)
      let s1 := s.selfTest pass
      if pass then (s1.wr .dagTsSuspect 0 d i).setSensor d i { s1.sensor d i with dev := 0 } else s1.retireSensor d i
    else s

/-! ## The inlet (R225) -/

/-- A write of HRT.INLET.VAL: clamped to -10 to 80 °C, STALE cleared (R225). -/
def State.inlet (s : State) (v : Nat) : State :=
  let t := toSigned 16 v
  let c := max (-160) (min 1280 t)
  let s1 := s.takeInlet.puts [(⟨.hrtInletVal, 0, 0⟩, ofSigned 16 c), (⟨.hrtInletAge, 0, 0⟩, 0), (⟨.hrtHstatStale, 0, 0⟩, 0)]
  let s2 := if c = t then s1 else s1.wr .hrtHstatInclamp 1
  { s2 with hearth := { s2.hearth with inletAt := some s.now } }

/-- INLET_WRITE: from the I3C port; the control complex may write it too, and it is read-only from host (R11, R233). -/
def execInletWrite (port : Port) (val : BitVec 16) (s : State) : Host.Outcome State Fault Refusal :=
  s.run fun s => if port.isHost then s else s.inlet val.toNat

/-- INLET_STALE: 1 000 ms without a write (R225). -/
def execInletStale (s : State) : Host.Outcome State Fault Refusal :=
  s.run fun s =>
    match s.hearth.inletAt with
    | some t =>
      if s.flag .hrtHstatStale then s
      else ((s.advanceTo (t + 1000000000)).takeInlet.puts [(⟨.hrtInletAge, 0, 0⟩, 1000), (⟨.hrtHstatStale, 0, 0⟩, 1)]).event (10 * 256 + 6) 0 0 none
    | none => s

/-! ## Latches of the windows (R232) -/

/-- WINDOW_LATCH_1S: 60 ns after an H_m that is a fabric-time second, once for each. -/
def execWindowLatch1s (s : State) : Host.Outcome State Fault Refusal :=
  s.run fun s =>
    let m := s.hearth.ms
    if m % 1000 ≠ 0 || m = s.hearth.lat1 then s
    else
      let s1 := s.fixBin.advanceTo (1000000 * m + 60)
      let h := s1.hearth
      let s2 := s1.puts
        [(⟨.hrtW1lat, 0, 0⟩, h.e1 / 65536), (⟨.hrtW1statW1pk, 0, 0⟩, min 0xFFFF (roundNat 24 ((h.secPeak : Rat) / 8192000))),
         (⟨.hrtW1statW1cool, 0, 0⟩, min 1000 h.secCool)]
      { s2 with hearth := { h with secPeak := 0, secCool := 0, lat1 := m } }

/-- WINDOW_LATCH_30S: 60 ns after an H_m that is a multiple of 30 s, once for each. -/
def execWindowLatch30s (s : State) : Host.Outcome State Fault Refusal :=
  s.run fun s =>
    let m := s.hearth.ms
    if m % 30000 ≠ 0 || m = s.hearth.lat30 then s
    else
      let s1 := s.fixBin.advanceTo (1000000 * m + 60)
      { s1.wr .hrtW30lat (s1.hearth.e30 / 65536) with hearth := { s1.hearth with lat30 := m } }

end Sys2Proof.Machine
end

