-- ==== Sys2Proof/Machine/Chain.lean ====
section
/-!
DEFINITION. Sys2Proof/Machine/Chain.lean: the node of the Chain: frames, forwarding, the LEDGER, lending, claims and versions (R235 to
R263).
-/
namespace Sys2Proof.Machine

/-! ## Frames (R241 to R245) -/

/-- A field of n bytes at an offset, least significant byte first (R244). -/
def le (b : List Nat) (off n : Nat) : Nat := bytesWord ((b.drop off).take n)

/-- The n bytes of a number, least significant first. -/
def leBytes : Nat → Nat → List Nat
  | 0, _ => []
  | n + 1, v => v % 256 :: leBytes n (v / 256)

/-- A frame with a field of n bytes replaced. -/
def setLe (b : List Nat) (off n v : Nat) : List Nat := b.take off ++ leBytes n v ++ b.drop (off + n)

/-- The bytes of a received frame. -/
def frameBytes (f : Frame) : List Nat := f.bytes.map BitVec.toNat

/-- A frame has 32 bytes. -/
def frameOk (b : List Nat) : Bool := b.length = 32

def frameType (b : List Nat) : Nat := le b 0 1 % 16
def frameOrigin (b : List Nat) : Nat := le b 1 1 % 128
def frameAlive (b : List Nat) : Nat := le b 2 1
def frameHops (b : List Nat) : Nat := le b 3 1
def frameEpoch (b : List Nat) : Nat := le b 4 1

def tyClaim : Nat := 1
def tyLedger : Nat := 2
def tyOffer : Nat := 3
def tyTake : Nat := 4
def tyBeacon : Nat := 5
def tyVersion : Nat := 6

/-- A frame with HOPS one greater (R243). -/
def hop (b : List Nat) : List Nat := setLe b 3 1 (frameHops b + 1)

/-- The complement of a 32-bit check. -/
def stomp (c : Nat) : Nat := c ^^^ 0xFFFFFFFF

/-- A 32-byte frame: the common header, then given fields over zeros (R244). -/
def makeFrame (hdr : List Nat) (fields : List (Nat × Nat × Nat)) : List Nat :=
  fields.foldl (fun b x => setLe b x.1 x.2.1 x.2.2) ((hdr ++ List.replicate 32 0).take 32)

def State.updChain (s : State) (f : ChainState → ChainState) : State := { s with chain := f s.chain }

/-- A frame put on CHAIN_TX with a check. -/
def State.transmit (s : State) (b : List Nat) (check : Nat) : State :=
  s.updChain fun c => { c with tx := c.tx ++ [{ bytes := b, check, aborted := false }] }

/-- The node's position. -/
def State.chainPos (s : State) : Nat := s.rd .chnPos

/-- An own frame originated: its ALIVE is one up, and it waits to be inserted (R240, R242). fields are those beyond the header. -/
def State.originate (s : State) (type : Nat) (fields : List (Nat × Nat × Nat)) : State :=
  let a := (s.chain.alive + 1) % 256
  let b := makeFrame [type + 16 * s.rd .chnVerRver, s.chainPos, a, 0, s.rd .chnPosEpoch] fields
  s.updChain fun c => { c with alive := a, originated := c.originated + 1, outq := c.outq ++ [{ bytes := b, inv := false, resend := false }] }

/-- A frame other than a CLAIM that this node originated (R243). -/
def State.ownFrame (s : State) (b : List Nat) : Bool :=
  decide (frameType b ≠ tyClaim) && decide (frameOrigin b = s.chainPos) &&
    decide ((s.chain.alive + 256 - frameAlive b) % 256 < min 64 s.chain.originated)

/-- A frame whose ALIVE is not 1 to 127 beyond the last one acted on from its origin (R242). -/
def State.repeated (s : State) (b : List Nat) : Bool :=
  match s.chain.seen.find? fun e => e.1 = frameOrigin b with
  | some e => let d := (frameAlive b + 256 - e.2) % 256; d = 0 || decide (127 < d)
  | none => false

/-- The ALIVE of a frame acted on, kept for its origin (R242). -/
def State.note (s : State) (b : List Nat) : State :=
  s.updChain fun c => { c with seen := Store.insert natLt (frameOrigin b) (frameAlive b) c.seen }

/-- The unit that Chain faults name: the hub die of the active Hall (R259, R283). -/
def State.chainUnit (s : State) : Nat := unitOf (36 + s.active) 0

/-- ORIGIN and ALIVE of a frame, as a captured address (R284). -/
def frameAddr (b : List Nat) : Nat := frameOrigin b + 256 * frameAlive b

/-! ## Holding (R246, R247) -/

/-- The holding set. -/
def State.setHolding (s : State) (n : Nat) : State := (s.wr .chnHoldHolding (min 0xFFFF n)).showHold

/-- A GRAIN trace event at the active Hall's hub die, filtered by its own partition field (R356, R357). -/
def State.grainTrace (s : State) (kind peer part amount : Nat) : State :=
  if testBit (s.rd .obsTrcenType) 4 && testBit (s.rd .obsTrcpart) part then
    s.traceRecord (36 + s.active) { type := 5, core := 0, eng := 0, a := kind + 8 * peer + 2 ^ 10 * part,
                                    b := amount % 2 ^ 16 + 2 ^ 16 * s.holding, time := s.now }
  else s

/-- CHN.HOME written: the first write sets the holding, a later one waits for the next LEDGER; FULL is barred until TOTAL has been written
before it (R246, R263, R374). -/
def State.homeWrite (s : State) (v : Nat) : State :=
  let s0 := { s with start := { s.start with grains := s.start.grains || s.start.totalSet } }
  let s1 := s0.wr .chnHome v
  match s.chain.home with
  | some _ => s1
  | none => (s1.updChain fun c => { c with home := some v }).setHolding v

/-- HOME_WRITE: from the I3C port or the control complex (R11). -/
def execHomeWrite (port : Port) (val : BitVec 16) (s : State) : Host.Outcome State Fault Refusal :=
  s.run fun s => if port.isHost then s else s.homeWrite val.toNat

/-- The home the ring counts. -/
def State.chainHome (s : State) : Nat := s.chain.home.getD 0

/-- What a LEDGER pass does to the holding: a rewritten home's difference, floor 0; home for a node that joins; home under RECOUNT, which
ends the outstanding OFFERs (R246, R250, R258). -/
def State.settleHold (s : State) (recount : Bool) : State :=
  let old := s.chainHome
  let new := if s.chain.home.isSome then s.rd .chnHome else 0
  let h := (s.holding + new) - old
  let h1 := if s.chain.joinHome || recount then new else h
  let s1 := s.updChain fun c =>
    { c with home := if c.home.isSome then some new else none, joinHome := false, offers := if recount then [] else c.offers }
  let s2 := s1.setHolding h1
  if recount && decide (h1 ≠ h) then s2.grainTrace 4 0 0 (if h1 < h then h - h1 else h1 - h) else s2

/-! ## Lending (R253, R255) -/

/-- Records no older than 300 µs of other nodes for a tag (R252). -/
def State.freshRecs (s : State) (tag : Nat) : List BeaconRec :=
  s.chain.recs.filter fun r => decide (r.tag = tag) && decide (s.now ≤ r.time + 300000) && decide (r.pos ≠ s.chainPos)

/-- The record of the lowest slack, ties to the lower position. -/
def lowestSlack (l : List BeaconRec) : Option BeaconRec :=
  l.foldl (fun m r => match m with
    | none => some r
    | some x => if r.slack < x.slack || (r.slack = x.slack && decide (r.pos < x.pos)) then some r else some x) none

/-- An OFFER sent: the holding falls at once (R246, R253). -/
def State.sendOffer (s : State) (taker part tag amount : Nat) : State :=
  let s1 := (s.setHolding (s.holding - amount)).originate tyOffer
    [(5, 1, taker), (6, 1, part), (8, 2, tag), (12, 4, amount), (16, 4, amount)]
  let o : OfferOut := { part, taker, amount, epoch := s.rd .chnPosEpoch, alive := s1.chain.alive, sentAt := s.now }
  (s1.updChain fun c => { c with offers := c.offers ++ [o] }).grainTrace 0 taker part amount

/-- Grains per OFFER, and the least interval between OFFERs in nanoseconds (R263). -/
def State.lendQ (s : State) : Nat := max 1 (s.rd .chnLendLendq)
def State.lendIvl (s : State) : Nat := 100000 * max 1 (s.rd .chnLendLendivl)

/-- The lending decision for one partition at a LEDGER pass (R253). -/
def State.lendPart (s : State) (p : Nat) : State :=
  let c := s.chain
  let tag := s.tagOf p
  let slack := s.rd .alcPartSlack 0 p
  let q := s.lendQ
  let waited := match c.lastOffer.find? fun e => e.1 = p with | some e => decide (e.2 + s.lendIvl ≤ s.now) | none => true
  if s.flag .chnPosFrozen || c.offers.any (fun o => o.part = p) || !waited || slack ≤ s.rd .chnPthrLend 0 p ||
      s.holding < s.rd .chnHlimMinhold + q then s
  else
    match lowestSlack ((s.freshRecs tag).filter fun r => r.takeOk && decide (r.slack + 256 * s.rd .chnLendGap ≤ slack)) with
    | some r =>
      (s.sendOffer r.pos p tag q).updChain fun c => { c with lastOffer := Store.insert natLt p s.now c.lastOffer }
    | none => s

/-- A node above its home answers a fresh RECALL, once in LENDIVL, at ring version 2 (R255). -/
def State.answerRecall (s : State) : State :=
  let waited := match s.chain.lastRecall with | some t => decide (t + s.lendIvl ≤ s.now) | none => true
  if s.flag .chnPosFrozen || s.rd .chnVerRver < 2 || s.holding ≤ s.chainHome || !waited then s
  else
    match lowestSlack (s.chain.recs.filter fun r => r.asksBack && decide (s.now ≤ r.time + 300000) && decide (r.pos ≠ s.chainPos)) with
    | some r =>
      let own := (s.partsInForce.find? fun p => s.tagOf p = r.tag).getD 0
      (s.sendOffer r.pos own r.tag (min s.lendQ (s.holding - s.chainHome))).updChain fun c => { c with lastRecall := some s.now }
    | none => s

/-- A node that shuts down offers what it holds above its home to the taker of lowest slack, of any tag (R385). -/
def State.drain (s : State) : State :=
  if s.flag .chnPosFrozen || s.holding ≤ s.chainHome then s
  else
    match lowestSlack (s.chain.recs.filter fun r => r.takeOk && decide (s.now ≤ r.time + 300000) && decide (r.pos ≠ s.chainPos)) with
    | some r => s.sendOffer r.pos r.part r.tag (s.holding - s.chainHome)
    | none => s

/-- What an ACTIVE node decides when a LEDGER passes (R253, R255, R385). -/
def State.lend (s : State) : State :=
  if s.chainRole ≠ 2 then s
  else if s.start.draining then s.drain
  else
    let s1 := if s.flag .chnCfgLenden then s.each s.partsInForce State.lendPart else s
    s1.answerRecall

/-! ## Forwarding (R239, R241 to R243) -/

/-- Whether the node named takes an OFFER (R254, R262). -/
def State.takes (s : State) (b : List Nat) : Bool :=
  decide (s.chainRole = 2) && decide (s.svc = svcFull) && !s.flag .chnPosFrozen && decide (le b 5 1 % 128 = s.chainPos) &&
    decide (frameEpoch b = s.rd .chnPosEpoch) && decide (s.holding + le b 12 4 ≤ s.rd .chnHlimMaxhold)

/-- A LEDGER with this node's part added (R248). -/
def State.addLedger (s : State) (b : List Nat) : List Nat :=
  let s1 := s.settleHold (testBit (le b 5 1) 1)
  let b1 := setLe b 12 1 (le b 12 1 + 1)
  let b2 := setLe b1 16 4 (le b 16 4 + s1.holding)
  setLe b2 20 4 (le b 20 4 + s1.chainHome)

/-- A frame as this node forwards it: HOPS one up, and its own part written where it has one (R239, R248, R254). -/
def State.forwarded (s : State) (b : List Nat) : List Nat :=
  let act := !s.repeated b
  let b1 := if frameType b = tyLedger && act && decide (s.chainRole = 2) then s.addLedger b
    else if frameType b = tyOffer && act && s.takes b then setLe (setLe b 0 1 (tyTake + 16 * (le b 0 1 / 16))) 16 4 0
    else b
  hop b1

/-- A frame sent on with a fresh check. -/
def State.forward (s : State) (b : List Nat) : State := let o := s.forwarded b; s.transmit o (crc32c o)

/-- A frame that reaches a node in the ring, is not its own and has not run its hops: sent on, and acted on unless it is a repeat (R242,
R243). -/
def State.receive (s : State) (f : Frame) (types : List Nat) (act : State → List Nat → State) : State :=
  let b := frameBytes f
  if !frameOk b || !types.contains (frameType b) || s.chainRole = 0 || s.ownFrame b || 127 ≤ frameHops b then s
  else
    let s1 := s.forward b
    if s.repeated b then s1.count .chnRepeat else act (s1.note b) b

/-- FRAME_INSERT: the next own frame starts; an armed injection inverts the check of the next frame that is not sent again (R240, R241,
R259, R287). -/
def execFrameInsert (s : State) : Host.Outcome State Fault Refusal :=
  s.run fun s =>
    match s.chain.outq with
    | [] => s
    | f :: rest =>
      if s.chainRole = 0 then s
      else
        let arm := s.inject.chain && !f.resend
        let f1 := { f with inv := f.inv || arm }
        let c := crc32c f1.bytes
        let s1 := s.transmit f1.bytes (if f1.inv then c ^^^ 1 else c)
        let s2 := if arm then { s1 with inject := { s1.inject with chain := false } } else s1
        s2.updChain fun c => { c with outq := rest, sending := some f1 }

/-- The last frame sent marked as ended by /A/. -/
def cutLast : List ChainTx → List ChainTx
  | [] => []
  | [x] => [{ x with aborted := true }]
  | x :: l => x :: cutLast l

/-- FRAME_ABORT: the own frame is cut and waits to be sent again unchanged (R240). -/
def execFrameAbort (s : State) : Host.Outcome State Fault Refusal :=
  s.run fun s =>
    match s.chain.sending with
    | none => s
    | some f =>
      (s.count .chnAbort).updChain fun c =>
        { c with sending := none, outq := { f with resend := true } :: c.outq, tx := cutLast c.tx }

/-- Whether a node strips a frame at its receive balls, before the check has come: a CLAIM by its NODEID, any other that is its own, and one that has
run its hops (R239, R243, R256). -/
def State.strips (s : State) (b : List Nat) : Bool :=
  let id := le b 8 8
  let own := s.rd .chnNodeidId
  decide (127 ≤ frameHops b) || s.ownFrame b || (decide (frameType b = tyClaim) && (decide (id = own) || (s.chain.claiming && decide (own < id))))

/-- Whether a frame that is stripped is not the node's own (R243). -/
def State.ranHops (s : State) (b : List Nat) : Bool :=
  decide (127 ≤ frameHops b) && !s.ownFrame b && !(decide (frameType b = tyClaim) && decide (le b 8 8 = s.rd .chnNodeidId))

/-- CRC_ERROR_FRAME: a wrong check is counted with a CORRECTED fault, a complement only counted; either way the frame leaves stomped,
unless it is one that the node strips (R241, R243). -/
def execCrcErrorFrame (f : Frame) (check : Word) (s : State) : Host.Outcome State Fault Refusal :=
  s.run fun s =>
    let b := frameBytes f
    let c := crc32c b
    if !frameOk b || s.chainRole = 0 || check.toNat = c then s
    else
      let o := s.forwarded b
      let s1 := if !s.strips b then s.transmit o (stomp (crc32c o)) else if s.ranHops b then s.count .chnStrip else s
      if check.toNat = stomp c then (if s.strips b then s1 else s1.count .chnStomp)
      else (s1.count .chnCrcerr).raise (corr 5 1 s.chainUnit 5 (frameAddr b))

/-- The reserved types (R245). -/
def reservedTypes : List Nat := [0, 7, 8, 9, 10, 11, 12, 13, 14, 15]

/-- RESERVED_FRAME: forwarded unchanged but for HOPS, and counted, as a repeat if it is one (R242, R245). -/
def execReservedFrame (f : Frame) (s : State) : Host.Outcome State Fault Refusal :=
  s.run fun s => s.receive f reservedTypes fun s _ => s.count .chnUnknown

/-- FRAME_STRIP: an own frame that has returned, or one that has run its hops (R243). -/
def execFrameStrip (f : Frame) (s : State) : Host.Outcome State Fault Refusal :=
  s.run fun s =>
    let b := frameBytes f
    if frameOk b && decide (s.chainRole ≠ 0) && !s.ownFrame b && decide (127 ≤ frameHops b) then s.count .chnStrip else s

/-! ## The LEDGER (R248 to R251) -/

/-- The flags of a LEDGER as every node shows them, and its round and PREVHOME (R250, R263). -/
def State.ledgerSeen (s : State) (flags round prevHome : Nat) : State :=
  let s1 := s.puts
    [(⟨.chnPosFrozen, 0, 0⟩, bit (testBit flags 0)), (⟨.chnStatusOversub, 0, 0⟩, bit (testBit flags 2)), (⟨.chnRound, 0, 0⟩, round),
     (⟨.chnPrevHome, 0, 0⟩, prevHome)]
  (s1.updChain fun c => { c with lastLedger := some s.now }).showHold

/-- The position and m taken; the repeat table is cleared when either changes (R242, R248). -/
def State.takePos (s : State) (pos m : Nat) : State :=
  let same := decide (s.rd .chnPos = pos) && decide (s.rd .chnPosM = m)
  let s1 := s.puts [(⟨.chnPos, 0, 0⟩, pos), (⟨.chnPosM, 0, 0⟩, m)]
  if same then s1 else s1.updChain fun c => { c with seen := [] }

/-- The ring version adopted: below VMIN the node is incompatible, with a CONTAINED fault (R261). -/
def State.adoptVersion (s : State) (v : Nat) : State :=
  let bad := decide (v < s.rd .chnVerVmin)
  let s1 := s.wr .chnVerRver v
  if bad && !s.flag .chnStatusVererr then (s1.wr .chnStatusVererr 1).raise (cont 5 5 s.chainUnit .package 5)
  else s1.wr .chnStatusVererr (bit bad)

/-- The CONTAINED fault of a LEDGER that carries RECOUNT or OVERSUB (R250). -/
def State.ledgerFault (s : State) (b : List Nat) : State :=
  let fl := le b 5 1
  let s1 := if testBit fl 1 then s.raise (cont 5 2 s.chainUnit .package 5 (frameAddr b)) else s
  if testBit fl 2 then s1.raise (cont 5 3 s.chainUnit .package 5 (frameAddr b)) else s1

/-- A LEDGER acted on (R248, R250, R256, R261). -/
def State.ledgerActs (s : State) (b : List Nat) : State :=
  let fl := le b 5 1
  let s1 := (s.adoptVersion (le b 6 1 % 16)).ledgerSeen fl (le b 8 4) (le b 28 4)
  let s2 := s1.updChain fun c => { c with claiming := false, maxEpoch := frameEpoch b }
  if s.chainRole = 2 then
    let s3 := ((s2.wr .chnPosEpoch (frameEpoch b)).takePos (le b 12 1 % 128) (le b 13 1)).note b
    let s4 := (s3.settleHold (testBit fl 1)).wr .chnStatusTotaldiff (bit (decide (s3.rd .chnTotal ≠ le b 24 4)))
    (s4.ledgerFault b).lend
  else s2.ledgerFault b

/-- LEDGER_PASS: a node that listens only hears it (R248, R258). -/
def execLedgerPass (f : Frame) (s : State) : Host.Outcome State Fault Refusal :=
  s.run fun s =>
    if s.chain.listening then
      if frameOk (frameBytes f) && decide (frameType (frameBytes f) = tyLedger) then
        s.updChain fun c => { c with heard := true, lastLedger := some s.now }
      else s
    else s.receive f [tyLedger] State.ledgerActs

/-- The LEDGER interval in nanoseconds (R248, R263). -/
def State.roundNs (s : State) : Nat := 1000 * clampNat 10 1000 (s.rd .chnCfgRndivl)

/-- How long a LEDGER or an OFFER may be out: 2 × RNDIVL + 8 µs (R251, R253). -/
def State.outNs (s : State) : Nat := 2 * s.roundNs + 8000

/-- The lowest VMAX reported by ACTIVE nodes in the last 4 ms, this node's among them (R261). -/
def State.ringVersion (s : State) : Nat :=
  (s.chain.versions.filter fun v => decide (s.now ≤ v.time + 4000000)).foldl (fun m v => min m v.vmax) (s.rd .chnVerVmax)

/-- The originator sends the next LEDGER and contributes as position 0 (R248, R250). -/
def State.newLedger (s : State) : State :=
  let c := s.chain
  let fl := c.nextFlags
  let recount := testBit fl 1
  let epoch := if recount then (c.maxEpoch + 1) % 256 else s.rd .chnPosEpoch
  let round := (c.round + 1) % 2 ^ 32
  let s1 := ((s.wr .chnPosEpoch epoch).adoptVersion s.ringVersion).takePos 0 c.prevM
  let s2 := (s1.settleHold recount).ledgerSeen fl round c.prevHome
  let s3 := s2.originate tyLedger
    [(5, 1, fl), (6, 1, s2.rd .chnVerRver), (8, 4, round), (12, 1, 1), (13, 1, c.prevM), (16, 4, s2.holding), (20, 4, s2.chainHome),
     (24, 4, s2.rd .chnTotal), (28, 4, c.prevHome)]
  s3.updChain fun c =>
    { c with ledgerOut := some c.alive, ledgerAt := some s.now, seam := 0, round, lastFlags := fl, maxEpoch := epoch,
             nextFlags := if recount then fl - 2 else fl }

/-- LEDGER_SEND: once the previous has returned, no sooner than RNDIVL after it was sent (R248). -/
def execLedgerSend (s : State) : Host.Outcome State Fault Refusal :=
  s.run fun s =>
    if s.flag .chnPosOrig && s.chain.ledgerOut.isNone && decide (s.chainRole = 2) then
      match s.chain.ledgerAt with
      | some t => (s.advanceTo (t + s.roundNs)).newLedger.lend
      | none => s.newLedger.lend
    else s

/-- The check of a returned LEDGER: the flags of the next (R250). -/
def State.checkLedger (s : State) (b : List Nat) : State :=
  let hold := le b 16 4
  let home := le b 20 4
  let total := le b 24 4
  let last := s.chain.lastFlags
  let s1 := if hold + s.chain.seam ≠ home then (s.count .chnMismatch).updChain fun c => { c with nextFlags := 3 }
    else if total < home then s.updChain fun c => { c with nextFlags := 5 }
    else if testBit last 1 || testBit last 2 then s.updChain fun c => { c with nextFlags := 0 }
    else s
  s1.wr .chnStatusUndersub (bit (decide (home < total)))

/-- LEDGER_RETURN (R249, R250). -/
def execLedgerReturn (f : Frame) (s : State) : Host.Outcome State Fault Refusal :=
  s.run fun s =>
    let b := frameBytes f
    if frameOk b && decide (frameType b = tyLedger) && decide (s.chainRole ≠ 0) && s.ownFrame b &&
        decide (s.chain.ledgerOut = some (frameAlive b)) then
      let s1 := (s.checkLedger b).updChain fun c =>
        { c with ledgerOut := none, seam := 0, prevM := le b 12 1, prevHome := le b 20 4, lastLedger := some s.now }
      s1.takePos 0 (le b 12 1)
    else s

/-- LEDGER_LOST: counted, its seam sum dropped, and the next round sent, with no OFFER after 32 µs in which no node has forwarded one (R251). -/
def execLedgerLost (s : State) : Host.Outcome State Fault Refusal :=
  s.run fun s =>
    match s.chain.ledgerOut, s.chain.ledgerAt with
    | some _, some t =>
      let s1 := ((s.advanceTo (t + s.outNs)).count .chnLdglost).updChain fun c =>
        { c with ledgerOut := none, seam := 0, nextFlags := c.lastFlags }
      if s1.chainRole = 2 then (if s.outNs ≤ 32000 then s1.newLedger.lend else s1.newLedger) else s1
    | _, _ => s

/-! ## OFFER and TAKE (R249, R253, R254) -/

/-- The originator's seam sum takes the CARRY of an OFFER of the LEDGER's epoch that it receives while the LEDGER is out (R249). -/
def State.addSeam (s : State) (b : List Nat) : State :=
  if s.chain.ledgerOut.isSome && decide (frameEpoch b = s.rd .chnPosEpoch) then
    s.updChain fun c => { c with seam := c.seam + le b 16 4 }
  else s

/-- An OFFER acted on: taken where the node is named and may take it (R246, R254). -/
def State.offerActs (s : State) (take : Bool) (b : List Nat) : State :=
  let s1 := s.addSeam b
  if take then
    let n := le b 12 4
    ((s1.setHolding (s1.holding + n)).count .chnGrin n).grainTrace 1 (frameOrigin b) (le b 6 1 % 16) n
  else s1

/-- OFFER_RECEIVED: an OFFER or TAKE of another node (R249, R254, R262). -/
def execOfferReceived (f : Frame) (s : State) : Host.Outcome State Fault Refusal :=
  s.run fun s => s.receive f [tyOffer, tyTake] fun s1 b => s1.offerActs (frameType b = tyOffer && s.takes b) b

/-- OFFER_RETURN: the lender strips its frame; a TAKE records the loan, an OFFER of the current epoch gives its grains back (R246, R254). -/
def execOfferReturn (f : Frame) (s : State) : Host.Outcome State Fault Refusal :=
  s.run fun s =>
    let b := frameBytes f
    if frameOk b && (frameType b = tyOffer || frameType b = tyTake) && decide (s.chainRole ≠ 0) && s.ownFrame b then
      match s.chain.offers.find? fun o => o.alive = frameAlive b with
      | none => s
      | some o =>
        let s1 := s.updChain fun c => { c with offers := c.offers.filter fun x => x.alive ≠ o.alive }
        if frameType b = tyTake then (s1.count .chnGrout o.amount).grainTrace 2 o.taker o.part o.amount
        else if frameEpoch b = s.rd .chnPosEpoch then
          (s1.setHolding (s1.holding + o.amount)).grainTrace 3 o.taker o.part o.amount
        else s1
    else s

/-- OFFER_TIMEOUT: the k-th OFFER outstanding is given up, its grains not added again (R253; assumption log 49). -/
def execOfferTimeout (k : Nat) (s : State) : Host.Outcome State Fault Refusal :=
  s.run fun s =>
    match s.chain.offers[k]? with
    | none => s
    | some o =>
      ((s.advanceTo (o.sentAt + s.outNs)).updChain fun c => { c with offers := c.offers.eraseIdx k }).count .chnGrout o.amount

/-! ## BEACONs and VERSIONs (R252, R255, R261) -/

/-- The partitions of the next BEACON: up to three in force, one at ring version 1, in rotation (R252, R261). -/
def State.beaconParts (s : State) : List Nat :=
  let l := s.partsInForce
  let r := (l.filter fun p => s.chain.rotate ≤ p) ++ l.filter fun p => p < s.chain.rotate
  r.take (if s.rd .chnVerRver < 2 then 1 else 3)

/-- TAKEOK of this node (R252, R385). -/
def State.takeOk (s : State) : Bool :=
  !s.start.draining && decide (s.svc = svcFull) && !s.flag .chnPosFrozen && decide (s.holding < s.rd .chnHlimMaxhold)

/-- RECALL of a partition's record, whatever its slack while the node shuts down (R255, R385). -/
def State.recalls (s : State) (p : Nat) : Bool :=
  decide (2 ≤ s.rd .chnVerRver) && decide (s.svc = svcFull) && decide (s.holding < s.chainHome) &&
    (s.start.draining || decide (s.rd .alcPartSlack 0 p < s.rd .chnPthrRecall 0 p))

/-- The fields of record k of a BEACON (R245). -/
def State.beaconRec (s : State) (k p : Nat) : List (Nat × Nat × Nat) :=
  let o := 8 + 8 * k
  [(o, 2, s.tagOf p), (o + 2, 2, s.rd .alcPartSlack 0 p), (o + 4, 1, p), (o + 5, 1, bit (s.recalls p))]

/-- A periodic sending moved to its time: ivl after the last. -/
def State.dueAfter (s : State) (last : Option Nat) (ivl : Nat) : State :=
  match last with | some t => s.advanceTo (t + ivl) | none => s

/-- CHAIN_BEACON_SEND: every BCNIVL, from an ACTIVE node with a partition in force (R252). -/
def execChainBeaconSend (s : State) : Host.Outcome State Fault Refusal :=
  s.run fun s =>
    let ps := s.beaconParts
    if s.chainRole ≠ 2 || ps.isEmpty then s
    else
      let s1 := s.dueAfter s.chain.beaconAt (10000 * max 1 (s.rd .chnCfgBcnivl))
      let flags := bit s1.takeOk + 2 * bit (decide (s1.svc = svcHeld))
      let s2 := s1.originate tyBeacon
        ((5, 1, ps.length) :: (6, 1, flags) :: (ps.zipIdx.flatMap fun x => s1.beaconRec x.2 x.1))
      s2.updChain fun c => { c with beaconAt := some s1.now, rotate := ((ps.getLast?).getD 0 + 1) % 16 }

/-- The records of a BEACON kept, each in place of the last of its position and partition (R252). -/
def State.keepBeacon (s : State) (b : List Nat) : State :=
  let n := min 3 (le b 5 1)
  s.each (upto n) fun s k =>
    let o := 8 + 8 * k
    let r : BeaconRec := { pos := frameOrigin b, part := le b (o + 4) 1, tag := le b o 2, slack := le b (o + 2) 2,
                           takeOk := testBit (le b 6 1) 0, asksBack := testBit (le b (o + 5) 1) 0, time := s.now }
    s.updChain fun c => { c with recs := c.recs.filter (fun x => !(x.pos = r.pos && x.part = r.part)) ++ [r] }

/-- CHAIN_BEACON_RECEIVED (R252). -/
def execChainBeaconReceived (f : Frame) (s : State) : Host.Outcome State Fault Refusal :=
  s.run fun s => s.receive f [tyBeacon] State.keepBeacon

/-- VERSION_SEND: every 1 ms from an ACTIVE node (R261). -/
def execVersionSend (s : State) : Host.Outcome State Fault Refusal :=
  s.run fun s =>
    if s.chainRole ≠ 2 then s
    else
      let s1 := s.dueAfter s.chain.versionAt 1000000
      (s1.originate tyVersion [(5, 1, s1.rd .chnVerVmin), (6, 1, s1.rd .chnVerVmax), (8, 8, s1.rd .chnNodeidId)]).updChain fun c =>
        { c with versionAt := some s1.now }

/-- VERSION_RECEIVED: recorded by the originator (R261). -/
def execVersionReceived (f : Frame) (s : State) : Host.Outcome State Fault Refusal :=
  s.run fun s => s.receive f [tyVersion] fun s b =>
    if s.flag .chnPosOrig then
      let r : VersionRec := { node := le b 8 8, vmin := le b 5 1 % 16, vmax := le b 6 1 % 16, time := s.now }
      s.updChain fun c => { c with versions := c.versions.filter (fun x => x.node ≠ r.node) ++ [r] }
    else s

/-! ## Claims (R256) -/

/-- A CLAIM sent. -/
def State.claim (s : State) : State :=
  (s.originate tyClaim [(8, 8, s.rd .chnNodeidId)]).updChain fun c => { c with claiming := true, claimAt := s.now }

/-- CLAIM_SEND: 64 µs without a LEDGER, or 64 µs after a CLAIM that has not returned (R256). -/
def execClaimSend (s : State) : Host.Outcome State Fault Refusal :=
  s.run fun s =>
    let c := s.chain
    if s.chainRole ≠ 2 || s.flag .chnPosOrig || c.backoff.isSome then s
    else if c.claiming then (s.advanceTo (c.claimAt + 64000)).claim
    else match c.lastLedger with
      | some t => (s.advanceTo (t + 64000)).claim
      | none => s.claim

/-- The node whose CLAIM has returned becomes the originator; its first LEDGER carries FREEZE and RECOUNT (R256). -/
def State.becomeOrig (s : State) : State :=
  ((s.wr .chnPosOrig 1).takePos 0 (s.rd .chnPosM)).updChain fun c =>
    { c with claiming := false, backoff := none, ledgerOut := none, ledgerAt := none, seam := 0, nextFlags := 3, lastFlags := 0, versions := [] }

/-- CLAIM_RECEIVED (R256). -/
def execClaimReceived (f : Frame) (s : State) : Host.Outcome State Fault Refusal :=
  s.run fun s =>
    let b := frameBytes f
    let id := le b 8 8
    let own := s.rd .chnNodeidId
    if !frameOk b || frameType b ≠ tyClaim || s.chainRole = 0 then s
    else if id = own then (if s.chain.claiming then s.becomeOrig else s)
    else if 127 ≤ frameHops b then s.count .chnStrip
    else if !s.chain.claiming then s.forward b
    else if id < own then (s.forward b).updChain fun c => { c with claiming := false, backoff := some s.now }
    else s

/-- CLAIM_BACKOFF_END: 16 to 64 µs after it began; the node claims again if it has still seen no LEDGER (R256). -/
def execClaimBackoffEnd (s : State) : Host.Outcome State Fault Refusal :=
  s.run fun s =>
    match s.chain.backoff with
    | none => s
    | some t =>
      let s1 := (s.advanceTo (t + 16000)).updChain fun c => { c with backoff := none }
      let seen := match s.chain.lastLedger with | some l => decide (t ≤ l) | none => false
      if seen || s1.chainRole ≠ 2 then s1 else s1.claim

/-! ## The link (R236, R238, R257, R258, R260) -/

/-- CHAIN_ALIGNED: 64 valid commas; the node listens (R238, R258). -/
def execChainAligned (s : State) : Host.Outcome State Fault Refusal :=
  s.run fun s =>
    if s.flag .chnPosLink then s
    else (s.wr .chnPosLink 1).updChain fun c => { c with listening := true, listenAt := s.now, heard := false }

/-- CHAIN_ALIGN_LOSS: the node goes OUT (R238, R257). -/
def execChainAlignLoss (s : State) : Host.Outcome State Fault Refusal :=
  s.run fun s =>
    if s.flag .chnPosLink then
      ((s.wr .chnPosLink 0).chainOut).updChain fun c => { c with listening := false, heard := false, joined := false, lostAt := s.now }
    else s

/-- CHAIN_LISTEN_END: a LEDGER has passed, or 64 µs without one; CHAIN_BYP_HOLD is asserted (R236, R258). -/
def execChainListenEnd (s : State) : Host.Outcome State Fault Refusal :=
  s.run fun s =>
    if s.chain.listening then
      let s1 := if s.chain.heard then s else s.advanceTo (s.chain.listenAt + 64000)
      let s2 := s1.updChain fun c => { c with listening := false, joined := true, joinHome := c.heard }
      { s2 with pins := { s2.pins with bypHold := s2.bypWanted } }
    else s

/-- CHAIN_NOLINK: 1 ms unaligned (R260). -/
def execChainNolink (s : State) : Host.Outcome State Fault Refusal :=
  s.run fun s =>
    if s.flag .chnPosLink then s
    else ((s.advanceTo (s.chain.lostAt + 1000000)).wr .chnStatusNolink 1).raise (cont 5 4 s.chainUnit .package 5)

end Sys2Proof.Machine
end

