-- ==== Sys2Proof/Machine/Ageing.lean ====
section
/-!
DEFINITION. Sys2Proof/Machine/Ageing.lean: ageing measurements, re-planning, margins and the persistent operating time (R264 to R275).
-/
namespace Sys2Proof.Machine

/-! ## What is kept -/

def State.ageDie (s : State) (d : Nat) : AgeDie := Store.get AgeDie.init s.age.dies d

def State.updAge (s : State) (d : Nat) (f : AgeDie → AgeDie) : State :=
  { s with age := { s.age with dies := Store.insert natLt d (f (s.ageDie d)) s.age.dies } }

/-- Operating time in seconds (R266). -/
def State.opSec (s : State) : Nat := s.age.opNs / 1000000000

/-- An operating hour in seconds. -/
def opHour : Nat := 3600

/-- The register index of monitor m of a die (R264). -/
def monitorNo (d m : Nat) : Nat := if d < 32 then d * 8 + m else 256 + (d - 32) * 4 + m

def State.monOut (s : State) (d m : Nat) : Bool := s.flag .ageMonRetired 0 (monitorNo d m)
def State.monSuspect (s : State) (d m : Nat) : Bool := s.flag .ageMonSuspect 0 (monitorNo d m)

/-- A monitor's last reading in 0.001 %, if it has read at all since the always-on supply came up (assumption log 52). -/
def State.reading (s : State) (d m : Nat) : Option Rat := (s.age.delta.find? fun e => e.1 = monitorNo d m).map fun e => e.2

/-! ## Margin, forecast and overdue work (R266, R269, R271, R272) -/

/-- The ceiling less the V-F entry of TOPDIV, or less the rail target; 0 where it would be less (R271; assumption log 52). -/
def State.margin (s : State) (d : Nat) : Nat :=
  s.ceiling (ownRail d) - (if d < 32 then s.vf d (s.rd .ageDieTopdiv 0 d) else s.rd .rgcVidV (ownRail d))

/-- MARGIN reported; below 10 mV MARGIN_LOW is set, with an Attic event and a notice the first time (R271). -/
def State.showMargin (s : State) (d : Nat) : State :=
  let m := s.margin d
  let s1 := s.wr .ageDieMargin m 0 d
  if m < 20 && !s.flag .ageDieMarginlow 0 d then
    let s2 := (s1.wr .ageDieMarginlow 1 0 d).wr .ageStatusMarginlow 1
    (s2.event (11 * 256 + 6) 0 (unitOf d 0) (s2.partOf d)).noticeAll 6 (d + 2 ^ 6 * m)
  else s1

/-- The greatest k below 2^n with k^a ≤ b, found bit by bit from bit n - 1 down. -/
def rootFrom (a b : Nat) : Nat → Nat → Nat
  | 0, k => k
  | n + 1, k => rootFrom a b n (if (k + 2 ^ n) ^ a ≤ b then k + 2 ^ n else k)

/-- The forecast in operating hours: floor(t × (avail / dv)^(64 / NEXP)) - t, saturating (R272). -/
def State.forecastHours (s : State) (d : Nat) : Nat :=
  let dv := (s.ageDie d).dv
  if dv ≤ 0 then 0xFFFFFFFF
  else
    let t := s.opSec / opHour
    let n := max 1 (s.rd .ageCfgNexp)
    let q : Rat := ((s.rd .ageDieRaise 0 d + s.rd .ageDieMargin 0 d : Nat) : Rat) / dv
    min 0xFFFFFFFF (rootFrom n (t ^ n * q.num.toNat ^ 64 / q.den ^ 64) 34 0 - t)

/-- Whether a measurement of a die, or a re-plan due on it, is overdue by 168 operating hours (R266, R269). -/
def State.overdue (s : State) (d : Nat) : Bool :=
  let x := s.ageDie d
  decide (x.measAt.getD 0 + 168 * opHour ≤ s.opSec) ||
    (match x.dueSince with | some t => decide (t + 168 * opHour ≤ s.opSec) | none => false)

/-- PEND of a die and of the package as they now stand. -/
def State.showPendAge (s : State) (d : Nat) : State :=
  let s1 := s.wr .ageDiePend (bit (s.overdue d)) 0 d
  s1.wr .ageStatusPend (bit ((upto 40).any fun k => s1.flag .ageDiePend 0 k))

/-! ## Measuring (R265, R267) -/

/-- Whether a die may be measured now: in CALIBRATING if it is pending, else at a job boundary, a compute die in no partition; its rail in REG
and an operating hour past (R266, R267). -/
def State.mayMeasure (s : State) (d : Nat) : Bool :=
  let x := s.ageDie d
  !x.measuring && !x.planning && decide (s.railSt (ownRail d) = railReg) &&
    (match x.measAt with | some t => decide (t + opHour ≤ s.opSec) | none => true) &&
    (if s.svc = svcCalibrating then s.flag .ageDiePend 0 d else decide (s.svc = svcFull || s.svc = svcHeld)) &&
    (decide (32 ≤ d) || (s.partOf d).isNone)

/-- AGE_MEASURE_START: a compute die is excluded, its branches held at ÷32 and its VCMP target at 0.75 V; any other die is measured as it runs
(R266, R267). -/
def execAgeMeasureStart (die : Die) (s : State) : Host.Outcome State Fault Refusal :=
  s.run fun s =>
    let d := die.val
    if s.mayMeasure d then
      let s1 := s.updAge d fun x => { x with measuring := true, startAt := s.now }
      if d < 32 then
        let s2 := s1.setExcl d 2 true
        (s2.each (branchesOf d) fun s k => s.setBranch k 0x200).followVf d
      else s1
    else s

/-- A die released from its measurement (R267). -/
def State.releaseAge (s : State) (d : Nat) : State :=
  let s1 := s.updAge d fun x => { x with measuring := false, planning := false }
  if d < 32 then s1.setExcl d 2 false else s1

/-- The reading of a monitor, in 0.001 %: r0 over r, less 1; none where an oscillator failed to count (R265, R273). -/
def gateReading (d m : Nat) (g : GateCount) : Option Rat :=
  if g.stressed = 0 || g.shielded = 0 then none
  else some ((Config.monitorR0 (monitorNo d m) * g.shielded / g.stressed - 1) * 100000)

/-- A reading makes its monitor suspect: it failed to count, lies below -0.2 %, or exceeds the one before by more than 0.5 % (R273). -/
def State.suspicious (s : State) (d m : Nat) (new : Option Rat) : Bool :=
  match new with
  | none => true
  | some z => decide (z < -200) || (match s.reading d m with | some old => decide (old + 500 < z) | none => false)

/-- One monitor's gate: DELTA shows its reading, and a suspect monitor raises a CORRECTED fault (R265, R273). -/
def State.readMonitor (s : State) (d m : Nat) (g : GateCount) : State :=
  if s.monOut d m || s.monSuspect d m then s
  else
    let i := monitorNo d m
    let new := gateReading d m g
    let bad := s.suspicious d m new
    let s1 := match new with
      | some z =>
        { s.wr .ageMonDelta (ofSigned 16 (max (-32768) (min 32767 (roundFree 30 z)))) 0 i with
          age := { s.age with delta := Store.insert natLt i z s.age.delta } }
      | none => s
    if bad then (s1.wr .ageMonSuspect 1 0 i).raise (corr 11 1 (unitOf d m) 6) else s1

/-- The readings that make the slowdown of a die: those of monitors neither retired nor suspect (R265, R273). -/
def State.goodReadings (s : State) (d : Nat) : List Rat :=
  (upto (dieMonitors d)).filterMap fun m => if s.monOut d m || s.monSuspect d m then none else s.reading d m

/-- The monitors of a die not retired. -/
def State.monitorsLeft (s : State) (d : Nat) : Nat := ((upto (dieMonitors d)).filter fun m => !s.monOut d m).length

/-- The die is re-planned blind (R273). -/
def State.blindDie (s : State) (d : Nat) : Bool := decide (s.monitorsLeft d < if d < 32 then 2 else 1)

/-- Steps that a re-plan has yet to apply: by the required rise, or one for each BLIND operating hours since the last measured plan (R268,
R273). -/
def State.stepsDue (s : State) (d : Nat) : Nat :=
  let x := s.ageDie d
  if s.blindDie d then
    (s.opSec - x.sensedAt.getD 0) / opHour / max 1 (s.rd .ageCfgBlind) - x.blind
  else (x.dv / 5).ceil.toNat - s.rd .ageDieRaise 0 d / 5

/-- The required rise formed again from the good readings, in voltage units: SENS in 0.25 mV for each per cent (R265). -/
def State.formRise (s : State) (d : Nat) : State :=
  match maxRat (s.goodReadings d) with
  | none => s
  | some z => s.updAge d fun x => { x with dv := (s.rd .ageDieSens 0 d : Rat) * z / 2000 }

/-- A re-plan falls due when steps remain, and is due no more when none do (R268, R269). -/
def State.noteDue (s : State) (d : Nat) : State :=
  if s.stepsDue d = 0 then s.updAge d fun x => { x with dueSince := none }
  else if (s.ageDie d).dueSince.isSome then s else s.updAge d fun x => { x with dueSince := some s.opSec }

/-- Whether 24 operating hours have passed since a die's last re-plan (R269). -/
def State.planAllowed (s : State) (d : Nat) : Bool :=
  match (s.ageDie d).planAt with
  | some t => decide (t + 24 * opHour ≤ s.opSec)
  | none => true

/-- Margin, forecast and overdue marks after a measurement (R271, R272). -/
def State.report271 (s : State) (d : Nat) : State :=
  let s1 := ((s.formRise d).noteDue d).showMargin d
  (s1.wr .ageDieFcast (s1.forecastHours d) 0 d).showPendAge d

/-- Whether a measurement can give its result: the rail in REG, and a compute die settled at its voltage and bound to no partition meanwhile (R267). -/
def State.mayRead (s : State) (d : Nat) : Bool :=
  decide (s.railSt (ownRail d) = railReg) && (decide (32 ≤ d) || (s.flag .rgcStatusVready d && (s.partOf d).isNone))

/-- AGE_MEASURE_COMPLETE: the gate of 1 ms ends (R265, R267, R271 to R273). A compute die with a re-plan to follow stays excluded for it. -/
def execAgeMeasureComplete (die : Die) (counts : List GateCount) (s : State) : Host.Outcome State Fault Refusal :=
  s.run fun s =>
    let d := die.val
    if (s.ageDie d).measuring && s.mayRead d then
      let s0 := s.advanceTo ((s.ageDie d).startAt + 1000000)
      let gates := (counts.take (dieMonitors d)).zipIdx
      let s1 := s0.each gates fun s g => s.readMonitor d g.2 g.1
      let s2 := (s1.updAge d fun x => { x with measuring := false, measAt := some s1.opSec }).report271 d
      if d < 32 then
        if decide (0 < s2.stepsDue d) && s2.planAllowed d then s2.updAge d fun x => { x with planning := true } else s2.releaseAge d
      else s2
    else s

/-- AGE_MEASURE_ABANDON: no result, and the die is released; a re-plan that had not yet written its table is aborted with it (R267, R269,
R274). -/
def execAgeMeasureAbandon (die : Die) (_cause : AbandonCause) (s : State) : Host.Outcome State Fault Refusal :=
  s.run fun s => if (s.ageDie die.val).measuring || (s.ageDie die.val).planning then s.releaseAge die.val else s

/-! ## Re-planning (R268 to R270) -/

/-- What the characterisation and regression of a die found, written to its registers; TCAL takes the die's mean temperature (R54, R122,
R155). -/
def State.applyFound (s : State) (f : DieFound) : State :=
  let d := f.die.val
  let s1 := s.each f.dets fun s x =>
    (s.wr .dagDrpchrClo x.clo.toNat d x.det.val).wr .dagDrpchrChi x.chi.toNat d x.det.val
  let s2 := if f.dets.isEmpty then s1 else (s1.wr .dagDrptcTcal (ofSigned 16 (s1.die d).tMean) d).retap d
  let s3 := s2.each f.coefs fun s x => s.wr .dagEcoefCoef x.2.toNat d x.1.val
  let s4 := s3.each f.leak fun s x =>
    if x.1.val % 2 = 0 then s.wr .dagEleakLo x.2.toNat d (x.1.val / 2) else s.wr .dagEleakHi x.2.toNat d (x.1.val / 2)
  let s5 := match f.memlk with | some v => s4.wr .dagEmemlkMemlk v.toNat d | none => s4
  match f.ffgain with | some v => s5.wr .dagAdmffFfgain v.toNat d | none => s5

/-- The V-F entry of integer divisor n written (R204). -/
def State.setVf (s : State) (d n v : Nat) : State :=
  let i := n - 5
  if i % 2 = 0 then s.wr .dagVfLo v d (i / 2) else s.wr .dagVfHi v d (i / 2)

/-- The fastest divisors withdrawn while their raised entries would lie above the ceiling, each with a CORRECTED fault (R270); k at most. -/
def State.withdrawTop (s : State) (d rise : Nat) : Nat → State
  | 0 => s
  | k + 1 =>
    let n := s.rd .ageDieTopdiv 0 d
    if s.ceiling d < s.vf d n + rise && decide (n < 31) then
      ((s.wr .ageDieTopdiv (n + 1) 0 d).raise (corr 11 3 (unitOf d 0) 0)).withdrawTop d rise k
    else s

/-- A compute die's table raised by whole steps: entries that would exceed the ceiling are withdrawn, all others rise (R268, R270). -/
def State.raiseTable (s : State) (d steps : Nat) : State :=
  let rise := 5 * steps
  let s1 := s.withdrawTop d rise 26
  let top := s1.rd .ageDieTopdiv 0 d
  let s2 := s1.each ((upto 28).map (· + 5)) fun s n => if n < top then s else s.setVf d n (s.vf d n + rise)
  (s2.wr .ageDieRaise (s2.rd .ageDieRaise 0 d + rise) 0 d).followVf d

/-- Another die's rail target raised; a raise above the ceiling is not applied, and its domains other than GCLK run one whole divisor step
slower instead, with a CONTAINED fault (R268, R270). -/
def State.raiseRail (s : State) (d steps : Nat) : State :=
  let r := ownRail d
  let v := s.rd .rgcVidV r + 5 * steps
  if s.ceiling r < v then
    (s.each (termDomains d) fun s c => s.setDomain c (s.rd .clkDomTgt 0 c + 16)).raise (cont 11 4 (unitOf d r) .package 0)
  else (s.setVid r v).wr .ageDieRaise (s.rd .ageDieRaise 0 d + 5 * steps) 0 d

/-- A die's margin after a re-plan, its time, and the blind mark (R269, R271, R273). -/
def State.planned (s : State) (d steps : Nat) : State :=
  let blind := s.blindDie d
  let s1 := (s.wr .ageDieLastplan (s.opSec / opHour) 0 d).updAge d fun x =>
    { x with planAt := some s.opSec, dueSince := none, planning := false, sensedAt := if blind then x.sensedAt else some s.opSec
             blind := if blind then x.blind + steps else 0 }
  let s2 := (s1.noteDue d).showMargin d
  s2.showPendAge d

/-- Whether a die may be re-planned now: a compute die in no partition, within the exclusion of its own measurement, blind, or overdue in CALIBRATING; any
other die at once (R269, R273, R274). -/
def State.mayPlan (s : State) (d : Nat) : Bool :=
  decide (32 ≤ d) || ((s.partOf d).isNone && !(s.ageDie d).measuring &&
    ((s.ageDie d).planning || s.blindDie d || (decide (s.svc = svcCalibrating) && s.flag .ageDiePend 0 d)))

/-- AGE_REPLAN: min(n_req - n_app, MAXSTEP) steps; a compute die follows its own measurement and returns at ÷24, any other die is raised at
once (R268 to R271, R273). -/
def execAgeReplan (die : Die) (found : DieFound) (s : State) : Host.Outcome State Fault Refusal :=
  s.run fun s =>
    let d := die.val
    let steps := min (s.stepsDue d) (if s.blindDie d then 1 else max 1 (s.rd .ageCfgMaxstep))
    if s.mayPlan d && decide (0 < steps) && s.planAllowed d && decide (s.svc ≠ svcCold) then
      let s1 := (if d < 32 then s.raiseTable d steps else s.raiseRail d steps).applyFound { found with die := die }
      let s2 := s1.planned d steps
      if d < 32 then s2.releaseAge d else s2
    else s

/-! ## Monitors and time (R266, R273) -/

/-- A die left with too few monitors is re-planned blind from now on, with a CONTAINED fault once (R273). -/
def State.noteBlind (s : State) (d : Nat) : State :=
  if s.blindDie d && !s.flag .ageDieBlindf 0 d then
    (s.wr .ageDieBlindf 1 0 d).raise (cont 11 5 (unitOf d 0) (dieScope d) 7)
  else s

/-- MONITOR_SELFTEST: four repeats that agree within 0.05 % with no failure to count let the reading stand; otherwise the monitor is retired
(R273, R288). -/
def execMonitorSelftest (die : Die) (idx : Fin 8) (dev : Nat) (counted : Bool) (s : State) : Host.Outcome State Fault Refusal :=
  s.run fun s =>
    let d := die.val
    let m := idx.val
    if decide (m < dieMonitors d) && s.monSuspect d m && !s.monOut d m then
      let pass := counted && decide (dev ≤ 50)
      let s1 := (s.selfTest pass).wr .ageMonSuspect 0 0 (monitorNo d m)
      if pass then s1.report271 d
      else (((s1.wr .ageMonRetired 1 0 (monitorNo d m)).raise (corr 11 2 (unitOf d m) 7)).noteBlind d).report271 d
    else s

/-- OPTIME_SAVE: every 60 s of operating time the control complex writes AGE.OPTIME to the flash (R266). -/
def execOptimeSave (s : State) : Host.Outcome State Fault Refusal :=
  s.run fun s =>
    if s.svc = svcCold || !s.ccUp then s
    else
      let s1 := s.advanceTo (s.now + (1000000000 * (s.flash.optime + 60) - s.age.opNs))
      { s1 with flash := { s1.flash with optime := s1.opSec } }

/-- AGE_PEND: 168 operating hours have passed without a measurement, or with a re-plan due (R266, R269). -/
def execAgePend (die : Die) (s : State) : Host.Outcome State Fault Refusal :=
  s.run fun s =>
    let d := die.val
    if s.svc = svcCold || !s.ccUp || s.flag .ageDiePend 0 d then s
    else
      let x := s.ageDie d
      let t := match x.dueSince with | some t => min t (x.measAt.getD 0) | none => x.measAt.getD 0
      (s.advanceTo (s.now + (1000000000 * (t + 168 * opHour) - s.age.opNs))).showPendAge d

end Sys2Proof.Machine
end

