-- ==== Sys2Proof/Machine/Window.lean ====
section
/-!
DEFINITION. Sys2Proof/Machine/Window.lean: the register window as a reader sees it: which register elements a word holds (R387, R388), what
each shows, and the words of the regions that hold no register fields (R315, R336, R348, R352).
-/
namespace Sys2Proof.Machine

/-! ## Where a word lies -/

/-- The block, instance and offset of a word address, where it lies in a block (R387, R388). -/
def locate (a : Nat) : Option (Blk × Nat × Nat) :=
  let central : List Blk := [.gov, .hif, .flt, .clk, .alc, .hrt, .chn, .lrd, .atc, .obs, .fwc, .age]
  if a < 0xC000 then (central[a / 0x1000]?).map fun b => (b, 0, a % 0x1000)
  else if a < 0x10000 then none
  else if a < 0x20000 then some (.rgc, (a - 0x10000) / 0x400, a % 0x400)
  else if a < 0x48000 then some (.dag, (a - 0x20000) / 0x1000, a % 0x1000)
  else if a < 0x80000 then none
  else if a < 0xC0000 then some (.qea, (a - 0x80000) / 0x10, a % 0x10)
  else if a < 0x100000 then some (.view, (a - 0xC0000) / 0x4000, a % 0x4000)
  else none

/-- One element of a word: which it is, its lowest bit counted from its first word, and which of its words this is. -/
structure Piece where
  ref : FieldRef
  lo : Nat
  word : Nat
  deriving DecidableEq, Repr

/-- The elements of one field that stand in the word at an offset. -/
def fieldPieces (f : Field) (i off : Nat) : List Piece :=
  let d := fieldDef f
  if off < d.off then []
  else
    let g := if d.stride = 0 then 0 else (off - d.off) / d.stride
    let w := (off - d.off - g * d.stride) / 4
    if (d.lo + (d.per - 1) * d.bstride + d.width) ≤ 32 * w then []
    else ((upto d.per).filter fun t => decide (g * d.per + t < d.count)).map fun t =>
      { ref := ⟨f, i, g * d.per + t⟩, lo := d.lo + t * d.bstride, word := w }

/-- The elements that stand in a word of a block. A register kept per port is that port's own instance (R389). -/
def pieces (p : Port) (b : Blk) (i off : Nat) : List Piece :=
  (blkFields b).flatMap fun f => fieldPieces f (if f.perPort then p.num else i) off

/-- Words that a chapter defines although no field of the map stands in them: a reserved word of a ring set, and the words of a view page
that show other registers (R323, R348). -/
def extraWord (b : Blk) (off : Nat) : Bool :=
  match b with
  | .hif => decide (0x100 ≤ off) && decide (off < 0x500) && decide (off % 0x40 = 0x3C)
  | .view => off = 0 || off = 4 || off = 0x30 || off = 0x34 || off = 0x38 || off = 0x3C
  | _ => false

/-- The word holds a register (R5). -/
def definedWord (b : Blk) (off : Nat) : Bool := !(pieces .cc b 0 off).isEmpty || extraWord b off

/-! ## What an element shows -/

/-- The counters that a freeze covers: those that read to clear, and those of other kinds, of the blocks R352 names. -/
def covered (f : Field) : Bool :=
  let d := fieldDef f
  match f with
  | .dagEdieE | .qeaEnergy | .fltFatalc | .fltFullns | .fltAonns | .fltHallFocnt | .fltPendMerged | .obsPenergyE | .obsPkgenergyE
  | .obsUnasgnE | .obsGstatV | .viewLive | .viewPer | .viewWin | .viewJob => true
  | _ => match d.blk with
    | .dag | .qea | .rgc | .lrd | .chn | .flt | .alc => decide (d.kind = .rc)
    | _ => false

/-- Milliseconds since an instant, saturating in 16 bits; none reads as the greatest. -/
def State.since (s : State) (t : Option Nat) : Nat :=
  match t with
  | some x => min 0xFFFF ((s.now - x) / 1000000)
  | none => 0xFFFF

/-- The stretch depth in force on a core's branch, in root periods (R45, R142). -/
def State.branchDepth (s : State) (k : Nat) : Nat := max ((s.rd .dagDrpxX (k / 4) (k % 4) + 15) / 16) (s.rd .clkCbrGdep 0 k)

/-- The stretch depth of a clock domain: the deepest of its branches, or of the droop domains bound to it (R142, R143). -/
def State.domainDepth (s : State) (c : Nat) : Nat :=
  if c < 32 then (branchesOf c).foldl (fun m k => max m (s.branchDepth k)) 0
  else (upto 8).foldl (fun m n => (upto (dieDomains (32 + n))).foldl (fun m k =>
    if droopClock (32 + n) k = c then max m ((s.rd .dagDrpxX (32 + n) k + 15) / 16) else m) m) 0

/-- The conditions missing for FULL: grains, TM_HEARTBEAT, a standby (R374, R386). -/
def State.waitBits (s : State) : Nat :=
  if s.svc = svcCalibrating then
    bit (!s.start.grains) + 2 * bit (!s.flag .govTmhbPresent) + 4 * bit (!s.flag .govHallStbyrdy && !s.start.waitOver)
  else 0

/-- What an element shows to a read: 0 for one that may only be written, the frozen value of a covered counter while counters are frozen,
what the state derives, for a cap or ceiling the value last sampled, or what the element holds (R7, R52, R352). -/
def State.shown (s : State) (r : FieldRef) : Nat :=
  let d := fieldDef r.f
  if !r.exists || decide (d.kind = .wo) then 0
  else if covered r.f && s.frozen.isSome then
    Store.get FieldRef.reset (s.frozen.getD []) r
  else match r.f with
    | .lrdOccLarder => s.lard.larder.length
    | .lrdCoccCellar => s.lard.cellar.length
    | .lrdCellarAvail => (upto 4).foldl (fun n m => n + 2 ^ m * bit (s.partAvail m)) 0
    | .lrdMirrorPend => s.lard.replay.length
    | .dagPntstatOcc => (s.die r.i).pantry.length
    | .dagPntstatPin => ((s.die r.i).pantry.filter fun e => (s.die r.i).pinned e.ent.key).length
    | .dagPntstatOvfl => (s.die r.i).overflow.length
    | .fltPendRemain => if s.flag .fltPendValid 0 r.j then ((s.pendOf r.j).deadline - s.now) / 1000 else 0
    | .rgcStaggerTgt => if s.railOn r.i then s.staggerTgt r.i else s.reg r
    | .dagAdmcorePromo => if s.rd .dagAdmcfgRefcap r.i = 0 then 0 else s.reg r
    | .dagDrpcfgEn => bit (s.detectsOn r.i)
    | .clkXcntCount => s.xtalCycles r.j
    | .clkDomStr => s.domainDepth r.j
    | .chnPosRole => s.chainRole
    | .hrtInletAge => s.since s.hearth.inletAt
    | .govTmhbAge => s.since s.start.lastEdge
    | .govStateWait => s.waitBits
    | .viewFrozen => s.rd .obsFrzctlFrozen
    | .obsEstatCalall => bit (decide (s.svc = svcFull) && (upto 40).all fun d => s.flag .dagEcalConv d)
    | .alcElecpkPeak | .alcElecmidMid | .alcElecbaseBase | .alcTraycapCap | .alcHostcapCap =>
      match s.lim.sampled.find? fun x => decide (x.1 = r) with
      | some x => x.2
      | none => s.reg r
    | _ => s.reg r

/-- The part of a word that an element makes. -/
def State.pieceBits (s : State) (x : Piece) : Nat := s.shown x.ref * 2 ^ x.lo / 2 ^ (32 * x.word) % 2 ^ 32

/-- A word of a block, from its elements. -/
def State.blockWord (s : State) (p : Port) (b : Blk) (i off : Nat) : Nat :=
  (pieces p b i off).foldl (fun n x => n + s.pieceBits x) 0

/-- The access port that reads for the block itself. -/
def State.ownWord (s : State) (b : Blk) (i off : Nat) : Nat := s.blockWord .cc b i off

/-- The queue that a view page's QSEL names, if its die belongs to the partition (R349). -/
def State.ownQueue (s : State) (p : Nat) : Option Nat :=
  let q := s.rd .viewQsel p
  if s.partOf (q / 512) = some p then some q else none

/-- The words of a view page that show other registers: the binding, the dies, and QDATA (R348, R349). -/
def State.viewWord (s : State) (p off : Nat) : Nat :=
  if off = 0 then s.tagOf p + 2 ^ 16 * s.rd .alcPartBindValid 0 p
  else if off = 4 then s.rd .alcPartDies 0 p
  else if 0x30 ≤ off && off < 0x40 then
    (match s.ownQueue p with
    | some q => s.ownWord .qea q (off - 0x30)
    | none => 0)
  else 0

/-- A word of the MSI-X structures of a host port: the table and the pending bits (R315); none elsewhere, and from any other port 0. -/
def State.msixRead (s : State) (p : Port) (off : Nat) : Option Nat :=
  if 0xC00 ≤ off && off < 0xE40 then some (if p.isHost then s.msixWord p ((off - 0xC00) / 4) else 0)
  else if off = 0xE80 then some (if p.isHost then (s.msixOf p).pba % 2 ^ 32 else 0)
  else if off = 0xE84 then some (if p.isHost then (s.msixOf p).pba / 2 ^ 32 else 0)
  else none

/-- A word of the window with no side effect (R5, R387). The log and trace-point rings hold nothing that the model writes (assumption log
54). -/
def State.peek (s : State) (p : Port) (a : Nat) : Nat :=
  match locate a with
  | none => 0
  | some (.view, i, off) => if extraWord .view off then s.viewWord i off else s.blockWord p .view i off
  | some (.hif, _, off) => (s.msixRead p off).getD (s.blockWord p .hif 0 off)
  | some (b, i, off) => s.blockWord p b i off

end Sys2Proof.Machine
end

