-- ==== Sys2Proof/Machine/Observe.lean ====
section
/-!
DEFINITION. Sys2Proof/Machine/Observe.lean: latches of the statistics sets, the counter freeze, traces, the hang snapshot and the Attic
(R347 to R370).
-/
namespace Sys2Proof.Machine

/-! ## The second (R351) -/

/-- The WIN set of a partition latched from LIVE, which restarts with its fraction of 1 µJ (R61, R351). While counters are frozen the
number waits for the thaw (R353). -/
def State.latchWin (s : State) (p : Nat) : State :=
  let s1 := s.each (upto 32) fun s i =>
    (s.wr .viewWin (s.rd .viewLive p i) p i).wr .viewLive 0 p i
  if s.frozen.isSome then { s1 with winDue := true } else s1.wr .viewWinseq (s1.rd .viewWinseq p + 1) p

/-- A statistic's count in a list of counts: an energy in whole µJ (R350). -/
def statCount (c : Counts) (i : Nat) : Nat :=
  c.foldl (fun n x => if x.1.place = some i then n + (if x.1.isEnergy then x.2 / 65536 else x.2) else n) 0

/-- OBS_SECOND_LATCH: the next fabric-time second (R351). -/
def execObsSecondLatch (s : State) : Host.Outcome State Fault Refusal :=
  s.run fun s =>
    let s0 := s.advanceTo (ceilTo 1000000000 s.now)
    let s1 := s0.each (upto 16) State.latchWin
    let s2 := s1.each (upto 32) fun a i => a.wr .obsGstatV (statCount s.gopen i) 0 i
    { s2 with gopen := fractions s.gopen }

/-! ## The freeze (R352, R353) -/

/-- The covered counters frozen as they stand (R352, R362). -/
def State.freezeNow (s : State) : State :=
  let s1 := (s.wr .obsFrzctlArmed 0).wr .obsFrzctlFrozen 1
  { s1 with frozen := some (Store.seal FieldRef.lt FieldRef.reset s.regs), freezeT := none, frozeAt := s.now }.info 5

/-- FREEZE_START: the first fast-period boundary at or after T (R352). -/
def execFreezeStart (s : State) : Host.Outcome State Fault Refusal :=
  s.run fun s =>
    match s.freezeT with
    | some t => if s.frozen.isSome then s else (s.advanceTo (ceilTo 250 t)).freezeNow
    | none => s

/-- FREEZE_THAW: a write of THAW; the freeze ends at the next boundary (R353). -/
def execFreezeThaw (port : Port) (s : State) : Host.Outcome State Fault Refusal :=
  s.run fun s =>
    let s := s.wrote port 0x9000 0x10
    if s.frozen.isSome then { s with thaw := true } else s

/-- FREEZE_MAX_EXPIRY: the freeze has lasted MAXMS; 0 is handled as 1 (R353, R368). -/
def execFreezeMaxExpiry (s : State) : Host.Outcome State Fault Refusal :=
  s.run fun s =>
    if s.frozen.isSome then (s.advanceTo (s.frozeAt + 1000000 * max 1 (s.rd .obsFrzctlMaxms))).unfreeze else s

/-! ## Traces (R355 to R359) -/

/-- The first word of a trace entry without its PHASE bit (R357). -/
def TraceRec.word0 (r : TraceRec) (d : Nat) : Nat :=
  2 * r.type + 2 ^ 6 * d + 2 ^ 12 * r.core + 2 ^ 14 * r.eng + 2 ^ 17 * r.a

/-- Whether the trace ring is written: enabled, with a privileged ring set (R347, R358). -/
def State.traceOn (s : State) : Bool := s.flag .obsTrccfgEn && s.privRing.isSome

/-- A record written into the trace ring: vector 34 goes out when the unread entries reach WMARK (R358). -/
def State.putTrace (s : State) (d : Nat) (r : TraceRec) : State :=
  let p := s.ringPort (s.rd .obsPrivRs)
  let size := ringSize (s.rd .obsTrccfgSize)
  let pi := s.rd .obsTrcpi
  let s1 := s.writeEntry p (s.rd .obsTrcbase + 16 * pi) (r.word0 d + bit s.tring.phase) (w32 r.b :: w64 r.time)
  let s2 := s1.wr .obsTrcpi ((pi + 1) % size)
  let unread := (pi + 1 + size - s.tring.ci) % size
  let ph := if pi + 1 = size then !s.tring.phase else s.tring.phase
  if unread = s.rd .obsTrccfgWmark then
    { s2 with tring := { s2.tring with phase := ph, lastWrite := none } }.sendVector p 34
  else { s2 with tring := { s2.tring with phase := ph, lastWrite := if unread < s.rd .obsTrccfgWmark then some s.now else none } }

/-- TRACE_DRAIN: a token of 222 ns lets a die agent send its oldest record; with the ring full, draining stops (R355, R358). -/
def execTraceDrain (die : Die) (s : State) : Host.Outcome State Fault Refusal :=
  s.run fun s =>
    let d := die.val
    let x := s.die d
    match x.trace with
    | [] => s
    | r :: rest =>
      if !s.traceOn || x.steward || !x.powered || decide (x.traceTokens < 222) then s
      else if ringFree (ringSize (s.rd .obsTrccfgSize)) (s.rd .obsTrcpi) s.tring.ci = 0 then s.wr .obsTrcfull 1
      else
        let s1 := (s.updDie d fun y => { y with trace := rest, traceTokens := y.traceTokens - 222 }).wr .dagTrcocc rest.length d
        s1.putTrace d r

/-- TRACE_VECTOR_TIMER: 1 ms after an entry was written below the watermark (R358). -/
def execTraceVectorTimer (s : State) : Host.Outcome State Fault Refusal :=
  s.run fun s =>
    match s.tring.lastWrite with
    | some t =>
      let s1 := s.advanceTo (t + 1000000)
      { s1 with tring := { s1.tring with lastWrite := none } }.sendVector (s1.ringPort (s1.rd .obsPrivRs)) 34
    | none => s

/-- TRACE_RING_POLL: every 1 ms the consumer index is read while EN is set (R358). -/
def execTraceRingPoll (ci : Word) (s : State) : Host.Outcome State Fault Refusal :=
  s.run fun s => if s.flag .obsTrccfgEn then s.readTraceCi ci.toNat else s

/-- WAIT_END: a WAIT event for a wait of at least WMIN fast periods (R356, R357). -/
def execWaitEnd (die : Die) (w : WaitInfo) (s : State) : Host.Outcome State Fault Refusal :=
  s.run fun s =>
    if s.rd .obsTrcenWmin ≤ w.periods then
      s.trace die.val 1 w.core.val w.eng.val (w.queue.val + 2 ^ 7 * w.obj.val)
        (w.sigDie.val + 2 ^ 6 * w.sigCore.val + 2 ^ 8 * w.sigEng.val + 2 ^ 11 * bit w.coll + 2 ^ 12 * min 0xFFFFF w.periods)
    else s

/-! ## The hang snapshot (R360) -/

/-- A pending request as the snapshot shows it: two words. -/
def State.snapReq (s : State) (d : Nat) (r : AdmReq) : List Nat :=
  let w := Store.get (fun _ => ([] : List WinDesc)) (s.die d).windows (r.core * 6 + r.eng)
  let k := w.find? fun x => !x.running
  let layer := match k with | some x => x.layer | none => 0
  let op := match k with | some x => x.op | none => 0
  [r.core + 2 ^ 2 * r.eng + 2 ^ 8 * r.queue + 2 ^ 16 * r.charge.getD r.cls + 2 ^ 24 * r.dly, layer + 2 ^ 16 * op]

/-- A list cut or filled with zeros to n entries. -/
def padTo (n : Nat) (l : List Nat) : List Nat := (l ++ List.replicate (n - l.length) 0).take n

/-- A die section: 64 words; a die agent that does not answer at its current generation gives its index with bit 31 set. -/
def State.snapDie (s : State) (d : Nat) : List Nat :=
  let x := s.die d
  if !x.powered || decide ((s.hd d).gen ≠ x.gen) then padTo 64 [d + 2 ^ 31]
  else
    let w (off : Nat) : Nat := s.ownWord .dag d off
    padTo 64 ([d + 2 ^ 8 * x.gen, w 0x800] ++ (upto 4).map (fun c => w (0x810 + 4 * c)) ++ (upto 4).map (fun c => w (0x880 + 4 * c)) ++
      (upto 4).map (fun c => w (0x310 + 4 * c)) ++ [w 0x33C, 0] ++ (x.adm.reqs.take 24).flatMap (s.snapReq d))

/-- The 2 592 words of a snapshot. -/
def State.snapshot (s : State) : List Nat :=
  let head := [s.now % 2 ^ 32, s.now / 2 ^ 32, 10368, s.svc + 2 ^ 8 * s.rd .fltHallEpoch]
  let c (off : Nat) : Nat := s.ownWord .chn 0 off
  let offers := ((s.chain.offers.take 4).flatMap fun o => [o.taker + 2 ^ 8 * o.part + 2 ^ 16 * (o.amount % 2 ^ 16), o.amount / 2 ^ 16])
  padTo 16 head ++ (upto 40).flatMap s.snapDie ++ padTo 16 ([c 0x14, c 0x0C, c 0x18, c 0x1C] ++ offers)

/-- SNAPSHOT_CAPTURE: at the first boundary after SNAPSHOT starts, the state is captured and written to the buffer, as much of it as the
buffer holds (R307, R360). -/
def execSnapshotCapture (rs : Part) (cid : BitVec 16) (ok : Bool) (s : State) : Host.Outcome State Fault Refusal :=
  s.run fun s =>
    let n := rs.val
    match (s.ring n).running.find? fun c => decide (c.cid = cid.toNat) && decide (c.opcode = 13) && c.started with
    | none => s
    | some c =>
      let s1 := s.advanceTo (ceilTo 250 s.now)
      if !ok then s1.complete n c.cid 7 0
      else
        let len := min (c.word 2) 10368 / 4 * 4
        let out : HostWrite := { port := s1.ringPort n, addr := c.dword 0, words := (s1.snapshot.take (len / 4)).map w32 }
        ({ s1 with dma := s1.dma ++ [out] }).complete n c.cid (bit (decide (len < 10368))) len

/-! ## The Attic (R361 to R367) -/

/-- Records in the flash region (R361). -/
def atticSize : Nat := 131072

/-- The eight words of a record; CHECK is the CRC-32C of those before it (R361). -/
def AtticRec.words (r : AtticRec) : List Nat :=
  let part := match r.ev.part with | some p => p + 2 ^ 7 | none => 0
  let l := [r.ev.code + 2 ^ 16 * r.ev.sev + 2 ^ 24 * r.supp, r.ev.unit + 2 ^ 16 * part, r.optime, r.pwrcyc, r.ev.time % 2 ^ 32,
            r.ev.time / 2 ^ 32, r.seq]
  l ++ [crc32c (l.flatMap wordBytes)]

/-- A record of an event, with the suppressed count it carries (R361, R363). -/
def State.atticRec (s : State) (e : AtticEvent) (supp : Nat) : AtticRec :=
  { ev := e, supp := min 255 supp, optime := s.opSec % 2 ^ 32, pwrcyc := s.rd .atcPwrcyc, seq := s.attic.seq, bad := false }

/-- A record put at the write pointer; on reaching a sector, the pointer finds it erased, and OLDEST moves past it (R361). -/
def State.atticProgram (s : State) (r : AtticRec) : State :=
  let p := s.rd .atcWrptr
  let p' := (p + 1) % atticSize
  let f1 := Store.insert natLt p (some r) s.attic.flash
  let f2 := if p' % 128 = 0 then f1.filter fun e => !(decide (p' ≤ e.1) && decide (e.1 < p' + 128)) else f1
  let old := match f2.find? fun e => decide (p' ≤ e.1) with
    | some e => e.1
    | none => match f2 with | e :: _ => e.1 | [] => p'
  ({ s with attic := { s.attic with flash := f2, seq := (s.attic.seq + 1) % 2 ^ 32 } }.wr .atcWrptr p').wr .atcOldest old

/-- A record put into the RAM ring: records 1 to 255 wrap, and record 0 stays (R366). -/
def State.atticRing (s : State) (r : AtticRec) : State :=
  let i := 1 + s.attic.ramN % 255
  let ram := s.attic.ram.take i ++ [r] ++ s.attic.ram.drop (i + 1)
  { s with attic := { s.attic with ram, ramN := s.attic.ramN + 1, seq := (s.attic.seq + 1) % 2 ^ 32 } }

/-- The rate limit of a code before its first record (R363). -/
def State.rate (s : State) (code : Nat) : RateState := Store.get RateState.init s.attic.rates code

def State.setRate (s : State) (code : Nat) (r : RateState) : State :=
  { s with attic := { s.attic with rates := Store.insert natLt code r s.attic.rates } }

/-- The rate limit applied to an event at operating second t: whether it is recorded, its SUPP, and the limit's state after it (R363). -/
def rateStep (n win t : Nat) (fatal : Bool) (r : RateState) : Bool × Nat × RateState :=
  let fresh := match r.start with | some a => decide (a + win ≤ t) | none => true
  if fresh then (true, r.supp, { start := some t, made := 1, supp := 0 })
  else if r.made < n || fatal then (true, 0, { r with made := r.made + 1 })
  else (false, 0, { r with supp := r.supp + 1 })

/-- Whether the firmware records events: running, not quiesced for a handover, and not frozen (R324, R340, R365). -/
def State.recording (s : State) : Bool := s.ccUp && !s.upd.quiet && !s.flag .atcCfgFreeze

/-- ATTIC_RECORD_WRITE: the oldest queued event, subject to its rate limit. A program that fails leaves a record whose CHECK is bad, and the
event waits for another try (R361, R363, R366; assumption log 55). -/
def execAtticRecordWrite (ok : Bool) (s : State) : Host.Outcome State Fault Refusal :=
  s.run fun s =>
    match s.attic.queue with
    | [] => s
    | e :: rest =>
      if !s.recording then s
      else
        let r := rateStep (max 1 (s.rd .atcCfgRaten)) (max 1 (s.rd .atcCfgRatewin)) s.opSec (decide (e.sev = 3)) (s.rate e.code)
        if !r.1 then ({ s with attic := { s.attic with queue := rest } }.setRate e.code r.2.2).count .atcSupp
        else if s.flag .atcStatRam then
          ({ s with attic := { s.attic with queue := rest } }.setRate e.code r.2.2).atticRing (s.atticRec e r.2.1)
        else if ok then
          ({ s with attic := { s.attic with queue := rest, fails := 0 } }.setRate e.code r.2.2).atticProgram (s.atticRec e r.2.1)
        else
          let s1 := s.atticProgram { s.atticRec e r.2.1 with bad := true }
          { s1 with attic := { s1.attic with seq := s.attic.seq, fails := s.attic.fails + 1 } }

/-- ATTIC_FAILURE: recording moves to the RAM ring, whose record 0 is the failure itself; a CONTAINED fault and the ATTIC notice (R312,
R366). -/
def execAtticFailure (s : State) : Host.Outcome State Fault Refusal :=
  s.run fun s =>
    if s.flag .atcStatRam || !s.ccUp then s
    else
      let f := cont 19 1 (unitOf (40 + s.active) 0) .package 2
      let e : AtticEvent := { code := 19 * 256 + 1, sev := 2, unit := f.unit, part := none, time := s.now }
      let s1 := { s with attic := { s.attic with ram := [s.atticRec e 0], ramN := 0, seq := (s.attic.seq + 1) % 2 ^ 32, fails := 0 } }
      let s2 := (s1.wr .atcStatRam 1).raise f
      { s2 with attic := { s2.attic with queue := s1.attic.queue } }.noticeAll 7 0

/-- The RAM ring copied into a flash that works again, in order of SEQ, and cleared (R366). -/
def State.atticRestore (s : State) : State :=
  if s.flag .atcStatRam then
    let start := 1 + s.attic.ramN % 255
    let l := if s.attic.ram.length < 256 then s.attic.ram else s.attic.ram.take 1 ++ s.attic.ram.drop start ++ (s.attic.ram.take start).drop 1
    let n := s.attic.seq
    let s1 := s.each l State.atticProgram
    { s1 with attic := { s1.attic with ram := [], ramN := 0, seq := n, fails := 0 } }.wr .atcStatRam 0
  else s

/-! ## The cursors (R364, R365, R389) -/

/-- A port's cursor fetch started. -/
def State.startFetch (s : State) (p : Nat) : State :=
  { s with attic := { s.attic with fetching := if s.attic.fetching.contains p then s.attic.fetching else s.attic.fetching ++ [p] } }.wr
    .atcStatBusy 1

/-- ATTIC_CURSOR_WRITE: bits 16 to 0 the index, bit 31 AUTO (R364, R370). -/
def State.cursorWrite (s : State) (p : Port) (v : Nat) : State :=
  ((s.wr .atcCurIdx (v % 2 ^ 17) p.num).wr .atcCurAuto (v / 2 ^ 31 % 2) p.num).startFetch p.num

def execAtticCursorWrite (port : Port) (val : Word) (s : State) : Host.Outcome State Fault Refusal :=
  s.run fun s => s.cursorWrite port val.toNat

/-- The record at an index: of the RAM ring while that is in use, else of the flash (R364, R366). -/
def State.atticAt (s : State) (i : Nat) : Option AtticRec :=
  if s.flag .atcStatRam then s.attic.ram[i % 256]? else Store.get (fun _ => none) s.attic.flash i

/-- A port's DATA filled with words from index j on. -/
def State.fillData (s : State) (p : Nat) (l : List Nat) : State := s.each l.zipIdx fun s x => s.wr .atcData x.1 p x.2

/-- A port's DATA filled with n free values from word j on: a record whose programming failed holds no value that the spec gives. -/
def State.fillFree (s : State) (p : Nat) : Nat → Nat → State
  | 0, _ => s
  | n + 1, j => ((s.wr .atcData (s.freeNat 32) p j).useFree).fillFree p n (j + 1)

/-- ATTIC_FETCH_COMPLETE: within 20 µs DATA holds the record; an erased one reads as all ones (R361, R364). -/
def execAtticFetchComplete (port : Port) (s : State) : Host.Outcome State Fault Refusal :=
  s.run fun s =>
    let p := port.num
    if s.attic.fetching.contains p then
      let left := s.attic.fetching.filter (· ≠ p)
      let s1 := { s with attic := { s.attic with fetching := left } }.wr .atcStatBusy (bit (!left.isEmpty))
      match s.atticAt (s.rd .atcCurIdx p) with
      | none => ((s1.fillData p (List.replicate 8 0xFFFFFFFF)).wr .atcStatEmpty 1).wr .atcStatBad 0
      | some r =>
        let s2 := (s1.wr .atcStatEmpty 0).wr .atcStatBad (bit r.bad)
        if r.bad then s2.fillFree p 8 0 else s2.fillData p r.words
    else s

/-- A read of DATA[7]: with AUTO set the cursor advances and the next record is fetched (R364). -/
def State.data7 (s : State) (p : Port) : State :=
  let s1 := s.updPort p fun x => { x with rdata := s.rd .atcData p.num 7, resp := .ok }
  if s.flag .atcCurAuto p.num then
    let n := if s.flag .atcStatRam then 256 else atticSize
    (s1.wr .atcCurIdx ((s.rd .atcCurIdx p.num + 1) % n) p.num).startFetch p.num
  else s1

/-- ATTIC_DATA7_READ (R364). -/
def execAtticData7Read (port : Port) (s : State) : Host.Outcome State Fault Refusal :=
  s.run fun s => s.data7 port

/-- ATTIC_FREEZE: FREEZE set (R365). -/
def State.atticFreeze (s : State) : State :=
  { (s.wr .atcCfgFreeze 1).wr .atcStatFrozen 1 with attic := { s.attic with freezeAt := s.now } }

def execAtticFreeze (_port : Port) (s : State) : Host.Outcome State Fault Refusal :=
  s.run State.atticFreeze

/-- ATTIC_FREEZE_EXPIRY: 10 s after it was set (R365). -/
def execAtticFreezeExpiry (s : State) : Host.Outcome State Fault Refusal :=
  s.run fun s =>
    if s.flag .atcCfgFreeze then
      ((s.advanceTo (s.attic.freezeAt + 10000000000)).wr .atcCfgFreeze 0).wr .atcStatFrozen 0
    else s

end Sys2Proof.Machine
end

