-- ==== Sys2Proof/Machine/Firmware.lean ====
section
/-!
DEFINITION. Sys2Proof/Machine/Firmware.lean: the flash's regions, images and the boot selector, the boot ROM, role changes of the Halls, the
CRC unit and live update (R17, R18, R292 to R295, R324 to R345).
-/
namespace Sys2Proof.Machine

/-! ## The flash (R327 to R330) -/

/-- The words of a region of the flash. -/
def State.region (s : State) (k : Nat) : List Word := Store.get Config.factoryFlash s.flash.regions k

/-- A region erased and programmed. -/
def State.program (s : State) (k : Nat) (ws : List Word) : State :=
  { s with flash := { s.flash with regions := Store.insert natLt k ws s.flash.regions } }

/-- Word k of a list, 0 beyond its end. -/
def wordAt (l : List Word) (k : Nat) : Nat := ((l[k]?).getD 0#32).toNat

/-- A record of the boot selector (R330). -/
structure Sel where
  seq : Nat
  act : Nat
  prev : Nat
  trial : Nat
  confirmed : Bool
  deriving DecidableEq, Repr

/-- The three words before CHECK. -/
def Sel.head (r : Sel) : List Nat :=
  [r.seq, r.act + 2 ^ 8 * r.prev + 2 ^ 16 * r.trial + 2 ^ 24 * bit r.confirmed, 0]

/-- The four words of a record, CHECK last. -/
def Sel.words (r : Sel) : List Word := (r.head ++ [crc32c (r.head.flatMap wordBytes)]).map w32

/-- The record that a copy holds, where the copy is good (R330). -/
def selOf (l : List Word) : Option Sel :=
  let h := (l.take 3).map BitVec.toNat
  let w := wordAt l 1
  if l.length < 4 || wordAt l 3 ≠ crc32c (h.flatMap wordBytes) || 2 ≤ w % 256 then none
  else some { seq := wordAt l 0, act := w % 256, prev := w / 2 ^ 8 % 256, trial := w / 2 ^ 16 % 256, confirmed := testBit w 24 }

/-- Whether a SEQ is later than another: the other less it exceeds 2^31 (R330). -/
def laterSeq (a b : Nat) : Bool := decide (2 ^ 31 < (b + 2 ^ 32 - a) % 2 ^ 32)

/-- The copy in force and its record (R330). -/
def State.inForceSel (s : State) : Option (Nat × Sel) :=
  match selOf (s.region 0), selOf (s.region 1) with
  | some a, some b => if laterSeq b.seq a.seq then some (1, b) else some (0, a)
  | some a, none => some (0, a)
  | none, some b => some (1, b)
  | none, none => none

/-- The record that the ROM takes: with none good, slot 0, confirmed (R331). -/
def State.sel (s : State) : Sel :=
  match s.inForceSel with
  | some x => x.2
  | none => { seq := 0, act := 0, prev := 0xFF, trial := 0, confirmed := true }

/-- TRIAL and CONFIRMED of the record in force shown (R346). -/
def State.showSel (s : State) : State := (s.wr .fwcBootTrial s.sel.trial).wr .fwcBootConfirmed (bit s.sel.confirmed)

/-- A record written: the copy not in force takes it with the next SEQ (R330). -/
def State.writeSel (s : State) (r : Sel) : State :=
  let k := match s.inForceSel with | some x => 1 - x.1 | none => 0
  (s.program k { r with seq := (s.sel.seq + 1) % 2 ^ 32 }.words).showSel

/-! ## Images (R328, R329) -/

def imgVer (l : List Word) : Nat := wordAt l 2
def imgSvn (l : List Word) : Nat := wordAt l 3
def imgHomin (l : List Word) : Nat := wordAt l 1 / 2 ^ 16 % 256
def imgHomax (l : List Word) : Nat := wordAt l 1 / 2 ^ 24

/-- A part's length in range. -/
def partLen (n : Nat) : Bool := decide (4 ≤ n) && decide (n ≤ 0xE0000) && decide (n % 4 = 0)

/-- An image is valid: its header, its lengths, its key hash and signature, and its security version (R329). -/
def imageValid (svnf : Nat) (l : List Word) : Bool :=
  let zero (a n : Nat) : Bool := (upto n).all fun k => decide (wordAt l (a + k) = 0)
  decide (wordAt l 0 = 0x46574B45) && decide (wordAt l 1 % 2 ^ 16 = 1) && zero 6 2 && zero 32 8 && partLen (wordAt l 4) && partLen (wordAt l 5) &&
    decide (64 + (wordAt l 4 + wordAt l 5) / 4 ≤ l.length) && decide (imgSvn l ≤ 63) && decide (svnf ≤ imgSvn l) &&
    Config.verifies (l.take (64 + (wordAt l 4 + wordAt l 5) / 4))

/-- The image in a slot is valid. -/
def State.slotValid (s : State) (k : Nat) : Bool := imageValid (s.rd .fwcBootSvnf) (s.region (3 + k))

/-- A control complex starts on a slot (R331, R346). -/
def State.startHall (s : State) (h slot : Nat) : State :=
  let v := imgVer (s.region (3 + slot))
  (s.updHall h fun x => { x with up := true, slot, version := v, tried := true, failed := false }).wr .fwcImgVer v 0 h

/-- The active Hall has stopped and none takes over: no hub die requests CHAIN_BYP_HOLD any more (R236). -/
def State.ringSilent (s : State) : State :=
  let s1 := s.chainOut
  { s1 with chain := { s1.chain with silent := true } }

/-- The active Hall runs, and its transmitter sends again (R236). -/
def State.ringSends (s : State) : State :=
  if s.chain.silent then
    let s1 := { s with chain := { s.chain with silent := false } }
    { s1 with pins := { s1.pins with bypHold := s1.bypWanted } }
  else s

/-- A control complex stops. -/
def State.stopHall (s : State) (h : Nat) : State := (s.updHall h fun x => { x with up := false, version := 0 }).wr .fwcImgVer 0 0 h

/-! ## A ready standby (R294, R295) -/

/-- A standby Hall is ready, its copy of the Larder complete (R294). -/
def State.standbyReady (s : State) : State := ((s.wr .govHallStbyrdy 1).wr .fltStatusNostby 0).fillMirror

/-- No standby Hall is ready: NOSTBY, and one CONTAINED fault (R295). -/
def State.noStandby (s : State) : State :=
  let s1 := s.wr .govHallStbyrdy 0
  if s1.flag .fltStatusNostby then s1 else (s1.wr .fltStatusNostby 1).raise (cont 16 5 (unitOf (40 + s.active) 0) .package 0)

/-! ## The boot ROM (R17, R331) -/

/-- A slot loaded and verified, else the other; neither valid is FATAL (R331). -/
def State.loadSlot (s : State) (h : Nat) : State :=
  let a := s.sel.act
  if s.slotValid a then s.startHall h a
  else if s.slotValid (1 - a) then (s.startHall h (1 - a)).wr .fwcBootAltslot 1
  else (s.updHall h fun x => { x with tried := true, failed := true }).raise (fatalFault 19 4 (unitOf (40 + h) 0) 1)

/-- What the first ROM does with the selector: a trial that is spent rolls back, and any other unconfirmed boot takes one trial (R331). -/
def State.bootSelector (s : State) : State :=
  let r := s.sel
  if r.confirmed then s
  else if r.trial = 0 && r.prev ≠ 0xFF then
    (s.writeSel { r with act := r.prev, prev := 0xFF, trial := 0, confirmed := true }).wr .fwcBootRollback 1
  else s.writeSel { r with trial := r.trial - 1 }

/-- What the first control complex to start brings back from the flash: OPTIME, the raises of the V-F tables and rail targets, and overdue
measurements (R266, R275; assumption logs 52 and 58). -/
def State.restoreAge (s : State) : State :=
  let s1 := { s.wr .ageOptimeSec s.flash.optime with age := { s.age with opNs := 1000000000 * s.flash.optime } }
  s1.each (upto 40) fun s d =>
    let rise := s.rd .ageDieRaise 0 d
    let s2 := if rise = 0 then s
      else if d < 32 then (s.raiseTable d (rise / 5)).wr .ageDieRaise rise 0 d
      else s.setVid (ownRail d) (s.rd .rgcVidV (ownRail d) + rise)
    s2.showPendAge d

/-- The first ROM to reach the selector: the cold start is counted, the selector kept, and the image loaded (R331, R361, R362). -/
def State.firstBoot (s : State) (h : Nat) : State :=
  let n := s.flash.pwrcyc + 1
  let s1 := ({ s with flash := { s.flash with pwrcyc := n }, start := { s.start with booted := true } }.wr .atcPwrcyc n).info 4
  let s2 := (s1.bootSelector.showSel).loadSlot h
  let s3 := s2.wr .fwcBootSlot (s2.hall h).slot
  if (s3.hall h).up then
    let s4 := ((if h = s3.active then s3 else s3.wr .govHallActive h).restoreAge).atticRestore
    let s5 := { s4 with hearth := { s4.hearth with fwSince := some s4.now } }
    if s5.sel.confirmed then s5 else s5.wr .fwcUpdStage 7
  else s3

/-- A later ROM: it boots the slot that the record in force names; at a cold start its Hall is then the ready standby (R331, R371). -/
def State.laterBoot (s : State) (h : Nat) : State :=
  let again := (s.hall h).tried
  let s1 := s.loadSlot h
  if (s1.hall h).up then
    if h = s1.active then
      { s1.ringSends.atticRestore with hearth := { s1.hearth with fwSince := some (s1.hearth.fwSince.getD s1.now) } }
    else if again then s1 else s1.standbyReady
  else s1

/-- BOOT_ROM: the ROM of Hall A runs first, that of Hall B after it (R17, R331). A self-test that fails leaves the control complex stopped. -/
def execBootRom (hall : Hall) (selfOk : Bool) (s : State) : Host.Outcome State Fault Refusal :=
  s.run fun s =>
    let h := hall.val
    if (s.hall h).up || (h = 1 && !(s.hall 0).tried) || s.flag .fltStatusFatal then s
    else if !selfOk then s.updHall h fun x => { x with tried := true, failed := true }
    else if s.start.booted then s.laterBoot h else s.firstBoot h

/-! ## Role changes (R292, R294, R310) -/

/-- The standby Hall takes the active role: the epoch rises, the change is counted, mailboxes still full are taken again, the Larder's records
are replayed, measurements in progress are abandoned, and its first Hearth run is at least 1 ms away (R177, R228, R267, R285, R292, R294,
R318, R362). -/
def State.takeRole (s : State) (cause : Nat) : State :=
  let new := 1 - s.active
  let s1 := ((s.wr .fltHallEpoch ((s.rd .fltHallEpoch + 1) % 256)).count .fltHallFocnt).puts
    [(⟨.fltHallLast, 0, 0⟩, cause), (⟨.govHallActive, 0, 0⟩, new)]
  let s2 := (({ s1 with missed := 0, beacons := 0 }.showPairs).info 3).larderTakeover
  let s3 := s2.each ((upto 40).filter fun d => (s2.ageDie d).measuring || (s2.ageDie d).planning) State.releaseAge
  let s4 := s3.each s3.partsInForce fun s p => s.updPart p fun x => { x with flags := x.flags ||| (if cause = 3 then 5 else 1) }
  let s5 := { s4 with hearth := { s4.hearth with roleAt := some s4.now, able := false } }
  s5.each ((upto 3).filter fun m => (m = 0 || m = 2) && s5.flag .hifMbStatFull 0 m) fun s m => { s with fwInt := s.fwInt ++ [m] }

/-- An unplanned change: a live update before its swap fails, and the old Hall is no ready standby (R292, R295, R345). -/
def State.failover (s : State) (cause : Nat) : State :=
  let old := s.active
  let s1 := if s.updating then s.failUpdate 6 else s
  ((s1.stopHall old).takeRole cause).noStandby

/-- The next instant at B + 150 ns. -/
def State.nextGrant (s : State) : Nat := ceilTo 250 (s.now + 100) - 100

/-- A forcing fault of the active Hall: with a ready standby it is CORRECTED and the standby takes over at the next B + 150 ns; with none its
control complex stops (R292, R325; assumption log 59). -/
def State.forcing (s : State) (detail : Nat) : State :=
  let s1 := s.raise (corr 16 detail (unitOf (40 + s.active) 0) 0)
  if s.flag .govHallStbyrdy then (s1.advanceTo s1.nextGrant).failover 2 else (s1.stopHall s.active).ringSilent

/-- BEACON_MISSED: 20 ns after a beacon was due; the fourth in a row makes the standby active (R18, R292). -/
def execBeaconMissed (s : State) : Host.Outcome State Fault Refusal :=
  s.run fun s =>
    if !s.flag .govHallStbyrdy then s
    else
      let s1 := { s.advanceTo (s.lastB + 170) with missed := s.missed + 1 }
      if s1.missed < 4 then s1 else (s1.raise (corr 16 1 (unitOf (40 + s1.active) 0) 4)).failover 1

/-- HALL_FORCING_FAULT (R292). -/
def execHallForcingFault (kind : ForcingFault) (s : State) : Host.Outcome State Fault Refusal :=
  s.run fun s =>
    match kind with
    | .lockstep => (s.count .fwcCcerrLsm).forcing 2
    | .parity => s.forcing 3
    | .watchdog => s.forcing 4

/-- A control pair of a Hall stops: a forcing fault on the active Hall; the standby's control complex restarts (R325). -/
def State.pairStops (s : State) (h detail : Nat) : State :=
  if !(s.hall h).up then s
  else if h = s.active then s.forcing detail
  else ((s.raise (corr 16 detail (unitOf (40 + h) 0) 0)).stopHall h).noStandby

/-- WATCHDOG_EXPIRY (R325). -/
def execWatchdogExpiry (hall : Hall) (s : State) : Host.Outcome State Fault Refusal :=
  s.run fun s => s.pairStops hall.val 4

/-- LOCKSTEP_MISMATCH: a mismatch is counted; an uncorrectable SRAM error has no detail of its own in R362, so its detail is a free value
(R325; assumption log 59). -/
def execLockstepMismatch (hall : Hall) (kind : PairStop) (s : State) : Host.Outcome State Fault Refusal :=
  s.run fun s =>
    if !(s.hall hall.val).up then s
    else match kind with
      | .mismatch => (s.count .fwcCcerrLsm).pairStops hall.val 2
      | .ecc => s.useFree.pairStops hall.val (s.freeNat 8)

/-- STANDBY_REJOIN: a restarted control complex has passed its boot checks and its mirror is complete (R294). -/
def execStandbyRejoin (s : State) : Host.Outcome State Fault Refusal :=
  s.run fun s =>
    let h := 1 - s.active
    if s.flag .govHallStbyrdy || !s.start.booted then s
    else
      let s1 := if (s.hall h).up then s else s.loadSlot h
      if (s1.hall h).up then s1.standbyReady else s1

/-! ## The CRC unit (R335) -/

/-- Bytes fed into a port's unit. CRCOUT holds the running value with the final XOR. -/
def State.crcFeed (s : State) (p : Port) (l : List Nat) : State :=
  let run := s.rd .fwcCrcout p.num ^^^ 0xFFFFFFFF
  (s.wr .fwcCrcout (crcBytes run l ^^^ 0xFFFFFFFF) p.num).wr .fwcCrccnt (s.rd .fwcCrccnt p.num + l.length) p.num

/-- A running value loaded. -/
def State.crcSeed (s : State) (p : Port) (v : Nat) : State := (s.wr .fwcCrcout (v ^^^ 0xFFFFFFFF) p.num).wr .fwcCrccnt 0 p.num

/-- CRC_SEED (R335). -/
def execCrcSeed (port : Port) (val : Word) (s : State) : Host.Outcome State Fault Refusal :=
  s.run fun s => s.crcSeed port val.toNat

/-- CRC_FEED_WORD: four bytes, least significant first (R335). -/
def execCrcFeedWord (port : Port) (val : Word) (s : State) : Host.Outcome State Fault Refusal :=
  s.run fun s => s.crcFeed port (wordBytes val.toNat)

/-- CRC_FEED_BYTE (R335). -/
def execCrcFeedByte (port : Port) (val : Octet) (s : State) : Host.Outcome State Fault Refusal :=
  s.run fun s => s.crcFeed port [val.toNat]

/-! ## The policy blob (R332, R334) -/

def blobMagic : Nat := 0x4C504B45

/-- A blob passes its check: MAGIC, FORMAT, LEN and the check word (R332, R333). -/
def blobValid (l : List Word) : Bool :=
  let len := wordAt l 2
  decide (wordAt l 0 = blobMagic) && decide (wordAt l 1 % 2 ^ 16 = 1) && decide (20 ≤ len) && decide (len ≤ 0x100000) && decide (len % 4 = 0) &&
    decide (len / 4 ≤ l.length) && decide (wordAt l (len / 4 - 1) = crc32c ((l.take (len / 4 - 1)).flatMap fun w => wordBytes w.toNat))

/-- A blob installed: the policy region is erased and programmed, or the command is INVALID (R334). -/
def State.installBlob (s : State) (n cid : Nat) (l : List Word) : State :=
  if blobValid l then (s.program 2 (l.take (wordAt l 2 / 4))).complete n cid 0 0 else s.complete n cid 4 0

/-- POLICY_INSTALL (R334). -/
def execPolicyInstall (rs : Part) (cid : BitVec 16) (blob : Blob) (s : State) : Host.Outcome State Fault Refusal :=
  s.run fun s => s.hostCmd rs.val cid.toNat 14 fun c s =>
    if c.misaligned then s.complete rs.val cid.toNat 4 0
    else if s.svc ≠ svcFull then s.complete rs.val cid.toNat 6 0
    else s.installBlob rs.val cid.toNat blob.words

/-! ## Live update (R338 to R345) -/

/-- UPDATE: accepted with the update's number, or answered with that of the update in progress and bit 63 set; outside FULL it is STATE (R307,
R308, R334, R338, R345). -/
def execUpdate (rs : Part) (cid : BitVec 16) (img : Dma Image) (s : State) : Host.Outcome State Fault Refusal :=
  s.run fun s => s.hostCmd rs.val cid.toNat 14 fun c s =>
    let n := rs.val
    if c.misaligned then s.complete n cid.toNat 4 0
    else if s.svc ≠ svcFull then s.complete n cid.toNat 6 0
    else match img with
      | .failed => s.complete n cid.toNat 7 0
      | .data i =>
        if wordAt i.words 0 = blobMagic then s.installBlob n cid.toNat i.words
        else if 1 ≤ s.rd .fwcUpdStage && s.rd .fwcUpdStage ≤ 7 then s.complete n cid.toNat 0 (s.rd .fwcUpdNum + 2 ^ 63)
        else
          let num := (s.rd .fwcUpdNum + 1) % 256
          let slot := 1 - s.sel.act
          let s1 := { s with upd := { words := i.words, slot, oldHall := s.active, accepted := false, swapAt := 0, quiet := false } }
          let s2 := ((s1.program (3 + slot) []).wr .fwcUpdNum num).wr .fwcUpdFailc 0
          (s2.setStage 1).complete n cid.toNat 0 num

/-- UPDATE_DOWNLOAD_DONE: the copy has been read back, or the flash failed (R338, R345). -/
def execUpdateDownloadDone (ok : Bool) (s : State) : Host.Outcome State Fault Refusal :=
  s.run fun s =>
    if s.rd .fwcUpdStage ≠ 1 then s
    else if ok then (s.program (3 + s.upd.slot) s.upd.words).setStage 2
    else (s.failUpdate 2).raise (corr 19 3 (unitOf (40 + s.active) 0) 2)

/-- UPDATE_VERIFY_DONE: the slot is checked as R329 has it, and the standby restarts on it; it counts as ready meanwhile (R338, R339). -/
def execUpdateVerifyDone (s : State) : Host.Outcome State Fault Refusal :=
  s.run fun s =>
    if s.rd .fwcUpdStage ≠ 2 then s
    else if s.slotValid s.upd.slot then ((s.stopHall (1 - s.active)).updHall (1 - s.active) fun x => { x with slot := s.upd.slot }).setStage 3
    else s.failUpdate 1

/-- STANDBY_LOADED: the standby runs the new image; the active firmware quiesces, which abandons ageing measurements, and writes the handover
record (R340). Statements of the interval are marked UPDATE (R76). -/
def execStandbyLoaded (s : State) : Host.Outcome State Fault Refusal :=
  s.run fun s =>
    if s.rd .fwcUpdStage ≠ 3 then s
    else
      let s1 := s.startHall (1 - s.active) s.upd.slot
      let s2 := s1.each ((upto 40).filter fun d => (s1.ageDie d).measuring || (s1.ageDie d).planning) State.releaseAge
      let s3 := s2.each s2.partsInForce fun s p => s.updPart p fun x => { x with flags := x.flags ||| 4 }
      { s3 with upd := { s3.upd with quiet := true } }.setStage 4

/-- The new image reads the record format that the old one writes (R328, R340). -/
def State.formatRead (s : State) : Bool :=
  let fmt := imgHomax (s.region (3 + (s.hall s.active).slot))
  decide (imgHomin (s.region (3 + s.upd.slot)) ≤ fmt) && decide (fmt ≤ imgHomax (s.region (3 + s.upd.slot)))

/-- HANDOVER_REPLY: a record whose format the new image cannot read is refused whatever else the standby finds (R340, R341). -/
def execHandoverReply (accept : Bool) (s : State) : Host.Outcome State Fault Refusal :=
  s.run fun s =>
    if s.rd .fwcUpdStage ≠ 4 || s.upd.accepted then s
    else if accept && s.formatRead then { s with upd := { s.upd with accepted := true, swapAt := ceilTo 250 (s.now + 1000) } }
    else s.failUpdate 3

/-- UPDATE_SWAP: at B_s the roles swap, and the old Hall is the ready standby (R341). -/
def execUpdateSwap (s : State) : Host.Outcome State Fault Refusal :=
  s.run fun s =>
    if s.rd .fwcUpdStage ≠ 4 || !s.upd.accepted then s
    else
      let s1 := (s.advanceTo s.upd.swapAt).takeRole 3
      { s1 with upd := { s1.upd with quiet := false } }.setStage 5

/-- TAKEOVER_COMPLETE: LOADOLD begins, and the old Hall's control complex restarts (R342). Its first Hearth run lies at least 1 ms after
B_s. -/
def execTakeoverComplete (s : State) : Host.Outcome State Fault Refusal :=
  s.run fun s =>
    if s.rd .fwcUpdStage ≠ 5 then s
    else ((s.stopHall (1 - s.active)).updHall (1 - s.active) fun x => { x with slot := s.upd.slot }).setStage 6

/-- TAKEOVER_DEADLINE: B_s + 10 ms has come, the new firmware stops its watchdog, and the old Hall takes the role back (R342). -/
def execTakeoverDeadline (s : State) : Host.Outcome State Fault Refusal :=
  s.run fun s =>
    if s.rd .fwcUpdStage ≠ 5 then s
    else
      let s1 := (s.advanceTo (s.upd.swapAt + 10000000)).raise (corr 16 4 (unitOf (40 + s.active) 0) 0)
      ((s1.advanceTo s1.nextGrant).takeRole 2).failUpdate 4

/-- OLD_HALL_RELOADED: both Halls run the new slot, and the selector is written for three trials (R338). -/
def execOldHallReloaded (s : State) : Host.Outcome State Fault Refusal :=
  s.run fun s =>
    if s.rd .fwcUpdStage ≠ 6 then s
    else
      let s1 := s.startHall (1 - s.active) s.upd.slot
      (s1.writeSel { seq := 0, act := s.upd.slot, prev := 1 - s.upd.slot, trial := 3, confirmed := false }).setStage 7

/-- UPDATE_CONFIRM: the selector is confirmed, and the fuses take the image's security version where that is higher (R343). -/
def State.confirmUpdate (s : State) : State :=
  if s.rd .fwcUpdStage ≠ 7 then s
  else
    let s1 := s.writeSel { s.sel with confirmed := true }
    (s1.wr .fwcBootSvnf (max (s1.rd .fwcBootSvnf) (imgSvn (s1.region (3 + s1.sel.act))))).setStage 8

def execUpdateConfirm (_port : Port) (s : State) : Host.Outcome State Fault Refusal := s.run State.confirmUpdate

/-- UPDATE_ABORT: in stages 1 to 4 (R343). -/
def State.abortUpdate (s : State) : State := if s.updating then s.failUpdate 6 else s

def execUpdateAbort (_port : Port) (s : State) : Host.Outcome State Fault Refusal := s.run State.abortUpdate

end Sys2Proof.Machine
end

