-- ==== Sys2Proof/Machine/Startup.lean ====
section
/-!
DEFINITION. Sys2Proof/Machine/Startup.lean: start-up and calibration, the I3C port's commands, the heartbeats, and the orderly shutdown (R25,
R371 to R385).
-/
namespace Sys2Proof.Machine

def State.updStart (s : State) (f : StartState → StartState) : State := { s with start := f s.start }

/-! ## Rail groups (R372) -/

/-- The rails of a group, 1 to 4 (R372). -/
def groupRails (g : Nat) : List Nat :=
  (upto 60).filter fun r =>
    match railType r with
    | some .vhub | some .vhost | some .vphy => g = 1
    | some .vfab => g = 2
    | some .vmem => g = 3
    | some .vcmp => g = 4
    | none => false

/-- A rail whose start failed: in HICCUP or LATCHED, or back in OFF with EN still set (R371, R372; assumption log 60). -/
def State.startFailed (s : State) (r : Nat) : Bool :=
  s.railSt r = railHiccup || s.railSt r = railLatched || (s.railSt r = railOff && s.flag .rgcCfgEn r)

/-- A rail's start has ended (R371). -/
def State.startEnded (s : State) (r : Nat) : Bool := !s.flag .rgcCfgEn r || s.railSt r = railReg || s.startFailed r

/-- The rails of a group hold up the next one no longer (R372). -/
def State.groupReady (s : State) (g : Nat) : Bool := (groupRails g).all fun r => s.flag .rgcStatusVready r || s.startFailed r

/-- RAIL_GROUP_START: the next group's rails are enabled once every rail of the one before has VREADY (R372). -/
def execRailGroupStart (s : State) : Host.Outcome State Fault Refusal :=
  s.run fun s =>
    let g := s.start.group
    if s.svc ≠ svcCold || !s.ccUp || !s.flag .govTmctlRailgo || s.start.draining || s.start.stopping || 4 ≤ g ||
        !(g = 0 || s.groupReady g) || (groupRails (g + 1)).any (fun r => s.railSt r = railDown) then s
    else
      ((s.updStart fun x => { x with group := g + 1 }).each (groupRails (g + 1)) fun s r => s.wr .rgcCfgEn 1 r).each
        (groupRails (g + 1)) State.startRail

/-- The rails of every group started stop, and the groups begin again with the first (R384). -/
def State.stopGroups (s : State) : State :=
  let rs := (upto s.start.group).flatMap fun g => groupRails (g + 1)
  (s.each rs State.disableRail).updStart fun x => { x with group := 0 }

/-! ## Service states (R12, R371 to R374) -/

/-- The conditions of COLD to FLOOR (R371). -/
def State.floorReady (s : State) : Bool :=
  s.ccUp && s.flag .govTmctlRailgo && decide (s.start.group = 4) && !s.start.draining && !s.start.stopping &&
    (upto 60).all s.startEnded && (upto 32).all fun d => !s.dieFed d || !(s.die d).inReset

/-- FLOOR entered: every compute die at ÷16 and 0.75 V (R12, R89). -/
def State.enterFloorState (s : State) : State :=
  (s.setSvc svcFloor).each (upto 32) fun s d => (s.each (branchesOf d) fun s k => s.setBranch k 0x100).followVf d

/-- The reference is a STABLE crystal, or a trimmed internal oscillator (R133, R371). -/
def State.refReady (s : State) : Bool :=
  let r := s.rd .clkSrcRefsel
  if r < 2 then decide (s.xtal r = xtalStable) else s.flag .clkOsctrimTrimmed

/-- CALIBRATING entered: droop detection stands enabled, targets held while in FLOOR come into force, and the first step starts (R89, R155, R373). -/
def State.enterCalibrating (s : State) : State :=
  let s1 := ((s.setSvc svcCalibrating).takeVids).each (upto 40) fun s d => s.wr .dagDrpcfgEn 1 d
  s1.updStart fun x => { x with calAt := s1.now, step := 1, waitOver := false }

/-- FULL entered: a missing standby is reported (R295, R374). -/
def State.enterFull (s : State) : State :=
  let s1 := s.setSvc svcFull
  let s2 := s1.updStart fun x => { x with fullAt := some (x.fullAt.getD (s1.rd .fltAonns)) }
  if s2.flag .govHallStbyrdy then s2 else s2.noStandby

/-- STATE_ADVANCE: at a fast-period boundary (R371, R374). -/
def execStateAdvance (s : State) : Host.Outcome State Fault Refusal :=
  s.run fun s =>
    let t := ceilTo 250 s.now
    if s.svc = svcCold && s.floorReady then (s.advanceTo t).enterFloorState
    else if s.svc = svcFloor && s.refReady then (s.advanceTo t).enterCalibrating
    else if s.svc = svcCalibrating && s.start.step = 6 && s.waitBits = 0 then (s.advanceTo t).enterFull
    else s

/-! ## Calibration (R88, R155, R217, R373) -/

/-- Step 1: the coefficients found for a rail go through its shadow set (R88). -/
def State.tuneRail (s : State) (f : RailFound) : State :=
  (s.updRail f.rail.val fun x => { x with shadow := ((f.coefs.map BitVec.toNat) ++ [0, 0, 0, 0, 0, 0, 0]).take 7 }).commitComp f.rail.val

/-- Step 3: each sensor's offset brings it to the mean of its node; one that would need more than 2 °C is suspect with no offset (R217;
assumption log 61). -/
def State.trimSensors (s : State) (d : Nat) : State :=
  let live := (upto (dieSensors d)).filter fun i => !s.sensorOut d i
  s.each live fun a i =>
    let peers := (live.filter fun k => sensorNode d k = sensorNode d i).map fun k => (s.sensorT d k : Rat)
    let o := roundFree 31 (sumRat peers / (peers.length : Rat) - ((s.sensorT d i - toSigned 8 (s.rd .dagTsOffs d i) : Int) : Rat))
    if o.natAbs ≤ 32 then a.wr .dagTsOffs (ofSigned 8 o) d i else (a.wr .dagTsOffs 0 d i).suspect d i

/-- What a step leaves on the dies that it finished. -/
def State.calWork (s : State) (r : StepResult) : State :=
  let done := r.dies.filter fun f => !r.missed.contains f.die
  match s.start.step with
  | 1 => s.each r.rails State.tuneRail
  | 2 => s.each done fun s f => s.applyFound { f with coefs := [], leak := [], memlk := none, ffgain := none }
  | 3 => s.each ((upto 40).filter fun d => (s.die d).powered && !r.missed.any fun m => m.val = d) State.trimSensors
  | 4 => s.each done fun s f => s.applyFound { f with dets := [] }
  | 5 => s.each ((upto 40).filter fun d => (s.ageDie d).measuring || (s.ageDie d).planning) State.releaseAge
  | _ => s

/-- CALIBRATION_STEP_END: a step that overran raises one CORRECTED fault, whose source and detail the spec does not give (R373; assumption log
62). -/
def execCalibrationStepEnd (r : StepResult) (s : State) : Host.Outcome State Fault Refusal :=
  s.run fun s =>
    if s.svc = svcCalibrating && decide (1 ≤ s.start.step) && decide (s.start.step ≤ 5) then
      let s1 := (s.calWork r).updStart fun x => { x with step := x.step + 1 }
      if r.missed.isEmpty then s1
      else (s1.useFree).raise (corr (1 + s1.freeNat 16 % 21) (s1.freeNat 24 / 2 ^ 16) (unitOf (40 + s1.active) 0) 0)
    else s

/-- CALIBRATING_WAIT_EXPIRY: 2 s in CALIBRATING (R374). -/
def execCalibratingWaitExpiry (s : State) : Host.Outcome State Fault Refusal :=
  s.run fun s =>
    if s.svc = svcCalibrating then
      (s.advanceTo (s.start.calAt + 2000000000)).updStart fun x => { x with waitOver := true }
    else s

/-! ## Common command codes of the I3C port (R375) -/

def State.updI3c (s : State) (f : I3cState → I3cState) : State := { s with i3c := f s.i3c }

/-- A dynamic address taken or given up, as GOV.TMSTAT shows it. -/
def State.setDa (s : State) (da : Nat) : State :=
  (s.wr .govTmstatDa da).updI3c fun x => { x with da := if da = 0 then none else some da }

/-- ENTDAA: a port that has an address takes no part. -/
def execEntdaa (da : BitVec 7) (s : State) : Host.Outcome State Fault Refusal :=
  s.run fun s => if s.i3c.da.isNone then s.setDa da.toNat else s

def execRstdaa (s : State) : Host.Outcome State Fault Refusal := s.run fun s => s.setDa 0

/-- SETNEWDA: addressed to the port, so that it needs an address. -/
def execSetnewda (da : BitVec 7) (s : State) : Host.Outcome State Fault Refusal :=
  s.run fun s => if s.i3c.da.isSome && decide (da.toNat ≠ 0) then s.setDa da.toNat else s

def execEnec (s : State) : Host.Outcome State Fault Refusal := s.run fun s => s.updI3c fun x => { x with ibiEn := true }

def execDisec (s : State) : Host.Outcome State Fault Refusal := s.run fun s => s.updI3c fun x => { x with ibiEn := false }

/-- The bytes with which the port answers a command addressed to it; without an address it answers none. -/
def State.answer (s : State) (l : List Nat) : State := s.updI3c fun x => { x with reply := if x.da.isSome then l else [] }

/-- The provisional ID: bits 47 to 33 are 0x2C31, bit 32 marks a random value, bits 31 to 0 are the low half of CHN.NODEID. -/
def State.pid (s : State) : Nat := s.rd .chnNodeidId % 2 ^ 32 + 2 ^ 32 + 2 ^ 33 * 0x2C31

/-- GETPID: six bytes, most significant first. -/
def execGetpid (s : State) : Host.Outcome State Fault Refusal := s.run fun s => s.answer (leBytes 6 s.pid).reverse

def execGetbcr (s : State) : Host.Outcome State Fault Refusal := s.run fun s => s.answer [0x06]

def execGetdcr (s : State) : Host.Outcome State Fault Refusal := s.run fun s => s.answer [0x00]

/-- GETSTATUS: two bytes whose value the spec does not give (assumption log 63). -/
def execGetstatus (s : State) : Host.Outcome State Fault Refusal :=
  s.run fun s => (s.answer (leBytes 2 (s.freeNat 16)).reverse).useFree

def execGetmwl (s : State) : Host.Outcome State Fault Refusal := s.run fun s => s.answer [0, 64]

def execGetmrl (s : State) : Host.Outcome State Fault Refusal := s.run fun s => s.answer [0, 64]

/-- Whether the cause of an in-band interrupt stands (R377). -/
def State.ibiStands (s : State) (b : Nat) : Bool :=
  if b = 1 then s.flag .hifMbStatFull 0 3
  else if b = 2 then !s.flag .hifMbStatFull 0 2
  else s.flag .hifMbStatAborted 0 2 || s.flag .hifMbStatPerr 0 2

/-- IBI_RETRY: 1 ms after the last one went unacknowledged (R377). -/
def execIbiRetry (s : State) : Host.Outcome State Fault Refusal :=
  s.run fun s =>
    match s.i3c.ibiLast with
    | some b => if s.i3c.ibiEn && s.ibiStands b then (s.advanceTo (s.i3c.ibiAt + 1000000)).raiseIbi b else s
    | none => s

/-! ## Heartbeats (R25, R378 to R380) -/

/-- TM_HEARTBEAT_EDGE: interval nanoseconds after the edge before it (R378). -/
def execTmHeartbeatEdge (interval : Nat) (s : State) : Host.Outcome State Fault Refusal :=
  s.run fun s =>
    let t := match s.start.lastEdge with | some l => l + interval | none => s.now
    let ok := s.start.lastEdge.isSome && decide (250000 ≤ interval) && decide (interval ≤ 2000000)
    let s1 := s.advanceTo t
    s1.updStart fun x => { x with edges := if ok then min 16 (x.edges + 1) else 0, lastEdge := some s1.now }

/-- TM_HEARTBEAT_PRESENT: 16 valid intervals; a floor state forced by its loss is released (R378, R380). -/
def execTmHeartbeatPresent (s : State) : Host.Outcome State Fault Refusal :=
  s.run fun s =>
    if s.start.edges < 16 || s.flag .govTmhbPresent then s
    else
      ((s.puts [(⟨.govTmhbPresent, 0, 0⟩, 1), (⟨.govTmhbSeen, 0, 0⟩, 1)]).updStart fun x => { x with lost := false }).releaseFloor
        fun f => { f with held8 := false }

/-- HELD entered: what must not rise while it lasts is noted (R34, R228, R247). -/
def State.enterHeld (s : State) : State :=
  let s1 := { s with lim := { s.lim with heldElec := some s.lim.elec, heldTherm := some s.lim.therm, heldBand := s.lim.band }
                     chain := { s.chain with heldHold := some s.holding } }
  let s2 := s1.each (upto 32) fun s d => s.updHd d fun x =>
    match x.lastGrant with
    | some g => { x with heldG := g.g, heldSb := g.sb }
    | none => x
  (s2.each (upto 40) fun s d => s.updHearthDie d fun x => { x with heldTerm := s.rd .hrtDieTerm 0 d }).showHold

/-- TM_HEARTBEAT_LOST: 500 ms since the last edge; FULL gives way to HELD, beneath STEWARD too (R378, R379). -/
def execTmHeartbeatLost (s : State) : Host.Outcome State Fault Refusal :=
  s.run fun s =>
    if !s.flag .govTmhbPresent then s
    else
      let s1 := ((s.advanceTo (s.start.lastEdge.getD s.now + 500000000)).wr .govTmhbPresent 0).updStart fun x => { x with edges := 0, lost := true }
      let s2 := if s1.baseSvc = svcFull then s1.enterHeld else s1
      let s3 := if s1.svc = svcFull then s2.setSvc svcHeld
        else if s1.baseSvc = svcFull then { s2 with svcUnder := svcHeld } else s2
      s3.raise (corr 20 1 (unitOf (40 + s.active) 0) 0)

/-- HELD_8S: 8 s since the last edge (R379). -/
def execHeld8s (s : State) : Host.Outcome State Fault Refusal :=
  s.run fun s =>
    if !s.start.lost || s.flag .govTmhbPresent || s.force.held8 then s
    else
      (((s.advanceTo (s.start.lastEdge.getD s.now + 8000000000)).forceFloor fun f => { f with held8 := true }).raise
        (corr 20 2 (unitOf (40 + s.active) 0) 0)).noticeAll 5 0

/-- GOV_HEARTBEAT_TOGGLE (R25). -/
def execGovHeartbeatToggle (s : State) : Host.Outcome State Fault Refusal :=
  s.run fun s =>
    if !s.ccUp || s.svc = svcFailsafe then s
    else
      let s1 := s.advanceTo (s.start.hbAt + 500000)
      { s1 with pins := { s1.pins with govHeartbeat := !s.pins.govHeartbeat }, start := { s1.start with hbAt := s1.now } }

/-! ## Shutdown (R385) -/

/-- A FINAL statement for a bound partition, whose binding is cleared (R67, R69, R385). -/
def State.endBinding (s : State) (p : Nat) : State :=
  ((s.stmtDue .final p).each (s.diesOf p) State.closeBlock).wr .alcPartBindValid 0 0 p

/-- SHUT written 1: the statements, and the grain drain begins (R385). -/
def State.beginShutdown (s : State) : State :=
  if s.start.draining || s.start.stopping then s
  else
    (s.each s.partsInForce State.endBinding).updStart fun x => { x with shutAt := s.now, draining := true }

/-- A write of GOV.TMCTL: from the I3C port or the control complex (R11, R372, R384, R386). -/
def State.tmctlWrite (s : State) (p : Port) (v : Nat) : State :=
  if p.isHost then s
  else
    let s1 := (s.wr .govTmctlRailgo (v % 2)).wr .govTmctlShut (v / 2 % 2)
    let s2 := if v % 2 = 0 && s.svc = svcCold then s1.stopGroups else s1
    if v / 2 % 2 = 1 then s2.beginShutdown else s2

/-- SHUTDOWN: the word written to GOV.TMCTL (R385). -/
def execShutdown (port : Port) (val : Word) (s : State) : Host.Outcome State Fault Refusal :=
  s.run fun s => s.tmctlWrite port val.toNat

/-- SHUTDOWN_DRAIN_END: the holding equals the home, or DRAINMS has passed: PASSIVE, the floor state, and OPTIME saved (R385). -/
def execShutdownDrainEnd (s : State) : Host.Outcome State Fault Refusal :=
  s.run fun s =>
    if !s.start.draining then s
    else
      let s1 := if s.holding = s.chainHome then s else s.advanceTo (s.start.shutAt + 1000000 * max 1 (s.rd .govShutDrainms))
      let s2 := (s1.forceFloor fun f => { f with shutdown := true }).updStart fun x => { x with draining := false, stopping := true }
      { s2 with flash := { s2.flash with optime := s2.opSec } }

/-- A rail that has stopped: in OFF, or where it stays for good (R385; assumption log 64). -/
def State.railStopped (s : State) (r : Nat) : Bool :=
  s.railSt r = railOff || s.railSt r = railLatched || s.railSt r = railShort

/-- The end of the shutdown: SHUTDONE, the bypass closed, COLD (R282, R385). -/
def State.endShutdown (s : State) : State :=
  let s1 := ((s.wr .govTmstatShutdone 1).chainOut).updChain fun c => { c with listening := false, joined := false }
  let s2 := s1.updStart fun x => { x with stopped := 5 }
  if s2.svc = svcFailsafe then s2 else s2.setSvc svcCold

/-- SHUTDOWN_RAIL_GROUP_STOP: the groups stop in reverse, each when the rails of the one before are in OFF (R385). -/
def execShutdownRailGroupStop (s : State) : Host.Outcome State Fault Refusal :=
  s.run fun s =>
    let k := s.start.stopped
    if !s.start.stopping || 5 ≤ k || (decide (0 < k) && !(groupRails (5 - k)).all s.railStopped) then s
    else if k = 4 then s.endShutdown
    else (s.each (groupRails (4 - k)) State.disableRail).updStart fun x => { x with stopped := k + 1 }

end Sys2Proof.Machine
end

