-- ==== Sys2Proof/Machine/Recovery.lean ====
section
/-!
DEFINITION. Sys2Proof/Machine/Recovery.lean: warm resets, the always-on supply, and die agents that are cycled, restart and are admitted (R8,
R9, R15, R16, R57, R74, R282, R288, R289, R305, R320, R371).
-/
namespace Sys2Proof.Machine

/-! ## Registers of a block at reset -/

/-- Every element of a field of one instance at its reset value. -/
def State.resetField (s : State) (f : Field) (i : Nat) : State :=
  s.each (upto (fieldDef f).count) fun s j => s.resetReg ⟨f, i, j⟩

/-- The instances of a field that belong to instance i of its block: itself, or every port's own (R389). -/
def fieldInsts (f : Field) (i : Nat) : List Nat := if f.perPort then [0, 1, 2, 3] else [i]

/-- The fields of a block instance that satisfy a test at their reset values. -/
def State.resetBlock (s : State) (b : Blk) (i : Nat) (p : Field → Bool) : State :=
  s.each ((blkFields b).filter p) fun s f => s.each (fieldInsts f i) fun s k => s.resetField f k

/-- A warm reset clears a field: RW, RW1C and RC (R9). -/
def clearedWarm (f : Field) : Bool :=
  match (fieldDef f).kind with
  | .rw | .rw1c | .rc => true
  | _ => false

/-! ## Warm resets (R9) -/

/-- A port after a reset of its die: no read latch and no held lower half (R6). -/
def State.clearPort (s : State) (p : Port) : State := s.updPort p fun _ => PortState.init

/-- A host die reset: the ring sets on its port lose EN, MB1 is cleared where it receives it, and the port's latches and MSI-X structures are
as after reset (R6, R305, R320; assumption log 66). -/
def State.resetHost (s : State) (h : Nat) : State :=
  let ns := (upto 16).filter fun n => s.rd .hifRsCtrlPort 0 n = h
  let s1 := s.each ns fun s n =>
    let s1 := s.wr .hifRsCtrlEn 0 0 n
    if s.rd .hifRsStatState 0 n = 1 || s.rd .hifRsStatState 0 n = 2 then s1.wr .hifRsStatState 3 0 n else s1
  let s2 := if s.rd .hifCfgMbport = h then s1.mailboxAbort 1 else s1
  (s2.clearPort (hostPort h)).updMsix (hostPort h) fun _ => MsixState.init

/-- A control complex reset: it stops; that of the active Hall receives MB0 and MB2, and the block of the control complex is reset with it
(R9, R320, R346; assumption log 66). -/
def State.resetControl (s : State) (h : Nat) : State :=
  if h = s.active then
    let s1 := ((s.mailboxAbort 0).mailboxAbort 2).resetBlock .fwc 0 clearedWarm
    (s1.clearPort .cc).stopHall h
  else (s.stopHall h).noStandby

/-- A compute die reset; it stays held while a rail that feeds it is not in REG (R9, R101, R391). -/
def State.resetCompute (s : State) (d : Nat) : State := (s.enterReset d).updDie d fun x => { x with inReset := !s.dieFed d }

/-- WARM_RESET (R9). -/
def execWarmReset (dom : ResetDomain) (s : State) : Host.Outcome State Fault Refusal :=
  s.run fun s =>
    match dom with
    | .control h => s.resetControl h.val
    | .host h => s.resetHost h.val
    | .compute d => s.resetCompute d.val

/-! ## The always-on supply (R8, R22, R282, R371) -/

/-- Register elements whose values the flash or the fuses keep: what ageing has raised and when, and the fused security version (R264, R266,
R343). -/
def keptOff (e : FieldRef × Nat) : Bool :=
  match e.1.f with
  | .ageDieRaise | .ageDieLastplan | .fwcBootSvnf => true
  | _ => false

/-- An unpowered package: every field at its reset value, the limits and latches included; the flash, the fuses and the balls that others
drive are as they were, GOV_ERR reads 00, and fabric time runs on (R3, R8, R282, R286). -/
def State.dark (s : State) : State :=
  { State.reset with
    aon := false, now := s.now, period := s.period, free := s.free, pending := s.pending
    regs := Store.seal FieldRef.lt FieldRef.reset (s.regs.filter keptOff)
    pins := { State.reset.pins with powerAlertN := s.pins.powerAlertN, throttleN := s.pins.throttleN, govErrN := false }
    age := { AgeState.init with dies := s.age.dies.map fun e => (e.1, { e.2 with measuring := false, planning := false }) }
    flash := s.flash
    attic := { AtticState.init with flash := s.attic.flash, seq := s.attic.seq } }

/-- AON_REMOVED: a fall of AON_PWRGD counts as removal (R22, R282). -/
def execAonRemoved (s : State) : Host.Outcome State Fault Refusal := .next (if s.aon then s.dark else s)

/-- The supply applied: COLD, crystals and the Hearth count from now, and the balls of the commanders are seen (R21, R129, R371). -/
def State.light (s : State) : State :=
  let s1 := { s with
    aon := true
    pins := { s.pins with govErrN := true }
    clock := { s.clock with start0 := s.now, start1 := s.now }
    hearth := { s.hearth with ms := s.now / 1000000 }
    start := { s.start with hbAt := s.now }
    lim := { s.lim with throttle := !s.pins.throttleN } }
  s.commit (if s.pins.powerAlertN then s1 else s1.forceFloor fun f => { f with alert := true })

/-- POWER_ON: AON_PWRGD rises (R371). -/
def execPowerOn (s : State) : Host.Outcome State Fault Refusal := .next (if s.aon then s else s.light)

/-! ## What the Hall fills in for a die agent that is cut (R74) -/

/-- Whole fast periods, and the part of one, since the last report of a die. -/
def State.gapPeriods (s : State) (d : Nat) : Nat := s.period - (s.hd d).lastRepPeriod + bit (decide (s.lastB < s.now))

/-- The newest report received of a die, in time or late (R20, R74). -/
def HallDie.newest (x : HallDie) : Option Report :=
  match x.rep, x.late with
  | some a, some b => if a.period < b.period then some b else some a
  | some a, none => some a
  | none, b => b

/-- The energy estimated for the interval since the last report: its period energy for each period (R74). -/
def State.gapEstimate (s : State) (d : Nat) : Nat :=
  match (s.hd d).newest with
  | some r => if r.gen = (s.die d).gen then r.energy * s.gapPeriods d else 0
  | none => 0

/-- DIERESET for a partition's interval that holds a period, whether it still runs or awaits delivery (R71, R74). -/
def State.noteDieReset (s : State) (p k : Nat) : State :=
  if (s.ring p).stmts.any fun st => st.part = p && st.holds k then
    s.updRing p fun x => { x with stmts := x.stmts.map fun st => if st.part = p && st.holds k then { st with flags := st.flags ||| 2 } else st }
  else s.updPart p fun x => { x with flags := x.flags ||| 2 }

/-- The partitions that a die's energy of a period concerns: its own, or for dies 32 to 39 every one with members (R59, R62). -/
def State.concerned (s : State) (d k : Nat) : List Nat :=
  if d < 32 then (s.partIn d k).toList else (upto 16).filter fun p => (s.membersIn p k).getD 0 ≠ 0

/-- The estimate entered in the accounts, and the statements of every partition concerned marked DIERESET (R71, R74). -/
def State.fillGap (s : State) (d : Nat) : State :=
  let n := s.gapPeriods d
  let k := (s.hd d).lastRepPeriod + 1
  (s.gapEnergy d (s.gapEstimate d) 0 n k).each ((upto n).map (k + ·)) fun s k => s.each (s.concerned d k) fun s p => s.noteDieReset p k

/-- An energy put into the idle account of the partition that a die belonged to in each period; n periods remain, the first is k. The accounts
have it already, as energy (R63, R74). -/
def State.idleGap (s : State) (d e : Nat) : Nat → Nat → State
  | 0, _ => s
  | n + 1, k =>
    let part := e / (n + 1)
    let s1 := match s.partIn d k with
      | some p => s.countEnergyAt p k .idle part
      | none => s
    s1.idleGap d (e - part) n (k + 1)

/-- The 512 accumulators of a compute die as the Hall restores them: the checkpoint, and the energy since in proportion to what each gained in
the last complete interval; with none, that energy goes to the idle account. What the reports since have put into the idle account already
stays there, so that the partition's parts add up to it (R63, R74). -/
def State.restoreQueues (s : State) (d : Nat) : State :=
  let h := s.hd d
  let e := h.lastCum + s.gapEstimate d - h.ckptCum - (h.lastIdle - h.ckptIdle)
  let gain := h.ckptGain.filter fun x => x.2 ≠ 0
  let total := gain.foldl (fun n x => n + x.2) 0
  let s1 := s.each (upto 512) fun s q => s.wr .qeaEnergy (Store.get (fun _ => 0) h.ckpt q) (d * 512 + q)
  let s2 := if total = 0 then s1.idleGap d e (s.period - h.ckptPeriod) (h.ckptPeriod + 1)
    else s1.each (divideBy e gain total 0 0) fun s x => s.accrue ⟨.qeaEnergy, d * 512 + x.1, 0⟩ x.2
  let now := s2.accumulators d
  s2.updHd d fun x => { x with ckpt := now, ckptCum := 0, ckptIdle := 0, ckptPeriod := s.period }

/-! ## The copies (R57, R153, R218, R274, R289) -/

/-- The fields of a die agent that the Hall keeps copies of. -/
def copiedFields : List Field :=
  [.dagEgainGown, .dagEgainGmem, .dagEcoefCoef, .dagEleakLo, .dagEleakHi, .dagEmemlkMemlk, .dagVfLo, .dagVfHi, .dagDrpchrClo, .dagDrpchrChi,
   .dagDrptcTcal, .dagDrptcTco, .dagDrpretRet, .dagDrpstatRetcnt, .dagTsOffs, .dagTsRetired]

/-- What the copied fields of a die agent hold. -/
def State.copyOfDie (s : State) (d : Nat) : List (FieldRef × Nat) :=
  copiedFields.flatMap fun f => (upto (fieldDef f).count).map fun j => (⟨f, d, j⟩, s.rd f d j)

/-! ## Power of an island (R15, R97, R288) -/

/-- The rails that a die owns (R14). -/
def railsOwned (d : Nat) : List Nat := (upto 60).filter fun r => railOwner r = some d

/-- A die agent's island loses its power: its rails are off, but for those that stay LATCHED or SHORT until the supply itself is removed; the dies
they feed are held in reset; the die's PLL is neither locked nor in holdover; the Hall settles the accounts and keeps the copies, and grants are
reclaimed (R15, R74, R92, R97, R103, R135, R289). -/
def State.cutIsland (s : State) (d : Nat) : State :=
  let copy := s.copyOfDie d
  let s1 := s.fillGap d
  let s2 := if d < 32 then s1.restoreQueues d else s1
  let s3 := s2.each ((railsOwned d).filter fun r => !(s.railSt r = railLatched || s.railSt r = railShort)) fun s r =>
    (((s.leaveReg r).railQuiet r railOff).each (fedDies r) State.holdReset)
  let s4 := ((s3.setBit .clkLock d false).setBit .clkHold d false).setExcl d 1 false
  (s4.updDie d fun x => { x with powered := false, steward := false }).updHd d fun x =>
    { x with admitted := false, rep := none, late := none, fresh := false, lane := [], lastGrant := none, silent := 0, cutAt := some s.now
             copy := if x.copy.isEmpty then copy else x.copy }

/-- A compute die's branches and rail at the FLOOR settings (R16). -/
def State.floorSettings (s : State) (d : Nat) : State :=
  let s1 := s.each (branchesOf d) fun s k =>
    s.puts [(⟨.clkCbrTgt, 0, k⟩, 0x100), (⟨.clkCbrCur, 0, k⟩, if s.floorOn || s.holdover d then 0x200 else 0x100), (⟨.clkCbrGdep, 0, k⟩, 0)]
  ((s1.showDomain d).wr .clkDomTgt 0x100 0 d).setVid d 1500

/-- An island's power is back: the die agent comes up at the next generation with its registers at reset but for those a reset keeps, its die at
the FLOOR settings, and its enabled rails enter CHECK (R9, R16, R95, R97). -/
def State.restartAgent (s : State) (d : Nat) : State :=
  if (s.die d).powered then s
  else
    let g := ((s.die d).gen + 1) % 16
    let s1 := s.updDie d fun _ => { DieState.fresh g with inReset := decide (d < 32) }
    let s2 := s1.resetBlock .dag d fun f => !f.kept
    let s3 := s2.updHd d fun x => { x with lastCum := 0, lastIdle := 0, lastRepPeriod := s.period, silent := 0, cutAt := none }
    let s4 := if d < 32 then s3.floorSettings d else s3
    s4.each (railsOwned d) State.startRail

/-- DIE_AGENT_RESET (R16). -/
def execDieAgentReset (die : Die) (s : State) : Host.Outcome State Fault Refusal :=
  s.run fun s => s.restartAgent die.val

/-- The clamps of R158 in force again for the domains with too many detectors retired. -/
def State.restoreClamps (s : State) (d : Nat) : State :=
  let ks := (upto (dieDomains d)).filter fun k => decide (s.rd .dagDrpcfgRetmax d < s.retiredIn d k)
  let s1 := s.updDie d fun x => { x with droop := { x.droop with clamped := ks } }
  if ks.isEmpty then s1 else s1.wr .dagDrpstatClamp 1 d

/-- The grant that the Hall would send a die now (R196). -/
def State.firstGrant (s : State) (d : Nat) : Grant :=
  s.grantFor (s.rd .alcPkglimCause) (if s.preChain then [] else s.allocate (s.rd .alcCbud)) d

/-- DIE_ADMIT: after the first report at the new generation, the copies are restored and the first grant goes out; the die's EDIE is read (R75,
R289). -/
def execDieAdmit (die : Die) (s : State) : Host.Outcome State Fault Refusal :=
  s.run fun s =>
    let d := die.val
    let x := s.hd d
    let heard : Bool := match x.newest with | some r => decide (r.gen = (s.die d).gen) | none => false
    if x.admitted || !(s.die d).powered || !heard then s
    else
      let s1 := s.puts x.copy
      let s2 := if x.copy.isEmpty then s1 else (s1.retap d).restoreClamps d
      let s3 := s2.updHd d fun x => { x with admitted := true, gen := (s.die d).gen, copy := [], readEdie := true }
      s3.sendGrant d (s3.firstGrant d)

/-- ISLAND_CYCLE_END: 100 µs after the cut the switch closes; the cycle is an event of the Attic (R288, R362; assumption log 67). -/
def execIslandCycleEnd (die : Die) (s : State) : Host.Outcome State Fault Refusal :=
  s.run fun s =>
    let d := die.val
    match (s.hd d).cutAt with
    | some t => ((s.advanceTo (t + 100000)).event (17 * 256 + 2) 0 (unitOf d 0) (s.partOf d)).restartAgent d
    | none => s

/-- A die agent that no longer answers: both its lanes are retired, or 16 periods have passed without a report (R288). -/
def State.unresponsive (s : State) (d : Nat) : Bool :=
  (s.die d).powered && (decide (16 ≤ (s.hd d).silent) || ((s.hd d).laneOutA && (s.hd d).laneOutB))

/-- AGENT_UNRESPONSIVE, by the kind of the die; where the active Hall's hub die fails, the roles change first (R279, R281, R288). -/
def execAgentUnresponsive (die : Die) (s : State) : Host.Outcome State Fault Refusal :=
  s.run fun s =>
    let d := die.val
    if !s.unresponsive d then s
    else if d < 32 then (s.raiseNow (cont 17 1 (unitOf d 0) .die 3)).cutIsland d
    else if d = 36 || d = 37 then
      let h := d - 36
      let s1 := if h = s.active then
          (if s.flag .govHallStbyrdy then (s.advanceTo s.nextGrant).failover 2 else (s.stopHall h).noStandby.ringSilent)
        else (s.stopHall h).noStandby
      (s1.raise (cont 17 1 (unitOf d 0) .package 3)).cutIsland d
    else s.raise (fatalFault 17 1 (unitOf d 0) 3)

end Sys2Proof.Machine
end

