-- ==== Sys2Proof/Machine/Landing.lean ====
section
/-!
DEFINITION. Sys2Proof/Machine/Landing.lean: how a register write lands: which ports may write a field (R11), its access kind (R7), an update by
hardware in the same cycle (R10), and what the chapters say that a write to one register does beside storing its value.
-/
namespace Sys2Proof.Machine

/-! ## Who may write (R11, R317, R323, R376) -/

/-- Whether a field's access column lets a port write it. The control complex may write every field that host software or the I3C port may
write, and is itself the sender or the receiver of every mailbox (R11, R317). -/
def portMay (p : Port) (r : FieldRef) : Bool :=
  match (fieldDef r.f).port with
  | .any => true
  | .i3c => decide (p = .i3c) || decide (p = .cc)
  | .host => p.isHost || decide (p = .cc)
  | .cc => decide (p = .cc)
  | .sender => mayPost p r.j
  | .receiver => mayRelease p r.j

/-- Whether a port reaches a word of the HIF block: from the I3C port MB2 and MB3 alone, from host all but those (R317, R323, R376). -/
def reaches (p : Port) (b : Blk) (off : Nat) : Bool :=
  let traymb := decide (0x640 ≤ off) && decide (off < 0x680)
  match b, p with
  | .hif, .i3c => traymb
  | .hif, .hx0 | .hif, .hx1 => !traymb
  | _, _ => true

/-! ## The flags of R10 -/

/-- The WRDROP flag of a block. -/
def wrdropOf : Blk → Option Field
  | .gov => some .govStatusWrdrop
  | .hif => some .hifStatusWrdrop
  | .flt => some .fltStatusWrdrop
  | .clk => some .clkStatusWrdrop
  | .alc => some .alcStatusWrdrop
  | .hrt => some .hrtStatusWrdrop
  | .chn => some .chnStatusWrdrop
  | .lrd => some .lrdStatusWrdrop
  | .atc => some .atcStatusWrdrop
  | .obs => some .obsStatusWrdrop
  | .fwc => some .fwcStatusWrdrop
  | .age => some .ageStatusWrdrop
  | .dag => some .dagStatusWrdrop
  | .rgc => some .rgcStatusWrdrop
  | .qea | .view => none

/-- The RAISEREJ flag of a block. -/
def raiserejOf : Blk → Option Field
  | .gov => some .govStatusRaiserej
  | .clk => some .clkStatusRaiserej
  | .alc => some .alcStatusRaiserej
  | .hrt => some .hrtStatusRaiserej
  | .rgc => some .rgcStatusRaiserej
  | _ => none

/-- A flag of the block that holds an element; a block without it sets none. -/
def State.blockFlag (s : State) (of : Blk → Option Field) (r : FieldRef) : State :=
  match of (fieldDef r.f).blk with
  | some f => s.wr f 1 (if r.f.perPort then 0 else r.i)
  | none => s

/-! ## Updates by hardware in the cycle of an access (R10; assumption log 68) -/

/-- Counters of kinds RW and RWS. -/
def isCounter (f : Field) : Bool :=
  match f with
  | .qeaEnergy | .rgcHiccupCount | .fltHallFocnt | .fltFatalc => true
  | _ => false

/-- What an RC field or a counter holds after an update: a peak follows the value measured, a count rises and saturates. -/
def merged (f : Field) (old h : Nat) : Nat :=
  match f with
  | .rgcPeakVhi | .rgcPeakIhi | .rgcPeakPhi => max old h
  | .rgcPeakVlo => min old h
  | .rgcPeakThi => if toSigned 16 old ≤ toSigned 16 h then h else old
  | _ => min (old + h) (2 ^ (fieldDef f).width - 1)

/-- The clock domains of GCLK, whose divisor nothing changes (R137). -/
def isGclk (c : Nat) : Bool := decide (c = 73) || decide (c = 75)

/-- An update by hardware where no write of software lands. -/
def State.hwUpdate (s : State) (r : FieldRef) (hw : Option Nat) : State :=
  match hw with
  | none => s
  | some h =>
    match (fieldDef r.f).kind with
    | .ro | .wo => s
    | .rw1c => s.put r (s.reg r ||| h)
    | .rc => s.put r (merged r.f (s.reg r) h)
    | .rwl => if limitLe r.f h (s.reg r) then s.put r h else s
    | .rw | .rws =>
      if isCounter r.f then s.put r (merged r.f (s.reg r) h)
      else if r.f = .clkDomTgt && isGclk r.j then s
      else s.put r h

/-! ## Lower-only fields (R7, R8) -/

/-- A CCLK branch whose target FMAX no longer allows takes its new target at once (R139, R142). -/
def State.holdFmax (s : State) : State :=
  s.each ((upto 128).filter fun k => (s.legalDiv true (s.rd .clkCbrTgt 0 k)).2.2) fun s k =>
    (s.setBranch k (s.rd .clkCbrTgt 0 k)).followVf (k / 4)

/-- What a lowered limit brings with it: FMAX holds the branches, VMAX a target above it (R89, R142; assumption log 69). -/
def State.limitLanded (s : State) (r : FieldRef) : State :=
  match r.f with
  | .clkLintelFmax => s.holdFmax
  | .rgcVmaxV => if s.rd .rgcVmaxV r.i < s.rd .rgcVidV r.i then s.setVid r.i (s.rd .rgcVidV r.i) else s
  | _ => s

/-- A write to a lower-only field: it lands where it does not raise, and otherwise sets RAISEREJ; with hardware in the same cycle the lower of
two lowerings stands (R7, R10). -/
def State.writeLimit (s : State) (r : FieldRef) (v : Nat) (hw : Option Nat) : State :=
  if limitLe r.f v (s.reg r) then
    (s.put r (match hw with | some x => if limitLe r.f v x then v else x | none => v)).limitLanded r
  else
    (match hw with | some x => (s.put r x).limitLanded r | none => s).blockFlag raiserejOf r

/-! ## Rails (R83, R89, R100, R107) -/

/-- A rail's CFGERR. -/
def State.railCfgErr (s : State) (r : Nat) : State := s.wr .rgcStatusCfgerr 1 r

/-- The slot length and phase count that a rail's next start takes. -/
def State.nextS (s : State) (r : Nat) : Nat := (s.rail r).heldS.getD (s.rd .rgcSlotS r)
def State.nextN (s : State) (r : Nat) : Nat := (s.rail r).heldN.getD (s.rd .rgcCfgPhcnt r)

/-- The switching period P = N × S lies in its range (R83). -/
def periodLegal (n sl : Nat) : Bool := decide (6000 ≤ n * sl) && decide (n * sl ≤ 12000)

/-- SLOT.S written: outside the range of P it is discarded, and unless the rail is in OFF it is held; a read goes on returning the value in force
(R83; DESIGN CHOICE, assumption log 91). -/
def State.slotWrite (s : State) (r v : Nat) : State :=
  if !periodLegal (s.nextN r) v then s.railCfgErr r
  else if s.railSt r = railOff then (s.wr .rgcSlotS v r).updRail r fun x => { x with heldS := none }
  else s.updRail r fun x => { x with heldS := some v }

/-- CFG.PHCNT written: as SLOT.S, and within the wired count (R83, R107). -/
def State.phcntWrite (s : State) (r v : Nat) : State :=
  if v = 0 || decide (railWired r < v) || !periodLegal v (s.nextS r) then s.railCfgErr r
  else if s.railSt r = railOff then (s.wr .rgcCfgPhcnt v r).updRail r fun x => { x with heldN := none }
  else s.updRail r fun x => { x with heldN := some v }

/-- VID.V written by the control complex: in FLOOR the write to a VCMP rail is held (R89). -/
def State.vidWrite (s : State) (r v : Nat) : State :=
  if r < 32 && decide (s.svc = svcFloor) then s.updRail r fun x => { x with heldV := some v } else s.setVid r v

/-- OCP.PHASE written: clamped to the Lintel limit (R100). -/
def State.ocpWrite (s : State) (r v : Nat) : State :=
  let lim := s.rd .rgcOclimPhase r
  if lim < v then (s.wr .rgcOcpPhase lim r).wr .rgcStatusVclamp 1 r else s.wr .rgcOcpPhase v r

/-- A coefficient written to the shadow set (R88). -/
def State.shadowWrite (s : State) (r k v : Nat) : State := s.updRail r fun x => { x with shadow := x.shadow.set k v }

/-- EN written: a rail starts or stops when the bit changes (R93, R97). -/
def State.enWrite (s : State) (r v : Nat) : State :=
  if v = 1 && !s.flag .rgcCfgEn r then (s.wr .rgcCfgEn 1 r).startRail r
  else if v = 0 && s.flag .rgcCfgEn r then s.disableRail r
  else s

/-- CFG.TEST written: a rail that leaves TEST while it switches is checked and started again (R95). -/
def State.testWrite (s : State) (r v : Nat) : State :=
  let s1 := s.wr .rgcCfgTest v r
  if s.flag .rgcCfgTest r && decide (v = 0) && (s.railSt r = railReg || s.railSt r = railRamp) then (s1.leaveReg r).enterCheck r else s1

/-- RGC[r].CFG written as a whole: the other fields land before EN acts (R107). -/
def State.railCfgWrite (s : State) (r v : Nat) : State :=
  if (railType r).isNone then s
  else ((((s.phcntWrite r (v / 2 % 8)).testWrite r (v / 16 % 2)).wr .rgcCfgNoshed (v / 32 % 2) r)).enWrite r (v % 2)

/-! ## Host interface (R304, R358) -/

/-- A configuration write discarded (R304). -/
def State.hifCfgErr (s : State) : State := s.wr .hifStatusCfgerr 1

/-- A ring base or control block written: aligned, and while the ring is not enabled (R304, R358). -/
def State.baseWrite (s : State) (r : FieldRef) (v align : Nat) (on : Bool) : State :=
  if on || decide (v % align ≠ 0) then s.hifCfgErr else s.put r v

/-- RS[n].SIZES written: every size from 4 to 12, while EN is clear (R304). -/
def State.sizesWrite (s : State) (n v : Nat) : State :=
  let k (i : Nat) : Nat := v / 16 ^ i % 16
  if s.flag .hifRsCtrlEn 0 n || !((upto 4).all fun i => ringSizeLegal (k i)) then s.hifCfgErr
  else s.puts [(⟨.hifRsSizesCmd, 0, n⟩, k 0), (⟨.hifRsSizesCpl, 0, n⟩, k 1), (⟨.hifRsSizesTel, 0, n⟩, k 2), (⟨.hifRsSizesStm, 0, n⟩, k 3)]

/-- RS[n].CTRL written (R305). -/
def State.ctrlWrite (s : State) (n v : Nat) : State := if v % 2 = 1 then s.ringEnable n v else s.ringDisable n v

/-- OBS.TRCCFG written: SIZE from 8 to 20, unchanged while EN is set; a ring newly enabled starts at index 0 and pass phase 1 (R302, R304,
R358; assumption log 70). -/
def State.trccfgWrite (s : State) (v : Nat) : State :=
  let on := s.flag .obsTrccfgEn
  let size := v / 2 % 32
  if size < 8 || 20 < size then s.hifCfgErr
  else
    let s1 := if !on then s.wr .obsTrccfgSize size else if size = s.rd .obsTrccfgSize then s else s.hifCfgErr
    let s2 := (s1.wr .obsTrccfgWmark (v / 64 % 2 ^ 20)).wr .obsTrccfgEn (v % 2)
    if !on && decide (v % 2 = 1) then
      { (s2.wr .obsTrcpi 0).wr .obsTrcfull 0 with tring := { ci := 0, phase := true, lastWrite := none } }
    else s2

/-! ## Partition policy and the floor share (R185, R203, R290) -/

/-- A change of two phases asked for by a register write; where four already wait it is discarded (assumption log 30). -/
def State.askChange (s : State) (kind : ChangeKind) (ws : List (FieldRef × Nat)) (dies : List Nat) : State :=
  (s.requestChange (s.mkChange kind ws dies none)).getD s

/-- Partition policy written: by a change of two phases while the partition is in force, at once otherwise (R290). -/
def State.policyWrite (s : State) (p : Nat) (ws : List (FieldRef × Nat)) : State :=
  if s.inForce p then s.askChange (.policy p) ws (s.diesOf p) else s.puts ws

/-! ## Other registers -/

/-- DRPTHR written: DTHR2 above DTHR1, and DTHR1 at least 10 mV (R148). -/
def State.drpthrWrite (s : State) (d v : Nat) : State :=
  let t1 := v % 2 ^ 16
  let t2 := v / 2 ^ 16 % 2 ^ 16
  if t2 ≤ t1 || t1 < 20 then s.wr .dagDrpstatCfgerr 1 d
  else (s.wr .dagDrpthrDthr1 t1 d).wr .dagDrpthrDthr2 t2 d

/-- DRPCFG.EN written: cleared in CALIBRATING alone (R155). -/
def State.drpenWrite (s : State) (d v : Nat) : State :=
  if v = 0 && decide (s.svc ≠ svcCalibrating) then s.wr .dagDrpstatCfgerr 1 d else s.wr .dagDrpcfgEn v d

/-- The targets that no software sets: those of CCLK, which its die agent writes, and of GCLK; a write is discarded without a flag (R137,
R142, R143). -/
def dieAgentTarget (c : Nat) : Bool := decide (c < 32) || isGclk c

/-- ATC.CFG.FREEZE written (R365). -/
def State.atticFreezeWrite (s : State) (v : Nat) : State :=
  if v = 1 then s.atticFreeze else (s.wr .atcCfgFreeze 0).wr .atcStatFrozen 0

/-- FLT.INJ written: DIE and MB land, then each bit set arms its check (R287, R297). -/
def State.injectWrite (s : State) (v : Nat) : State :=
  let d := v / 2 ^ 8 % 64
  let m := v / 2 ^ 14 % 4
  let s1 := (s.wr .fltInjDie d).wr .fltInjMb m
  let b (k : Nat) : Bool := testBit v k
  let x := s.inject
  { s1 with inject :=
    { lard := if b 1 then 2 else if b 0 then 1 else x.lard
      cell := if b 3 then 2 else if b 2 then 1 else x.cell
      lanes := if b 4 && decide (d < 40) then addTo x.lanes d else x.lanes
      mboxes := if b 5 then addTo x.mboxes m else x.mboxes
      chain := x.chain || b 6 } }

/-- FWC.UPD written (R343, R346). -/
def State.updWrite (s : State) (v : Nat) : State :=
  let s1 := if testBit v 16 then s.confirmUpdate else s
  if testBit v 17 then s1.abortUpdate else s1

/-- A signed value of w bits held between -m and m. -/
def clampSigned (w m v : Nat) : Nat := ofSigned w (max (-(m : Int)) (min (m : Int) (toSigned w v)))

/-- The value that a control field takes for a value written: what its description replaces or clamps (R51, R78, R107, R127, R143, R160, R203,
R234, R263, R297). -/
def State.adjusted (s : State) (r : FieldRef) (v : Nat) : Nat :=
  match r.f with
  | .alcCreditrsvRsv => max 100000 v
  | .obsStmtivlIvl => clampNat 100 3600000 v
  | .rgcSeqSlew => clampNat 8 160 v
  | .dagAdmcfgBudget => clampNat 128 1024 v
  | .dagAdmffUnann => max 8 v
  | .clkRampCyc => max 64 v
  | .dagDrpcfgDep1 => clampNat 1 4 v
  | .dagDrpcfgDep2 => max (s.rd .dagDrpcfgDep1 r.i) (clampNat 1 4 v)
  | .alcFloorshFloor => clampNat 5120 16000 v
  | .chnCfgRndivl => clampNat 10 1000 v
  | .fltCfgEsct => clampNat 1 1000000 v
  | .dagTsOffs => clampSigned 8 32 v
  | _ => v

/-- A control field written by software: the value lands, with what the chapters say that the write does. -/
def State.setField (s : State) (p : Port) (r : FieldRef) (v : Nat) : State :=
  match r.f with
  | .govHallActive => if s.svc = svcCold then s.put r v else s
  | .alcTraycapCap | .alcHostcapCap => if s.heldForbids r.f v then s.wr .alcStatusHeldrej 1 else s.put r v
  | .alcFloorshFloor => s.askChange .floorShare [(r, s.adjusted r v)] (upto 32)
  | .alcPartCap => s.policyWrite r.j [(r, v)]
  | .rgcSlotS => s.slotWrite r.i v
  | .rgcVidV => s.vidWrite r.i v
  | .rgcOcpPhase => s.ocpWrite r.i v
  | .rgcShedHi => if v ≤ s.rd .rgcShedLo r.i then s.railCfgErr r.i else s.put r v
  | .rgcCompB0 => s.shadowWrite r.i 0 v
  | .rgcCompB1 => s.shadowWrite r.i 1 v
  | .rgcCompB2 => s.shadowWrite r.i 2 v
  | .rgcCompB3 => s.shadowWrite r.i 3 v
  | .rgcCompA1 => s.shadowWrite r.i 4 v
  | .rgcCompA2 => s.shadowWrite r.i 5 v
  | .rgcCompA3 => s.shadowWrite r.i 6 v
  | .clkDomTgt => (s.forgetLowered r.j).setDomain r.j v
  | .dagDrpcfgEn => s.drpenWrite r.i v
  | .dagDrpcfgRetmax | .dagDrpcfgRetdiv => (s.put r v).reclamp r.i
  | .dagVfLo | .dagVfHi => (s.put r v).followVf r.i
  | .hrtLtripRel =>
    if toSigned 16 (s.rd .hrtLtripTrip) ≤ toSigned 16 v then s.wr .hrtStatusCfgerr 1 else s.put r v
  | .hrtInletVal => s.inlet v
  | .hrtInletwcT => if toSigned 16 v < toSigned 16 (s.reg r) then s else s.takeInlet.put r v
  | .chnHome => s.homeWrite v
  | .chnTotal => (s.put r v).showHold.updStart fun x => { x with totalSet := true }
  | .atcCfgFreeze => s.atticFreezeWrite v
  | .hifMbTag => s.mailboxPost p r.j v
  | .hifRsCmdbase | .hifRsCplbase | .hifRsTelbase | .hifRsStmbase => s.baseWrite r v 4096 (s.flag .hifRsCtrlEn 0 r.j)
  | .hifRsCtlbase => s.baseWrite r v 64 (s.flag .hifRsCtrlEn 0 r.j)
  | .obsTrcbase => s.baseWrite r v 4096 (s.flag .obsTrccfgEn)
  | .obsTrcctl => s.baseWrite r v 64 (s.flag .obsTrccfgEn)
  | .obsFrztT => (s.put r v).armFreeze v
  | _ => s.put r (s.adjusted r v)

/-- A write-only field written: it acts once (R7). -/
def State.actField (s : State) (p : Port) (r : FieldRef) (v : Nat) : State :=
  match r.f with
  | .hifDbset => s.doorbellSet v
  | .fwcCrcseed => s.crcSeed p v
  | .fwcCrcw => s.crcFeed p (wordBytes v)
  | .fwcCrcb => s.crcFeed p [v]
  | .chnInjCrcinv => if v = 1 then s.injectChain else s
  | .obsFrzctlThaw => if v = 1 && s.frozen.isSome then { s with thaw := true } else s
  | .rgcCompCommit => if v = 1 then s.commitComp r.i else s
  | _ => s

/-! ## One field -/

/-- A value written to one field by a port, with an update by hardware in the same cycle (R5, R7, R10, R11, R352). -/
def State.writeField (s : State) (p : Port) (r : FieldRef) (v : Nat) (hw : Option Nat) : State :=
  if !r.exists then s
  else if !portMay p r then s.hwUpdate r hw
  else if covered r.f && s.frozen.isSome then (s.hwUpdate r hw).wr .obsStatusFrzwr 1
  else match (fieldDef r.f).kind with
    | .ro => s
    | .wo => s.actField p r v
    | .rc => s.hwUpdate r hw
    | .rw1c =>
      if r.f = .hifMbStatFull then (if v = 1 then s.mailboxRelease p r.j else s)
      else s.put r ((s.reg r - (s.reg r &&& v)) ||| hw.getD 0)
    | .rwl => s.writeLimit r v hw
    | .rw | .rws =>
      if isCounter r.f then s.put r (merged r.f v (hw.getD 0))
      else if r.f = .clkDomTgt && dieAgentTarget r.j then s.hwUpdate r hw
      else match hw with
        | some h => (s.put r h).blockFlag wrdropOf r
        | none => s.setField p r v

end Sys2Proof.Machine
end

