-- ==== Sys2Proof/Machine/Bus.lean ====
section
/-!
DEFINITION. Sys2Proof/Machine/Bus.lean: register accesses as the four ports make them (R4 to R7, R11, R315, R349), the I3C port's private
transfers (R376), and the policy blob, whose records are writes by the control complex (R332, R333).
-/
namespace Sys2Proof.Machine

/-! ## Words with an effect of their own -/

/-- A write to FLT.ACK and to FLT.FCLR (R278, R284). -/
def State.ackWrite (s : State) (v : Nat) : State := s.ack (s.ackSlots (v % 2 ^ 16) (testBit v 16))
def State.rearmWrite (s : State) (v : Nat) : State := s.each ((upto 3).filter (testBit v)) fun s c => s.wr .fltFirstValid 0 0 c

/-- A word of ALC.PART[p] that is written as a whole: DIES, BIND, POL and POL2 (R185, R203, R290). -/
def State.partWord (s : State) (p k v : Nat) : Option State :=
  match k with
  | 0x00 => some (s.partitionWrite p .dies v)
  | 0x04 => some (s.partitionWrite p .bind v)
  | 0x08 => some (s.policyWrite p (polWrites p v))
  | 0x0C => some (s.policyWrite p (pol2Writes p v))
  | _ => none

/-- A word of RS[n] that is written as a whole: SIZES and CTRL (R304, R305). -/
def State.rsWord (s : State) (n k v : Nat) : Option State :=
  match k with
  | 0x28 => some (s.sizesWrite n v)
  | 0x2C => some (s.ctrlWrite n v)
  | _ => none

/-- What a write does to a word whose fields act together; none where every field lands by itself. -/
def State.wholeWord (s : State) (p : Port) (b : Blk) (i off v : Nat) : Option State :=
  match b with
  | .gov => if off = 0x010 then some (s.tmctlWrite p v) else none
  | .flt =>
    if off = 0x010 then some (s.ackWrite v) else if off = 0x014 then some (s.rearmWrite v)
    else if off = 0x018 then some (s.injectWrite v) else none
  | .fwc => if off = 0x010 then some (s.updWrite v) else none
  | .atc => if off = 0x010 then some (s.cursorWrite p v) else none
  | .obs => if off = 0x030 then some (s.trccfgWrite v) else none
  | .alc => if 0x100 ≤ off && off < 0x300 then s.partWord ((off - 0x100) / 0x20) ((off - 0x100) % 0x20) v else none
  | .hif => if 0x100 ≤ off && off < 0x500 then s.rsWord ((off - 0x100) / 0x40) ((off - 0x100) % 0x40) v else none
  | .rgc => if off = 0 then some (if p = .cc then s.railCfgWrite i v else s) else none
  | .dag => if off = 0x404 then some (if p = .cc then s.drpthrWrite i v else s) else none
  | _ => none

/-! ## Updates by hardware in the cycle of an access (R10; assumption log 68) -/

/-- What hardware does in a word: the bits of the fields that it updates, and what it brings. -/
abbrev HwBits := Option (Nat × Nat)

/-- The operand of a command as numbers. -/
def hwBits (hw : Option HwUpdate) : HwBits := hw.map fun h => (h.fields.toNat, h.val.toNat)

/-- What hardware brings to one element of the word. -/
def Piece.hw (x : Piece) (hw : HwBits) : Option Nat :=
  hw.bind fun h =>
    let part (n : Nat) : Nat := n / 2 ^ x.lo % 2 ^ (fieldDef x.ref.f).width
    if part h.1 = 0 then none else some (part h.2)

/-- A control field: hardware's value wins over software's (R10). -/
def isControl (f : Field) : Bool := (decide ((fieldDef f).kind = .rw) || decide ((fieldDef f).kind = .rws)) && !isCounter f

/-- Hardware's updates in a word that is written as a whole, and the word as software then has it: a control field that hardware writes keeps
hardware's value, with WRDROP where the port may write it (R10). -/
def State.hwWord (s : State) (p : Port) (l : List Piece) (v : Nat) (hw : HwBits) : State × Nat :=
  l.foldl (fun a x => match x.hw hw with
    | none => a
    | some h =>
      let s1 := a.1.hwUpdate x.ref (some h)
      if isControl x.ref.f && portMay p x.ref then
        (s1.blockFlag wrdropOf x.ref, a.2 - (a.2 / 2 ^ x.lo % 2 ^ (fieldDef x.ref.f).width) * 2 ^ x.lo + h * 2 ^ x.lo)
      else (s1, a.2)) (s, v)

/-! ## The halves of a 64-bit register (R6) -/

/-- The element of a 64-bit register whose half stands in a word. -/
def wideOf (l : List Piece) : Option Piece := l.find? fun x => decide (32 < (fieldDef x.ref.f).width)

/-- A half of a 64-bit register written: the lower half is held, the upper half puts the whole value in force with the lower half that the port
holds, or with the one the register has (R6, R10). -/
def State.halfWrite (s : State) (p : Port) (x : Piece) (base a v : Nat) (hw : HwBits) : State :=
  if !portMay p x.ref || decide ((fieldDef x.ref.f).kind = .ro) then s.hwUpdate x.ref (x.hw hw)
  else if x.word = 0 then (s.setHeld p base (some (a, v))).hwUpdate x.ref (x.hw hw)
  else
    let lower := match s.heldHalf p base with | some h => h.2 | none => s.reg x.ref % 2 ^ 32
    (s.setHeld p base none).writeField p x.ref (v * 2 ^ 32 + lower) (x.hw hw)

/-! ## MSI-X structures (R315) -/

/-- Whether an offset of the HIF block lies in the MSI-X table or the pending bits. -/
def isMsix (b : Blk) (off : Nat) : Bool :=
  decide (b = .hif) && ((decide (0xC00 ≤ off) && decide (off < 0xE40)) || off = 0xE80 || off = 0xE84)

/-- A write to a host port's table: a vector unmasked with its pending bit set is sent (R315). -/
def State.msixWrite (s : State) (p : Port) (off v : Nat) : State :=
  if !p.isHost || decide (0xE40 ≤ off) then s
  else
    let w := (off - 0xC00) / 4
    let s1 := s.updMsix p fun m => { m with table := Store.insert natLt w (if w % 4 = 3 then v % 2 else v) m.table }
    if w % 4 = 3 && v % 2 = 0 && testBit (s.msixOf p).pba (w / 4) then
      (s1.updMsix p fun m => { m with pba := m.pba - 2 ^ (w / 4) }).sendVector p (w / 4)
    else s1

/-! ## Mailboxes whose receiver is down (R319) -/

/-- The mailbox that a word belongs to. -/
def mboxOf (b : Blk) (off : Nat) : Option Nat :=
  if b = .hif && 0x600 ≤ off && off < 0x680 then some ((off - 0x600) / 0x20) else none

/-- A sender's access to a mailbox whose receiver domain is down. -/
def State.meetsDown (s : State) (p : Port) (b : Blk) (off : Nat) : Bool :=
  match mboxOf b off with
  | some m => isSender p m && !s.receiverUp m
  | none => false

/-! ## A write -/

/-- A write to a word that holds a register. -/
def State.wordWrite (s : State) (p : Port) (b : Blk) (i off a v : Nat) (hw : HwBits) : State :=
  if s.meetsDown p b off then s.mbDown p
  else
    let base := a - off
    let s1 := s.dropHeld p base a
    let l := pieces p b i off
    let w := s1.hwWord p l v hw
    match w.1.wholeWord p b i off w.2 with
    | some t => t
    | none =>
      match wideOf l with
      | some x => s1.halfWrite p x base a v hw
      | none => l.foldl (fun s x => s.writeField p x.ref (v / 2 ^ x.lo % 2 ^ (fieldDef x.ref.f).width) (x.hw hw)) s1

/-- A discarded narrow or unmapped write (R4, R5). -/
def State.accErr (s : State) : State := s.wr .govStatusAccerr 1

/-- A write of a word, or of fewer bytes, at an address of the window by a port (R4, R5, R11). -/
def State.busWrite (s : State) (p : Port) (a v : Nat) (full : Bool) (hw : HwBits) : State :=
  let s := s.answered p
  if !full || decide (a % 4 ≠ 0) then s.accErr
  else match locate a with
    | none => if 0xC000 ≤ a && a < 0x10000 then s else s.accErr
    | some (b, i, off) =>
      if !reaches p b off then s
      else if isMsix b off then s.msixWrite p off v
      else if definedWord b off then s.wordWrite p b i off a v hw
      else s.accErr

/-! ## A read -/

/-- A field after the read that returns it: an RC field is cleared and holds that cycle's update alone, unless counters are frozen (R7, R10,
R352). -/
def State.clearOnRead (s : State) (r : FieldRef) (hw : Option Nat) : State :=
  if decide ((fieldDef r.f).kind ≠ .rc) then s
  else if covered r.f && s.frozen.isSome then s.hwUpdate r hw
  else s.put r (match hw with | some h => merged r.f r.reset h | none => r.reset)

/-- Which half of a 64-bit register a word is; QDATA shows one (R6, R349). -/
def halfOf (p : Port) (b : Blk) (i off : Nat) : Option Nat :=
  if b = .view && off = 0x30 then some 0
  else if b = .view && off = 0x34 then some 1
  else (wideOf (pieces p b i off)).map fun x => x.word

/-- The value that a read returns: an upper half comes from the port's latch, 0 where nothing has been latched (R6). -/
def State.readValue (s : State) (p : Port) (b : Blk) (i off a : Nat) : Nat :=
  if halfOf p b i off = some 1 then Store.get (fun _ => 0) (s.port p).latch (a - 4) else s.peek p a

/-- A read of a lower half latches the upper half (R6). -/
def State.latchUpper (s : State) (p : Port) (b : Blk) (i off a : Nat) : State :=
  if halfOf p b i off = some 0 then
    s.updPort p fun x => { x with latch := Store.insert natLt a (s.peek p (a + 4)) x.latch }
  else s

/-- What a read does beside returning a value: RC fields, a mailbox's parity, DATA[7], and a denied QDATA (R7, R321, R349, R364). -/
def State.readActs (s : State) (p : Port) (b : Blk) (i off : Nat) (hw : HwBits) : State :=
  let s1 := (pieces p b i off).foldl (fun s x => s.clearOnRead x.ref (x.hw hw)) s
  let s2 := match mboxOf b off with
    | some m => if off % 0x20 < 0xC then s1.mailboxRead p m (off % 0x20 = 8) else s1
    | none => s1
  let s3 := if b = .atc && off = 0x03C then s2.data7 p else s2
  if b = .view && 0x30 ≤ off && off < 0x40 && (s.ownQueue i).isNone then s3.wr .viewDeny 1 i else s3

/-- A read that has returned a value to a port. -/
def State.returns (s : State) (p : Port) (v : Nat) : State := s.updPort p fun x => { x with rdata := v, resp := .ok }

/-- How many bytes an access takes. -/
def widthBytes : Width → Nat
  | .byte => 1
  | .half => 2
  | .word => 4

/-- The bytes of a word that a read takes: as many as it asks for from the addressed one up, and none beyond the word (R4). -/
def readBytes (a n v : Nat) : Nat := v / 2 ^ (8 * (a % 4)) % 2 ^ (8 * n)

/-- A read of n bytes at an address by a port: the addressed bytes of the word, with the side effects of a full read (R4 to R7, R11, R319). -/
def State.busRead (s : State) (p : Port) (a n : Nat) (hw : HwBits) : State :=
  let a0 := a - a % 4
  match locate a0 with
  | none => s.returns p 0
  | some (b, i, off) =>
    if !reaches p b off then s.returns p 0
    else if s.meetsDown p b off then s.updPort p fun x => { x with resp := .error }
    else
      let v := s.readValue p b i off a0
      ((s.latchUpper p b i off a0).readActs p b i off hw).returns p (readBytes a n v)

/-! ## The rows -/

/-- REGISTER_WRITE (R7). -/
def execRegisterWrite (port : Port) (addr : BitVec 20) (val : Word) (width : Width) (hw : Option HwUpdate) (s : State) :
    Host.Outcome State Fault Refusal :=
  s.runLower fun s => s.busWrite port addr.toNat val.toNat (decide (width = .word)) (hwBits hw)

/-- LOWER_HALF_READ (R6). -/
def execLowerHalfRead (port : Port) (addr : ReadAt) (s : State) : Host.Outcome State Fault Refusal :=
  s.run fun s => s.busRead port addr.addr.toNat (widthBytes addr.width) none

/-- UPPER_HALF_WRITE (R6). -/
def execUpperHalfWrite (port : Port) (addr : BitVec 20) (val : Word) (s : State) : Host.Outcome State Fault Refusal :=
  s.runLower fun s => s.busWrite port addr.toNat val.toNat true none

/-- RC_READ (R7, R10). -/
def execRcRead (port : Port) (addr : ReadAt) (hw : Option HwUpdate) (s : State) : Host.Outcome State Fault Refusal :=
  s.run fun s => s.busRead port addr.addr.toNat (widthBytes addr.width) (hwBits hw)

/-- MAILBOX_READ: PTR by its lower half, or TAG (R317, R321). -/
def execMailboxRead (port : Port) (mb : Mbox) (tag : Bool) (s : State) : Host.Outcome State Fault Refusal :=
  s.run fun s => s.busRead port (mbAddr mb.val + if tag then 8 else 0) 4 none

/-- The address of a word of a view page (R348, R388). -/
def viewAddr (p off : Nat) : Nat := 0xC0000 + p * 0x4000 + off

/-- VIEW_QDATA_READ (R349). -/
def execViewQdataRead (port : Port) (part : Part) (word : Fin 4) (s : State) : Host.Outcome State Fault Refusal :=
  s.run fun s => s.busRead port (viewAddr part.val (0x30 + 4 * word.val)) 4 none

/-- FREEZE_ARM: the upper half of OBS.FRZT, at 0x0000_900C (R352, R368). -/
def execFreezeArm (port : Port) (val : Word) (s : State) : Host.Outcome State Fault Refusal :=
  s.run fun s => s.busWrite port 0x900C val.toNat true none

/-! ## Private transfers of the I3C port (R376) -/

/-- A protocol error: counted, and reported once in each second. -/
def State.i3cError (s : State) : State :=
  let sec := s.now / 1000000000
  let s1 := (s.count .govTmstatPerr).updI3c fun x => { x with ptr := none }
  if s.i3c.errSecond = some sec then s1
  else (s1.updI3c fun x => { x with errSecond := some sec }).raise (corr 20 3 (unitOf (40 + s.active) 0) 2)

/-- The words that a list of bytes makes, least significant byte first. -/
def wordsOf : Nat → List Nat → List Nat
  | 0, _ => []
  | n + 1, l => bytesWord (l.take 4) :: wordsOf n (l.drop 4)

/-- Words written to consecutive addresses. -/
def State.i3cWords (s : State) (a : Nat) : List Nat → State
  | [] => s
  | v :: l => (s.busWrite .i3c a v true none).i3cWords (a + 4) l

/-- Whether the bytes of a private write make an address in the window and at most 15 whole words. -/
def i3cLegal (l : List Nat) : Bool :=
  decide (l.length % 4 = 0) && decide (4 ≤ l.length) && decide (l.length ≤ 64) && decide (bytesWord (l.take 4) < 2 ^ 20)

/-- I3C_PRIVATE_WRITE (R376). -/
def execI3cPrivateWrite (bytes : List Octet) (s : State) : Host.Outcome State Fault Refusal :=
  s.runLower fun s =>
    let l := bytes.map BitVec.toNat
    if s.i3c.da.isNone then s
    else if !i3cLegal l then s.i3cError
    else
      let a := bytesWord (l.take 4)
      let ws := wordsOf (l.length / 4 - 1) (l.drop 4)
      (s.updI3c fun x => { x with ptr := if ws.isEmpty then some a else none }).i3cWords a ws

/-- Words read from consecutive addresses: the bytes they make, and the state after the reads. -/
def State.i3cFetch (s : State) (a : Nat) : Nat → List Nat × State
  | 0 => ([], s)
  | n + 1 =>
    let s1 := s.busRead .i3c a 4 none
    let r := s1.i3cFetch (a + 4) n
    (wordBytes (s1.port .i3c).rdata ++ r.1, r.2)

/-- I3C_PRIVATE_READ: at most 16 words from the address written before it; zeros where none stands, as after a protocol error (R376;
assumption log 71). -/
def execI3cPrivateRead (words : Nat) (s : State) : Host.Outcome State Fault Refusal :=
  s.run fun s =>
    let n := min 16 words
    if s.i3c.da.isNone then s
    else match s.i3c.ptr with
      | some a =>
        let r := s.i3cFetch a n
        r.2.updI3c fun x => { x with reply := r.1, ptr := none }
      | none => s.updI3c fun x => { x with reply := List.replicate (4 * n) 0 }

/-! ## The policy blob (R332, R333) -/

/-- Whether the control complex may write a word: one of its fields takes its writes (R11, R333). -/
def ccWritable (a : Nat) : Bool :=
  decide (a % 4 = 0) &&
  match locate a with
  | none => false
  | some (b, i, off) => (pieces .cc b i off).any fun x =>
      portMay .cc x.ref && !decide ((fieldDef x.ref.f).kind = .ro) && !decide ((fieldDef x.ref.f).kind = .rc)

/-- A record skipped (R333). -/
def State.skipRecord (s : State) : State := s.count .fwcPolicySkip

/-- A size the Cellar may have (R173). -/
def cellarSizeLegal (n : Nat) : Bool := n = 0 || (decide (65536 ≤ n) && decide (n ≤ 4194304) && (upto 23).any fun k => n = 2 ^ k)

/-- The Cellar's size put in force; a region of another size holds no entries (R173). -/
def State.setCellarSize (s : State) (n : Nat) : State :=
  if n = s.rd .lrdCellarSize then s else (s.wr .lrdCellarSize n).updLard fun x => { x with cellar := [] }

/-- A data record: thermal networks, Cellar size, or worst inlet temperature (R221, R173, R225, R332). -/
def State.dataRecord (s : State) (id len : Nat) (data : List Nat) : State :=
  let v := (data.head?.getD 0) % 2 ^ (8 * min 4 len)
  match id with
  | 1 => { s with hearth := { s.hearth with network := data } }
  | 2 => if cellarSizeLegal v then s.setCellarSize v else s.skipRecord
  | 3 => s.setField .cc ⟨.hrtInletwcT, 0, 0⟩ (v % 2 ^ 16)
  | _ => s.skipRecord

/-- A register record: a write by the control complex (R333). -/
def State.registerRecord (s : State) (a v : Nat) : State :=
  if ccWritable a then s.busWrite .cc a v true none else s.skipRecord

/-- The records of a blob applied in order, from the words between its header and its check word; a record of a reserved kind has no length and
ends them (R332, R333; assumption log 72). -/
def State.applyRecords : Nat → List Nat → State → State
  | 0, _, s => s
  | _, [], s => s
  | n + 1, w :: l, s =>
    let id := w % 2 ^ 20
    let kind := w / 2 ^ 20 % 16
    let clean : Bool := decide (w / 2 ^ 24 = 0)
    if kind = 0 then
      let s1 := if clean then s.registerRecord id (l.head?.getD 0) else s.skipRecord
      State.applyRecords n (l.drop 1) s1
    else if kind = 1 then
      let len := l.head?.getD 0
      let k := (len + 3) / 4
      let s1 := if clean then s.dataRecord id len ((l.drop 1).take k) else s.skipRecord
      State.applyRecords n (l.drop (1 + k)) s1
    else s.skipRecord

/-- The factory defaults: no Cellar, the fused networks, and the defect made known (R312, R333, R362). -/
def State.policyDefaults (s : State) : State :=
  let s1 := (s.setCellarSize 0).puts [(⟨.fwcBootPolicydefaulted, 0, 0⟩, 1), (⟨.fwcPolicyPver, 0, 0⟩, 0), (⟨.fwcPolicySkip, 0, 0⟩, 0)]
  (({ s1 with hearth := { s1.hearth with network := [] } }).noticeAll 8 0).event (19 * 256 + 2) 0 (unitOf (40 + s.active) 0) none

/-- POLICY_APPLY: the start of the active Hall's control complex; what the standby's firmware finds is seen only when it becomes active (R333;
assumption log 72). -/
def execPolicyApply (hall : Hall) (s : State) : Host.Outcome State Fault Refusal :=
  s.runLower fun s =>
    if !s.ccUp || hall.val ≠ s.active then s
    else
      let l := s.region 2
      if !blobValid l then s.policyDefaults
      else
        let n := wordAt l 2 / 4
        let ws := (((l.take (n - 1)).drop 4).map BitVec.toNat)
        State.applyRecords ws.length ws
          (s.puts [(⟨.fwcBootPolicydefaulted, 0, 0⟩, 0), (⟨.fwcPolicyPver, 0, 0⟩, wordAt l 3 % 2 ^ 16), (⟨.fwcPolicySkip, 0, 0⟩, 0)])

end Sys2Proof.Machine
end

