-- ==== Sys2Proof/Machine/Dispatch.lean ====
section
/-!
DEFINITION. Sys2Proof/Machine/Dispatch.lean: one arm per command, each one call of that command's meaning.
-/
namespace Sys2Proof.Machine

/-- The effect of one command on everything but the queue. -/
def exec (i : Instr) (s : State) : Host.Outcome State Fault Refusal :=
  match i with
  | .registerWrite port addr val width hw => Sys2Proof.Machine.execRegisterWrite port addr val width hw s
  | .lowerHalfRead port addr => Sys2Proof.Machine.execLowerHalfRead port addr s
  | .upperHalfWrite port addr val => Sys2Proof.Machine.execUpperHalfWrite port addr val s
  | .rcRead port addr hw => Sys2Proof.Machine.execRcRead port addr hw s
  | .warmReset dom => Sys2Proof.Machine.execWarmReset dom s
  | .powerOn => Sys2Proof.Machine.execPowerOn s
  | .aonRemoved => Sys2Proof.Machine.execAonRemoved s
  | .dieAgentReset die => Sys2Proof.Machine.execDieAgentReset die s
  | .dieAdmit die => Sys2Proof.Machine.execDieAdmit die s
  | .periodBoundary ins => Sys2Proof.Machine.execPeriodBoundary ins s
  | .reportReceived hall die parityOk late => Sys2Proof.Machine.execReportReceived hall die parityOk late s
  | .samplingInstant => Sys2Proof.Machine.execSamplingInstant s
  | .grantReceived die parityOk => Sys2Proof.Machine.execGrantReceived die parityOk s
  | .beaconReceived => Sys2Proof.Machine.execBeaconReceived s
  | .beaconMissed => Sys2Proof.Machine.execBeaconMissed s
  | .hallForcingFault kind => Sys2Proof.Machine.execHallForcingFault kind s
  | .stewardEntry die => Sys2Proof.Machine.execStewardEntry die s
  | .stewardHoldEnd die => Sys2Proof.Machine.execStewardHoldEnd die s
  | .stewardTimeout => Sys2Proof.Machine.execStewardTimeout s
  | .standbyRejoin => Sys2Proof.Machine.execStandbyRejoin s
  | .powerAlertAssert => Sys2Proof.Machine.execPowerAlertAssert s
  | .powerAlertRelease => Sys2Proof.Machine.execPowerAlertRelease s
  | .throttleEdge level => Sys2Proof.Machine.execThrottleEdge level s
  | .descriptorEntersWindow die core eng queue pw => Sys2Proof.Machine.execDescriptorEntersWindow die core eng queue pw s
  | .stepRequest die core eng => Sys2Proof.Machine.execStepRequest die core eng s
  | .invocationComplete die core eng m => Sys2Proof.Machine.execInvocationComplete die core eng m s
  | .computeRecoveryReset die => Sys2Proof.Machine.execComputeRecoveryReset die s
  | .admissionArbitration die => Sys2Proof.Machine.execAdmissionArbitration die s
  | .railSlot rail inp => Sys2Proof.Machine.execRailSlot rail inp s
  | .pulseCurrentLimit rail phase cur sum => Sys2Proof.Machine.execPulseCurrentLimit rail phase cur sum s
  | .imonMask rail phase => Sys2Proof.Machine.execImonMask rail phase s
  | .vmaxCut rail => Sys2Proof.Machine.execVmaxCut rail s
  | .phaseShed rail => Sys2Proof.Machine.execPhaseShed rail s
  | .compCommit rail => Sys2Proof.Machine.execCompCommit rail s
  | .railEnable rail => Sys2Proof.Machine.execRailEnable rail s
  | .railDisable rail => Sys2Proof.Machine.execRailDisable rail s
  | .checkInputPresent rail => Sys2Proof.Machine.execCheckInputPresent rail s
  | .checkInputTimeout rail => Sys2Proof.Machine.execCheckInputTimeout rail s
  | .checkDecayed rail => Sys2Proof.Machine.execCheckDecayed rail s
  | .checkDecayTimeout rail => Sys2Proof.Machine.execCheckDecayTimeout rail s
  | .checkWindowEnd rail offs => Sys2Proof.Machine.execCheckWindowEnd rail offs s
  | .railStartTimeout rail => Sys2Proof.Machine.execRailStartTimeout rail s
  | .hiccupEntry rail tmon => Sys2Proof.Machine.execHiccupEntry rail tmon s
  | .hiccupEnd rail => Sys2Proof.Machine.execHiccupEnd rail s
  | .consecClear rail => Sys2Proof.Machine.execConsecClear rail s
  | .railInputLost rail => Sys2Proof.Machine.execRailInputLost rail s
  | .railDownComplete rail => Sys2Proof.Machine.execRailDownComplete rail s
  | .railTel1s rail => Sys2Proof.Machine.execRailTel1s rail s
  | .hearthBoundary => Sys2Proof.Machine.execHearthBoundary s
  | .accumulatorCheckpoint => Sys2Proof.Machine.execAccumulatorCheckpoint s
  | .hearthRunCommit => Sys2Proof.Machine.execHearthRunCommit s
  | .hearthRunMissed => Sys2Proof.Machine.execHearthRunMissed s
  | .thermalConversion die idx raw => Sys2Proof.Machine.execThermalConversion die idx raw s
  | .lintelTripRelease => Sys2Proof.Machine.execLintelTripRelease s
  | .sensorSelftest die idx err => Sys2Proof.Machine.execSensorSelftest die idx err s
  | .inletWrite port val => Sys2Proof.Machine.execInletWrite port val s
  | .inletStale => Sys2Proof.Machine.execInletStale s
  | .windowLatch1s => Sys2Proof.Machine.execWindowLatch1s s
  | .windowLatch30s => Sys2Proof.Machine.execWindowLatch30s s
  | .telemetrySample die => Sys2Proof.Machine.execTelemetrySample die s
  | .statementPeriodic part => Sys2Proof.Machine.execStatementPeriodic part s
  | .statementDelivery rs => Sys2Proof.Machine.execStatementDelivery rs s
  | .xtalAmplitude x => Sys2Proof.Machine.execXtalAmplitude x s
  | .xtalStable x => Sys2Proof.Machine.execXtalStable x s
  | .xtalLoss x => Sys2Proof.Machine.execXtalLoss x s
  | .xtalTimeout x => Sys2Proof.Machine.execXtalTimeout x s
  | .xtalRetry x => Sys2Proof.Machine.execXtalRetry x s
  | .oscTrimGate beacons count => Sys2Proof.Machine.execOscTrimGate beacons count s
  | .refSwitch => Sys2Proof.Machine.execRefSwitch s
  | .pllLossOfLock die => Sys2Proof.Machine.execPllLossOfLock die s
  | .pllRelock die => Sys2Proof.Machine.execPllRelock die s
  | .pllHoldoverTimeout die => Sys2Proof.Machine.execPllHoldoverTimeout die s
  | .divisorRampStep tgt => Sys2Proof.Machine.execDivisorRampStep tgt s
  | .droopTrip die det tap queue => Sys2Proof.Machine.execDroopTrip die det tap queue s
  | .droopHoldEnd die dom cycles => Sys2Proof.Machine.execDroopHoldEnd die dom cycles s
  | .droopReleaseStep die dom => Sys2Proof.Machine.execDroopReleaseStep die dom s
  | .detectorSelftest die hi lo => Sys2Proof.Machine.execDetectorSelftest die hi lo s
  | .detectorTargetedTest die det forced quiet sweep => Sys2Proof.Machine.execDetectorTargetedTest die det forced quiet sweep s
  | .droopPersist die dom => Sys2Proof.Machine.execDroopPersist die dom s
  | .droopPersistLong die dom => Sys2Proof.Machine.execDroopPersistLong die dom s
  | .larderUpdateRecord ecc => Sys2Proof.Machine.execLarderUpdateRecord ecc s
  | .larderLookupRequest die ecc => Sys2Proof.Machine.execLarderLookupRequest die ecc s
  | .cellarReadComplete ecc => Sys2Proof.Machine.execCellarReadComplete ecc s
  | .lookupReply die => Sys2Proof.Machine.execLookupReply die s
  | .lookupTimeout die => Sys2Proof.Machine.execLookupTimeout die s
  | .larderMirrorReceive => Sys2Proof.Machine.execLarderMirrorReceive s
  | .partitionWrite port part which val => Sys2Proof.Machine.execPartitionWrite port part which val s
  | .twoPhasePrepare die => Sys2Proof.Machine.execTwoPhasePrepare die s
  | .twoPhaseCommit die => Sys2Proof.Machine.execTwoPhaseCommit die s
  | .twoPhaseAbort => Sys2Proof.Machine.execTwoPhaseAbort s
  | .fatalLatch src unit => Sys2Proof.Machine.execFatalLatch src unit s
  | .escalation slot => Sys2Proof.Machine.execEscalation slot s
  | .faultAck port val => Sys2Proof.Machine.execFaultAck port val s
  | .firstErrorRearm port cls => Sys2Proof.Machine.execFirstErrorRearm port cls s
  | .injectLard1 port => Sys2Proof.Machine.execInjectLard1 port s
  | .injectLard2 port => Sys2Proof.Machine.execInjectLard2 port s
  | .injectCell1 port => Sys2Proof.Machine.execInjectCell1 port s
  | .injectCell2 port => Sys2Proof.Machine.execInjectCell2 port s
  | .injectLane port die => Sys2Proof.Machine.execInjectLane port die s
  | .injectMbox port mb => Sys2Proof.Machine.execInjectMbox port mb s
  | .injectChain port => Sys2Proof.Machine.execInjectChain port s
  | .chnInjCrcinv port => Sys2Proof.Machine.execChnInjCrcinv port s
  | .errorPairLevel die hall level => Sys2Proof.Machine.execErrorPairLevel die hall level s
  | .phaseSelftest rail phase before during => Sys2Proof.Machine.execPhaseSelftest rail phase before during s
  | .memoryWordSelftest u set pass => Sys2Proof.Machine.execMemoryWordSelftest u set pass s
  | .laneSelftest die hall pass => Sys2Proof.Machine.execLaneSelftest die hall pass s
  | .mailboxSelftest mb pass => Sys2Proof.Machine.execMailboxSelftest mb pass s
  | .agentUnresponsive die => Sys2Proof.Machine.execAgentUnresponsive die s
  | .islandCycleEnd die => Sys2Proof.Machine.execIslandCycleEnd die s
  | .watchdogExpiry hall => Sys2Proof.Machine.execWatchdogExpiry hall s
  | .lockstepMismatch hall kind => Sys2Proof.Machine.execLockstepMismatch hall kind s
  | .chainAligned => Sys2Proof.Machine.execChainAligned s
  | .chainAlignLoss => Sys2Proof.Machine.execChainAlignLoss s
  | .chainListenEnd => Sys2Proof.Machine.execChainListenEnd s
  | .chainNolink => Sys2Proof.Machine.execChainNolink s
  | .frameInsert => Sys2Proof.Machine.execFrameInsert s
  | .frameAbort => Sys2Proof.Machine.execFrameAbort s
  | .crcErrorFrame f check => Sys2Proof.Machine.execCrcErrorFrame f check s
  | .reservedFrame f => Sys2Proof.Machine.execReservedFrame f s
  | .frameStrip f => Sys2Proof.Machine.execFrameStrip f s
  | .claimSend => Sys2Proof.Machine.execClaimSend s
  | .claimReceived f => Sys2Proof.Machine.execClaimReceived f s
  | .claimBackoffEnd => Sys2Proof.Machine.execClaimBackoffEnd s
  | .ledgerSend => Sys2Proof.Machine.execLedgerSend s
  | .ledgerPass f => Sys2Proof.Machine.execLedgerPass f s
  | .ledgerReturn f => Sys2Proof.Machine.execLedgerReturn f s
  | .ledgerLost => Sys2Proof.Machine.execLedgerLost s
  | .offerReceived f => Sys2Proof.Machine.execOfferReceived f s
  | .offerReturn f => Sys2Proof.Machine.execOfferReturn f s
  | .offerTimeout k => Sys2Proof.Machine.execOfferTimeout k s
  | .chainBeaconSend => Sys2Proof.Machine.execChainBeaconSend s
  | .chainBeaconReceived f => Sys2Proof.Machine.execChainBeaconReceived f s
  | .versionSend => Sys2Proof.Machine.execVersionSend s
  | .versionReceived f => Sys2Proof.Machine.execVersionReceived f s
  | .homeWrite port val => Sys2Proof.Machine.execHomeWrite port val s
  | .ageMeasureStart die => Sys2Proof.Machine.execAgeMeasureStart die s
  | .ageMeasureComplete die counts => Sys2Proof.Machine.execAgeMeasureComplete die counts s
  | .ageMeasureAbandon die cause => Sys2Proof.Machine.execAgeMeasureAbandon die cause s
  | .ageReplan die found => Sys2Proof.Machine.execAgeReplan die found s
  | .monitorSelftest die idx dev counted => Sys2Proof.Machine.execMonitorSelftest die idx dev counted s
  | .optimeSave => Sys2Proof.Machine.execOptimeSave s
  | .agePend die => Sys2Proof.Machine.execAgePend die s
  | .doorbellSet port val => Sys2Proof.Machine.execDoorbellSet port val s
  | .doorbellTake bit ctl => Sys2Proof.Machine.execDoorbellTake bit ctl s
  | .controlBlockPoll rs ctl => Sys2Proof.Machine.execControlBlockPoll rs ctl s
  | .ringSetEnable port rs val => Sys2Proof.Machine.execRingSetEnable port rs val s
  | .ringSetDisable port rs val => Sys2Proof.Machine.execRingSetDisable port rs val s
  | .ringSetIdle rs => Sys2Proof.Machine.execRingSetIdle rs s
  | .hostAccessFail rs => Sys2Proof.Machine.execHostAccessFail rs s
  | .commandFetch rs entry => Sys2Proof.Machine.execCommandFetch rs entry s
  | .nop rs cid => Sys2Proof.Machine.execNop rs cid s
  | .ackfault rs cid => Sys2Proof.Machine.execAckfault rs cid s
  | .setclass rs cid => Sys2Proof.Machine.execSetclass rs cid s
  | .statement rs cid => Sys2Proof.Machine.execStatement rs cid s
  | .endjob rs cid => Sys2Proof.Machine.execEndjob rs cid s
  | .bind rs cid => Sys2Proof.Machine.execBind rs cid s
  | .setpolicy rs cid => Sys2Proof.Machine.execSetpolicy rs cid s
  | .hostcap rs cid => Sys2Proof.Machine.execHostcap rs cid s
  | .lseed rs cid recs => Sys2Proof.Machine.execLseed rs cid recs s
  | .lclear rs cid => Sys2Proof.Machine.execLclear rs cid s
  | .lexport rs cid ok => Sys2Proof.Machine.execLexport rs cid ok s
  | .freeze rs cid => Sys2Proof.Machine.execFreeze rs cid s
  | .snapshot rs cid => Sys2Proof.Machine.execSnapshot rs cid s
  | .snapshotCapture rs cid ok => Sys2Proof.Machine.execSnapshotCapture rs cid ok s
  | .update rs cid img => Sys2Proof.Machine.execUpdate rs cid img s
  | .policyInstall rs cid blob => Sys2Proof.Machine.execPolicyInstall rs cid blob s
  | .msixModerationExpiry vec => Sys2Proof.Machine.execMsixModerationExpiry vec s
  | .mailboxPost port mb tag => Sys2Proof.Machine.execMailboxPost port mb tag s
  | .mailboxRelease port mb => Sys2Proof.Machine.execMailboxRelease port mb s
  | .mailboxRead port mb tag => Sys2Proof.Machine.execMailboxRead port mb tag s
  | .bootRom hall selfOk => Sys2Proof.Machine.execBootRom hall selfOk s
  | .policyApply hall => Sys2Proof.Machine.execPolicyApply hall s
  | .crcSeed port val => Sys2Proof.Machine.execCrcSeed port val s
  | .crcFeedWord port val => Sys2Proof.Machine.execCrcFeedWord port val s
  | .crcFeedByte port val => Sys2Proof.Machine.execCrcFeedByte port val s
  | .updateDownloadDone ok => Sys2Proof.Machine.execUpdateDownloadDone ok s
  | .updateVerifyDone => Sys2Proof.Machine.execUpdateVerifyDone s
  | .standbyLoaded => Sys2Proof.Machine.execStandbyLoaded s
  | .handoverReply accept => Sys2Proof.Machine.execHandoverReply accept s
  | .updateSwap => Sys2Proof.Machine.execUpdateSwap s
  | .takeoverComplete => Sys2Proof.Machine.execTakeoverComplete s
  | .takeoverDeadline => Sys2Proof.Machine.execTakeoverDeadline s
  | .oldHallReloaded => Sys2Proof.Machine.execOldHallReloaded s
  | .updateConfirm port => Sys2Proof.Machine.execUpdateConfirm port s
  | .updateAbort port => Sys2Proof.Machine.execUpdateAbort port s
  | .obsSecondLatch => Sys2Proof.Machine.execObsSecondLatch s
  | .viewQdataRead port part word => Sys2Proof.Machine.execViewQdataRead port part word s
  | .freezeArm port val => Sys2Proof.Machine.execFreezeArm port val s
  | .freezeStart => Sys2Proof.Machine.execFreezeStart s
  | .freezeThaw port => Sys2Proof.Machine.execFreezeThaw port s
  | .freezeMaxExpiry => Sys2Proof.Machine.execFreezeMaxExpiry s
  | .traceDrain die => Sys2Proof.Machine.execTraceDrain die s
  | .traceVectorTimer => Sys2Proof.Machine.execTraceVectorTimer s
  | .atticRecordWrite ok => Sys2Proof.Machine.execAtticRecordWrite ok s
  | .atticFailure => Sys2Proof.Machine.execAtticFailure s
  | .atticCursorWrite port val => Sys2Proof.Machine.execAtticCursorWrite port val s
  | .atticFetchComplete port => Sys2Proof.Machine.execAtticFetchComplete port s
  | .atticData7Read port => Sys2Proof.Machine.execAtticData7Read port s
  | .atticFreeze port => Sys2Proof.Machine.execAtticFreeze port s
  | .atticFreezeExpiry => Sys2Proof.Machine.execAtticFreezeExpiry s
  | .stateAdvance => Sys2Proof.Machine.execStateAdvance s
  | .railGroupStart => Sys2Proof.Machine.execRailGroupStart s
  | .calibrationStepEnd r => Sys2Proof.Machine.execCalibrationStepEnd r s
  | .calibratingWaitExpiry => Sys2Proof.Machine.execCalibratingWaitExpiry s
  | .entdaa da => Sys2Proof.Machine.execEntdaa da s
  | .rstdaa => Sys2Proof.Machine.execRstdaa s
  | .setnewda da => Sys2Proof.Machine.execSetnewda da s
  | .enec => Sys2Proof.Machine.execEnec s
  | .disec => Sys2Proof.Machine.execDisec s
  | .getpid => Sys2Proof.Machine.execGetpid s
  | .getbcr => Sys2Proof.Machine.execGetbcr s
  | .getdcr => Sys2Proof.Machine.execGetdcr s
  | .getstatus => Sys2Proof.Machine.execGetstatus s
  | .getmwl => Sys2Proof.Machine.execGetmwl s
  | .getmrl => Sys2Proof.Machine.execGetmrl s
  | .i3cPrivateWrite bytes => Sys2Proof.Machine.execI3cPrivateWrite bytes s
  | .i3cPrivateRead words => Sys2Proof.Machine.execI3cPrivateRead words s
  | .ibiRetry => Sys2Proof.Machine.execIbiRetry s
  | .tmHeartbeatEdge interval => Sys2Proof.Machine.execTmHeartbeatEdge interval s
  | .tmHeartbeatPresent => Sys2Proof.Machine.execTmHeartbeatPresent s
  | .tmHeartbeatLost => Sys2Proof.Machine.execTmHeartbeatLost s
  | .held8s => Sys2Proof.Machine.execHeld8s s
  | .govHeartbeatToggle => Sys2Proof.Machine.execGovHeartbeatToggle s
  | .shutdown port val => Sys2Proof.Machine.execShutdown port val s
  | .shutdownDrainEnd => Sys2Proof.Machine.execShutdownDrainEnd s
  | .shutdownRailGroupStop => Sys2Proof.Machine.execShutdownRailGroupStop s
  | .xtalCountDrop x => Sys2Proof.Machine.execXtalCountDrop x s
  | .rootPllLock die => Sys2Proof.Machine.execRootPllLock die s
  | .shortInWindow rail => Sys2Proof.Machine.execShortInWindow rail s
  | .govErrReadback hall => Sys2Proof.Machine.execGovErrReadback hall s
  | .traceRingPoll ci => Sys2Proof.Machine.execTraceRingPoll ci s
  | .waitEnd die w => Sys2Proof.Machine.execWaitEnd die w s
  | .pcieLinkChange hx up => Sys2Proof.Machine.execPcieLinkChange hx up s

end Sys2Proof.Machine
end

