-- ==== Sys2Proof/Safety.lean ====
section
/-!
DEFINITION. Sys2Proof/Safety.lean: what counts as a sound state and a safe run of the block, and the terms in which statements say what a
command leaves as it was.
-/
namespace Sys2Proof.Machine

/-! ## Sound states -/

/-- Every table of the state is in its one canonical form, so that equal contents are equal data. -/
def State.wf (s : State) : Bool :=
  Store.wf FieldRef.lt FieldRef.reset s.regs && Store.wf FieldRef.lt FieldRef.reset s.limits && Store.wf FieldRef.lt fracInit s.frac &&
  Store.wf natLt portInit s.ports && Store.wf natLt msixInit s.msix && Store.wf natLt PendInfo.init s.pend &&
  Store.wf natLt telInit s.tel && Store.wf natLt HallState.init s.ctrl && Store.wf natLt DieState.init s.dies &&
  Store.wf natLt HallDie.init s.halls && Store.wf natLt PartState.init s.parts && Store.wf natLt RingState.init s.rings &&
  Store.wf natLt RailState.init s.rails

/-- No lower-only field stands above its reset value: nothing can raise a Lintel limit (R8). -/
def State.limitsHeld (s : State) : Prop :=
  ∀ r : FieldRef, r.f.isLimit = true → limitLe r.f (s.reg r) (if r.exists then r.reset else 0) = true

/-- A sound state: canonical tables, and limits that nothing has raised. -/
def State.sound (s : State) : Prop := s.wf = true ∧ s.limitsHeld

/-- A step that does not stop. -/
def Runs (s : State) : Prop := ∃ t, step s = .next t

/-- A run of n steps in which no step stops and every state is sound. -/
def SafeRun : Nat → State → Prop
  | 0, s => s.sound
  | n + 1, s => s.sound ∧ ∃ t, step s = .next t ∧ SafeRun n t

/-! ## Frames -/

/-- The tables of the state beside its registers. -/
inductive Tab where
  | frac | ports | msix | pend | tel | ctrl | dies | halls | parts | rings | rails
  deriving DecidableEq, Repr

/-- A table reads in one state as it does in another. -/
def State.sameIn (s t : State) : Tab → Prop
  | .frac => ∀ r, Store.get fracInit t.frac r = Store.get fracInit s.frac r
  | .ports => ∀ p, t.port p = s.port p
  | .msix => ∀ p, t.msixOf p = s.msixOf p
  | .pend => ∀ j, t.pendOf j = s.pendOf j
  | .tel => ∀ d, Store.get telInit t.tel d = Store.get telInit s.tel d
  | .ctrl => ∀ h, t.hall h = s.hall h
  | .dies => ∀ d, t.die d = s.die d
  | .halls => ∀ d, t.hd d = s.hd d
  | .parts => ∀ p, t.part p = s.part p
  | .rings => ∀ n, t.ring n = s.ring n
  | .rails => ∀ r, t.rail r = s.rail r

/-- The state without its tables: pins, queues, buffers, modes and counters that the block keeps once. -/
def State.core (s : State) : State :=
  { s with regs := [], limits := [], frac := [], ports := [], msix := [], pend := [], tel := [], ctrl := [], dies := [], halls := [],
           parts := [], rings := [], rails := [] }

/-- Every register element reads as before but those listed. -/
def State.sameRegsBut (s t : State) (l : List FieldRef) : Prop := ∀ r, r ∉ l → t.reg r = s.reg r

/-- Every register element reads as before but those of the fields that a test names. -/
def State.sameFieldsBut (s t : State) (p : Sys2Proof.Machine.Field → Bool) : Prop := ∀ r : FieldRef, p r.f = false → t.reg r = s.reg r

/-- Every table reads as before but those listed. -/
def State.sameTabsBut (s t : State) (l : List Tab) : Prop := ∀ x, x ∉ l → s.sameIn t x

/-- Nothing has changed but the register elements and the tables listed. -/
def State.onlyChanges (s t : State) (l : List FieldRef) (ts : List Tab) : Prop :=
  s.sameRegsBut t l ∧ s.sameTabsBut t ts ∧ t.core = s.core

/-- The Lintel limits in the window: the address of each one's word, the field, its instance, and its lowest bit (R51, R107, R143, R234). -/
def lintelWords : List (Nat × Sys2Proof.Machine.Field × Nat × Nat) :=
  [(0x4004, .alcElecpkPeak, 0, 0), (0x4008, .alcElecmidMid, 0, 0), (0x4008, .alcElecmidAlen, 0, 16), (0x400C, .alcElecbaseBase, 0, 0),
   (0x400C, .alcElecbaseBlen, 0, 16), (0x3024, .clkLintelFmax, 0, 0), (0x5000, .hrtTargetT, 0, 0), (0x5004, .hrtLtripTrip, 0, 0),
   (0x5014, .hrtW1limLim, 0, 0), (0x5018, .hrtW30limLim, 0, 0)] ++
  (upto 60).flatMap fun r => [(0x1000C + 0x400 * r, .rgcVmaxV, r, 0), (0x10014 + 0x400 * r, .rgcOclimPhase, r, 0),
    (0x10014 + 0x400 * r, .rgcOclimRail, r, 16)]

/-! ## Completions -/

/-- A command of ring set n has ended with this status and result: it runs no longer, and while the ring set is RUNNING with room in its
completion ring its entry is the last thing written there, word 0 after the others (R302, R308, R311). -/
def State.completes (s t : State) (n cid status result : Nat) : Prop :=
  (t.ring n).running = (s.ring n).running.eraseP (fun c => decide (c.cid = cid)) ∧
  (s.ringRunning n = true → s.cplFree n ≠ 0 →
    let a := s.rd .hifRsCplbase 0 n + 16 * s.rd .hifRsCplpi 0 n
    t.dma = s.dma ++
      [{ port := s.ringPort n, addr := a + 4, words := w32 (s.rd .hifRsCmdci 0 n) :: w64 result },
       { port := s.ringPort n, addr := a, words := [w32 (2 ^ 8 * status + 2 ^ 16 * cid + bit (s.ring n).cplPhase)] }])

/-- A fetched command that nothing keeps from running: it waits on ring set n under its number and opcode, its ring set may give it, and the
service state allows it (R306 to R308). -/
def State.mayRun (s : State) (n cid op : Nat) (c : CmdRun) : Prop :=
  s.cmdOf n cid op = some c ∧ c.forbidden = false ∧ (s.svc = svcFailsafe → failsafeOpcode op = true)

/-- A counter one up, held at the greatest value of its field. -/
def State.oneUp (s : State) (f : Sys2Proof.Machine.Field) (i : Nat := 0) (j : Nat := 0) : Nat := min (s.rd f i j + 1) (2 ^ (fieldDef f).width - 1)

/-- What a hiccup or a failed start leaves of a rail and the dies it feeds: COUNT is one up, the dies are held in reset, and CONSEC is one more
while less than 1 s has passed since the rail last entered REG, and otherwise 1; of a rail that has never entered REG the rule says nothing,
and its failed starts count as consecutive (assumption log 93). At 4 the rail is LATCHED (R101, R103). -/
def State.hiccupCounted (s t : State) (r : Nat) : Prop :=
  ((∀ a, (s.rail r).regAt = some a → t.now < a + 1000000000) →
    t.rd .rgcHiccupConsec r = min 7 (s.rd .rgcHiccupConsec r + 1)) ∧
  (∀ a, (s.rail r).regAt = some a → a + 1000000000 ≤ t.now → t.rd .rgcHiccupConsec r = 1) ∧
  t.railSt r = (if 4 ≤ t.rd .rgcHiccupConsec r then railLatched else railHiccup) ∧
  t.rd .rgcHiccupCount r = s.oneUp .rgcHiccupCount r ∧ ∀ d ∈ fedDies r, (t.die d).inReset = true

/-- The queue of the Attic after an event of this code, which is lost where 64 already wait (R365). -/
def State.queued (s t : State) (code : Nat) : Prop :=
  if s.attic.queue.length < 64 then ∃ e, t.attic.queue = s.attic.queue ++ [e] ∧ e.code = code else t.attic.queue = s.attic.queue

/-! ## What a fault can reach -/

/-- The fields that raising a CORRECTED or CONTAINED fault may write: counters, first errors, pending slots and flags of the collector, what
a notice or a closed telemetry block moves in the host interface, the Attic's count of events lost, and a binding that escalation clears (R276 to R284, R312). -/
def faultField (f : Field) : Bool :=
  match f with
  | .hifRsStatNotelost | .hifRsStatInflight | .hifRsTeldrop | .hifRsCplpi | .hifMbPtr | .hifMbTag | .hifMbStatFull | .hifMbStatCollision
  | .fltCorr | .fltCont | .fltFatalc | .fltSrccntCorr | .fltSrccntCont
  | .fltFirstAddr | .fltFirstSrc | .fltFirstAcc | .fltFirstValid | .fltFirstUnit | .fltFirstDetail | .fltFirstMore | .fltFirstTime
  | .fltFirstScope | .fltFirstPart
  | .fltPendSeq | .fltPendSrc | .fltPendScope | .fltPendPart | .fltPendValid | .fltPendRemain | .fltPendMerged
  | .fltStatusPendovf | .fltStatusEscal | .atcHeldlost | .alcPartBindValid => true
  | _ => false

/-- The fields that entry into the floor state and a change of service state write beside those of a fault (R12, R37, R206, R281). -/
def latchField (f : Field) : Bool :=
  match f with
  | .clkCbrCur | .clkCbrGdep | .clkDomCur | .clkDomForced | .govStateFloorf | .govStateCur | .govStatePrev | .dagTrimlvlLvl | .fltStatusFatal
  | .chnPosOrig | .fwcImgVer | .fwcUpdFailc | .fwcUpdStage => true
  | f => faultField f

end Sys2Proof.Machine
end

