-- ==== Sys2Proof/Certificates/Slice0/Obligations.lean ====
section
/-!
DEFINITION. Sys2Proof/Certificates/Slice0/Obligations.lean: the statements for the provers. Unless its docstring says otherwise a statement
holds in every state, whatever commands have led to it.
-/
open Sys2Proof Sys2Proof.Machine

/-! ## The queue, the guard and the lower-only fields -/

/-- The interface of a block: a step runs the command at the front of the queue with the queue's rest, and an empty queue idles
(assumption log 5: the idling is the model's choice). -/
def Obligations.StepTakesTheFront : Prop :=
  (∀ (c : Instr) (s : State), step { s with pending := c :: s.pending } = exec c s) ∧
  ∀ s : State, s.pending = [] → step s = .next s

/-- While the always-on supply is up no command is turned away by the model: each answers a next state, leaves the queue of waiting
commands alone, and never turns fabric time back (R3). -/
def Obligations.EveryCommandCompletes : Prop :=
  ∀ (c : Instr) (s : State), s.aon = true → ∃ t, exec c s = .next t ∧ t.pending = s.pending ∧ s.now ≤ t.now

/-- Without the always-on supply nothing in the block runs: every command but POWER_ON and AON_REMOVED stops with the fault noSupply
(R282, R371; that the model stops there is assumption log 6). -/
def Obligations.NothingRunsWithoutSupply : Prop :=
  ∀ (c : Instr) (s : State), s.aon = false → c ≠ .powerOn → c ≠ .aonRemoved → exec c s = .fault .noSupply

/-- The state after reset is sound, and no command waits in it. -/
def Obligations.ResetIsSound : Prop :=
  State.reset.sound ∧ State.reset.pending = []

/-- Every step keeps a sound state sound: its tables stay in their one canonical form, and no lower-only field stands above its reset
value (R8). -/
def Obligations.EveryStepKeepsSoundness : Prop :=
  ∀ s t : State, s.sound → step s = .next t → t.sound

/-- R8: no command but the removal of the always-on supply raises a lower-only field; only register writes, an I3C write and the policy
blob may lower one, so that every reset leaves it; a write of a value that is not above it lands, from any port; the removal returns every
one of them to its reset value. -/
def Obligations.LowerOnlyFieldsNeverRise : Prop :=
  (∀ (c : Instr) (s t : State) (r : FieldRef), c ≠ .aonRemoved → exec c s = .next t → r.f.isLimit = true →
    limitLe r.f (t.reg r) (s.reg r) = true) ∧
  (∀ (c : Instr) (s t : State), c ≠ .aonRemoved → (∀ p a v w h, c ≠ .registerWrite p a v w h) → (∀ p a v, c ≠ .upperHalfWrite p a v) →
    (∀ b, c ≠ .i3cPrivateWrite b) → (∀ h, c ≠ .policyApply h) → exec c s = .next t → t.limits = s.limits) ∧
  (∀ (s : State) (p : Port) (v : Word) (x : Nat × Sys2Proof.Machine.Field × Nat × Nat), s.aon = true → x ∈ lintelWords →
    limitLe x.2.1 (v.toNat / 2 ^ x.2.2.2 % 2 ^ (fieldDef x.2.1).width) (s.rd x.2.1 x.2.2.1) = true →
    ∃ t, exec (.registerWrite p (BitVec.ofNat 20 x.1) v .word none) s = .next t ∧
      t.rd x.2.1 x.2.2.1 = v.toNat / 2 ^ x.2.2.2 % 2 ^ (fieldDef x.2.1).width) ∧
  ∀ (s : State), s.aon = true → ∃ t, exec .aonRemoved s = .next t ∧
    ∀ r : FieldRef, r.f.isLimit = true → r.exists = true → t.reg r = r.reset

/-- The always-on supply removed and applied again: the package is dark, then COLD with nothing FATAL, no rail LATCHED or SHORT, no
counter of the collector kept, and every lower-only field at its reset value; the flash keeps what ageing has raised (R266, R282, R371).
Wherever the supply is absent, applying it starts the crystals' attempts, puts GOV_ERR at 01 and changes nothing else, but that the commanders'
balls are seen: POWER_ALERT_N low forces the floor state (R21, R129, R371).
-/
def Obligations.SupplyRemovedAndApplied : Prop :=
  (∀ s : State, s.aon = false → ∃ t, exec .powerOn s = .next t ∧ t.aon = true ∧ t.now = s.now ∧ t.svc = s.svc ∧ t.limits = s.limits ∧
    t.flash = s.flash ∧ t.pins.govErrN = true ∧ t.clock.start0 = s.now ∧ t.clock.start1 = s.now ∧ t.lim.throttle = !s.pins.throttleN ∧
    (s.pins.powerAlertN = true → s.sameRegsBut t [] ∧ s.sameTabsBut t [] ∧ t.floorOn = s.floorOn) ∧
    (s.pins.powerAlertN = false → t.floorOn = true ∧ t.force.alert = true ∧ (∀ k, k < 128 → t.rd .clkCbrCur 0 k = 0x200) ∧
      s.sameFieldsBut t latchField ∧ s.sameTabsBut t [])) ∧
  ∀ s : State, s.aon = true → ∃ t u, exec .aonRemoved s = .next t ∧ t.aon = false ∧ t.now = s.now ∧ t.pending = s.pending ∧
    t.flash = s.flash ∧ t.attic.flash = s.attic.flash ∧ (∀ j, t.rd .ageDieRaise 0 j = s.rd .ageDieRaise 0 j) ∧
    exec .powerOn t = .next u ∧ u.aon = true ∧ u.svc = svcCold ∧ u.flag .fltStatusFatal = false ∧
    (∀ r, u.railSt r = railOff) ∧ u.rd .fltAonns = 0 ∧ u.rd .ageOptimeSec = 0 ∧ u.phasesOut = [] ∧
    ∀ r : FieldRef, r.f.isLimit = true → r.exists = true → u.reg r = r.reset

/-! ## Register accesses (chapter 1) -/

/-- From R4, R5: a write narrower than 32 bits, an unaligned one, and one to an address that holds no register are discarded and set
GOV.STATUS.ACCERR; nothing else changes but the response that the port sees. From R5: a read of an address at which no block stands
returns zero to the port, and changes nothing but what that port sees. -/
def Obligations.DiscardedWritesAndEmptyAddresses : Prop :=
  (∀ (s : State) (p : Port) (a : BitVec 20) (v : Word) (w : Width) (hw : Option HwUpdate), s.aon = true →
     (w ≠ .word ∨ a.toNat % 4 ≠ 0 ∨ (locate a.toNat = none ∧ ¬ (0xC000 ≤ a.toNat ∧ a.toNat < 0x10000)) ∨
       ∃ b i off, locate a.toNat = some (b, i, off) ∧ reaches p b off = true ∧ isMsix b off = false ∧ definedWord b off = false) →
     ∃ t, exec (.registerWrite p a v w hw) s = .next t ∧ t.rd .govStatusAccerr = 1 ∧
       s.onlyChanges t [⟨.govStatusAccerr, 0, 0⟩] [.ports]) ∧
  (∀ (s : State) (p : Port) (a : ReadAt) (hw : Option HwUpdate), s.aon = true → locate (a.addr.toNat - a.addr.toNat % 4) = none →
     ∃ t, exec (.rcRead p a hw) s = .next t ∧ (t.port p).rdata = 0 ∧ s.onlyChanges t [] [.ports])

/-- From R7, R11: how a write of a word lands by access kind, at ALC.CREDITRSV (RW, at least 100 000: R51), ALC.PKGLIM (RO), ALC.OVERCNT
(RC) and ALC.ELECPK (RWL), from any port: an RW field takes the value; RO and RC fields discard it without a flag; a lower-only field
takes a value not above its own, and otherwise keeps its own with STATUS.RAISEREJ set. From R7: writing 1 to an RW1C flag clears it and
writing 0 leaves it, here ACCERR, WRDROP and the other flags of GOV.STATUS; and where hardware sets the flag in the same cycle, it reads 1
(R10). From R4, R7, R10: a read of the RC counter ALC.OVERCNT, of any width and from any of its bytes up, returns those bytes of its value, none
beyond the word, and clears all of it; an increment in the same cycle is all that it then holds. -/
def Obligations.AccessKindsLand : Prop :=
  (∀ (s : State) (p : Port) (v : Word), s.aon = true → s.frozen = none →
     (∃ t, exec (.registerWrite p 0x0402C v .word none) s = .next t ∧ t.rd .alcCreditrsvRsv = max 100000 v.toNat ∧
       s.onlyChanges t [⟨.alcCreditrsvRsv, 0, 0⟩] [.ports]) ∧
     (∃ t, exec (.registerWrite p 0x04000 v .word none) s = .next t ∧ s.onlyChanges t [] [.ports]) ∧
     (∃ t, exec (.registerWrite p 0x04030 v .word none) s = .next t ∧ s.onlyChanges t [] [.ports]) ∧
     ∃ t, exec (.registerWrite p 0x04004 v .word none) s = .next t ∧
       if v.toNat % 2 ^ 16 ≤ s.rd .alcElecpkPeak then
         t.rd .alcElecpkPeak = v.toNat % 2 ^ 16 ∧ s.onlyChanges t [⟨.alcElecpkPeak, 0, 0⟩] [.ports]
       else t.rd .alcStatusRaiserej = 1 ∧ s.onlyChanges t [⟨.alcStatusRaiserej, 0, 0⟩] [.ports]) ∧
  (∀ (s : State) (p : Port) (v : Word), s.aon = true → s.rd .govStatusAccerr ≤ 1 →
     (∃ t, exec (.registerWrite p 0x000FC v .word none) s = .next t ∧
       t.rd .govStatusAccerr = (if v.toNat / 2 ^ (fieldDef .govStatusAccerr).lo % 2 = 1 then 0 else s.rd .govStatusAccerr)) ∧
     ∃ t, exec (.registerWrite p 0x000FC v .word (some ⟨0xFFFFFFFF, 0xFFFFFFFF⟩)) s = .next t ∧ t.rd .govStatusAccerr = 1) ∧
  (∀ (s : State) (p : Port) (w : Width) (k : Nat) (hw : Option HwUpdate), s.aon = true → s.frozen = none → k < 4 →
     ∃ t, exec (.rcRead p ⟨BitVec.ofNat 20 (0x04030 + k), w⟩ hw) s = .next t ∧
       (t.port p).rdata = s.rd .alcOvercntCount % 2 ^ 32 / 2 ^ (8 * k) % 2 ^ (8 * widthBytes w) ∧
       t.rd .alcOvercntCount =
         (match hw with | some h => if h.fields.toNat = 0 then 0 else min h.val.toNat (2 ^ 32 - 1) | none => 0) ∧
       s.onlyChanges t [⟨.alcOvercntCount, 0, 0⟩] [.ports])

/-- From R6: reading the lower half of ALC.CREDIT latches its upper half for that port, and the upper half read next by that port is the
one latched, whatever the register then holds. From R6: a write to the lower half of QEA[q].ENERGY is held, and a write to its upper half
puts the whole value in force, with the lower half that the same port holds, or else with the one that the register has. -/
def Obligations.HalvesOfWideRegisters : Prop :=
  (∀ (s : State) (p : Port), s.aon = true → ∃ t, exec (.lowerHalfRead p ⟨0x04024, .word⟩) s = .next t ∧
     (t.port p).rdata = s.rd .alcCredit % 2 ^ 32 ∧ s.onlyChanges t [] [.ports] ∧ (∀ q, q ≠ p → t.port q = s.port q) ∧
     ∀ u : State, u.aon = true → u.port p = t.port p →
       ∃ x, exec (.rcRead p ⟨0x04028, .word⟩ none) u = .next x ∧ (x.port p).rdata = s.rd .alcCredit / 2 ^ 32 % 2 ^ 32) ∧
  (∀ (s : State) (p : Port) (q : Fin 16384) (v w : Word), s.aon = true → s.frozen = none →
     (∃ t, exec (.registerWrite p (BitVec.ofNat 20 (0x80000 + 16 * q.val)) v .word none) s = .next t ∧
       t.heldHalf p (0x80000 + 16 * q.val) = some (0x80000 + 16 * q.val, v.toNat) ∧ s.onlyChanges t [] [.ports]) ∧
     (∀ x, s.heldHalf p (0x80000 + 16 * q.val) = some (0x80000 + 16 * q.val, x) → x < 2 ^ 32 →
       ∃ t, exec (.upperHalfWrite p (BitVec.ofNat 20 (0x80004 + 16 * q.val)) w) s = .next t ∧
         t.rd .qeaEnergy q.val = w.toNat * 2 ^ 32 + x ∧ t.heldHalf p (0x80000 + 16 * q.val) = none ∧
         s.onlyChanges t [⟨.qeaEnergy, q.val, 0⟩] [.ports]) ∧
     (s.heldHalf p (0x80000 + 16 * q.val) = none →
       ∃ t, exec (.upperHalfWrite p (BitVec.ofNat 20 (0x80004 + 16 * q.val)) w) s = .next t ∧
         t.rd .qeaEnergy q.val = w.toNat * 2 ^ 32 + s.rd .qeaEnergy q.val % 2 ^ 32 ∧ s.onlyChanges t [⟨.qeaEnergy, q.val, 0⟩] [.ports]))

/-! ## Faults, injection and self-tests (chapter 14) -/

/-- From R281, R286, R237, R206: a FATAL fault sets the latch, forces the floor state with every compute branch at ÷32, puts GOV_ERR at 10
and GOV_HEARTBEAT low, ends trim, and makes the service state FAILSAFE; no rail register changes. -/
def Obligations.FatalLatchesAndFailsafe : Prop :=
  ∀ (s : State) (c : FatalCause) (u : BitVec 16), s.aon = true → s.flag .fltStatusFatal = false →
    ∃ t, exec (.fatalLatch c u) s = .next t ∧ t.flag .fltStatusFatal = true ∧ t.svc = svcFailsafe ∧ t.force.fatal = true ∧
      t.floorOn = true ∧ t.pins.govErrP = true ∧ t.pins.govErrN = false ∧ t.pins.govHeartbeat = false ∧ t.chainRole ≠ 2 ∧
      (∀ k, k < 128 → t.rd .clkCbrCur 0 k = 0x200) ∧ (∀ d k, d < 32 → k < 4 → t.rd .dagTrimlvlLvl d k = 0) ∧
      s.sameFieldsBut t latchField ∧ s.sameTabsBut t [.rings, .msix, .pend, .ctrl] ∧
      t.rd .fltFatalc = min (s.rd .fltFatalc + 1) (2 ^ (fieldDef .fltFatalc).width - 1)

/-- From R278, R280: when the timer of a pending fault ends, its slot is emptied, and every partition in its scope loses its binding and
has a STOPPED statement due on its ring set; STATUS.ESCAL is set where there is one. -/
def Obligations.EscalationStopsPartitions : Prop :=
  ∀ (s : State) (j : Fin 16), s.aon = true → s.flag .fltPendValid 0 j.val = true →
    ∃ t, exec (.escalation j) s = .next t ∧ t.flag .fltPendValid 0 j.val = false ∧ (s.pendOf j.val).deadline ≤ t.now ∧
      ∀ p ∈ s.scopeParts (scopeOf (s.rd .fltPendScope 0 j.val)) (s.pendOf j.val).unit,
        t.inForce p = false ∧ t.flag .fltStatusEscal = true ∧
        ∃ d ∈ (t.ring p).due, d.kind = .stopped ∧ d.part = p ∧ d.tag = s.tagOf p ∧ d.dies = s.rd .alcPartDies 0 p

/-- From R278: an acknowledgement ends the timer of every pending fault that it names, by sequence number or all of them, and touches no
other slot. From R284: bit c of a write to FLT.FCLR re-arms the capture of class c. -/
def Obligations.AcknowledgeAndRearm : Prop :=
  (∀ (s : State) (p : Port) (v : Word), s.aon = true →
     ∃ t, exec (.faultAck p v) s = .next t ∧
       (∀ j, j < 16 → t.flag .fltPendValid 0 j =
         (s.flag .fltPendValid 0 j && !(testBit v.toNat 16 || decide (s.rd .fltPendSeq 0 j = v.toNat % 2 ^ 16)))) ∧
       s.sameFieldsBut t (fun f => decide (f = .fltPendValid ∨ f = .fltPendRemain)) ∧ s.sameTabsBut t [] ∧ t.core = s.core) ∧
  (∀ (s : State) (p : Port) (v : BitVec 3), s.aon = true →
     ∃ t, exec (.firstErrorRearm p v) s = .next t ∧
       (∀ c, c < 3 → t.rd .fltFirstValid 0 c = if testBit v.toNat c then 0 else s.rd .fltFirstValid 0 c) ∧
       s.onlyChanges t [⟨.fltFirstValid, 0, 0⟩, ⟨.fltFirstValid, 0, 1⟩, ⟨.fltFirstValid, 0, 2⟩] [])

/-- From R284, R286: a read-back of GOV_ERR that differs sets GOVERRBAD and raises a CORRECTED fault. The first of its class since it was
re-armed is captured with source, unit, detail and time; a later one only raises MORE. -/
def Obligations.FirstErrorIsCaptured : Prop :=
  ∀ (s : State) (h : Hall), s.aon = true → s.now < 2 ^ 64 →
    ∃ t, exec (.govErrReadback h) s = .next t ∧ t.flag .fltStatusGoverrbad = true ∧
      t.rd .fltCorr = min (s.rd .fltCorr + 1) (2 ^ (fieldDef .fltCorr).width - 1) ∧
      s.sameFieldsBut t (fun f => faultField f || decide (f = .fltStatusGoverrbad)) ∧ s.sameTabsBut t [] ∧
      if s.flag .fltFirstValid 0 0 then
        t.rd .fltFirstMore 0 0 = min (s.rd .fltFirstMore 0 0 + 1) (2 ^ (fieldDef .fltFirstMore).width - 1) ∧
        t.rd .fltFirstSrc 0 0 = s.rd .fltFirstSrc 0 0 ∧ t.rd .fltFirstTime 0 0 = s.rd .fltFirstTime 0 0
      else t.flag .fltFirstValid 0 0 = true ∧ t.rd .fltFirstSrc 0 0 = 2 ∧ t.rd .fltFirstDetail 0 0 = 3 ∧
        t.rd .fltFirstUnit 0 0 = 40 + h.val ∧ t.rd .fltFirstTime 0 0 = s.now

/-- From R287, R241: each injection arms its check, which stays armed until it is used, and does nothing else but to land the field that
names the die or the mailbox. -/
def Obligations.InjectionsArm : Prop :=
  ∀ (s : State) (p : Port) (d : Die) (m : Mbox), s.aon = true →
    (∃ t, exec (.injectLard1 p) s = .next t ∧ t.core = { s.core with inject := { s.inject with lard := 1 } } ∧ s.sameRegsBut t []) ∧
    (∃ t, exec (.injectLard2 p) s = .next t ∧ t.core = { s.core with inject := { s.inject with lard := 2 } } ∧ s.sameRegsBut t []) ∧
    (∃ t, exec (.injectCell1 p) s = .next t ∧ t.core = { s.core with inject := { s.inject with cell := 1 } } ∧ s.sameRegsBut t []) ∧
    (∃ t, exec (.injectCell2 p) s = .next t ∧ t.core = { s.core with inject := { s.inject with cell := 2 } } ∧ s.sameRegsBut t []) ∧
    (∃ t, exec (.injectLane p d) s = .next t ∧ d.val ∈ t.inject.lanes ∧ t.rd .fltInjDie = d.val ∧
      s.sameRegsBut t [⟨.fltInjDie, 0, 0⟩] ∧ s.sameTabsBut t []) ∧
    (∃ t, exec (.injectMbox p m) s = .next t ∧ m.val ∈ t.inject.mboxes ∧ t.rd .fltInjMb = m.val ∧
      s.sameRegsBut t [⟨.fltInjMb, 0, 0⟩] ∧ s.sameTabsBut t []) ∧
    (∃ t, exec (.injectChain p) s = .next t ∧ t.core = { s.core with inject := { s.inject with chain := true } } ∧ s.sameRegsBut t []) ∧
    ∃ t, exec (.chnInjCrcinv p) s = .next t ∧ t.core = { s.core with inject := { s.inject with chain := true } } ∧ s.sameRegsBut t []

/-- From R288: the targeted self-tests count a pass as transient and a failure as lasting, and a failure retires the phase, withdraws the
way or retires the lane; a mailbox that fails stays in use with a CONTAINED fault. From R285: on an error pair 10 sets the FATAL latch, 00
or 11 marks the pair broken and shows it in FLT.PAIRBRK with a fault, and 01 ends that condition. -/
def Obligations.SelfTestsAndErrorPairs : Prop :=
  (∀ (s : State) (r : Rail) (p : Phase) (b e : Int) (u : MemUnit) (set : Nat) (d : Die) (h : Hall) (m : Mbox) (pass : Bool), s.aon = true →
     (s.phMasked r.val p.val = true →
       ∃ t, exec (.phaseSelftest r p b e) s = .next t ∧
         if b + 16 ≤ e then t.phMasked r.val p.val = false ∧ t.phasesOut = s.phasesOut ∧
           t.rd .fltTrans = min (s.rd .fltTrans + 1) (2 ^ (fieldDef .fltTrans).width - 1)
         else t.ph r.val p.val = 4 ∧ t.phasesOut = s.phasesOut ++ [(r.val, p.val)] ∧
           t.rd .fltLasting = min (s.rd .fltLasting + 1) (2 ^ (fieldDef .fltLasting).width - 1)) ∧
     (∃ t, exec (.memoryWordSelftest u set pass) s = .next t ∧
       (pass = true → s.onlyChanges t [⟨.fltTrans, 0, 0⟩] [] ∧
         t.rd .fltTrans = min (s.rd .fltTrans + 1) (2 ^ (fieldDef .fltTrans).width - 1)) ∧
       (pass = false → s.sameRegsBut t [⟨.fltLasting, 0, 0⟩] ∧
         t.rd .fltLasting = min (s.rd .fltLasting + 1) (2 ^ (fieldDef .fltLasting).width - 1) ∧
         match u with
         | .larder => t.lard.withdrawn = s.lard.withdrawn ++ [set]
         | .cellar => t.lard.withdrawnC = s.lard.withdrawnC ++ [set])) ∧
     (∃ t, exec (.laneSelftest d h pass) s = .next t ∧
       (pass = true → s.onlyChanges t [⟨.fltTrans, 0, 0⟩] []) ∧
       (pass = false → t.rd .fltLasting = min (s.rd .fltLasting + 1) (2 ^ (fieldDef .fltLasting).width - 1) ∧
         t.rd .fltCorr = min (s.rd .fltCorr + 1) (2 ^ (fieldDef .fltCorr).width - 1) ∧
         (if h.val = 0 then (t.hd d.val).laneOutA = true else (t.hd d.val).laneOutB = true))) ∧
     ∃ t, exec (.mailboxSelftest m pass) s = .next t ∧
       (pass = true → s.onlyChanges t [⟨.fltTrans, 0, 0⟩] []) ∧
       (pass = false → t.rd .fltLasting = min (s.rd .fltLasting + 1) (2 ^ (fieldDef .fltLasting).width - 1) ∧
         t.rd .fltCont = min (s.rd .fltCont + 1) (2 ^ (fieldDef .fltCont).width - 1))) ∧
  (∀ (s : State) (d : Die) (h : Hall), s.aon = true →
     (∃ t, exec (.errorPairLevel d h .l10) s = .next t ∧ t.flag .fltStatusFatal = true) ∧
     (∀ l, l = .l00 ∨ l = .l11 → (s.hd d.val).pairTo h.val = false →
       ∃ t, exec (.errorPairLevel d h l) s = .next t ∧ (t.hd d.val).pairTo h.val = true ∧
         t.rd .fltPairbrkBrk = (((upto 40).filter fun k => (t.hd k).pairTo s.active).foldl (fun n k => n + 2 ^ k) 0) ∧
         (if (s.hd d.val).pairTo (1 - h.val) then t.rd .fltCont = min (s.rd .fltCont + 1) (2 ^ (fieldDef .fltCont).width - 1)
          else t.rd .fltCorr = min (s.rd .fltCorr + 1) (2 ^ (fieldDef .fltCorr).width - 1))) ∧
     ∃ t, exec (.errorPairLevel d h .l01) s = .next t ∧ (t.hd d.val).pairTo h.val = false)

/-! ## Resets and the recovery of die agents (chapters 1 and 14) -/

/-- From R9, R320: a warm reset of a compute die empties its windows and requests and leaves its die agent's registers; one of a control
complex stops it and returns the mailboxes it receives; one of a host die takes EN from the ring sets of its port and clears the port's
latches. From R391: compute-recovery reset abandons a die's running descriptors, its windows and its pending requests, and clears its
issue limiters; it counts no outcome. -/
def Obligations.WarmAndRecoveryResets : Prop :=
  (∀ (s : State) (d : CDie) (h : Hall), s.aon = true →
     (∃ t, exec (.warmReset (.compute d)) s = .next t ∧ (t.die d.val).windows = [] ∧ (t.die d.val).adm.reqs = [] ∧
       (t.die d.val).inReset = !s.dieFed d.val ∧ s.sameFieldsBut t (fun f => decide (f = .dagAdmcorePend ∨ f = .dagAdmstatPend)) ∧
       s.sameTabsBut t [.dies] ∧ (∀ e, e ≠ d.val → t.die e = s.die e) ∧ t.core = s.core) ∧
     (∃ t, exec (.warmReset (.control h)) s = .next t ∧ (t.hall h.val).up = false ∧
       if h.val = s.active then t.flag .hifMbStatFull 0 0 = false ∧ t.flag .hifMbStatFull 0 2 = false ∧ t.port .cc = PortState.init
       else t.flag .govHallStbyrdy = false) ∧
     ∃ t, exec (.warmReset (.host h)) s = .next t ∧ (∀ n, n < 16 → s.rd .hifRsCtrlPort 0 n = h.val → t.flag .hifRsCtrlEn 0 n = false) ∧
       t.port (hostPort h.val) = PortState.init ∧ t.msixOf (hostPort h.val) = MsixState.init) ∧
  (∀ (s : State) (d : CDie), s.aon = true →
     ∃ t, exec (.computeRecoveryReset d) s = .next t ∧ (t.die d.val).windows = [] ∧ (t.die d.val).adm.reqs = [] ∧
       (t.die d.val).adm.limiters = [] ∧ (t.die d.val).adm.notices = [] ∧ (t.die d.val).updBuf = (s.die d.val).updBuf ∧
       (t.die d.val).inReset = !s.dieFed d.val ∧
       s.sameFieldsBut t (fun f => decide (f = .dagAdmcorePend ∨ f = .dagAdmstatPend)) ∧ s.sameTabsBut t [.dies] ∧ t.core = s.core)

/-- From R16, R289, R288: an island whose power is back comes up at the next generation, wrapping from 15 to 0, and runs its die at the
FLOOR settings; a reset of one that has power does nothing. The Hall admits it, once a report of that generation has come, with its copies
restored and spent and a first grant on the lane. From R281, R288: an
unresponsive die agent of a compute die has its island's power cut, with its grants reclaimed; that of a fabric or a host die is FATAL. -/
def Obligations.AgentsRestartOrAreCut : Prop :=
  (∀ (s : State) (d : Die), s.aon = true →
     ((s.die d.val).powered = false →
       ∃ t, exec (.dieAgentReset d) s = .next t ∧ (t.die d.val).powered = true ∧ (t.die d.val).gen = ((s.die d.val).gen + 1) % 16 ∧
         (t.hd d.val).admitted = (s.hd d.val).admitted ∧
         (d.val < 32 → t.rd .rgcVidV d.val = max (railRange d.val).1 (min (s.ceiling d.val) 1500) ∧
           ∀ k ∈ branchesOf d.val, t.rd .clkCbrTgt 0 k = 0x100)) ∧
     ((s.die d.val).powered = true → ∃ t, exec (.dieAgentReset d) s = .next t ∧ s.onlyChanges t [] []) ∧
     ((s.hd d.val).admitted = false → (s.die d.val).powered = true → (∃ r, (s.hd d.val).newest = some r ∧ r.gen = (s.die d.val).gen) →
       ∃ t g, exec (.dieAdmit d) s = .next t ∧ (t.hd d.val).admitted = true ∧ (t.hd d.val).gen = (s.die d.val).gen ∧
         (t.hd d.val).copy = [] ∧ (t.hd d.val).lane = (s.hd d.val).lane ++ [g] ∧ (t.hd d.val).lastGrant = some g ∧
         g.gen = (s.die d.val).gen ∧
         ∀ r v, (s.hd d.val).copy = [(r, v)] → r.f ∈ copiedFields → r.exists = true → t.reg r = v % 2 ^ (fieldDef r.f).width) ∧
     ∀ c, (s.hd d.val).cutAt = some c → (s.die d.val).powered = false →
       ∃ t, exec (.islandCycleEnd d) s = .next t ∧ (t.die d.val).powered = true ∧ (t.die d.val).gen = ((s.die d.val).gen + 1) % 16 ∧
         c + 100000 ≤ t.now ∧ (t.hd d.val).cutAt = none) ∧
  (∀ (s : State) (d : Die), s.aon = true → s.unresponsive d.val = true →
     ∃ t, exec (.agentUnresponsive d) s = .next t ∧
       (d.val < 32 ∨ d.val = 36 ∨ d.val = 37 → (t.die d.val).powered = false ∧ (t.hd d.val).admitted = false ∧ (t.hd d.val).lastGrant = none ∧
         (t.hd d.val).cutAt = some t.now) ∧
       (32 ≤ d.val → d.val ≠ 36 → d.val ≠ 37 → t.flag .fltStatusFatal = true))

/-! ## The fast loop (chapters 1, 2, 9 and 14) -/

/-- From R19: at a fast-period boundary the period advances, every die agent with power puts one report of its generation on both lanes,
and a grant received is applied, which ends STEWARD for its die. From R19, R32, R288: the sampling instant comes 40 ns after the boundary
at the earliest, sends a beacon, and takes every report as used: a die that has sent none is one period more silent. -/
def Obligations.FastPeriod : Prop :=
  (∀ (s : State) (ins : List DieInput), s.aon = true →
     ∃ t, exec (.periodBoundary ins) s = .next t ∧ s.period < t.period ∧ 250 * t.period ≤ t.now ∧
       ∀ d : Die, (s.die d.val).powered = true →
         (∃ r : Report, (t.die d.val).laneA = (s.die d.val).laneA ++ [r] ∧ (t.die d.val).laneB = (s.die d.val).laneB ++ [r] ∧
           r.gen = (s.die d.val).gen) ∧
         (t.die d.val).next = none ∧
         match (s.die d.val).next with
         | some g => (t.die d.val).applied = some g.period ∧ (t.die d.val).steward = false
         | none => (t.die d.val).applied = (s.die d.val).applied ∧ (t.die d.val).steward = (s.die d.val).steward) ∧
  (∀ s : State, s.aon = true →
     ∃ t, exec .samplingInstant s = .next t ∧ s.lastB + 40 ≤ t.now ∧ t.beacons = s.beacons + 1 ∧
       ∀ d, d < 40 → (t.hd d).fresh = false ∧ (t.hd d).silent = if (s.hd d).fresh then 0 else (s.hd d).silent + 1)

/-- From R20: the active Hall uses a report that is good, in time and of the die's generation; one that comes late is counted and kept apart, and
its die is silent no longer; it drops one of a stale generation, and drops one with bad parity with a CORRECTED fault, counting it late. The
standby uses none. From R197, R20: a die agent takes the grant at the head of its lane,
unless its period has been applied or awaits its boundary, its generation is not current or its role epoch is stale; a stale one is
discarded, and one with bad parity is a CORRECTED fault. -/
def Obligations.ReportsAndGrants : Prop :=
  (∀ (s : State) (h : Hall) (d : Die) (r : Report) (l : List Report), s.aon = true → h.val = s.active →
     (s.die d.val).laneTo h = r :: l → d.val ∉ s.inject.lanes →
     (r.gen = (s.die d.val).gen → ∃ t, exec (.reportReceived h d true false) s = .next t ∧
       (t.hd d.val).rep = some r ∧ (t.hd d.val).fresh = true ∧ (t.hd d.val).silent = 0) ∧
     (r.gen ≠ (s.die d.val).gen → ∃ t, exec (.reportReceived h d true false) s = .next t ∧
       (t.die d.val).laneTo h = l ∧ s.onlyChanges t [] [.dies]) ∧
     (r.gen = (s.die d.val).gen → ∃ t, exec (.reportReceived h d true true) s = .next t ∧
       (t.hd d.val).rep = (s.hd d.val).rep ∧ (t.hd d.val).fresh = (s.hd d.val).fresh ∧ (t.hd d.val).silent = 0 ∧
       (t.hd d.val).late = some r ∧ (t.die d.val).laneTo h = l ∧ t.rd .dagStatusLaterep d.val = s.oneUp .dagStatusLaterep d.val) ∧
     ∃ t, exec (.reportReceived h d false false) s = .next t ∧ (t.die d.val).laneTo h = l ∧ t.hd d.val = s.hd d.val ∧
       t.rd .fltCorr = min (s.rd .fltCorr + 1) (2 ^ (fieldDef .fltCorr).width - 1) ∧
       t.rd .dagStatusLaterep d.val = min (s.rd .dagStatusLaterep d.val + 1) (2 ^ (fieldDef .dagStatusLaterep).width - 1)) ∧
  (∀ (s : State) (h : Hall) (d : Die) (r : Report) (l : List Report) (late : Bool), s.aon = true → h.val ≠ s.active →
     (s.die d.val).laneTo h = r :: l →
     ∃ t, exec (.reportReceived h d true late) s = .next t ∧ (t.die d.val).laneTo h = l ∧ s.onlyChanges t [] [.dies]) ∧
  (∀ (s : State) (d : Die) (g : Grant) (l : List Grant), s.aon = true → (s.hd d.val).lane = g :: l → (s.die d.val).powered = true →
     (g.gen = (s.die d.val).gen → (s.die d.val).epoch ≤ g.epoch → (s.die d.val).applied ≠ some g.period →
       (∀ n, (s.die d.val).next = some n → n.period ≠ g.period) →
       ∃ t, exec (.grantReceived d true) s = .next t ∧ (t.die d.val).next = some g ∧ (t.die d.val).epoch = g.epoch ∧
         (t.hd d.val).lane = l ∧ s.onlyChanges t [] [.dies, .halls]) ∧
     (g.gen ≠ (s.die d.val).gen ∨ g.epoch < (s.die d.val).epoch ∨ (s.die d.val).applied = some g.period ∨
         (∃ n, (s.die d.val).next = some n ∧ n.period = g.period) →
       ∃ t, exec (.grantReceived d true) s = .next t ∧ t.die d.val = s.die d.val ∧ (t.hd d.val).lane = l ∧
         s.onlyChanges t [⟨.dagAlstatDupgrant, d.val, 0⟩] [.halls] ∧
         (d.val < 32 → t.rd .dagAlstatDupgrant d.val =
           min (s.rd .dagAlstatDupgrant d.val + 1) (2 ^ (fieldDef .dagAlstatDupgrant).width - 1))) ∧
     ∃ t, exec (.grantReceived d false) s = .next t ∧ t.die d.val = s.die d.val ∧ (t.hd d.val).lane = l ∧
       t.rd .fltCorr = min (s.rd .fltCorr + 1) (2 ^ (fieldDef .fltCorr).width - 1))

/-- From R32, R33, R34: whatever the state, the period limit that a sampling instant forms is above none of its terms: the tray cap, the
host cap and the thermal limit; and in HELD it is above no level that the grains held sustain. -/
def Obligations.PeriodLimitWithinItsTerms : Prop :=
  ∀ s : State, s.aon = true →
    ∃ t, exec .samplingInstant s = .next t ∧ t.rd .alcPkglimLim ≤ s.rd .alcTraycapCap ∧ t.rd .alcPkglimLim ≤ s.rd .alcHostcapCap ∧
      t.rd .alcPkglimLim ≤ s.rd .alcThermlimLim ∧ (t.svc = svcHeld → t.rd .alcPkglimLim ≤ 8 * t.rd .chnHoldEff)

/-- From R293, R201, R295: a die agent that reaches a boundary with no new grant enters STEWARD, which the package shows, but one not yet admitted
is sent none and does not (R16); after 8 held periods it takes its stewardship share; STEWARD that lasts beyond STEWMAX is FATAL. -/
def Obligations.StewardStages : Prop :=
  ∀ (s : State) (d : Die) (c : CDie), s.aon = true →
    ((s.die d.val).steward = false → (s.die d.val).powered = true → (s.die d.val).next = none → (s.hd d.val).admitted = true →
      s.svc ≠ svcFailsafe →
      ∃ t, exec (.stewardEntry d) s = .next t ∧ (t.die d.val).steward = true ∧ (t.die d.val).held = 1 ∧ t.svc = svcSteward ∧
        t.flag .fltStatusSteward = true ∧ (s.svc ≠ svcSteward → t.svcUnder = s.svc)) ∧
    ((s.hd d.val).admitted = false → ∃ t, exec (.stewardEntry d) s = .next t ∧ s.onlyChanges t [] []) ∧
    ((s.die c.val).steward = true → (s.hd c.val).admitted = true → 9 ≤ (s.die c.val).held →
      ∃ t, exec (.stewardHoldEnd c) s = .next t ∧ (t.die c.val).onShare = true ∧
        t.rd .dagGrantG c.val = s.rd .dagStewshSh c.val % 2 ^ (fieldDef .dagGrantG).width ∧
        ∀ k, k < 4 → t.rd .dagTrimlvlLvl c.val k = 0) ∧
    (s.svc = svcSteward → ∃ t, exec .stewardTimeout s = .next t ∧ t.flag .fltStatusFatal = true ∧
      (s.flag .fltStatusFatal = false → t.svc = svcFailsafe) ∧
      s.now + 1000000 * max 1 (s.rd .fltStewmaxMs) ≤ t.now)

/-- From R21, R36, R37, R382: POWER_ALERT_N low forces the floor state at once, with every compute branch at ÷32, and high for 1 ms takes
its forcing away but does not end the floor state by itself; an edge of THROTTLE_N is kept for the next sampling instant. -/
def Obligations.AlertAndThrottlePins : Prop :=
  ∀ (s : State) (b : Bool), s.aon = true →
    (∃ t, exec .powerAlertAssert s = .next t ∧ t.floorOn = true ∧ t.force.alert = true ∧ t.pins.powerAlertN = false ∧
      (∀ k, k < 128 → t.rd .clkCbrCur 0 k = 0x200) ∧ (∀ d, d < 32 → t.flag .clkDomForced 0 d = true) ∧
      (∀ k, t.rd .clkCbrTgt 0 k = s.rd .clkCbrTgt 0 k) ∧ s.sameTabsBut t []) ∧
    (∃ t, exec .powerAlertRelease s = .next t ∧ t.force = { s.force with alert := false } ∧ t.floorOn = s.floorOn ∧
      t.pins.powerAlertN = true ∧ s.sameRegsBut t [⟨.govStateFloorf, 0, 0⟩] ∧ s.sameTabsBut t []) ∧
    ∃ t, exec (.throttleEdge b) s = .next t ∧ t.pins.throttleN = b ∧ t.lim.throttle = !b ∧ s.sameRegsBut t [] ∧ s.sameTabsBut t [] ∧
      t.core = { s.core with pins := t.pins, lim := t.lim }

/-! ## Hall roles, firmware and live update (chapters 1, 14 and 16) -/

/-- From R18, R292: a beacon received starts the standby's count again; a missed one raises it, and the fourth in a row makes the standby
the active Hall with the next role epoch. From R292, R325: a forcing fault of the active Hall, its watchdog and its pair's lockstep
included, makes a ready standby the active Hall and stops the old one's control complex; with no standby the control complex stops, and no hub
die asks for CHAIN_BYP_HOLD any more (R236). -/
def Obligations.HallRolesChange : Prop :=
  (∀ s : State, s.aon = true →
     (∃ t, exec .beaconReceived s = .next t ∧ t.missed = 0 ∧ s.sameRegsBut t [] ∧ s.sameTabsBut t []) ∧
     (s.flag .govHallStbyrdy = true → s.missed < 3 →
       ∃ t, exec .beaconMissed s = .next t ∧ t.missed = s.missed + 1 ∧ t.active = s.active ∧ s.sameTabsBut t []) ∧
     (s.flag .govHallStbyrdy = true → 3 ≤ s.missed → s.active ≤ 1 →
       ∃ t, exec .beaconMissed s = .next t ∧ t.active = 1 - s.active ∧ t.missed = 0 ∧
         t.rd .fltHallEpoch = (s.rd .fltHallEpoch + 1) % 256 ∧ t.rd .fltHallLast = 1 ∧ t.flag .govHallStbyrdy = false ∧
         (t.hall s.active).up = false)) ∧
  (∀ (s : State) (k : ForcingFault) (h : Hall) (p : PairStop), s.aon = true → s.active ≤ 1 →
     (∃ t, exec (.hallForcingFault k) s = .next t ∧ (t.hall s.active).up = false ∧
       (t.active = if s.flag .govHallStbyrdy then 1 - s.active else s.active) ∧
       (s.flag .govHallStbyrdy = false → t.pins.bypHold = false)) ∧
     ((s.hall h.val).up = true → ∃ t, exec (.watchdogExpiry h) s = .next t ∧ (t.hall h.val).up = false ∧
       t.active = if decide (h.val = s.active) && s.flag .govHallStbyrdy then 1 - s.active else s.active) ∧
     ((s.hall h.val).up = true → ∃ t, exec (.lockstepMismatch h p) s = .next t ∧ (t.hall h.val).up = false ∧
       t.active = if decide (h.val = s.active) && s.flag .govHallStbyrdy then 1 - s.active else s.active))

/-- From R17, R331, R294: the first boot ROM loads the slot that the selector names where its image is valid, and else the other, and with
neither valid the fault is FATAL; a self-test that fails leaves the control complex stopped; a restarted standby that is up becomes ready, with
a complete copy of the Larder.
From R335: each port has its own CRC unit: a seed loads the running value and clears the count, and a word feeds its four bytes, the least
significant first, as four byte feeds do. -/
def Obligations.CrcAndBoot : Prop :=
  (∀ (s : State) (h : Hall), s.aon = true →
     ((s.hall h.val).up = false → (h.val = 1 → (s.hall 0).tried = true) → s.flag .fltStatusFatal = false → s.start.booted = false →
       s.sel.confirmed = true →
       ∃ t, exec (.bootRom h true) s = .next t ∧ t.start.booted = true ∧ t.flash.pwrcyc = s.flash.pwrcyc + 1 ∧
         if s.slotValid s.sel.act then (t.hall h.val).up = true ∧ (t.hall h.val).slot = s.sel.act ∧ t.active = h.val
         else if s.slotValid (1 - s.sel.act) then (t.hall h.val).up = true ∧ (t.hall h.val).slot = 1 - s.sel.act ∧
           t.flag .fwcBootAltslot = true
         else (t.hall h.val).up = false ∧ t.flag .fltStatusFatal = true) ∧
     ((s.hall h.val).up = false → (h.val = 1 → (s.hall 0).tried = true) → s.flag .fltStatusFatal = false →
       ∃ t, exec (.bootRom h false) s = .next t ∧ (t.hall h.val).up = false ∧ (t.hall h.val).failed = true ∧ s.onlyChanges t [] [.ctrl]) ∧
     (s.flag .govHallStbyrdy = false → s.start.booted = true → (s.hall (1 - s.active)).up = true →
       ∃ t, exec .standbyRejoin s = .next t ∧ t.flag .govHallStbyrdy = true ∧ t.flag .fltStatusNostby = false ∧
         t.lard.mirror = s.lard.larder ∧ s.sameRegsBut t [⟨.govHallStbyrdy, 0, 0⟩, ⟨.fltStatusNostby, 0, 0⟩] ∧ s.sameTabsBut t [] ∧
         t.core = { s.core with lard := t.lard })) ∧
  (∀ (s : State) (p : Port) (v : Word) (b : Octet), s.aon = true →
     (∃ t, exec (.crcSeed p v) s = .next t ∧ t.rd .fwcCrcout p.num = v.toNat ^^^ 0xFFFFFFFF ∧ t.rd .fwcCrccnt p.num = 0 ∧
       s.onlyChanges t [⟨.fwcCrcout, p.num, 0⟩, ⟨.fwcCrccnt, p.num, 0⟩] []) ∧
     (s.rd .fwcCrcout p.num < 2 ^ 32 → ∃ t, exec (.crcFeedByte p b) s = .next t ∧
       t.rd .fwcCrcout p.num = crcBytes (s.rd .fwcCrcout p.num ^^^ 0xFFFFFFFF) [b.toNat] ^^^ 0xFFFFFFFF ∧
       t.rd .fwcCrccnt p.num = (s.rd .fwcCrccnt p.num + 1) % 2 ^ 32 ∧
       s.onlyChanges t [⟨.fwcCrcout, p.num, 0⟩, ⟨.fwcCrccnt, p.num, 0⟩] []) ∧
     (s.rd .fwcCrcout p.num < 2 ^ 32 →
       ∃ t t0 t1 t2 t3, exec (.crcFeedWord p v) s = .next t ∧ exec (.crcFeedByte p (v.extractLsb' 0 8)) s = .next t0 ∧
         exec (.crcFeedByte p (v.extractLsb' 8 8)) t0 = .next t1 ∧ exec (.crcFeedByte p (v.extractLsb' 16 8)) t1 = .next t2 ∧
         exec (.crcFeedByte p (v.extractLsb' 24 8)) t2 = .next t3 ∧ t.rd .fwcCrcout p.num = t3.rd .fwcCrcout p.num ∧
         t.rd .fwcCrccnt p.num = t3.rd .fwcCrccnt p.num))

/-- From R338 to R342: a live update advances stage by stage: the download is kept in the slot that does not run, a valid image restarts
the standby on it, the standby loaded quiesces the active firmware, a handover accepted swaps the roles at its boundary, and the old Hall
reloads. From R341 to R345: a live update ends by its confirmation, which no security version of an older image survives, or fails: at its
download, its handover or by an abort in stages 1 to 4, and at its takeover deadline, where the old Hall takes the role back. -/
def Obligations.LiveUpdates : Prop :=
  (∀ s : State, s.aon = true → s.active ≤ 1 →
     (s.rd .fwcUpdStage = 1 → ∃ t, exec (.updateDownloadDone true) s = .next t ∧ t.rd .fwcUpdStage = 2 ∧
       t.region (3 + s.upd.slot) = s.upd.words) ∧
     (s.rd .fwcUpdStage = 2 → ∃ t, exec .updateVerifyDone s = .next t ∧ t.hall s.active = s.hall s.active ∧
       if s.slotValid s.upd.slot then t.rd .fwcUpdStage = 3 ∧ (t.hall (1 - s.active)).up = false ∧ (t.hall (1 - s.active)).slot = s.upd.slot
       else t.rd .fwcUpdStage = 9 ∧ t.rd .fwcUpdFailc = 1) ∧
     (s.rd .fwcUpdStage = 3 → ∃ t, exec .standbyLoaded s = .next t ∧ t.rd .fwcUpdStage = 4 ∧ (t.hall (1 - s.active)).up = true ∧
       t.upd.quiet = true) ∧
     (s.rd .fwcUpdStage = 4 → s.upd.accepted = false → s.formatRead = true →
       ∃ t, exec (.handoverReply true) s = .next t ∧ t.upd.accepted = true ∧ s.now + 1000 ≤ t.upd.swapAt ∧ t.upd.swapAt % 250 = 0 ∧
         s.sameRegsBut t [] ∧ s.sameTabsBut t []) ∧
     (s.rd .fwcUpdStage = 4 → s.upd.accepted = true → ∃ t, exec .updateSwap s = .next t ∧ t.active = 1 - s.active ∧
       t.rd .fwcUpdStage = 5 ∧ t.upd.quiet = false ∧ s.upd.swapAt ≤ t.now ∧ t.rd .fltHallEpoch = (s.rd .fltHallEpoch + 1) % 256) ∧
     (s.rd .fwcUpdStage = 5 → ∃ t, exec .takeoverComplete s = .next t ∧ t.rd .fwcUpdStage = 6 ∧ (t.hall (1 - s.active)).up = false ∧
       t.active = s.active) ∧
     (s.rd .fwcUpdStage = 6 → ∃ t, exec .oldHallReloaded s = .next t ∧ t.rd .fwcUpdStage = 7 ∧ (t.hall (1 - s.active)).up = true ∧
       (t.hall (1 - s.active)).slot = s.upd.slot)) ∧
  (∀ (s : State) (p : Port), s.aon = true → s.active ≤ 1 →
     (s.rd .fwcUpdStage = 7 → s.rd .fwcBootSvnf ≤ 63 → (∀ k, k < 2 → imgSvn (s.region (3 + k)) ≤ 63) →
       ∃ t, exec (.updateConfirm p) s = .next t ∧ t.rd .fwcUpdStage = 8 ∧ s.rd .fwcBootSvnf ≤ t.rd .fwcBootSvnf) ∧
     (1 ≤ s.rd .fwcUpdStage → s.rd .fwcUpdStage ≤ 4 → ∃ t, exec (.updateAbort p) s = .next t ∧ t.rd .fwcUpdStage = 9 ∧
       t.rd .fwcUpdFailc = 6 ∧ t.upd.accepted = false ∧ t.active = s.active) ∧
     (s.rd .fwcUpdStage = 1 → ∃ t, exec (.updateDownloadDone false) s = .next t ∧ t.rd .fwcUpdStage = 9 ∧ t.rd .fwcUpdFailc = 2) ∧
     (∀ b : Bool, s.rd .fwcUpdStage = 4 → s.upd.accepted = false → b = false ∨ s.formatRead = false →
       ∃ t, exec (.handoverReply b) s = .next t ∧ t.rd .fwcUpdStage = 9 ∧ t.rd .fwcUpdFailc = 3) ∧
     (s.rd .fwcUpdStage = 5 → ∃ t, exec .takeoverDeadline s = .next t ∧ t.active = 1 - s.active ∧ t.rd .fwcUpdStage = 9 ∧
       t.rd .fwcUpdFailc = 4 ∧ s.upd.swapAt + 10000000 ≤ t.now))

/-! ## Rails (chapter 4) -/

/-- From R85, R87, R88, R92, R100, R106, R107: a slot of a switching rail latches the sense and moves the grid on by one slot, to within the one root
period that it may slide; the pulse it fires is never shorter than DUTY.TMIN nor longer than DUTY.DMAX allows; a committed coefficient set is
in use from there; a ramp that reaches its target enters REG, and no other rail changes. A slot in which the Lintel limit on the summed
current has been exceeded is the rail's last before HICCUP. A slot of a rail that does not switch moves its temperature peak alone. -/
def Obligations.RailSlots : Prop :=
  (∀ (s : State) (r : Rail) (i : SlotInput), s.aon = true → s.railOn r.val = true → s.railLives r.val = true →
    ∃ t, exec (.railSlot r i) s = .next t ∧ (t.rail r.val).vs = i.vsense ∧ s.slotEnd r.val (s.rail r.val).slot ≤ t.now ∧
      ((s.rail r.val).sumOver = false →
        (∀ p n, (t.rail r.val).pulse = some (p, n) → s.rd .rgcDutyTmin r.val ≤ n ∧ n ≤ s.dmax r.val) ∧
        (t.railSt r.val = s.railSt r.val ∨ (s.railSt r.val = railRamp ∧ t.railSt r.val = railReg)) ∧
        (∀ q, q ≠ r.val → t.rail q = s.rail q) ∧ (t.rail r.val).newComp = none ∧
        (∀ l, (s.rail r.val).newComp = some l → l.length = 7 →
          t.rd .rgcCompB0 r.val = ((l[0]?).getD 0) % 2 ^ (fieldDef .rgcCompB0).width ∧
          t.rd .rgcCompA3 r.val = ((l[6]?).getD 0) % 2 ^ (fieldDef .rgcCompA3).width) ∧
        (s.rd .rgcStaggerOffs r.val < s.slotS r.val → 1 ≤ (s.rail r.val).slot →
          t.rd .rgcStaggerOffs r.val + ((t.rail r.val).slot + 1) * s.slotS r.val ≤
            s.rd .rgcStaggerOffs r.val + ((s.rail r.val).slot + 2) * s.slotS r.val + 1 ∧
          s.rd .rgcStaggerOffs r.val + ((s.rail r.val).slot + 2) * s.slotS r.val ≤
            t.rd .rgcStaggerOffs r.val + ((t.rail r.val).slot + 1) * s.slotS r.val + 1)) ∧
      ((s.rail r.val).sumOver = true →
        t.railSt r.val = (if 4 ≤ t.rd .rgcHiccupConsec r.val then railLatched else railHiccup) ∧
        t.rd .rgcHiccupCount r.val = s.oneUp .rgcHiccupCount r.val ∧ (t.rail r.val).pulse = none ∧
        ∀ p, p < 4 → t.phActive r.val p = false)) ∧
  (∀ (s : State) (r : Rail) (i : SlotInput), s.aon = true →
    (s.railLives r.val = false → ∃ t, exec (.railSlot r i) s = .next t ∧ s.onlyChanges t [] []) ∧
    (s.railLives r.val = true → s.railOn r.val = false →
      ∃ t, exec (.railSlot r i) s = .next t ∧ s.onlyChanges t [⟨.rgcPeakThi, r.val, 0⟩] [] ∧
        t.rd .rgcPeakThi r.val = if toSigned 16 (s.rd .rgcPeakThi r.val) < stageTemp i.tmon then ofSigned 16 (stageTemp i.tmon)
          else s.rd .rgcPeakThi r.val))

/-- From R93, R92, R96: a rail that is enabled from OFF goes through CHECK step by step: its input, its decay and the window of 200 µs, after
which its offsets are stored and it ramps from the voltage sensed there, or waits for its leader; it stays OFF while its leader is OFF, and
with SEQERR where its chain of leaders is broken. From R93, R94: a check that sees no input within 10 ms returns the rail to OFF with
NOINPUT and a CONTAINED fault; a rail that has not decayed within 20 ms, and one that conducts in the window or at its end, is SHORT, which
sticks and is FATAL. -/
def Obligations.RailStartsAndChecks : Prop :=
  (∀ (s : State) (r : Rail) (win : WindowRead), s.aon = true → (railType r.val).isSome = true →
     (s.railSt r.val = railOff → s.railLives r.val = true → s.leadersOk r.val 4 r.val = true →
       ((∀ l, s.leader r.val = some l → s.railSt l ≠ railOff) →
         ∃ t, exec (.railEnable r) s = .next t ∧ t.flag .rgcCfgEn r.val = true ∧ t.railSt r.val = railCheck ∧ (t.rail r.val).chk = 0) ∧
       (∀ l, s.leader r.val = some l → s.railSt l = railOff →
         ∃ t, exec (.railEnable r) s = .next t ∧ t.flag .rgcCfgEn r.val = true ∧ s.onlyChanges t [⟨.rgcCfgEn, r.val, 0⟩] [])) ∧
     (s.railSt r.val = railOff → s.railLives r.val = true → s.leadersOk r.val 4 r.val = false →
       ∃ t, exec (.railEnable r) s = .next t ∧ t.flag .rgcCfgEn r.val = true ∧ t.flag .rgcStatusSeqerr r.val = true ∧
         s.onlyChanges t [⟨.rgcCfgEn, r.val, 0⟩, ⟨.rgcStatusSeqerr, r.val, 0⟩] []) ∧
     (s.railSt r.val = railCheck → (s.rail r.val).chk = 0 →
       ∃ t, exec (.checkInputPresent r) s = .next t ∧ (t.rail r.val).chk = 1 ∧ (t.rail r.val).since = s.now ∧
         s.onlyChanges t [] [.rails] ∧ ∀ q, q ≠ r.val → t.rail q = s.rail q) ∧
     (s.railSt r.val = railCheck → (s.rail r.val).chk = 1 →
       ∃ t, exec (.checkDecayed r) s = .next t ∧ (t.rail r.val).chk = 2 ∧ (t.rail r.val).since = s.now ∧
         s.onlyChanges t [] [.rails] ∧ ∀ q, q ≠ r.val → t.rail q = s.rail q) ∧
     (s.railSt r.val = railCheck → (s.rail r.val).chk = 2 →
       ∃ t, exec (.checkWindowEnd r win) s = .next t ∧ (s.rail r.val).since + 200000 ≤ t.now ∧
         (win.vsense ≤ 500 →
           (t.rail r.val).offs = ((win.offs ++ [0, 0, 0, 0]).take 4).map (fun (n : Int) => (n : Rat)) ∧
           (s.waitsLeader r.val = false → t.railSt r.val = railRamp ∧ (t.rail r.val).vref = (win.vsense : Rat)) ∧
           (s.waitsLeader r.val = true → t.railSt r.val = railCheck ∧ (t.rail r.val).chk = 3 ∧ s.sameTabsBut t [.rails] ∧
             ∀ q, q ≠ r.val → t.rail q = s.rail q)) ∧
         (500 < win.vsense → t.railSt r.val = railShort ∧ t.flag .rgcStatusShort r.val = true ∧ t.flag .fltStatusFatal = true))) ∧
  (∀ (s : State) (r : Rail), s.aon = true → s.railSt r.val = railCheck →
     ((s.rail r.val).chk = 0 → ∃ t, exec (.checkInputTimeout r) s = .next t ∧ t.railSt r.val = railOff ∧
       t.flag .rgcStatusNoinput r.val = true ∧ (s.rail r.val).since + 10000000 ≤ t.now ∧
       t.rd .fltCont = min (s.rd .fltCont + 1) (2 ^ (fieldDef .fltCont).width - 1)) ∧
     ((s.rail r.val).chk = 1 → ∃ t, exec (.checkDecayTimeout r) s = .next t ∧ t.railSt r.val = railShort ∧
       t.flag .rgcStatusShort r.val = true ∧ t.flag .fltStatusFatal = true ∧ (s.rail r.val).since + 20000000 ≤ t.now) ∧
     ((s.rail r.val).chk = 2 → ∃ t, exec (.shortInWindow r) s = .next t ∧ t.railSt r.val = railShort ∧
       t.flag .rgcStatusShort r.val = true ∧ t.flag .fltStatusFatal = true))

/-- From R100, R101, R102, R103: a rail that fails its start, or has been limited for 8 cycles in REG, or reports a TMON fault there, or has
exceeded the Lintel limit on its summed current, is in HICCUP with its counts raised and the dies it feeds in reset, and the followers that it
takes with it from REG are too; at CONSEC 4 it is LATCHED. From R97, R101, R103, R105: clearing EN takes a switching rail DOWN and ends a
check at once; DOWN ends at 0.10 V, in OFF with no phase active; a hiccup ends after 20 ms in CHECK, or in OFF where EN is clear; 1 s in REG
clears CONSEC. -/
def Obligations.RailTroubleAndRecovery : Prop :=
  (∀ (s : State) (r : Rail) (b : Bool), s.aon = true → (railType r.val).isSome = true →
     (s.railSt r.val = railRamp → 10 * (s.rail r.val).vs < 9 * s.target r.val →
       ∃ t, exec (.railStartTimeout r) s = .next t ∧ (s.rail r.val).since + 4 * s.rampNs r.val + 1000000 ≤ t.now ∧
         s.hiccupCounted t r.val) ∧
     ((s.railSt r.val = railReg ∧ (b = true ∨ 8 ≤ (s.rail r.val).cutRun)) ∨ ((s.rail r.val).sumOver = true ∧ s.sumStops r.val = true) →
       ∃ t, exec (.hiccupEntry r b) s = .next t ∧ s.hiccupCounted t r.val ∧
         ∀ f ∈ s.takenWith r.val, t.railSt f = railHiccup ∨ t.railSt f = railLatched)) ∧
  (∀ (s : State) (r : Rail), s.aon = true → (railType r.val).isSome = true →
     (s.railSt r.val = railReg ∨ s.railSt r.val = railRamp →
       ∃ t, exec (.railDisable r) s = .next t ∧ t.flag .rgcCfgEn r.val = false ∧ t.railSt r.val = railDown ∧
         t.flag .rgcStatusVready r.val = false) ∧
     (s.railSt r.val = railCheck →
       ∃ t, exec (.railDisable r) s = .next t ∧ t.flag .rgcCfgEn r.val = false ∧ t.railSt r.val = railOff) ∧
     (s.railSt r.val = railDown → (s.rail r.val).vref ≤ 200 →
       ∃ t, exec (.railDownComplete r) s = .next t ∧ t.railSt r.val = railOff ∧ (∀ p, p < 4 → t.phActive r.val p = false) ∧
         ∀ q, q ≠ r.val → t.rail q = s.rail q) ∧
     (s.railSt r.val = railDown → 200 < (s.rail r.val).vref →
       ∃ t, exec (.railDownComplete r) s = .next t ∧ s.onlyChanges t [] []) ∧
     (s.railSt r.val = railHiccup →
       ∃ t, exec (.hiccupEnd r) s = .next t ∧ (s.rail r.val).since + 20000000 ≤ t.now ∧
         t.railSt r.val = if s.flag .rgcCfgEn r.val then railCheck else railOff) ∧
     ∀ a, (s.rail r.val).regAt = some a → s.railSt r.val = railReg →
       ∃ t, exec (.consecClear r) s = .next t ∧ t.rd .rgcHiccupConsec r.val = 0 ∧ t.railSt r.val = railReg ∧
         a + 1000000000 ≤ t.now ∧ s.sameTabsBut t [])

/-- From R91, R100, R82: a phase current at a limit ends its pulse and a sum above the Lintel limit is noted; a sense above VMAX for 4
slots cuts every phase, with one CORRECTED fault for the excursion; a phase whose IMON is out of range is masked with a CORRECTED fault.
From R98, R88, R106: after DLY cycles below its threshold a rail sheds its highest active phase, above PHMIN; a commit hands the shadow
coefficients to the next slot boundary, or puts them in use where the rail has no slots, unless the pole check fails, which sets COMMITERR;
at each second the 1 s averages of a rail in REG take the means of the second's slots, and outside REG they hold. -/
def Obligations.RailGuardsAndService : Prop :=
  (∀ (s : State) (r : Rail) (p : Phase) (cur sum : Nat) (hit : Bool), s.aon = true →
     hit = (s.phActive r.val p.val && (decide (s.ocp r.val ≤ cur) || decide (s.rd .rgcOclimPhase r.val ≤ cur))) →
     (s.sumStops r.val = true →
       ∃ t, exec (.pulseCurrentLimit r p cur sum) s = .next t ∧ s.onlyChanges t [] [.rails] ∧ (∀ q, q ≠ r.val → t.rail q = s.rail q) ∧
         (t.rail r.val).cut = ((s.rail r.val).cut || hit) ∧
         (hit = false → (t.rail r.val).pulse = (s.rail r.val).pulse) ∧
         (∀ n, hit = true → (s.rail r.val).pulse = some (p.val, n) → (t.rail r.val).pulse = none) ∧
         (t.rail r.val).sumOver = ((s.rail r.val).sumOver || decide (s.rd .rgcOclimRail r.val < sum))) ∧
     (s.sumStops r.val = false → ∃ t, exec (.pulseCurrentLimit r p cur sum) s = .next t ∧ s.onlyChanges t [] []) ∧
     (s.railOn r.val = true → 4 ≤ (s.rail r.val).above →
       ∃ t, exec (.vmaxCut r) s = .next t ∧ (t.rail r.val).tri = true ∧ (t.rail r.val).excursion = true ∧
         (∀ q, q ≠ r.val → t.rail q = s.rail q) ∧
         t.rd .fltCorr = if (s.rail r.val).excursion then s.rd .fltCorr else min (s.rd .fltCorr + 1) (2 ^ (fieldDef .fltCorr).width - 1)) ∧
     ((railType r.val).isSome = true → p.val < railWired r.val → s.phMasked r.val p.val = false → s.phRetired r.val p.val = false →
       ∃ t, exec (.imonMask r p) s = .next t ∧ t.phMasked r.val p.val = true ∧ t.phActive r.val p.val = s.phActive r.val p.val ∧
         t.rd .fltCorr = min (s.rd .fltCorr + 1) (2 ^ (fieldDef .fltCorr).width - 1))) ∧
  (∀ (s : State) (r : Rail) (p : Nat), s.aon = true → (railType r.val).isSome = true →
     (s.mayShed r.val = true → s.rd .rgcShedDly r.val * s.slotN r.val ≤ (s.rail r.val).low →
       s.rd .rgcShedPhmin r.val < (s.actives r.val).length → (s.actives r.val).getLast? = some p → s.phRetired r.val p = false → p < 4 →
       ∃ t, exec (.phaseShed r) s = .next t ∧ t.phShed r.val p = true ∧ t.phActive r.val p = false ∧ (t.rail r.val).low = 0 ∧
         s.onlyChanges t [⟨.rgcPhstatPh, r.val, p⟩] [.rails]) ∧
     ((s.rail r.val).shadow.length = 7 → ∃ t, exec (.compCommit r) s = .next t ∧
       if (16384 + toSigned 16 (((s.rail r.val).shadow[4]?).getD 0) + toSigned 16 (((s.rail r.val).shadow[5]?).getD 0) +
           toSigned 16 (((s.rail r.val).shadow[6]?).getD 0)).natAbs ≤ 1 then
         (∀ q, q ≠ r.val → t.rail q = s.rail q) ∧
         (s.railOn r.val = true → (t.rail r.val).newComp = some (s.rail r.val).shadow ∧ s.onlyChanges t [] [.rails]) ∧
         (s.railOn r.val = false →
           t.rd .rgcCompB0 r.val = (((s.rail r.val).shadow[0]?).getD 0) % 2 ^ (fieldDef .rgcCompB0).width ∧
           t.rd .rgcCompA3 r.val = (((s.rail r.val).shadow[6]?).getD 0) % 2 ^ (fieldDef .rgcCompA3).width ∧
           s.onlyChanges t [⟨.rgcCompB0, r.val, 0⟩, ⟨.rgcCompB1, r.val, 0⟩, ⟨.rgcCompB2, r.val, 0⟩, ⟨.rgcCompB3, r.val, 0⟩,
             ⟨.rgcCompA1, r.val, 0⟩, ⟨.rgcCompA2, r.val, 0⟩, ⟨.rgcCompA3, r.val, 0⟩] [.rails])
       else t.flag .rgcStatusCommiterr r.val = true ∧ s.onlyChanges t [⟨.rgcStatusCommiterr, r.val, 0⟩] []) ∧
     ∃ t, exec (.railTel1s r) s = .next t ∧ t.now = ceilTo 1000000000 s.now ∧ (t.rail r.val).sec = RailSums.init ∧
       (s.railSt r.val = railReg → (s.rail r.val).sec.n ≠ 0 →
         t.rd .rgcTelV1s r.val = (((s.rail r.val).sec.means)[0]?).getD 0 ∧
         t.rd .rgcTelI1s r.val = (((s.rail r.val).sec.means)[1]?).getD 0 ∧ t.rd .rgcTelP1s r.val = (((s.rail r.val).sec.means)[2]?).getD 0 ∧
         t.rd .rgcTelT1s r.val = (((s.rail r.val).sec.means)[3]?).getD 0) ∧
       (s.railSt r.val ≠ railReg →
         t.rd .rgcTelV1s r.val = s.rd .rgcTelV1s r.val ∧ t.rd .rgcTelI1s r.val = s.rd .rgcTelI1s r.val ∧
         t.rd .rgcTelP1s r.val = s.rd .rgcTelP1s r.val ∧ t.rd .rgcTelT1s r.val = s.rd .rgcTelT1s r.val) ∧
       (∀ q, q ≠ r.val → t.rail q = s.rail q) ∧ s.sameTabsBut t [.rails] ∧
       s.sameFieldsBut t (fun f => decide (f ∈ [.rgcTelV1s, .rgcTelI1s, .rgcTelP1s, .rgcTelT1s, .fltAonns, .fltFullns, .ageOptimeSec])))

/-- R104: a rail that loses its input in REG goes to CHECK at once with NOINPUT set and a CONTAINED fault, and no count of its hiccups
moves. -/
def Obligations.InputLostGoesToCheck : Prop :=
  ∀ (s : State) (r : Rail), s.aon = true → s.railSt r.val = railReg →
    ∃ t, exec (.railInputLost r) s = .next t ∧ t.railSt r.val = railCheck ∧ (t.rail r.val).chk = 0 ∧ t.flag .rgcStatusNoinput r.val = true ∧
      t.rd .fltCont = s.oneUp .fltCont ∧ t.rd .rgcHiccupConsec r.val = s.rd .rgcHiccupConsec r.val ∧
      t.rd .rgcHiccupCount r.val = s.rd .rgcHiccupCount r.val

/-! ## Windows, load admission and droop (chapters 1, 5 and 7) -/

/-- From R27, R110, R373: a descriptor that enters a window that is not full stands at its end, its power word read once with reserved codes
substituted and flagged; a calibration pattern, which runs in step 4 of CALIBRATING alone, goes before the descriptors of the queues that have not
started (that place is assumption log 89, the model's choice). A completed invocation leaves the head of its window; a compute die in reset takes
none, and a window of eight none. From R28, R110, R111, R119, R126: the head of a window at or above the request threshold makes one request for
its engine, in CALIBRATING only a pattern; a request alone, within the slot's budget and the headroom, is served with a STEP_OUT notice; in the
floor state the arbitration of a slot refuses every request, so that none is pending and none is served. -/
def Obligations.WindowsAndRequests : Prop :=
  (∀ (s : State) (d : CDie) (k : Core) (e : Engine) (q : Queue) (pw : Word64) (m : Measured), s.aon = true →
     ((s.die d.val).powered = true → (s.die d.val).inReset = false → s.svc ≠ svcCold →
       ((s.die d.val).window (k.val * 6 + e.val)).length < 8 →
       (∃ t, exec (.descriptorEntersWindow d k e (.queue q) pw) s = .next t ∧
         (t.die d.val).window (k.val * 6 + e.val) = (s.die d.val).window (k.val * 6 + e.val) ++
           [{ readPowerWord pw (.queue q) s.now with tag := (s.partOf d.val).map s.tagOf }] ∧
         (∀ i, i ≠ k.val * 6 + e.val → (t.die d.val).window i = (s.die d.val).window i) ∧
         t.flag .dagStatusPwfmt d.val = (badPowerWord pw || s.flag .dagStatusPwfmt d.val) ∧ (∀ x, x ≠ d.val → t.die x = s.die x)) ∧
       (s.patternsRun = true → ∃ t, exec (.descriptorEntersWindow d k e .pattern pw) s = .next t ∧
         (t.die d.val).window (k.val * 6 + e.val) =
           ((s.die d.val).window (k.val * 6 + e.val)).filter (fun y => y.running || y.pattern) ++ [readPowerWord pw .pattern s.now] ++
           ((s.die d.val).window (k.val * 6 + e.val)).filter (fun y => !(y.running || y.pattern)))) ∧
     (s.patternsRun = false → ∃ t, exec (.descriptorEntersWindow d k e .pattern pw) s = .next t ∧ s.onlyChanges t [] []) ∧
     (8 ≤ ((s.die d.val).window (k.val * 6 + e.val)).length →
       ∃ t, exec (.descriptorEntersWindow d k e (.queue q) pw) s = .next t ∧ s.onlyChanges t [] []) ∧
     (∀ w l, (s.die d.val).window (k.val * 6 + e.val) = w :: l →
       ∃ t, exec (.invocationComplete d k e m) s = .next t ∧ (t.die d.val).window (k.val * 6 + e.val) = l ∧
         (∀ i, i ≠ k.val * 6 + e.val → (t.die d.val).window i = (s.die d.val).window i) ∧ (∀ x, x ≠ d.val → t.die x = s.die x)) ∧
     ((s.die d.val).inReset = true →
       ∃ t, exec (.descriptorEntersWindow d k e (.queue q) pw) s = .next t ∧ s.onlyChanges t [] [])) ∧
  (∀ (s : State) (d : CDie) (k : Core) (e : Engine) (w : WinDesc) (l : List WinDesc), s.aon = true →
     (s.die d.val).powered = true → (s.die d.val).inReset = false →
     ((s.die d.val).window (k.val * 6 + e.val) = w :: l → s.svc ≠ svcCold → w.running = false → s.threshold d.val ≤ w.step →
       (∀ r ∈ (s.die d.val).adm.reqs, ¬ (r.core = k.val ∧ r.eng = e.val)) →
       ((s.svc = svcCalibrating → w.pattern = true) → ∃ t, exec (.stepRequest d k e) s = .next t ∧
         (t.die d.val).adm.reqs = (s.die d.val).adm.reqs ++
           [{ core := k.val, eng := e.val, queue := w.queue, pattern := w.pattern, cls := w.step, charge := none, learned := false, dly := 0
              hit := false }] ∧
         t.rd .dagAdmstatPend d.val = ((s.die d.val).adm.reqs.length + 1) % 2 ^ (fieldDef .dagAdmstatPend).width ∧
         s.sameTabsBut t [.dies] ∧ t.core = s.core ∧ ∀ x, x ≠ d.val → t.die x = s.die x) ∧
       (s.svc = svcCalibrating → w.pattern = false → ∃ t, exec (.stepRequest d k e) s = .next t ∧ s.onlyChanges t [] [])) ∧
     ((s.die d.val).adm.arbDone = false →
       ∃ t, exec (.admissionArbitration d) s = .next t ∧ (t.die d.val).adm.arbDone = true ∧
         t.rd .dagAdmstatBud d.val = s.slotBudget d.val % 2 ^ (fieldDef .dagAdmstatBud).width ∧
         (s.floorOn = true → (t.die d.val).adm.reqs = [] ∧ (t.die d.val).adm.next = [] ∧ t.flag .dagAdmstatFloorref d.val = true) ∧
         (∀ r c, (s.die d.val).adm.reqs = [r] → r.charge = some c → (s.die d.val).adm.debt = 0 → (s.die d.val).adm.excess = 0 →
           (s.die d.val).adm.limiters = [] → s.refusedAtOnce d.val (s.slotBudget d.val) r = none → s.slowStart d.val = false →
           classBound c ≤ s.slotBudget d.val → s.chargePower d.val (classBound c) ≤ s.headroom d.val →
           (t.die d.val).adm.reqs = [] ∧ (t.die d.val).adm.chargeNow = (s.die d.val).adm.chargeNow + classBound c ∧
           (t.die d.val).adm.notices =
             [{ core := r.core, eng := r.eng, out := if r.dly = 0 then 1 else 2, go := true, dly := r.dly, cause := 0 }]) ∧
         ∀ x, x ≠ d.val → t.die x = s.die x))

/-- From R144 to R158: a trip of a working detector counts, stretches its domains to the level's depth at least, and begins their hold; hold and
release drop X by one sixteenth, and an episode ends with it; the LEN cycles of a hold through which X was no smaller than the governed depth, or
always smaller, count as DROOP whole or not at all. A detector that fails a self-test is retired; the targeted one comes after 64 lone trips, and
is passed by two forced launches, fewer than 16 quiet trips and a sweep within 4 taps of the characteristic (at the sensed voltage: assumption
log 96, the model's reading). -/
def Obligations.DroopStretchesAndTests : Prop :=
  ∀ (s : State) (d : Die) (i : Fin 64) (k : Core), s.aon = true →
    (∀ (tap : BitVec 8) (q : Queue) (l : Nat), s.detects d.val i.val = true → l = s.tripLevel d.val i.val tap.toNat → l ≠ 0 →
      ∃ t, exec (.droopTrip d i tap q) s = .next t ∧ t.rd .dagDrpcntT1 d.val i.val = s.oneUp .dagDrpcntT1 d.val i.val ∧
        t.rd .dagDrpcntT2 d.val i.val = (if l = 2 then s.oneUp .dagDrpcntT2 d.val i.val else s.rd .dagDrpcntT2 d.val i.val) ∧
        s.sameTabsBut t [.dies] ∧
        ∀ n ∈ s.tripDomains d.val i.val, (t.episodeStart d.val n).isSome = true ∧ t.flag .dagDrpxHold d.val n = true ∧
          t.rd .dagDrpxX d.val n = max (s.rd .dagDrpxX d.val n) (16 * s.droopDepth d.val l) % 2 ^ (fieldDef .dagDrpxX).width) ∧
    (∀ cycles : List Nat, s.flag .dagDrpxHold d.val k.val = true → ∃ t, exec (.droopHoldEnd d k cycles) s = .next t ∧
      t.flag .dagDrpxHold d.val k.val = false ∧
      t.rd .dagDrpxX d.val k.val = (s.rd .dagDrpxX d.val k.val - 1) % 2 ^ (fieldDef .dagDrpxX).width ∧
      (s.rd .dagDrpxX d.val k.val = 1 → t.episodeStart d.val k.val = none) ∧
      (∀ e, (s.die d.val).droop.episodes.find? (fun x => decide (x.1 = k.val)) = some (k.val, e) → e.before = [] → e.since = [] →
        e.counts = s.droopCounts d.val k.val →
        t.rd .dagDrpcyc d.val k.val = if e.counts then
            min (s.rd .dagDrpcyc d.val k.val + max 1 (s.rd .dagDrpcfgLen d.val)) (2 ^ (fieldDef .dagDrpcyc).width - 1)
          else s.rd .dagDrpcyc d.val k.val) ∧
      s.sameTabsBut t [.dies, .parts, .frac]) ∧
    (∀ cycles : List Nat, s.rd .dagDrpxX d.val k.val ≠ 0 → s.flag .dagDrpxHold d.val k.val = false →
      ∃ t, exec (.droopReleaseStep d { dom := k, cycles := cycles }) s = .next t ∧
        t.rd .dagDrpxX d.val k.val = (s.rd .dagDrpxX d.val k.val - 1) % 2 ^ (fieldDef .dagDrpxX).width ∧
        (s.rd .dagDrpxX d.val k.val = 1 → t.episodeStart d.val k.val = none) ∧ s.sameTabsBut t [.dies, .parts, .frac]) ∧
    (∀ hi lo : Bool, (s.die d.val).powered = true → s.svc = svcFull ∨ s.svc = svcHeld ∨ s.svc = svcSteward →
      s.detRetired d.val (s.now / 1000000 % dieDetectors d.val) = false →
      ∃ t, exec (.detectorSelftest d hi lo) s = .next t ∧
        (hi = true → lo = false → s.onlyChanges t [] []) ∧
        (hi = false ∨ lo = true → t.detRetired d.val (s.now / 1000000 % dieDetectors d.val) = true ∧
          t.rd .dagDrpstatRetcnt d.val = min 64 (s.rd .dagDrpstatRetcnt d.val + 1))) ∧
    ∀ (f : Bool) (q : QuietTest) (w : SweepTest),
      ((s.die d.val).powered = true → i.val ∈ (s.die d.val).droop.testDue → i.val < dieDetectors d.val → s.detRetired d.val i.val = false →
        ∃ t, exec (.detectorTargetedTest d i f q w) s = .next t ∧ i.val ∉ (t.die d.val).droop.testDue ∧
          if f = true ∧ q.tripped < 16 ∧ s.charTap d.val i.val ((s.rail (ownRail d.val)).vs : Rat) - 4 ≤ (w.tap : Rat) ∧
              (w.tap : Rat) ≤ s.charTap d.val i.val ((s.rail (ownRail d.val)).vs : Rat) + 4 then
            t.rd .fltTrans = s.oneUp .fltTrans ∧ s.onlyChanges t [⟨.fltTrans, 0, 0⟩] [.dies]
          else t.rd .fltLasting = s.oneUp .fltLasting ∧ t.detRetired d.val i.val = true) ∧
      (i.val ∉ (s.die d.val).droop.testDue →
        ∃ t, exec (.detectorTargetedTest d i f q w) s = .next t ∧ s.onlyChanges t [] [])

/-- R148: a write of DRPTHR that puts DTHR2 at or below DTHR1, or DTHR1 below 10 mV (20 voltage units), is discarded and sets
DRPSTAT.CFGERR; a detector whose rail is in neither REG nor RAMP neither trips nor counts. -/
def Obligations.DroopThresholdsAreLegal : Prop :=
  ∀ (s : State) (d : Die), s.aon = true →
    (∀ v : Word, v.toNat / 2 ^ 16 ≤ v.toNat % 2 ^ 16 ∨ v.toNat % 2 ^ 16 < 20 →
      ∃ t, exec (.registerWrite .cc (BitVec.ofNat 20 (0x20404 + 0x1000 * d.val)) v .word none) s = .next t ∧
        t.flag .dagDrpstatCfgerr d.val = true ∧ s.onlyChanges t [⟨.dagDrpstatCfgerr, d.val, 0⟩] [.ports]) ∧
    ∀ (i : Fin 64) (tap : BitVec 8) (q : Queue), s.railSt (ownRail d.val) ≠ railReg → s.railSt (ownRail d.val) ≠ railRamp →
      ∃ t, exec (.droopTrip d i tap q) s = .next t ∧ s.onlyChanges t [] []

/-- R159: X above zero for 16 fast periods sets DRPSTAT.PERSIST with a CORRECTED fault, and for 1 ms raises a CONTAINED one; the stretch
goes on in both cases. A die agent in STEWARD holds its fault until a Hall admits it (R293). -/
def Obligations.LongDroopsAreReported : Prop :=
  ∀ (s : State) (d : Die) (k : Core) (a : Nat), s.aon = true → s.episodeStart d.val k.val = some a →
    (∃ t, exec (.droopPersist d k) s = .next t ∧ t.flag .dagDrpstatPersist d.val = true ∧ a + 16 * 250 ≤ t.now ∧
      (∀ e j, t.rd .dagDrpxX e j = s.rd .dagDrpxX e j) ∧
      ((s.die d.val).steward = false → t.rd .fltCorr = s.oneUp .fltCorr) ∧
      ((s.die d.val).steward = true → (s.die d.val).faultHold.length < 16 →
        ∃ f, (t.die d.val).faultHold = (s.die d.val).faultHold ++ [f] ∧ f.cls = .corrected)) ∧
    ∃ t, exec (.droopPersistLong d k) s = .next t ∧ a + 1000000 ≤ t.now ∧ (∀ e j, t.rd .dagDrpxX e j = s.rd .dagDrpxX e j) ∧
      ((s.die d.val).steward = false → t.rd .fltCont = s.oneUp .fltCont) ∧
      ((s.die d.val).steward = true → (s.die d.val).faultHold.length < 16 →
        ∃ f, (t.die d.val).faultHold = (s.die d.val).faultHold ++ [f] ∧ f.cls = .contained)

/-! ## Clocks (chapter 6) -/

/-- From R129 to R134: a crystal goes from NOAMP by its amplitude to COUNT, back when it drops, and after 1 048 576 cycles of 20 ns to STABLE, if that
is within the 250 ms of its attempt; lost, or late by 250 ms, it is FAILED with a fault, CORRECTED while the other is STABLE and CONTAINED
otherwise, except that a retry fails silently, and it is tried again 1 s after the attempt began. A lost reference gives way at once, and a lost
crystal is the trim source no more; the first STABLE crystal is taken once the oscillator is trimmed, XTAL0 first. From R131: the oscillator's
code is approximated in ten gates from the middle, the bit on trial kept unless the oscillator is fast; a source that changes takes the gates done
with it; once trimmed the code moves by one step a gate, and without a source it holds (that a greater code is a faster oscillator is assumption
log 43, the model's choice). -/
def Obligations.CrystalsAndOscillator : Prop :=
  (∀ (s : State) (x : Xtal), s.aon = true →
     (s.xtal x.val = xtalNoamp → ∃ t, exec (.xtalAmplitude x) s = .next t ∧ t.xtal x.val = xtalCount ∧ t.xtalCycles x.val = 0 ∧
       s.sameRegsBut t [⟨xtalField x.val, 0, 0⟩, ⟨.clkXcntCount, 0, x.val⟩] ∧ s.sameTabsBut t [] ∧
       t.core = { s.core with clock := s.clock.begin x.val s.now }) ∧
     (s.xtal x.val = xtalCount →
       (∃ t, exec (.xtalCountDrop x) s = .next t ∧ t.xtal x.val = xtalNoamp ∧ t.xtalCycles x.val = 0 ∧
         s.onlyChanges t [⟨xtalField x.val, 0, 0⟩, ⟨.clkXcntCount, 0, x.val⟩] []) ∧
       (s.clock.count x.val + 20971520 ≤ s.clock.start x.val + 250000000 →
         ∃ t, exec (.xtalStable x) s = .next t ∧ t.xtal x.val = xtalStable ∧ t.xtalCycles x.val = 1048576 ∧
           s.clock.count x.val + 20971520 ≤ t.now ∧ t.clock.trimBy ≠ none ∧ s.sameTabsBut t []) ∧
       (s.clock.start x.val + 250000000 < s.clock.count x.val + 20971520 →
         ∃ t, exec (.xtalStable x) s = .next t ∧ s.onlyChanges t [] [])) ∧
     (s.xtal x.val = xtalStable → ∃ t, exec (.xtalLoss x) s = .next t ∧ t.xtal x.val = xtalFailed ∧
       (s.xtal (1 - x.val) = xtalStable → t.rd .fltCorr = s.oneUp .fltCorr) ∧
       (s.xtal (1 - x.val) ≠ xtalStable → t.rd .fltCont = s.oneUp .fltCont) ∧
       (s.rd .clkSrcRefsel = x.val → t.flag .clkStatusRefsw = true ∧
         t.rd .clkSrcRefsel = if s.xtal (1 - x.val) = xtalStable then 1 - x.val else 2) ∧
       (s.rd .clkSrcRefsel ≠ x.val → t.rd .clkSrcRefsel = s.rd .clkSrcRefsel) ∧
       t.clock.trimBy ≠ some x.val ∧ t.xtal (1 - x.val) = s.xtal (1 - x.val)) ∧
     (s.xtal x.val = xtalNoamp ∨ s.xtal x.val = xtalCount →
       ∃ t, exec (.xtalTimeout x) s = .next t ∧ t.xtal x.val = xtalFailed ∧ s.clock.start x.val + 250000000 ≤ t.now ∧
         (s.clock.retry x.val = true → t.rd .fltCorr = s.rd .fltCorr ∧ t.rd .fltCont = s.rd .fltCont) ∧
         (s.clock.retry x.val = false → if s.xtal (1 - x.val) = xtalStable then t.rd .fltCorr = s.oneUp .fltCorr
           else t.rd .fltCont = s.oneUp .fltCont)) ∧
     (s.xtal x.val = xtalFailed → ∃ t, exec (.xtalRetry x) s = .next t ∧ t.xtal x.val = xtalNoamp ∧
       s.clock.start x.val + 1000000000 ≤ t.now ∧ t.clock.start x.val = t.now ∧ t.clock.retry x.val = true ∧ s.sameTabsBut t []) ∧
     (s.clock.picked = false → s.flag .clkOsctrimTrimmed = true → s.rd .clkSrcRefsel = 2 → s.xtal x.val = xtalStable →
       (x.val = 1 → s.xtal 0 ≠ xtalStable) →
       ∃ t, exec .refSwitch s = .next t ∧ t.rd .clkSrcRefsel = x.val ∧ t.flag .clkStatusRefsw = true ∧ t.clock.picked = true ∧
         s.sameRegsBut t [⟨.clkSrcRefsel, 0, 0⟩, ⟨.clkStatusRefsw, 0, 0⟩] ∧ s.sameTabsBut t [])) ∧
  (∀ (s : State) (b : Bool) (n : Nat), s.aon = true →
     ∃ t, exec (.oscTrimGate b n) s = .next t ∧ t.clock.trimBy = s.trimSource b ∧
       t.rd .clkOsctrimTsrc = (if s.trimSource b = none then 0 else if s.trimSource b = some 2 then 2 else 1) ∧
       s.sameRegsBut t [⟨.clkOsctrimTsrc, 0, 0⟩, ⟨.clkOsctrimCode, 0, 0⟩, ⟨.clkOsctrimTrimmed, 0, 0⟩] ∧ s.sameTabsBut t [] ∧
       t.core = { s.core with clock := t.clock } ∧
       (s.trimSource b = none → t.rd .clkOsctrimCode = s.rd .clkOsctrimCode ∧ t.flag .clkOsctrimTrimmed = s.flag .clkOsctrimTrimmed) ∧
       (s.trimSource b ≠ none → s.flag .clkOsctrimTrimmed = true → s.rd .clkOsctrimCode < 1024 →
         (50000 < n → t.rd .clkOsctrimCode = s.rd .clkOsctrimCode - 1) ∧
         (n < 50000 → t.rd .clkOsctrimCode = min 1023 (s.rd .clkOsctrimCode + 1)) ∧
         (n = 50000 → t.rd .clkOsctrimCode = s.rd .clkOsctrimCode)) ∧
       (s.trimSource b ≠ none → s.flag .clkOsctrimTrimmed = false →
         (s.clock.gates = 0 ∨ s.trimSource b ≠ s.clock.trimBy →
           t.rd .clkOsctrimCode = (if 50000 < n then 0x100 else 0x300) ∧ t.clock.gates = 1) ∧
         (s.clock.gates ≠ 0 → s.trimSource b = s.clock.trimBy →
           t.rd .clkOsctrimCode = sarCode (s.rd .clkOsctrimCode) (s.clock.gates + 1) n % 2 ^ 10 ∧ t.clock.gates = s.clock.gates + 1 ∧
           (9 ≤ s.clock.gates → t.flag .clkOsctrimTrimmed = true))))

/-- From R135, R136: a root PLL with power locks; out of lock it puts its die in holdover, a compute die's branches at ÷32; it locks again with a
CORRECTED fault, or after 1 ms in holdover, which excludes its die with a CONTAINED one, by ending that exclusion, and the branches ramp with a
governed stretch. From R44, R90, R138, R140 to R142: a branch or domain moves by one dither step towards its target, slower at once with the
governed depth recomputed, faster only once its rail stands high enough and no governed depth beyond its way is left, which sixteen steps release
by one root period (that pace is assumption log 98, the model's reading); the floor state and holdover keep a branch where it is. From R138: any
sixteen cycles in a row together last sixteen times the mean divisor. -/
def Obligations.LocksAndDivisors : Prop :=
  (∀ (s : State) (d : Die), s.aon = true →
     (s.holdover d.val = false → (s.die d.val).powered = true →
       ∃ t, exec (.rootPllLock d) s = .next t ∧ testBit (t.rd .clkLock) d.val = true ∧ s.onlyChanges t [⟨.clkLock, 0, 0⟩] []) ∧
     (s.holdover d.val = true ∨ (s.die d.val).powered = false → ∃ t, exec (.rootPllLock d) s = .next t ∧ s.onlyChanges t [] []) ∧
     (testBit (s.rd .clkLock) d.val = true → ∃ t, exec (.pllLossOfLock d) s = .next t ∧ testBit (t.rd .clkLock) d.val = false ∧
       t.holdover d.val = true ∧ s.sameTabsBut t [] ∧
       (d.val < 32 → t.flag .clkDomForced 0 d.val = true ∧ ∀ c, c < 4 → t.rd .clkCbrCur 0 (4 * d.val + c) = 0x200 ∧
         t.rd .clkCbrTgt 0 (4 * d.val + c) = s.rd .clkCbrTgt 0 (4 * d.val + c))) ∧
     (s.holdover d.val = true → ∃ t, exec (.pllRelock d) s = .next t ∧ t.holdover d.val = false ∧
       testBit (t.rd .clkLock) d.val = true ∧ 1 ∉ (t.hd d.val).excl ∧
       (d.val < 32 → s.floorOn = false → ∀ c, c < 4 → t.rd .clkCbrGdep 0 (4 * d.val + c) =
         governed (s.rd .clkCbrCur 0 (4 * d.val + c)) (s.rd .clkCbrTgt 0 (4 * d.val + c))) ∧
       t.rd .fltCorr = if 1 ∈ (s.hd d.val).excl then s.rd .fltCorr else s.oneUp .fltCorr) ∧
     (s.holdover d.val = true → 1 ∉ (s.hd d.val).excl → ∃ t, exec (.pllHoldoverTimeout d) s = .next t ∧ 1 ∈ (t.hd d.val).excl ∧
       Store.get (fun _ => 0) s.clock.holdAt d.val + 1000000 ≤ t.now ∧ t.rd .fltCont = s.oneUp .fltCont ∧ t.holdover d.val = true)) ∧
  (∀ (s : State) (k : Fin 128) (cur tgt dep : Nat), s.aon = true → cur = s.rd .clkCbrCur 0 k.val → tgt = s.rd .clkCbrTgt 0 k.val →
     dep = s.rd .clkCbrGdep 0 k.val →
     ∃ t, exec (.divisorRampStep (.branch k)) s = .next t ∧
       Store.get (fun _ => 0) t.clock.pattern (80 + k.val) =
         (Store.get (fun _ => 0) s.clock.pattern (80 + k.val) + max 64 (s.rd .clkRampCyc)) % 16 ∧
       (∀ j, j ≠ k.val → t.rd .clkCbrCur 0 j = s.rd .clkCbrCur 0 j) ∧
       (s.floorOn = true ∨ s.holdover (k.val / 4) = true → s.sameRegsBut t [] ∧ s.sameTabsBut t [] ∧
         t.core = { s.core with clock := t.clock }) ∧
       (s.floorOn = false → s.holdover (k.val / 4) = false →
         (cur < tgt → t.rd .clkCbrCur 0 k.val = (cur + 1) % 2 ^ (fieldDef .clkCbrCur).width) ∧
         (tgt = cur → t.rd .clkCbrCur 0 k.val = cur) ∧
         (tgt < cur → t.rd .clkCbrCur 0 k.val =
           if dep = 0 ∧ s.mayQuicken k.val = true then (cur - 1) % 2 ^ (fieldDef .clkCbrCur).width else cur) ∧
         (cur < tgt → dep ≤ governed cur tgt → t.rd .clkCbrGdep 0 k.val = governed (cur + 1) tgt) ∧
         (governed cur tgt < dep → t.rd .clkCbrGdep 0 k.val =
           if (Store.get (fun _ => 0) s.clock.release k.val + 1) % 16 = 0 then (dep - 1) % 2 ^ (fieldDef .clkCbrGdep).width else dep))) ∧
  (∀ (s : State) (c : Fin 80), s.aon = true →
     ∃ t, exec (.divisorRampStep (.domain c)) s = .next t ∧ s.sameRegsBut t [⟨.clkDomCur, 0, c.val⟩] ∧ s.sameTabsBut t [] ∧
       t.core = { s.core with clock := t.clock } ∧
       (32 ≤ c.val → s.rd .clkDomCur 0 c.val < s.rd .clkDomTgt 0 c.val →
         t.rd .clkDomCur 0 c.val = (s.rd .clkDomCur 0 c.val + 1) % 2 ^ (fieldDef .clkDomCur).width) ∧
       (32 ≤ c.val → s.rd .clkDomTgt 0 c.val < s.rd .clkDomCur 0 c.val →
         t.rd .clkDomCur 0 c.val = (s.rd .clkDomCur 0 c.val - 1) % 2 ^ (fieldDef .clkDomCur).width)) ∧
  ∀ div i : Nat, (upto 16).foldl (fun n j => n + cycleLen div (i + j)) 0 = div

/-! ## The Larder, partitions and changes (chapters 8 and 9) -/

/-- From R20, R166, R167, R177: the oldest update record is taken off the way, and applied while the Hall learns, but dropped where its parity is bad;
the standby takes a streamed change into its copy and drops the records that it covers. From R20, R169, R173, R174: a lookup is answered from the
Larder, or goes on to the Cellar where there is one, whose read answers it; an answer for the die agent's generation takes the key out of those
asked for, and any other is dropped; one that has not come in 4 000 ns is counted late, and is waited for only while it can still come. -/
def Obligations.LarderRecordsAndLookups : Prop :=
  (∀ (s : State) (e : Ecc), s.aon = true →
     (∀ r l, s.lard.updates = r :: l → r.die ∉ s.inject.lanes →
       (∃ t, exec (.larderUpdateRecord ⟨e, true⟩) s = .next t ∧ t.lard.updates = l ∧
         (s.learning = true → t.lard.recDone = r.seq) ∧
         (s.learning = false → s.sameRegsBut t [] ∧ s.sameTabsBut t [] ∧
           t.core = { s.core with lard := { s.lard with updates := l, replay := s.lard.replay.filter fun x => x.seq ≠ r.seq } })) ∧
       ∃ t, exec (.larderUpdateRecord ⟨e, false⟩) s = .next t ∧ t.lard = { s.lard with updates := l } ∧ t.rd .fltCorr = s.oneUp .fltCorr) ∧
     (∀ x l, s.lard.stream = x :: l → ∃ t, exec .larderMirrorReceive s = .next t ∧
       t.core = { s.core with lard := { s.lard with
         mirror := mirrored s.lard.mirror x.1, stream := l, replay := s.lard.replay.filter fun r => decide (x.2 < r.seq) } } ∧
       s.sameRegsBut t [] ∧ s.sameTabsBut t [])) ∧
  (∀ (s : State) (d : CDie) (e : Ecc), s.aon = true →
     (∀ x, (s.lard.lookups.find? fun y => decide (y.die = d.val)) = some x → d.val ∉ s.inject.lanes →
       (∃ t, exec (.larderLookupRequest d ⟨e, true⟩) s = .next t ∧ t.lard.lookups = s.lard.lookups.erase x ∧
         ((∃ r, (t.die d.val).replies = (s.die d.val).replies ++ [{ key := x.key, ent := r, gen := x.gen }] ∧
             t.lard.cellarReads = s.lard.cellarReads) ∨
           (s.cellarOn = true ∧ t.lard.cellarReads = s.lard.cellarReads ++ [x] ∧ (t.die d.val).replies = (s.die d.val).replies))) ∧
       ∃ t, exec (.larderLookupRequest d ⟨e, false⟩) s = .next t ∧ t.lard = { s.lard with lookups := s.lard.lookups.erase x } ∧
         (t.die d.val).replies = (s.die d.val).replies ∧ t.rd .fltCorr = s.oneUp .fltCorr) ∧
     (∀ x l, s.lard.cellarReads = x :: l →
       ∃ t, exec (.cellarReadComplete e) s = .next t ∧ t.lard.cellarReads = l ∧
         ∃ r, (t.die x.die).replies = (s.die x.die).replies ++ [{ key := x.key, ent := r, gen := x.gen }]) ∧
     (∀ r l, (s.die d.val).replies = r :: l →
       (r.gen = (s.die d.val).gen → ∃ t, exec (.lookupReply ⟨d, true⟩) s = .next t ∧ (t.die d.val).replies = l ∧
         (t.die d.val).asked.map (fun a => a.key) = ((s.die d.val).asked.filter fun a => a.key ≠ r.key).map (fun a => a.key) ∧
         s.sameRegsBut t [] ∧ s.sameTabsBut t [.dies] ∧ t.core = { s.core with lard := { s.lard with lookups := t.lard.lookups } } ∧
         (r.ent = none → (t.die d.val).pantry = (s.die d.val).pantry) ∧
         ∀ x, r.ent = some x → (∃ y ∈ (s.die d.val).pantry, y.ent.key = x.key) → { ent := x, fetched := s.now } ∈ (t.die d.val).pantry) ∧
       (∀ b, r.gen ≠ (s.die d.val).gen → ∃ t, exec (.lookupReply ⟨d, b⟩) s = .next t ∧ s.onlyChanges t [] [.dies] ∧
         t.die d.val = { s.die d.val with replies := l }) ∧
       (r.gen = (s.die d.val).gen → ∃ t, exec (.lookupReply ⟨d, false⟩) s = .next t ∧ t.die d.val = { s.die d.val with replies := l } ∧
         t.rd .fltCorr = s.oneUp .fltCorr)) ∧
     (∀ a, (s.die d.val).asked.find? (fun x => !x.late) = some a →
       ∃ t, exec (.lookupTimeout d) s = .next t ∧ a.start + 4000 ≤ t.now ∧ t.rd .dagPntlate d.val = s.oneUp .dagPntlate d.val ∧
         (s.awaited d.val a = true → (t.die d.val).asked.map (fun x => x.key) = (s.die d.val).asked.map (fun x => x.key) ∧
           ∀ x ∈ (t.die d.val).asked, x.key = a.key → x.late = true) ∧
         (s.awaited d.val a = false → ∀ x ∈ (t.die d.val).asked, x.key ≠ a.key)))

/-- From R185, R290, R291: a write to the dies of a partition that is not in force lands at once while no change of it is under way, and else joins the
changes that wait; a binding asked for becomes a change of two phases, which takes force later; one whose dies overlap those of a partition in
force is refused with PARTERR. From R290, R291: a die agent that prepares a change stages it and acknowledges it; once every die has acknowledged,
the commits put it in force, and the last one ends it; a change with an acknowledgement missing at 5 µs is rolled back with a CORRECTED fault. -/
def Obligations.PartitionsAndChanges : Prop :=
  (∀ (s : State) (port : Port) (p : Part) (v : Word), s.aon = true → s.rd .alcPartBindValid 0 p.val = 0 →
     (s.binding p.val = false → ∃ t, exec (.partitionWrite port p .dies v) s = .next t ∧ t.rd .alcPartDies 0 p.val = v.toNat ∧
       s.onlyChanges t [⟨.alcPartDies, 0, p.val⟩] []) ∧
     (s.binding p.val = true → s.changes.length < 4 → ∃ t c, exec (.partitionWrite port p .dies v) s = .next t ∧
       t.changes = s.changes ++ [c] ∧ c.writes = [(⟨.alcPartDies, 0, p.val⟩, v.toNat)] ∧ s.sameRegsBut t [⟨.fltCmtQueued, 0, 0⟩] ∧
       s.sameTabsBut t []) ∧
     (v.toNat / 2 ^ 16 % 2 = 1 → s.clashes p.val (s.rd .alcPartDies 0 p.val) = false → s.changes.length < 4 →
       ∃ t c, exec (.partitionWrite port p .bind v) s = .next t ∧ t.changes = s.changes ++ [c] ∧ c.kind = .bind p.val false true ∧
         c.writes = [(⟨.alcPartBindTag, 0, p.val⟩, v.toNat % 2 ^ 16), (⟨.alcPartBindValid, 0, p.val⟩, 1)] ∧ t.inForce p.val = false ∧
         s.sameRegsBut t [⟨.fltCmtQueued, 0, 0⟩] ∧ s.sameTabsBut t []) ∧
     (v.toNat / 2 ^ 16 % 2 = 1 → s.clashes p.val (s.rd .alcPartDies 0 p.val) = true →
       ∃ t, exec (.partitionWrite port p .bind v) s = .next t ∧ t.flag .alcAlstatParterr = true ∧
         s.onlyChanges t [⟨.alcAlstatParterr, 0, 0⟩] [])) ∧
  (∀ (s : State) (d : CDie) (c : Change), s.aon = true → s.change = some c →
     (d.val ∈ c.dies → (s.die d.val).powered = true →
       ∃ t, exec (.twoPhasePrepare d) s = .next t ∧ (t.die d.val).staged = some c.gen ∧
         (t.die d.val).acks = (s.die d.val).acks ++ [c.gen] ∧ t.core = s.core ∧ s.sameTabsBut t [.dies]) ∧
     ((∀ x ∈ c.dies, x ∈ c.acked) → d.val ∈ c.dies → d.val ∉ c.committed →
       ∃ t, exec (.twoPhaseCommit d) s = .next t ∧ (t.die d.val).staged = none ∧
         (if ∀ x ∈ c.dies, x ∈ c.committed ++ [d.val] then t.change = none
          else ∃ c', t.change = some c' ∧ c'.committed = c.committed ++ [d.val] ∧ c'.gen = c.gen) ∧
         (c.committed = [] → t.rd .fltCmtState = 2) ∧
         ∀ p v, c.committed = [] → c.kind = .policy p → p < 16 → c.writes = [(⟨.alcPartCap, 0, p⟩, v)] →
           t.rd .alcPartCap 0 p = v % 2 ^ (fieldDef .alcPartCap).width) ∧
     ((∃ x ∈ c.dies, x ∉ c.acked) →
       ∃ t, exec .twoPhaseAbort s = .next t ∧ t.change = none ∧ t.rd .fltCmtState = 3 ∧ c.start + 5000 ≤ t.now ∧
         (∀ x ∈ c.dies, (t.die x).staged = none) ∧
         (∀ p v, p < 16 → c.before = [(⟨.alcPartCap, 0, p⟩, v)] →
           t.rd .alcPartCap 0 p = v % 2 ^ (fieldDef .alcPartCap).width ∧ t.rd .fltCorr = s.oneUp .fltCorr)))

/-! ## The Hearth and its sensors (chapter 11) -/

/-- From R226 to R228, R230: the Hearth boundary closes the open bin, notes the s and the W1 limit in force, and marks a run due once the
firmware has run for 1 ms, and one that the active Hall can make once it has held its role for 1 ms; a run that is due and can be made
commits therm_lim as the sum of its terms, forms both headrooms again from the bins at the noted s and limit (DEDUCED, assumption log 100),
and clears MISS and HSTALE; any other commits nothing; a missed run raises MISS, with HSTALE and a CORRECTED fault at 4 and the stale limit at
20. -/
def Obligations.HearthRuns : Prop :=
  ∀ s : State, s.aon = true →
    (∃ t, exec .hearthBoundary s = .next t ∧ s.hearth.ms < t.hearth.ms ∧ t.now = 1000000 * t.hearth.ms ∧ t.hearth.openBin = 0 ∧
      t.hearth.closing = some s.hearth.openBin ∧ (s.hearth.fwSince = none → t.hearth.due = false) ∧
      (∀ f, s.hearth.fwSince = some f → (t.hearth.due = true ↔ f + 1000000 ≤ t.now)) ∧
      (s.hearth.roleAt = none → t.hearth.able = true) ∧ (∀ f, s.hearth.roleAt = some f → (t.hearth.able = true ↔ f + 1000000 ≤ t.now)) ∧
      t.hearth.sAt = s.lim.s ∧ t.hearth.w1At = s.lim.w1 ∧ t.hearth.inletRun = none ∧ s.sameTabsBut t [.dies, .rails]) ∧
    (s.hearth.due = false ∨ s.hearth.able = false → ∃ t, exec .hearthRunCommit s = .next t ∧ s.onlyChanges t [] []) ∧
    (s.hearth.due = true →
      (s.hearth.able = true → ∃ t, exec .hearthRunCommit s = .next t ∧ t.hearth.due = false ∧ 1000000 * s.hearth.ms + 200000 ≤ t.now ∧
        t.rd .hrtRunSeq = (s.rd .hrtRunSeq + 1) % 2 ^ (fieldDef .hrtRunSeq).width ∧ t.rd .hrtRunMiss = 0 ∧
        t.flag .hrtHstatHstale = false ∧ t.rd .alcThermlimLim = t.thermLim ∧
        t.lim.head30 = t.hearth.sAt * (30 * 32768000000000) - 4000 * t.hearth.e30 + t.lim.since30 ∧
        t.lim.head1 = t.hearth.w1At * 32768000000000 - 4000 * t.hearth.e1 + t.lim.since1 ∧ t.hearth.sAt = s.hearth.sAt ∧
        t.hearth.w1At = s.hearth.w1At ∧ t.lim.s = s.hearth.sAt ∧ t.lim.w1 = s.hearth.w1At ∧ s.sameTabsBut t []) ∧
      ∃ t, exec .hearthRunMissed s = .next t ∧ t.hearth.due = false ∧ 1000000 * s.hearth.ms + 200000 ≤ t.now ∧
        t.rd .hrtRunMiss = s.oneUp .hrtRunMiss ∧
        (s.rd .hrtRunMiss = 3 → t.flag .hrtHstatHstale = true ∧ t.rd .fltCorr = s.oneUp .fltCorr) ∧
        (s.rd .hrtRunMiss = 19 → t.rd .alcThermlimLim =
          min (s.rd .alcThermlimLim) (s.rd .hrtStalelimLim) % 2 ^ (fieldDef .alcThermlimLim).width) ∧
        (s.rd .hrtRunMiss ≠ 19 → t.rd .alcThermlimLim = s.rd .alcThermlimLim) ∧ s.sameTabsBut t [.pend, .rings, .msix, .tel])

/-- From R216 to R219: a conversion of a working sensor is trimmed by its fused two-point trim and its offset (the fused trim is an open value,
assumption log 48) and shown; the second in a row at the junction trip forces the floor state, and the second at THERMTRIP asserts the ball
with a FATAL fault, whatever TTRIP held; a retired sensor is only shown. The junction trip lets go once
every sensor of the tripped dies has been cool for 10 ms. A suspect sensor's self-test clears it or retires it. -/
def Obligations.SensorsTripAndRetire : Prop :=
  ∀ (s : State) (d : Die) (i : Fin 48), s.aon = true →
    (∀ (raw x : Int), (s.die d.val).powered = true → i.val < dieSensors d.val →
      x = s.trimmedT d.val i.val raw →
      ∃ t, exec (.thermalConversion d i raw) s = .next t ∧ t.sensorT d.val i.val = x ∧
        (s.sensorOut d.val i.val = true → s.onlyChanges t [⟨.dagTsT, d.val, i.val⟩] []) ∧
        (s.sensorOut d.val i.val = false → 1 ≤ (s.sensor d.val i.val).above → toSigned 16 (s.rd .hrtLtripTrip) ≤ x →
          d.val ∉ s.hearth.tripped →
          t.force.junction = true ∧ t.floorOn = true ∧ t.flag .hrtHstatLtripact = true ∧ d.val ∈ t.hearth.tripped) ∧
        (s.sensorOut d.val i.val = false → 1 ≤ (s.sensor d.val i.val).trip → toSigned 16 (s.rd .hrtTtripTrip) ≤ x →
          s.force.thermtrip = false →
          t.force.thermtrip = true ∧ t.floorOn = true ∧ t.flag .hrtHstatTtrip = true ∧ t.pins.thermtripN = false ∧
            t.flag .fltStatusFatal = true)) ∧
    (s.force.junction = true →
      (∀ e ∈ s.hearth.tripped, ∀ k, k < dieSensors e → s.sensorOut e k = true ∨ s.sensorT e k < toSigned 16 (s.rd .hrtLtripRel)) →
      ∃ t, exec .lintelTripRelease s = .next t ∧ t.force = { s.force with junction := false } ∧ t.hearth.tripped = [] ∧
        t.flag .hrtHstatLtripact = false ∧ t.floorOn = s.floorOn ∧ s.hearth.hotAt + 10000000 ≤ t.now ∧ s.sameTabsBut t []) ∧
    (∀ err : Int, (s.die d.val).powered = true → s.flag .dagTsSuspect d.val i.val = true →
      ∃ t, exec (.sensorSelftest d i err) s = .next t ∧ t.flag .dagTsSuspect d.val i.val = false ∧
        (-24 ≤ err → err ≤ 24 → t.sensorOut d.val i.val = s.sensorOut d.val i.val ∧ t.rd .fltTrans = s.oneUp .fltTrans) ∧
        (err < -24 ∨ 24 < err → t.sensorOut d.val i.val = true ∧ t.rd .fltLasting = s.oneUp .fltLasting ∧
          t.rd .hrtDieRetcnt 0 d.val = (s.rd .hrtDieRetcnt 0 d.val + 1) % 2 ^ (fieldDef .hrtDieRetcnt).width))

/-- From R225, R226, R232, R74: a written inlet temperature is clamped and fresh, and goes stale after 1 000 ms with an Attic event; the host
cannot write it; a run that has started keeps the temperature it started with (assumption log 47). The windows latch the bins fixed so far 60 ns
after a Hearth boundary that is a multiple of 1 s and of 30 s, once for each, and the second's peak and COOL count start again; at any other time
they latch nothing. A checkpoint copies the queue accumulators of every die that has power, with what each gained since the last. -/
def Obligations.InletWindowsAndCheckpoint : Prop :=
  ∀ (s : State) (p : Port) (v : BitVec 16), s.aon = true →
    (p.isHost = true → ∃ t, exec (.inletWrite p v) s = .next t ∧ s.onlyChanges t [] []) ∧
    (p.isHost = false → ∃ t, exec (.inletWrite p v) s = .next t ∧
      t.rd .hrtInletVal = ofSigned 16 (max (-160) (min 1280 (toSigned 16 v.toNat))) ∧ t.rd .hrtInletAge = 0 ∧
      t.flag .hrtHstatStale = false ∧
      (toSigned 16 v.toNat < -160 ∨ 1280 < toSigned 16 v.toNat → t.flag .hrtHstatInclamp = true) ∧
      s.sameRegsBut t [⟨.hrtInletVal, 0, 0⟩, ⟨.hrtInletAge, 0, 0⟩, ⟨.hrtHstatStale, 0, 0⟩, ⟨.hrtHstatInclamp, 0, 0⟩] ∧ s.sameTabsBut t [] ∧
      t.core = { s.core with hearth := { s.takeInlet.hearth with inletAt := some s.now } } ∧
      (s.hearth.inletRun = none → 1000000 * s.hearth.ms + 10000 ≤ s.now → t.hearth.inletRun = some s.inletNow) ∧
      (∀ x, s.hearth.inletRun = some x → t.hearth.inletRun = some x)) ∧
    (∀ a, s.hearth.inletAt = some a → s.flag .hrtHstatStale = false →
      ∃ t, exec .inletStale s = .next t ∧ t.flag .hrtHstatStale = true ∧ t.rd .hrtInletAge = 1000 ∧ a + 1000000000 ≤ t.now ∧
        t.rd .hrtInletVal = s.rd .hrtInletVal ∧ s.queued t 2566 ∧ s.sameTabsBut t []) ∧
    (s.hearth.ms % 1000 = 0 → s.hearth.ms ≠ s.hearth.lat1 → ∃ t, exec .windowLatch1s s = .next t ∧ t.hearth.lat1 = s.hearth.ms ∧
      1000000 * s.hearth.ms + 60 ≤ t.now ∧ t.rd .hrtW1lat = t.hearth.e1 / 65536 % 2 ^ 64 ∧
      t.rd .hrtW1statW1pk = min 0xFFFF (roundNat 24 ((s.fixBin.hearth.secPeak : Rat) / 8192000)) ∧
      t.rd .hrtW1statW1cool = min 1000 s.hearth.secCool ∧ t.hearth.secPeak = 0 ∧ t.hearth.secCool = 0 ∧ s.sameTabsBut t []) ∧
    (s.hearth.ms % 1000 ≠ 0 ∨ s.hearth.ms = s.hearth.lat1 → ∃ t, exec .windowLatch1s s = .next t ∧ s.onlyChanges t [] []) ∧
    (s.hearth.ms % 30000 = 0 → s.hearth.ms ≠ s.hearth.lat30 → ∃ t, exec .windowLatch30s s = .next t ∧
      1000000 * s.hearth.ms + 60 ≤ t.now ∧ t.rd .hrtW30lat = t.hearth.e30 / 65536 % 2 ^ 64 ∧
      t.hearth = { s.fixBin.hearth with lat30 := s.hearth.ms } ∧ s.sameTabsBut t []) ∧
    (s.hearth.ms % 30000 ≠ 0 ∨ s.hearth.ms = s.hearth.lat30 → ∃ t, exec .windowLatch30s s = .next t ∧ s.onlyChanges t [] []) ∧
    ∃ t, exec .accumulatorCheckpoint s = .next t ∧ s.onlyChanges t [] [.halls] ∧
      (∀ d, d < 32 → (s.die d).powered = true → t.hd d = { s.hd d with
        ckpt := s.accumulators d, ckptCum := (s.die d).cum, ckptPeriod := s.period, ckptIdle := (s.die d).idleCum
        ckptGain := (s.accumulators d).map fun x => (x.1, x.2 - Store.get (fun _ => 0) (s.hd d).ckpt x.1) }) ∧
      ∀ d, 32 ≤ d ∨ (s.die d).powered = false → t.hd d = s.hd d

/-! ## The Chain (chapter 12) -/

/-- From R236, R238, R240 to R243, R245, R257 to R260: a node that aligns listens, then enters the ring with CHAIN_BYP_HOLD as the hub dies ask
for it, and one that loses alignment leaves it, with NOLINK after 1 ms. Its own frame is sent, or cut and sent again unchanged. A frame with a
wrong check leaves stomped and is counted with a CORRECTED fault; one stomped already is only counted; one that the node strips is not sent on
(that its check is counted all the same is assumption log 104); a reserved type is passed on with HOPS up, a repeat of one counted as such; a
frame out of hops is stripped. -/
def Obligations.LinkAndFrames : Prop :=
  ∀ s : State, s.aon = true →
    (s.flag .chnPosLink = false →
      (∃ t, exec .chainAligned s = .next t ∧ t.flag .chnPosLink = true ∧ t.chain.listening = true ∧ t.chain.listenAt = s.now ∧
        t.chain.heard = false ∧ s.sameRegsBut t [⟨.chnPosLink, 0, 0⟩] ∧ s.sameTabsBut t []) ∧
      ∃ t, exec .chainNolink s = .next t ∧ t.flag .chnStatusNolink = true ∧ s.chain.lostAt + 1000000 ≤ t.now ∧
        t.rd .fltCont = s.oneUp .fltCont) ∧
    (s.flag .chnPosLink = true → ∃ t, exec .chainAlignLoss s = .next t ∧ t.flag .chnPosLink = false ∧ t.chainRole = 0 ∧
      t.pins.bypHold = false ∧ t.flag .chnPosOrig = false ∧ t.chain.joined = false ∧ t.chain.lostAt = s.now ∧
      s.sameRegsBut t [⟨.chnPosLink, 0, 0⟩, ⟨.chnPosOrig, 0, 0⟩] ∧ s.sameTabsBut t []) ∧
    (s.chain.listening = true → ∃ t, exec .chainListenEnd s = .next t ∧ t.pins.bypHold = t.bypWanted ∧
      t.chain.joined = true ∧ t.chain.listening = false ∧ t.chain.joinHome = s.chain.heard ∧
      (s.chain.heard = false → s.chain.listenAt + 64000 ≤ t.now) ∧ s.sameTabsBut t []) ∧
    (∀ f l, s.chain.outq = f :: l → s.chainRole ≠ 0 →
      ∃ t x, exec .frameInsert s = .next t ∧ t.chain.outq = l ∧ t.chain.tx = s.chain.tx ++ [x] ∧ x.bytes = f.bytes ∧ x.aborted = false ∧
        (f.inv = false → s.inject.chain = false → x.check = crc32c f.bytes) ∧
        (f.inv = false → s.inject.chain = true → f.resend = false → x.check = crc32c f.bytes ^^^ 1 ∧ t.inject.chain = false) ∧
        s.sameRegsBut t [] ∧ s.sameTabsBut t []) ∧
    (∀ f, s.chain.sending = some f → ∃ t, exec .frameAbort s = .next t ∧ t.chain.sending = none ∧
      t.chain.outq = { f with resend := true } :: s.chain.outq ∧ t.rd .chnAbort = s.oneUp .chnAbort ∧
      s.sameRegsBut t [⟨.chnAbort, 0, 0⟩] ∧ s.sameTabsBut t []) ∧
    (∀ (f : Frame) (c : Word), (frameBytes f).length = 32 → s.chainRole ≠ 0 → c.toNat ≠ crc32c (frameBytes f) →
      ∃ t, exec (.crcErrorFrame f c) s = .next t ∧
        (s.strips (frameBytes f) = false → ∃ x, t.chain.tx = s.chain.tx ++ [x] ∧ x.bytes = s.forwarded (frameBytes f) ∧
          x.check = stomp (crc32c x.bytes) ∧ t.rd .chnStrip = s.rd .chnStrip ∧
          (c.toNat = stomp (crc32c (frameBytes f)) → t.rd .chnStomp = s.oneUp .chnStomp ∧ s.sameRegsBut t [⟨.chnStomp, 0, 0⟩])) ∧
        (s.strips (frameBytes f) = true → t.chain.tx = s.chain.tx ∧
          t.rd .chnStrip = (if s.ranHops (frameBytes f) then s.oneUp .chnStrip else s.rd .chnStrip) ∧
          (c.toNat = stomp (crc32c (frameBytes f)) → s.onlyChanges t [⟨.chnStrip, 0, 0⟩] [])) ∧
        (c.toNat ≠ stomp (crc32c (frameBytes f)) → t.rd .chnCrcerr = s.oneUp .chnCrcerr ∧ t.rd .fltCorr = s.oneUp .fltCorr)) ∧
    ∀ f : Frame, (frameBytes f).length = 32 → s.chainRole ≠ 0 → s.ownFrame (frameBytes f) = false →
      (frameHops (frameBytes f) < 127 → frameType (frameBytes f) = 0 ∨ 7 ≤ frameType (frameBytes f) →
        ∃ t, exec (.reservedFrame f) s = .next t ∧
          t.chain.tx = s.chain.tx ++ [{ bytes := hop (frameBytes f), check := crc32c (hop (frameBytes f)), aborted := false }] ∧
          s.sameTabsBut t [] ∧
          (s.repeated (frameBytes f) = false → t.rd .chnUnknown = s.oneUp .chnUnknown ∧ s.sameRegsBut t [⟨.chnUnknown, 0, 0⟩]) ∧
          (s.repeated (frameBytes f) = true → t.rd .chnRepeat = s.oneUp .chnRepeat ∧ s.sameRegsBut t [⟨.chnRepeat, 0, 0⟩])) ∧
      (127 ≤ frameHops (frameBytes f) → ∃ t, exec (.frameStrip f) s = .next t ∧ t.rd .chnStrip = s.oneUp .chnStrip ∧
        s.onlyChanges t [⟨.chnStrip, 0, 0⟩] [])

/-- From R246, R248 to R251, R256, R374: the node that claims and has its CLAIM back becomes the originator with FREEZE and RECOUNT; a lower
claim passes and makes it back off; the originator sends each round in turn, checks the sums of the one that returns, and sends the next
when one is lost, with no new OFFER where more than 32 µs have passed with no LEDGER. A LEDGER that passes is forwarded and sets position, epoch
and round. The first HOME sets the holding, and FULL is barred until one has been written after TOTAL. -/
def Obligations.ClaimsAndLedgers : Prop :=
  ∀ s : State, s.aon = true →
    (s.chainRole = 2 → s.flag .chnPosOrig = false → s.chain.backoff = none →
      ∃ t f, exec .claimSend s = .next t ∧ t.chain.claiming = true ∧ t.chain.outq = s.chain.outq ++ [f] ∧ frameType f.bytes = tyClaim ∧
        t.chain.claimAt = t.now ∧ (s.chain.claiming = true → s.chain.claimAt + 64000 ≤ t.now) ∧
        (∀ a, s.chain.claiming = false → s.chain.lastLedger = some a → a + 64000 ≤ t.now) ∧ s.sameTabsBut t []) ∧
    (∀ f : Frame, (frameBytes f).length = 32 → frameType (frameBytes f) = tyClaim → s.chainRole ≠ 0 → s.chain.claiming = true →
      (le (frameBytes f) 8 8 = s.rd .chnNodeidId → ∃ t, exec (.claimReceived f) s = .next t ∧ t.flag .chnPosOrig = true ∧
        t.chain.claiming = false ∧ t.chain.nextFlags = 3 ∧ t.rd .chnPos = 0 ∧ s.sameTabsBut t []) ∧
      (le (frameBytes f) 8 8 < s.rd .chnNodeidId → frameHops (frameBytes f) < 127 →
        ∃ t x, exec (.claimReceived f) s = .next t ∧ t.chain.claiming = false ∧ t.chain.backoff = some s.now ∧
          t.chain.tx = s.chain.tx ++ [x] ∧ x.bytes = hop (frameBytes f) ∧ s.sameRegsBut t [] ∧ s.sameTabsBut t []) ∧
      (s.rd .chnNodeidId < le (frameBytes f) 8 8 → frameHops (frameBytes f) < 127 →
        ∃ t, exec (.claimReceived f) s = .next t ∧ s.onlyChanges t [] [])) ∧
    (∀ a, s.chain.backoff = some a → ∃ t, exec .claimBackoffEnd s = .next t ∧ t.chain.backoff = none ∧ a + 16000 ≤ t.now ∧
      ((∀ b, s.chain.lastLedger = some b → b < a) → s.chainRole = 2 → t.chain.claiming = true) ∧
      (∀ b, s.chain.lastLedger = some b → a ≤ b → t.chain.claiming = s.chain.claiming)) ∧
    (s.flag .chnPosOrig = true → s.chain.ledgerOut = none → s.chainRole = 2 →
      ∃ t, exec .ledgerSend s = .next t ∧ t.chain.ledgerOut.isSome = true ∧ t.chain.ledgerAt = some t.now ∧
        t.chain.round = (s.chain.round + 1) % 2 ^ 32 ∧ (∃ f ∈ t.chain.outq, frameType f.bytes = tyLedger) ∧
        (∀ a, s.chain.ledgerAt = some a → a + s.roundNs ≤ t.now)) ∧
    (∀ f : Frame, (frameBytes f).length = 32 → frameType (frameBytes f) = tyLedger → s.chainRole ≠ 0 → s.ownFrame (frameBytes f) = true →
      s.chain.ledgerOut = some (frameAlive (frameBytes f)) →
      ∃ t, exec (.ledgerReturn f) s = .next t ∧ t.chain.ledgerOut = none ∧ t.chain.prevM = le (frameBytes f) 12 1 ∧
        t.rd .chnPosM = le (frameBytes f) 12 1 ∧ s.sameTabsBut t [] ∧
        (le (frameBytes f) 16 4 + s.chain.seam ≠ le (frameBytes f) 20 4 →
          t.chain.nextFlags = 3 ∧ t.rd .chnMismatch = s.oneUp .chnMismatch) ∧
        (le (frameBytes f) 16 4 + s.chain.seam = le (frameBytes f) 20 4 → le (frameBytes f) 24 4 < le (frameBytes f) 20 4 →
          t.chain.nextFlags = 5)) ∧
    (∀ a b, s.chain.ledgerOut = some a → s.chain.ledgerAt = some b → ∃ t, exec .ledgerLost s = .next t ∧
      t.rd .chnLdglost = s.oneUp .chnLdglost ∧ b + s.outNs ≤ t.now ∧ (s.chainRole ≠ 2 → t.chain.ledgerOut = none) ∧
      (s.chainRole = 2 → t.chain.ledgerOut.isSome = true ∧ (32000 < s.outNs → ∀ o ∈ t.chain.offers, o ∈ s.chain.offers))) ∧
    (∀ f : Frame, (frameBytes f).length = 32 → frameType (frameBytes f) = tyLedger → s.chain.listening = false → s.chainRole ≠ 0 →
      s.ownFrame (frameBytes f) = false → frameHops (frameBytes f) < 127 →
      (s.repeated (frameBytes f) = true → ∃ t, exec (.ledgerPass f) s = .next t ∧ t.rd .chnRepeat = s.oneUp .chnRepeat ∧
        t.chain.tx.length = s.chain.tx.length + 1 ∧ s.sameRegsBut t [⟨.chnRepeat, 0, 0⟩] ∧ s.sameTabsBut t []) ∧
      (s.repeated (frameBytes f) = false → ∃ t, exec (.ledgerPass f) s = .next t ∧ t.chain.tx.length = s.chain.tx.length + 1 ∧
        t.rd .chnRound = le (frameBytes f) 8 4 ∧ t.chain.lastLedger = some s.now ∧
        (s.chainRole = 2 → t.rd .chnPos = le (frameBytes f) 12 1 % 128 ∧ t.rd .chnPosEpoch = frameEpoch (frameBytes f)))) ∧
    ∀ (p : Port) (v : BitVec 16), p.isHost = false → ∃ t, exec (.homeWrite p v) s = .next t ∧ t.rd .chnHome = v.toNat ∧
      t.start.grains = (s.start.grains || s.start.totalSet) ∧
      (s.chain.home = none → t.chain.home = some v.toNat ∧ t.holding = v.toNat) ∧
      (s.chain.home.isSome = true → t.chain.home = s.chain.home ∧ t.holding = s.holding)

/-- From R243, R246, R252 to R255, R261: an OFFER that names this node is taken while it may take it, and raises its holding; the lender's
frame that returns ends the offer, a TAKE as lent and an OFFER of the epoch given back; one that times out is given up. BEACONs and
VERSIONs are originated when due, and those of other nodes are kept. -/
def Obligations.OffersBeaconsAndVersions : Prop :=
  ∀ s : State, s.aon = true →
    (∀ f : Frame, (frameBytes f).length = 32 → s.chainRole ≠ 0 → s.ownFrame (frameBytes f) = false → frameHops (frameBytes f) < 127 →
      s.repeated (frameBytes f) = false →
      (frameType (frameBytes f) = tyOffer → ∃ t, exec (.offerReceived f) s = .next t ∧ t.chain.tx.length = s.chain.tx.length + 1 ∧
        (s.takes (frameBytes f) = true → t.holding = min 0xFFFF (s.holding + le (frameBytes f) 12 4) ∧
          t.rd .chnGrin = min (s.rd .chnGrin + le (frameBytes f) 12 4) (2 ^ (fieldDef .chnGrin).width - 1)) ∧
        (s.takes (frameBytes f) = false → t.holding = s.holding ∧ s.sameRegsBut t [] ∧ s.sameTabsBut t [])) ∧
      (frameType (frameBytes f) = tyBeacon → ∃ t, exec (.chainBeaconReceived f) s = .next t ∧
        t.chain.tx.length = s.chain.tx.length + 1 ∧ s.sameRegsBut t [] ∧ s.sameTabsBut t [] ∧
        ∀ k, k < min 3 (le (frameBytes f) 5 1) → ∃ r ∈ t.chain.recs, r.pos = frameOrigin (frameBytes f) ∧
          r.part = le (frameBytes f) (8 + 8 * k + 4) 1 ∧ r.time = s.now) ∧
      (frameType (frameBytes f) = tyVersion → ∃ t, exec (.versionReceived f) s = .next t ∧
        t.chain.tx.length = s.chain.tx.length + 1 ∧ s.sameRegsBut t [] ∧ s.sameTabsBut t [] ∧
        (s.flag .chnPosOrig = true → ∃ r ∈ t.chain.versions, r.node = le (frameBytes f) 8 8 ∧ r.time = s.now) ∧
        (s.flag .chnPosOrig = false → t.chain.versions = s.chain.versions))) ∧
    (∀ (f : Frame) (o : OfferOut), (frameBytes f).length = 32 → s.chainRole ≠ 0 → s.ownFrame (frameBytes f) = true →
      s.chain.offers.find? (fun x => x.alive = frameAlive (frameBytes f)) = some o →
      (frameType (frameBytes f) = tyTake → ∃ t, exec (.offerReturn f) s = .next t ∧ o ∉ t.chain.offers ∧ t.holding = s.holding ∧
        t.rd .chnGrout = min (s.rd .chnGrout + o.amount) (2 ^ (fieldDef .chnGrout).width - 1)) ∧
      (frameType (frameBytes f) = tyOffer → frameEpoch (frameBytes f) = s.rd .chnPosEpoch →
        ∃ t, exec (.offerReturn f) s = .next t ∧ o ∉ t.chain.offers ∧ t.holding = min 0xFFFF (s.holding + o.amount) ∧
          t.rd .chnGrout = s.rd .chnGrout)) ∧
    (∀ k o, s.chain.offers[k]? = some o → ∃ t, exec (.offerTimeout k) s = .next t ∧ t.chain.offers = s.chain.offers.eraseIdx k ∧
      o.sentAt + s.outNs ≤ t.now ∧ t.holding = s.holding ∧
      t.rd .chnGrout = min (s.rd .chnGrout + o.amount) (2 ^ (fieldDef .chnGrout).width - 1) ∧ s.sameTabsBut t []) ∧
    (s.chainRole = 2 →
      (s.partsInForce ≠ [] → ∃ t f, exec .chainBeaconSend s = .next t ∧ t.chain.outq = s.chain.outq ++ [f] ∧
        frameType f.bytes = tyBeacon ∧ t.chain.beaconAt = some t.now ∧ s.sameTabsBut t [] ∧
        ∀ a, s.chain.beaconAt = some a → a + 10000 * max 1 (s.rd .chnCfgBcnivl) ≤ t.now) ∧
      ∃ t f, exec .versionSend s = .next t ∧ t.chain.outq = s.chain.outq ++ [f] ∧ frameType f.bytes = tyVersion ∧
        t.chain.versionAt = some t.now ∧ s.sameTabsBut t [] ∧ ∀ a, s.chain.versionAt = some a → a + 1000000 ≤ t.now)

/-! ## Ageing (chapter 13) -/

/-- From R264 to R275: a measurement excludes a compute die for its gate of 1 ms, gives its result while the die can be read, and otherwise
waits, or is abandoned with no result; a re-plan raises the die's table or rail by its steps, one where the die is blind, and where a rail
would pass its ceiling its domains run slower instead, with a CONTAINED fault; a suspect monitor's self-test clears or retires it; operating
time is saved every 60 s, and work overdue is marked. -/
def Obligations.AgeingWork : Prop :=
  ∀ (s : State) (d : Die), s.aon = true →
    (s.mayMeasure d.val = true → ∃ t, exec (.ageMeasureStart d) s = .next t ∧ (t.ageDie d.val).measuring = true ∧
      (t.ageDie d.val).startAt = s.now ∧ (d.val < 32 → 2 ∈ (t.hd d.val).excl) ∧
      (32 ≤ d.val → s.sameRegsBut t [] ∧ s.sameTabsBut t [])) ∧
    (∀ l, (s.ageDie d.val).measuring = true →
      (s.mayRead d.val = true → ∃ t, exec (.ageMeasureComplete d l) s = .next t ∧ (t.ageDie d.val).measuring = false ∧
        (s.ageDie d.val).startAt + 1000000 ≤ t.now ∧ (t.ageDie d.val).measAt = some t.opSec) ∧
      (s.mayRead d.val = false → ∃ t, exec (.ageMeasureComplete d l) s = .next t ∧ s.onlyChanges t [] [])) ∧
    (∀ c, (s.ageDie d.val).measuring = true ∨ (s.ageDie d.val).planning = true → ∃ t, exec (.ageMeasureAbandon d c) s = .next t ∧
      t.ageDie d.val = { s.ageDie d.val with measuring := false, planning := false } ∧ (d.val < 32 → 2 ∉ (t.hd d.val).excl) ∧
      s.sameRegsBut t [] ∧ s.sameTabsBut t [.halls]) ∧
    (∀ f n, s.mayPlan d.val = true → s.svc ≠ svcCold → 0 < s.stepsDue d.val → s.planAllowed d.val = true →
      n = min (s.stepsDue d.val) (if s.blindDie d.val then 1 else max 1 (s.rd .ageCfgMaxstep)) →
      ∃ t, exec (.ageReplan d f) s = .next t ∧ (t.ageDie d.val).planAt = some s.opSec ∧ (t.ageDie d.val).planning = false ∧
        (d.val < 32 → 2 ∉ (t.hd d.val).excl) ∧
        (d.val < 32 ∨ s.rd .rgcVidV (ownRail d.val) + 5 * n ≤ s.ceiling (ownRail d.val) →
          t.rd .ageDieRaise 0 d.val = (s.rd .ageDieRaise 0 d.val + 5 * n) % 2 ^ (fieldDef .ageDieRaise).width) ∧
        (32 ≤ d.val → s.ceiling (ownRail d.val) < s.rd .rgcVidV (ownRail d.val) + 5 * n →
          t.rd .ageDieRaise 0 d.val = s.rd .ageDieRaise 0 d.val ∧ t.rd .fltCont = s.oneUp .fltCont)) ∧
    (∀ f, s.mayPlan d.val = false ∨ s.stepsDue d.val = 0 ∨ s.planAllowed d.val = false → ∃ t, exec (.ageReplan d f) s = .next t ∧
      s.onlyChanges t [] []) ∧
    (∀ (m : Fin 8) (n : Nat) (c : Bool), m.val < dieMonitors d.val → s.monSuspect d.val m.val = true → s.monOut d.val m.val = false →
      ∃ t, exec (.monitorSelftest d m n c) s = .next t ∧ t.monSuspect d.val m.val = false ∧
        if c && decide (n ≤ 50) then t.monOut d.val m.val = false ∧ t.rd .fltTrans = s.oneUp .fltTrans
        else t.monOut d.val m.val = true ∧ t.rd .fltLasting = s.oneUp .fltLasting) ∧
    (s.svc ≠ svcCold → s.ccUp = true →
      (∃ t, exec .optimeSave s = .next t ∧ t.flash.optime = t.opSec ∧ s.flash.optime + 60 ≤ t.opSec) ∧
      (s.flag .ageDiePend 0 d.val = false → ∃ t, exec (.agePend d) s = .next t ∧ t.flag .ageDiePend 0 d.val = true ∧
        t.flag .ageStatusPend = true))

/-! ## The host interface (chapters 8, 9, 14, 15 and 16) -/

/-- From R301, R305, R313, R314, R323: a host port's doorbell of a meaning now latches, and any other sets DBDISC; one taken is cleared, and a ring set's
brings its control block, which a poll brings too; an index out of range is an ERROR. -/
def Obligations.DoorbellsAndControlBlocks : Prop :=
  ∀ s : State, s.aon = true →
    (∀ (p : Port) (v : Word), hifPort p = true → ∃ t, exec (.doorbellSet p v) s = .next t ∧
      (∀ b, b < 19 → testBit (t.rd .hifDbpend) b = (testBit (s.rd .hifDbpend) b || testBit v.toNat b && s.dbValid b)) ∧
      ((∃ b, b < 32 ∧ testBit v.toNat b = true ∧ s.dbValid b = false) → t.flag .hifStatusDbdisc = true) ∧
      s.onlyChanges t [⟨.hifDbpend, 0, 0⟩, ⟨.hifStatusDbdisc, 0, 0⟩] [.ports]) ∧
    (∀ (p : Port) (v : Word), hifPort p = false → ∃ t, exec (.doorbellSet p v) s = .next t ∧ s.onlyChanges t [] [.ports]) ∧
    (∀ (b : Fin 32) (x : CtlBlock), s.ccUp = true → testBit (s.rd .hifDbpend) b.val = true → testBit (s.rd .hifDbmask) b.val = false →
      ∃ t, exec (.doorbellTake b x) s = .next t ∧ testBit (t.rd .hifDbpend) b.val = false ∧
        (b.val = 18 → t.tring.ci = x.cmdpi.toNat % ringSize (s.rd .obsTrccfgSize)) ∧
        (18 < b.val ∨ b.val = 16 ∨ b.val = 17 → s.onlyChanges t [⟨.hifDbpend, 0, 0⟩] []) ∧
        (b.val < 16 → s.ringRunning b.val = false → s.onlyChanges t [⟨.hifDbpend, 0, 0⟩] [])) ∧
    ∀ (n : Part) (x : CtlBlock), s.ringRunning n.val = true → testBit (s.rd .hifDbmask) n.val = false →
      (x.cmdpi.toNat < ringSize (s.rd .hifRsSizesCmd 0 n.val) → x.cplci.toNat < ringSize (s.rd .hifRsSizesCpl 0 n.val) →
        x.telci.toNat < ringSize (s.rd .hifRsSizesTel 0 n.val) → x.stmci.toNat < ringSize (s.rd .hifRsSizesStm 0 n.val) →
        x.stmci.toNat % 4 = 0 →
        ∃ t, exec (.controlBlockPoll n x) s = .next t ∧ s.onlyChanges t [] [.rings] ∧
          t.ring n.val = { s.ring n.val with cmdpi := x.cmdpi.toNat, cplci := x.cplci.toNat, telci := x.telci.toNat, stmci := x.stmci.toNat }) ∧
      (ringSize (s.rd .hifRsSizesCmd 0 n.val) ≤ x.cmdpi.toNat ∨ x.stmci.toNat % 4 ≠ 0 →
        ∃ t, exec (.controlBlockPoll n x) s = .next t ∧ t.rd .hifRsStatState 0 n.val = 2 ∧ t.rd .hifRsStatErrc 0 n.val = 3 ∧
          s.sameRegsBut t [⟨.hifRsStatState, 0, n.val⟩, ⟨.hifRsStatErrc, 0, n.val⟩] ∧ s.sameTabsBut t [.msix])

/-- From R300, R302, R304, R305, R306: a ring set of legal sizes starts afresh when it is enabled from DISABLED; disabled, it stops and is
idle once its accesses are done; an access that fails is an ERROR with a CORRECTED fault. A fetched entry runs; one of a reserved opcode
or byte completes INVALID at once, and one of the wrong phase is an ERROR. -/
def Obligations.RingSetStatesAndFetch : Prop :=
  ∀ (s : State) (n : Part), s.aon = true →
    (∀ (p : Port) (v : Word), hifPort p = true →
      (s.ringReady n.val = true → s.rd .hifRsStatState 0 n.val = 0 →
        ∃ t, exec (.ringSetEnable p n v) s = .next t ∧ t.ringRunning n.val = true ∧ t.flag .hifRsCtrlEn 0 n.val = true ∧
          t.rd .hifRsCtrlPort 0 n.val = v.toNat / 2 % 2 ∧ t.rd .hifRsCtrlImod 0 n.val = v.toNat / 4 % 256 ∧ t.rd .hifRsCmdci 0 n.val = 0 ∧
          t.rd .hifRsCplpi 0 n.val = 0 ∧ (t.ring n.val).running = [] ∧ (t.ring n.val).cmdPhase = true ∧
          (t.ring n.val).due = (s.ring n.val).due ∧ s.sameTabsBut t [.rings, .ports]) ∧
      (s.ringReady n.val = false → ∃ t, exec (.ringSetEnable p n v) s = .next t ∧ t.flag .hifStatusCfgerr = true ∧
        s.onlyChanges t [⟨.hifStatusCfgerr, 0, 0⟩] [.ports]) ∧
      (s.rd .hifRsStatState 0 n.val = 1 ∨ s.rd .hifRsStatState 0 n.val = 2 →
        ∃ t, exec (.ringSetDisable p n v) s = .next t ∧ t.rd .hifRsStatState 0 n.val = 3 ∧ t.flag .hifRsCtrlEn 0 n.val = false ∧
          s.onlyChanges t [⟨.hifRsStatState, 0, n.val⟩, ⟨.hifRsCtrlEn, 0, n.val⟩, ⟨.hifRsCtrlPort, 0, n.val⟩, ⟨.hifRsCtrlImod, 0, n.val⟩] [.ports])) ∧
    (∀ (p : Port) (v : Word), hifPort p = false → (∃ t, exec (.ringSetEnable p n v) s = .next t ∧ s.onlyChanges t [] [.ports]) ∧
      ∃ t, exec (.ringSetDisable p n v) s = .next t ∧ s.onlyChanges t [] [.ports]) ∧
    (s.rd .hifRsStatState 0 n.val = 3 → ∃ t, exec (.ringSetIdle n) s = .next t ∧ t.rd .hifRsStatState 0 n.val = 0 ∧
      t.flag .hifRsStatIdle 0 n.val = true ∧ t.ring n.val = { s.ring n.val with running := [] } ∧
      s.onlyChanges t [⟨.hifRsStatState, 0, n.val⟩, ⟨.hifRsStatIdle, 0, n.val⟩, ⟨.hifRsStatInflight, 0, n.val⟩] [.rings]) ∧
    (s.ringRunning n.val = true → ∃ t, exec (.hostAccessFail n) s = .next t ∧ t.rd .hifRsStatState 0 n.val = 2 ∧
      t.rd .hifRsStatErrc 0 n.val = 1 ∧ t.rd .fltCorr = s.oneUp .fltCorr ∧ s.sameTabsBut t [.msix]) ∧
    ∀ e : CmdEntry, s.ringRunning n.val = true → s.svc ≠ svcCold → s.ccUp = true → s.upd.quiet = false →
      s.rd .hifRsCmdci 0 n.val ≠ (s.ring n.val).cmdpi → testBit (s.rd .hifDbmask) n.val = false →
      s.mayStart n.val (e.cmdw.toNat / 256 % 256) = true →
      (decide (e.cmdw.toNat % 2 = 1) = (s.ring n.val).cmdPhase → entryLegal e = true →
        ∃ t c, exec (.commandFetch n e) s = .next t ∧ (t.ring n.val).running = (s.ring n.val).running ++ [c] ∧
          c.cid = e.cmdw.toNat / 65536 ∧ c.opcode = e.cmdw.toNat / 256 % 256 ∧ c.tgt = e.tgt.toNat ∧ c.oper = e.oper ∧ c.started = false ∧
          c.priv = decide (s.privRing = some n.val) ∧
          t.rd .hifRsCmdci 0 n.val = (s.rd .hifRsCmdci 0 n.val + 1) % ringSize (s.rd .hifRsSizesCmd 0 n.val) % 2 ^ 16 ∧
          s.onlyChanges t [⟨.hifRsCmdci, 0, n.val⟩, ⟨.hifRsStatInflight, 0, n.val⟩] [.rings]) ∧
      (decide (e.cmdw.toNat % 2 = 1) = (s.ring n.val).cmdPhase → entryLegal e = false →
        ∃ t w, exec (.commandFetch n e) s = .next t ∧ (t.ring n.val).running = (s.ring n.val).running ∧ t.dma = s.dma ++ w ∧ w.length = 2 ∧
          (∃ x ∈ w, x.words = [w32 (2 ^ 8 * 4 + 2 ^ 16 * (e.cmdw.toNat / 65536) + bit (s.ring n.val).cplPhase)]) ∧
          s.sameRegsBut t [⟨.hifRsCmdci, 0, n.val⟩, ⟨.hifRsStatInflight, 0, n.val⟩, ⟨.hifRsCplpi, 0, n.val⟩]) ∧
      (decide (e.cmdw.toNat % 2 = 1) ≠ (s.ring n.val).cmdPhase → ∃ t, exec (.commandFetch n e) s = .next t ∧
        t.rd .hifRsStatState 0 n.val = 2 ∧ t.rd .hifRsStatErrc 0 n.val = 2 ∧ t.rd .hifRsCmdci 0 n.val = s.rd .hifRsCmdci 0 n.val)

/-- From R278, R306 to R308, R187, R69, R35, R352: NOP, ACKFAULT, SETCLASS, STATEMENT, HOSTCAP and FREEZE complete at once: what each
does, and the status where it may not. A command that its ring set may not give completes PERM and does nothing else. -/
def Obligations.RingCommandsCompleteAtOnce : Prop :=
  ∀ (s : State) (n : Part) (k : BitVec 16) (c : CmdRun), s.aon = true →
    (s.mayRun n.val k.toNat 1 c → ∃ t, exec (.nop n k) s = .next t ∧ s.completes t n.val k.toNat 0 0 ∧
      s.sameRegsBut t [⟨.hifRsStatInflight, 0, n.val⟩, ⟨.hifRsCplpi, 0, n.val⟩] ∧ s.sameTabsBut t [.rings, .msix]) ∧
    (s.cmdOf n.val k.toNat 8 = some c → c.forbidden = true → ∃ t, exec (.hostcap n k) s = .next t ∧ s.completes t n.val k.toNat 3 0 ∧
      s.sameRegsBut t [⟨.hifRsStatInflight, 0, n.val⟩, ⟨.hifRsCplpi, 0, n.val⟩] ∧ s.sameTabsBut t [.rings, .msix]) ∧
    (s.mayRun n.val k.toNat 2 c → ∀ all mine : List Nat, all = s.ackSlots (c.word 0 % 2 ^ 16) (testBit (c.word 0) 16) →
      mine = (if c.priv then all else all.filter (s.pendIsOf n.val)) →
      ∃ t, exec (.ackfault n k) s = .next t ∧
        if testBit (c.word 0) 16 = false ∧ mine.length < all.length then s.completes t n.val k.toNat 3 0 ∧
          ∀ j, t.flag .fltPendValid 0 j = s.flag .fltPendValid 0 j
        else s.completes t n.val k.toNat 0 mine.length ∧ (∀ j ∈ mine, t.flag .fltPendValid 0 j = false) ∧
          ∀ j, j ∉ mine → t.flag .fltPendValid 0 j = s.flag .fltPendValid 0 j) ∧
    (s.mayRun n.val k.toNat 3 c → ∀ l : List Nat, l = maskCores (c.dword 0 + 2 ^ 64 * c.dword 2) →
      ((∀ x ∈ l, s.partOf (x / 4) = some (c.target n.val)) → ∃ t, exec (.setclass n k) s = .next t ∧ s.completes t n.val k.toNat 0 0 ∧
        (∀ x ∈ l, t.rd .alcCclassCls 0 x = c.word 4 % 4) ∧ ∀ x, x ∉ l → t.rd .alcCclassCls 0 x = s.rd .alcCclassCls 0 x) ∧
      ((∃ x ∈ l, s.partOf (x / 4) ≠ some (c.target n.val)) → ∃ t, exec (.setclass n k) s = .next t ∧
        s.completes t n.val k.toNat 4 0 ∧ ∀ x, t.rd .alcCclassCls 0 x = s.rd .alcCclassCls 0 x)) ∧
    (s.mayRun n.val k.toNat 4 c →
      (s.inForce (c.target n.val) = false → ∃ t, exec (.statement n k) s = .next t ∧ s.completes t n.val k.toNat 4 0) ∧
      (s.inForce (c.target n.val) = true → s.stmtsFull (c.target n.val) = true → ∃ t, exec (.statement n k) s = .next t ∧
        s.completes t n.val k.toNat 2 0 ∧ t.flag .obsEstatBusy = true) ∧
      (s.inForce (c.target n.val) = true → s.stmtsFull (c.target n.val) = false → ∃ t e, exec (.statement n k) s = .next t ∧
        s.completes t n.val k.toNat 0 (s.ring (c.target n.val)).stmSeq ∧
        (t.ring (c.target n.val)).due = (s.ring (c.target n.val)).due ++ [e] ∧ e.kind = .demand ∧ e.seq = (s.ring (c.target n.val)).stmSeq)) ∧
    (s.mayRun n.val k.toNat 8 c →
      (s.heldForbids .alcHostcapCap (c.word 0) = true → ∃ t, exec (.hostcap n k) s = .next t ∧ s.completes t n.val k.toNat 6 0 ∧
        t.flag .alcStatusHeldrej = true ∧ t.rd .alcHostcapCap = s.rd .alcHostcapCap) ∧
      (s.heldForbids .alcHostcapCap (c.word 0) = false → ∃ t, exec (.hostcap n k) s = .next t ∧ s.completes t n.val k.toNat 0 0 ∧
        t.rd .alcHostcapCap = c.word 0 % 2 ^ (fieldDef .alcHostcapCap).width)) ∧
    (s.mayRun n.val k.toNat 12 c → ∃ t a, exec (.freeze n k) s = .next t ∧ s.completes t n.val k.toNat 0 0 ∧ t.freezeT = some a ∧ s.now < a ∧
      (s.now + 1000 ≤ c.dword 0 → a = c.dword 0) ∧ (c.dword 0 < s.now + 1000 → t.flag .obsFrzctlLate = true) ∧
      t.flag .obsFrzctlArmed = true)

/-- From R162, R177 to R180, R307: LSEED installs or skips each of its records, read in the layout of an entry, and counts both; one installed
has its COUNT capped, SEEDED set and LAST now; LCLEAR removes every entry that its key or tag hits, and streams each removal to a ready standby;
LEXPORT writes the entries of the partition's tag to the buffer. -/
def Obligations.LarderCommands : Prop :=
  ∀ (s : State) (n : Part) (k : BitVec 16) (c : CmdRun), s.aon = true →
    (∀ l : List SeedRec, s.mayRun n.val k.toNat 9 c → c.misaligned = false → ∃ t a b, exec (.lseed n k (.data l)) s = .next t ∧
      s.completes t n.val k.toNat 0 (a + 2 ^ 32 * b) ∧ a + b = min (c.word 2) l.length) ∧
    (∀ r : SeedRec, s.mayRun n.val k.toNat 9 c → c.misaligned = false → 1 ≤ c.word 2 → (readSeed r).2 = true → (readSeed r).1.key.prec ≤ 7 →
      c.priv = true ∨ s.ownTag (c.target n.val) = some (readSeed r).1.key.tag → s.lard.withdrawn = [] →
      (s.lard.larder.filter fun x => larderSet x.key = larderSet (readSeed r).1.key).length < 8 →
      ∃ t, exec (.lseed n k (.data [r])) s = .next t ∧ s.completes t n.val k.toNat 0 1 ∧
        { (readSeed r).1 with count := min (readSeed r).1.count (s.rd .lrdCfgSeedcap), seeded := true, last := s.now } ∈ t.lard.larder) ∧
    (s.mayRun n.val k.toNat 9 c → c.misaligned = false → ∃ t, exec (.lseed n k .failed) s = .next t ∧ s.completes t n.val k.toNat 7 0 ∧
      t.lard = s.lard) ∧
    (s.mayRun n.val k.toNat 10 c → c.priv = true ∨ s.ownTag (c.target n.val) = some c.lkey.tag →
      ∃ t q, exec (.lclear n k) s = .next t ∧ s.completes t n.val k.toNat q
          ((s.lard.larder.filter fun x => if testBit (c.word 2) 0 then x.key.tag = c.lkey.tag else x.key = c.lkey).length +
           (s.lard.cellar.filter fun x => (if testBit (c.word 2) 0 then x.key.tag = c.lkey.tag else x.key = c.lkey) && s.keyAvail x.key).length) ∧
        (∀ x ∈ t.lard.larder, x ∈ s.lard.larder ∧ if testBit (c.word 2) 0 then x.key.tag ≠ c.lkey.tag else x.key ≠ c.lkey) ∧
        t.lard.invals = s.lard.invals ++ [{ key := c.lkey, whole := testBit (c.word 2) 0 }] ∧ (s.cellarOn = false → q = 0) ∧
        (s.flag .govHallStbyrdy = true → t.lard.stream = s.lard.stream ++
          (s.lard.larder.filter fun x => if testBit (c.word 2) 0 then x.key.tag = c.lkey.tag else x.key = c.lkey).map fun x =>
            (.drop x.key, s.lard.recDone))) ∧
    (s.mayRun n.val k.toNat 10 c → c.priv = false → s.ownTag (c.target n.val) ≠ some c.lkey.tag →
      ∃ t, exec (.lclear n k) s = .next t ∧ s.completes t n.val k.toNat 3 0 ∧ t.lard = s.lard) ∧
    (∀ g, s.mayRun n.val k.toNat 11 c → c.misaligned = false → s.ownTag (c.target n.val) = some g → testBit (c.word 3) 0 = false →
      s.lard.badWords = [] → ∀ m, m = (s.lard.larder.filter fun x => x.key.tag = g).length →
      (∃ t w, exec (.lexport n k true) s = .next t ∧
        ({ s with dma := s.dma ++ w }).completes t n.val k.toNat (if c.word 2 < m then 1 else 0) (min (c.word 2) m) ∧
        w.length = min (c.word 2) m ∧ t.lard = s.lard) ∧
      ∃ t, exec (.lexport n k false) s = .next t ∧ s.completes t n.val k.toNat 7 0 ∧ t.lard = s.lard)

/-- From R185, R203, R290, R291, R307, R334, R338, R360: ENDJOB, BIND and SETPOLICY ask for a change of two phases and complete with it,
BUSY where four wait; SNAPSHOT completes with its capture; UPDATE starts a live update or names the one in progress, or installs a policy
blob. -/
def Obligations.RingCommandsThatTakeTime : Prop :=
  ∀ (s : State) (n : Part) (k : BitVec 16) (c : CmdRun), s.aon = true →
    (s.mayRun n.val k.toNat 5 c → s.inForce (c.target n.val) = true → s.stmtsFull (c.target n.val) = false →
      (s.changes.length < 4 → ∃ t x, exec (.endjob n k) s = .next t ∧ t.changes = s.changes ++ [x] ∧ x.kind = .endJob (c.target n.val) ∧
        x.cmd = some (n.val, k.toNat) ∧ x.dies = s.diesOf (c.target n.val) ∧ t.cmdOf n.val k.toNat 5 = none ∧
        s.sameRegsBut t [⟨.fltCmtQueued, 0, 0⟩] ∧ s.sameTabsBut t [.rings]) ∧
      (4 ≤ s.changes.length → ∃ t, exec (.endjob n k) s = .next t ∧ s.completes t n.val k.toNat 2 0 ∧ t.changes = s.changes)) ∧
    (s.mayRun n.val k.toNat 6 c → s.inForce (c.target n.val) = false ∨ s.stmtsFull (c.target n.val) = false →
      (s.clashes (c.target n.val) (c.word 0) = true → ∃ t, exec (.bind n k) s = .next t ∧ s.completes t n.val k.toNat 4 0 ∧
        t.flag .alcAlstatParterr = true ∧ t.changes = s.changes) ∧
      (s.clashes (c.target n.val) (c.word 0) = false → s.changes.length < 4 →
        ∃ t x, exec (.bind n k) s = .next t ∧ t.changes = s.changes ++ [x] ∧
          x.kind = .bind (c.target n.val) (s.inForce (c.target n.val)) true ∧ x.cmd = some (n.val, k.toNat) ∧
          (⟨.alcPartDies, 0, c.target n.val⟩, c.word 0) ∈ x.writes ∧ (⟨.alcPartBindTag, 0, c.target n.val⟩, c.word 1) ∈ x.writes ∧
          s.sameRegsBut t [⟨.fltCmtQueued, 0, 0⟩] ∧ s.sameTabsBut t [.rings])) ∧
    (s.mayRun n.val k.toNat 7 c → s.changes.length < 4 → ∃ t x, exec (.setpolicy n k) s = .next t ∧ t.changes = s.changes ++ [x] ∧
      x.kind = .policy (c.target n.val) ∧ x.cmd = some (n.val, k.toNat) ∧ (⟨.alcPartCap, 0, c.target n.val⟩, c.word 2) ∈ x.writes ∧
      s.sameRegsBut t [⟨.fltCmtQueued, 0, 0⟩] ∧ s.sameTabsBut t [.rings]) ∧
    (s.mayRun n.val k.toNat 13 c →
      (c.misaligned = false → 64 ≤ c.word 2 → ∃ t, exec (.snapshot n k) s = .next t ∧ s.onlyChanges t [] [.rings] ∧
        (t.ring n.val).running = (s.ring n.val).running.map fun x => if x.cid = k.toNat then { x with started := true } else x) ∧
      (c.misaligned = true ∨ c.word 2 < 64 → ∃ t, exec (.snapshot n k) s = .next t ∧ s.completes t n.val k.toNat 4 0)) ∧
    ((s.ring n.val).running.find? (fun x => decide (x.cid = k.toNat) && decide (x.opcode = 13) && x.started) = some c →
      (∃ t w, exec (.snapshotCapture n k true) s = .next t ∧ w.port = s.ringPort n.val ∧ w.addr = c.dword 0 ∧
        w.words.length = min (c.word 2) 10368 / 4 ∧
        ({ s with dma := s.dma ++ [w] }).completes t n.val c.cid (bit (decide (min (c.word 2) 10368 / 4 * 4 < 10368))) (min (c.word 2) 10368 / 4 * 4)) ∧
      ∃ t, exec (.snapshotCapture n k false) s = .next t ∧ s.completes t n.val c.cid 7 0) ∧
    (∀ i : Image, s.mayRun n.val k.toNat 14 c → c.misaligned = false →
      (s.svc ≠ svcFull → ∃ t, exec (.update n k (.data i)) s = .next t ∧ s.completes t n.val k.toNat 6 0) ∧
      (s.svc = svcFull → wordAt i.words 0 ≠ blobMagic → 1 ≤ s.rd .fwcUpdStage → s.rd .fwcUpdStage ≤ 7 →
        ∃ t, exec (.update n k (.data i)) s = .next t ∧ s.completes t n.val k.toNat 0 (s.rd .fwcUpdNum + 2 ^ 63) ∧ t.upd = s.upd) ∧
      (s.svc = svcFull → wordAt i.words 0 ≠ blobMagic → s.rd .fwcUpdStage = 0 →
        ∃ t, exec (.update n k (.data i)) s = .next t ∧ s.completes t n.val k.toNat 0 ((s.rd .fwcUpdNum + 1) % 256) ∧
          t.rd .fwcUpdStage = 1 ∧ t.rd .fwcUpdNum = (s.rd .fwcUpdNum + 1) % 256 ∧ t.upd.words = i.words ∧ t.upd.slot = 1 - s.sel.act)) ∧
    ∀ b : Blob, s.mayRun n.val k.toNat 14 c → c.misaligned = false → s.svc = svcFull → ∃ t, exec (.policyInstall n k b) s = .next t ∧
      if blobValid b.words then s.completes t n.val k.toNat 0 0 ∧ t.region 2 = b.words.take (wordAt b.words 2 / 4)
      else s.completes t n.val k.toNat 4 0 ∧ t.flash = s.flash

/-- From R315 to R323: a vector held by moderation goes out IMOD after the last; a TAG from its sender, or from the control complex,
posts a mailbox message, with COLLISION where one stands, and a sender meets MBDOWN or an error while the receiver is down; the receiver or the
control complex releases it, and a read returns its word, the receiver's with bad parity freeing the mailbox with PERR and a CORRECTED fault; a
port that does not reach the mailbox reads 0 and posts nothing; a link that changes is shown. -/
def Obligations.ModerationMailboxesAndLinks : Prop :=
  ∀ (s : State) (p : Port) (m : Mbox), s.aon = true →
    (∀ v : Fin 32, v.val < 16 → (s.ring v.val).cplWaits = true → ∃ t, exec (.msixModerationExpiry v) s = .next t ∧
      (t.ring v.val).cplWaits = false ∧ (t.ring v.val).lastCpl = some t.now ∧ s.sameTabsBut t [.rings, .msix] ∧
      (∀ a, (s.ring v.val).lastCpl = some a → a + 1000 * s.rd .hifRsCtrlImod 0 v.val ≤ t.now) ∧
      (s.msixWord (s.ringPort v.val) (4 * v.val + 3) % 2 = 0 → ∃ x, t.msixOut = s.msixOut ++ [x] ∧ x.vector = v.val)) ∧
    (∀ v : Fin 32, 16 ≤ v.val → (s.ring (v.val - 16)).telWaits = true → ∃ t, exec (.msixModerationExpiry v) s = .next t ∧
      (t.ring (v.val - 16)).telWaits = false ∧ (t.ring (v.val - 16)).lastTel = some t.now ∧
      (s.msixWord (s.ringPort (v.val - 16)) (4 * v.val + 3) % 2 = 0 → ∃ x, t.msixOut = s.msixOut ++ [x] ∧ x.vector = v.val)) ∧
    (∀ v : Word, mayPost p m.val = true →
      (s.receiverUp m.val = true → ∃ t, exec (.mailboxPost p m v) s = .next t ∧ t.rd .hifMbTag 0 m.val = v.toNat ∧
        t.flag .hifMbStatFull 0 m.val = true ∧ (s.flag .hifMbStatFull 0 m.val = true → t.flag .hifMbStatCollision 0 m.val = true) ∧
        (t.port p).resp = .ok ∧ t.rd .hifMbPtr 0 m.val = s.rd .hifMbPtr 0 m.val) ∧
      (s.receiverUp m.val = false → p.isHost = true → ∃ t, exec (.mailboxPost p m v) s = .next t ∧ t.flag .hifStatusMbdown = true ∧
        s.onlyChanges t [⟨.hifStatusMbdown, 0, 0⟩] []) ∧
      (s.receiverUp m.val = false → p.isHost = false → ∃ t, exec (.mailboxPost p m v) s = .next t ∧ (t.port p).resp = .error ∧
        s.onlyChanges t [] [.ports])) ∧
    (∀ v : Word, mayPost p m.val = false → ∃ t, exec (.mailboxPost p m v) s = .next t ∧ s.onlyChanges t [] [.ports]) ∧
    (mayRelease p m.val = true → s.flag .hifMbStatFull 0 m.val = true → ∃ t, exec (.mailboxRelease p m) s = .next t ∧
      t.flag .hifMbStatFull 0 m.val = false ∧ s.sameRegsBut t [⟨.hifMbStatFull, 0, m.val⟩]) ∧
    (mayRelease p m.val = false ∨ s.flag .hifMbStatFull 0 m.val = false → ∃ t, exec (.mailboxRelease p m) s = .next t ∧
      s.onlyChanges t [] [.ports]) ∧
    (∀ b : Bool, reaches p .hif (0x600 + 0x20 * m.val) = true → isSender p m.val = false ∨ s.receiverUp m.val = true →
      ∃ t, exec (.mailboxRead p m b) s = .next t ∧ (t.port p).resp = .ok ∧
      (t.port p).rdata = (if b then s.rd .hifMbTag 0 m.val else s.rd .hifMbPtr 0 m.val) % 2 ^ 32 ∧
      (isReceiver p m.val = false ∨ m.val ∉ s.mbBad → s.onlyChanges t [] [.ports]) ∧
      (isReceiver p m.val = true → m.val ∈ s.mbBad → t.flag .hifMbStatPerr 0 m.val = true ∧ t.flag .hifMbStatFull 0 m.val = false ∧
        m.val ∉ t.mbBad ∧ t.rd .fltCorr = s.oneUp .fltCorr)) ∧
    (∀ b : Bool, reaches p .hif (0x600 + 0x20 * m.val) = true → isSender p m.val = true → s.receiverUp m.val = false →
      ∃ t, exec (.mailboxRead p m b) s = .next t ∧ (t.port p).resp = .error ∧ s.onlyChanges t [] [.ports]) ∧
    (∀ b : Bool, reaches p .hif (0x600 + 0x20 * m.val) = false →
      ∃ t, exec (.mailboxRead p m b) s = .next t ∧ (t.port p).rdata = 0 ∧ s.onlyChanges t [] [.ports]) ∧
    ∀ (h : Hall) (u : Bool), ∃ t, exec (.pcieLinkChange h u) s = .next t ∧
      t.rd (if h.val = 0 then .hifPortstLink0 else .hifPortstLink1) = bit u ∧
      s.onlyChanges t [⟨if h.val = 0 then .hifPortstLink0 else .hifPortstLink1, 0, 0⟩] []

/-! ## Observation and the Attic (chapters 3 and 17) -/

/-- From R65 to R73: the oldest sample whose interval has ended starts a die's block or joins it, closes it as its 65th sample or as the last of
its interval, and is dropped where the die's samples have no ring; a PERIODIC statement falls due on its partition's ring set; the oldest
statement is delivered as four entries while there is room. From R61, R351 to R353, R360: the second latches every WIN set from LIVE, which
starts again, and the package's set, whose fractions of 1 µJ are carried on; a freeze armed for an instant starts there and holds the covered
counters until THAW's boundary or MAXMS. -/
def Obligations.SecondsSamplesAndStatements : Prop :=
  (∀ (s : State) (d : Die) (p : Part), s.aon = true →
     ((s.die d.val).telDue = [] → ∃ t, exec (.telemetrySample d) s = .next t ∧ s.onlyChanges t [] []) ∧
     (∀ x l, (s.die d.val).telDue = x :: l → ∃ t, exec (.telemetrySample d) s = .next t ∧
       t.die d.val = { s.die d.val with telDue := l } ∧ s.sameTabsBut t [.dies, .tel, .rings, .msix] ∧
       (s.telRing d.val = none → x.last = false → s.onlyChanges t [] [.dies]) ∧
       ((s.telRing d.val).isSome = true → x.last = false → Store.get telInit s.tel d.val = none →
         Store.get telInit t.tel d.val = some { t0 := x.t0, q0 := quantise x.sum x.decim, last := quantise x.sum x.decim
                                                nsamp := 1, bits := [], decim := x.decim } ∧ s.onlyChanges t [] [.dies, .tel]) ∧
       (∀ b c, (s.telRing d.val).isSome = true → x.last = false → Store.get telInit s.tel d.val = some b → b.decim = x.decim → b.nsamp < 64 →
         c = b.bits ++ sampleCode b.last (quantise x.sum x.decim) → c.length ≤ 384 →
         Store.get telInit t.tel d.val = some { b with last := quantise x.sum x.decim, nsamp := b.nsamp + 1, bits := c } ∧
           s.onlyChanges t [] [.dies, .tel]) ∧
       (∀ b n, s.telRing d.val = some n → Store.get telInit s.tel d.val = some b → b.decim = x.decim → b.nsamp = 64 →
         (b.bits ++ sampleCode b.last (quantise x.sum x.decim)).length ≤ 384 → s.ringRunning n = true → s.telFree n ≠ 0 →
         Store.get telInit t.tel d.val = none ∧ ∃ w, t.dma = s.dma ++ w ∧ w.length = 2) ∧
       (x.last = true → Store.get telInit t.tel d.val = none)) ∧
     (s.inForce p.val = true → ∃ t e, exec (.statementPeriodic p) s = .next t ∧ (s.part p.val).nextPeriodic ≤ t.now ∧
       (t.part p.val).nextPeriodic = (s.part p.val).nextPeriodic + s.stmtIvl ∧ (t.ring p.val).due = (s.ring p.val).due ++ [e] ∧
       e.kind = .periodic ∧ e.part = p.val ∧ e.tag = s.tagOf p.val ∧ e.dies = s.rd .alcPartDies 0 p.val ∧
       s.sameTabsBut t [.parts, .rings]) ∧
     (∀ st l, (s.ring p.val).stmts = st :: l → s.ringRunning p.val = true → 4 ≤ s.stmFree p.val →
       ∃ t w, exec (.statementDelivery p) s = .next t ∧ (t.ring p.val).stmts = l ∧ t.dma = s.dma ++ w ∧ w.length = 8 ∧
         (t.ring p.val).stmpi = ((s.ring p.val).stmpi + 4) % ringSize (s.rd .hifRsSizesStm 0 p.val) ∧ s.sameRegsBut t [] ∧
         s.sameTabsBut t [.rings, .msix])) ∧
  (∀ (s : State) (p : Port), s.aon = true →
     (∃ t, exec .obsSecondLatch s = .next t ∧ t.now = ceilTo 1000000000 s.now ∧ t.gopen = fractions s.gopen ∧
       (∀ i, i < 32 → t.rd .obsGstatV 0 i = statCount s.gopen i % 2 ^ 64) ∧
       (∀ q i, q < 16 → i < 32 → t.rd .viewWin q i = s.rd .viewLive q i % 2 ^ 64 ∧ t.rd .viewLive q i = 0) ∧
       (∀ q, q < 16 → s.frozen = none → t.rd .viewWinseq q = (s.rd .viewWinseq q + 1) % 2 ^ 16) ∧ s.sameTabsBut t []) ∧
     (∀ v : Word, ∃ t a, exec (.freezeArm p v) s = .next t ∧ t.freezeT = some a ∧
       t.flag .obsFrzctlArmed = true ∧ s.now < a ∧ s.sameTabsBut t [.ports]) ∧
     (∀ a, s.freezeT = some a → s.frozen = none →
       ∃ t, exec .freezeStart s = .next t ∧ t.frozen.isSome = true ∧ t.flag .obsFrzctlFrozen = true ∧ t.flag .obsFrzctlArmed = false ∧
         t.freezeT = none ∧ a ≤ t.now ∧ t.frozeAt = t.now ∧ s.sameTabsBut t []) ∧
     (∀ l, s.frozen = some l →
       (∃ t, exec (.freezeThaw p) s = .next t ∧ t.core = { s.core with thaw := true } ∧ s.sameRegsBut t [] ∧ s.sameTabsBut t [.ports]) ∧
       ∃ t, exec .freezeMaxExpiry s = .next t ∧ t.frozen = none ∧ t.flag .obsFrzctlFrozen = false ∧
         s.frozeAt + 1000000 * max 1 (s.rd .obsFrzctlMaxms) ≤ t.now ∧ s.sameTabsBut t []))

/-- R349: QDATA shows the words of the queue in QSEL while its die belongs to the view's partition, and a read of it clears nothing; for
any other queue it reads 0 and sets DENY. A read of an RC word of QEA clears it for the view as well. -/
def Obligations.QueueDataThroughAView : Prop :=
  ∀ (s : State) (p : Port) (q : Part), s.aon = true → s.frozen = none →
    (∀ n, s.ownQueue q.val = some n →
      (∀ k : Fin 4, k.val ≠ 1 → ∃ t, exec (.viewQdataRead p q k) s = .next t ∧ s.onlyChanges t [] [.ports] ∧ (t.port p).rdata =
        match k.val with
        | 0 => s.rd .qeaEnergy n % 2 ^ 32
        | 2 => s.rd .qeaTrimt n % 2 ^ 32
        | _ => (s.rd .qeaServed n % 2 ^ 32 + s.rd .qeaDelayed n * 2 ^ 12 % 2 ^ 32 + s.rd .qeaRefused n * 2 ^ 22 % 2 ^ 32) % 2 ^ 32) ∧
      (∃ t u, exec (.viewQdataRead p q 0) s = .next t ∧ exec (.viewQdataRead p q 1) t = .next u ∧ s.onlyChanges u [] [.ports] ∧
        (u.port p).rdata = s.rd .qeaEnergy n / 2 ^ 32 % 2 ^ 32) ∧
      (∃ t u, exec (.rcRead p ⟨BitVec.ofNat 20 (0x80008 + 16 * n), .word⟩ none) s = .next t ∧ t.rd .qeaTrimt n = 0 ∧
        exec (.viewQdataRead p q 2) t = .next u ∧ (u.port p).rdata = 0) ∧
      ∃ t u, exec (.rcRead p ⟨BitVec.ofNat 20 (0x8000C + 16 * n), .word⟩ none) s = .next t ∧ t.rd .qeaServed n = 0 ∧ t.rd .qeaDelayed n = 0 ∧
        t.rd .qeaRefused n = 0 ∧ exec (.viewQdataRead p q 3) t = .next u ∧ (u.port p).rdata = 0) ∧
    (s.ownQueue q.val = none → ∀ k : Fin 4, ∃ t, exec (.viewQdataRead p q k) s = .next t ∧ t.flag .viewDeny q.val = true ∧
      (k.val ≠ 1 → (t.port p).rdata = 0) ∧ s.onlyChanges t [⟨.viewDeny, q.val, 0⟩] [.ports])

/-- From R355 to R358: a die agent's oldest trace record goes to the trace ring while tokens and room last, and a full ring shows it; the
ring's vector follows an entry by 1 ms; a poll moves the consumer index; a wait of WMIN periods is traced. -/
def Obligations.TracesDrain : Prop :=
  ∀ (s : State) (d : Die), s.aon = true →
    (∀ r l, (s.die d.val).trace = r :: l → s.traceOn = true → (s.die d.val).steward = false → (s.die d.val).powered = true →
      222 ≤ (s.die d.val).traceTokens →
      (ringFree (ringSize (s.rd .obsTrccfgSize)) (s.rd .obsTrcpi) s.tring.ci ≠ 0 →
        ∃ t, exec (.traceDrain d) s = .next t ∧
          t.die d.val = { s.die d.val with trace := l, traceTokens := (s.die d.val).traceTokens - 222 } ∧
          t.dma = s.dma ++
            [{ port := s.ringPort (s.rd .obsPrivRs), addr := s.rd .obsTrcbase + 16 * s.rd .obsTrcpi + 4, words := w32 r.b :: w64 r.time },
             { port := s.ringPort (s.rd .obsPrivRs), addr := s.rd .obsTrcbase + 16 * s.rd .obsTrcpi
               words := [w32 (r.word0 d.val + bit s.tring.phase)] }] ∧
          s.sameRegsBut t [⟨.dagTrcocc, d.val, 0⟩, ⟨.obsTrcpi, 0, 0⟩] ∧ s.sameTabsBut t [.dies, .msix]) ∧
      (ringFree (ringSize (s.rd .obsTrccfgSize)) (s.rd .obsTrcpi) s.tring.ci = 0 →
        ∃ t, exec (.traceDrain d) s = .next t ∧ t.flag .obsTrcfull = true ∧ s.onlyChanges t [⟨.obsTrcfull, 0, 0⟩] [])) ∧
    (∀ a, s.tring.lastWrite = some a →
      ∃ t, exec .traceVectorTimer s = .next t ∧ t.tring.lastWrite = none ∧ a + 1000000 ≤ t.now ∧ s.sameTabsBut t [.msix] ∧
        (s.msixWord (s.ringPort (s.rd .obsPrivRs)) 139 % 2 = 0 →
          ∃ m, t.msixOut = s.msixOut ++ [m] ∧ m.vector = 34 ∧ m.port = s.ringPort (s.rd .obsPrivRs))) ∧
    (∀ ci : Word, s.flag .obsTrccfgEn = true → ∃ t, exec (.traceRingPoll ci) s = .next t ∧
      t.core = { s.core with tring := { s.tring with ci := ci.toNat % ringSize (s.rd .obsTrccfgSize) } } ∧
      s.sameRegsBut t [⟨.obsTrcfull, 0, 0⟩] ∧ s.sameTabsBut t []) ∧
    ∀ w : WaitInfo, s.rd .obsTrcenWmin ≤ w.periods → s.traced d.val 1 = true → (s.die d.val).powered = true →
      (s.die d.val).trace.length < 4096 → (s.die d.val).traceLost = 0 →
      ∃ t r, exec (.waitEnd d w) s = .next t ∧ t.die d.val = { s.die d.val with trace := (s.die d.val).trace ++ [r] } ∧ r.type = 1 ∧
        r.core = w.core.val ∧ r.eng = w.eng.val ∧ r.time = s.now ∧ s.onlyChanges t [⟨.dagTrcocc, d.val, 0⟩] [.dies]

/-- From R361 to R366: the oldest event is recorded at the write pointer, in flash or in the RAM ring, or suppressed by its rate limit; a
program that fails is tried again further on, and a flash that has failed gives way to the RAM ring. A cursor fetches records, an erased
one as all ones, and a read of DATA[7] moves it with AUTO. A freeze of the Attic lasts 10 s. -/
def Obligations.AtticRecordsAndCursors : Prop :=
  ∀ (s : State) (p : Port) (e : AtticEvent) (l : List AtticEvent), s.aon = true →
    (s.attic.queue = e :: l → s.recording = true →
      (∀ r, r = rateStep (max 1 (s.rd .atcCfgRaten)) (max 1 (s.rd .atcCfgRatewin)) s.opSec (decide (e.sev = 3)) (s.rate e.code) →
        (r.1 = true → s.flag .atcStatRam = false →
          (∃ t x, exec (.atticRecordWrite true) s = .next t ∧ t.attic.queue = l ∧
            Store.get (fun _ => none) t.attic.flash (s.rd .atcWrptr) = some x ∧ x.ev = e ∧ x.seq = s.attic.seq ∧ x.bad = false ∧
            t.rd .atcWrptr = (s.rd .atcWrptr + 1) % 131072 ∧ s.sameRegsBut t [⟨.atcWrptr, 0, 0⟩, ⟨.atcOldest, 0, 0⟩] ∧
            s.sameTabsBut t []) ∧
          ∃ t x, exec (.atticRecordWrite false) s = .next t ∧ t.attic.queue = s.attic.queue ∧
            Store.get (fun _ => none) t.attic.flash (s.rd .atcWrptr) = some x ∧ x.bad = true ∧ t.attic.fails = s.attic.fails + 1 ∧
            t.attic.seq = s.attic.seq ∧ t.rd .atcWrptr = (s.rd .atcWrptr + 1) % 131072 ∧ s.sameTabsBut t []) ∧
        (r.1 = true → s.flag .atcStatRam = true →
          ∃ t x, exec (.atticRecordWrite true) s = .next t ∧ t.attic.queue = l ∧ x ∈ t.attic.ram ∧ x.ev = e ∧
            t.attic.flash = s.attic.flash ∧ s.sameRegsBut t [] ∧ s.sameTabsBut t []) ∧
        (r.1 = false → ∃ t, exec (.atticRecordWrite true) s = .next t ∧ t.attic.queue = l ∧ t.attic.flash = s.attic.flash ∧
          t.attic.ram = s.attic.ram ∧ t.rd .atcSupp = s.oneUp .atcSupp ∧ s.sameRegsBut t [⟨.atcSupp, 0, 0⟩] ∧ s.sameTabsBut t []))) ∧
    (s.flag .atcStatRam = false → s.ccUp = true →
      ∃ t x, exec .atticFailure s = .next t ∧ t.flag .atcStatRam = true ∧ t.attic.ram = [x] ∧ x.ev.code = 4865 ∧ x.seq = s.attic.seq ∧
        t.attic.queue = s.attic.queue ∧ t.attic.flash = s.attic.flash) ∧
    (∀ v : Word, ∃ t, exec (.atticCursorWrite p v) s = .next t ∧ t.rd .atcCurIdx p.num = v.toNat % 2 ^ 17 ∧
      t.rd .atcCurAuto p.num = v.toNat / 2 ^ 31 ∧ t.flag .atcStatBusy = true ∧ p.num ∈ t.attic.fetching ∧
      s.sameRegsBut t [⟨.atcCurIdx, p.num, 0⟩, ⟨.atcCurAuto, p.num, 0⟩, ⟨.atcStatBusy, 0, 0⟩] ∧ s.sameTabsBut t []) ∧
    (p.num ∈ s.attic.fetching → ∃ t, exec (.atticFetchComplete p) s = .next t ∧ p.num ∉ t.attic.fetching ∧ s.sameTabsBut t [] ∧
      (s.atticAt (s.rd .atcCurIdx p.num) = none → t.flag .atcStatEmpty = true ∧ t.flag .atcStatBad = false ∧
        ∀ k, k < 8 → t.rd .atcData p.num k = 0xFFFFFFFF) ∧
      ∀ r, s.atticAt (s.rd .atcCurIdx p.num) = some r → t.flag .atcStatEmpty = false ∧ t.flag .atcStatBad = r.bad ∧
        (r.bad = false → ∀ k w, r.words[k]? = some w → t.rd .atcData p.num k = w % 2 ^ 32)) ∧
    (∃ t, exec (.atticData7Read p) s = .next t ∧ (t.port p).rdata = s.rd .atcData p.num 7 ∧ s.sameTabsBut t [.ports] ∧
      if s.flag .atcCurAuto p.num then t.rd .atcCurIdx p.num = (s.rd .atcCurIdx p.num + 1) % (if s.flag .atcStatRam then 256 else 131072) ∧
        p.num ∈ t.attic.fetching
      else s.onlyChanges t [] [.ports]) ∧
    (∃ t, exec (.atticFreeze p) s = .next t ∧ t.flag .atcCfgFreeze = true ∧ t.flag .atcStatFrozen = true ∧
      s.sameRegsBut t [⟨.atcCfgFreeze, 0, 0⟩, ⟨.atcStatFrozen, 0, 0⟩] ∧ s.sameTabsBut t [] ∧
      t.core = { s.core with attic := { s.attic with freezeAt := s.now } }) ∧
    (s.flag .atcCfgFreeze = true → ∃ t, exec .atticFreezeExpiry s = .next t ∧ t.flag .atcCfgFreeze = false ∧
      t.flag .atcStatFrozen = false ∧ s.attic.freezeAt + 10000000000 ≤ t.now ∧ s.sameTabsBut t [])

/-! ## Start-up, the I3C port, heartbeats and shutdown (chapters 16 and 18) -/

/-- From R155, R371 to R374, R333: the service state advances from COLD to FLOOR, CALIBRATING and FULL as its conditions hold, at a boundary;
the rail groups start in order; the calibration steps follow each other, an overrun raising one CORRECTED fault; droop
detection stands enabled as CALIBRATING begins, and works again whatever ends it (assumption log 95); without a valid blob the
active Hall takes the defaults. -/
def Obligations.StartUpAdvances : Prop :=
  ∀ s : State, s.aon = true →
    (s.svc = svcCold → s.floorReady = true → ∃ t, exec .stateAdvance s = .next t ∧ t.svc = svcFloor ∧ t.now = ceilTo 250 s.now) ∧
    (s.svc = svcFloor → s.refReady = true → ∃ t, exec .stateAdvance s = .next t ∧ t.svc = svcCalibrating ∧ t.now = ceilTo 250 s.now ∧
      t.start.step = 1 ∧ t.start.calAt = t.now ∧ t.start.waitOver = false ∧ ∀ d, d < 40 → t.flag .dagDrpcfgEn d = true) ∧
    (s.svc = svcCalibrating → s.start.step = 6 → s.waitBits = 0 → ∃ t, exec .stateAdvance s = .next t ∧ t.svc = svcFull ∧
      t.now = ceilTo 250 s.now ∧ (∀ d, t.detectsOn d = true) ∧
      (s.flag .govHallStbyrdy = false → t.flag .fltStatusNostby = true)) ∧
    (∀ g, s.start.group = g → g < 4 → s.svc = svcCold → s.ccUp = true → s.flag .govTmctlRailgo = true → s.start.draining = false →
      s.start.stopping = false → g = 0 ∨ s.groupReady g = true → (∀ r ∈ groupRails (g + 1), s.railSt r ≠ railDown) →
      ∃ t, exec .railGroupStart s = .next t ∧ t.start.group = g + 1 ∧ ∀ r ∈ groupRails (g + 1), t.flag .rgcCfgEn r = true) ∧
    (∀ r : StepResult, s.svc = svcCalibrating → 1 ≤ s.start.step → s.start.step ≤ 5 →
      ∃ t, exec (.calibrationStepEnd r) s = .next t ∧ t.start.step = s.start.step + 1 ∧
        (s.start.step = 5 → t.rd .fltCorr = if r.missed = [] then s.rd .fltCorr else s.oneUp .fltCorr)) ∧
    (s.svc = svcCalibrating → ∃ t, exec .calibratingWaitExpiry s = .next t ∧ t.start.waitOver = true ∧
      s.start.calAt + 2000000000 ≤ t.now ∧ s.sameTabsBut t []) ∧
    ∀ h : Hall, s.ccUp = true → h.val = s.active →
      (blobValid (s.region 2) = false → ∃ t, exec (.policyApply h) s = .next t ∧ t.flag .fwcBootPolicydefaulted = true ∧
        t.rd .fwcPolicyPver = 0 ∧ t.rd .lrdCellarSize = 0 ∧ t.hearth.network = []) ∧
      (blobValid (s.region 2) = true → wordAt (s.region 2) 2 = 20 → ∃ t, exec (.policyApply h) s = .next t ∧
        t.flag .fwcBootPolicydefaulted = false ∧ t.rd .fwcPolicyPver = wordAt (s.region 2) 3 % 2 ^ 16 ∧ t.rd .fwcPolicySkip = 0 ∧
        s.onlyChanges t [⟨.fwcBootPolicydefaulted, 0, 0⟩, ⟨.fwcPolicyPver, 0, 0⟩, ⟨.fwcPolicySkip, 0, 0⟩] [])

/-- From R375: the common command codes of the I3C port: the address is taken, changed and given up, interrupts are enabled and disabled,
and the fixed answers are those of the table, from a port that has an address (GETSTATUS answers two bytes that the spec does not give,
assumption log 63). From R225, R376: a private write of four bytes sets the address, and further bytes are words written there, as to
HRT.INLET; one of a wrong length is a protocol error, which is counted; a read returns the words from the address, four bytes each, or
zeros. -/
def Obligations.I3cPort : Prop :=
  (∀ (s : State) (a : BitVec 7), s.aon = true →
     (s.i3c.da = none → a.toNat ≠ 0 → ∃ t, exec (.entdaa a) s = .next t ∧ t.i3c = { s.i3c with da := some a.toNat } ∧
       t.rd .govTmstatDa = a.toNat ∧ s.sameRegsBut t [⟨.govTmstatDa, 0, 0⟩] ∧ s.sameTabsBut t []) ∧
     (s.i3c.da.isSome = true → a.toNat ≠ 0 → ∃ t, exec (.setnewda a) s = .next t ∧ t.i3c = { s.i3c with da := some a.toNat } ∧
       t.rd .govTmstatDa = a.toNat ∧ s.sameRegsBut t [⟨.govTmstatDa, 0, 0⟩] ∧ s.sameTabsBut t []) ∧
     (∃ t, exec .rstdaa s = .next t ∧ t.i3c = { s.i3c with da := none } ∧ t.rd .govTmstatDa = 0 ∧ s.sameTabsBut t []) ∧
     (∃ t, exec .enec s = .next t ∧ t.core = { s.core with i3c := { s.i3c with ibiEn := true } } ∧ s.sameRegsBut t [] ∧ s.sameTabsBut t []) ∧
     (∃ t, exec .disec s = .next t ∧ t.core = { s.core with i3c := { s.i3c with ibiEn := false } } ∧ s.sameRegsBut t [] ∧ s.sameTabsBut t []) ∧
     (∀ x c l, (c, l) ∈ [(Instr.getbcr, [6]), (.getdcr, [0]), (.getmwl, [0, 64]), (.getmrl, [0, 64]),
         (.getpid, (leBytes 6 (s.rd .chnNodeidId % 2 ^ 32 + 2 ^ 32 + 2 ^ 33 * 0x2C31)).reverse)] → s.i3c.da = x →
       ∃ t, exec c s = .next t ∧ t.core = { s.core with i3c := { s.i3c with reply := if x.isSome then l else [] } } ∧ s.sameRegsBut t [] ∧
         s.sameTabsBut t []) ∧
     ∃ t, exec .getstatus s = .next t ∧ t.i3c.reply.length = (if s.i3c.da.isSome then 2 else 0) ∧ t.free = s.free + 1 ∧
       s.sameRegsBut t [] ∧ s.sameTabsBut t []) ∧
  (∀ s : State, s.aon = true →
     (∀ l : List Octet, s.i3c.da.isSome = true →
       (i3cLegal (l.map BitVec.toNat) = false → ∃ t, exec (.i3cPrivateWrite l) s = .next t ∧ t.rd .govTmstatPerr = s.oneUp .govTmstatPerr ∧
         t.i3c.ptr = none ∧ (s.i3c.errSecond ≠ some (s.now / 1000000000) → t.rd .fltCorr = s.oneUp .fltCorr) ∧
         (s.i3c.errSecond = some (s.now / 1000000000) → s.sameRegsBut t [⟨.govTmstatPerr, 0, 0⟩])) ∧
       (i3cLegal (l.map BitVec.toNat) = true → l.length = 4 → ∃ t, exec (.i3cPrivateWrite l) s = .next t ∧
         t.core = { s.core with i3c := { s.i3c with ptr := some (bytesWord (l.map BitVec.toNat)) } } ∧ s.sameRegsBut t [] ∧ s.sameTabsBut t [])) ∧
     (∀ x y : Octet, s.i3c.da.isSome = true → ∃ t, exec (.i3cPrivateWrite [0x0C#8, 0x50#8, 0#8, 0#8, x, y, 0#8, 0#8]) s = .next t ∧
       t.rd .hrtInletVal = ofSigned 16 (max (-160) (min 1280 (toSigned 16 (x.toNat + 256 * y.toNat)))) ∧ t.flag .hrtHstatStale = false ∧
       t.i3c.ptr = none) ∧
     ∀ n : Nat, s.i3c.da.isSome = true →
       (s.i3c.ptr = none → ∃ t, exec (.i3cPrivateRead n) s = .next t ∧ t.i3c.reply = List.replicate (4 * min 16 n) 0 ∧ s.sameRegsBut t [] ∧
         s.sameTabsBut t []) ∧
       (∀ a, s.i3c.ptr = some a → ∃ t, exec (.i3cPrivateRead n) s = .next t ∧ t.i3c.reply.length = 4 * min 16 n ∧ t.i3c.ptr = none ∧
         (n = 1 → t.i3c.reply = wordBytes (t.port .i3c).rdata)))

/-- R377: while ENEC has enabled interrupts, a post to MB3 raises an in-band interrupt with the byte 0x01, a release of MB2 one with 0x02,
and ABORTED or PERR set on MB2 one with 0x03; one that is not acknowledged is raised again after 1 ms while its cause stands, and not when
it does not; disabled, none is raised. -/
def Obligations.InBandInterrupts : Prop :=
  ∀ s : State, s.aon = true →
    (∀ v : Word, ∃ t, exec (.mailboxPost .cc 3 v) s = .next t ∧ t.i3c.ibiOut = s.i3c.ibiOut ++ (if s.i3c.ibiEn then [1] else [])) ∧
    (s.flag .hifMbStatFull 0 2 = true → ∃ t, exec (.mailboxRelease .cc 2) s = .next t ∧
      t.i3c.ibiOut = s.i3c.ibiOut ++ (if s.i3c.ibiEn then [2] else [])) ∧
    (∀ b : Bool, 2 ∈ s.mbBad → ∃ t, exec (.mailboxRead .cc 2 b) s = .next t ∧ t.flag .hifMbStatPerr 0 2 = true ∧
      t.i3c.ibiOut = s.i3c.ibiOut ++ (if s.i3c.ibiEn then [3] else [])) ∧
    (∀ h : Hall, h.val = s.active → s.flag .hifMbStatFull 0 2 = true →
      ∃ t, exec (.warmReset (.control h)) s = .next t ∧ t.flag .hifMbStatAborted 0 2 = true ∧ (s.i3c.ibiEn = true → 3 ∈ t.i3c.ibiOut) ∧
        (s.i3c.ibiEn = false → t.i3c.ibiOut = s.i3c.ibiOut)) ∧
    ∀ b, s.i3c.ibiLast = some b → s.i3c.ibiEn = true →
      (s.ibiStands b = true → ∃ t, exec .ibiRetry s = .next t ∧ t.i3c.ibiOut = s.i3c.ibiOut ++ [b] ∧ s.i3c.ibiAt + 1000000 ≤ t.now ∧
        s.sameTabsBut t []) ∧
      (s.ibiStands b = false → ∃ t, exec .ibiRetry s = .next t ∧ s.onlyChanges t [] [])

/-- From R25, R34, R378 to R380: edges of TM_HEARTBEAT 0.25 to 2 ms apart count towards its presence, which sixteen of them give and which
releases a floor state its loss forced; 500 ms without an edge is its loss, and FULL gives way to HELD with what may not rise noted; 8 s
without one forces the floor state; GOV_HEARTBEAT toggles every 0.5 ms. From R67, R69, R385: an orderly shutdown ends every binding with a
FINAL statement and drains the grains; its end forces the floor state, leaves ACTIVE and saves the operating time; then the rail groups
stop in reverse, and COLD follows with SHUTDONE. Host cannot ask for it. -/
def Obligations.HeartbeatsAndShutdown : Prop :=
  (∀ s : State, s.aon = true →
     (∀ n : Nat, ∃ t, exec (.tmHeartbeatEdge n) s = .next t ∧ t.start.lastEdge = some t.now ∧ s.sameTabsBut t [] ∧
       (∀ a, s.start.lastEdge = some a → a + n ≤ t.now) ∧
       t.start.edges = if s.start.lastEdge.isSome ∧ 250000 ≤ n ∧ n ≤ 2000000 then min 16 (s.start.edges + 1) else 0) ∧
     (16 ≤ s.start.edges → s.flag .govTmhbPresent = false → ∃ t, exec .tmHeartbeatPresent s = .next t ∧ t.flag .govTmhbPresent = true ∧
       t.flag .govTmhbSeen = true ∧ t.force = { s.force with held8 := false } ∧ t.floorOn = s.floorOn ∧ t.start.lost = false ∧
       s.sameRegsBut t [⟨.govTmhbPresent, 0, 0⟩, ⟨.govTmhbSeen, 0, 0⟩, ⟨.govStateFloorf, 0, 0⟩] ∧ s.sameTabsBut t []) ∧
     (s.flag .govTmhbPresent = true → ∃ t, exec .tmHeartbeatLost s = .next t ∧ t.flag .govTmhbPresent = false ∧ t.start.lost = true ∧
       t.start.edges = 0 ∧ t.rd .fltCorr = s.oneUp .fltCorr ∧ (∀ a, s.start.lastEdge = some a → a + 500000000 ≤ t.now) ∧
       (s.svc = svcFull → t.svc = svcHeld ∧ t.chain.heldHold = some s.holding ∧ t.lim.heldElec = some s.lim.elec ∧
         t.lim.heldTherm = some s.lim.therm) ∧
       (s.svc ≠ svcFull → t.svc = s.svc)) ∧
     (s.start.lost = true → s.flag .govTmhbPresent = false → s.force.held8 = false → ∃ t, exec .held8s s = .next t ∧
       t.force.held8 = true ∧ t.floorOn = true ∧ t.svc = s.svc ∧ t.rd .fltCorr = s.oneUp .fltCorr ∧
       (∀ a, s.start.lastEdge = some a → a + 8000000000 ≤ t.now) ∧ ∀ c, c < 128 → t.rd .clkCbrCur 0 c = 0x200) ∧
     (s.ccUp = true → s.svc ≠ svcFailsafe → ∃ t, exec .govHeartbeatToggle s = .next t ∧
       t.pins = { s.pins with govHeartbeat := !s.pins.govHeartbeat } ∧ s.start.hbAt + 500000 ≤ t.now ∧ t.start.hbAt = t.now ∧ s.sameTabsBut t [])) ∧
  (∀ s : State, s.aon = true →
     (∀ (p : Port) (v : Word), p.isHost = true → ∃ t, exec (.shutdown p v) s = .next t ∧ s.onlyChanges t [] []) ∧
     (∀ (p : Port) (v : Word), p.isHost = false → v.toNat / 2 % 2 = 1 → v.toNat % 2 = 1 ∨ s.svc ≠ svcCold → s.start.draining = false →
       s.start.stopping = false → ∃ t, exec (.shutdown p v) s = .next t ∧ t.start.draining = true ∧ t.start.shutAt = s.now ∧
         t.flag .govTmctlShut = true ∧ ∀ q, q < 16 → s.inForce q = true → t.inForce q = false ∧
           ∃ e ∈ (t.ring q).due, e.kind = .final ∧ e.part = q ∧ e.tag = s.tagOf q) ∧
     (s.start.draining = true → ∃ t, exec .shutdownDrainEnd s = .next t ∧ t.start.draining = false ∧ t.start.stopping = true ∧
       t.force.shutdown = true ∧ t.floorOn = true ∧ t.chainRole ≠ 2 ∧ t.flash.optime = t.opSec ∧
       (s.holding ≠ s.chainHome → s.start.shutAt + 1000000 * max 1 (s.rd .govShutDrainms) ≤ t.now) ∧ s.sameTabsBut t []) ∧
     (∀ k, s.start.stopping = true → s.start.stopped = k → k = 0 ∨ (∀ r ∈ groupRails (5 - k), s.railStopped r = true) →
       (k < 4 → ∃ t, exec .shutdownRailGroupStop s = .next t ∧ t.start.stopped = k + 1 ∧
         ∀ r ∈ groupRails (4 - k), t.flag .rgcCfgEn r = false) ∧
       (k = 4 → ∃ t, exec .shutdownRailGroupStop s = .next t ∧ t.start.stopped = 5 ∧ t.flag .govTmstatShutdone = true ∧
         t.pins.bypHold = false ∧ t.svc = if s.svc = svcFailsafe then svcFailsafe else svcCold)))
end

