-- ==== Sys2Proof/Laws/State.lean ====
section
/-!
SUPPORT. Sys2Proof/Laws/State.lean: what each update of the state leaves as it was, one lemma for each field, so that no proof
unfolds a record update.
-/
namespace Sys2Proof.Machine

/-! ## Writing a register element changes the two register tables only -/

theorem State.put_other {α : Type} (g : State → α) (hr : ∀ s x, g { s with regs := x } = g s)
    (hl : ∀ s x, g { s with limits := x } = g s) (s : State) (r : FieldRef) (v : Nat) : g (s.put r v) = g s := by
  unfold State.put
  split
  · split
    · exact hl _ _
    · exact hr _ _
  · rfl

@[simp] theorem State.put_aon (s : State) (r : FieldRef) (v : Nat) : (s.put r v).aon = s.aon :=
  State.put_other _ (fun _ _ => rfl) (fun _ _ => rfl) s r v
@[simp] theorem State.put_now (s : State) (r : FieldRef) (v : Nat) : (s.put r v).now = s.now :=
  State.put_other _ (fun _ _ => rfl) (fun _ _ => rfl) s r v
@[simp] theorem State.put_period (s : State) (r : FieldRef) (v : Nat) : (s.put r v).period = s.period :=
  State.put_other _ (fun _ _ => rfl) (fun _ _ => rfl) s r v
@[simp] theorem State.put_frac (s : State) (r : FieldRef) (v : Nat) : (s.put r v).frac = s.frac :=
  State.put_other _ (fun _ _ => rfl) (fun _ _ => rfl) s r v
@[simp] theorem State.put_frozen (s : State) (r : FieldRef) (v : Nat) : (s.put r v).frozen = s.frozen :=
  State.put_other _ (fun _ _ => rfl) (fun _ _ => rfl) s r v
@[simp] theorem State.put_freezeT (s : State) (r : FieldRef) (v : Nat) : (s.put r v).freezeT = s.freezeT :=
  State.put_other _ (fun _ _ => rfl) (fun _ _ => rfl) s r v
@[simp] theorem State.put_frozeAt (s : State) (r : FieldRef) (v : Nat) : (s.put r v).frozeAt = s.frozeAt :=
  State.put_other _ (fun _ _ => rfl) (fun _ _ => rfl) s r v
@[simp] theorem State.put_thaw (s : State) (r : FieldRef) (v : Nat) : (s.put r v).thaw = s.thaw :=
  State.put_other _ (fun _ _ => rfl) (fun _ _ => rfl) s r v
@[simp] theorem State.put_perDue (s : State) (r : FieldRef) (v : Nat) : (s.put r v).perDue = s.perDue :=
  State.put_other _ (fun _ _ => rfl) (fun _ _ => rfl) s r v
@[simp] theorem State.put_winDue (s : State) (r : FieldRef) (v : Nat) : (s.put r v).winDue = s.winDue :=
  State.put_other _ (fun _ _ => rfl) (fun _ _ => rfl) s r v
@[simp] theorem State.put_jobDue (s : State) (r : FieldRef) (v : Nat) : (s.put r v).jobDue = s.jobDue :=
  State.put_other _ (fun _ _ => rfl) (fun _ _ => rfl) s r v
@[simp] theorem State.put_ports (s : State) (r : FieldRef) (v : Nat) : (s.put r v).ports = s.ports :=
  State.put_other _ (fun _ _ => rfl) (fun _ _ => rfl) s r v
@[simp] theorem State.put_msix (s : State) (r : FieldRef) (v : Nat) : (s.put r v).msix = s.msix :=
  State.put_other _ (fun _ _ => rfl) (fun _ _ => rfl) s r v
@[simp] theorem State.put_faultSeq (s : State) (r : FieldRef) (v : Nat) : (s.put r v).faultSeq = s.faultSeq :=
  State.put_other _ (fun _ _ => rfl) (fun _ _ => rfl) s r v
@[simp] theorem State.put_pend (s : State) (r : FieldRef) (v : Nat) : (s.put r v).pend = s.pend :=
  State.put_other _ (fun _ _ => rfl) (fun _ _ => rfl) s r v
@[simp] theorem State.put_inject (s : State) (r : FieldRef) (v : Nat) : (s.put r v).inject = s.inject :=
  State.put_other _ (fun _ _ => rfl) (fun _ _ => rfl) s r v
@[simp] theorem State.put_force (s : State) (r : FieldRef) (v : Nat) : (s.put r v).force = s.force :=
  State.put_other _ (fun _ _ => rfl) (fun _ _ => rfl) s r v
@[simp] theorem State.put_pins (s : State) (r : FieldRef) (v : Nat) : (s.put r v).pins = s.pins :=
  State.put_other _ (fun _ _ => rfl) (fun _ _ => rfl) s r v
@[simp] theorem State.put_floorOn (s : State) (r : FieldRef) (v : Nat) : (s.put r v).floorOn = s.floorOn :=
  State.put_other _ (fun _ _ => rfl) (fun _ _ => rfl) s r v
@[simp] theorem State.put_svcUnder (s : State) (r : FieldRef) (v : Nat) : (s.put r v).svcUnder = s.svcUnder :=
  State.put_other _ (fun _ _ => rfl) (fun _ _ => rfl) s r v
@[simp] theorem State.put_phasesOut (s : State) (r : FieldRef) (v : Nat) : (s.put r v).phasesOut = s.phasesOut :=
  State.put_other _ (fun _ _ => rfl) (fun _ _ => rfl) s r v
@[simp] theorem State.put_dies (s : State) (r : FieldRef) (v : Nat) : (s.put r v).dies = s.dies :=
  State.put_other _ (fun _ _ => rfl) (fun _ _ => rfl) s r v
@[simp] theorem State.put_halls (s : State) (r : FieldRef) (v : Nat) : (s.put r v).halls = s.halls :=
  State.put_other _ (fun _ _ => rfl) (fun _ _ => rfl) s r v
@[simp] theorem State.put_lard (s : State) (r : FieldRef) (v : Nat) : (s.put r v).lard = s.lard :=
  State.put_other _ (fun _ _ => rfl) (fun _ _ => rfl) s r v
@[simp] theorem State.put_parts (s : State) (r : FieldRef) (v : Nat) : (s.put r v).parts = s.parts :=
  State.put_other _ (fun _ _ => rfl) (fun _ _ => rfl) s r v
@[simp] theorem State.put_rings (s : State) (r : FieldRef) (v : Nat) : (s.put r v).rings = s.rings :=
  State.put_other _ (fun _ _ => rfl) (fun _ _ => rfl) s r v
@[simp] theorem State.put_tel (s : State) (r : FieldRef) (v : Nat) : (s.put r v).tel = s.tel :=
  State.put_other _ (fun _ _ => rfl) (fun _ _ => rfl) s r v
@[simp] theorem State.put_telDecim (s : State) (r : FieldRef) (v : Nat) : (s.put r v).telDecim = s.telDecim :=
  State.put_other _ (fun _ _ => rfl) (fun _ _ => rfl) s r v
@[simp] theorem State.put_acct (s : State) (r : FieldRef) (v : Nat) : (s.put r v).acct = s.acct :=
  State.put_other _ (fun _ _ => rfl) (fun _ _ => rfl) s r v
@[simp] theorem State.put_gopen (s : State) (r : FieldRef) (v : Nat) : (s.put r v).gopen = s.gopen :=
  State.put_other _ (fun _ _ => rfl) (fun _ _ => rfl) s r v
@[simp] theorem State.put_mbBad (s : State) (r : FieldRef) (v : Nat) : (s.put r v).mbBad = s.mbBad :=
  State.put_other _ (fun _ _ => rfl) (fun _ _ => rfl) s r v
@[simp] theorem State.put_fwInt (s : State) (r : FieldRef) (v : Nat) : (s.put r v).fwInt = s.fwInt :=
  State.put_other _ (fun _ _ => rfl) (fun _ _ => rfl) s r v
@[simp] theorem State.put_dma (s : State) (r : FieldRef) (v : Nat) : (s.put r v).dma = s.dma :=
  State.put_other _ (fun _ _ => rfl) (fun _ _ => rfl) s r v
@[simp] theorem State.put_msixOut (s : State) (r : FieldRef) (v : Nat) : (s.put r v).msixOut = s.msixOut :=
  State.put_other _ (fun _ _ => rfl) (fun _ _ => rfl) s r v
@[simp] theorem State.put_attic (s : State) (r : FieldRef) (v : Nat) : (s.put r v).attic = s.attic :=
  State.put_other _ (fun _ _ => rfl) (fun _ _ => rfl) s r v
@[simp] theorem State.put_tring (s : State) (r : FieldRef) (v : Nat) : (s.put r v).tring = s.tring :=
  State.put_other _ (fun _ _ => rfl) (fun _ _ => rfl) s r v
@[simp] theorem State.put_change (s : State) (r : FieldRef) (v : Nat) : (s.put r v).change = s.change :=
  State.put_other _ (fun _ _ => rfl) (fun _ _ => rfl) s r v
@[simp] theorem State.put_changes (s : State) (r : FieldRef) (v : Nat) : (s.put r v).changes = s.changes :=
  State.put_other _ (fun _ _ => rfl) (fun _ _ => rfl) s r v
@[simp] theorem State.put_changeGen (s : State) (r : FieldRef) (v : Nat) : (s.put r v).changeGen = s.changeGen :=
  State.put_other _ (fun _ _ => rfl) (fun _ _ => rfl) s r v
@[simp] theorem State.put_lim (s : State) (r : FieldRef) (v : Nat) : (s.put r v).lim = s.lim :=
  State.put_other _ (fun _ _ => rfl) (fun _ _ => rfl) s r v
@[simp] theorem State.put_missed (s : State) (r : FieldRef) (v : Nat) : (s.put r v).missed = s.missed :=
  State.put_other _ (fun _ _ => rfl) (fun _ _ => rfl) s r v
@[simp] theorem State.put_beacons (s : State) (r : FieldRef) (v : Nat) : (s.put r v).beacons = s.beacons :=
  State.put_other _ (fun _ _ => rfl) (fun _ _ => rfl) s r v
@[simp] theorem State.put_free (s : State) (r : FieldRef) (v : Nat) : (s.put r v).free = s.free :=
  State.put_other _ (fun _ _ => rfl) (fun _ _ => rfl) s r v
@[simp] theorem State.put_i3c (s : State) (r : FieldRef) (v : Nat) : (s.put r v).i3c = s.i3c :=
  State.put_other _ (fun _ _ => rfl) (fun _ _ => rfl) s r v
@[simp] theorem State.put_ctrl (s : State) (r : FieldRef) (v : Nat) : (s.put r v).ctrl = s.ctrl :=
  State.put_other _ (fun _ _ => rfl) (fun _ _ => rfl) s r v
@[simp] theorem State.put_rails (s : State) (r : FieldRef) (v : Nat) : (s.put r v).rails = s.rails :=
  State.put_other _ (fun _ _ => rfl) (fun _ _ => rfl) s r v
@[simp] theorem State.put_clock (s : State) (r : FieldRef) (v : Nat) : (s.put r v).clock = s.clock :=
  State.put_other _ (fun _ _ => rfl) (fun _ _ => rfl) s r v
@[simp] theorem State.put_hearth (s : State) (r : FieldRef) (v : Nat) : (s.put r v).hearth = s.hearth :=
  State.put_other _ (fun _ _ => rfl) (fun _ _ => rfl) s r v
@[simp] theorem State.put_chain (s : State) (r : FieldRef) (v : Nat) : (s.put r v).chain = s.chain :=
  State.put_other _ (fun _ _ => rfl) (fun _ _ => rfl) s r v
@[simp] theorem State.put_age (s : State) (r : FieldRef) (v : Nat) : (s.put r v).age = s.age :=
  State.put_other _ (fun _ _ => rfl) (fun _ _ => rfl) s r v
@[simp] theorem State.put_flash (s : State) (r : FieldRef) (v : Nat) : (s.put r v).flash = s.flash :=
  State.put_other _ (fun _ _ => rfl) (fun _ _ => rfl) s r v
@[simp] theorem State.put_upd (s : State) (r : FieldRef) (v : Nat) : (s.put r v).upd = s.upd :=
  State.put_other _ (fun _ _ => rfl) (fun _ _ => rfl) s r v
@[simp] theorem State.put_start (s : State) (r : FieldRef) (v : Nat) : (s.put r v).start = s.start :=
  State.put_other _ (fun _ _ => rfl) (fun _ _ => rfl) s r v
@[simp] theorem State.put_pending (s : State) (r : FieldRef) (v : Nat) : (s.put r v).pending = s.pending :=
  State.put_other _ (fun _ _ => rfl) (fun _ _ => rfl) s r v

@[simp] theorem State.wr_aon (s : State) (f : Field) (v i j : Nat) : (s.wr f v i j).aon = s.aon := by simp [State.wr]
@[simp] theorem State.wr_now (s : State) (f : Field) (v i j : Nat) : (s.wr f v i j).now = s.now := by simp [State.wr]
@[simp] theorem State.wr_period (s : State) (f : Field) (v i j : Nat) : (s.wr f v i j).period = s.period := by simp [State.wr]
@[simp] theorem State.wr_frac (s : State) (f : Field) (v i j : Nat) : (s.wr f v i j).frac = s.frac := by simp [State.wr]
@[simp] theorem State.wr_frozen (s : State) (f : Field) (v i j : Nat) : (s.wr f v i j).frozen = s.frozen := by simp [State.wr]
@[simp] theorem State.wr_freezeT (s : State) (f : Field) (v i j : Nat) : (s.wr f v i j).freezeT = s.freezeT := by simp [State.wr]
@[simp] theorem State.wr_frozeAt (s : State) (f : Field) (v i j : Nat) : (s.wr f v i j).frozeAt = s.frozeAt := by simp [State.wr]
@[simp] theorem State.wr_thaw (s : State) (f : Field) (v i j : Nat) : (s.wr f v i j).thaw = s.thaw := by simp [State.wr]
@[simp] theorem State.wr_perDue (s : State) (f : Field) (v i j : Nat) : (s.wr f v i j).perDue = s.perDue := by simp [State.wr]
@[simp] theorem State.wr_winDue (s : State) (f : Field) (v i j : Nat) : (s.wr f v i j).winDue = s.winDue := by simp [State.wr]
@[simp] theorem State.wr_jobDue (s : State) (f : Field) (v i j : Nat) : (s.wr f v i j).jobDue = s.jobDue := by simp [State.wr]
@[simp] theorem State.wr_ports (s : State) (f : Field) (v i j : Nat) : (s.wr f v i j).ports = s.ports := by simp [State.wr]
@[simp] theorem State.wr_msix (s : State) (f : Field) (v i j : Nat) : (s.wr f v i j).msix = s.msix := by simp [State.wr]
@[simp] theorem State.wr_faultSeq (s : State) (f : Field) (v i j : Nat) : (s.wr f v i j).faultSeq = s.faultSeq := by simp [State.wr]
@[simp] theorem State.wr_pend (s : State) (f : Field) (v i j : Nat) : (s.wr f v i j).pend = s.pend := by simp [State.wr]
@[simp] theorem State.wr_inject (s : State) (f : Field) (v i j : Nat) : (s.wr f v i j).inject = s.inject := by simp [State.wr]
@[simp] theorem State.wr_force (s : State) (f : Field) (v i j : Nat) : (s.wr f v i j).force = s.force := by simp [State.wr]
@[simp] theorem State.wr_pins (s : State) (f : Field) (v i j : Nat) : (s.wr f v i j).pins = s.pins := by simp [State.wr]
@[simp] theorem State.wr_floorOn (s : State) (f : Field) (v i j : Nat) : (s.wr f v i j).floorOn = s.floorOn := by simp [State.wr]
@[simp] theorem State.wr_svcUnder (s : State) (f : Field) (v i j : Nat) : (s.wr f v i j).svcUnder = s.svcUnder := by simp [State.wr]
@[simp] theorem State.wr_phasesOut (s : State) (f : Field) (v i j : Nat) : (s.wr f v i j).phasesOut = s.phasesOut := by simp [State.wr]
@[simp] theorem State.wr_dies (s : State) (f : Field) (v i j : Nat) : (s.wr f v i j).dies = s.dies := by simp [State.wr]
@[simp] theorem State.wr_halls (s : State) (f : Field) (v i j : Nat) : (s.wr f v i j).halls = s.halls := by simp [State.wr]
@[simp] theorem State.wr_lard (s : State) (f : Field) (v i j : Nat) : (s.wr f v i j).lard = s.lard := by simp [State.wr]
@[simp] theorem State.wr_parts (s : State) (f : Field) (v i j : Nat) : (s.wr f v i j).parts = s.parts := by simp [State.wr]
@[simp] theorem State.wr_rings (s : State) (f : Field) (v i j : Nat) : (s.wr f v i j).rings = s.rings := by simp [State.wr]
@[simp] theorem State.wr_tel (s : State) (f : Field) (v i j : Nat) : (s.wr f v i j).tel = s.tel := by simp [State.wr]
@[simp] theorem State.wr_telDecim (s : State) (f : Field) (v i j : Nat) : (s.wr f v i j).telDecim = s.telDecim := by simp [State.wr]
@[simp] theorem State.wr_acct (s : State) (f : Field) (v i j : Nat) : (s.wr f v i j).acct = s.acct := by simp [State.wr]
@[simp] theorem State.wr_gopen (s : State) (f : Field) (v i j : Nat) : (s.wr f v i j).gopen = s.gopen := by simp [State.wr]
@[simp] theorem State.wr_mbBad (s : State) (f : Field) (v i j : Nat) : (s.wr f v i j).mbBad = s.mbBad := by simp [State.wr]
@[simp] theorem State.wr_fwInt (s : State) (f : Field) (v i j : Nat) : (s.wr f v i j).fwInt = s.fwInt := by simp [State.wr]
@[simp] theorem State.wr_dma (s : State) (f : Field) (v i j : Nat) : (s.wr f v i j).dma = s.dma := by simp [State.wr]
@[simp] theorem State.wr_msixOut (s : State) (f : Field) (v i j : Nat) : (s.wr f v i j).msixOut = s.msixOut := by simp [State.wr]
@[simp] theorem State.wr_attic (s : State) (f : Field) (v i j : Nat) : (s.wr f v i j).attic = s.attic := by simp [State.wr]
@[simp] theorem State.wr_tring (s : State) (f : Field) (v i j : Nat) : (s.wr f v i j).tring = s.tring := by simp [State.wr]
@[simp] theorem State.wr_change (s : State) (f : Field) (v i j : Nat) : (s.wr f v i j).change = s.change := by simp [State.wr]
@[simp] theorem State.wr_changes (s : State) (f : Field) (v i j : Nat) : (s.wr f v i j).changes = s.changes := by simp [State.wr]
@[simp] theorem State.wr_changeGen (s : State) (f : Field) (v i j : Nat) : (s.wr f v i j).changeGen = s.changeGen := by simp [State.wr]
@[simp] theorem State.wr_lim (s : State) (f : Field) (v i j : Nat) : (s.wr f v i j).lim = s.lim := by simp [State.wr]
@[simp] theorem State.wr_missed (s : State) (f : Field) (v i j : Nat) : (s.wr f v i j).missed = s.missed := by simp [State.wr]
@[simp] theorem State.wr_beacons (s : State) (f : Field) (v i j : Nat) : (s.wr f v i j).beacons = s.beacons := by simp [State.wr]
@[simp] theorem State.wr_free (s : State) (f : Field) (v i j : Nat) : (s.wr f v i j).free = s.free := by simp [State.wr]
@[simp] theorem State.wr_i3c (s : State) (f : Field) (v i j : Nat) : (s.wr f v i j).i3c = s.i3c := by simp [State.wr]
@[simp] theorem State.wr_ctrl (s : State) (f : Field) (v i j : Nat) : (s.wr f v i j).ctrl = s.ctrl := by simp [State.wr]
@[simp] theorem State.wr_rails (s : State) (f : Field) (v i j : Nat) : (s.wr f v i j).rails = s.rails := by simp [State.wr]
@[simp] theorem State.wr_clock (s : State) (f : Field) (v i j : Nat) : (s.wr f v i j).clock = s.clock := by simp [State.wr]
@[simp] theorem State.wr_hearth (s : State) (f : Field) (v i j : Nat) : (s.wr f v i j).hearth = s.hearth := by simp [State.wr]
@[simp] theorem State.wr_chain (s : State) (f : Field) (v i j : Nat) : (s.wr f v i j).chain = s.chain := by simp [State.wr]
@[simp] theorem State.wr_age (s : State) (f : Field) (v i j : Nat) : (s.wr f v i j).age = s.age := by simp [State.wr]
@[simp] theorem State.wr_flash (s : State) (f : Field) (v i j : Nat) : (s.wr f v i j).flash = s.flash := by simp [State.wr]
@[simp] theorem State.wr_upd (s : State) (f : Field) (v i j : Nat) : (s.wr f v i j).upd = s.upd := by simp [State.wr]
@[simp] theorem State.wr_start (s : State) (f : Field) (v i j : Nat) : (s.wr f v i j).start = s.start := by simp [State.wr]
@[simp] theorem State.wr_pending (s : State) (f : Field) (v i j : Nat) : (s.wr f v i j).pending = s.pending := by simp [State.wr]

@[simp] theorem State.count_aon (s : State) (f : Field) (k i j : Nat) : (s.count f k i j).aon = s.aon := by simp [State.count]
@[simp] theorem State.count_now (s : State) (f : Field) (k i j : Nat) : (s.count f k i j).now = s.now := by simp [State.count]
@[simp] theorem State.count_period (s : State) (f : Field) (k i j : Nat) : (s.count f k i j).period = s.period := by simp [State.count]
@[simp] theorem State.count_frac (s : State) (f : Field) (k i j : Nat) : (s.count f k i j).frac = s.frac := by simp [State.count]
@[simp] theorem State.count_frozen (s : State) (f : Field) (k i j : Nat) : (s.count f k i j).frozen = s.frozen := by simp [State.count]
@[simp] theorem State.count_freezeT (s : State) (f : Field) (k i j : Nat) : (s.count f k i j).freezeT = s.freezeT := by simp [State.count]
@[simp] theorem State.count_frozeAt (s : State) (f : Field) (k i j : Nat) : (s.count f k i j).frozeAt = s.frozeAt := by simp [State.count]
@[simp] theorem State.count_thaw (s : State) (f : Field) (k i j : Nat) : (s.count f k i j).thaw = s.thaw := by simp [State.count]
@[simp] theorem State.count_perDue (s : State) (f : Field) (k i j : Nat) : (s.count f k i j).perDue = s.perDue := by simp [State.count]
@[simp] theorem State.count_winDue (s : State) (f : Field) (k i j : Nat) : (s.count f k i j).winDue = s.winDue := by simp [State.count]
@[simp] theorem State.count_jobDue (s : State) (f : Field) (k i j : Nat) : (s.count f k i j).jobDue = s.jobDue := by simp [State.count]
@[simp] theorem State.count_ports (s : State) (f : Field) (k i j : Nat) : (s.count f k i j).ports = s.ports := by simp [State.count]
@[simp] theorem State.count_msix (s : State) (f : Field) (k i j : Nat) : (s.count f k i j).msix = s.msix := by simp [State.count]
@[simp] theorem State.count_faultSeq (s : State) (f : Field) (k i j : Nat) : (s.count f k i j).faultSeq = s.faultSeq := by simp [State.count]
@[simp] theorem State.count_pend (s : State) (f : Field) (k i j : Nat) : (s.count f k i j).pend = s.pend := by simp [State.count]
@[simp] theorem State.count_inject (s : State) (f : Field) (k i j : Nat) : (s.count f k i j).inject = s.inject := by simp [State.count]
@[simp] theorem State.count_force (s : State) (f : Field) (k i j : Nat) : (s.count f k i j).force = s.force := by simp [State.count]
@[simp] theorem State.count_pins (s : State) (f : Field) (k i j : Nat) : (s.count f k i j).pins = s.pins := by simp [State.count]
@[simp] theorem State.count_floorOn (s : State) (f : Field) (k i j : Nat) : (s.count f k i j).floorOn = s.floorOn := by simp [State.count]
@[simp] theorem State.count_svcUnder (s : State) (f : Field) (k i j : Nat) : (s.count f k i j).svcUnder = s.svcUnder := by simp [State.count]
@[simp] theorem State.count_phasesOut (s : State) (f : Field) (k i j : Nat) : (s.count f k i j).phasesOut = s.phasesOut := by simp [State.count]
@[simp] theorem State.count_dies (s : State) (f : Field) (k i j : Nat) : (s.count f k i j).dies = s.dies := by simp [State.count]
@[simp] theorem State.count_halls (s : State) (f : Field) (k i j : Nat) : (s.count f k i j).halls = s.halls := by simp [State.count]
@[simp] theorem State.count_lard (s : State) (f : Field) (k i j : Nat) : (s.count f k i j).lard = s.lard := by simp [State.count]
@[simp] theorem State.count_parts (s : State) (f : Field) (k i j : Nat) : (s.count f k i j).parts = s.parts := by simp [State.count]
@[simp] theorem State.count_rings (s : State) (f : Field) (k i j : Nat) : (s.count f k i j).rings = s.rings := by simp [State.count]
@[simp] theorem State.count_tel (s : State) (f : Field) (k i j : Nat) : (s.count f k i j).tel = s.tel := by simp [State.count]
@[simp] theorem State.count_telDecim (s : State) (f : Field) (k i j : Nat) : (s.count f k i j).telDecim = s.telDecim := by simp [State.count]
@[simp] theorem State.count_acct (s : State) (f : Field) (k i j : Nat) : (s.count f k i j).acct = s.acct := by simp [State.count]
@[simp] theorem State.count_gopen (s : State) (f : Field) (k i j : Nat) : (s.count f k i j).gopen = s.gopen := by simp [State.count]
@[simp] theorem State.count_mbBad (s : State) (f : Field) (k i j : Nat) : (s.count f k i j).mbBad = s.mbBad := by simp [State.count]
@[simp] theorem State.count_fwInt (s : State) (f : Field) (k i j : Nat) : (s.count f k i j).fwInt = s.fwInt := by simp [State.count]
@[simp] theorem State.count_dma (s : State) (f : Field) (k i j : Nat) : (s.count f k i j).dma = s.dma := by simp [State.count]
@[simp] theorem State.count_msixOut (s : State) (f : Field) (k i j : Nat) : (s.count f k i j).msixOut = s.msixOut := by simp [State.count]
@[simp] theorem State.count_attic (s : State) (f : Field) (k i j : Nat) : (s.count f k i j).attic = s.attic := by simp [State.count]
@[simp] theorem State.count_tring (s : State) (f : Field) (k i j : Nat) : (s.count f k i j).tring = s.tring := by simp [State.count]
@[simp] theorem State.count_change (s : State) (f : Field) (k i j : Nat) : (s.count f k i j).change = s.change := by simp [State.count]
@[simp] theorem State.count_changes (s : State) (f : Field) (k i j : Nat) : (s.count f k i j).changes = s.changes := by simp [State.count]
@[simp] theorem State.count_changeGen (s : State) (f : Field) (k i j : Nat) : (s.count f k i j).changeGen = s.changeGen := by simp [State.count]
@[simp] theorem State.count_lim (s : State) (f : Field) (k i j : Nat) : (s.count f k i j).lim = s.lim := by simp [State.count]
@[simp] theorem State.count_missed (s : State) (f : Field) (k i j : Nat) : (s.count f k i j).missed = s.missed := by simp [State.count]
@[simp] theorem State.count_beacons (s : State) (f : Field) (k i j : Nat) : (s.count f k i j).beacons = s.beacons := by simp [State.count]
@[simp] theorem State.count_free (s : State) (f : Field) (k i j : Nat) : (s.count f k i j).free = s.free := by simp [State.count]
@[simp] theorem State.count_i3c (s : State) (f : Field) (k i j : Nat) : (s.count f k i j).i3c = s.i3c := by simp [State.count]
@[simp] theorem State.count_ctrl (s : State) (f : Field) (k i j : Nat) : (s.count f k i j).ctrl = s.ctrl := by simp [State.count]
@[simp] theorem State.count_rails (s : State) (f : Field) (k i j : Nat) : (s.count f k i j).rails = s.rails := by simp [State.count]
@[simp] theorem State.count_clock (s : State) (f : Field) (k i j : Nat) : (s.count f k i j).clock = s.clock := by simp [State.count]
@[simp] theorem State.count_hearth (s : State) (f : Field) (k i j : Nat) : (s.count f k i j).hearth = s.hearth := by simp [State.count]
@[simp] theorem State.count_chain (s : State) (f : Field) (k i j : Nat) : (s.count f k i j).chain = s.chain := by simp [State.count]
@[simp] theorem State.count_age (s : State) (f : Field) (k i j : Nat) : (s.count f k i j).age = s.age := by simp [State.count]
@[simp] theorem State.count_flash (s : State) (f : Field) (k i j : Nat) : (s.count f k i j).flash = s.flash := by simp [State.count]
@[simp] theorem State.count_upd (s : State) (f : Field) (k i j : Nat) : (s.count f k i j).upd = s.upd := by simp [State.count]
@[simp] theorem State.count_start (s : State) (f : Field) (k i j : Nat) : (s.count f k i j).start = s.start := by simp [State.count]
@[simp] theorem State.count_pending (s : State) (f : Field) (k i j : Nat) : (s.count f k i j).pending = s.pending := by simp [State.count]

/-! ## updDie changes dies only -/

@[simp] theorem State.updDie_aon (s : State) (d : Nat) (f : DieState → DieState) : (s.updDie d f).aon = s.aon := rfl
@[simp] theorem State.updDie_now (s : State) (d : Nat) (f : DieState → DieState) : (s.updDie d f).now = s.now := rfl
@[simp] theorem State.updDie_period (s : State) (d : Nat) (f : DieState → DieState) : (s.updDie d f).period = s.period := rfl
@[simp] theorem State.updDie_regs (s : State) (d : Nat) (f : DieState → DieState) : (s.updDie d f).regs = s.regs := rfl
@[simp] theorem State.updDie_limits (s : State) (d : Nat) (f : DieState → DieState) : (s.updDie d f).limits = s.limits := rfl
@[simp] theorem State.updDie_frac (s : State) (d : Nat) (f : DieState → DieState) : (s.updDie d f).frac = s.frac := rfl
@[simp] theorem State.updDie_frozen (s : State) (d : Nat) (f : DieState → DieState) : (s.updDie d f).frozen = s.frozen := rfl
@[simp] theorem State.updDie_freezeT (s : State) (d : Nat) (f : DieState → DieState) : (s.updDie d f).freezeT = s.freezeT := rfl
@[simp] theorem State.updDie_frozeAt (s : State) (d : Nat) (f : DieState → DieState) : (s.updDie d f).frozeAt = s.frozeAt := rfl
@[simp] theorem State.updDie_thaw (s : State) (d : Nat) (f : DieState → DieState) : (s.updDie d f).thaw = s.thaw := rfl
@[simp] theorem State.updDie_perDue (s : State) (d : Nat) (f : DieState → DieState) : (s.updDie d f).perDue = s.perDue := rfl
@[simp] theorem State.updDie_winDue (s : State) (d : Nat) (f : DieState → DieState) : (s.updDie d f).winDue = s.winDue := rfl
@[simp] theorem State.updDie_jobDue (s : State) (d : Nat) (f : DieState → DieState) : (s.updDie d f).jobDue = s.jobDue := rfl
@[simp] theorem State.updDie_ports (s : State) (d : Nat) (f : DieState → DieState) : (s.updDie d f).ports = s.ports := rfl
@[simp] theorem State.updDie_msix (s : State) (d : Nat) (f : DieState → DieState) : (s.updDie d f).msix = s.msix := rfl
@[simp] theorem State.updDie_faultSeq (s : State) (d : Nat) (f : DieState → DieState) : (s.updDie d f).faultSeq = s.faultSeq := rfl
@[simp] theorem State.updDie_pend (s : State) (d : Nat) (f : DieState → DieState) : (s.updDie d f).pend = s.pend := rfl
@[simp] theorem State.updDie_inject (s : State) (d : Nat) (f : DieState → DieState) : (s.updDie d f).inject = s.inject := rfl
@[simp] theorem State.updDie_force (s : State) (d : Nat) (f : DieState → DieState) : (s.updDie d f).force = s.force := rfl
@[simp] theorem State.updDie_pins (s : State) (d : Nat) (f : DieState → DieState) : (s.updDie d f).pins = s.pins := rfl
@[simp] theorem State.updDie_floorOn (s : State) (d : Nat) (f : DieState → DieState) : (s.updDie d f).floorOn = s.floorOn := rfl
@[simp] theorem State.updDie_svcUnder (s : State) (d : Nat) (f : DieState → DieState) : (s.updDie d f).svcUnder = s.svcUnder := rfl
@[simp] theorem State.updDie_phasesOut (s : State) (d : Nat) (f : DieState → DieState) : (s.updDie d f).phasesOut = s.phasesOut := rfl
@[simp] theorem State.updDie_halls (s : State) (d : Nat) (f : DieState → DieState) : (s.updDie d f).halls = s.halls := rfl
@[simp] theorem State.updDie_lard (s : State) (d : Nat) (f : DieState → DieState) : (s.updDie d f).lard = s.lard := rfl
@[simp] theorem State.updDie_parts (s : State) (d : Nat) (f : DieState → DieState) : (s.updDie d f).parts = s.parts := rfl
@[simp] theorem State.updDie_rings (s : State) (d : Nat) (f : DieState → DieState) : (s.updDie d f).rings = s.rings := rfl
@[simp] theorem State.updDie_tel (s : State) (d : Nat) (f : DieState → DieState) : (s.updDie d f).tel = s.tel := rfl
@[simp] theorem State.updDie_telDecim (s : State) (d : Nat) (f : DieState → DieState) : (s.updDie d f).telDecim = s.telDecim := rfl
@[simp] theorem State.updDie_acct (s : State) (d : Nat) (f : DieState → DieState) : (s.updDie d f).acct = s.acct := rfl
@[simp] theorem State.updDie_gopen (s : State) (d : Nat) (f : DieState → DieState) : (s.updDie d f).gopen = s.gopen := rfl
@[simp] theorem State.updDie_mbBad (s : State) (d : Nat) (f : DieState → DieState) : (s.updDie d f).mbBad = s.mbBad := rfl
@[simp] theorem State.updDie_fwInt (s : State) (d : Nat) (f : DieState → DieState) : (s.updDie d f).fwInt = s.fwInt := rfl
@[simp] theorem State.updDie_dma (s : State) (d : Nat) (f : DieState → DieState) : (s.updDie d f).dma = s.dma := rfl
@[simp] theorem State.updDie_msixOut (s : State) (d : Nat) (f : DieState → DieState) : (s.updDie d f).msixOut = s.msixOut := rfl
@[simp] theorem State.updDie_attic (s : State) (d : Nat) (f : DieState → DieState) : (s.updDie d f).attic = s.attic := rfl
@[simp] theorem State.updDie_tring (s : State) (d : Nat) (f : DieState → DieState) : (s.updDie d f).tring = s.tring := rfl
@[simp] theorem State.updDie_change (s : State) (d : Nat) (f : DieState → DieState) : (s.updDie d f).change = s.change := rfl
@[simp] theorem State.updDie_changes (s : State) (d : Nat) (f : DieState → DieState) : (s.updDie d f).changes = s.changes := rfl
@[simp] theorem State.updDie_changeGen (s : State) (d : Nat) (f : DieState → DieState) : (s.updDie d f).changeGen = s.changeGen := rfl
@[simp] theorem State.updDie_lim (s : State) (d : Nat) (f : DieState → DieState) : (s.updDie d f).lim = s.lim := rfl
@[simp] theorem State.updDie_missed (s : State) (d : Nat) (f : DieState → DieState) : (s.updDie d f).missed = s.missed := rfl
@[simp] theorem State.updDie_beacons (s : State) (d : Nat) (f : DieState → DieState) : (s.updDie d f).beacons = s.beacons := rfl
@[simp] theorem State.updDie_free (s : State) (d : Nat) (f : DieState → DieState) : (s.updDie d f).free = s.free := rfl
@[simp] theorem State.updDie_i3c (s : State) (d : Nat) (f : DieState → DieState) : (s.updDie d f).i3c = s.i3c := rfl
@[simp] theorem State.updDie_ctrl (s : State) (d : Nat) (f : DieState → DieState) : (s.updDie d f).ctrl = s.ctrl := rfl
@[simp] theorem State.updDie_rails (s : State) (d : Nat) (f : DieState → DieState) : (s.updDie d f).rails = s.rails := rfl
@[simp] theorem State.updDie_clock (s : State) (d : Nat) (f : DieState → DieState) : (s.updDie d f).clock = s.clock := rfl
@[simp] theorem State.updDie_hearth (s : State) (d : Nat) (f : DieState → DieState) : (s.updDie d f).hearth = s.hearth := rfl
@[simp] theorem State.updDie_chain (s : State) (d : Nat) (f : DieState → DieState) : (s.updDie d f).chain = s.chain := rfl
@[simp] theorem State.updDie_age (s : State) (d : Nat) (f : DieState → DieState) : (s.updDie d f).age = s.age := rfl
@[simp] theorem State.updDie_flash (s : State) (d : Nat) (f : DieState → DieState) : (s.updDie d f).flash = s.flash := rfl
@[simp] theorem State.updDie_upd (s : State) (d : Nat) (f : DieState → DieState) : (s.updDie d f).upd = s.upd := rfl
@[simp] theorem State.updDie_start (s : State) (d : Nat) (f : DieState → DieState) : (s.updDie d f).start = s.start := rfl
@[simp] theorem State.updDie_pending (s : State) (d : Nat) (f : DieState → DieState) : (s.updDie d f).pending = s.pending := rfl

/-! ## updHd changes halls only -/

@[simp] theorem State.updHd_aon (s : State) (d : Nat) (f : HallDie → HallDie) : (s.updHd d f).aon = s.aon := rfl
@[simp] theorem State.updHd_now (s : State) (d : Nat) (f : HallDie → HallDie) : (s.updHd d f).now = s.now := rfl
@[simp] theorem State.updHd_period (s : State) (d : Nat) (f : HallDie → HallDie) : (s.updHd d f).period = s.period := rfl
@[simp] theorem State.updHd_regs (s : State) (d : Nat) (f : HallDie → HallDie) : (s.updHd d f).regs = s.regs := rfl
@[simp] theorem State.updHd_limits (s : State) (d : Nat) (f : HallDie → HallDie) : (s.updHd d f).limits = s.limits := rfl
@[simp] theorem State.updHd_frac (s : State) (d : Nat) (f : HallDie → HallDie) : (s.updHd d f).frac = s.frac := rfl
@[simp] theorem State.updHd_frozen (s : State) (d : Nat) (f : HallDie → HallDie) : (s.updHd d f).frozen = s.frozen := rfl
@[simp] theorem State.updHd_freezeT (s : State) (d : Nat) (f : HallDie → HallDie) : (s.updHd d f).freezeT = s.freezeT := rfl
@[simp] theorem State.updHd_frozeAt (s : State) (d : Nat) (f : HallDie → HallDie) : (s.updHd d f).frozeAt = s.frozeAt := rfl
@[simp] theorem State.updHd_thaw (s : State) (d : Nat) (f : HallDie → HallDie) : (s.updHd d f).thaw = s.thaw := rfl
@[simp] theorem State.updHd_perDue (s : State) (d : Nat) (f : HallDie → HallDie) : (s.updHd d f).perDue = s.perDue := rfl
@[simp] theorem State.updHd_winDue (s : State) (d : Nat) (f : HallDie → HallDie) : (s.updHd d f).winDue = s.winDue := rfl
@[simp] theorem State.updHd_jobDue (s : State) (d : Nat) (f : HallDie → HallDie) : (s.updHd d f).jobDue = s.jobDue := rfl
@[simp] theorem State.updHd_ports (s : State) (d : Nat) (f : HallDie → HallDie) : (s.updHd d f).ports = s.ports := rfl
@[simp] theorem State.updHd_msix (s : State) (d : Nat) (f : HallDie → HallDie) : (s.updHd d f).msix = s.msix := rfl
@[simp] theorem State.updHd_faultSeq (s : State) (d : Nat) (f : HallDie → HallDie) : (s.updHd d f).faultSeq = s.faultSeq := rfl
@[simp] theorem State.updHd_pend (s : State) (d : Nat) (f : HallDie → HallDie) : (s.updHd d f).pend = s.pend := rfl
@[simp] theorem State.updHd_inject (s : State) (d : Nat) (f : HallDie → HallDie) : (s.updHd d f).inject = s.inject := rfl
@[simp] theorem State.updHd_force (s : State) (d : Nat) (f : HallDie → HallDie) : (s.updHd d f).force = s.force := rfl
@[simp] theorem State.updHd_pins (s : State) (d : Nat) (f : HallDie → HallDie) : (s.updHd d f).pins = s.pins := rfl
@[simp] theorem State.updHd_floorOn (s : State) (d : Nat) (f : HallDie → HallDie) : (s.updHd d f).floorOn = s.floorOn := rfl
@[simp] theorem State.updHd_svcUnder (s : State) (d : Nat) (f : HallDie → HallDie) : (s.updHd d f).svcUnder = s.svcUnder := rfl
@[simp] theorem State.updHd_phasesOut (s : State) (d : Nat) (f : HallDie → HallDie) : (s.updHd d f).phasesOut = s.phasesOut := rfl
@[simp] theorem State.updHd_dies (s : State) (d : Nat) (f : HallDie → HallDie) : (s.updHd d f).dies = s.dies := rfl
@[simp] theorem State.updHd_lard (s : State) (d : Nat) (f : HallDie → HallDie) : (s.updHd d f).lard = s.lard := rfl
@[simp] theorem State.updHd_parts (s : State) (d : Nat) (f : HallDie → HallDie) : (s.updHd d f).parts = s.parts := rfl
@[simp] theorem State.updHd_rings (s : State) (d : Nat) (f : HallDie → HallDie) : (s.updHd d f).rings = s.rings := rfl
@[simp] theorem State.updHd_tel (s : State) (d : Nat) (f : HallDie → HallDie) : (s.updHd d f).tel = s.tel := rfl
@[simp] theorem State.updHd_telDecim (s : State) (d : Nat) (f : HallDie → HallDie) : (s.updHd d f).telDecim = s.telDecim := rfl
@[simp] theorem State.updHd_acct (s : State) (d : Nat) (f : HallDie → HallDie) : (s.updHd d f).acct = s.acct := rfl
@[simp] theorem State.updHd_gopen (s : State) (d : Nat) (f : HallDie → HallDie) : (s.updHd d f).gopen = s.gopen := rfl
@[simp] theorem State.updHd_mbBad (s : State) (d : Nat) (f : HallDie → HallDie) : (s.updHd d f).mbBad = s.mbBad := rfl
@[simp] theorem State.updHd_fwInt (s : State) (d : Nat) (f : HallDie → HallDie) : (s.updHd d f).fwInt = s.fwInt := rfl
@[simp] theorem State.updHd_dma (s : State) (d : Nat) (f : HallDie → HallDie) : (s.updHd d f).dma = s.dma := rfl
@[simp] theorem State.updHd_msixOut (s : State) (d : Nat) (f : HallDie → HallDie) : (s.updHd d f).msixOut = s.msixOut := rfl
@[simp] theorem State.updHd_attic (s : State) (d : Nat) (f : HallDie → HallDie) : (s.updHd d f).attic = s.attic := rfl
@[simp] theorem State.updHd_tring (s : State) (d : Nat) (f : HallDie → HallDie) : (s.updHd d f).tring = s.tring := rfl
@[simp] theorem State.updHd_change (s : State) (d : Nat) (f : HallDie → HallDie) : (s.updHd d f).change = s.change := rfl
@[simp] theorem State.updHd_changes (s : State) (d : Nat) (f : HallDie → HallDie) : (s.updHd d f).changes = s.changes := rfl
@[simp] theorem State.updHd_changeGen (s : State) (d : Nat) (f : HallDie → HallDie) : (s.updHd d f).changeGen = s.changeGen := rfl
@[simp] theorem State.updHd_lim (s : State) (d : Nat) (f : HallDie → HallDie) : (s.updHd d f).lim = s.lim := rfl
@[simp] theorem State.updHd_missed (s : State) (d : Nat) (f : HallDie → HallDie) : (s.updHd d f).missed = s.missed := rfl
@[simp] theorem State.updHd_beacons (s : State) (d : Nat) (f : HallDie → HallDie) : (s.updHd d f).beacons = s.beacons := rfl
@[simp] theorem State.updHd_free (s : State) (d : Nat) (f : HallDie → HallDie) : (s.updHd d f).free = s.free := rfl
@[simp] theorem State.updHd_i3c (s : State) (d : Nat) (f : HallDie → HallDie) : (s.updHd d f).i3c = s.i3c := rfl
@[simp] theorem State.updHd_ctrl (s : State) (d : Nat) (f : HallDie → HallDie) : (s.updHd d f).ctrl = s.ctrl := rfl
@[simp] theorem State.updHd_rails (s : State) (d : Nat) (f : HallDie → HallDie) : (s.updHd d f).rails = s.rails := rfl
@[simp] theorem State.updHd_clock (s : State) (d : Nat) (f : HallDie → HallDie) : (s.updHd d f).clock = s.clock := rfl
@[simp] theorem State.updHd_hearth (s : State) (d : Nat) (f : HallDie → HallDie) : (s.updHd d f).hearth = s.hearth := rfl
@[simp] theorem State.updHd_chain (s : State) (d : Nat) (f : HallDie → HallDie) : (s.updHd d f).chain = s.chain := rfl
@[simp] theorem State.updHd_age (s : State) (d : Nat) (f : HallDie → HallDie) : (s.updHd d f).age = s.age := rfl
@[simp] theorem State.updHd_flash (s : State) (d : Nat) (f : HallDie → HallDie) : (s.updHd d f).flash = s.flash := rfl
@[simp] theorem State.updHd_upd (s : State) (d : Nat) (f : HallDie → HallDie) : (s.updHd d f).upd = s.upd := rfl
@[simp] theorem State.updHd_start (s : State) (d : Nat) (f : HallDie → HallDie) : (s.updHd d f).start = s.start := rfl
@[simp] theorem State.updHd_pending (s : State) (d : Nat) (f : HallDie → HallDie) : (s.updHd d f).pending = s.pending := rfl

/-! ## updPart changes parts only -/

@[simp] theorem State.updPart_aon (s : State) (p : Nat) (f : PartState → PartState) : (s.updPart p f).aon = s.aon := rfl
@[simp] theorem State.updPart_now (s : State) (p : Nat) (f : PartState → PartState) : (s.updPart p f).now = s.now := rfl
@[simp] theorem State.updPart_period (s : State) (p : Nat) (f : PartState → PartState) : (s.updPart p f).period = s.period := rfl
@[simp] theorem State.updPart_regs (s : State) (p : Nat) (f : PartState → PartState) : (s.updPart p f).regs = s.regs := rfl
@[simp] theorem State.updPart_limits (s : State) (p : Nat) (f : PartState → PartState) : (s.updPart p f).limits = s.limits := rfl
@[simp] theorem State.updPart_frac (s : State) (p : Nat) (f : PartState → PartState) : (s.updPart p f).frac = s.frac := rfl
@[simp] theorem State.updPart_frozen (s : State) (p : Nat) (f : PartState → PartState) : (s.updPart p f).frozen = s.frozen := rfl
@[simp] theorem State.updPart_freezeT (s : State) (p : Nat) (f : PartState → PartState) : (s.updPart p f).freezeT = s.freezeT := rfl
@[simp] theorem State.updPart_frozeAt (s : State) (p : Nat) (f : PartState → PartState) : (s.updPart p f).frozeAt = s.frozeAt := rfl
@[simp] theorem State.updPart_thaw (s : State) (p : Nat) (f : PartState → PartState) : (s.updPart p f).thaw = s.thaw := rfl
@[simp] theorem State.updPart_perDue (s : State) (p : Nat) (f : PartState → PartState) : (s.updPart p f).perDue = s.perDue := rfl
@[simp] theorem State.updPart_winDue (s : State) (p : Nat) (f : PartState → PartState) : (s.updPart p f).winDue = s.winDue := rfl
@[simp] theorem State.updPart_jobDue (s : State) (p : Nat) (f : PartState → PartState) : (s.updPart p f).jobDue = s.jobDue := rfl
@[simp] theorem State.updPart_ports (s : State) (p : Nat) (f : PartState → PartState) : (s.updPart p f).ports = s.ports := rfl
@[simp] theorem State.updPart_msix (s : State) (p : Nat) (f : PartState → PartState) : (s.updPart p f).msix = s.msix := rfl
@[simp] theorem State.updPart_faultSeq (s : State) (p : Nat) (f : PartState → PartState) : (s.updPart p f).faultSeq = s.faultSeq := rfl
@[simp] theorem State.updPart_pend (s : State) (p : Nat) (f : PartState → PartState) : (s.updPart p f).pend = s.pend := rfl
@[simp] theorem State.updPart_inject (s : State) (p : Nat) (f : PartState → PartState) : (s.updPart p f).inject = s.inject := rfl
@[simp] theorem State.updPart_force (s : State) (p : Nat) (f : PartState → PartState) : (s.updPart p f).force = s.force := rfl
@[simp] theorem State.updPart_pins (s : State) (p : Nat) (f : PartState → PartState) : (s.updPart p f).pins = s.pins := rfl
@[simp] theorem State.updPart_floorOn (s : State) (p : Nat) (f : PartState → PartState) : (s.updPart p f).floorOn = s.floorOn := rfl
@[simp] theorem State.updPart_svcUnder (s : State) (p : Nat) (f : PartState → PartState) : (s.updPart p f).svcUnder = s.svcUnder := rfl
@[simp] theorem State.updPart_phasesOut (s : State) (p : Nat) (f : PartState → PartState) : (s.updPart p f).phasesOut = s.phasesOut := rfl
@[simp] theorem State.updPart_dies (s : State) (p : Nat) (f : PartState → PartState) : (s.updPart p f).dies = s.dies := rfl
@[simp] theorem State.updPart_halls (s : State) (p : Nat) (f : PartState → PartState) : (s.updPart p f).halls = s.halls := rfl
@[simp] theorem State.updPart_lard (s : State) (p : Nat) (f : PartState → PartState) : (s.updPart p f).lard = s.lard := rfl
@[simp] theorem State.updPart_rings (s : State) (p : Nat) (f : PartState → PartState) : (s.updPart p f).rings = s.rings := rfl
@[simp] theorem State.updPart_tel (s : State) (p : Nat) (f : PartState → PartState) : (s.updPart p f).tel = s.tel := rfl
@[simp] theorem State.updPart_telDecim (s : State) (p : Nat) (f : PartState → PartState) : (s.updPart p f).telDecim = s.telDecim := rfl
@[simp] theorem State.updPart_acct (s : State) (p : Nat) (f : PartState → PartState) : (s.updPart p f).acct = s.acct := rfl
@[simp] theorem State.updPart_gopen (s : State) (p : Nat) (f : PartState → PartState) : (s.updPart p f).gopen = s.gopen := rfl
@[simp] theorem State.updPart_mbBad (s : State) (p : Nat) (f : PartState → PartState) : (s.updPart p f).mbBad = s.mbBad := rfl
@[simp] theorem State.updPart_fwInt (s : State) (p : Nat) (f : PartState → PartState) : (s.updPart p f).fwInt = s.fwInt := rfl
@[simp] theorem State.updPart_dma (s : State) (p : Nat) (f : PartState → PartState) : (s.updPart p f).dma = s.dma := rfl
@[simp] theorem State.updPart_msixOut (s : State) (p : Nat) (f : PartState → PartState) : (s.updPart p f).msixOut = s.msixOut := rfl
@[simp] theorem State.updPart_attic (s : State) (p : Nat) (f : PartState → PartState) : (s.updPart p f).attic = s.attic := rfl
@[simp] theorem State.updPart_tring (s : State) (p : Nat) (f : PartState → PartState) : (s.updPart p f).tring = s.tring := rfl
@[simp] theorem State.updPart_change (s : State) (p : Nat) (f : PartState → PartState) : (s.updPart p f).change = s.change := rfl
@[simp] theorem State.updPart_changes (s : State) (p : Nat) (f : PartState → PartState) : (s.updPart p f).changes = s.changes := rfl
@[simp] theorem State.updPart_changeGen (s : State) (p : Nat) (f : PartState → PartState) : (s.updPart p f).changeGen = s.changeGen := rfl
@[simp] theorem State.updPart_lim (s : State) (p : Nat) (f : PartState → PartState) : (s.updPart p f).lim = s.lim := rfl
@[simp] theorem State.updPart_missed (s : State) (p : Nat) (f : PartState → PartState) : (s.updPart p f).missed = s.missed := rfl
@[simp] theorem State.updPart_beacons (s : State) (p : Nat) (f : PartState → PartState) : (s.updPart p f).beacons = s.beacons := rfl
@[simp] theorem State.updPart_free (s : State) (p : Nat) (f : PartState → PartState) : (s.updPart p f).free = s.free := rfl
@[simp] theorem State.updPart_i3c (s : State) (p : Nat) (f : PartState → PartState) : (s.updPart p f).i3c = s.i3c := rfl
@[simp] theorem State.updPart_ctrl (s : State) (p : Nat) (f : PartState → PartState) : (s.updPart p f).ctrl = s.ctrl := rfl
@[simp] theorem State.updPart_rails (s : State) (p : Nat) (f : PartState → PartState) : (s.updPart p f).rails = s.rails := rfl
@[simp] theorem State.updPart_clock (s : State) (p : Nat) (f : PartState → PartState) : (s.updPart p f).clock = s.clock := rfl
@[simp] theorem State.updPart_hearth (s : State) (p : Nat) (f : PartState → PartState) : (s.updPart p f).hearth = s.hearth := rfl
@[simp] theorem State.updPart_chain (s : State) (p : Nat) (f : PartState → PartState) : (s.updPart p f).chain = s.chain := rfl
@[simp] theorem State.updPart_age (s : State) (p : Nat) (f : PartState → PartState) : (s.updPart p f).age = s.age := rfl
@[simp] theorem State.updPart_flash (s : State) (p : Nat) (f : PartState → PartState) : (s.updPart p f).flash = s.flash := rfl
@[simp] theorem State.updPart_upd (s : State) (p : Nat) (f : PartState → PartState) : (s.updPart p f).upd = s.upd := rfl
@[simp] theorem State.updPart_start (s : State) (p : Nat) (f : PartState → PartState) : (s.updPart p f).start = s.start := rfl
@[simp] theorem State.updPart_pending (s : State) (p : Nat) (f : PartState → PartState) : (s.updPart p f).pending = s.pending := rfl

/-! ## updRing changes rings only -/

@[simp] theorem State.updRing_aon (s : State) (n : Nat) (f : RingState → RingState) : (s.updRing n f).aon = s.aon := rfl
@[simp] theorem State.updRing_now (s : State) (n : Nat) (f : RingState → RingState) : (s.updRing n f).now = s.now := rfl
@[simp] theorem State.updRing_period (s : State) (n : Nat) (f : RingState → RingState) : (s.updRing n f).period = s.period := rfl
@[simp] theorem State.updRing_regs (s : State) (n : Nat) (f : RingState → RingState) : (s.updRing n f).regs = s.regs := rfl
@[simp] theorem State.updRing_limits (s : State) (n : Nat) (f : RingState → RingState) : (s.updRing n f).limits = s.limits := rfl
@[simp] theorem State.updRing_frac (s : State) (n : Nat) (f : RingState → RingState) : (s.updRing n f).frac = s.frac := rfl
@[simp] theorem State.updRing_frozen (s : State) (n : Nat) (f : RingState → RingState) : (s.updRing n f).frozen = s.frozen := rfl
@[simp] theorem State.updRing_freezeT (s : State) (n : Nat) (f : RingState → RingState) : (s.updRing n f).freezeT = s.freezeT := rfl
@[simp] theorem State.updRing_frozeAt (s : State) (n : Nat) (f : RingState → RingState) : (s.updRing n f).frozeAt = s.frozeAt := rfl
@[simp] theorem State.updRing_thaw (s : State) (n : Nat) (f : RingState → RingState) : (s.updRing n f).thaw = s.thaw := rfl
@[simp] theorem State.updRing_perDue (s : State) (n : Nat) (f : RingState → RingState) : (s.updRing n f).perDue = s.perDue := rfl
@[simp] theorem State.updRing_winDue (s : State) (n : Nat) (f : RingState → RingState) : (s.updRing n f).winDue = s.winDue := rfl
@[simp] theorem State.updRing_jobDue (s : State) (n : Nat) (f : RingState → RingState) : (s.updRing n f).jobDue = s.jobDue := rfl
@[simp] theorem State.updRing_ports (s : State) (n : Nat) (f : RingState → RingState) : (s.updRing n f).ports = s.ports := rfl
@[simp] theorem State.updRing_msix (s : State) (n : Nat) (f : RingState → RingState) : (s.updRing n f).msix = s.msix := rfl
@[simp] theorem State.updRing_faultSeq (s : State) (n : Nat) (f : RingState → RingState) : (s.updRing n f).faultSeq = s.faultSeq := rfl
@[simp] theorem State.updRing_pend (s : State) (n : Nat) (f : RingState → RingState) : (s.updRing n f).pend = s.pend := rfl
@[simp] theorem State.updRing_inject (s : State) (n : Nat) (f : RingState → RingState) : (s.updRing n f).inject = s.inject := rfl
@[simp] theorem State.updRing_force (s : State) (n : Nat) (f : RingState → RingState) : (s.updRing n f).force = s.force := rfl
@[simp] theorem State.updRing_pins (s : State) (n : Nat) (f : RingState → RingState) : (s.updRing n f).pins = s.pins := rfl
@[simp] theorem State.updRing_floorOn (s : State) (n : Nat) (f : RingState → RingState) : (s.updRing n f).floorOn = s.floorOn := rfl
@[simp] theorem State.updRing_svcUnder (s : State) (n : Nat) (f : RingState → RingState) : (s.updRing n f).svcUnder = s.svcUnder := rfl
@[simp] theorem State.updRing_phasesOut (s : State) (n : Nat) (f : RingState → RingState) : (s.updRing n f).phasesOut = s.phasesOut := rfl
@[simp] theorem State.updRing_dies (s : State) (n : Nat) (f : RingState → RingState) : (s.updRing n f).dies = s.dies := rfl
@[simp] theorem State.updRing_halls (s : State) (n : Nat) (f : RingState → RingState) : (s.updRing n f).halls = s.halls := rfl
@[simp] theorem State.updRing_lard (s : State) (n : Nat) (f : RingState → RingState) : (s.updRing n f).lard = s.lard := rfl
@[simp] theorem State.updRing_parts (s : State) (n : Nat) (f : RingState → RingState) : (s.updRing n f).parts = s.parts := rfl
@[simp] theorem State.updRing_tel (s : State) (n : Nat) (f : RingState → RingState) : (s.updRing n f).tel = s.tel := rfl
@[simp] theorem State.updRing_telDecim (s : State) (n : Nat) (f : RingState → RingState) : (s.updRing n f).telDecim = s.telDecim := rfl
@[simp] theorem State.updRing_acct (s : State) (n : Nat) (f : RingState → RingState) : (s.updRing n f).acct = s.acct := rfl
@[simp] theorem State.updRing_gopen (s : State) (n : Nat) (f : RingState → RingState) : (s.updRing n f).gopen = s.gopen := rfl
@[simp] theorem State.updRing_mbBad (s : State) (n : Nat) (f : RingState → RingState) : (s.updRing n f).mbBad = s.mbBad := rfl
@[simp] theorem State.updRing_fwInt (s : State) (n : Nat) (f : RingState → RingState) : (s.updRing n f).fwInt = s.fwInt := rfl
@[simp] theorem State.updRing_dma (s : State) (n : Nat) (f : RingState → RingState) : (s.updRing n f).dma = s.dma := rfl
@[simp] theorem State.updRing_msixOut (s : State) (n : Nat) (f : RingState → RingState) : (s.updRing n f).msixOut = s.msixOut := rfl
@[simp] theorem State.updRing_attic (s : State) (n : Nat) (f : RingState → RingState) : (s.updRing n f).attic = s.attic := rfl
@[simp] theorem State.updRing_tring (s : State) (n : Nat) (f : RingState → RingState) : (s.updRing n f).tring = s.tring := rfl
@[simp] theorem State.updRing_change (s : State) (n : Nat) (f : RingState → RingState) : (s.updRing n f).change = s.change := rfl
@[simp] theorem State.updRing_changes (s : State) (n : Nat) (f : RingState → RingState) : (s.updRing n f).changes = s.changes := rfl
@[simp] theorem State.updRing_changeGen (s : State) (n : Nat) (f : RingState → RingState) : (s.updRing n f).changeGen = s.changeGen := rfl
@[simp] theorem State.updRing_lim (s : State) (n : Nat) (f : RingState → RingState) : (s.updRing n f).lim = s.lim := rfl
@[simp] theorem State.updRing_missed (s : State) (n : Nat) (f : RingState → RingState) : (s.updRing n f).missed = s.missed := rfl
@[simp] theorem State.updRing_beacons (s : State) (n : Nat) (f : RingState → RingState) : (s.updRing n f).beacons = s.beacons := rfl
@[simp] theorem State.updRing_free (s : State) (n : Nat) (f : RingState → RingState) : (s.updRing n f).free = s.free := rfl
@[simp] theorem State.updRing_i3c (s : State) (n : Nat) (f : RingState → RingState) : (s.updRing n f).i3c = s.i3c := rfl
@[simp] theorem State.updRing_ctrl (s : State) (n : Nat) (f : RingState → RingState) : (s.updRing n f).ctrl = s.ctrl := rfl
@[simp] theorem State.updRing_rails (s : State) (n : Nat) (f : RingState → RingState) : (s.updRing n f).rails = s.rails := rfl
@[simp] theorem State.updRing_clock (s : State) (n : Nat) (f : RingState → RingState) : (s.updRing n f).clock = s.clock := rfl
@[simp] theorem State.updRing_hearth (s : State) (n : Nat) (f : RingState → RingState) : (s.updRing n f).hearth = s.hearth := rfl
@[simp] theorem State.updRing_chain (s : State) (n : Nat) (f : RingState → RingState) : (s.updRing n f).chain = s.chain := rfl
@[simp] theorem State.updRing_age (s : State) (n : Nat) (f : RingState → RingState) : (s.updRing n f).age = s.age := rfl
@[simp] theorem State.updRing_flash (s : State) (n : Nat) (f : RingState → RingState) : (s.updRing n f).flash = s.flash := rfl
@[simp] theorem State.updRing_upd (s : State) (n : Nat) (f : RingState → RingState) : (s.updRing n f).upd = s.upd := rfl
@[simp] theorem State.updRing_start (s : State) (n : Nat) (f : RingState → RingState) : (s.updRing n f).start = s.start := rfl
@[simp] theorem State.updRing_pending (s : State) (n : Nat) (f : RingState → RingState) : (s.updRing n f).pending = s.pending := rfl

/-! ## updRail changes rails only -/

@[simp] theorem State.updRail_aon (s : State) (r : Nat) (f : RailState → RailState) : (s.updRail r f).aon = s.aon := rfl
@[simp] theorem State.updRail_now (s : State) (r : Nat) (f : RailState → RailState) : (s.updRail r f).now = s.now := rfl
@[simp] theorem State.updRail_period (s : State) (r : Nat) (f : RailState → RailState) : (s.updRail r f).period = s.period := rfl
@[simp] theorem State.updRail_regs (s : State) (r : Nat) (f : RailState → RailState) : (s.updRail r f).regs = s.regs := rfl
@[simp] theorem State.updRail_limits (s : State) (r : Nat) (f : RailState → RailState) : (s.updRail r f).limits = s.limits := rfl
@[simp] theorem State.updRail_frac (s : State) (r : Nat) (f : RailState → RailState) : (s.updRail r f).frac = s.frac := rfl
@[simp] theorem State.updRail_frozen (s : State) (r : Nat) (f : RailState → RailState) : (s.updRail r f).frozen = s.frozen := rfl
@[simp] theorem State.updRail_freezeT (s : State) (r : Nat) (f : RailState → RailState) : (s.updRail r f).freezeT = s.freezeT := rfl
@[simp] theorem State.updRail_frozeAt (s : State) (r : Nat) (f : RailState → RailState) : (s.updRail r f).frozeAt = s.frozeAt := rfl
@[simp] theorem State.updRail_thaw (s : State) (r : Nat) (f : RailState → RailState) : (s.updRail r f).thaw = s.thaw := rfl
@[simp] theorem State.updRail_perDue (s : State) (r : Nat) (f : RailState → RailState) : (s.updRail r f).perDue = s.perDue := rfl
@[simp] theorem State.updRail_winDue (s : State) (r : Nat) (f : RailState → RailState) : (s.updRail r f).winDue = s.winDue := rfl
@[simp] theorem State.updRail_jobDue (s : State) (r : Nat) (f : RailState → RailState) : (s.updRail r f).jobDue = s.jobDue := rfl
@[simp] theorem State.updRail_ports (s : State) (r : Nat) (f : RailState → RailState) : (s.updRail r f).ports = s.ports := rfl
@[simp] theorem State.updRail_msix (s : State) (r : Nat) (f : RailState → RailState) : (s.updRail r f).msix = s.msix := rfl
@[simp] theorem State.updRail_faultSeq (s : State) (r : Nat) (f : RailState → RailState) : (s.updRail r f).faultSeq = s.faultSeq := rfl
@[simp] theorem State.updRail_pend (s : State) (r : Nat) (f : RailState → RailState) : (s.updRail r f).pend = s.pend := rfl
@[simp] theorem State.updRail_inject (s : State) (r : Nat) (f : RailState → RailState) : (s.updRail r f).inject = s.inject := rfl
@[simp] theorem State.updRail_force (s : State) (r : Nat) (f : RailState → RailState) : (s.updRail r f).force = s.force := rfl
@[simp] theorem State.updRail_pins (s : State) (r : Nat) (f : RailState → RailState) : (s.updRail r f).pins = s.pins := rfl
@[simp] theorem State.updRail_floorOn (s : State) (r : Nat) (f : RailState → RailState) : (s.updRail r f).floorOn = s.floorOn := rfl
@[simp] theorem State.updRail_svcUnder (s : State) (r : Nat) (f : RailState → RailState) : (s.updRail r f).svcUnder = s.svcUnder := rfl
@[simp] theorem State.updRail_phasesOut (s : State) (r : Nat) (f : RailState → RailState) : (s.updRail r f).phasesOut = s.phasesOut := rfl
@[simp] theorem State.updRail_dies (s : State) (r : Nat) (f : RailState → RailState) : (s.updRail r f).dies = s.dies := rfl
@[simp] theorem State.updRail_halls (s : State) (r : Nat) (f : RailState → RailState) : (s.updRail r f).halls = s.halls := rfl
@[simp] theorem State.updRail_lard (s : State) (r : Nat) (f : RailState → RailState) : (s.updRail r f).lard = s.lard := rfl
@[simp] theorem State.updRail_parts (s : State) (r : Nat) (f : RailState → RailState) : (s.updRail r f).parts = s.parts := rfl
@[simp] theorem State.updRail_rings (s : State) (r : Nat) (f : RailState → RailState) : (s.updRail r f).rings = s.rings := rfl
@[simp] theorem State.updRail_tel (s : State) (r : Nat) (f : RailState → RailState) : (s.updRail r f).tel = s.tel := rfl
@[simp] theorem State.updRail_telDecim (s : State) (r : Nat) (f : RailState → RailState) : (s.updRail r f).telDecim = s.telDecim := rfl
@[simp] theorem State.updRail_acct (s : State) (r : Nat) (f : RailState → RailState) : (s.updRail r f).acct = s.acct := rfl
@[simp] theorem State.updRail_gopen (s : State) (r : Nat) (f : RailState → RailState) : (s.updRail r f).gopen = s.gopen := rfl
@[simp] theorem State.updRail_mbBad (s : State) (r : Nat) (f : RailState → RailState) : (s.updRail r f).mbBad = s.mbBad := rfl
@[simp] theorem State.updRail_fwInt (s : State) (r : Nat) (f : RailState → RailState) : (s.updRail r f).fwInt = s.fwInt := rfl
@[simp] theorem State.updRail_dma (s : State) (r : Nat) (f : RailState → RailState) : (s.updRail r f).dma = s.dma := rfl
@[simp] theorem State.updRail_msixOut (s : State) (r : Nat) (f : RailState → RailState) : (s.updRail r f).msixOut = s.msixOut := rfl
@[simp] theorem State.updRail_attic (s : State) (r : Nat) (f : RailState → RailState) : (s.updRail r f).attic = s.attic := rfl
@[simp] theorem State.updRail_tring (s : State) (r : Nat) (f : RailState → RailState) : (s.updRail r f).tring = s.tring := rfl
@[simp] theorem State.updRail_change (s : State) (r : Nat) (f : RailState → RailState) : (s.updRail r f).change = s.change := rfl
@[simp] theorem State.updRail_changes (s : State) (r : Nat) (f : RailState → RailState) : (s.updRail r f).changes = s.changes := rfl
@[simp] theorem State.updRail_changeGen (s : State) (r : Nat) (f : RailState → RailState) : (s.updRail r f).changeGen = s.changeGen := rfl
@[simp] theorem State.updRail_lim (s : State) (r : Nat) (f : RailState → RailState) : (s.updRail r f).lim = s.lim := rfl
@[simp] theorem State.updRail_missed (s : State) (r : Nat) (f : RailState → RailState) : (s.updRail r f).missed = s.missed := rfl
@[simp] theorem State.updRail_beacons (s : State) (r : Nat) (f : RailState → RailState) : (s.updRail r f).beacons = s.beacons := rfl
@[simp] theorem State.updRail_free (s : State) (r : Nat) (f : RailState → RailState) : (s.updRail r f).free = s.free := rfl
@[simp] theorem State.updRail_i3c (s : State) (r : Nat) (f : RailState → RailState) : (s.updRail r f).i3c = s.i3c := rfl
@[simp] theorem State.updRail_ctrl (s : State) (r : Nat) (f : RailState → RailState) : (s.updRail r f).ctrl = s.ctrl := rfl
@[simp] theorem State.updRail_clock (s : State) (r : Nat) (f : RailState → RailState) : (s.updRail r f).clock = s.clock := rfl
@[simp] theorem State.updRail_hearth (s : State) (r : Nat) (f : RailState → RailState) : (s.updRail r f).hearth = s.hearth := rfl
@[simp] theorem State.updRail_chain (s : State) (r : Nat) (f : RailState → RailState) : (s.updRail r f).chain = s.chain := rfl
@[simp] theorem State.updRail_age (s : State) (r : Nat) (f : RailState → RailState) : (s.updRail r f).age = s.age := rfl
@[simp] theorem State.updRail_flash (s : State) (r : Nat) (f : RailState → RailState) : (s.updRail r f).flash = s.flash := rfl
@[simp] theorem State.updRail_upd (s : State) (r : Nat) (f : RailState → RailState) : (s.updRail r f).upd = s.upd := rfl
@[simp] theorem State.updRail_start (s : State) (r : Nat) (f : RailState → RailState) : (s.updRail r f).start = s.start := rfl
@[simp] theorem State.updRail_pending (s : State) (r : Nat) (f : RailState → RailState) : (s.updRail r f).pending = s.pending := rfl

/-! ## updPort changes ports only -/

@[simp] theorem State.updPort_aon (s : State) (p : Port) (f : PortState → PortState) : (s.updPort p f).aon = s.aon := rfl
@[simp] theorem State.updPort_now (s : State) (p : Port) (f : PortState → PortState) : (s.updPort p f).now = s.now := rfl
@[simp] theorem State.updPort_period (s : State) (p : Port) (f : PortState → PortState) : (s.updPort p f).period = s.period := rfl
@[simp] theorem State.updPort_regs (s : State) (p : Port) (f : PortState → PortState) : (s.updPort p f).regs = s.regs := rfl
@[simp] theorem State.updPort_limits (s : State) (p : Port) (f : PortState → PortState) : (s.updPort p f).limits = s.limits := rfl
@[simp] theorem State.updPort_frac (s : State) (p : Port) (f : PortState → PortState) : (s.updPort p f).frac = s.frac := rfl
@[simp] theorem State.updPort_frozen (s : State) (p : Port) (f : PortState → PortState) : (s.updPort p f).frozen = s.frozen := rfl
@[simp] theorem State.updPort_freezeT (s : State) (p : Port) (f : PortState → PortState) : (s.updPort p f).freezeT = s.freezeT := rfl
@[simp] theorem State.updPort_frozeAt (s : State) (p : Port) (f : PortState → PortState) : (s.updPort p f).frozeAt = s.frozeAt := rfl
@[simp] theorem State.updPort_thaw (s : State) (p : Port) (f : PortState → PortState) : (s.updPort p f).thaw = s.thaw := rfl
@[simp] theorem State.updPort_perDue (s : State) (p : Port) (f : PortState → PortState) : (s.updPort p f).perDue = s.perDue := rfl
@[simp] theorem State.updPort_winDue (s : State) (p : Port) (f : PortState → PortState) : (s.updPort p f).winDue = s.winDue := rfl
@[simp] theorem State.updPort_jobDue (s : State) (p : Port) (f : PortState → PortState) : (s.updPort p f).jobDue = s.jobDue := rfl
@[simp] theorem State.updPort_msix (s : State) (p : Port) (f : PortState → PortState) : (s.updPort p f).msix = s.msix := rfl
@[simp] theorem State.updPort_faultSeq (s : State) (p : Port) (f : PortState → PortState) : (s.updPort p f).faultSeq = s.faultSeq := rfl
@[simp] theorem State.updPort_pend (s : State) (p : Port) (f : PortState → PortState) : (s.updPort p f).pend = s.pend := rfl
@[simp] theorem State.updPort_inject (s : State) (p : Port) (f : PortState → PortState) : (s.updPort p f).inject = s.inject := rfl
@[simp] theorem State.updPort_force (s : State) (p : Port) (f : PortState → PortState) : (s.updPort p f).force = s.force := rfl
@[simp] theorem State.updPort_pins (s : State) (p : Port) (f : PortState → PortState) : (s.updPort p f).pins = s.pins := rfl
@[simp] theorem State.updPort_floorOn (s : State) (p : Port) (f : PortState → PortState) : (s.updPort p f).floorOn = s.floorOn := rfl
@[simp] theorem State.updPort_svcUnder (s : State) (p : Port) (f : PortState → PortState) : (s.updPort p f).svcUnder = s.svcUnder := rfl
@[simp] theorem State.updPort_phasesOut (s : State) (p : Port) (f : PortState → PortState) : (s.updPort p f).phasesOut = s.phasesOut := rfl
@[simp] theorem State.updPort_dies (s : State) (p : Port) (f : PortState → PortState) : (s.updPort p f).dies = s.dies := rfl
@[simp] theorem State.updPort_halls (s : State) (p : Port) (f : PortState → PortState) : (s.updPort p f).halls = s.halls := rfl
@[simp] theorem State.updPort_lard (s : State) (p : Port) (f : PortState → PortState) : (s.updPort p f).lard = s.lard := rfl
@[simp] theorem State.updPort_parts (s : State) (p : Port) (f : PortState → PortState) : (s.updPort p f).parts = s.parts := rfl
@[simp] theorem State.updPort_rings (s : State) (p : Port) (f : PortState → PortState) : (s.updPort p f).rings = s.rings := rfl
@[simp] theorem State.updPort_tel (s : State) (p : Port) (f : PortState → PortState) : (s.updPort p f).tel = s.tel := rfl
@[simp] theorem State.updPort_telDecim (s : State) (p : Port) (f : PortState → PortState) : (s.updPort p f).telDecim = s.telDecim := rfl
@[simp] theorem State.updPort_acct (s : State) (p : Port) (f : PortState → PortState) : (s.updPort p f).acct = s.acct := rfl
@[simp] theorem State.updPort_gopen (s : State) (p : Port) (f : PortState → PortState) : (s.updPort p f).gopen = s.gopen := rfl
@[simp] theorem State.updPort_mbBad (s : State) (p : Port) (f : PortState → PortState) : (s.updPort p f).mbBad = s.mbBad := rfl
@[simp] theorem State.updPort_fwInt (s : State) (p : Port) (f : PortState → PortState) : (s.updPort p f).fwInt = s.fwInt := rfl
@[simp] theorem State.updPort_dma (s : State) (p : Port) (f : PortState → PortState) : (s.updPort p f).dma = s.dma := rfl
@[simp] theorem State.updPort_msixOut (s : State) (p : Port) (f : PortState → PortState) : (s.updPort p f).msixOut = s.msixOut := rfl
@[simp] theorem State.updPort_attic (s : State) (p : Port) (f : PortState → PortState) : (s.updPort p f).attic = s.attic := rfl
@[simp] theorem State.updPort_tring (s : State) (p : Port) (f : PortState → PortState) : (s.updPort p f).tring = s.tring := rfl
@[simp] theorem State.updPort_change (s : State) (p : Port) (f : PortState → PortState) : (s.updPort p f).change = s.change := rfl
@[simp] theorem State.updPort_changes (s : State) (p : Port) (f : PortState → PortState) : (s.updPort p f).changes = s.changes := rfl
@[simp] theorem State.updPort_changeGen (s : State) (p : Port) (f : PortState → PortState) : (s.updPort p f).changeGen = s.changeGen := rfl
@[simp] theorem State.updPort_lim (s : State) (p : Port) (f : PortState → PortState) : (s.updPort p f).lim = s.lim := rfl
@[simp] theorem State.updPort_missed (s : State) (p : Port) (f : PortState → PortState) : (s.updPort p f).missed = s.missed := rfl
@[simp] theorem State.updPort_beacons (s : State) (p : Port) (f : PortState → PortState) : (s.updPort p f).beacons = s.beacons := rfl
@[simp] theorem State.updPort_free (s : State) (p : Port) (f : PortState → PortState) : (s.updPort p f).free = s.free := rfl
@[simp] theorem State.updPort_i3c (s : State) (p : Port) (f : PortState → PortState) : (s.updPort p f).i3c = s.i3c := rfl
@[simp] theorem State.updPort_ctrl (s : State) (p : Port) (f : PortState → PortState) : (s.updPort p f).ctrl = s.ctrl := rfl
@[simp] theorem State.updPort_rails (s : State) (p : Port) (f : PortState → PortState) : (s.updPort p f).rails = s.rails := rfl
@[simp] theorem State.updPort_clock (s : State) (p : Port) (f : PortState → PortState) : (s.updPort p f).clock = s.clock := rfl
@[simp] theorem State.updPort_hearth (s : State) (p : Port) (f : PortState → PortState) : (s.updPort p f).hearth = s.hearth := rfl
@[simp] theorem State.updPort_chain (s : State) (p : Port) (f : PortState → PortState) : (s.updPort p f).chain = s.chain := rfl
@[simp] theorem State.updPort_age (s : State) (p : Port) (f : PortState → PortState) : (s.updPort p f).age = s.age := rfl
@[simp] theorem State.updPort_flash (s : State) (p : Port) (f : PortState → PortState) : (s.updPort p f).flash = s.flash := rfl
@[simp] theorem State.updPort_upd (s : State) (p : Port) (f : PortState → PortState) : (s.updPort p f).upd = s.upd := rfl
@[simp] theorem State.updPort_start (s : State) (p : Port) (f : PortState → PortState) : (s.updPort p f).start = s.start := rfl
@[simp] theorem State.updPort_pending (s : State) (p : Port) (f : PortState → PortState) : (s.updPort p f).pending = s.pending := rfl

/-! ## updMsix changes msix only -/

@[simp] theorem State.updMsix_aon (s : State) (p : Port) (f : MsixState → MsixState) : (s.updMsix p f).aon = s.aon := rfl
@[simp] theorem State.updMsix_now (s : State) (p : Port) (f : MsixState → MsixState) : (s.updMsix p f).now = s.now := rfl
@[simp] theorem State.updMsix_period (s : State) (p : Port) (f : MsixState → MsixState) : (s.updMsix p f).period = s.period := rfl
@[simp] theorem State.updMsix_regs (s : State) (p : Port) (f : MsixState → MsixState) : (s.updMsix p f).regs = s.regs := rfl
@[simp] theorem State.updMsix_limits (s : State) (p : Port) (f : MsixState → MsixState) : (s.updMsix p f).limits = s.limits := rfl
@[simp] theorem State.updMsix_frac (s : State) (p : Port) (f : MsixState → MsixState) : (s.updMsix p f).frac = s.frac := rfl
@[simp] theorem State.updMsix_frozen (s : State) (p : Port) (f : MsixState → MsixState) : (s.updMsix p f).frozen = s.frozen := rfl
@[simp] theorem State.updMsix_freezeT (s : State) (p : Port) (f : MsixState → MsixState) : (s.updMsix p f).freezeT = s.freezeT := rfl
@[simp] theorem State.updMsix_frozeAt (s : State) (p : Port) (f : MsixState → MsixState) : (s.updMsix p f).frozeAt = s.frozeAt := rfl
@[simp] theorem State.updMsix_thaw (s : State) (p : Port) (f : MsixState → MsixState) : (s.updMsix p f).thaw = s.thaw := rfl
@[simp] theorem State.updMsix_perDue (s : State) (p : Port) (f : MsixState → MsixState) : (s.updMsix p f).perDue = s.perDue := rfl
@[simp] theorem State.updMsix_winDue (s : State) (p : Port) (f : MsixState → MsixState) : (s.updMsix p f).winDue = s.winDue := rfl
@[simp] theorem State.updMsix_jobDue (s : State) (p : Port) (f : MsixState → MsixState) : (s.updMsix p f).jobDue = s.jobDue := rfl
@[simp] theorem State.updMsix_ports (s : State) (p : Port) (f : MsixState → MsixState) : (s.updMsix p f).ports = s.ports := rfl
@[simp] theorem State.updMsix_faultSeq (s : State) (p : Port) (f : MsixState → MsixState) : (s.updMsix p f).faultSeq = s.faultSeq := rfl
@[simp] theorem State.updMsix_pend (s : State) (p : Port) (f : MsixState → MsixState) : (s.updMsix p f).pend = s.pend := rfl
@[simp] theorem State.updMsix_inject (s : State) (p : Port) (f : MsixState → MsixState) : (s.updMsix p f).inject = s.inject := rfl
@[simp] theorem State.updMsix_force (s : State) (p : Port) (f : MsixState → MsixState) : (s.updMsix p f).force = s.force := rfl
@[simp] theorem State.updMsix_pins (s : State) (p : Port) (f : MsixState → MsixState) : (s.updMsix p f).pins = s.pins := rfl
@[simp] theorem State.updMsix_floorOn (s : State) (p : Port) (f : MsixState → MsixState) : (s.updMsix p f).floorOn = s.floorOn := rfl
@[simp] theorem State.updMsix_svcUnder (s : State) (p : Port) (f : MsixState → MsixState) : (s.updMsix p f).svcUnder = s.svcUnder := rfl
@[simp] theorem State.updMsix_phasesOut (s : State) (p : Port) (f : MsixState → MsixState) : (s.updMsix p f).phasesOut = s.phasesOut := rfl
@[simp] theorem State.updMsix_dies (s : State) (p : Port) (f : MsixState → MsixState) : (s.updMsix p f).dies = s.dies := rfl
@[simp] theorem State.updMsix_halls (s : State) (p : Port) (f : MsixState → MsixState) : (s.updMsix p f).halls = s.halls := rfl
@[simp] theorem State.updMsix_lard (s : State) (p : Port) (f : MsixState → MsixState) : (s.updMsix p f).lard = s.lard := rfl
@[simp] theorem State.updMsix_parts (s : State) (p : Port) (f : MsixState → MsixState) : (s.updMsix p f).parts = s.parts := rfl
@[simp] theorem State.updMsix_rings (s : State) (p : Port) (f : MsixState → MsixState) : (s.updMsix p f).rings = s.rings := rfl
@[simp] theorem State.updMsix_tel (s : State) (p : Port) (f : MsixState → MsixState) : (s.updMsix p f).tel = s.tel := rfl
@[simp] theorem State.updMsix_telDecim (s : State) (p : Port) (f : MsixState → MsixState) : (s.updMsix p f).telDecim = s.telDecim := rfl
@[simp] theorem State.updMsix_acct (s : State) (p : Port) (f : MsixState → MsixState) : (s.updMsix p f).acct = s.acct := rfl
@[simp] theorem State.updMsix_gopen (s : State) (p : Port) (f : MsixState → MsixState) : (s.updMsix p f).gopen = s.gopen := rfl
@[simp] theorem State.updMsix_mbBad (s : State) (p : Port) (f : MsixState → MsixState) : (s.updMsix p f).mbBad = s.mbBad := rfl
@[simp] theorem State.updMsix_fwInt (s : State) (p : Port) (f : MsixState → MsixState) : (s.updMsix p f).fwInt = s.fwInt := rfl
@[simp] theorem State.updMsix_dma (s : State) (p : Port) (f : MsixState → MsixState) : (s.updMsix p f).dma = s.dma := rfl
@[simp] theorem State.updMsix_msixOut (s : State) (p : Port) (f : MsixState → MsixState) : (s.updMsix p f).msixOut = s.msixOut := rfl
@[simp] theorem State.updMsix_attic (s : State) (p : Port) (f : MsixState → MsixState) : (s.updMsix p f).attic = s.attic := rfl
@[simp] theorem State.updMsix_tring (s : State) (p : Port) (f : MsixState → MsixState) : (s.updMsix p f).tring = s.tring := rfl
@[simp] theorem State.updMsix_change (s : State) (p : Port) (f : MsixState → MsixState) : (s.updMsix p f).change = s.change := rfl
@[simp] theorem State.updMsix_changes (s : State) (p : Port) (f : MsixState → MsixState) : (s.updMsix p f).changes = s.changes := rfl
@[simp] theorem State.updMsix_changeGen (s : State) (p : Port) (f : MsixState → MsixState) : (s.updMsix p f).changeGen = s.changeGen := rfl
@[simp] theorem State.updMsix_lim (s : State) (p : Port) (f : MsixState → MsixState) : (s.updMsix p f).lim = s.lim := rfl
@[simp] theorem State.updMsix_missed (s : State) (p : Port) (f : MsixState → MsixState) : (s.updMsix p f).missed = s.missed := rfl
@[simp] theorem State.updMsix_beacons (s : State) (p : Port) (f : MsixState → MsixState) : (s.updMsix p f).beacons = s.beacons := rfl
@[simp] theorem State.updMsix_free (s : State) (p : Port) (f : MsixState → MsixState) : (s.updMsix p f).free = s.free := rfl
@[simp] theorem State.updMsix_i3c (s : State) (p : Port) (f : MsixState → MsixState) : (s.updMsix p f).i3c = s.i3c := rfl
@[simp] theorem State.updMsix_ctrl (s : State) (p : Port) (f : MsixState → MsixState) : (s.updMsix p f).ctrl = s.ctrl := rfl
@[simp] theorem State.updMsix_rails (s : State) (p : Port) (f : MsixState → MsixState) : (s.updMsix p f).rails = s.rails := rfl
@[simp] theorem State.updMsix_clock (s : State) (p : Port) (f : MsixState → MsixState) : (s.updMsix p f).clock = s.clock := rfl
@[simp] theorem State.updMsix_hearth (s : State) (p : Port) (f : MsixState → MsixState) : (s.updMsix p f).hearth = s.hearth := rfl
@[simp] theorem State.updMsix_chain (s : State) (p : Port) (f : MsixState → MsixState) : (s.updMsix p f).chain = s.chain := rfl
@[simp] theorem State.updMsix_age (s : State) (p : Port) (f : MsixState → MsixState) : (s.updMsix p f).age = s.age := rfl
@[simp] theorem State.updMsix_flash (s : State) (p : Port) (f : MsixState → MsixState) : (s.updMsix p f).flash = s.flash := rfl
@[simp] theorem State.updMsix_upd (s : State) (p : Port) (f : MsixState → MsixState) : (s.updMsix p f).upd = s.upd := rfl
@[simp] theorem State.updMsix_start (s : State) (p : Port) (f : MsixState → MsixState) : (s.updMsix p f).start = s.start := rfl
@[simp] theorem State.updMsix_pending (s : State) (p : Port) (f : MsixState → MsixState) : (s.updMsix p f).pending = s.pending := rfl

/-! ## updHall changes ctrl only -/

@[simp] theorem State.updHall_aon (s : State) (h : Nat) (f : HallState → HallState) : (s.updHall h f).aon = s.aon := rfl
@[simp] theorem State.updHall_now (s : State) (h : Nat) (f : HallState → HallState) : (s.updHall h f).now = s.now := rfl
@[simp] theorem State.updHall_period (s : State) (h : Nat) (f : HallState → HallState) : (s.updHall h f).period = s.period := rfl
@[simp] theorem State.updHall_regs (s : State) (h : Nat) (f : HallState → HallState) : (s.updHall h f).regs = s.regs := rfl
@[simp] theorem State.updHall_limits (s : State) (h : Nat) (f : HallState → HallState) : (s.updHall h f).limits = s.limits := rfl
@[simp] theorem State.updHall_frac (s : State) (h : Nat) (f : HallState → HallState) : (s.updHall h f).frac = s.frac := rfl
@[simp] theorem State.updHall_frozen (s : State) (h : Nat) (f : HallState → HallState) : (s.updHall h f).frozen = s.frozen := rfl
@[simp] theorem State.updHall_freezeT (s : State) (h : Nat) (f : HallState → HallState) : (s.updHall h f).freezeT = s.freezeT := rfl
@[simp] theorem State.updHall_frozeAt (s : State) (h : Nat) (f : HallState → HallState) : (s.updHall h f).frozeAt = s.frozeAt := rfl
@[simp] theorem State.updHall_thaw (s : State) (h : Nat) (f : HallState → HallState) : (s.updHall h f).thaw = s.thaw := rfl
@[simp] theorem State.updHall_perDue (s : State) (h : Nat) (f : HallState → HallState) : (s.updHall h f).perDue = s.perDue := rfl
@[simp] theorem State.updHall_winDue (s : State) (h : Nat) (f : HallState → HallState) : (s.updHall h f).winDue = s.winDue := rfl
@[simp] theorem State.updHall_jobDue (s : State) (h : Nat) (f : HallState → HallState) : (s.updHall h f).jobDue = s.jobDue := rfl
@[simp] theorem State.updHall_ports (s : State) (h : Nat) (f : HallState → HallState) : (s.updHall h f).ports = s.ports := rfl
@[simp] theorem State.updHall_msix (s : State) (h : Nat) (f : HallState → HallState) : (s.updHall h f).msix = s.msix := rfl
@[simp] theorem State.updHall_faultSeq (s : State) (h : Nat) (f : HallState → HallState) : (s.updHall h f).faultSeq = s.faultSeq := rfl
@[simp] theorem State.updHall_pend (s : State) (h : Nat) (f : HallState → HallState) : (s.updHall h f).pend = s.pend := rfl
@[simp] theorem State.updHall_inject (s : State) (h : Nat) (f : HallState → HallState) : (s.updHall h f).inject = s.inject := rfl
@[simp] theorem State.updHall_force (s : State) (h : Nat) (f : HallState → HallState) : (s.updHall h f).force = s.force := rfl
@[simp] theorem State.updHall_pins (s : State) (h : Nat) (f : HallState → HallState) : (s.updHall h f).pins = s.pins := rfl
@[simp] theorem State.updHall_floorOn (s : State) (h : Nat) (f : HallState → HallState) : (s.updHall h f).floorOn = s.floorOn := rfl
@[simp] theorem State.updHall_svcUnder (s : State) (h : Nat) (f : HallState → HallState) : (s.updHall h f).svcUnder = s.svcUnder := rfl
@[simp] theorem State.updHall_phasesOut (s : State) (h : Nat) (f : HallState → HallState) : (s.updHall h f).phasesOut = s.phasesOut := rfl
@[simp] theorem State.updHall_dies (s : State) (h : Nat) (f : HallState → HallState) : (s.updHall h f).dies = s.dies := rfl
@[simp] theorem State.updHall_halls (s : State) (h : Nat) (f : HallState → HallState) : (s.updHall h f).halls = s.halls := rfl
@[simp] theorem State.updHall_lard (s : State) (h : Nat) (f : HallState → HallState) : (s.updHall h f).lard = s.lard := rfl
@[simp] theorem State.updHall_parts (s : State) (h : Nat) (f : HallState → HallState) : (s.updHall h f).parts = s.parts := rfl
@[simp] theorem State.updHall_rings (s : State) (h : Nat) (f : HallState → HallState) : (s.updHall h f).rings = s.rings := rfl
@[simp] theorem State.updHall_tel (s : State) (h : Nat) (f : HallState → HallState) : (s.updHall h f).tel = s.tel := rfl
@[simp] theorem State.updHall_telDecim (s : State) (h : Nat) (f : HallState → HallState) : (s.updHall h f).telDecim = s.telDecim := rfl
@[simp] theorem State.updHall_acct (s : State) (h : Nat) (f : HallState → HallState) : (s.updHall h f).acct = s.acct := rfl
@[simp] theorem State.updHall_gopen (s : State) (h : Nat) (f : HallState → HallState) : (s.updHall h f).gopen = s.gopen := rfl
@[simp] theorem State.updHall_mbBad (s : State) (h : Nat) (f : HallState → HallState) : (s.updHall h f).mbBad = s.mbBad := rfl
@[simp] theorem State.updHall_fwInt (s : State) (h : Nat) (f : HallState → HallState) : (s.updHall h f).fwInt = s.fwInt := rfl
@[simp] theorem State.updHall_dma (s : State) (h : Nat) (f : HallState → HallState) : (s.updHall h f).dma = s.dma := rfl
@[simp] theorem State.updHall_msixOut (s : State) (h : Nat) (f : HallState → HallState) : (s.updHall h f).msixOut = s.msixOut := rfl
@[simp] theorem State.updHall_attic (s : State) (h : Nat) (f : HallState → HallState) : (s.updHall h f).attic = s.attic := rfl
@[simp] theorem State.updHall_tring (s : State) (h : Nat) (f : HallState → HallState) : (s.updHall h f).tring = s.tring := rfl
@[simp] theorem State.updHall_change (s : State) (h : Nat) (f : HallState → HallState) : (s.updHall h f).change = s.change := rfl
@[simp] theorem State.updHall_changes (s : State) (h : Nat) (f : HallState → HallState) : (s.updHall h f).changes = s.changes := rfl
@[simp] theorem State.updHall_changeGen (s : State) (h : Nat) (f : HallState → HallState) : (s.updHall h f).changeGen = s.changeGen := rfl
@[simp] theorem State.updHall_lim (s : State) (h : Nat) (f : HallState → HallState) : (s.updHall h f).lim = s.lim := rfl
@[simp] theorem State.updHall_missed (s : State) (h : Nat) (f : HallState → HallState) : (s.updHall h f).missed = s.missed := rfl
@[simp] theorem State.updHall_beacons (s : State) (h : Nat) (f : HallState → HallState) : (s.updHall h f).beacons = s.beacons := rfl
@[simp] theorem State.updHall_free (s : State) (h : Nat) (f : HallState → HallState) : (s.updHall h f).free = s.free := rfl
@[simp] theorem State.updHall_i3c (s : State) (h : Nat) (f : HallState → HallState) : (s.updHall h f).i3c = s.i3c := rfl
@[simp] theorem State.updHall_rails (s : State) (h : Nat) (f : HallState → HallState) : (s.updHall h f).rails = s.rails := rfl
@[simp] theorem State.updHall_clock (s : State) (h : Nat) (f : HallState → HallState) : (s.updHall h f).clock = s.clock := rfl
@[simp] theorem State.updHall_hearth (s : State) (h : Nat) (f : HallState → HallState) : (s.updHall h f).hearth = s.hearth := rfl
@[simp] theorem State.updHall_chain (s : State) (h : Nat) (f : HallState → HallState) : (s.updHall h f).chain = s.chain := rfl
@[simp] theorem State.updHall_age (s : State) (h : Nat) (f : HallState → HallState) : (s.updHall h f).age = s.age := rfl
@[simp] theorem State.updHall_flash (s : State) (h : Nat) (f : HallState → HallState) : (s.updHall h f).flash = s.flash := rfl
@[simp] theorem State.updHall_upd (s : State) (h : Nat) (f : HallState → HallState) : (s.updHall h f).upd = s.upd := rfl
@[simp] theorem State.updHall_start (s : State) (h : Nat) (f : HallState → HallState) : (s.updHall h f).start = s.start := rfl
@[simp] theorem State.updHall_pending (s : State) (h : Nat) (f : HallState → HallState) : (s.updHall h f).pending = s.pending := rfl

/-! ## useFree changes free only -/

@[simp] theorem State.useFree_aon (s : State) : (s.useFree).aon = s.aon := rfl
@[simp] theorem State.useFree_now (s : State) : (s.useFree).now = s.now := rfl
@[simp] theorem State.useFree_period (s : State) : (s.useFree).period = s.period := rfl
@[simp] theorem State.useFree_regs (s : State) : (s.useFree).regs = s.regs := rfl
@[simp] theorem State.useFree_limits (s : State) : (s.useFree).limits = s.limits := rfl
@[simp] theorem State.useFree_frac (s : State) : (s.useFree).frac = s.frac := rfl
@[simp] theorem State.useFree_frozen (s : State) : (s.useFree).frozen = s.frozen := rfl
@[simp] theorem State.useFree_freezeT (s : State) : (s.useFree).freezeT = s.freezeT := rfl
@[simp] theorem State.useFree_frozeAt (s : State) : (s.useFree).frozeAt = s.frozeAt := rfl
@[simp] theorem State.useFree_thaw (s : State) : (s.useFree).thaw = s.thaw := rfl
@[simp] theorem State.useFree_perDue (s : State) : (s.useFree).perDue = s.perDue := rfl
@[simp] theorem State.useFree_winDue (s : State) : (s.useFree).winDue = s.winDue := rfl
@[simp] theorem State.useFree_jobDue (s : State) : (s.useFree).jobDue = s.jobDue := rfl
@[simp] theorem State.useFree_ports (s : State) : (s.useFree).ports = s.ports := rfl
@[simp] theorem State.useFree_msix (s : State) : (s.useFree).msix = s.msix := rfl
@[simp] theorem State.useFree_faultSeq (s : State) : (s.useFree).faultSeq = s.faultSeq := rfl
@[simp] theorem State.useFree_pend (s : State) : (s.useFree).pend = s.pend := rfl
@[simp] theorem State.useFree_inject (s : State) : (s.useFree).inject = s.inject := rfl
@[simp] theorem State.useFree_force (s : State) : (s.useFree).force = s.force := rfl
@[simp] theorem State.useFree_pins (s : State) : (s.useFree).pins = s.pins := rfl
@[simp] theorem State.useFree_floorOn (s : State) : (s.useFree).floorOn = s.floorOn := rfl
@[simp] theorem State.useFree_svcUnder (s : State) : (s.useFree).svcUnder = s.svcUnder := rfl
@[simp] theorem State.useFree_phasesOut (s : State) : (s.useFree).phasesOut = s.phasesOut := rfl
@[simp] theorem State.useFree_dies (s : State) : (s.useFree).dies = s.dies := rfl
@[simp] theorem State.useFree_halls (s : State) : (s.useFree).halls = s.halls := rfl
@[simp] theorem State.useFree_lard (s : State) : (s.useFree).lard = s.lard := rfl
@[simp] theorem State.useFree_parts (s : State) : (s.useFree).parts = s.parts := rfl
@[simp] theorem State.useFree_rings (s : State) : (s.useFree).rings = s.rings := rfl
@[simp] theorem State.useFree_tel (s : State) : (s.useFree).tel = s.tel := rfl
@[simp] theorem State.useFree_telDecim (s : State) : (s.useFree).telDecim = s.telDecim := rfl
@[simp] theorem State.useFree_acct (s : State) : (s.useFree).acct = s.acct := rfl
@[simp] theorem State.useFree_gopen (s : State) : (s.useFree).gopen = s.gopen := rfl
@[simp] theorem State.useFree_mbBad (s : State) : (s.useFree).mbBad = s.mbBad := rfl
@[simp] theorem State.useFree_fwInt (s : State) : (s.useFree).fwInt = s.fwInt := rfl
@[simp] theorem State.useFree_dma (s : State) : (s.useFree).dma = s.dma := rfl
@[simp] theorem State.useFree_msixOut (s : State) : (s.useFree).msixOut = s.msixOut := rfl
@[simp] theorem State.useFree_attic (s : State) : (s.useFree).attic = s.attic := rfl
@[simp] theorem State.useFree_tring (s : State) : (s.useFree).tring = s.tring := rfl
@[simp] theorem State.useFree_change (s : State) : (s.useFree).change = s.change := rfl
@[simp] theorem State.useFree_changes (s : State) : (s.useFree).changes = s.changes := rfl
@[simp] theorem State.useFree_changeGen (s : State) : (s.useFree).changeGen = s.changeGen := rfl
@[simp] theorem State.useFree_lim (s : State) : (s.useFree).lim = s.lim := rfl
@[simp] theorem State.useFree_missed (s : State) : (s.useFree).missed = s.missed := rfl
@[simp] theorem State.useFree_beacons (s : State) : (s.useFree).beacons = s.beacons := rfl
@[simp] theorem State.useFree_i3c (s : State) : (s.useFree).i3c = s.i3c := rfl
@[simp] theorem State.useFree_ctrl (s : State) : (s.useFree).ctrl = s.ctrl := rfl
@[simp] theorem State.useFree_rails (s : State) : (s.useFree).rails = s.rails := rfl
@[simp] theorem State.useFree_clock (s : State) : (s.useFree).clock = s.clock := rfl
@[simp] theorem State.useFree_hearth (s : State) : (s.useFree).hearth = s.hearth := rfl
@[simp] theorem State.useFree_chain (s : State) : (s.useFree).chain = s.chain := rfl
@[simp] theorem State.useFree_age (s : State) : (s.useFree).age = s.age := rfl
@[simp] theorem State.useFree_flash (s : State) : (s.useFree).flash = s.flash := rfl
@[simp] theorem State.useFree_upd (s : State) : (s.useFree).upd = s.upd := rfl
@[simp] theorem State.useFree_start (s : State) : (s.useFree).start = s.start := rfl
@[simp] theorem State.useFree_pending (s : State) : (s.useFree).pending = s.pending := rfl

end Sys2Proof.Machine
end

