-- ==== Sys2Proof/Laws/Store.lean ====
section
/-!
SUPPORT. Sys2Proof/Laws/Store.lean: what a read of a sparse table gives after each operation on it, and that sealing a table
puts it in canonical form and changes no read.
-/
namespace Sys2Proof.Machine
variable {κ α : Type} [DecidableEq κ]

@[simp] theorem Store.get_nil (d : κ → α) (k : κ) : Store.get d [] k = d k := rfl

theorem Store.get_cons (d : κ → α) (a : κ) (v : α) (l : Store κ α) (k : κ) :
    Store.get d ((a, v) :: l) k = if a = k then v else Store.get d l k := rfl

theorem Store.get_set (d : κ → α) (l : Store κ α) (a : κ) (v : α) (k : κ) :
    Store.get d (Store.set l a v) k = if a = k then v else Store.get d l k := rfl

@[simp] theorem Store.get_set_same (d : κ → α) (l : Store κ α) (k : κ) (v : α) : Store.get d (Store.set l k v) k = v := by
  simp [Store.get_set]

theorem Store.get_set_other (d : κ → α) (l : Store κ α) {a k : κ} (v : α) (h : a ≠ k) :
    Store.get d (Store.set l a v) k = Store.get d l k := by
  simp [Store.get_set, h]

theorem Store.get_upd (d : κ → α) (l : Store κ α) (a : κ) (f : α → α) (k : κ) :
    Store.get d (Store.upd d l a f) k = if a = k then f (Store.get d l a) else Store.get d l k := rfl

@[simp] theorem Store.get_upd_same (d : κ → α) (l : Store κ α) (k : κ) (f : α → α) :
    Store.get d (Store.upd d l k f) k = f (Store.get d l k) := by
  simp [Store.get_upd]

theorem Store.get_upd_other (d : κ → α) (l : Store κ α) {a k : κ} (f : α → α) (h : a ≠ k) :
    Store.get d (Store.upd d l a f) k = Store.get d l k := by
  simp [Store.get_upd, h]

/-- A pair put in its place is read at its key and changes no other read, whether or not the list rises. -/
theorem Store.get_insert (lt : κ → κ → Bool) (d : κ → α) (a : κ) (v : α) (l : Store κ α) (k : κ) :
    Store.get d (Store.insert lt a v l) k = if a = k then v else Store.get d l k := by
  fun_induction Store.insert lt a v l <;> grind [Store.get_cons, Store.get_nil]

/-- A key dropped reads as its default; no other read changes. -/
theorem Store.get_drop (d : κ → α) (a : κ) (l : Store κ α) (k : κ) :
    Store.get d (Store.drop a l) k = if a = k then d k else Store.get d l k := by
  fun_induction Store.drop a l <;> grind [Store.get_cons, Store.get_nil]

/-- Sealing a table changes no read. -/
@[simp] theorem Store.get_seal [DecidableEq α] (lt : κ → κ → Bool) (d : κ → α) (l : Store κ α) (k : κ) :
    Store.get d (Store.seal lt d l) k = Store.get d l k := by
  fun_induction Store.seal lt d l <;> grind [Store.get_cons, Store.get_drop, Store.get_insert]

/-- Every pair but the first of a sealed list holds a greater key, and none its default. -/
def Store.rising (lt : κ → κ → Bool) (d : κ → α) (l : Store κ α) : Prop :=
  l.Pairwise (fun a b => lt a.1 b.1 = true) ∧ ∀ e ∈ l, e.2 ≠ d e.1

/-- A strict order in which any two keys that are not equal stand one before the other. -/
structure StrictOrder (lt : κ → κ → Bool) : Prop where
  irrefl : ∀ a, lt a a = false
  trans : ∀ a b c, lt a b = true → lt b c = true → lt a c = true
  total : ∀ a b, a ≠ b → lt a b = true ∨ lt b a = true

theorem Store.mem_insert {lt : κ → κ → Bool} {a : κ} {v : α} {l : Store κ α} {e : κ × α}
    (h : e ∈ Store.insert lt a v l) : e = (a, v) ∨ e ∈ l := by
  fun_induction Store.insert lt a v l <;> grind

theorem Store.mem_drop {a : κ} {l : Store κ α} {e : κ × α} (h : e ∈ Store.drop a l) : e ∈ l := by
  fun_induction Store.drop a l <;> grind

theorem Store.rising_insert {lt : κ → κ → Bool} (ho : StrictOrder lt) (d : κ → α) {a : κ} {v : α} (hv : v ≠ d a)
    {l : Store κ α} (h : Store.rising lt d l) : Store.rising lt d (Store.insert lt a v l) := by
  have mem (l : Store κ α) (e : κ × α) : e ∈ Store.insert lt a v l → e = (a, v) ∨ e ∈ l := Store.mem_insert
  have before := ho.total
  have trans := ho.trans
  unfold Store.rising at *
  fun_induction Store.insert lt a v l <;> simp only [List.pairwise_cons, List.forall_mem_cons] at * <;> grind

theorem Store.drop_sublist (a : κ) (l : Store κ α) : List.Sublist (Store.drop a l) l := by
  fun_induction Store.drop a l <;> grind

theorem Store.rising_seal [DecidableEq α] {lt : κ → κ → Bool} (ho : StrictOrder lt) (d : κ → α) (l : Store κ α) :
    Store.rising lt d (Store.seal lt d l) := by
  induction l with
  | nil => simp [Store.rising, Store.seal]
  | cons e l ih =>
    obtain ⟨a, v⟩ := e
    unfold Store.seal
    split
    · exact ⟨ih.1.sublist (Store.drop_sublist a _), fun e he => ih.2 e (Store.mem_drop he)⟩
    · rename_i hv
      exact Store.rising_insert ho d hv ih

omit [DecidableEq κ] in
theorem Store.wf_of_rising [DecidableEq α] {lt : κ → κ → Bool} {d : κ → α} {l : Store κ α}
    (h : Store.rising lt d l) : Store.wf lt d l = true := by
  unfold Store.rising at h
  fun_induction Store.wf lt d l <;> simp_all <;> grind

/-- A sealed table is in canonical form. -/
theorem Store.wf_seal [DecidableEq α] {lt : κ → κ → Bool} (ho : StrictOrder lt) (d : κ → α) (l : Store κ α) :
    Store.wf lt d (Store.seal lt d l) = true :=
  Store.wf_of_rising (Store.rising_seal ho d l)

theorem natLt_order : StrictOrder natLt where
  irrefl a := by simp [natLt]
  trans a b c h1 h2 := by simp only [natLt, decide_eq_true_eq] at *; omega
  total a b h := by simp only [natLt, decide_eq_true_eq]; omega

end Sys2Proof.Machine
end

