-- ==== Sys2Proof/Laws/Ops.lean ====
section
/-!
SUPPORT. Sys2Proof/Laws/Ops.lean: what each named operation of Machine/Ops.lean does, said once: reads after writes, the guard
under which a command runs, time, and the lower-only fields.
-/
namespace Sys2Proof.Machine

/-! ## Reading a register element after a write -/

theorem State.reg_put (s : State) (a : FieldRef) (v : Nat) (r : FieldRef) :
    (s.put a v).reg r = if a = r ∧ a.exists = true then v % 2 ^ (fieldDef a.f).width else s.reg r := by
  by_cases he : a.exists = true
  · by_cases hr : a = r
    · subst hr
      cases hl : a.f.isLimit <;> simp [State.put, State.reg, he, hl]
    · cases hl : a.f.isLimit <;> simp [State.put, State.reg, he, hl, hr, Store.get_set]
  · simp [State.put, he]

/-- An element that exists reads back what was written, cut to its width. -/
theorem State.reg_put_same (s : State) {r : FieldRef} (v : Nat) (h : r.exists = true) :
    (s.put r v).reg r = v % 2 ^ (fieldDef r.f).width := by
  simp [State.reg_put, h]

/-- A write changes no other element. -/
theorem State.reg_put_other (s : State) {a r : FieldRef} (v : Nat) (h : a ≠ r) : (s.put a v).reg r = s.reg r := by
  simp [State.reg_put, h]

/-- An element that does not exist reads as zero (R5). -/
theorem State.reg_absent (s : State) {r : FieldRef} (h : r.exists = false) : s.reg r = 0 := by
  simp [State.reg, h]

theorem State.rd_wr (s : State) (a : Field) (v ai aj : Nat) (f : Field) (i j : Nat) :
    (s.wr a v ai aj).rd f i j =
      if (⟨a, ai, aj⟩ : FieldRef) = ⟨f, i, j⟩ ∧ (⟨a, ai, aj⟩ : FieldRef).exists = true then v % 2 ^ (fieldDef a).width
      else s.rd f i j :=
  State.reg_put s ⟨a, ai, aj⟩ v ⟨f, i, j⟩

theorem State.rd_wr_same (s : State) (f : Field) (v i j : Nat) (h : (⟨f, i, j⟩ : FieldRef).exists = true) :
    (s.wr f v i j).rd f i j = v % 2 ^ (fieldDef f).width :=
  State.reg_put_same s v h

/-- A write to one field changes no element of another. -/
theorem State.rd_wr_field (s : State) {a f : Field} (v ai aj i j : Nat) (h : a ≠ f) :
    (s.wr a v ai aj).rd f i j = s.rd f i j :=
  State.reg_put_other s v (by intro e; exact h (congrArg FieldRef.f e))

/-- A read depends on the two register tables only. -/
theorem State.reg_congr {s t : State} (hr : t.regs = s.regs) (hl : t.limits = s.limits) (r : FieldRef) : t.reg r = s.reg r := by
  simp [State.reg, hr, hl]

theorem State.rd_congr {s t : State} (hr : t.regs = s.regs) (hl : t.limits = s.limits) (f : Field) (i j : Nat) :
    t.rd f i j = s.rd f i j :=
  State.reg_congr hr hl ⟨f, i, j⟩

@[simp] theorem State.rd_updDie (s : State) (d : Nat) (g : DieState → DieState) (f : Field) (i j : Nat) :
    (s.updDie d g).rd f i j = s.rd f i j := rfl
@[simp] theorem State.rd_updHd (s : State) (d : Nat) (g : HallDie → HallDie) (f : Field) (i j : Nat) :
    (s.updHd d g).rd f i j = s.rd f i j := rfl
@[simp] theorem State.rd_updPart (s : State) (p : Nat) (g : PartState → PartState) (f : Field) (i j : Nat) :
    (s.updPart p g).rd f i j = s.rd f i j := rfl
@[simp] theorem State.rd_updRing (s : State) (n : Nat) (g : RingState → RingState) (f : Field) (i j : Nat) :
    (s.updRing n g).rd f i j = s.rd f i j := rfl
@[simp] theorem State.rd_updRail (s : State) (r : Nat) (g : RailState → RailState) (f : Field) (i j : Nat) :
    (s.updRail r g).rd f i j = s.rd f i j := rfl
@[simp] theorem State.rd_updPort (s : State) (p : Port) (g : PortState → PortState) (f : Field) (i j : Nat) :
    (s.updPort p g).rd f i j = s.rd f i j := rfl
@[simp] theorem State.rd_updMsix (s : State) (p : Port) (g : MsixState → MsixState) (f : Field) (i j : Nat) :
    (s.updMsix p g).rd f i j = s.rd f i j := rfl
@[simp] theorem State.rd_updHall (s : State) (h : Nat) (g : HallState → HallState) (f : Field) (i j : Nat) :
    (s.updHall h g).rd f i j = s.rd f i j := rfl
@[simp] theorem State.rd_useFree (s : State) (f : Field) (i j : Nat) : s.useFree.rd f i j = s.rd f i j := rfl

/-! ## Reading a structure after it has been changed -/

theorem State.die_updDie (s : State) (d : Nat) (f : DieState → DieState) (e : Nat) :
    (s.updDie d f).die e = if d = e then f (s.die d) else s.die e := rfl
theorem State.hd_updHd (s : State) (d : Nat) (f : HallDie → HallDie) (e : Nat) :
    (s.updHd d f).hd e = if d = e then f (s.hd d) else s.hd e := rfl
theorem State.part_updPart (s : State) (p : Nat) (f : PartState → PartState) (q : Nat) :
    (s.updPart p f).part q = if p = q then f (s.part p) else s.part q := rfl
theorem State.ring_updRing (s : State) (n : Nat) (f : RingState → RingState) (m : Nat) :
    (s.updRing n f).ring m = if n = m then f (s.ring n) else s.ring m := rfl
theorem State.rail_updRail (s : State) (r : Nat) (f : RailState → RailState) (q : Nat) :
    (s.updRail r f).rail q = if r = q then f (s.rail r) else s.rail q := rfl
theorem State.hall_updHall (s : State) (h : Nat) (f : HallState → HallState) (k : Nat) :
    (s.updHall h f).hall k = if h = k then f (s.hall h) else s.hall k := rfl

theorem Port.num_inj {p q : Port} (h : p.num = q.num) : p = q := by
  cases p <;> cases q <;> first | rfl | exact absurd h (by decide)

theorem State.port_updPort (s : State) (p : Port) (f : PortState → PortState) (q : Port) :
    (s.updPort p f).port q = if p = q then f (s.port p) else s.port q := by
  by_cases h : p = q
  · subst h; simp [State.updPort, State.port]
  · have hn : p.num ≠ q.num := fun e => h (Port.num_inj e)
    simp [State.updPort, State.port, Store.get_upd_other _ _ _ hn, h]

/-! ## The orders of the tables -/

theorem ctorIdx_inj : ∀ a b : Field, a.ctorIdx = b.ctorIdx → a = b := by
  intro a b h
  have key : ∀ x : Field, (Field.ofNat x.ctorIdx) = x := by intro x; cases x <;> rfl
  rw [← key a, ← key b, h]

theorem fieldRefLt_iff (a b : FieldRef) : FieldRef.lt a b = true ↔
    a.f.ctorIdx < b.f.ctorIdx ∨ (a.f.ctorIdx = b.f.ctorIdx ∧ (a.i < b.i ∨ (a.i = b.i ∧ a.j < b.j))) := by
  simp [FieldRef.lt]

theorem fieldRefLt_order : StrictOrder FieldRef.lt where
  irrefl a := by
    have : ¬ FieldRef.lt a a = true := by rw [fieldRefLt_iff]; omega
    simpa using this
  trans a b c h1 h2 := by rw [fieldRefLt_iff] at *; omega
  total a b h := by
    rw [fieldRefLt_iff, fieldRefLt_iff]
    by_cases hf : a.f.ctorIdx = b.f.ctorIdx
    · have hf' := ctorIdx_inj _ _ hf
      obtain ⟨f, i, j⟩ := a
      obtain ⟨g, k, l⟩ := b
      simp only at hf hf'
      subst hf'
      simp only [ne_eq, FieldRef.mk.injEq, true_and, not_and] at h
      by_cases hi : i = k
      · have := h hi
        simp only [hi, true_and, lt_self_iff_false, false_or]
        omega
      · simp only [lt_self_iff_false, true_and, false_or]
        omega
    · omega

/-! ## The guard -/

@[simp] theorem State.commit_pending (s n : State) : (s.commit n).pending = s.pending := rfl
@[simp] theorem State.commit_limits (s n : State) : (s.commit n).limits = s.limits := rfl
@[simp] theorem State.commit_aon (s n : State) : (s.commit n).aon = n.aon := rfl
@[simp] theorem State.commit_now (s n : State) : (s.commit n).now = max s.now n.now := rfl

/-- A register field that is not lower-only reads after the guard as the command left it. -/
theorem State.rd_commit (s n : State) (f : Field) (i j : Nat) (h : f.isLimit = false) :
    (s.commit n).rd f i j = n.rd f i j := by
  simp [State.rd, State.reg, h, State.commit]

/-- A lower-only field reads after the guard as before the command. -/
theorem State.rd_commit_limit (s n : State) (f : Field) (i j : Nat) (h : f.isLimit = true) :
    (s.commit n).rd f i j = s.rd f i j := by
  simp [State.rd, State.reg, h]

@[simp] theorem State.die_commit (s n : State) (d : Nat) : (s.commit n).die d = n.die d := by simp [State.die, State.commit]
@[simp] theorem State.hd_commit (s n : State) (d : Nat) : (s.commit n).hd d = n.hd d := by simp [State.hd, State.commit]
@[simp] theorem State.part_commit (s n : State) (p : Nat) : (s.commit n).part p = n.part p := by
  simp [State.part, State.commit]
@[simp] theorem State.ring_commit (s n : State) (k : Nat) : (s.commit n).ring k = n.ring k := by
  simp [State.ring, State.commit]
@[simp] theorem State.rail_commit (s n : State) (r : Nat) : (s.commit n).rail r = n.rail r := by
  simp [State.rail, State.commit]
@[simp] theorem State.hall_commit (s n : State) (h : Nat) : (s.commit n).hall h = n.hall h := by
  simp [State.hall, State.commit]
@[simp] theorem State.port_commit (s n : State) (p : Port) : (s.commit n).port p = n.port p := by
  simp [State.port, State.commit]
@[simp] theorem State.msixOf_commit (s n : State) (p : Port) : (s.commit n).msixOf p = n.msixOf p := by
  simp [State.msixOf, State.commit]

/-- Everything a command under the guard can answer. -/
theorem State.run_cases {s : State} {f : State → State} {o : Host.Outcome State Fault Refusal} (h : s.run f = o) :
    (s.aon = true ∧ o = .next (s.commit (f s))) ∨ (s.aon = false ∧ o = .fault .noSupply) := by
  subst h
  cases ha : s.aon <;> simp [State.run, ha]

theorem State.run_on {s : State} (f : State → State) (h : s.aon = true) : s.run f = .next (s.commit (f s)) := by
  simp [State.run, h]

theorem State.run_off {s : State} (f : State → State) (h : s.aon = false) : s.run f = .fault .noSupply := by
  simp [State.run, h]

theorem State.runLower_on {s : State} (f : State → State) (h : s.aon = true) :
    s.runLower f = .next { s.commit (f s) with limits := lowered s.limits (f s).limits } := by
  simp [State.runLower, h]

theorem State.runLower_off {s : State} (f : State → State) (h : s.aon = false) : s.runLower f = .fault .noSupply := by
  simp [State.runLower, h]

/-- Everything a command that may lower limits can answer. -/
theorem State.runLower_cases {s : State} {f : State → State} {o : Host.Outcome State Fault Refusal} (h : s.runLower f = o) :
    (s.aon = true ∧ o = .next { s.commit (f s) with limits := lowered s.limits (f s).limits }) ∨
      (s.aon = false ∧ o = .fault .noSupply) := by
  subst h
  cases ha : s.aon <;> simp [State.runLower, ha]

/-! ## Lower-only fields -/

theorem limitLe_refl (f : Field) (a : Nat) : limitLe f a a = true := by unfold limitLe; split <;> simp

/-- What a lowered table holds: for each element a value not above the old one (R7). -/
theorem lowered_le (old new : Store FieldRef Nat) (r : FieldRef) :
    limitLe r.f (Store.get FieldRef.reset (lowered old new) r) (Store.get FieldRef.reset old r) = true := by
  unfold lowered
  rw [Store.get_seal]
  induction new with
  | nil => simpa using limitLe_refl _ _
  | cons e l ih =>
    obtain ⟨a, v⟩ := e
    by_cases hv : limitLe a.f v (Store.get FieldRef.reset old a) = true
    · simp only [hv, List.filter_cons_of_pos, List.cons_append, Store.get_cons]
      split
      · rename_i h; subst h; exact hv
      · exact ih
    · simp only [hv, Bool.false_eq_true, not_false_eq_true, List.filter_cons_of_neg]
      exact ih

/-! ## Time -/

@[simp] theorem State.advanceTo_now (s : State) (t : Nat) : (s.advanceTo t).now = max s.now t := by
  unfold State.advanceTo
  split
  · simp only; omega
  · omega

end Sys2Proof.Machine
end

