-- ==== Sys2Proof/Laws/Exec.lean ====
section
/-!
SUPPORT. Sys2Proof/Laws/Exec.lean: every command but POWER_ON and AON_REMOVED runs under the guard, and which of them may lower lower-only
fields.
-/
namespace Sys2Proof.Machine

/-- The commands through which lower-only fields may be lowered (R7, R8, R333, R376). -/
def mayLower : Instr → Bool
  | .registerWrite _ _ _ _ _ | .upperHalfWrite _ _ _ | .i3cPrivateWrite _ | .policyApply _ => true
  | _ => false

/-- The form that every command's meaning has. -/
theorem exec_form (c : Instr) (s : State) :
    (mayLower c = false ∧ ∃ f, exec c s = s.run f) ∨ (mayLower c = true ∧ ∃ f, exec c s = s.runLower f) ∨
      (c = .powerOn ∧ exec c s = .next (if s.aon then s else s.light)) ∨
      (c = .aonRemoved ∧ exec c s = .next (if s.aon then s.dark else s)) := by
  cases c with
  | registerWrite port addr val width hw => exact .inr (.inl ⟨rfl, by change ∃ g, execRegisterWrite port addr val width hw s = _; unfold execRegisterWrite; exact ⟨_, rfl⟩⟩)
  | lowerHalfRead port addr => exact .inl ⟨rfl, by change ∃ g, execLowerHalfRead port addr s = _; unfold execLowerHalfRead; exact ⟨_, rfl⟩⟩
  | upperHalfWrite port addr val => exact .inr (.inl ⟨rfl, by change ∃ g, execUpperHalfWrite port addr val s = _; unfold execUpperHalfWrite; exact ⟨_, rfl⟩⟩)
  | rcRead port addr hw => exact .inl ⟨rfl, by change ∃ g, execRcRead port addr hw s = _; unfold execRcRead; exact ⟨_, rfl⟩⟩
  | warmReset dom => exact .inl ⟨rfl, by change ∃ g, execWarmReset dom s = _; unfold execWarmReset; exact ⟨_, rfl⟩⟩
  | powerOn => exact .inr (.inr (.inl ⟨rfl, rfl⟩))
  | aonRemoved => exact .inr (.inr (.inr ⟨rfl, rfl⟩))
  | dieAgentReset die => exact .inl ⟨rfl, by change ∃ g, execDieAgentReset die s = _; unfold execDieAgentReset; exact ⟨_, rfl⟩⟩
  | dieAdmit die => exact .inl ⟨rfl, by change ∃ g, execDieAdmit die s = _; unfold execDieAdmit; exact ⟨_, rfl⟩⟩
  | periodBoundary ins => exact .inl ⟨rfl, by change ∃ g, execPeriodBoundary ins s = _; unfold execPeriodBoundary; exact ⟨_, rfl⟩⟩
  | reportReceived hall die parityOk late => exact .inl ⟨rfl, by change ∃ g, execReportReceived hall die parityOk late s = _; unfold execReportReceived; exact ⟨_, rfl⟩⟩
  | samplingInstant => exact .inl ⟨rfl, by change ∃ g, execSamplingInstant s = _; unfold execSamplingInstant; exact ⟨_, rfl⟩⟩
  | grantReceived die parityOk => exact .inl ⟨rfl, by change ∃ g, execGrantReceived die parityOk s = _; unfold execGrantReceived; exact ⟨_, rfl⟩⟩
  | beaconReceived => exact .inl ⟨rfl, by change ∃ g, execBeaconReceived s = _; unfold execBeaconReceived; exact ⟨_, rfl⟩⟩
  | beaconMissed => exact .inl ⟨rfl, by change ∃ g, execBeaconMissed s = _; unfold execBeaconMissed; exact ⟨_, rfl⟩⟩
  | hallForcingFault kind => exact .inl ⟨rfl, by change ∃ g, execHallForcingFault kind s = _; unfold execHallForcingFault; exact ⟨_, rfl⟩⟩
  | stewardEntry die => exact .inl ⟨rfl, by change ∃ g, execStewardEntry die s = _; unfold execStewardEntry; exact ⟨_, rfl⟩⟩
  | stewardHoldEnd die => exact .inl ⟨rfl, by change ∃ g, execStewardHoldEnd die s = _; unfold execStewardHoldEnd; exact ⟨_, rfl⟩⟩
  | stewardTimeout => exact .inl ⟨rfl, by change ∃ g, execStewardTimeout s = _; unfold execStewardTimeout; exact ⟨_, rfl⟩⟩
  | standbyRejoin => exact .inl ⟨rfl, by change ∃ g, execStandbyRejoin s = _; unfold execStandbyRejoin; exact ⟨_, rfl⟩⟩
  | powerAlertAssert => exact .inl ⟨rfl, by change ∃ g, execPowerAlertAssert s = _; unfold execPowerAlertAssert; exact ⟨_, rfl⟩⟩
  | powerAlertRelease => exact .inl ⟨rfl, by change ∃ g, execPowerAlertRelease s = _; unfold execPowerAlertRelease; exact ⟨_, rfl⟩⟩
  | throttleEdge level => exact .inl ⟨rfl, by change ∃ g, execThrottleEdge level s = _; unfold execThrottleEdge; exact ⟨_, rfl⟩⟩
  | descriptorEntersWindow die core eng queue pw => exact .inl ⟨rfl, by change ∃ g, execDescriptorEntersWindow die core eng queue pw s = _; unfold execDescriptorEntersWindow; exact ⟨_, rfl⟩⟩
  | stepRequest die core eng => exact .inl ⟨rfl, by change ∃ g, execStepRequest die core eng s = _; unfold execStepRequest; exact ⟨_, rfl⟩⟩
  | invocationComplete die core eng m => exact .inl ⟨rfl, by change ∃ g, execInvocationComplete die core eng m s = _; unfold execInvocationComplete; exact ⟨_, rfl⟩⟩
  | computeRecoveryReset die => exact .inl ⟨rfl, by change ∃ g, execComputeRecoveryReset die s = _; unfold execComputeRecoveryReset; exact ⟨_, rfl⟩⟩
  | admissionArbitration die => exact .inl ⟨rfl, by change ∃ g, execAdmissionArbitration die s = _; unfold execAdmissionArbitration; exact ⟨_, rfl⟩⟩
  | railSlot rail inp => exact .inl ⟨rfl, by change ∃ g, execRailSlot rail inp s = _; unfold execRailSlot; exact ⟨_, rfl⟩⟩
  | pulseCurrentLimit rail phase cur sum => exact .inl ⟨rfl, by change ∃ g, execPulseCurrentLimit rail phase cur sum s = _; unfold execPulseCurrentLimit; exact ⟨_, rfl⟩⟩
  | imonMask rail phase => exact .inl ⟨rfl, by change ∃ g, execImonMask rail phase s = _; unfold execImonMask; exact ⟨_, rfl⟩⟩
  | vmaxCut rail => exact .inl ⟨rfl, by change ∃ g, execVmaxCut rail s = _; unfold execVmaxCut; exact ⟨_, rfl⟩⟩
  | phaseShed rail => exact .inl ⟨rfl, by change ∃ g, execPhaseShed rail s = _; unfold execPhaseShed; exact ⟨_, rfl⟩⟩
  | compCommit rail => exact .inl ⟨rfl, by change ∃ g, execCompCommit rail s = _; unfold execCompCommit; exact ⟨_, rfl⟩⟩
  | railEnable rail => exact .inl ⟨rfl, by change ∃ g, execRailEnable rail s = _; unfold execRailEnable; exact ⟨_, rfl⟩⟩
  | railDisable rail => exact .inl ⟨rfl, by change ∃ g, execRailDisable rail s = _; unfold execRailDisable; exact ⟨_, rfl⟩⟩
  | checkInputPresent rail => exact .inl ⟨rfl, by change ∃ g, execCheckInputPresent rail s = _; unfold execCheckInputPresent; exact ⟨_, rfl⟩⟩
  | checkInputTimeout rail => exact .inl ⟨rfl, by change ∃ g, execCheckInputTimeout rail s = _; unfold execCheckInputTimeout; exact ⟨_, rfl⟩⟩
  | checkDecayed rail => exact .inl ⟨rfl, by change ∃ g, execCheckDecayed rail s = _; unfold execCheckDecayed; exact ⟨_, rfl⟩⟩
  | checkDecayTimeout rail => exact .inl ⟨rfl, by change ∃ g, execCheckDecayTimeout rail s = _; unfold execCheckDecayTimeout; exact ⟨_, rfl⟩⟩
  | checkWindowEnd rail offs => exact .inl ⟨rfl, by change ∃ g, execCheckWindowEnd rail offs s = _; unfold execCheckWindowEnd; exact ⟨_, rfl⟩⟩
  | railStartTimeout rail => exact .inl ⟨rfl, by change ∃ g, execRailStartTimeout rail s = _; unfold execRailStartTimeout; exact ⟨_, rfl⟩⟩
  | hiccupEntry rail tmon => exact .inl ⟨rfl, by change ∃ g, execHiccupEntry rail tmon s = _; unfold execHiccupEntry; exact ⟨_, rfl⟩⟩
  | hiccupEnd rail => exact .inl ⟨rfl, by change ∃ g, execHiccupEnd rail s = _; unfold execHiccupEnd; exact ⟨_, rfl⟩⟩
  | consecClear rail => exact .inl ⟨rfl, by change ∃ g, execConsecClear rail s = _; unfold execConsecClear; exact ⟨_, rfl⟩⟩
  | railInputLost rail => exact .inl ⟨rfl, by change ∃ g, execRailInputLost rail s = _; unfold execRailInputLost; exact ⟨_, rfl⟩⟩
  | railDownComplete rail => exact .inl ⟨rfl, by change ∃ g, execRailDownComplete rail s = _; unfold execRailDownComplete; exact ⟨_, rfl⟩⟩
  | railTel1s rail => exact .inl ⟨rfl, by change ∃ g, execRailTel1s rail s = _; unfold execRailTel1s; exact ⟨_, rfl⟩⟩
  | hearthBoundary => exact .inl ⟨rfl, by change ∃ g, execHearthBoundary s = _; unfold execHearthBoundary; exact ⟨_, rfl⟩⟩
  | accumulatorCheckpoint => exact .inl ⟨rfl, by change ∃ g, execAccumulatorCheckpoint s = _; unfold execAccumulatorCheckpoint; exact ⟨_, rfl⟩⟩
  | hearthRunCommit => exact .inl ⟨rfl, by change ∃ g, execHearthRunCommit s = _; unfold execHearthRunCommit; exact ⟨_, rfl⟩⟩
  | hearthRunMissed => exact .inl ⟨rfl, by change ∃ g, execHearthRunMissed s = _; unfold execHearthRunMissed; exact ⟨_, rfl⟩⟩
  | thermalConversion die idx raw => exact .inl ⟨rfl, by change ∃ g, execThermalConversion die idx raw s = _; unfold execThermalConversion; exact ⟨_, rfl⟩⟩
  | lintelTripRelease => exact .inl ⟨rfl, by change ∃ g, execLintelTripRelease s = _; unfold execLintelTripRelease; exact ⟨_, rfl⟩⟩
  | sensorSelftest die idx err => exact .inl ⟨rfl, by change ∃ g, execSensorSelftest die idx err s = _; unfold execSensorSelftest; exact ⟨_, rfl⟩⟩
  | inletWrite port val => exact .inl ⟨rfl, by change ∃ g, execInletWrite port val s = _; unfold execInletWrite; exact ⟨_, rfl⟩⟩
  | inletStale => exact .inl ⟨rfl, by change ∃ g, execInletStale s = _; unfold execInletStale; exact ⟨_, rfl⟩⟩
  | windowLatch1s => exact .inl ⟨rfl, by change ∃ g, execWindowLatch1s s = _; unfold execWindowLatch1s; exact ⟨_, rfl⟩⟩
  | windowLatch30s => exact .inl ⟨rfl, by change ∃ g, execWindowLatch30s s = _; unfold execWindowLatch30s; exact ⟨_, rfl⟩⟩
  | telemetrySample die => exact .inl ⟨rfl, by change ∃ g, execTelemetrySample die s = _; unfold execTelemetrySample; exact ⟨_, rfl⟩⟩
  | statementPeriodic part => exact .inl ⟨rfl, by change ∃ g, execStatementPeriodic part s = _; unfold execStatementPeriodic; exact ⟨_, rfl⟩⟩
  | statementDelivery rs => exact .inl ⟨rfl, by change ∃ g, execStatementDelivery rs s = _; unfold execStatementDelivery; exact ⟨_, rfl⟩⟩
  | xtalAmplitude x => exact .inl ⟨rfl, by change ∃ g, execXtalAmplitude x s = _; unfold execXtalAmplitude; exact ⟨_, rfl⟩⟩
  | xtalStable x => exact .inl ⟨rfl, by change ∃ g, execXtalStable x s = _; unfold execXtalStable; exact ⟨_, rfl⟩⟩
  | xtalLoss x => exact .inl ⟨rfl, by change ∃ g, execXtalLoss x s = _; unfold execXtalLoss; exact ⟨_, rfl⟩⟩
  | xtalTimeout x => exact .inl ⟨rfl, by change ∃ g, execXtalTimeout x s = _; unfold execXtalTimeout; exact ⟨_, rfl⟩⟩
  | xtalRetry x => exact .inl ⟨rfl, by change ∃ g, execXtalRetry x s = _; unfold execXtalRetry; exact ⟨_, rfl⟩⟩
  | oscTrimGate beacons count => exact .inl ⟨rfl, by change ∃ g, execOscTrimGate beacons count s = _; unfold execOscTrimGate; exact ⟨_, rfl⟩⟩
  | refSwitch => exact .inl ⟨rfl, by change ∃ g, execRefSwitch s = _; unfold execRefSwitch; exact ⟨_, rfl⟩⟩
  | pllLossOfLock die => exact .inl ⟨rfl, by change ∃ g, execPllLossOfLock die s = _; unfold execPllLossOfLock; exact ⟨_, rfl⟩⟩
  | pllRelock die => exact .inl ⟨rfl, by change ∃ g, execPllRelock die s = _; unfold execPllRelock; exact ⟨_, rfl⟩⟩
  | pllHoldoverTimeout die => exact .inl ⟨rfl, by change ∃ g, execPllHoldoverTimeout die s = _; unfold execPllHoldoverTimeout; exact ⟨_, rfl⟩⟩
  | divisorRampStep tgt => exact .inl ⟨rfl, by change ∃ g, execDivisorRampStep tgt s = _; unfold execDivisorRampStep; exact ⟨_, rfl⟩⟩
  | droopTrip die det tap queue => exact .inl ⟨rfl, by change ∃ g, execDroopTrip die det tap queue s = _; unfold execDroopTrip; exact ⟨_, rfl⟩⟩
  | droopHoldEnd die dom cycles => exact .inl ⟨rfl, by change ∃ g, execDroopHoldEnd die dom cycles s = _; unfold execDroopHoldEnd; exact ⟨_, rfl⟩⟩
  | droopReleaseStep die dom => exact .inl ⟨rfl, by change ∃ g, execDroopReleaseStep die dom s = _; unfold execDroopReleaseStep; exact ⟨_, rfl⟩⟩
  | detectorSelftest die hi lo => exact .inl ⟨rfl, by change ∃ g, execDetectorSelftest die hi lo s = _; unfold execDetectorSelftest; exact ⟨_, rfl⟩⟩
  | detectorTargetedTest die det forced quiet sweep => exact .inl ⟨rfl, by change ∃ g, execDetectorTargetedTest die det forced quiet sweep s = _; unfold execDetectorTargetedTest; exact ⟨_, rfl⟩⟩
  | droopPersist die dom => exact .inl ⟨rfl, by change ∃ g, execDroopPersist die dom s = _; unfold execDroopPersist; exact ⟨_, rfl⟩⟩
  | droopPersistLong die dom => exact .inl ⟨rfl, by change ∃ g, execDroopPersistLong die dom s = _; unfold execDroopPersistLong; exact ⟨_, rfl⟩⟩
  | larderUpdateRecord ecc => exact .inl ⟨rfl, by change ∃ g, execLarderUpdateRecord ecc s = _; unfold execLarderUpdateRecord; exact ⟨_, rfl⟩⟩
  | larderLookupRequest die ecc => exact .inl ⟨rfl, by change ∃ g, execLarderLookupRequest die ecc s = _; unfold execLarderLookupRequest; exact ⟨_, rfl⟩⟩
  | cellarReadComplete ecc => exact .inl ⟨rfl, by change ∃ g, execCellarReadComplete ecc s = _; unfold execCellarReadComplete; exact ⟨_, rfl⟩⟩
  | lookupReply die => exact .inl ⟨rfl, by change ∃ g, execLookupReply die s = _; unfold execLookupReply; exact ⟨_, rfl⟩⟩
  | lookupTimeout die => exact .inl ⟨rfl, by change ∃ g, execLookupTimeout die s = _; unfold execLookupTimeout; exact ⟨_, rfl⟩⟩
  | larderMirrorReceive => exact .inl ⟨rfl, by change ∃ g, execLarderMirrorReceive s = _; unfold execLarderMirrorReceive; exact ⟨_, rfl⟩⟩
  | partitionWrite port part which val => exact .inl ⟨rfl, by change ∃ g, execPartitionWrite port part which val s = _; unfold execPartitionWrite; exact ⟨_, rfl⟩⟩
  | twoPhasePrepare die => exact .inl ⟨rfl, by change ∃ g, execTwoPhasePrepare die s = _; unfold execTwoPhasePrepare; exact ⟨_, rfl⟩⟩
  | twoPhaseCommit die => exact .inl ⟨rfl, by change ∃ g, execTwoPhaseCommit die s = _; unfold execTwoPhaseCommit; exact ⟨_, rfl⟩⟩
  | twoPhaseAbort => exact .inl ⟨rfl, by change ∃ g, execTwoPhaseAbort s = _; unfold execTwoPhaseAbort; exact ⟨_, rfl⟩⟩
  | fatalLatch src unit => exact .inl ⟨rfl, by change ∃ g, execFatalLatch src unit s = _; unfold execFatalLatch; exact ⟨_, rfl⟩⟩
  | escalation slot => exact .inl ⟨rfl, by change ∃ g, execEscalation slot s = _; unfold execEscalation; exact ⟨_, rfl⟩⟩
  | faultAck port val => exact .inl ⟨rfl, by change ∃ g, execFaultAck port val s = _; unfold execFaultAck; exact ⟨_, rfl⟩⟩
  | firstErrorRearm port cls => exact .inl ⟨rfl, by change ∃ g, execFirstErrorRearm port cls s = _; unfold execFirstErrorRearm; exact ⟨_, rfl⟩⟩
  | injectLard1 port => exact .inl ⟨rfl, by change ∃ g, execInjectLard1 port s = _; unfold execInjectLard1; exact ⟨_, rfl⟩⟩
  | injectLard2 port => exact .inl ⟨rfl, by change ∃ g, execInjectLard2 port s = _; unfold execInjectLard2; exact ⟨_, rfl⟩⟩
  | injectCell1 port => exact .inl ⟨rfl, by change ∃ g, execInjectCell1 port s = _; unfold execInjectCell1; exact ⟨_, rfl⟩⟩
  | injectCell2 port => exact .inl ⟨rfl, by change ∃ g, execInjectCell2 port s = _; unfold execInjectCell2; exact ⟨_, rfl⟩⟩
  | injectLane port die => exact .inl ⟨rfl, by change ∃ g, execInjectLane port die s = _; unfold execInjectLane; exact ⟨_, rfl⟩⟩
  | injectMbox port mb => exact .inl ⟨rfl, by change ∃ g, execInjectMbox port mb s = _; unfold execInjectMbox; exact ⟨_, rfl⟩⟩
  | injectChain port => exact .inl ⟨rfl, by change ∃ g, execInjectChain port s = _; unfold execInjectChain; exact ⟨_, rfl⟩⟩
  | chnInjCrcinv port => exact .inl ⟨rfl, by change ∃ g, execChnInjCrcinv port s = _; unfold execChnInjCrcinv; exact ⟨_, rfl⟩⟩
  | errorPairLevel die hall level => exact .inl ⟨rfl, by change ∃ g, execErrorPairLevel die hall level s = _; unfold execErrorPairLevel; exact ⟨_, rfl⟩⟩
  | phaseSelftest rail phase before during => exact .inl ⟨rfl, by change ∃ g, execPhaseSelftest rail phase before during s = _; unfold execPhaseSelftest; exact ⟨_, rfl⟩⟩
  | memoryWordSelftest u set pass => exact .inl ⟨rfl, by change ∃ g, execMemoryWordSelftest u set pass s = _; unfold execMemoryWordSelftest; exact ⟨_, rfl⟩⟩
  | laneSelftest die hall pass => exact .inl ⟨rfl, by change ∃ g, execLaneSelftest die hall pass s = _; unfold execLaneSelftest; exact ⟨_, rfl⟩⟩
  | mailboxSelftest mb pass => exact .inl ⟨rfl, by change ∃ g, execMailboxSelftest mb pass s = _; unfold execMailboxSelftest; exact ⟨_, rfl⟩⟩
  | agentUnresponsive die => exact .inl ⟨rfl, by change ∃ g, execAgentUnresponsive die s = _; unfold execAgentUnresponsive; exact ⟨_, rfl⟩⟩
  | islandCycleEnd die => exact .inl ⟨rfl, by change ∃ g, execIslandCycleEnd die s = _; unfold execIslandCycleEnd; exact ⟨_, rfl⟩⟩
  | watchdogExpiry hall => exact .inl ⟨rfl, by change ∃ g, execWatchdogExpiry hall s = _; unfold execWatchdogExpiry; exact ⟨_, rfl⟩⟩
  | lockstepMismatch hall kind => exact .inl ⟨rfl, by change ∃ g, execLockstepMismatch hall kind s = _; unfold execLockstepMismatch; exact ⟨_, rfl⟩⟩
  | chainAligned => exact .inl ⟨rfl, by change ∃ g, execChainAligned s = _; unfold execChainAligned; exact ⟨_, rfl⟩⟩
  | chainAlignLoss => exact .inl ⟨rfl, by change ∃ g, execChainAlignLoss s = _; unfold execChainAlignLoss; exact ⟨_, rfl⟩⟩
  | chainListenEnd => exact .inl ⟨rfl, by change ∃ g, execChainListenEnd s = _; unfold execChainListenEnd; exact ⟨_, rfl⟩⟩
  | chainNolink => exact .inl ⟨rfl, by change ∃ g, execChainNolink s = _; unfold execChainNolink; exact ⟨_, rfl⟩⟩
  | frameInsert => exact .inl ⟨rfl, by change ∃ g, execFrameInsert s = _; unfold execFrameInsert; exact ⟨_, rfl⟩⟩
  | frameAbort => exact .inl ⟨rfl, by change ∃ g, execFrameAbort s = _; unfold execFrameAbort; exact ⟨_, rfl⟩⟩
  | crcErrorFrame f check => exact .inl ⟨rfl, by change ∃ g, execCrcErrorFrame f check s = _; unfold execCrcErrorFrame; exact ⟨_, rfl⟩⟩
  | reservedFrame f => exact .inl ⟨rfl, by change ∃ g, execReservedFrame f s = _; unfold execReservedFrame; exact ⟨_, rfl⟩⟩
  | frameStrip f => exact .inl ⟨rfl, by change ∃ g, execFrameStrip f s = _; unfold execFrameStrip; exact ⟨_, rfl⟩⟩
  | claimSend => exact .inl ⟨rfl, by change ∃ g, execClaimSend s = _; unfold execClaimSend; exact ⟨_, rfl⟩⟩
  | claimReceived f => exact .inl ⟨rfl, by change ∃ g, execClaimReceived f s = _; unfold execClaimReceived; exact ⟨_, rfl⟩⟩
  | claimBackoffEnd => exact .inl ⟨rfl, by change ∃ g, execClaimBackoffEnd s = _; unfold execClaimBackoffEnd; exact ⟨_, rfl⟩⟩
  | ledgerSend => exact .inl ⟨rfl, by change ∃ g, execLedgerSend s = _; unfold execLedgerSend; exact ⟨_, rfl⟩⟩
  | ledgerPass f => exact .inl ⟨rfl, by change ∃ g, execLedgerPass f s = _; unfold execLedgerPass; exact ⟨_, rfl⟩⟩
  | ledgerReturn f => exact .inl ⟨rfl, by change ∃ g, execLedgerReturn f s = _; unfold execLedgerReturn; exact ⟨_, rfl⟩⟩
  | ledgerLost => exact .inl ⟨rfl, by change ∃ g, execLedgerLost s = _; unfold execLedgerLost; exact ⟨_, rfl⟩⟩
  | offerReceived f => exact .inl ⟨rfl, by change ∃ g, execOfferReceived f s = _; unfold execOfferReceived; exact ⟨_, rfl⟩⟩
  | offerReturn f => exact .inl ⟨rfl, by change ∃ g, execOfferReturn f s = _; unfold execOfferReturn; exact ⟨_, rfl⟩⟩
  | offerTimeout k => exact .inl ⟨rfl, by change ∃ g, execOfferTimeout k s = _; unfold execOfferTimeout; exact ⟨_, rfl⟩⟩
  | chainBeaconSend => exact .inl ⟨rfl, by change ∃ g, execChainBeaconSend s = _; unfold execChainBeaconSend; exact ⟨_, rfl⟩⟩
  | chainBeaconReceived f => exact .inl ⟨rfl, by change ∃ g, execChainBeaconReceived f s = _; unfold execChainBeaconReceived; exact ⟨_, rfl⟩⟩
  | versionSend => exact .inl ⟨rfl, by change ∃ g, execVersionSend s = _; unfold execVersionSend; exact ⟨_, rfl⟩⟩
  | versionReceived f => exact .inl ⟨rfl, by change ∃ g, execVersionReceived f s = _; unfold execVersionReceived; exact ⟨_, rfl⟩⟩
  | homeWrite port val => exact .inl ⟨rfl, by change ∃ g, execHomeWrite port val s = _; unfold execHomeWrite; exact ⟨_, rfl⟩⟩
  | ageMeasureStart die => exact .inl ⟨rfl, by change ∃ g, execAgeMeasureStart die s = _; unfold execAgeMeasureStart; exact ⟨_, rfl⟩⟩
  | ageMeasureComplete die counts => exact .inl ⟨rfl, by change ∃ g, execAgeMeasureComplete die counts s = _; unfold execAgeMeasureComplete; exact ⟨_, rfl⟩⟩
  | ageMeasureAbandon die cause => exact .inl ⟨rfl, by change ∃ g, execAgeMeasureAbandon die cause s = _; unfold execAgeMeasureAbandon; exact ⟨_, rfl⟩⟩
  | ageReplan die found => exact .inl ⟨rfl, by change ∃ g, execAgeReplan die found s = _; unfold execAgeReplan; exact ⟨_, rfl⟩⟩
  | monitorSelftest die idx dev counted => exact .inl ⟨rfl, by change ∃ g, execMonitorSelftest die idx dev counted s = _; unfold execMonitorSelftest; exact ⟨_, rfl⟩⟩
  | optimeSave => exact .inl ⟨rfl, by change ∃ g, execOptimeSave s = _; unfold execOptimeSave; exact ⟨_, rfl⟩⟩
  | agePend die => exact .inl ⟨rfl, by change ∃ g, execAgePend die s = _; unfold execAgePend; exact ⟨_, rfl⟩⟩
  | doorbellSet port val => exact .inl ⟨rfl, by change ∃ g, execDoorbellSet port val s = _; unfold execDoorbellSet; exact ⟨_, rfl⟩⟩
  | doorbellTake bit ctl => exact .inl ⟨rfl, by change ∃ g, execDoorbellTake bit ctl s = _; unfold execDoorbellTake; exact ⟨_, rfl⟩⟩
  | controlBlockPoll rs ctl => exact .inl ⟨rfl, by change ∃ g, execControlBlockPoll rs ctl s = _; unfold execControlBlockPoll; exact ⟨_, rfl⟩⟩
  | ringSetEnable port rs val => exact .inl ⟨rfl, by change ∃ g, execRingSetEnable port rs val s = _; unfold execRingSetEnable; exact ⟨_, rfl⟩⟩
  | ringSetDisable port rs val => exact .inl ⟨rfl, by change ∃ g, execRingSetDisable port rs val s = _; unfold execRingSetDisable; exact ⟨_, rfl⟩⟩
  | ringSetIdle rs => exact .inl ⟨rfl, by change ∃ g, execRingSetIdle rs s = _; unfold execRingSetIdle; exact ⟨_, rfl⟩⟩
  | hostAccessFail rs => exact .inl ⟨rfl, by change ∃ g, execHostAccessFail rs s = _; unfold execHostAccessFail; exact ⟨_, rfl⟩⟩
  | commandFetch rs entry => exact .inl ⟨rfl, by change ∃ g, execCommandFetch rs entry s = _; unfold execCommandFetch; exact ⟨_, rfl⟩⟩
  | nop rs cid => exact .inl ⟨rfl, by change ∃ g, execNop rs cid s = _; unfold execNop; exact ⟨_, rfl⟩⟩
  | ackfault rs cid => exact .inl ⟨rfl, by change ∃ g, execAckfault rs cid s = _; unfold execAckfault; exact ⟨_, rfl⟩⟩
  | setclass rs cid => exact .inl ⟨rfl, by change ∃ g, execSetclass rs cid s = _; unfold execSetclass; exact ⟨_, rfl⟩⟩
  | statement rs cid => exact .inl ⟨rfl, by change ∃ g, execStatement rs cid s = _; unfold execStatement; exact ⟨_, rfl⟩⟩
  | endjob rs cid => exact .inl ⟨rfl, by change ∃ g, execEndjob rs cid s = _; unfold execEndjob; exact ⟨_, rfl⟩⟩
  | bind rs cid => exact .inl ⟨rfl, by change ∃ g, execBind rs cid s = _; unfold execBind; exact ⟨_, rfl⟩⟩
  | setpolicy rs cid => exact .inl ⟨rfl, by change ∃ g, execSetpolicy rs cid s = _; unfold execSetpolicy; exact ⟨_, rfl⟩⟩
  | hostcap rs cid => exact .inl ⟨rfl, by change ∃ g, execHostcap rs cid s = _; unfold execHostcap; exact ⟨_, rfl⟩⟩
  | lseed rs cid recs => exact .inl ⟨rfl, by change ∃ g, execLseed rs cid recs s = _; unfold execLseed; exact ⟨_, rfl⟩⟩
  | lclear rs cid => exact .inl ⟨rfl, by change ∃ g, execLclear rs cid s = _; unfold execLclear; exact ⟨_, rfl⟩⟩
  | lexport rs cid ok => exact .inl ⟨rfl, by change ∃ g, execLexport rs cid ok s = _; unfold execLexport; exact ⟨_, rfl⟩⟩
  | freeze rs cid => exact .inl ⟨rfl, by change ∃ g, execFreeze rs cid s = _; unfold execFreeze; exact ⟨_, rfl⟩⟩
  | snapshot rs cid => exact .inl ⟨rfl, by change ∃ g, execSnapshot rs cid s = _; unfold execSnapshot; exact ⟨_, rfl⟩⟩
  | snapshotCapture rs cid ok => exact .inl ⟨rfl, by change ∃ g, execSnapshotCapture rs cid ok s = _; unfold execSnapshotCapture; exact ⟨_, rfl⟩⟩
  | update rs cid img => exact .inl ⟨rfl, by change ∃ g, execUpdate rs cid img s = _; unfold execUpdate; exact ⟨_, rfl⟩⟩
  | policyInstall rs cid blob => exact .inl ⟨rfl, by change ∃ g, execPolicyInstall rs cid blob s = _; unfold execPolicyInstall; exact ⟨_, rfl⟩⟩
  | msixModerationExpiry vec => exact .inl ⟨rfl, by change ∃ g, execMsixModerationExpiry vec s = _; unfold execMsixModerationExpiry; exact ⟨_, rfl⟩⟩
  | mailboxPost port mb tag => exact .inl ⟨rfl, by change ∃ g, execMailboxPost port mb tag s = _; unfold execMailboxPost; exact ⟨_, rfl⟩⟩
  | mailboxRelease port mb => exact .inl ⟨rfl, by change ∃ g, execMailboxRelease port mb s = _; unfold execMailboxRelease; exact ⟨_, rfl⟩⟩
  | mailboxRead port mb tag => exact .inl ⟨rfl, by change ∃ g, execMailboxRead port mb tag s = _; unfold execMailboxRead; exact ⟨_, rfl⟩⟩
  | bootRom hall selfOk => exact .inl ⟨rfl, by change ∃ g, execBootRom hall selfOk s = _; unfold execBootRom; exact ⟨_, rfl⟩⟩
  | policyApply hall => exact .inr (.inl ⟨rfl, by change ∃ g, execPolicyApply hall s = _; unfold execPolicyApply; exact ⟨_, rfl⟩⟩)
  | crcSeed port val => exact .inl ⟨rfl, by change ∃ g, execCrcSeed port val s = _; unfold execCrcSeed; exact ⟨_, rfl⟩⟩
  | crcFeedWord port val => exact .inl ⟨rfl, by change ∃ g, execCrcFeedWord port val s = _; unfold execCrcFeedWord; exact ⟨_, rfl⟩⟩
  | crcFeedByte port val => exact .inl ⟨rfl, by change ∃ g, execCrcFeedByte port val s = _; unfold execCrcFeedByte; exact ⟨_, rfl⟩⟩
  | updateDownloadDone ok => exact .inl ⟨rfl, by change ∃ g, execUpdateDownloadDone ok s = _; unfold execUpdateDownloadDone; exact ⟨_, rfl⟩⟩
  | updateVerifyDone => exact .inl ⟨rfl, by change ∃ g, execUpdateVerifyDone s = _; unfold execUpdateVerifyDone; exact ⟨_, rfl⟩⟩
  | standbyLoaded => exact .inl ⟨rfl, by change ∃ g, execStandbyLoaded s = _; unfold execStandbyLoaded; exact ⟨_, rfl⟩⟩
  | handoverReply accept => exact .inl ⟨rfl, by change ∃ g, execHandoverReply accept s = _; unfold execHandoverReply; exact ⟨_, rfl⟩⟩
  | updateSwap => exact .inl ⟨rfl, by change ∃ g, execUpdateSwap s = _; unfold execUpdateSwap; exact ⟨_, rfl⟩⟩
  | takeoverComplete => exact .inl ⟨rfl, by change ∃ g, execTakeoverComplete s = _; unfold execTakeoverComplete; exact ⟨_, rfl⟩⟩
  | takeoverDeadline => exact .inl ⟨rfl, by change ∃ g, execTakeoverDeadline s = _; unfold execTakeoverDeadline; exact ⟨_, rfl⟩⟩
  | oldHallReloaded => exact .inl ⟨rfl, by change ∃ g, execOldHallReloaded s = _; unfold execOldHallReloaded; exact ⟨_, rfl⟩⟩
  | updateConfirm port => exact .inl ⟨rfl, by change ∃ g, execUpdateConfirm port s = _; unfold execUpdateConfirm; exact ⟨_, rfl⟩⟩
  | updateAbort port => exact .inl ⟨rfl, by change ∃ g, execUpdateAbort port s = _; unfold execUpdateAbort; exact ⟨_, rfl⟩⟩
  | obsSecondLatch => exact .inl ⟨rfl, by change ∃ g, execObsSecondLatch s = _; unfold execObsSecondLatch; exact ⟨_, rfl⟩⟩
  | viewQdataRead port part word => exact .inl ⟨rfl, by change ∃ g, execViewQdataRead port part word s = _; unfold execViewQdataRead; exact ⟨_, rfl⟩⟩
  | freezeArm port val => exact .inl ⟨rfl, by change ∃ g, execFreezeArm port val s = _; unfold execFreezeArm; exact ⟨_, rfl⟩⟩
  | freezeStart => exact .inl ⟨rfl, by change ∃ g, execFreezeStart s = _; unfold execFreezeStart; exact ⟨_, rfl⟩⟩
  | freezeThaw port => exact .inl ⟨rfl, by change ∃ g, execFreezeThaw port s = _; unfold execFreezeThaw; exact ⟨_, rfl⟩⟩
  | freezeMaxExpiry => exact .inl ⟨rfl, by change ∃ g, execFreezeMaxExpiry s = _; unfold execFreezeMaxExpiry; exact ⟨_, rfl⟩⟩
  | traceDrain die => exact .inl ⟨rfl, by change ∃ g, execTraceDrain die s = _; unfold execTraceDrain; exact ⟨_, rfl⟩⟩
  | traceVectorTimer => exact .inl ⟨rfl, by change ∃ g, execTraceVectorTimer s = _; unfold execTraceVectorTimer; exact ⟨_, rfl⟩⟩
  | atticRecordWrite ok => exact .inl ⟨rfl, by change ∃ g, execAtticRecordWrite ok s = _; unfold execAtticRecordWrite; exact ⟨_, rfl⟩⟩
  | atticFailure => exact .inl ⟨rfl, by change ∃ g, execAtticFailure s = _; unfold execAtticFailure; exact ⟨_, rfl⟩⟩
  | atticCursorWrite port val => exact .inl ⟨rfl, by change ∃ g, execAtticCursorWrite port val s = _; unfold execAtticCursorWrite; exact ⟨_, rfl⟩⟩
  | atticFetchComplete port => exact .inl ⟨rfl, by change ∃ g, execAtticFetchComplete port s = _; unfold execAtticFetchComplete; exact ⟨_, rfl⟩⟩
  | atticData7Read port => exact .inl ⟨rfl, by change ∃ g, execAtticData7Read port s = _; unfold execAtticData7Read; exact ⟨_, rfl⟩⟩
  | atticFreeze port => exact .inl ⟨rfl, by change ∃ g, execAtticFreeze port s = _; unfold execAtticFreeze; exact ⟨_, rfl⟩⟩
  | atticFreezeExpiry => exact .inl ⟨rfl, by change ∃ g, execAtticFreezeExpiry s = _; unfold execAtticFreezeExpiry; exact ⟨_, rfl⟩⟩
  | stateAdvance => exact .inl ⟨rfl, by change ∃ g, execStateAdvance s = _; unfold execStateAdvance; exact ⟨_, rfl⟩⟩
  | railGroupStart => exact .inl ⟨rfl, by change ∃ g, execRailGroupStart s = _; unfold execRailGroupStart; exact ⟨_, rfl⟩⟩
  | calibrationStepEnd r => exact .inl ⟨rfl, by change ∃ g, execCalibrationStepEnd r s = _; unfold execCalibrationStepEnd; exact ⟨_, rfl⟩⟩
  | calibratingWaitExpiry => exact .inl ⟨rfl, by change ∃ g, execCalibratingWaitExpiry s = _; unfold execCalibratingWaitExpiry; exact ⟨_, rfl⟩⟩
  | entdaa da => exact .inl ⟨rfl, by change ∃ g, execEntdaa da s = _; unfold execEntdaa; exact ⟨_, rfl⟩⟩
  | rstdaa => exact .inl ⟨rfl, by change ∃ g, execRstdaa s = _; unfold execRstdaa; exact ⟨_, rfl⟩⟩
  | setnewda da => exact .inl ⟨rfl, by change ∃ g, execSetnewda da s = _; unfold execSetnewda; exact ⟨_, rfl⟩⟩
  | enec => exact .inl ⟨rfl, by change ∃ g, execEnec s = _; unfold execEnec; exact ⟨_, rfl⟩⟩
  | disec => exact .inl ⟨rfl, by change ∃ g, execDisec s = _; unfold execDisec; exact ⟨_, rfl⟩⟩
  | getpid => exact .inl ⟨rfl, by change ∃ g, execGetpid s = _; unfold execGetpid; exact ⟨_, rfl⟩⟩
  | getbcr => exact .inl ⟨rfl, by change ∃ g, execGetbcr s = _; unfold execGetbcr; exact ⟨_, rfl⟩⟩
  | getdcr => exact .inl ⟨rfl, by change ∃ g, execGetdcr s = _; unfold execGetdcr; exact ⟨_, rfl⟩⟩
  | getstatus => exact .inl ⟨rfl, by change ∃ g, execGetstatus s = _; unfold execGetstatus; exact ⟨_, rfl⟩⟩
  | getmwl => exact .inl ⟨rfl, by change ∃ g, execGetmwl s = _; unfold execGetmwl; exact ⟨_, rfl⟩⟩
  | getmrl => exact .inl ⟨rfl, by change ∃ g, execGetmrl s = _; unfold execGetmrl; exact ⟨_, rfl⟩⟩
  | i3cPrivateWrite bytes => exact .inr (.inl ⟨rfl, by change ∃ g, execI3cPrivateWrite bytes s = _; unfold execI3cPrivateWrite; exact ⟨_, rfl⟩⟩)
  | i3cPrivateRead words => exact .inl ⟨rfl, by change ∃ g, execI3cPrivateRead words s = _; unfold execI3cPrivateRead; exact ⟨_, rfl⟩⟩
  | ibiRetry => exact .inl ⟨rfl, by change ∃ g, execIbiRetry s = _; unfold execIbiRetry; exact ⟨_, rfl⟩⟩
  | tmHeartbeatEdge interval => exact .inl ⟨rfl, by change ∃ g, execTmHeartbeatEdge interval s = _; unfold execTmHeartbeatEdge; exact ⟨_, rfl⟩⟩
  | tmHeartbeatPresent => exact .inl ⟨rfl, by change ∃ g, execTmHeartbeatPresent s = _; unfold execTmHeartbeatPresent; exact ⟨_, rfl⟩⟩
  | tmHeartbeatLost => exact .inl ⟨rfl, by change ∃ g, execTmHeartbeatLost s = _; unfold execTmHeartbeatLost; exact ⟨_, rfl⟩⟩
  | held8s => exact .inl ⟨rfl, by change ∃ g, execHeld8s s = _; unfold execHeld8s; exact ⟨_, rfl⟩⟩
  | govHeartbeatToggle => exact .inl ⟨rfl, by change ∃ g, execGovHeartbeatToggle s = _; unfold execGovHeartbeatToggle; exact ⟨_, rfl⟩⟩
  | shutdown port val => exact .inl ⟨rfl, by change ∃ g, execShutdown port val s = _; unfold execShutdown; exact ⟨_, rfl⟩⟩
  | shutdownDrainEnd => exact .inl ⟨rfl, by change ∃ g, execShutdownDrainEnd s = _; unfold execShutdownDrainEnd; exact ⟨_, rfl⟩⟩
  | shutdownRailGroupStop => exact .inl ⟨rfl, by change ∃ g, execShutdownRailGroupStop s = _; unfold execShutdownRailGroupStop; exact ⟨_, rfl⟩⟩
  | xtalCountDrop x => exact .inl ⟨rfl, by change ∃ g, execXtalCountDrop x s = _; unfold execXtalCountDrop; exact ⟨_, rfl⟩⟩
  | rootPllLock die => exact .inl ⟨rfl, by change ∃ g, execRootPllLock die s = _; unfold execRootPllLock; exact ⟨_, rfl⟩⟩
  | shortInWindow rail => exact .inl ⟨rfl, by change ∃ g, execShortInWindow rail s = _; unfold execShortInWindow; exact ⟨_, rfl⟩⟩
  | govErrReadback hall => exact .inl ⟨rfl, by change ∃ g, execGovErrReadback hall s = _; unfold execGovErrReadback; exact ⟨_, rfl⟩⟩
  | traceRingPoll ci => exact .inl ⟨rfl, by change ∃ g, execTraceRingPoll ci s = _; unfold execTraceRingPoll; exact ⟨_, rfl⟩⟩
  | waitEnd die w => exact .inl ⟨rfl, by change ∃ g, execWaitEnd die w s = _; unfold execWaitEnd; exact ⟨_, rfl⟩⟩
  | pcieLinkChange hx up => exact .inl ⟨rfl, by change ∃ g, execPcieLinkChange hx up s = _; unfold execPcieLinkChange; exact ⟨_, rfl⟩⟩

/-- Every command answers a next state while the supply is up. -/
theorem exec_on (c : Instr) {s : State} (h : s.aon = true) :
    ∃ n, (c ≠ .powerOn → c ≠ .aonRemoved → mayLower c = false → exec c s = .next (s.commit n)) ∧
      (mayLower c = true → exec c s = .next { s.commit n with limits := lowered s.limits n.limits }) := by
  rcases exec_form c s with ⟨hm, f, hf⟩ | ⟨hm, f, hf⟩ | ⟨hc, _⟩ | ⟨hc, _⟩
  · exact ⟨f s, fun _ _ _ => hf ▸ State.run_on f h, fun h' => absurd h' (by simp [hm])⟩
  · exact ⟨f s, fun _ _ h' => absurd h' (by simp [hm]), fun _ => hf ▸ State.runLower_on f h⟩
  · exact ⟨s, fun h' => absurd hc h', fun h' => absurd h' (by subst hc; decide)⟩
  · exact ⟨s, fun _ h' => absurd hc h', fun h' => absurd h' (by subst hc; decide)⟩

end Sys2Proof.Machine
end

