-- ==== Sys2Proof/Laws/Faults.lean ====
section
/-!
SUPPORT. Sys2Proof/Laws/Faults.lean: what raising a fault can change. A reading of the state that does not depend on the fault collector, the
Attic, the rings and the mailboxes is the same after a fault as before it.
-/
namespace Sys2Proof.Machine

/-- A reading of the state that what the block says to its partners does not touch. -/
structure FaultBlind {α : Type} (g : State → α) : Prop where
  put : ∀ s (r : FieldRef) v, faultField r.f = true → g (s.put r v) = g s
  rings : ∀ s x, g { s with rings := x } = g s
  tel : ∀ s x, g { s with tel := x } = g s
  msix : ∀ s x, g { s with msix := x } = g s
  msixOut : ∀ s x, g { s with msixOut := x } = g s
  dma : ∀ s x, g { s with dma := x } = g s
  i3c : ∀ s x, g { s with i3c := x } = g s
  mbBad : ∀ s x, g { s with mbBad := x } = g s
  inject : ∀ s x, g { s with inject := x } = g s
  fwInt : ∀ s x, g { s with fwInt := x } = g s
  attic : ∀ s x, g { s with attic := x } = g s
  faultSeq : ∀ s x, g { s with faultSeq := x } = g s
  pend : ∀ s x, g { s with pend := x } = g s

variable {α : Type} {g : State → α}

theorem each_blind {β : Type} (l : List β) (f : State → β → State) (h : ∀ s x, g (f s x) = g s) (s : State) :
    g (s.each l f) = g s := by
  unfold State.each
  induction l generalizing s with
  | nil => rfl
  | cons x l ih => exact (ih (f s x)).trans (h s x)

theorem puts_blind (hg : FaultBlind g) (l : List (FieldRef × Nat)) (hl : l.all (fun e => faultField e.1.f) = true) (s : State) :
    g (s.puts l) = g s := by
  induction l generalizing s with
  | nil => rfl
  | cons e l ih =>
    obtain ⟨r, v⟩ := e
    simp only [List.all_cons, Bool.and_eq_true] at hl
    exact (ih hl.2 _).trans (hg.put s r v hl.1)

theorem wr_blind (hg : FaultBlind g) (s : State) (f : Field) (v i j : Nat) (h : faultField f = true) :
    g (s.wr f v i j) = g s :=
  hg.put s ⟨f, i, j⟩ v h

theorem count_blind (hg : FaultBlind g) (s : State) (f : Field) (k i j : Nat) (h : faultField f = true) :
    g (s.count f k i j) = g s :=
  hg.put s ⟨f, i, j⟩ _ h

theorem updRing_blind (hg : FaultBlind g) (s : State) (n : Nat) (f : RingState → RingState) : g (s.updRing n f) = g s :=
  hg.rings s _

theorem sendVector_blind (hg : FaultBlind g) (s : State) (p : Port) (v : Nat) : g (s.sendVector p v) = g s := by
  unfold State.sendVector
  split
  · exact hg.msix s _
  · exact hg.msixOut s _

theorem cplWritten_blind (hg : FaultBlind g) (s : State) (n : Nat) (u : Bool) : g (s.cplWritten n u) = g s := by
  unfold State.cplWritten
  split
  · exact (updRing_blind hg _ _ _).trans (sendVector_blind hg _ _ _)
  · exact updRing_blind hg _ _ _

theorem putCpl_blind (hg : FaultBlind g) (s : State) (n first : Nat) (rest : List Word) : g (s.putCpl n first rest) = g s := by
  have h1 : ∀ s : State, ∀ p a x y, g (s.writeEntry p a x y) = g s := fun s p a x y => hg.dma s _
  unfold State.putCpl
  dsimp only
  split
  · rw [updRing_blind hg, wr_blind hg _ _ _ _ _ (by rfl), h1]
  · rw [wr_blind hg _ _ _ _ _ (by rfl), h1]

theorem noticeTo_blind (hg : FaultBlind g) (s : State) (a b c n : Nat) : g (s.noticeTo a b c n) = g s := by
  unfold State.noticeTo
  split
  · split
    · rw [updRing_blind hg, wr_blind hg _ _ _ _ _ (by rfl)]
    · dsimp only
      rw [cplWritten_blind hg, updRing_blind hg, putCpl_blind hg]
  · rfl

theorem noticePart_blind (hg : FaultBlind g) (s : State) (a b c p : Nat) : g (s.noticePart a b c p) = g s := by
  unfold State.noticePart
  dsimp only
  split
  · split
    · exact noticeTo_blind hg _ _ _ _ _
    · rw [noticeTo_blind hg, noticeTo_blind hg]
  · exact noticeTo_blind hg _ _ _ _ _

theorem raiseIbi_blind (hg : FaultBlind g) (s : State) (b : Nat) : g (s.raiseIbi b) = g s := by
  unfold State.raiseIbi
  split
  · exact hg.i3c s _
  · rfl

theorem mbPost_blind (hg : FaultBlind g) (s : State) (m : Nat) : g (s.mbPost m) = g s := by
  have h1 : g (if s.flag .hifMbStatFull 0 m then s.wr .hifMbStatCollision 1 0 m else s) = g s := by
    split
    · exact wr_blind hg _ _ _ _ _ (by rfl)
    · rfl
  have h3 : ∀ t : State, g (if (m = 0 && s.flag .hifMbStatFull 0 0) = true then t.sendVector t.mbPort 33 else t) = g t := by
    intro t
    split
    · exact sendVector_blind hg _ _ _
    · rfl
  unfold State.mbPost
  dsimp only
  split
  · rw [sendVector_blind hg, h3, wr_blind hg _ _ _ _ _ (by rfl), h1]
  · split
    · rw [raiseIbi_blind hg, h3, wr_blind hg _ _ _ _ _ (by rfl), h1]
    · rw [hg.fwInt, h3, wr_blind hg _ _ _ _ _ (by rfl), h1]

theorem mbParity_blind (hg : FaultBlind g) (s : State) (m : Nat) : g (s.mbParity m) = g s := by
  unfold State.mbParity
  split
  · exact (hg.inject { s with mbBad := m :: s.mbBad.filter (· ≠ m) } _).trans (hg.mbBad s _)
  · exact hg.mbBad s _

theorem mbNotice_blind (hg : FaultBlind g) (s : State) (m a b : Nat) : g (s.mbNotice m a b) = g s := by
  unfold State.mbNotice
  rw [mbPost_blind hg, mbParity_blind hg, wr_blind hg _ _ _ _ _ (by rfl), wr_blind hg _ _ _ _ _ (by rfl)]

theorem noticeAll_blind (hg : FaultBlind g) (s : State) (a b : Nat) : g (s.noticeAll a b) = g s := by
  unfold State.noticeAll
  have h := each_blind (g := g) (upto 16) (fun s n => s.noticeTo a 0 b n) (fun s n => noticeTo_blind hg s a 0 b n) s
  dsimp only
  split
  · rw [mbNotice_blind hg, h]
  · exact h

theorem event_blind (hg : FaultBlind g) (s : State) (a b c : Nat) (p : Option Nat) : g (s.event a b c p) = g s := by
  unfold State.event
  split
  · exact hg.attic s _
  · exact count_blind hg _ _ _ _ _ (by rfl)

theorem countFault_blind (hg : FaultBlind g) (s : State) (f : FaultRec) : g (s.countFault f) = g s := by
  unfold State.countFault
  split
  · rw [count_blind hg _ _ _ _ _ (by rfl), count_blind hg _ _ _ _ _ (by rfl)]
  · rw [count_blind hg _ _ _ _ _ (by rfl), count_blind hg _ _ _ _ _ (by rfl)]
  · exact count_blind hg _ _ _ _ _ (by rfl)

theorem capture_blind (hg : FaultBlind g) (s : State) (f : FaultRec) : g (s.capture f) = g s := by
  unfold State.capture
  dsimp only
  split
  · exact count_blind hg _ _ _ _ _ (by rfl)
  · exact puts_blind hg _ (by rfl) _

theorem postCpl_blind (hg : FaultBlind g) (s : State) (n a b c : Nat) : g (s.postCpl n a b c) = g s := by
  unfold State.postCpl
  dsimp only
  split
  · rw [cplWritten_blind hg, putCpl_blind hg, wr_blind hg _ _ _ _ _ (by rfl)]
  · rw [wr_blind hg _ _ _ _ _ (by rfl)]

theorem complete_blind (hg : FaultBlind g) (s : State) (n a b c : Nat) : g (s.complete n a b c) = g s := by
  unfold State.complete
  rw [postCpl_blind hg, updRing_blind hg]

theorem telWritten_blind (hg : FaultBlind g) (s : State) (n : Nat) : g (s.telWritten n) = g s := by
  unfold State.telWritten
  split
  · exact (updRing_blind hg _ _ _).trans (sendVector_blind hg _ _ _)
  · exact updRing_blind hg _ _ _

theorem closeBlock_blind (hg : FaultBlind g) (s : State) (d : Nat) : g (s.closeBlock d) = g s := by
  have h1 : ∀ s : State, ∀ p a x y, g (s.writeEntry p a x y) = g s := fun s p a x y => hg.dma s _
  unfold State.closeBlock
  dsimp only
  split
  · rfl
  · split
    · exact hg.tel s _
    · split
      · exact hg.tel s _
      · split
        · rw [count_blind hg _ _ _ _ _ (by rfl), hg.tel]
        · rw [telWritten_blind hg, updRing_blind hg, h1, hg.tel]

theorem stopPart_blind (hg : FaultBlind g) (s : State) (q p : Nat) : g (s.stopPart q p) = g s := by
  unfold State.stopPart State.abortRunning State.stmtDue
  dsimp only
  rw [event_blind hg, wr_blind hg _ _ _ _ _ (by rfl), each_blind _ _ (fun s c => complete_blind hg s _ _ _ _),
    noticePart_blind hg, wr_blind hg _ _ _ _ _ (by rfl), each_blind _ _ (fun s d => closeBlock_blind hg s d), updRing_blind hg]

theorem escalate_blind (hg : FaultBlind g) (s : State) (sc : Scope) (u q : Nat) : g (s.escalate sc u q) = g s :=
  each_blind _ _ (fun s p => stopPart_blind hg s q p) s

theorem faultNotice_blind (hg : FaultBlind g) (s : State) (f : FaultRec) (q : Nat) : g (s.faultNotice f q) = g s := by
  unfold State.faultNotice
  dsimp only
  split
  · exact each_blind _ _ (fun s n => noticeTo_blind hg s _ _ _ n) s
  · exact each_blind _ _ (fun s p => noticePart_blind hg s _ _ _ p) s

theorem collect_blind (hg : FaultBlind g) (s : State) (f : FaultRec) : g (s.collect f) = g s := by
  unfold State.collect
  split
  · exact count_blind hg _ _ _ _ _ (by rfl)
  · dsimp only
    split
    · rw [faultNotice_blind hg]
      unfold State.addPending
      dsimp only
      rw [hg.pend, puts_blind hg _ (by rfl), hg.faultSeq]
    · rw [escalate_blind hg, faultNotice_blind hg, wr_blind hg _ _ _ _ _ (by rfl), hg.faultSeq]

/-- A CORRECTED or CONTAINED fault changes nothing that the collector, the rings, the mailboxes and the Attic do not hold. -/
theorem raise_blind (hg : FaultBlind g) (s : State) (f : FaultRec) (h : f.cls ≠ .fatal) : g (s.raise f) = g s := by
  have h1 : ∀ a b c p, g (((s.countFault f).capture f).event a b c p) = g s := by
    intro a b c p
    rw [event_blind hg, capture_blind hg, countFault_blind hg]
  unfold State.raise
  dsimp only
  split
  · exact h1 _ _ _ _
  · rw [collect_blind hg, h1]
  · rename_i hc; exact absurd hc h

theorem raiseNow_blind (hg : FaultBlind g) (s : State) (f : FaultRec) : g (s.raiseNow f) = g s := by
  unfold State.raiseNow
  dsimp only
  rw [escalate_blind hg, faultNotice_blind hg, hg.faultSeq, event_blind hg, capture_blind hg, countFault_blind hg]

/-! ## Readings that are blind to faults -/

/-- Any register field but those a fault writes. -/
theorem blind_rd (f : Field) (i j : Nat) (h : faultField f = false) : FaultBlind fun s => s.rd f i j where
  put s r v hr := State.reg_put_other s v (by intro e; rw [e] at hr; rw [h] at hr; exact absurd hr (by decide))
  rings _ _ := rfl
  tel _ _ := rfl
  msix _ _ := rfl
  msixOut _ _ := rfl
  dma _ _ := rfl
  i3c _ _ := rfl
  mbBad _ _ := rfl
  inject _ _ := rfl
  fwInt _ _ := rfl
  attic _ _ := rfl
  faultSeq _ _ := rfl
  pend _ _ := rfl

/-- Any reading that no register and none of the partners' queues carries. -/
theorem blind_of (g : State → α) (hr : ∀ s x, g { s with regs := x } = g s) (hl : ∀ s x, g { s with limits := x } = g s)
    (rings : ∀ s x, g { s with rings := x } = g s) (tel : ∀ s x, g { s with tel := x } = g s) (msix : ∀ s x, g { s with msix := x } = g s)
    (msixOut : ∀ s x, g { s with msixOut := x } = g s) (dma : ∀ s x, g { s with dma := x } = g s)
    (i3c : ∀ s x, g { s with i3c := x } = g s) (mbBad : ∀ s x, g { s with mbBad := x } = g s)
    (inject : ∀ s x, g { s with inject := x } = g s) (fwInt : ∀ s x, g { s with fwInt := x } = g s)
    (attic : ∀ s x, g { s with attic := x } = g s) (faultSeq : ∀ s x, g { s with faultSeq := x } = g s)
    (pend : ∀ s x, g { s with pend := x } = g s) : FaultBlind g :=
  ⟨fun s r v _ => State.put_other g hr hl s r v, rings, tel, msix, msixOut, dma, i3c, mbBad, inject, fwInt, attic, faultSeq, pend⟩

theorem blind_aon : FaultBlind fun s : State => s.aon := by apply blind_of <;> intros <;> rfl
theorem blind_now : FaultBlind fun s : State => s.now := by apply blind_of <;> intros <;> rfl
theorem blind_rails : FaultBlind fun s : State => s.rails := by apply blind_of <;> intros <;> rfl
theorem blind_dies : FaultBlind fun s : State => s.dies := by apply blind_of <;> intros <;> rfl
theorem blind_halls : FaultBlind fun s : State => s.halls := by apply blind_of <;> intros <;> rfl
theorem blind_lard : FaultBlind fun s : State => s.lard := by apply blind_of <;> intros <;> rfl
theorem blind_parts : FaultBlind fun s : State => s.parts := by apply blind_of <;> intros <;> rfl
theorem blind_pins : FaultBlind fun s : State => s.pins := by apply blind_of <;> intros <;> rfl
theorem blind_force : FaultBlind fun s : State => s.force := by apply blind_of <;> intros <;> rfl
theorem blind_clock : FaultBlind fun s : State => s.clock := by apply blind_of <;> intros <;> rfl
theorem blind_hearth : FaultBlind fun s : State => s.hearth := by apply blind_of <;> intros <;> rfl
theorem blind_chain : FaultBlind fun s : State => s.chain := by apply blind_of <;> intros <;> rfl
theorem blind_age : FaultBlind fun s : State => s.age := by apply blind_of <;> intros <;> rfl
theorem blind_ctrl : FaultBlind fun s : State => s.ctrl := by apply blind_of <;> intros <;> rfl
theorem blind_lim : FaultBlind fun s : State => s.lim := by apply blind_of <;> intros <;> rfl
theorem blind_flash : FaultBlind fun s : State => s.flash := by apply blind_of <;> intros <;> rfl
theorem blind_upd : FaultBlind fun s : State => s.upd := by apply blind_of <;> intros <;> rfl
theorem blind_start : FaultBlind fun s : State => s.start := by apply blind_of <;> intros <;> rfl
theorem blind_free : FaultBlind fun s : State => s.free := by apply blind_of <;> intros <;> rfl
theorem blind_floorOn : FaultBlind fun s : State => s.floorOn := by apply blind_of <;> intros <;> rfl
theorem blind_change : FaultBlind fun s : State => s.change := by apply blind_of <;> intros <;> rfl
theorem blind_changes : FaultBlind fun s : State => s.changes := by apply blind_of <;> intros <;> rfl

/-! ## The FATAL latches -/

/-- A reading of the state that the FATAL latches do not touch either. -/
structure LatchBlind {α : Type} (g : State → α) : Prop extends FaultBlind g where
  put' : ∀ s (r : FieldRef) v, latchField r.f = true → g (s.put r v) = g s
  force : ∀ s x, g { s with force := x } = g s
  floorOn : ∀ s x, g { s with floorOn := x } = g s
  pins : ∀ s x, g { s with pins := x } = g s
  chain : ∀ s x, g { s with chain := x } = g s
  upd : ∀ s x, g { s with upd := x } = g s
  ctrl : ∀ s x, g { s with ctrl := x } = g s
  floorRun : ∀ s x, g { s with lim := { s.lim with floorRun := x } } = g s

theorem wr_latch (hg : LatchBlind g) (s : State) (f : Field) (v i j : Nat) (h : latchField f = true) : g (s.wr f v i j) = g s :=
  hg.put' s ⟨f, i, j⟩ v h

theorem enterFloor_latch (hg : LatchBlind g) (s : State) : g s.enterFloor = g s := by
  unfold State.enterFloor
  rw [wr_latch hg _ _ _ _ _ (by rfl)]
  refine each_blind _ _ (fun s d => ?_) s
  unfold State.showDomain branchesOf
  simp only [List.foldl, State.branchTo32]
  repeat rw [wr_latch hg _ _ _ _ _ (by rfl)]

theorem forceFloor_latch (hg : LatchBlind g) (s : State) (f : Forcing → Forcing) : g (s.forceFloor f) = g s := by
  unfold State.forceFloor
  rw [enterFloor_latch hg]
  exact ((hg.floorRun { s with force := f s.force, floorOn := true } true).trans (hg.floorOn { s with force := f s.force } true)).trans
    (hg.force s _)

theorem releaseFloor_latch (hg : LatchBlind g) (s : State) (f : Forcing → Forcing) : g (s.releaseFloor f) = g s := by
  unfold State.releaseFloor
  dsimp only
  rw [wr_latch hg _ _ _ _ _ (by rfl), hg.force]

theorem setStage_latch (hg : LatchBlind g) (s : State) (n : Nat) : g (s.setStage n) = g s := by
  unfold State.setStage State.info
  rw [event_blind hg.toFaultBlind, wr_latch hg _ _ _ _ _ (by rfl)]

theorem failUpdate_latch (hg : LatchBlind g) (s : State) (c : Nat) : g (s.failUpdate c) = g s := by
  unfold State.failUpdate
  dsimp only
  rw [setStage_latch hg, wr_latch hg _ _ _ _ _ (by rfl), hg.upd]
  split
  · rw [wr_latch hg _ _ _ _ _ (by rfl)]
    exact hg.ctrl s _
  · rfl

theorem chainOut_latch (hg : LatchBlind g) (s : State) : g s.chainOut = g s := by
  unfold State.chainOut
  dsimp only
  exact ((hg.chain { s.wr .chnPosOrig 0 with pins := _ } _).trans (hg.pins (s.wr .chnPosOrig 0) { s.pins with bypHold := false })).trans
    (wr_latch hg _ _ _ _ _ (by rfl))

theorem setSvc_latch (hg : LatchBlind g) (s : State) (st : Nat) : g (s.setSvc st) = g s := by
  have h0 : g ((((s.wr .govStatePrev s.svc).wr .govStateCur st).noticeAll 4 (st + 8 * s.svc)).info 1) = g s := by
    unfold State.info
    rw [event_blind hg.toFaultBlind, noticeAll_blind hg.toFaultBlind, wr_latch hg _ _ _ _ _ (by rfl), wr_latch hg _ _ _ _ _ (by rfl)]
  have h1 : ∀ (b : Bool) (t : State), g (if b = true then t.failUpdate 5 else t) = g t := by
    intro b t
    split
    · exact failUpdate_latch hg _ _
    · rfl
  unfold State.setSvc
  split
  · rfl
  · dsimp only
    split
    · rw [chainOut_latch hg, h1, h0]
    · split
      · rw [hg.pins, h1, h0]
      · rw [h1, h0]

/-- The FATAL latches change nothing that the floor state, the service state and the fault's own record do not hold. -/
theorem failsafe_latch (hg : LatchBlind g) (s : State) (a b : Nat) : g (s.failsafe a b) = g s := by
  unfold State.failsafe
  split
  · rfl
  · dsimp only
    rw [sendVector_blind hg.toFaultBlind, sendVector_blind hg.toFaultBlind, setSvc_latch hg, noticeAll_blind hg.toFaultBlind]
    rw [each_blind _ _ (fun s d => each_blind _ _ (fun s c => wr_latch hg _ _ _ _ _ (by rfl)) s)]
    rw [hg.pins, forceFloor_latch hg, wr_latch hg _ _ _ _ _ (by rfl)]

/-- A fault of any class changes nothing beyond that. -/
theorem raise_latch (hg : LatchBlind g) (s : State) (f : FaultRec) : g (s.raise f) = g s := by
  by_cases hc : f.cls = .fatal
  · unfold State.raise
    dsimp only
    simp only [hc]
    rw [failsafe_latch hg, event_blind hg.toFaultBlind, capture_blind hg.toFaultBlind, countFault_blind hg.toFaultBlind]
  · exact raise_blind hg.toFaultBlind s f hc

theorem faultField_latch {f : Field} (h : faultField f = true) : latchField f = true := by
  revert h; cases f <;> decide

/-- Any register field but those the latches write. -/
theorem latch_rd (f : Field) (i j : Nat) (h : latchField f = false) : LatchBlind fun s => s.rd f i j where
  toFaultBlind := blind_rd f i j (by
    cases hf : faultField f
    · rfl
    · rw [faultField_latch hf] at h; exact h)
  put' s r v hr := State.reg_put_other s v (by intro e; rw [e] at hr; rw [h] at hr; exact absurd hr (by decide))
  force _ _ := rfl
  floorOn _ _ := rfl
  pins _ _ := rfl
  chain _ _ := rfl
  upd _ _ := rfl
  ctrl _ _ := rfl
  floorRun _ _ := rfl

theorem latch_of (g : State → α) (hb : FaultBlind g) (hr : ∀ s x, g { s with regs := x } = g s)
    (hl : ∀ s x, g { s with limits := x } = g s) (force : ∀ s x, g { s with force := x } = g s)
    (floorOn : ∀ s x, g { s with floorOn := x } = g s) (pins : ∀ s x, g { s with pins := x } = g s)
    (chain : ∀ s x, g { s with chain := x } = g s) (upd : ∀ s x, g { s with upd := x } = g s)
    (ctrl : ∀ s x, g { s with ctrl := x } = g s) (floorRun : ∀ s x, g { s with lim := { s.lim with floorRun := x } } = g s) :
    LatchBlind g :=
  { hb with put' := fun s r v _ => State.put_other g hr hl s r v, force, floorOn, pins, chain, upd, ctrl, floorRun }

theorem latch_aon : LatchBlind fun s : State => s.aon := by apply latch_of _ blind_aon <;> intros <;> rfl
theorem latch_now : LatchBlind fun s : State => s.now := by apply latch_of _ blind_now <;> intros <;> rfl
theorem latch_rails : LatchBlind fun s : State => s.rails := by apply latch_of _ blind_rails <;> intros <;> rfl
theorem latch_dies : LatchBlind fun s : State => s.dies := by apply latch_of _ blind_dies <;> intros <;> rfl
theorem latch_halls : LatchBlind fun s : State => s.halls := by apply latch_of _ blind_halls <;> intros <;> rfl
theorem latch_lard : LatchBlind fun s : State => s.lard := by apply latch_of _ blind_lard <;> intros <;> rfl
theorem latch_parts : LatchBlind fun s : State => s.parts := by apply latch_of _ blind_parts <;> intros <;> rfl
theorem latch_clock : LatchBlind fun s : State => s.clock := by apply latch_of _ blind_clock <;> intros <;> rfl
theorem latch_hearth : LatchBlind fun s : State => s.hearth := by apply latch_of _ blind_hearth <;> intros <;> rfl
theorem latch_age : LatchBlind fun s : State => s.age := by apply latch_of _ blind_age <;> intros <;> rfl
theorem blind_limits : FaultBlind fun s : State => { s.lim with floorRun := false } := by apply blind_of <;> intros <;> rfl
theorem latch_lim : LatchBlind fun s : State => { s.lim with floorRun := false } := by apply latch_of _ blind_limits <;> intros <;> rfl
theorem latch_flash : LatchBlind fun s : State => s.flash := by apply latch_of _ blind_flash <;> intros <;> rfl
theorem latch_start : LatchBlind fun s : State => s.start := by apply latch_of _ blind_start <;> intros <;> rfl
theorem latch_free : LatchBlind fun s : State => s.free := by apply latch_of _ blind_free <;> intros <;> rfl
theorem latch_change : LatchBlind fun s : State => s.change := by apply latch_of _ blind_change <;> intros <;> rfl
theorem latch_changes : LatchBlind fun s : State => s.changes := by apply latch_of _ blind_changes <;> intros <;> rfl

/-- A fault leaves every register field of its own class's reach as it was, whatever the class. -/
theorem rd_raise_any (s : State) (x : FaultRec) (f : Field) (i j : Nat) (h : latchField f = false) : (s.raise x).rd f i j = s.rd f i j :=
  raise_latch (latch_rd f i j h) s x

/-- A fault leaves every register field it does not write as it was. -/
theorem rd_raise (s : State) (x : FaultRec) (f : Field) (i j : Nat) (hc : x.cls ≠ .fatal) (h : faultField f = false) :
    (s.raise x).rd f i j = s.rd f i j :=
  raise_blind (blind_rd f i j h) s x hc

end Sys2Proof.Machine
end

