-- ==== Sys2Proof/Laws/Frames.lean ====
section
/-!
SUPPORT. Sys2Proof/Laws/Frames.lean: how frames compose: which updates keep to a list of changes, and that the guard adds none.
-/
namespace Sys2Proof.Machine

theorem State.sameIn_refl (s : State) (x : Tab) : s.sameIn s x := by
  cases x <;> intro _ <;> rfl

theorem State.onlyChanges_refl (s : State) (l : List FieldRef) (ts : List Tab) : s.onlyChanges s l ts :=
  ⟨fun _ _ => rfl, fun x _ => s.sameIn_refl x, rfl⟩

/-- A write to a listed element keeps to the list. -/
theorem State.onlyChanges_put {s n : State} {l : List FieldRef} {ts : List Tab} (h : s.onlyChanges n l ts) (r : FieldRef) (v : Nat)
    (hr : r ∈ l) : s.onlyChanges (n.put r v) l ts := by
  refine ⟨fun a ha => ?_, fun x hx => ?_, ?_⟩
  · rw [State.reg_put_other n v (by intro e; exact ha (by rw [← e]; exact hr))]
    exact h.1 a ha
  · have := h.2.1 x hx
    revert this
    cases x <;> simp [State.sameIn, State.port, State.msixOf, State.pendOf, State.hall, State.die, State.hd, State.part,
      State.ring, State.rail]
  · rw [← h.2.2]
    exact State.put_other State.core (fun _ _ => rfl) (fun _ _ => rfl) n r v

theorem State.onlyChanges_wr {s n : State} {l : List FieldRef} {ts : List Tab} (h : s.onlyChanges n l ts) (f : Field) (v i j : Nat)
    (hr : (⟨f, i, j⟩ : FieldRef) ∈ l) : s.onlyChanges (n.wr f v i j) l ts :=
  State.onlyChanges_put h ⟨f, i, j⟩ v hr

theorem State.onlyChanges_puts {s n : State} {l : List FieldRef} {ts : List Tab} (h : s.onlyChanges n l ts) (w : List (FieldRef × Nat))
    (hr : ∀ e ∈ w, e.1 ∈ l) : s.onlyChanges (n.puts w) l ts := by
  induction w generalizing n with
  | nil => exact h
  | cons e w ih =>
    exact ih (State.onlyChanges_put h e.1 e.2 (hr e List.mem_cons_self)) fun e he => hr e (List.mem_cons_of_mem _ he)

/-- Replacing a listed table keeps to the list. -/
theorem State.onlyChanges_rails {s n : State} {l : List FieldRef} {ts : List Tab} (h : s.onlyChanges n l ts) (x : Store Nat RailState)
    (hr : Tab.rails ∈ ts) : s.onlyChanges { n with rails := x } l ts :=
  ⟨h.1, fun y hy => by have := h.2.1 y hy; revert this hy; cases y <;> first | exact fun hy => absurd hr hy | exact fun _ h => h, h.2.2⟩

theorem State.onlyChanges_dies {s n : State} {l : List FieldRef} {ts : List Tab} (h : s.onlyChanges n l ts) (x : Store Nat DieState)
    (hr : Tab.dies ∈ ts) : s.onlyChanges { n with dies := x } l ts :=
  ⟨h.1, fun y hy => by have := h.2.1 y hy; revert this hy; cases y <;> first | exact fun hy => absurd hr hy | exact fun _ h => h, h.2.2⟩

theorem State.onlyChanges_halls {s n : State} {l : List FieldRef} {ts : List Tab} (h : s.onlyChanges n l ts) (x : Store Nat HallDie)
    (hr : Tab.halls ∈ ts) : s.onlyChanges { n with halls := x } l ts :=
  ⟨h.1, fun y hy => by have := h.2.1 y hy; revert this hy; cases y <;> first | exact fun hy => absurd hr hy | exact fun _ h => h, h.2.2⟩

theorem State.onlyChanges_rings {s n : State} {l : List FieldRef} {ts : List Tab} (h : s.onlyChanges n l ts) (x : Store Nat RingState)
    (hr : Tab.rings ∈ ts) : s.onlyChanges { n with rings := x } l ts :=
  ⟨h.1, fun y hy => by have := h.2.1 y hy; revert this hy; cases y <;> first | exact fun hy => absurd hr hy | exact fun _ h => h, h.2.2⟩

theorem State.onlyChanges_ports {s n : State} {l : List FieldRef} {ts : List Tab} (h : s.onlyChanges n l ts) (x : Store Nat PortState)
    (hr : Tab.ports ∈ ts) : s.onlyChanges { n with ports := x } l ts :=
  ⟨h.1, fun y hy => by have := h.2.1 y hy; revert this hy; cases y <;> first | exact fun hy => absurd hr hy | exact fun _ h => h, h.2.2⟩

/-- The guard changes nothing more: it puts tables in canonical form and keeps the queue and the limits. -/
theorem State.onlyChanges_commit {s n : State} {l : List FieldRef} {ts : List Tab} (h : s.onlyChanges n l ts) :
    s.onlyChanges (s.commit n) l ts := by
  have hn : n.now = s.now := show n.core.now = s.core.now by rw [h.2.2]
  refine ⟨fun r hr => ?_, fun x hx => ?_, ?_⟩
  · cases hl : r.f.isLimit
    · rw [← h.1 r hr]
      simp [State.reg, hl, State.commit]
    · simp [State.reg, hl]
  · have := h.2.1 x hx
    revert this
    cases x <;> simp [State.sameIn, State.commit, State.port, State.msixOf, State.pendOf, State.hall, State.die, State.hd, State.part,
      State.ring, State.rail]
  · have hc := h.2.2
    have hp : n.pending = s.pending := show n.core.pending = s.core.pending by rw [hc]
    have hm : max s.now n.now = n.now := by omega
    rw [← hc]
    simp [State.core, State.commit, hp, hm]

/-- The same for a command that may lower limits, where it wrote none. -/
theorem get_lowered_self (x : Store FieldRef Nat) (r : FieldRef) :
    Store.get FieldRef.reset (lowered x x) r = Store.get FieldRef.reset x r := by
  unfold lowered
  rw [Store.get_seal]
  -- the first pair of a key is the value the key holds, which is not above itself
  have first : ∀ y z : Store FieldRef Nat, (∀ k, Store.get FieldRef.reset (z ++ y) k = Store.get FieldRef.reset x k) →
      (∀ e ∈ z, e.1 ≠ r) → Store.get FieldRef.reset (y.filter (fun e => limitLe e.1.f e.2 (Store.get FieldRef.reset x e.1)) ++ x) r =
        Store.get FieldRef.reset x r := by
    intro y
    induction y with
    | nil => intro z _ _; rfl
    | cons e y ih =>
      obtain ⟨a, v⟩ := e
      intro z hz hne
      by_cases ha : a = r
      · subst ha
        have hv : v = Store.get FieldRef.reset x a := by
          rw [← hz a]
          clear hz ih
          induction z with
          | nil => simp [Store.get_cons]
          | cons e z ihz =>
            obtain ⟨b, w⟩ := e
            have hb : b ≠ a := hne (b, w) List.mem_cons_self
            simp only [List.cons_append, Store.get_cons, hb, if_false]
            exact ihz fun e he => hne e (List.mem_cons_of_mem _ he)
        have hle : limitLe a.f v (Store.get FieldRef.reset x a) = true := hv ▸ limitLe_refl _ _
        rw [List.filter_cons_of_pos (by exact hle), List.cons_append, Store.get_cons, if_pos rfl, hv]
      · have step := ih (z ++ [(a, v)]) (by intro k; rw [List.append_assoc]; exact hz k) (by
          intro e he
          rcases List.mem_append.1 he with he | he
          · exact hne e he
          · rw [List.mem_singleton.1 he]; exact ha)
        by_cases hle : limitLe a.f v (Store.get FieldRef.reset x a) = true
        · simp only [hle, List.filter_cons_of_pos, List.cons_append, Store.get_cons, ha, if_false]
          exact step
        · simp only [hle, Bool.false_eq_true, not_false_eq_true, List.filter_cons_of_neg]
          exact step
  exact first x [] (fun _ => rfl) (fun _ h => absurd h (List.not_mem_nil))

end Sys2Proof.Machine
end

