-- ==== Sys2Proof/Laws/Trim.lean ====
section
/-!
SUPPORT. Sys2Proof/Laws/Trim.lean: what trimming does to an operand.
-/
namespace Sys2Proof.Machine

/-- A trimmed operand's encoding is never greater (R208). -/
theorem trimOperand_le (f : Format) (lvl x : Nat) : trimOperand f lvl x ≤ x := by
  unfold trimOperand; split <;> omega

/-- At level 0 an operand is not trimmed (R205, R207). -/
theorem trimOperand_zero (f : Format) (x : Nat) : trimOperand f 0 x = x := by
  unfold trimOperand; split
  · rfl
  · cases f <;> simp [keptBits, Nat.mod_one]

/-- An infinity or a NaN passes unchanged (R208). -/
theorem trimOperand_special (f : Format) (lvl x : Nat) (h : isSpecial f x = true) : trimOperand f lvl x = x := by
  simp [trimOperand, h]

end Sys2Proof.Machine
end

