-- ==== Sys2Proof/WellFormed.lean ====
section
/-!
DEFINITION. Sys2Proof/WellFormed.lean: the check on a command's operands: which values the hardware can present. exec does not rest on
it: a command that names a rail, phase, sensor, detector, domain or monitor that does not exist changes nothing that exists.
-/
namespace Sys2Proof
open Sys2Proof.Machine

/-- A rail channel that has a rail (R80). -/
def railOk (r : Rail) : Bool := (railType r.val).isSome

/-- A phase wired to a rail (R80). -/
def phaseOk (r : Rail) (p : Phase) : Bool := railOk r && decide (p.val < railWired r.val)

/-- A slot's samples: one sum for each wired phase, and engines named for VCMP rails only (R80, R82, R124). -/
def slotOk (r : Rail) (i : SlotInput) : Bool :=
  railOk r && decide (i.imon.length = railWired r.val) && (decide (r.val < 32) || i.starts.isEmpty)

/-- A Chain frame is 32 bytes long (R244). -/
def frameWf (f : Frame) : Bool := decide (f.bytes.length = 32)

/-- A command entry carries 56 bytes of operands (R306). -/
def entryWf (e : CmdEntry) : Bool := decide (e.oper.length = 14)

/-- One input for each die at most, and waits on cores of compute dies only (R19). -/
def inputsOk (l : List DieInput) : Bool :=
  decide ((l.map fun i => i.die).Nodup) && l.all fun i => decide (i.die.val < 32) || (i.waits.isEmpty && i.runs.isEmpty)

/-- What is found on a die names that die and detectors that it has (R155, R269). -/
def foundOk (d : Die) (f : DieFound) : Bool := decide (f.die = d) && f.dets.all fun x => decide (x.det.val < dieDetectors d.val)

/-- What a calibration step found: rails and detectors that exist, and seven coefficients for each rail (R88, R373). -/
def stepOk (r : StepResult) : Bool :=
  (r.rails.all fun x => railOk x.rail && decide (x.coefs.length = 7)) && r.dies.all fun x => foundOk x.die x

/-- A seed record is 32 bytes long (R162). -/
def seedOk (r : SeedRec) : Bool := decide (r.words.length = 8)

/-- Seed records as a buffer brings them, or a failed access. -/
def seedsOk : Dma (List SeedRec) → Bool
  | .data l => l.all seedOk
  | .failed => true

/-- A command's operands are values that the hardware can present. -/
def wellFormed : Instr → Bool
  | .registerWrite _ _ _ _ _ | .lowerHalfRead _ _ | .upperHalfWrite _ _ _ | .rcRead _ _ _ | .warmReset _ | .powerOn | .aonRemoved
  | .dieAgentReset _ | .dieAdmit _ => true
  | .periodBoundary ins => inputsOk ins
  | .reportReceived _ _ _ _ | .samplingInstant | .grantReceived _ _ | .beaconReceived | .beaconMissed | .hallForcingFault _
  | .stewardEntry _ | .stewardHoldEnd _ | .stewardTimeout | .standbyRejoin | .powerAlertAssert | .powerAlertRelease
  | .throttleEdge _ | .descriptorEntersWindow _ _ _ _ _ | .stepRequest _ _ _ | .invocationComplete _ _ _ _
  | .computeRecoveryReset _ | .admissionArbitration _ => true
  | .railSlot rail inp => slotOk rail inp
  | .pulseCurrentLimit rail phase _ _ => phaseOk rail phase
  | .imonMask rail phase => phaseOk rail phase
  | .vmaxCut rail => railOk rail
  | .phaseShed rail => railOk rail
  | .compCommit rail => railOk rail
  | .railEnable rail => railOk rail
  | .railDisable rail => railOk rail
  | .checkInputPresent rail => railOk rail
  | .checkInputTimeout rail => railOk rail
  | .checkDecayed rail => railOk rail
  | .checkDecayTimeout rail => railOk rail
  | .checkWindowEnd rail win => railOk rail && decide (win.offs.length = railWired rail.val)
  | .railStartTimeout rail => railOk rail
  | .hiccupEntry rail _ => railOk rail
  | .hiccupEnd rail => railOk rail
  | .consecClear rail => railOk rail
  | .railInputLost rail => railOk rail
  | .railDownComplete rail => railOk rail
  | .railTel1s rail => railOk rail
  | .hearthBoundary | .accumulatorCheckpoint | .hearthRunCommit | .hearthRunMissed => true
  | .thermalConversion die idx _ => decide (idx.val < dieSensors die.val)
  | .lintelTripRelease => true
  | .sensorSelftest die idx _ => decide (idx.val < dieSensors die.val)
  | .inletWrite _ _ | .inletStale | .windowLatch1s | .windowLatch30s | .telemetrySample _ | .statementPeriodic _
  | .statementDelivery _ | .xtalAmplitude _ | .xtalStable _ | .xtalLoss _ | .xtalTimeout _ | .xtalRetry _ | .oscTrimGate _ _
  | .refSwitch | .pllLossOfLock _ | .pllRelock _ | .pllHoldoverTimeout _ | .divisorRampStep _ => true
  | .droopTrip die det _ _ => decide (det.val < dieDetectors die.val)
  | .droopHoldEnd die dom _ => decide (dom.val < dieDomains die.val)
  | .droopReleaseStep die run => decide (run.dom.val < dieDomains die.val)
  | .detectorSelftest _ _ _ => true
  | .detectorTargetedTest die det _ _ _ => decide (det.val < dieDetectors die.val)
  | .droopPersist die dom => decide (dom.val < dieDomains die.val)
  | .droopPersistLong die dom => decide (dom.val < dieDomains die.val)
  | .larderUpdateRecord _ | .larderLookupRequest _ _ | .cellarReadComplete _ | .lookupReply _ | .lookupTimeout _
  | .larderMirrorReceive | .partitionWrite _ _ _ _ | .twoPhasePrepare _ | .twoPhaseCommit _ | .twoPhaseAbort | .fatalLatch _ _
  | .escalation _ | .faultAck _ _ | .firstErrorRearm _ _ | .injectLard1 _ | .injectLard2 _ | .injectCell1 _ | .injectCell2 _
  | .injectLane _ _ | .injectMbox _ _ | .injectChain _ | .chnInjCrcinv _ | .errorPairLevel _ _ _ => true
  | .phaseSelftest rail phase _ _ => phaseOk rail phase
  | .memoryWordSelftest _ _ _ | .laneSelftest _ _ _ | .mailboxSelftest _ _ | .agentUnresponsive _ | .islandCycleEnd _
  | .watchdogExpiry _ | .lockstepMismatch _ _ | .chainAligned | .chainAlignLoss | .chainListenEnd | .chainNolink | .frameInsert
  | .frameAbort => true
  | .crcErrorFrame f _ => frameWf f
  | .reservedFrame f => frameWf f
  | .frameStrip f => frameWf f
  | .claimSend => true
  | .claimReceived f => frameWf f
  | .claimBackoffEnd | .ledgerSend => true
  | .ledgerPass f => frameWf f
  | .ledgerReturn f => frameWf f
  | .ledgerLost => true
  | .offerReceived f => frameWf f
  | .offerReturn f => frameWf f
  | .offerTimeout _ | .chainBeaconSend => true
  | .chainBeaconReceived f => frameWf f
  | .versionSend => true
  | .versionReceived f => frameWf f
  | .homeWrite _ _ | .ageMeasureStart _ => true
  | .ageMeasureComplete die counts => decide (counts.length = dieMonitors die.val)
  | .ageMeasureAbandon _ _ => true
  | .ageReplan die found => foundOk die found
  | .monitorSelftest die idx _ _ => decide (idx.val < dieMonitors die.val)
  | .optimeSave | .agePend _ | .doorbellSet _ _ | .doorbellTake _ _ | .controlBlockPoll _ _ | .ringSetEnable _ _ _
  | .ringSetDisable _ _ _ | .ringSetIdle _ | .hostAccessFail _ => true
  | .commandFetch _ entry => entryWf entry
  | .nop _ _ | .ackfault _ _ | .setclass _ _ | .statement _ _ | .endjob _ _ | .bind _ _ | .setpolicy _ _ | .hostcap _ _ => true
  | .lseed _ _ recs => seedsOk recs
  | .lclear _ _ | .lexport _ _ _ | .freeze _ _ | .snapshot _ _ | .snapshotCapture _ _ _ | .update _ _ _ | .policyInstall _ _ _
  | .msixModerationExpiry _ | .mailboxPost _ _ _ | .mailboxRelease _ _ | .mailboxRead _ _ _ | .bootRom _ _ | .policyApply _
  | .crcSeed _ _ | .crcFeedWord _ _ | .crcFeedByte _ _ | .updateDownloadDone _ | .updateVerifyDone | .standbyLoaded
  | .handoverReply _ | .updateSwap | .takeoverComplete | .takeoverDeadline | .oldHallReloaded | .updateConfirm _ | .updateAbort _
  | .obsSecondLatch | .viewQdataRead _ _ _ | .freezeArm _ _ | .freezeStart | .freezeThaw _ | .freezeMaxExpiry | .traceDrain _
  | .traceVectorTimer | .atticRecordWrite _ | .atticFailure | .atticCursorWrite _ _ | .atticFetchComplete _ | .atticData7Read _
  | .atticFreeze _ | .atticFreezeExpiry | .stateAdvance | .railGroupStart => true
  | .calibrationStepEnd r => stepOk r
  | .calibratingWaitExpiry | .entdaa _ | .rstdaa | .setnewda _ | .enec | .disec | .getpid | .getbcr | .getdcr | .getstatus
  | .getmwl | .getmrl | .i3cPrivateWrite _ => true
  | .i3cPrivateRead words => decide (1 ≤ words) && decide (words ≤ 16)
  | .ibiRetry | .tmHeartbeatEdge _ | .tmHeartbeatPresent | .tmHeartbeatLost | .held8s | .govHeartbeatToggle | .shutdown _ _
  | .shutdownDrainEnd | .shutdownRailGroupStop | .xtalCountDrop _ | .rootPllLock _ => true
  | .shortInWindow rail => railOk rail
  | .govErrReadback _ | .traceRingPoll _ | .waitEnd _ _ | .pcieLinkChange _ _ => true

end Sys2Proof
end

