-- ==== Sys2Proof/Tests/Slice0.lean ====
section
/-!
SUPPORT. Sys2Proof/Tests/Slice0.lean: the check on operands and what it refuses; small tests of single commands, with results worked
out from the spec; and, for the statements, states in which their hypotheses hold.
-/
namespace Sys2Proof.Tests
set_option Elab.async false
open Sys2Proof Sys2Proof.Machine

/-- The state that a command leaves. -/
def after (c : Instr) (s : State) : State :=
  match exec c s with
  | .next t => t
  | _ => s

/-! ## Operands that the hardware cannot present -/

/-- A channel with no rail (R80). -/
theorem test_refuses_rail : wellFormed (.railEnable 63) = false ∧ wellFormed (.railEnable 31) = true := by decide +kernel

/-- A phase that is not wired: VMEM rails have 2 (R80). -/
theorem test_refuses_phase : wellFormed (.imonMask 40 2) = false ∧ wellFormed (.imonMask 40 1) = true := by decide +kernel

/-- A slot with samples of three of a VCMP rail's phases. -/
theorem test_refuses_slot :
    wellFormed (.railSlot 5 { vsense := 1500, imon := [1, 2, 3], samples := 36, tmon := 600, starts := [] }) = false ∧
    wellFormed (.railSlot 5 { vsense := 1500, imon := [1, 2, 3, 4], samples := 36, tmon := 600, starts := [] }) = true := by decide +kernel

/-- A frame of 31 bytes (R244). -/
theorem test_refuses_frame :
    wellFormed (.claimReceived { bytes := List.replicate 31 0 }) = false ∧ wellFormed (.claimReceived { bytes := List.replicate 32 0 }) = true := by
  decide +kernel

/-- A command entry one word short (R306). -/
theorem test_refuses_entry :
    wellFormed (.commandFetch 0 { cmdw := 0, tgt := 0, oper := List.replicate 13 0 }) = false ∧
    wellFormed (.commandFetch 0 { cmdw := 0, tgt := 0, oper := List.replicate 14 0 }) = true := by decide +kernel

def tInput (d : Die) : DieInput := { die := d, vOwn := 1500, vMem := 1500, vPhy := 1500, acts := [], runs := [], waits := [] }

/-- Two inputs of one die. -/
theorem test_refuses_inputs :
    wellFormed (.periodBoundary [tInput 3, tInput 3]) = false ∧ wellFormed (.periodBoundary [tInput 3, tInput 39]) = true := by decide +kernel

/-- What is found on a die under another die's name. -/
theorem test_refuses_found :
    wellFormed (.ageReplan 3 { die := 4, dets := [], coefs := [], leak := [], memlk := none, ffgain := none }) = false ∧
    wellFormed (.ageReplan 3 { die := 3, dets := [], coefs := [], leak := [], memlk := none, ffgain := none }) = true := by decide +kernel

/-- Six of the seven coefficients of a rail (R88). -/
theorem test_refuses_step_result :
    wellFormed (.calibrationStepEnd { rails := [{ rail := 2, coefs := List.replicate 6 0 }], dies := [], missed := [] }) = false ∧
    wellFormed (.calibrationStepEnd { rails := [{ rail := 2, coefs := List.replicate 7 0 }], dies := [], missed := [] }) = true := by decide +kernel

/-- A seed record of tag 5, layer 1 and operation 1: EMEAN 1 000, DMEAN 100, COUNT 9 and MAXSTEP 3, laid out word by word (R162). -/
def tSeed (prec : Nat) : SeedRec := { words := [0x00010005, BitVec.ofNat 32 (2 ^ 16 * prec + 1), 1000, 100, 0, 0x3009, 0, 0] }

/-- A seed record one word short (R162). -/
theorem test_refuses_seed :
    wellFormed (.lseed 0 0 (.data [{ words := (tSeed 3).words.take 7 }])) = false ∧ wellFormed (.lseed 0 0 (.data [tSeed 15])) = true ∧
    wellFormed (.lseed 0 0 .failed) = true := by decide +kernel

/-- A seed record is read in the layout of a Larder entry; one of a reserved bit is not legal (R162). -/
theorem test_seed_layout :
    readSeed (tSeed 3) = ({ key := { tag := 5, layer := 1, op := 1, prec := 3 }, emean := 1000, dmean := 100, evar := 0, count := 9, maxstep := 3
                            seeded := false, last := 0 }, true) ∧ (readSeed (tSeed 16)).2 = false := by decide +kernel

/-- Sensors, detectors, domains and monitors beyond those of a die. -/
theorem test_refuses_units :
    wellFormed (.thermalConversion 36 47 0) = false ∧ wellFormed (.droopTrip 36 63 0 0) = false ∧ wellFormed (.droopHoldEnd 36 3 []) = false ∧
    wellFormed (.monitorSelftest 36 4 0 true) = false ∧ wellFormed (.ageMeasureComplete 36 []) = false ∧
    wellFormed (.checkWindowEnd 5 { offs := [0], vsense := 0 }) = false := by decide +kernel

/-- An I3C read of no words, or of more than 64 bytes. -/
theorem test_refuses_i3c_read :
    wellFormed (.i3cPrivateRead 0) = false ∧ wellFormed (.i3cPrivateRead 17) = false ∧ wellFormed (.i3cPrivateRead 16) = true := by decide +kernel

/-! ## States in which the hypotheses of the statements hold: a witness has the name of its statement, and of a part of it where there are several -/

/-- FULL, with die 2 out of reset. -/
def wFull : State := (State.reset.wr .govStateCur 3).updDie 2 fun x => { x with inReset := false }

/-- Writes of register fields, one after another: field, instance, element and value. -/
def wrs (s : State) (l : List (Sys2Proof.Machine.Field × Nat × Nat × Nat)) : State := s.each l fun s x => s.wr x.1 x.2.2.2 x.2.1 x.2.2.1

/-- FULL, with partition 3 bound to dies 4 to 7, and its ring set RUNNING, privileged and with rings of 16 entries; Hall A's control complex
runs. -/
def wPart : State :=
  (wrs wFull [(.alcPartBindValid, 0, 3, 1), (.alcPartBindTag, 0, 3, 5), (.alcPartDies, 0, 3, 0xF0), (.hifRsStatState, 0, 3, 1),
    (.hifRsCtrlEn, 0, 3, 1), (.hifRsCmdbase, 0, 3, 0x10000), (.hifRsCplbase, 0, 3, 0x20000), (.hifRsStmbase, 0, 3, 0x30000),
    (.hifRsSizesCmd, 0, 3, 4), (.hifRsSizesCpl, 0, 3, 4), (.hifRsSizesTel, 0, 3, 4), (.hifRsSizesStm, 0, 3, 4), (.obsPrivRs, 0, 0, 3),
    (.obsPrivValid, 0, 0, 1)]).updHall 0 fun x => { x with up := true }

/-- The same with a CONTAINED fault of mailbox 1 pending in slot 0. -/
def wPend : State := after (.mailboxSelftest 1 false) wPart

theorem witness_SupplyRemovedAndApplied :
    wPart.aon = true ∧ ({ wPart with aon := false } : State).aon = false ∧ ({ wPart with aon := false } : State).pins.powerAlertN = true ∧
    ({ wPart with aon := false, pins := { wPart.pins with powerAlertN := false } } : State).pins.powerAlertN = false := by decide +kernel

theorem witness_DiscardedWritesAndEmptyAddresses_DiscardedWritesSetAccerr :
    wFull.aon = true ∧ Width.half ≠ .word ∧ (0x4002#20).toNat % 4 ≠ 0 ∧
    (locate (0x48000#20).toNat = none ∧ ¬ (0xC000 ≤ (0x48000#20).toNat ∧ (0x48000#20).toNat < 0x10000)) ∧
    locate (0x00FF0#20).toNat = some (.gov, 0, 0xFF0) ∧ reaches .cc .gov 0xFF0 = true ∧ isMsix .gov 0xFF0 = false ∧
    definedWord .gov 0xFF0 = false ∧ locate ((0x48001#20).toNat - (0x48001#20).toNat % 4) = none := by decide +kernel

theorem witness_AccessKindsLand_AccessKinds : wFull.aon = true ∧ wFull.frozen = none ∧ wFull.rd .govStatusAccerr ≤ 1 := by decide +kernel

theorem witness_HalvesOfWideRegisters_UpperHalfCommits :
    ((wFull.setHeld .cc 0x80030 (some (0x80030, 7))).heldHalf .cc (0x80000 + 16 * 3) = some (0x80000 + 16 * 3, 7)) ∧
    wFull.heldHalf .cc (0x80000 + 16 * 3) = none := by decide +kernel

theorem witness_FatalLatchesAndFailsafe : wFull.aon = true ∧ wFull.flag .fltStatusFatal = false := by decide +kernel

theorem witness_EscalationStopsPartitions :
    wPend.aon = true ∧ wPend.flag .fltPendValid 0 0 = true ∧ 3 ∈ wPend.scopeParts (scopeOf (wPend.rd .fltPendScope 0 0)) (wPend.pendOf 0).unit := by
  decide +kernel

theorem witness_FirstErrorIsCaptured :
    wFull.now < 2 ^ 64 ∧ wFull.flag .fltFirstValid 0 0 = false ∧ (wFull.wr .fltFirstValid 1 0 0).flag .fltFirstValid 0 0 = true := by
  decide +kernel

theorem witness_SelfTestsAndErrorPairs_ErrorPairLevels : (wFull.hd 5).pairTo 1 = false ∧ (wFull.hd 5).pairTo (1 - 1) = false := by decide +kernel

theorem witness_SelfTestsAndErrorPairs_SelfTestsRetire : (wFull.wr .rgcPhstatPh 8 2 1).phMasked 2 1 = true := by decide +kernel

/-- A report of generation 0 on both lanes of die 5. -/
def wReport : Report :=
  { period := 0, gen := 0, energy := 0, cum := 0, idleCum := 0, fc := [], cores := [], vref := 0, leakTerm := 0, c15 := 0, vNow := 0, links := 0,
    acks := [], fatalReq := false }

/-- A grant of period 1, generation 0 and role epoch 0. -/
def wGrant : Grant := { period := 1, gen := 0, epoch := 0, g := 400, sb := 0, maxdly := 0, cores := [], stewsh := 0, invals := [] }

def wLane (r : Report) : State := wFull.updDie 5 fun x => { x with laneA := [r], laneB := [r] }
def wGrantOn (g : Grant) : State := wFull.updHd 5 fun x => { x with lane := [g] }

/-- Die 5 not admitted, its report at hand, late or in time, and a copy of its gain to restore. -/
def wKnock : State := (wLane wReport).updHd 5 fun x => { x with rep := some wReport, admitted := false, copy := [(⟨.dagEgainGown, 5, 0⟩, 70000)] }
def wLate : State := wKnock.updHd 5 fun x => { x with rep := none, late := some wReport }

/-- The island of die 3 has just been cut. -/
def wCut : State := (wFull.updDie 3 fun x => { x with powered := false }).updHd 3 fun x => { x with admitted := false, cutAt := some 0 }

theorem witness_AgentsRestartOrAreCut_DieAgentsRestartAndAreAdmitted :
    (wCut.die 3).powered = false ∧ (wKnock.hd 5).admitted = false ∧ (wKnock.die 5).powered = true ∧ (wKnock.hd 5).newest = some wReport ∧
    (wLate.hd 5).newest = some wReport ∧ wReport.gen = (wKnock.die 5).gen ∧ (wKnock.hd 5).copy = [(⟨.dagEgainGown, 5, 0⟩, 70000)] ∧
    Sys2Proof.Machine.Field.dagEgainGown ∈ copiedFields ∧ (⟨.dagEgainGown, 5, 0⟩ : FieldRef).exists = true ∧ (wCut.hd 3).cutAt = some 0 := by
  decide +kernel

theorem witness_AgentsRestartOrAreCut_UnresponsiveAgents :
    (wFull.updHd 3 fun x => { x with silent := 16 }).unresponsive 3 = true ∧ (wFull.updHd 37 fun x => { x with silent := 16 }).unresponsive 37 = true ∧
    (wFull.updHd 33 fun x => { x with laneOutA := true, laneOutB := true }).unresponsive 33 = true := by decide +kernel

theorem witness_FastPeriod_BoundaryReportsAndApplies :
    (wFull.die 5).powered = true ∧ (wFull.die 5).next = none ∧
    ((wFull.updDie 5 fun x => { x with next := some wGrant }).die 5).next = some wGrant := by decide +kernel

theorem witness_ReportsAndGrants_ReportsUsedOrDropped :
    (0 : Fin 2).val = (wLane wReport).active ∧ ((wLane wReport).die 5).laneTo 0 = [wReport] ∧ 5 ∉ (wLane wReport).inject.lanes ∧
    wReport.gen = ((wLane wReport).die 5).gen ∧ ({ wReport with gen := 1 } : Report).gen ≠ ((wLane { wReport with gen := 1 }).die 5).gen := by
  decide +kernel

theorem witness_ReportsAndGrants_TheStandbyUsesNone :
    (1 : Fin 2).val ≠ (wLane wReport).active ∧ ((wLane wReport).die 5).laneTo 1 = [wReport] := by decide +kernel

theorem witness_ReportsAndGrants_GrantsTakenOrDiscarded :
    ((wGrantOn wGrant).hd 5).lane = [wGrant] ∧ ((wGrantOn wGrant).die 5).powered = true ∧ wGrant.gen = ((wGrantOn wGrant).die 5).gen ∧
    ((wGrantOn wGrant).die 5).epoch ≤ wGrant.epoch ∧ ((wGrantOn wGrant).die 5).applied ≠ some wGrant.period ∧
    ((wGrantOn wGrant).die 5).next = none ∧
    ({ wGrant with gen := 7 } : Grant).gen ≠ ((wGrantOn { wGrant with gen := 7 }).die 5).gen ∧
    wGrant.epoch < (((wGrantOn wGrant).updDie 5 fun x => { x with epoch := 1 }).die 5).epoch ∧
    (((wGrantOn wGrant).updDie 5 fun x => { x with applied := some 1 }).die 5).applied = some wGrant.period ∧
    (((wGrantOn wGrant).updDie 5 fun x => { x with next := some wGrant }).die 5).next = some wGrant ∧
    (((wGrantOn wGrant).updDie 5 fun x => { x with next := some { wGrant with period := 0 } }).die 5).next = some { wGrant with period := 0 } ∧
    ({ wGrant with period := 0 } : Grant).period ≠ wGrant.period := by decide +kernel

/-- The agent of die 2 is admitted, and has been in STEWARD for 9 periods. -/
def wSteward : State := (wFull.updHd 2 fun x => { x with admitted := true }).updDie 2 fun x => { x with steward := true, held := 9 }

theorem witness_StewardStages :
    ((wFull.updHd 5 fun x => { x with admitted := true }).hd 5).admitted = true ∧
    ((wFull.updHd 5 fun x => { x with admitted := true }).die 5).steward = false ∧ (wFull.die 5).powered = true ∧ (wFull.die 5).next = none ∧
    (wFull.hd 5).admitted = false ∧ wFull.svc ≠ svcFailsafe ∧ wFull.svc ≠ svcSteward ∧ (wSteward.die 2).steward = true ∧
    (wSteward.hd 2).admitted = true ∧ 9 ≤ (wSteward.die 2).held ∧ (wFull.wr .govStateCur svcSteward).svc = svcSteward ∧
    (wFull.wr .govStateCur svcSteward).flag .fltStatusFatal = false := by decide +kernel

theorem witness_HallRolesChange_BeaconsAndTakeover :
    (wFull.wr .govHallStbyrdy 1).flag .govHallStbyrdy = true ∧ (wFull.wr .govHallStbyrdy 1).missed < 3 ∧
    3 ≤ ({ wFull.wr .govHallStbyrdy 1 with missed := 3 } : State).missed ∧ wFull.active ≤ 1 := by decide +kernel

theorem witness_HallRolesChange_ForcingFaultsChangeRoles : wPart.active ≤ 1 ∧ (wPart.hall 0).up = true := by decide +kernel

/-- The boot selector names slot 0 and is confirmed. -/
def wSelected : State :=
  (State.reset.program 0 ({ seq := 1, act := 0, prev := 255, trial := 0, confirmed := true } : Sel).words).program 1 []

theorem witness_CrcAndBoot_BootAndRejoin :
    (wSelected.hall 0).up = false ∧ wSelected.flag .fltStatusFatal = false ∧ wSelected.start.booted = false ∧ wSelected.sel.confirmed = true ∧
    ((wSelected.updHall 0 fun x => { x with tried := true }).hall 0).tried = true ∧ wPart.flag .govHallStbyrdy = false ∧
    ((wPart.updStart fun x => { x with booted := true }).updHall 1 fun x => { x with up := true }).start.booted = true ∧
    (((wPart.updStart fun x => { x with booted := true }).updHall 1 fun x => { x with up := true }).hall (1 - wPart.active)).up = true := by
  decide +kernel

theorem witness_CrcAndBoot_CrcUnit : wFull.rd .fwcCrcout Port.cc.num < 2 ^ 32 := by decide +kernel

/-- An update of slot 1 at stage n, with images of format 1 in both slots. -/
def wUpdate (n : Nat) : State :=
  { ((wPart.wr .fwcUpdStage n).program 3 [0x46574B45, 0x01010001]).program 4 [0x46574B45, 0x01010001] with
      upd := { wPart.upd with slot := 1, words := [7, 8, 9] } }

theorem witness_LiveUpdates_UpdateStagesAdvance :
    (∀ n, n < 9 → (wUpdate n).aon = true ∧ (wUpdate n).active ≤ 1 ∧ (wUpdate n).rd .fwcUpdStage = n) ∧ (wUpdate 4).upd.accepted = false ∧
    (wUpdate 4).formatRead = true ∧ ({ wUpdate 4 with upd := { (wUpdate 4).upd with accepted := true } } : State).upd.accepted = true ∧
    (wUpdate 7).rd .fwcBootSvnf ≤ 63 ∧ ∀ k, k < 2 → imgSvn ((wUpdate 7).region (3 + k)) ≤ 63 := by decide +kernel

/-- Rail 3 in a state and its check at a step, its die and its memory rail alive. -/
def wRail (st chk : Nat) : State := ((wFull.wr .rgcStatusState st 3).wr .rgcCfgEn 1 3).updRail 3 fun x => { x with chk, vs := 1500 }

theorem witness_RailSlots :
    (wRail railReg 0).aon = true ∧ (wRail railReg 0).railOn 3 = true ∧ (wRail railReg 0).railLives 3 = true ∧ (wRail railRamp 0).railOn 3 = true ∧
    (wRail railDown 0).railOn 3 = true ∧ ((wRail railReg 0).rail 3).sumOver = false ∧
    (((wRail railReg 0).updRail 3 fun x => { x with sumOver := true }).rail 3).sumOver = true ∧
    (((wRail railReg 0).updRail 3 fun x => { x with newComp := some [1, 2, 3, 4, 5, 6, 7] }).rail 3).newComp = some [1, 2, 3, 4, 5, 6, 7] ∧
    (wRail railReg 0).rd .rgcStaggerOffs 3 < (wRail railReg 0).slotS 3 ∧ 1 ≤ (((wRail railReg 0).updRail 3 fun x => { x with slot := 1 }).rail 3).slot ∧
    ((wRail railReg 0).updDie 3 fun x => { x with powered := false }).railLives 3 = false ∧ (wRail railOff 0).railOn 3 = false := by
  decide +kernel

/-- Rail 33 follows rail 2 in rail states of their own; or follows itself, without end. -/
def wFollow (st lead chk : Nat) (leader : Nat := 2) : State :=
  ((wrs wFull [(.rgcSeqMode, 33, 0, 1), (.rgcSeqLeader, 33, 0, leader), (.rgcStatusState, 33, 0, st), (.rgcStatusState, 2, 0, lead)])).updRail 33
    fun x => { x with chk }

theorem witness_RailStartsAndChecks_RailStartsThroughCheck :
    (railType 3).isSome = true ∧ (wRail railOff 0).leader 3 = none ∧ (wRail railOff 0).railSt 3 = railOff ∧ (wRail railOff 0).railLives 3 = true ∧
    (wRail railOff 0).leadersOk 3 4 3 = true ∧
    ∀ k, k < 3 → (wRail railCheck k).railSt 3 = railCheck ∧ ((wRail railCheck k).rail 3).chk = k ∧ (wRail railCheck k).waitsLeader 3 = false := by
  decide +kernel

theorem witness_RailStartsAndChecks_RailsThatFollow :
    (railType 33).isSome = true ∧ (wFollow railOff railReg 0).railSt 33 = railOff ∧ (wFollow railOff railReg 0).railLives 33 = true ∧
    (wFollow railOff railReg 0).leader 33 = some 2 ∧ (wFollow railOff railReg 0).leadersOk 33 4 33 = true ∧
    (wFollow railOff railReg 0).railSt 2 ≠ railOff ∧ (wFollow railOff railOff 0).railSt 2 = railOff ∧
    (wFollow railOff railOff 0).leadersOk 33 4 33 = true ∧ (wFollow railOff railReg 0 33).leadersOk 33 4 33 = false ∧
    (wFollow railCheck railCheck 2).waitsLeader 33 = true ∧ (wFollow railCheck railCheck 2).railSt 33 = railCheck ∧
    ((wFollow railCheck railCheck 2).rail 33).chk = 2 ∧ ({ offs := [0], vsense := 500 } : WindowRead).vsense ≤ 500 ∧
    500 < ({ offs := [0], vsense := 501 } : WindowRead).vsense := by decide +kernel

theorem witness_RailTroubleAndRecovery_RailStopsAndRecovers : ∀ st, st < 8 → (wRail st 0).railSt 3 = st := by decide +kernel

theorem witness_RailTroubleAndRecovery_HiccupsLatchAtFour :
    10 * (((wRail railRamp 0).updRail 3 fun x => { x with vs := 0 }).rail 3).vs < 9 * ((wRail railRamp 0).updRail 3 fun x => { x with vs := 0 }).target 3 ∧
    8 ≤ (((wRail railReg 0).updRail 3 fun x => { x with cutRun := 8 }).rail 3).cutRun ∧
    (((wRail railCheck 2).updRail 3 fun x => { x with sumOver := true }).rail 3).sumOver = true ∧
    ((wRail railCheck 2).updRail 3 fun x => { x with sumOver := true }).sumStops 3 = true ∧
    ((wRail railDown 0).updRail 3 fun x => { x with vref := 200 }).railSt 3 = railDown ∧
    (((wRail railDown 0).updRail 3 fun x => { x with vref := 200 }).rail 3).vref ≤ 200 ∧
    200 < (((wRail railDown 0).updRail 3 fun x => { x with vref := 201 }).rail 3).vref ∧
    (((wRail railReg 0).updRail 3 fun x => { x with regAt := some 7 }).rail 3).regAt = some 7 ∧
    ((wRail railReg 0).updRail 3 fun x => { x with regAt := some 7 }).railSt 3 = railReg ∧ 33 ∈ (wFollow railReg railReg 0).takenWith 2 := by
  decide +kernel

theorem witness_RailGuardsAndService_RailProtections :
    4 ≤ (((wRail railReg 0).updRail 3 fun x => { x with above := 4 }).rail 3).above ∧ 2 < railWired 3 ∧ (wRail railReg 0).phMasked 3 2 = false ∧
    (wRail railReg 0).phRetired 3 2 = false := by decide +kernel

/-- Rail 3 in REG with three phases active and its current low for long. -/
def wShed : State :=
  ((((wRail railReg 0).wr .rgcPhstatPh 1 3 0).wr .rgcPhstatPh 1 3 1).wr .rgcPhstatPh 1 3 2).updRail 3 fun x => { x with low := 2 ^ 40 }

theorem witness_RailGuardsAndService_RailSheddingTuningTelemetry :
    wShed.mayShed 3 = true ∧ wShed.rd .rgcShedDly 3 * wShed.slotN 3 ≤ (wShed.rail 3).low ∧ wShed.rd .rgcShedPhmin 3 < (wShed.actives 3).length ∧
    (wShed.actives 3).getLast? = some 2 ∧ wShed.phRetired 3 2 = false ∧
    ((wShed.updRail 3 fun x => { x with sec := { x.sec with n := 1, v := 1500 } }).rail 3).sec.n ≠ 0 ∧ wShed.railSt 3 = railReg ∧
    (wRail railOff 0).railSt 3 ≠ railReg := by decide +kernel

/-- Phase 2 of rail 3 carries a pulse. -/
def wPulse : State := wShed.updRail 3 fun x => { x with pulse := some (2, 300) }

theorem witness_RailGuardsAndService_PulsesEnd :
    wPulse.sumStops 3 = true ∧ (wRail railOff 0).sumStops 3 = false ∧ (wPulse.rail 3).pulse = some (2, 300) ∧
    (wPulse.phActive 3 2 && (decide (wPulse.ocp 3 ≤ 0xFFFFF) || decide (wPulse.rd .rgcOclimPhase 3 ≤ 0xFFFFF))) = true ∧
    (wPulse.phActive 3 2 && (decide (wPulse.ocp 3 ≤ 0) || decide (wPulse.rd .rgcOclimPhase 3 ≤ 0))) = false ∧
    (wPulse.phActive 3 3 && (decide (wPulse.ocp 3 ≤ 0xFFFFF) || decide (wPulse.rd .rgcOclimPhase 3 ≤ 0xFFFFF))) = false := by decide +kernel

/-- Shadow coefficients that pass the pole check, on a rail in a state, and a set that does not: A1 alone is 1 ulp too far from −1 for it. -/
def wShadow (st : Nat) (a1 : Nat) : State := (wRail st 0).updRail 3 fun x => { x with shadow := [100, 200, 300, 400, a1, 0, 0] }

theorem witness_RailGuardsAndService_CoefficientsCommit :
    ((wShadow railReg 0xC000).rail 3).shadow.length = 7 ∧
    (16384 + toSigned 16 0xC000 + toSigned 16 0 + toSigned 16 0).natAbs ≤ 1 ∧ ¬ (16384 + toSigned 16 0xC002 + toSigned 16 0 + toSigned 16 0).natAbs ≤ 1 ∧
    (wShadow railReg 0xC000).railOn 3 = true ∧ (wShadow railOff 0xC000).railOn 3 = false := by decide +kernel

/-- A descriptor of step class 7 at the head of engine 3 of core 1 of die 2. -/
def wWindow : State := after (.descriptorEntersWindow 2 1 3 (.queue 5) 0x7FFFFFFFFF) wFull

theorem witness_WindowsAndRequests_WindowsFillAndDrain :
    (wFull.die 2).powered = true ∧ (wFull.die 2).inReset = false ∧ wFull.svc ≠ svcCold ∧ ((wFull.die 2).window (1 * 6 + 3)).length < 8 ∧
    ((wWindow.die 2).window (1 * 6 + 3)).length = 1 ∧ (State.reset.die 2).inReset = true := by decide +kernel

theorem witness_WindowsAndRequests_RequestsAndArbitration :
    (wWindow.die 2).inReset = false ∧ ((wWindow.die 2).window (1 * 6 + 3)).all (fun w => !w.running && decide (wWindow.threshold 2 ≤ w.step)) = true ∧
    (wWindow.die 2).adm.reqs = [] ∧ (wWindow.die 2).adm.arbDone = false ∧ (after .powerAlertAssert wWindow).floorOn = true := by decide +kernel

/-- Step 4 of CALIBRATING, with a descriptor and a pattern in two windows of die 2, and a window of eight. -/
def wPattern : State :=
  let s := (wWindow.wr .govStateCur svcCalibrating).updStart fun x => { x with step := 4 }
  after (.descriptorEntersWindow 2 1 4 .pattern 0x7FFFFFFFFF) s
def wEight : State := wFull.updDie 2 fun x => { x with windows := [(9, List.replicate 8 (readPowerWord 0 (.queue 5) 0))] }

theorem witness_WindowsAndRequests_PatternsRunInCalibrating :
    wPattern.patternsRun = true ∧ wFull.patternsRun = false ∧ 8 ≤ ((wEight.die 2).window (1 * 6 + 3)).length ∧ wPattern.svc = svcCalibrating ∧
    ((wPattern.die 2).window (1 * 6 + 3)).all (fun w => !w.pattern && !w.running && decide (wPattern.threshold 2 ≤ w.step)) = true ∧
    ((wPattern.die 2).window (1 * 6 + 4)).all (fun w => w.pattern && !w.running && decide (wPattern.threshold 2 ≤ w.step)) = true ∧
    ((wPattern.die 2).window (1 * 6 + 3)).length = 1 ∧ ((wPattern.die 2).window (1 * 6 + 4)).length = 1 := by decide +kernel

/-- One request on die 2 that waits to be arbitrated, its rail in REG and its budget at hand. -/
def wAsk : AdmReq :=
  { core := 1, eng := 3, queue := 5, pattern := false, cls := 2, charge := some 2, learned := false, dly := 0, hit := false }
def wAsking : State :=
  ((wrs wFull [(.rgcStatusState, 2, 0, railReg), (.dagGrantSb, 2, 0, 64), (.rgcVidV, 2, 0, 1500)]).updHd 2 fun x => { x with admitted := true }).updDie 2
    fun x => { x with adm := { x.adm with reqs := [wAsk] } }

theorem witness_WindowsAndRequests_ARequestAloneIsServed :
    (wAsking.die 2).powered = true ∧ (wAsking.die 2).inReset = false ∧ (wAsking.die 2).adm.reqs = [wAsk] ∧ wAsk.charge = some 2 ∧
    (wAsking.die 2).adm.debt = 0 ∧ (wAsking.die 2).adm.excess = 0 ∧ (wAsking.die 2).adm.limiters = [] ∧ (wAsking.die 2).adm.arbDone = false ∧
    wAsking.refusedAtOnce 2 (wAsking.slotBudget 2) wAsk = none ∧ wAsking.slowStart 2 = false ∧ classBound 2 ≤ wAsking.slotBudget 2 ∧
    wAsking.chargePower 2 (classBound 2) ≤ wAsking.headroom 2 := by decide +kernel

/-- Keys of tag 5, and the entry of one. -/
def wKey (n : Nat) : LKey := { tag := 5, layer := n, op := 1, prec := 3 }
def wEntry (n : Nat) : LEntry := { key := wKey n, emean := 1000, dmean := 100, evar := 0, count := 9, maxstep := 3, seeded := false, last := 0 }

/-- Records, lookups, replies and streamed entries on their way. -/
def wLard : State :=
  { (wPart.updDie 4 fun x => { x with replies := [{ key := wKey 1, ent := some (wEntry 1), gen := 0 }],
                                       asked := [{ key := wKey 1, start := 0, sent := true, late := false }],
                                       pantry := [{ ent := { wEntry 1 with count := 1 }, fetched := 0 }] }) with
      lard := { wPart.lard with larder := [wEntry 1, wEntry 2], lookups := [{ die := 4, key := wKey 2, gen := 0 }],
                                cellarReads := [{ die := 4, key := wKey 3, gen := 0 }], stream := [(.put (wEntry 1), 1)],
                                updates := [{ die := 4, key := wKey 1, k := 3, observed := true, energy := 1100, cycles := 90, seq := 2 }],
                                replay := [{ die := 4, key := wKey 1, k := 3, observed := true, energy := 1100, cycles := 90, seq := 1 }] } }

theorem witness_LarderRecordsAndLookups_LarderRecords :
    wLard.lard.updates.length = 1 ∧ (wLard.wr .lrdCfgLearn 1).learning = true ∧ (wLard.wr .lrdCfgLearn 0).learning = false ∧
    wLard.lard.stream = [(.put (wEntry 1), 1)] ∧ 4 ∉ wLard.inject.lanes := by decide +kernel

theorem witness_LarderRecordsAndLookups_LookupsAreAnswered :
    (wLard.lard.lookups.find? fun y => decide (y.die = (4 : Fin 32).val)) = some { die := 4, key := wKey 2, gen := 0 } ∧
    4 ∉ wLard.inject.lanes ∧ wLard.lard.cellarReads = [{ die := 4, key := wKey 3, gen := 0 }] ∧
    (wLard.die 4).replies = [{ key := wKey 1, ent := some (wEntry 1), gen := 0 }] ∧ (wLard.die 4).gen = 0 ∧
    ((wLard.updDie 4 fun x => { x with gen := 1 }).die 4).gen ≠ 0 ∧ (∃ y ∈ (wLard.die 4).pantry, y.ent.key = (wEntry 1).key) ∧
    ((wLard.updDie 4 fun x => { x with replies := [{ key := wKey 1, ent := none, gen := 0 }] }).die 4).replies =
      [{ key := wKey 1, ent := none, gen := 0 }] ∧
    (wLard.die 4).asked.find? (fun x => !x.late) = some { key := wKey 1, start := 0, sent := true, late := false } ∧
    wLard.awaited 4 { key := wKey 1, start := 0, sent := true, late := false } = true ∧
    (wLard.updDie 4 fun x => { x with replies := [] }).awaited 4 { key := wKey 1, start := 0, sent := true, late := false } = false := by decide +kernel

theorem witness_PartitionsAndChanges_PartitionWrites :
    wPart.rd .alcPartBindValid 0 9 = 0 ∧ (0x10005#32).toNat / 2 ^ 16 % 2 = 1 ∧ wPart.clashes 9 (wPart.rd .alcPartDies 0 9) = false ∧
    wPart.changes.length < 4 ∧ (wPart.wr .alcPartDies 0x30 0 9).clashes 9 ((wPart.wr .alcPartDies 0x30 0 9).rd .alcPartDies 0 9) = true := by
  decide +kernel

theorem witness_PartitionsAndChanges_MembershipJoinsTheQueue :
    wPart.binding 9 = false ∧ (after (.partitionWrite .cc 9 .bind 0x10005) (wPart.wr .alcPartDies 0xF00 0 9)).binding 9 = true ∧
    (after (.partitionWrite .cc 9 .bind 0x10005) (wPart.wr .alcPartDies 0xF00 0 9)).changes.length < 4 := by decide +kernel

/-- A change of partition 3's power cap on dies 4 and 5, in flight. -/
def wChange : Change :=
  { gen := 1, kind := .policy 3, writes := [(⟨.alcPartCap, 0, 3⟩, 900)], before := [(⟨.alcPartCap, 0, 3⟩, 0)], dies := [4, 5], acked := [],
    committed := [], start := 0, cmd := none, result := none }

def wChanging (c : Change) : State := { wPart with change := some c }

theorem witness_PartitionsAndChanges_TwoPhaseChanges :
    (wChanging wChange).change = some wChange ∧ 4 ∈ wChange.dies ∧ ((wChanging wChange).die 4).powered = true ∧
    (∀ x ∈ ({ wChange with acked := [4, 5] } : Change).dies, x ∈ ({ wChange with acked := [4, 5] } : Change).acked) ∧ 4 ∉ wChange.committed ∧
    wChange.committed = [] ∧ wChange.kind = .policy 3 ∧ wChange.writes = [(⟨.alcPartCap, 0, 3⟩, 900)] ∧
    wChange.before = [(⟨.alcPartCap, 0, 3⟩, 0)] ∧ (∃ x ∈ wChange.dies, x ∉ wChange.acked) := by decide +kernel

/-- The Hearth's run is due, in the state of a third missed run. -/
def wHearth (miss : Nat) : State := { wFull.wr .hrtRunMiss miss with hearth := { wFull.hearth with due := true, fwSince := some 0 } }

theorem witness_HearthRuns :
    (wHearth 3).hearth.due = true ∧ (wHearth 3).rd .hrtRunMiss = 3 ∧ (wHearth 19).rd .hrtRunMiss = 19 ∧ (wHearth 0).rd .hrtRunMiss ≠ 19 ∧
    wFull.hearth.fwSince = none ∧ (wHearth 0).hearth.fwSince = some 0 ∧
    (wHearth 0).hearth.able = true ∧ (wHearth 0).hearth.roleAt = none ∧
    ({ wHearth 0 with hearth := { (wHearth 0).hearth with roleAt := some 7, able := false } } : State).hearth.roleAt = some 7 ∧
    ({ wHearth 0 with hearth := { (wHearth 0).hearth with roleAt := some 7, able := false } } : State).hearth.able = false ∧
    wFull.hearth.due = false := by decide +kernel

/-- Sensor 1 of die 2 has been hot once, and is suspect; the trips are at their least. -/
def wSensor : State :=
  wrs (wFull.setSensor 2 1 { above := 1, trip := 1, dev := 0, sum := 0, n := 0 })
    [(.dagTsSuspect, 2, 1, 1), (.hrtLtripTrip, 0, 0, 0x8000), (.hrtTtripTrip, 0, 0, 0x8000)]

/-- Whatever the fused trim of a sensor, its trimmed temperature is not below the least. -/
theorem trimmedT_ge (s : State) (d i : Nat) (raw : Int) : -32768 ≤ s.trimmedT d i raw := Int.le_max_left _ _

/-- A junction trip of die 2 is in force, and its sensors are cool. -/
def wTripped : State := { wFull with force := { wFull.force with junction := true }, hearth := { wFull.hearth with tripped := [2] } }

theorem witness_SensorsTripAndRetire :
    (wSensor.die 2).powered = true ∧ 1 < dieSensors 2 ∧ wSensor.sensorOut 2 1 = false ∧ 1 ≤ (wSensor.sensor 2 1).above ∧
    (∀ raw : Int, toSigned 16 (wSensor.rd .hrtLtripTrip) ≤ wSensor.trimmedT 2 1 raw) ∧ 2 ∉ wSensor.hearth.tripped ∧
    1 ≤ (wSensor.sensor 2 1).trip ∧ (∀ raw : Int, toSigned 16 (wSensor.rd .hrtTtripTrip) ≤ wSensor.trimmedT 2 1 raw) ∧
    wSensor.force.thermtrip = false ∧ wSensor.flag .dagTsSuspect 2 1 = true ∧ (wSensor.wr .dagTsRetired 1 2 1).sensorOut 2 1 = true ∧ wTripped.force.junction = true ∧
    (∀ e ∈ wTripped.hearth.tripped, ∀ k, k < dieSensors e →
      wTripped.sensorOut e k = true ∨ wTripped.sensorT e k < toSigned 16 (wTripped.rd .hrtLtripRel)) := by
  have l : toSigned 16 (wSensor.rd .hrtLtripTrip) = -32768 := by decide +kernel
  and_intros <;> first | decide +kernel | exact fun raw => l ▸ trimmedT_ge _ _ _ raw

theorem witness_InletWindowsAndCheckpoint :
    Port.hx1.isHost = true ∧ Port.i3c.isHost = false ∧ toSigned 16 (0x7FFF#16).toNat > 1280 ∧
    ({ wFull with hearth := { wFull.hearth with inletAt := some 5 } } : State).hearth.inletAt = some 5 ∧
    (wFull.wr .hrtHstatStale 0).flag .hrtHstatStale = false ∧ wFull.hearth.inletRun = none ∧
    1000000 * ({ wFull with now := 10000 } : State).hearth.ms + 10000 ≤ ({ wFull with now := 10000 } : State).now ∧
    ({ wFull with hearth := { wFull.hearth with inletRun := some 400 } } : State).hearth.inletRun = some 400 := by decide +kernel

/-- The Hearth boundary of a millisecond has come. -/
def wMs (n : Nat) : State := { wFull with hearth := { wFull.hearth with ms := n } }

theorem witness_InletWindowsAndCheckpoint_WindowsLatch :
    (wMs 1000).hearth.ms % 1000 = 0 ∧ (wMs 1000).hearth.ms ≠ (wMs 1000).hearth.lat1 ∧ (wMs 999).hearth.ms % 1000 ≠ 0 ∧
    (wMs 0).hearth.ms = (wMs 0).hearth.lat1 ∧ (wMs 30000).hearth.ms % 30000 = 0 ∧ (wMs 30000).hearth.ms ≠ (wMs 30000).hearth.lat30 ∧
    (wMs 1000).hearth.ms % 30000 ≠ 0 ∧ (wMs 0).hearth.ms = (wMs 0).hearth.lat30 ∧ (wFull.die 2).powered = true ∧
    ((wFull.updDie 2 fun x => { x with powered := false }).die 2).powered = false := by decide +kernel

/-- A statement of partition 3 that waits. -/
def wStmt : Stmt := { kind := .periodic, part := 3, tag := 5, dies := 0xF0, seq := 7, tStart := 0, tEnd := 1000, counts := [], peak := 0, flags := 0 }

theorem witness_SecondsSamplesAndStatements_SamplesAndStatements :
    wPart.telRing 4 = some 3 ∧ Store.get telInit wPart.tel 4 = none ∧ (wPart.die 4).telDue = [] ∧ wPart.inForce 3 = true ∧
    ((wPart.updRing 3 fun x => { x with stmts := [wStmt] }).ring 3).stmts = [wStmt] ∧
    (wPart.updRing 3 fun x => { x with stmts := [wStmt] }).ringRunning 3 = true ∧
    4 ≤ (wPart.updRing 3 fun x => { x with stmts := [wStmt] }).stmFree 3 := by decide +kernel

/-- An interval of die 4 has ended, and the die's block has n samples; the telemetry ring has room. -/
def wDue (last : Bool) : TelDue := { t0 := 0, sum := 8192, decim := 0, last }
def wSample (n : Nat) (last : Bool) : State :=
  { (wPart.updDie 4 fun x => { x with telDue := [wDue last] }).updRing 3 fun x => { x with telci := 5 } with
    tel := wPart.tel.set 4 (if n = 0 then none else some { t0 := 0, q0 := 2, last := 2, nsamp := n, bits := [], decim := 0 }) }

theorem witness_SecondsSamplesAndStatements_SamplesJoinABlock :
    (∀ l : Bool, ((wSample 0 l).die 4).telDue = [wDue l] ∧ (wDue l).last = l) ∧ (wSample 0 false).telRing 4 = some 3 ∧
    ((wSample 0 false).wr .alcPartBindValid 0 0 3).telRing 4 = none ∧ Store.get telInit (wSample 0 false).tel 4 = none ∧
    (∀ n, n = 63 ∨ n = 64 → Store.get telInit (wSample n false).tel 4 = some { t0 := 0, q0 := 2, last := 2, nsamp := n, bits := [], decim := 0 }) ∧
    (sampleCode 2 (quantise 8192 0)).length ≤ 384 ∧ (wSample 64 false).ringRunning 3 = true ∧ (wSample 64 false).telFree 3 ≠ 0 := by
  and_intros <;> first | decide +kernel | (rintro n (rfl | rfl) <;> decide +kernel)

theorem witness_SecondsSamplesAndStatements_SecondsAndFreezes :
    wFull.frozen = none ∧ (after (.freezeArm .cc 0) wFull).freezeT.isSome = true ∧ (after (.freezeArm .cc 0) wFull).frozen = none ∧
    ({ wFull with frozen := some [] } : State).frozen = some [] := by decide +kernel

/-- A trace record waits at die 4, and the trace ring runs. -/
def wTrace : State :=
  { ((wrs wPart [(.obsTrccfgEn, 0, 0, 1), (.obsTrccfgSize, 0, 0, 6), (.obsTrcenType, 0, 0, 15), (.obsTrcpart, 0, 0, 8), (.obsTrcenWmin, 0, 0, 10)]).msixWrite .hx0 (0xC00 + 16 * 34 + 12) 0).updDie 4 fun x =>
      { x with trace := [{ type := 1, core := 0, eng := 1, a := 2, b := 3, time := 100 }], traceTokens := 300 } with
    tring := { wPart.tring with lastWrite := some 0 } }

theorem witness_TracesDrain :
    ((wTrace.die 4).trace.length = 1 ∧ wTrace.traceOn = true ∧ (wTrace.die 4).steward = false ∧ (wTrace.die 4).powered = true ∧
      222 ≤ (wTrace.die 4).traceTokens ∧
      ringFree (ringSize (wTrace.rd .obsTrccfgSize)) (wTrace.rd .obsTrcpi) wTrace.tring.ci ≠ 0 ∧
      ringFree (ringSize (wTrace.rd .obsTrccfgSize)) ((wTrace.wr .obsTrcpi 63).rd .obsTrcpi) wTrace.tring.ci = 0) ∧
    wTrace.tring.lastWrite = some 0 ∧ wTrace.msixWord (wTrace.ringPort (wTrace.rd .obsPrivRs)) 139 % 2 = 0 ∧
    wTrace.flag .obsTrccfgEn = true ∧ wTrace.rd .obsTrcenWmin ≤ 100 ∧ wTrace.traced 4 1 = true ∧ (wTrace.die 4).traceLost = 0 := by
  decide +kernel

/-- An event waits for the Attic. -/
def wEvent : AtticEvent := { code := 0x0201, sev := 1, unit := 0, part := none, time := 0 }
def wAttic : State := { wPart with attic := { wPart.attic with queue := [wEvent] } }

theorem witness_AtticRecordsAndCursors :
    wAttic.attic.queue = [wEvent] ∧ wAttic.recording = true ∧
    (rateStep (max 1 (wAttic.rd .atcCfgRaten)) (max 1 (wAttic.rd .atcCfgRatewin)) wAttic.opSec (decide (wEvent.sev = 3)) (wAttic.rate wEvent.code)).1 =
      true ∧
    (rateStep 1 100 5 false { start := some 0, made := 1, supp := 0 }).1 = false ∧
    wAttic.flag .atcStatRam = false ∧ (wAttic.wr .atcStatRam 1).flag .atcStatRam = true ∧ wAttic.ccUp = true ∧
    Port.cc.num ∈ (after (.atticCursorWrite .cc 5) wAttic).attic.fetching ∧ wAttic.atticAt 5 = none ∧
    (after (.atticRecordWrite true) wAttic).atticAt 0 ≠ none ∧ (after (.atticCursorWrite .cc 0x80000005) wAttic).flag .atcCurAuto Port.cc.num = true ∧
    (wAttic.wr .atcCfgFreeze 1).flag .atcCfgFreeze = true := by decide +kernel

/-- Crystals in two states. -/
def wXtal (a b : Nat) : State := wrs State.reset [(.clkSrcX0, 0, 0, a), (.clkSrcX1, 0, 0, b), (.clkSrcRefsel, 0, 0, if a = xtalStable then 0 else 2)]

theorem witness_CrystalsAndOscillator_CrystalStates :
    (∀ a, a < 4 → (wXtal a 3).xtal 0 = a ∧ (wXtal 3 a).xtal 1 = a) ∧ (wXtal 2 2).rd .clkSrcRefsel = 0 ∧ (wXtal 3 2).rd .clkSrcRefsel ≠ 1 ∧
    (wXtal 2 3).xtal (1 - 0) ≠ xtalStable ∧ (wXtal 2 2).xtal (1 - 0) = xtalStable ∧
    (wXtal 0 3).clock.retry 0 = false ∧ ({ wXtal 0 3 with clock := { (wXtal 0 3).clock with retry0 := true } } : State).clock.retry 0 = true ∧
    ((wXtal 3 2).wr .clkOsctrimTrimmed 1).clock.picked = false ∧ ((wXtal 3 2).wr .clkOsctrimTrimmed 1).flag .clkOsctrimTrimmed = true ∧
    ((wXtal 3 2).wr .clkOsctrimTrimmed 1).rd .clkSrcRefsel = 2 ∧
    (wXtal 1 3).clock.count 0 + 20971520 ≤ (wXtal 1 3).clock.start 0 + 250000000 ∧
    ({ wXtal 1 3 with clock := { (wXtal 1 3).clock with count0 := 240000000 } } : State).clock.start 0 + 250000000 <
      ({ wXtal 1 3 with clock := { (wXtal 1 3).clock with count0 := 240000000 } } : State).clock.count 0 + 20971520 ∧
    ((wXtal 2 3).wr .clkOsctrimTrimmed 1).xtal 0 = xtalStable ∧ (wXtal 3 2).xtal 0 ≠ xtalStable := by decide +kernel

theorem witness_CrystalsAndOscillator_OscillatorTrim :
    (wXtal 3 3).trimSource false = none ∧ (wXtal 2 3).trimSource false = some 0 ∧ (wXtal 3 3).trimSource true = some 2 ∧ ((wXtal 2 3).wr .clkOsctrimTrimmed 1).flag .clkOsctrimTrimmed = true ∧
    (wXtal 2 3).rd .clkOsctrimCode < 1024 ∧ (wXtal 2 3).flag .clkOsctrimTrimmed = false ∧ (wXtal 2 3).clock.gates = 0 ∧
    ({ wXtal 2 3 with clock := { (wXtal 2 3).clock with gates := 9, trimBy := some 0 } } : State).clock.gates = 9 ∧
    ({ wXtal 2 3 with clock := { (wXtal 2 3).clock with gates := 9, trimBy := some 0 } } : State).trimSource false =
      ({ wXtal 2 3 with clock := { (wXtal 2 3).clock with gates := 9, trimBy := some 0 } } : State).clock.trimBy ∧
    ({ wXtal 3 2 with clock := { (wXtal 3 2).clock with gates := 9, trimBy := some 0 } } : State).trimSource false ≠
      ({ wXtal 3 2 with clock := { (wXtal 3 2).clock with gates := 9, trimBy := some 0 } } : State).clock.trimBy := by decide +kernel

/-- The root PLLs of all dies are locked; that of die 2 has been lost. -/
def wLocked : State := wFull.wr .clkLock (2 ^ 40 - 1)
def wHold : State := after (.pllLossOfLock 2) wLocked

theorem witness_LocksAndDivisors_RootPllHoldover :
    wFull.holdover 2 = false ∧ (wFull.die 2).powered = true ∧ ((wFull.updDie 2 fun x => { x with powered := false }).die 2).powered = false ∧
    wHold.floorOn = false ∧ testBit (wLocked.rd .clkLock) 2 = true ∧ wHold.holdover 2 = true ∧ 1 ∉ (wHold.hd 2).excl ∧
    1 ∈ ((after (.pllHoldoverTimeout 2) wHold).hd 2).excl := by decide +kernel

/-- Branch 8, on die 2, away from its target. -/
def wBranch (cur tgt : Nat) : State := wrs wFull [(.clkCbrCur, 0, 8, cur), (.clkCbrTgt, 0, 8, tgt), (.clkDomCur, 0, 40, cur), (.clkDomTgt, 0, 40, tgt)]

theorem witness_LocksAndDivisors_DivisorsRampByOneStep :
    (wBranch 0x100 0x120).floorOn = false ∧ (after .powerAlertAssert (wBranch 0x100 0x120)).floorOn = true ∧ wHold.holdover (8 / 4) = true ∧
    (wBranch 0x100 0x120).holdover (8 / 4) = false ∧ (wBranch 0x100 0x120).rd .clkCbrCur 0 8 < (wBranch 0x100 0x120).rd .clkCbrTgt 0 8 ∧
    (wBranch 0x120 0x100).rd .clkCbrTgt 0 8 < (wBranch 0x120 0x100).rd .clkCbrCur 0 8 ∧
    (wBranch 0x100 0x120).rd .clkDomCur 0 40 < (wBranch 0x100 0x120).rd .clkDomTgt 0 40 ∧
    (wBranch 0x120 0x100).rd .clkDomTgt 0 40 < (wBranch 0x120 0x100).rd .clkDomCur 0 40 ∧
    (wBranch 0x100 0x120).rd .clkCbrGdep 0 8 ≤ governed 0x100 0x120 ∧ (wBranch 0x120 0x100).rd .clkCbrGdep 0 8 = 0 ∧
    (wrs (wBranch 0x120 0x100) [(.rgcStatusVready, 2, 0, 1), (.rgcVidV, 2, 0, 2000)]).mayQuicken 8 = true ∧
    (wBranch 0x120 0x100).mayQuicken 8 = false ∧
    governed 0x120 0x100 < ((wBranch 0x120 0x100).wr .clkCbrGdep 3 0 8).rd .clkCbrGdep 0 8 ∧
    (∀ n, n = 14 ∨ n = 15 → (Store.get (fun _ => 0)
      ({ wBranch 0x120 0x100 with clock := { (wBranch 0x120 0x100).clock with release := [(8, n)] } } : State).clock.release 8 +
        1) % 16 = if n = 15 then 0 else 15) := by
  and_intros <;> first | decide +kernel | (rintro n (rfl | rfl) <;> decide +kernel)

/-- Detector 3 of die 2 watches, its rail in REG; and an extension of domain 0 that holds. -/
def wDetect : State :=
  wrs wFull [(.rgcStatusState, 2, 0, railReg), (.dagDrpcfgEn, 2, 0, 1), (.dagDrpchrTap1, 2, 3, 100), (.dagDrpchrTap2, 2, 3, 50)]
def wDroop : State := after (.droopTrip 2 3 40 5) wDetect

theorem witness_DroopStretchesAndTests :
    wDetect.detects 2 3 = true ∧ wDetect.tripLevel 2 3 40 = 2 ∧ wDetect.tripLevel 2 3 70 = 1 ∧
    wDroop.flag .dagDrpxHold 2 (detDomain 2 3) = true ∧ (wDroop.episodeStart 2 (detDomain 2 3)).isSome = true ∧
    wDroop.rd .dagDrpxX 2 (detDomain 2 3) ≠ 0 ∧ (wDroop.wr .dagDrpxHold 0 2 (detDomain 2 3)).flag .dagDrpxHold 2 (detDomain 2 3) = false ∧
    wFull.svc = svcFull ∧ wFull.detRetired 2 (wFull.now / 1000000 % dieDetectors 2) = false ∧ 3 < dieDetectors 2 ∧
    wFull.detRetired 2 3 = false := by decide +kernel

/-- Detector 3 of die 2 has its targeted test due; X of domain 0 is at its last sixteenth. -/
def wTest : State := wDetect.updDie 2 fun x => { x with droop := { x.droop with testDue := [3] } }
def wLast : State := wDroop.wr .dagDrpxX 1 2 (detDomain 2 3)

theorem witness_DroopStretchesAndTests_HoldsAndTests :
    (∃ e, (wDroop.die 2).droop.episodes.find? (fun x => decide (x.1 = detDomain 2 3)) = some (detDomain 2 3, e) ∧ e.before = [] ∧ e.since = [] ∧
      e.counts = wDroop.droopCounts 2 (detDomain 2 3)) ∧
    wLast.rd .dagDrpxX 2 (detDomain 2 3) = 1 ∧ wLast.flag .dagDrpxHold 2 (detDomain 2 3) = true ∧
    (wLast.wr .dagDrpxHold 0 2 (detDomain 2 3)).flag .dagDrpxHold 2 (detDomain 2 3) = false ∧
    (wTest.die 2).powered = true ∧ 3 ∈ (wTest.die 2).droop.testDue ∧ 4 ∉ (wTest.die 2).droop.testDue ∧ wTest.detRetired 2 3 = false ∧
    wTest.charTap 2 3 ((wTest.rail (ownRail 2)).vs : Rat) - 4 ≤
      ((wTest.charTap 2 3 ((wTest.rail (ownRail 2)).vs : Rat)).ceil.toNat : Rat) ∧
    ((wTest.charTap 2 3 ((wTest.rail (ownRail 2)).vs : Rat)).ceil.toNat : Rat) ≤ wTest.charTap 2 3 ((wTest.rail (ownRail 2)).vs : Rat) + 4 := by
  refine ⟨⟨{ det := 3, level := 2, peak := wDroop.rd .dagDrpxX 2 (detDomain 2 3), cycles := 0, announced := false, queue := 5, start := 0
             before := [], since := [], counts := true }, ?_⟩, ?_⟩ <;> decide +kernel

/-- The node holds CHAIN_BYP_HOLD, and is ACTIVE in FULL; its id is 100. -/
def wRing : State :=
  { wrs wPart [(.chnPosLink, 0, 0, 1), (.chnCfgEn, 0, 0, 1), (.chnNodeidId, 0, 0, 100), (.chnPos, 0, 0, 3)] with
      pins := { wPart.pins with bypHold := true } }

/-- A frame of 32 bytes: those listed, and 0. -/
def wFrame (l : List (Nat × Nat)) : Frame :=
  { bytes := (upto 32).map fun k => BitVec.ofNat 8 (((l.find? fun x => x.1 = k).map fun x => x.2).getD 0) }

theorem witness_LinkAndFrames :
    wFull.flag .chnPosLink = false ∧ wRing.flag .chnPosLink = true ∧ (after .chainAligned wFull).chain.listening = true ∧
    (after .claimSend wRing).chain.outq.length = 1 ∧ (after .claimSend wRing).chainRole ≠ 0 ∧
    ({ after .claimSend wRing with inject := { wRing.inject with chain := true } } : State).inject.chain = true ∧
    (after .frameInsert (after .claimSend wRing)).chain.sending.isSome = true ∧ (frameBytes (wFrame [(0, 9)])).length = 32 ∧
    (5#32).toNat ≠ crc32c (frameBytes (wFrame [(0, 9)])) ∧
    (BitVec.ofNat 32 (stomp (crc32c (frameBytes (wFrame [(0, 9)]))))).toNat = stomp (crc32c (frameBytes (wFrame [(0, 9)]))) ∧
    (5#32).toNat ≠ stomp (crc32c (frameBytes (wFrame [(0, 9)]))) ∧ wRing.ownFrame (frameBytes (wFrame [(0, 9)])) = false ∧
    frameHops (frameBytes (wFrame [(0, 9)])) < 127 ∧ 7 ≤ frameType (frameBytes (wFrame [(0, 9)])) ∧
    127 ≤ frameHops (frameBytes (wFrame [(0, 9), (3, 127)])) ∧ wRing.ownFrame (frameBytes (wFrame [(0, 9), (3, 127)])) = false := by decide +kernel

/-- A reserved frame of position 9 has come once. -/
def wOnce : State := after (.reservedFrame (wFrame [(0, 9), (1, 9), (2, 1)])) wRing

theorem witness_LinkAndFrames_StripsAndRepeats :
    wRing.strips (frameBytes (wFrame [(0, 9)])) = false ∧ wRing.strips (frameBytes (wFrame [(0, 9), (3, 127)])) = true ∧
    wRing.ranHops (frameBytes (wFrame [(0, 9), (3, 127)])) = true ∧
    wRing.repeated (frameBytes (wFrame [(0, 9), (1, 9), (2, 1)])) = false ∧ wOnce.repeated (frameBytes (wFrame [(0, 9), (1, 9), (2, 1)])) = true ∧
    wOnce.chainRole ≠ 0 ∧ (after .frameInsert (after .claimSend wRing)).chain.outq = [] ∧
    (((after .claimSend wRing).chain.outq.map fun f => (f.inv, f.resend)) = [(false, false)]) := by decide +kernel

/-- A LEDGER of this node's own that comes back. -/
def wOut : State := { wRing with chain := { wRing.chain with ledgerOut := some 7, ledgerAt := some 0, alive := 7, originated := 9, seam := 5 } }

theorem witness_LinkAndFrames_OwnFramesAreStripped :
    wOut.chainRole ≠ 0 ∧ wOut.strips (frameBytes (wFrame [(0, 9), (1, 3), (2, 7)])) = true ∧
    wOut.ranHops (frameBytes (wFrame [(0, 9), (1, 3), (2, 7)])) = false := by decide +kernel
def wBack : Frame := wFrame [(0, tyLedger), (1, 3), (2, 7)]

theorem witness_ClaimsAndLedgers :
    (wRing.chainRole = 2 ∧ wRing.flag .chnPosOrig = false ∧ wRing.chain.backoff = none) ∧
    ((frameBytes (wFrame [(0, tyClaim), (8, 100)])).length = 32 ∧ frameType (frameBytes (wFrame [(0, tyClaim), (8, 100)])) = tyClaim ∧
      (after .claimSend wRing).chainRole ≠ 0 ∧ (after .claimSend wRing).chain.claiming = true ∧
      le (frameBytes (wFrame [(0, tyClaim), (8, 100)])) 8 8 = (after .claimSend wRing).rd .chnNodeidId ∧
      le (frameBytes (wFrame [(0, tyClaim), (8, 99)])) 8 8 < (after .claimSend wRing).rd .chnNodeidId ∧
      (after .claimSend wRing).rd .chnNodeidId < le (frameBytes (wFrame [(0, tyClaim), (8, 101)])) 8 8) ∧
    (({ wRing with chain := { wRing.chain with backoff := some 5, lastLedger := some 3 } } : State).chain.backoff = some 5) ∧
    ((wRing.wr .chnPosOrig 1).flag .chnPosOrig = true ∧ (wRing.wr .chnPosOrig 1).chain.ledgerOut = none ∧ (wRing.wr .chnPosOrig 1).chainRole = 2) ∧
    ((frameBytes wBack).length = 32 ∧ frameType (frameBytes wBack) = tyLedger ∧ wOut.ownFrame (frameBytes wBack) = true ∧
      wOut.chain.ledgerOut = some (frameAlive (frameBytes wBack)) ∧
      le (frameBytes wBack) 16 4 + wOut.chain.seam ≠ le (frameBytes wBack) 20 4 ∧
      le (frameBytes (wFrame [(0, tyLedger), (1, 3), (2, 7), (20, 5), (24, 4)])) 16 4 + wOut.chain.seam =
        le (frameBytes (wFrame [(0, tyLedger), (1, 3), (2, 7), (20, 5), (24, 4)])) 20 4 ∧
      le (frameBytes (wFrame [(0, tyLedger), (1, 3), (2, 7), (20, 5), (24, 4)])) 24 4 <
        le (frameBytes (wFrame [(0, tyLedger), (1, 3), (2, 7), (20, 5), (24, 4)])) 20 4) ∧
    (wOut.chain.ledgerOut = some 7 ∧ wOut.chain.ledgerAt = some 0 ∧ wOut.chainRole = 2 ∧ 32000 < (wOut.wr .chnCfgRndivl 255).outNs ∧
      ({ wOut with pins := { wOut.pins with bypHold := false } } : State).chainRole ≠ 2) ∧
    (wRing.chain.listening = false ∧ wRing.ownFrame (frameBytes (wFrame [(0, tyLedger), (1, 9), (2, 1)])) = false ∧
      wRing.repeated (frameBytes (wFrame [(0, tyLedger), (1, 9), (2, 1)])) = false ∧
      (after (.ledgerPass (wFrame [(0, tyLedger), (1, 9), (2, 1)])) wRing).repeated (frameBytes (wFrame [(0, tyLedger), (1, 9), (2, 1)])) = true) ∧
    wRing.chain.home = none ∧ (after (.homeWrite .cc 500) wRing).chain.home.isSome = true := by decide +kernel

/-- An OFFER of 4 grains outstanding, and frames that name this node. -/
def wOffer : OfferOut := { part := 3, taker := 9, amount := 4, epoch := 0, alive := 7, sentAt := 0 }
def wLending : State :=
  { wRing.wr .chnHlimMaxhold 1000 with chain := { wRing.chain with offers := [wOffer], alive := 7, originated := 9 } }

theorem witness_OffersBeaconsAndVersions :
    (frameBytes (wFrame [(0, tyOffer), (1, 9), (2, 1), (5, wLending.chainPos), (12, 4)])).length = 32 ∧ wLending.chainRole ≠ 0 ∧
    wLending.ownFrame (frameBytes (wFrame [(0, tyOffer), (1, 9), (2, 1), (5, wLending.chainPos), (12, 4)])) = false ∧
    wLending.repeated (frameBytes (wFrame [(0, tyOffer), (1, 9), (2, 1), (5, wLending.chainPos), (12, 4)])) = false ∧
    wLending.takes (frameBytes (wFrame [(0, tyOffer), (1, 9), (2, 1), (5, wLending.chainPos), (12, 4)])) = true ∧
    wLending.takes (frameBytes (wFrame [(0, tyOffer), (1, 9), (2, 1), (5, 77), (12, 4)])) = false ∧
    frameType (frameBytes (wFrame [(0, tyBeacon), (1, 9), (2, 1)])) = tyBeacon ∧ frameType (frameBytes (wFrame [(0, tyVersion), (1, 9)])) = tyVersion ∧
    (wLending.wr .chnPosOrig 1).flag .chnPosOrig = true ∧ wLending.flag .chnPosOrig = false ∧
    wLending.ownFrame (frameBytes (wFrame [(0, tyTake), (1, wLending.chainPos), (2, 7)])) = true ∧
    wLending.chain.offers.find? (fun x => x.alive = frameAlive (frameBytes (wFrame [(0, tyTake), (1, wLending.chainPos), (2, 7)]))) = some wOffer ∧
    frameEpoch (frameBytes (wFrame [(0, tyOffer), (1, wLending.chainPos), (2, 7)])) = wLending.rd .chnPosEpoch ∧
    wLending.chain.offers[0]? = some wOffer ∧ wLending.chainRole = 2 ∧ wLending.partsInForce ≠ [] := by decide +kernel

/-- Die 33 whose re-plan is due, and die 2 in its measurement. -/
def wAge : State :=
  (((wrs wFull [(.rgcStatusState, 2, 0, railReg), (.rgcStatusState, 49, 0, railReg), (.rgcVidV, 49, 0, 1500), (.rgcVmaxV, 49, 0, 2000),
    (.ageCfgMaxstep, 0, 0, 2)]).updHall 0 fun x => { x with up := true }).updAge 33 fun x => { x with dv := 17 }).updAge 5 fun x => { x with dv := 17, planning := true }

theorem witness_AgeingWork :
    wAge.mayMeasure 2 = true ∧ wAge.mayMeasure 33 = true ∧ ((after (.ageMeasureStart 2) wAge).ageDie 2).measuring = true ∧
    (after (.ageMeasureStart 2) wAge).railSt (ownRail 2) = railReg ∧ wAge.svc ≠ svcCold ∧ wAge.blindDie 33 = false ∧ 0 < wAge.stepsDue 33 ∧
    wAge.planAllowed 33 = true ∧
    wAge.rd .rgcVidV (ownRail 33) + 5 * min (wAge.stepsDue 33) (max 1 (wAge.rd .ageCfgMaxstep)) ≤ wAge.ceiling (ownRail 33) ∧
    (wAge.ageDie 5).planning = true ∧ wAge.blindDie 5 = false ∧ 0 < wAge.stepsDue 5 ∧ wAge.planAllowed 5 = true ∧
    wAge.mayPlan 33 = true ∧ wAge.mayPlan 5 = true ∧ wAge.mayPlan 6 = false ∧ wAge.stepsDue 34 = 0 ∧
    ((wAge.updAge 33 fun x => { x with planAt := some 0 })).planAllowed 33 = false ∧
    (wAge.wr .rgcVmaxV 1400 49).ceiling (ownRail 33) <
      (wAge.wr .rgcVmaxV 1400 49).rd .rgcVidV (ownRail 33) + 5 * min ((wAge.wr .rgcVmaxV 1400 49).stepsDue 33) 1 ∧
    ((after (.ageMeasureStart 2) wAge).wr .rgcStatusVready 1 2).mayRead 2 = true ∧ (after (.ageMeasureStart 2) wAge).mayRead 2 = false ∧
    1 < dieMonitors 2 ∧ (wAge.wr .ageMonSuspect 1 0 (monitorNo 2 1)).monSuspect 2 1 = true ∧ wAge.monOut 2 1 = false ∧ wAge.ccUp = true ∧
    wAge.flag .ageDiePend 0 2 = false := by decide +kernel

/-- The doorbell of ring set 3 rings, and bits without a meaning. -/
def wBell : State := wPart.wr .hifDbpend (2 ^ 3 + 2 ^ 18 + 2 ^ 20 + 2 ^ 5)

/-- A control block whose indexes are all in range. -/
def wCtl : CtlBlock := { cmdpi := 3, cplci := 2, telci := 1, stmci := 4 }

theorem witness_DoorbellsAndControlBlocks :
    wBell.ccUp = true ∧ testBit (wBell.rd .hifDbpend) 3 = true ∧ testBit (wBell.rd .hifDbmask) 3 = false ∧
    testBit (wBell.rd .hifDbpend) 18 = true ∧ testBit (wBell.rd .hifDbpend) 20 = true ∧ testBit (wBell.rd .hifDbpend) 5 = true ∧
    wBell.ringRunning 5 = false ∧ testBit (8#32).toNat 3 = true ∧ wBell.dbValid 3 = true ∧ testBit (16#32).toNat 4 = true ∧
    wBell.dbValid 4 = false ∧ wBell.ringRunning 3 = true ∧ wCtl.cmdpi.toNat < ringSize (wBell.rd .hifRsSizesCmd 0 3) ∧
    wCtl.cplci.toNat < ringSize (wBell.rd .hifRsSizesCpl 0 3) ∧ wCtl.telci.toNat < ringSize (wBell.rd .hifRsSizesTel 0 3) ∧
    wCtl.stmci.toNat < ringSize (wBell.rd .hifRsSizesStm 0 3) ∧ wCtl.stmci.toNat % 4 = 0 ∧
    ringSize (wBell.rd .hifRsSizesCmd 0 3) ≤ (16#32).toNat ∧ (2#32).toNat % 4 ≠ 0 := by decide +kernel

/-- A NOP entry, and one with a reserved opcode. -/
def wNop : CmdEntry := { cmdw := 0x70101, tgt := 0, oper := [] }
def wOdd : CmdEntry := { cmdw := 0x7FF01, tgt := 0, oper := [] }

/-- Commands wait on ring set 3. -/
def wFetch : State := wPart.updRing 3 fun x => { x with cmdpi := 2 }

theorem witness_RingSetStatesAndFetch :
    hifPort .hx0 = true ∧ hifPort .i3c = false ∧ (wPart.wr .hifRsStatState 0 0 3).ringReady 3 = true ∧ (wPart.wr .hifRsStatState 0 0 3).rd .hifRsStatState 0 3 = 0 ∧
    wPart.ringReady 4 = false ∧ wPart.rd .hifRsStatState 0 3 = 1 ∧ (wPart.wr .hifRsStatState 3 0 3).rd .hifRsStatState 0 3 = 3 ∧
    wFetch.ringRunning 3 = true ∧ wFetch.svc ≠ svcCold ∧ wFetch.ccUp = true ∧ wFetch.upd.quiet = false ∧
    wFetch.rd .hifRsCmdci 0 3 ≠ (wFetch.ring 3).cmdpi ∧ testBit (wFetch.rd .hifDbmask) 3 = false ∧
    wFetch.mayStart 3 (wNop.cmdw.toNat / 256 % 256) = true ∧ wFetch.mayStart 3 (wOdd.cmdw.toNat / 256 % 256) = true ∧
    decide (wNop.cmdw.toNat % 2 = 1) = (wFetch.ring 3).cmdPhase ∧ entryLegal wNop = true ∧ entryLegal wOdd = false ∧
    decide ((0x70100#32).toNat % 2 = 1) ≠ (wFetch.ring 3).cmdPhase := by decide +kernel

/-- A privileged command of ring set 3 that waits under the number 7. -/
def wRun (op tgt : Nat) (oper : List Word) : CmdRun := { cid := 7, opcode := op, tgt, oper, priv := true, started := false }
def wCmd (op : Nat) (oper : List Word) (tgt : Nat := 0) : State := wPart.updRing 3 fun x => { x with running := [wRun op tgt oper] }

theorem witness_RingCommandsCompleteAtOnce :
    (∀ op, op < 16 → (wCmd op []).mayRun 3 7 op (wRun op 0 [])) ∧
    ((wPart.updRing 3 fun x => { x with running := [{ wRun 8 0 [] with priv := false }] }).cmdOf 3 7 8 = some { wRun 8 0 [] with priv := false } ∧
      CmdRun.forbidden { wRun 8 0 [] with priv := false } = true) ∧
    wPend.ackSlots 0 true ≠ [] ∧ wPend.ackSlots (wPend.rd .fltPendSeq 0 0) false ≠ [] ∧
    (∀ x ∈ maskCores (2 ^ 16 + 2 ^ 31), (wCmd 3 []).partOf (x / 4) = some ((wRun 3 0 []).target 3)) ∧
    (∃ x ∈ maskCores (2 ^ 3), (wCmd 3 []).partOf (x / 4) ≠ some ((wRun 3 0 []).target 3)) ∧
    (wCmd 4 [] 0x15).inForce ((wRun 4 0x15 []).target 3) = false ∧ (wCmd 4 []).inForce ((wRun 4 0 []).target 3) = true ∧
    (wCmd 4 []).stmtsFull 3 = false ∧
    ((wCmd 4 []).updRing 3 fun x => { x with stmts := List.replicate 8 { wStmt with kind := .demand } }).stmtsFull 3 = true ∧
    (wCmd 8 [5]).heldForbids .alcHostcapCap 5 = false ∧
    ((wCmd 8 [5]).wr .govStateCur svcHeld |>.wr .alcHostcapCap 3).heldForbids .alcHostcapCap 5 = true := by
  unfold State.mayRun; decide +kernel

/-- What LSEED needs of a record besides: a legal one of the partition's tag, or any from the privileged ring set, and a set with room. -/
theorem witness_LarderCommands_SeedsAreRead :
    1 ≤ (wRun 9 0 [0x1000, 0, 5]).word 2 ∧ (readSeed (tSeed 3)).2 = true ∧ (readSeed (tSeed 3)).1.key.prec ≤ 7 ∧
    (wCmd 9 [0x1000, 0, 5]).ownTag ((wRun 9 0 [0x1000, 0, 5]).target 3) = some (readSeed (tSeed 3)).1.key.tag ∧
    (wCmd 9 [0x1000, 0, 5]).lard.withdrawn = [] ∧
    ((wCmd 9 [0x1000, 0, 5]).lard.larder.filter fun x => larderSet x.key = larderSet (readSeed (tSeed 3)).1.key).length < 8 ∧
    (wPart.wr .govHallStbyrdy 1).flag .govHallStbyrdy = true ∧ wPart.cellarOn = false := by decide +kernel

/-- The Larder holds two entries of tag 5, that of partition 3. -/
def wSeeds (op : Nat) (oper : List Word) : State :=
  { wCmd op oper with lard := { wPart.lard with larder := [wEntry 1, wEntry 2] } }

theorem witness_LarderCommands :
    (wSeeds 9 [0x1000, 0, 5]).mayRun 3 7 9 (wRun 9 0 [0x1000, 0, 5]) ∧ (wRun 9 0 [0x1000, 0, 5]).misaligned = false ∧
    (wSeeds 10 [5, 0, 1]).mayRun 3 7 10 (wRun 10 0 [5, 0, 1]) ∧ (wRun 10 0 [5, 0, 1]).priv = true ∧
    (wSeeds 10 [5, 0, 1]).ownTag 3 ≠ some (CmdRun.lkey (wRun 10 0 [6])).tag ∧
    (wSeeds 11 [0x1000, 0, 1, 0]).mayRun 3 7 11 (wRun 11 0 [0x1000, 0, 1, 0]) ∧ (wSeeds 11 []).ownTag 3 = some 5 ∧
    testBit ((wRun 11 0 [0x1000, 0, 1, 0]).word 3) 0 = false ∧ (wSeeds 11 []).lard.badWords = [] ∧
    ((wSeeds 11 []).lard.larder.filter fun x => x.key.tag = 5).length = 2 := by
  unfold State.mayRun; decide +kernel

theorem witness_RingCommandsThatTakeTime :
    (wCmd 5 []).inForce ((wRun 5 0 []).target 3) = true ∧ (wCmd 5 []).stmtsFull ((wRun 5 0 []).target 3) = false ∧ (wCmd 5 []).changes.length < 4 ∧
    4 ≤ ({ wCmd 5 [] with changes := [wChange, wChange, wChange, wChange] } : State).changes.length ∧
    (wCmd 6 [0xF00, 6]).clashes ((wRun 6 0x19 [0xF00, 6]).target 3) 0xF00 = false ∧
    (wCmd 6 [0x10, 6]).clashes ((wRun 6 0x19 [0x10, 6]).target 3) 0x10 = true ∧
    (wRun 13 0 [0x1000, 0, 128]).misaligned = false ∧ 64 ≤ (wRun 13 0 [0x1000, 0, 128]).word 2 ∧ (wRun 13 0 [0x1004, 0, 128]).misaligned = true ∧
    ((after (.snapshot 3 7) (wCmd 13 [0x1000, 0, 128])).ring 3).running.find?
      (fun x => decide (x.cid = 7) && decide (x.opcode = 13) && x.started) = some { wRun 13 0 [0x1000, 0, 128] with started := true } ∧
    (wRun 14 0 []).misaligned = false ∧ (wCmd 14 []).svc = svcFull ∧ wordAt [1#32] 0 ≠ blobMagic ∧ (wCmd 14 []).rd .fwcUpdStage = 0 ∧
    ((wCmd 14 []).wr .govStateCur svcHeld).svc ≠ svcFull ∧ 1 ≤ ((wCmd 14 []).wr .fwcUpdStage 4).rd .fwcUpdStage := by decide +kernel

/-- Message of mailbox 2 stands, and both vectors of ring set 3 wait; the vectors are unmasked. -/
def wMail : State :=
  (((wPart.wr .hifMbStatFull 1 0 2).msixWrite .hx0 (0xC00 + 16 * 3 + 12) 0).msixWrite .hx0 (0xC00 + 16 * 19 + 12) 0).updRing 3 fun x =>
    { x with cplWaits := true, telWaits := true, lastCpl := some 0 }

theorem witness_ModerationMailboxesAndLinks :
    (wMail.ring 3).cplWaits = true ∧ (wMail.ring 3).telWaits = true ∧ (wMail.ring 3).lastCpl = some 0 ∧
    wMail.msixWord (wMail.ringPort 3) (4 * 3 + 3) % 2 = 0 ∧ wMail.msixWord (wMail.ringPort 3) (4 * 19 + 3) % 2 = 0 ∧
    isSender .hx1 0 = true ∧ isSender .cc 1 = true ∧ isSender .i3c 2 = true ∧ wMail.receiverUp 0 = true ∧ wFull.receiverUp 0 = false ∧
    wMail.receiverUp 1 = false ∧ wFull.receiverUp 2 = false ∧ isReceiver .cc 2 = true ∧ wMail.flag .hifMbStatFull 0 2 = true ∧
    isReceiver .hx0 2 = false ∧ 2 ∈ ({ wMail with mbBad := [2] } : State).mbBad := by decide +kernel

theorem witness_ModerationMailboxesAndLinks_PortsOfAMailbox :
    mayPost .cc 0 = true ∧ mayPost .hx1 0 = true ∧ mayPost .hx0 2 = false ∧ mayRelease .cc 1 = true ∧ mayRelease .i3c 0 = false ∧
    wMail.flag .hifMbStatFull 0 0 = false ∧ Port.hx1.isHost = true ∧ Port.i3c.isHost = false ∧ wMail.receiverUp 3 = true ∧
    reaches .hx0 .hif (0x600 + 0x20 * 0) = true ∧ reaches .i3c .hif (0x600 + 0x20 * 0) = false ∧ isSender .hx0 1 = false := by decide +kernel

/-- Start-up at the end of the rails: every rail in REG with VREADY, both Halls' complexes up, RAILGO given. -/
def wRails : State :=
  ((((upto 60).foldl (fun s r => wrs s [(.rgcStatusState, r, 0, railReg), (.rgcStatusVready, r, 0, 1), (.rgcCfgEn, r, 0, 1)]) State.reset).wr
    .govTmctlRailgo 1).updHall 0 fun x => { x with up := true }).updStart fun x => { x with group := 4 }
def wReady : State := (upto 32).foldl (fun s d => s.updDie d fun x => { x with inReset := false }) wRails

/-- CALIBRATING at step n. -/
def wCal (n : Nat) : State := (wPart.wr .govStateCur svcCalibrating).updStart fun x => { x with step := n, grains := true }

/-- A policy blob without records, in its region. -/
def wBlob : List Word := [BitVec.ofNat 32 blobMagic, 1, 20, 7, BitVec.ofNat 32 (crc32c ([blobMagic, 1, 20, 7].flatMap wordBytes))]

theorem witness_StartUpAdvances :
    wReady.svc = svcCold ∧ wReady.floorReady = true ∧ (wFull.wr .govStateCur svcFloor).svc = svcFloor ∧
    (wrs wFull [(.govStateCur, 0, 0, svcFloor), (.clkOsctrimTrimmed, 0, 0, 1), (.clkSrcRefsel, 0, 0, 2)]).refReady = true ∧
    (wCal 6).svc = svcCalibrating ∧ (wCal 6).start.step = 6 ∧ (wrs (wCal 6) [(.govTmhbPresent, 0, 0, 1), (.govHallStbyrdy, 0, 0, 1)]).waitBits = 0 ∧
    (∀ g, g < 4 → (wRails.updStart fun x => { x with group := g }).start.group = g ∧
      (g = 0 ∨ (wRails.updStart fun x => { x with group := g }).groupReady g = true)) ∧
    wRails.ccUp = true ∧ wRails.flag .govTmctlRailgo = true ∧ wRails.start.draining = false ∧ wRails.start.stopping = false ∧
    (∀ g, g < 4 → ∀ r ∈ groupRails (g + 1), wRails.railSt r ≠ railDown) ∧ (∀ k, k < 6 → (wCal k).start.step = k) ∧
    wPart.ccUp = true ∧ (0 : Fin 2).val = wPart.active ∧ blobValid ((wPart.program 2 []).region 2) = false ∧
    blobValid ((wPart.program 2 wBlob).region 2) = true ∧ wordAt ((wPart.program 2 wBlob).region 2) 2 = 20 := by decide +kernel

/-- The I3C port has the address 9. -/
def wI3c : State := after (.entdaa 9) wPart

theorem witness_I3cPort_I3cCommandCodes :
    wPart.i3c.da = none ∧ (9#7).toNat ≠ 0 ∧ wI3c.i3c.da.isSome = true := by decide +kernel

theorem witness_I3cPort_I3cTransfers :
    i3cLegal (([1#8, 2#8, 3#8] : List Octet).map BitVec.toNat) = false ∧ wI3c.i3c.errSecond ≠ some (wI3c.now / 1000000000) ∧
    (after (.i3cPrivateWrite [1#8]) wI3c).i3c.errSecond = some ((after (.i3cPrivateWrite [1#8]) wI3c).now / 1000000000) ∧
    i3cLegal (([0#8, 0x50#8, 0#8, 0#8] : List Octet).map BitVec.toNat) = true ∧ wI3c.i3c.ptr = none ∧
    (after (.i3cPrivateWrite [0#8, 0x50#8, 0#8, 0#8]) wI3c).i3c.ptr.isSome = true := by decide +kernel

/-- TM_HEARTBEAT has been counted 16 times; it is present; it is lost. -/
def wBeat : State := wPart.updStart fun x => { x with edges := 16, lastEdge := some 0 }
def wBeating : State := after .tmHeartbeatPresent wBeat
def wLost : State := after .tmHeartbeatLost wBeating

theorem witness_HeartbeatsAndShutdown_Heartbeats :
    16 ≤ wBeat.start.edges ∧ wBeat.flag .govTmhbPresent = false ∧ wBeat.start.lastEdge = some 0 ∧ wBeating.flag .govTmhbPresent = true ∧
    wBeating.svc = svcFull ∧ (wBeating.wr .govStateCur svcHeld).svc ≠ svcFull ∧ wLost.start.lost = true ∧ wLost.flag .govTmhbPresent = false ∧
    wLost.force.held8 = false ∧ wPart.ccUp = true ∧ wPart.svc ≠ svcFailsafe := by decide +kernel

theorem witness_HeartbeatsAndShutdown_OrderlyShutdown :
    Port.hx0.isHost = true ∧ Port.i3c.isHost = false ∧ (3#32).toNat / 2 % 2 = 1 ∧ (3#32).toNat % 2 = 1 ∧ wPart.svc ≠ svcCold ∧
    wPart.start.draining = false ∧ wPart.start.stopping = false ∧ wPart.inForce 3 = true ∧ (after (.shutdown .cc 2) wPart).start.draining = true ∧
    (wPart.wr .chnHoldHolding 5).holding ≠ (wPart.wr .chnHoldHolding 5).chainHome := by decide +kernel

/-- wPart in an orderly shutdown with k groups of rails stopped. -/
def wStopping (k : Nat) : State := wPart.updStart fun x => { x with stopping := true, stopped := k }

theorem witness_HeartbeatsAndShutdown_RailGroups :
    ∀ k < 5, (wStopping k).start.stopping = true ∧ (wStopping k).start.stopped = k ∧
      (groupRails (5 - k)).all (wStopping k).railStopped = true := by decide +kernel

theorem witness_DroopThresholdsAreLegal :
    (0x00100020#32).toNat / 2 ^ 16 ≤ (0x00100020#32).toNat % 2 ^ 16 ∧ (0x00400013#32).toNat % 2 ^ 16 < 20 ∧
    wFull.railSt (ownRail 2) ≠ railReg ∧ wFull.railSt (ownRail 2) ≠ railRamp := by decide +kernel

theorem witness_LongDroopsAreReported :
    wDroop.episodeStart 2 (detDomain 2 3) = some 0 ∧ (wDroop.die 2).steward = false ∧
    ((wDroop.updDie 2 fun x => { x with steward := true }).die 2).faultHold.length < 16 := by decide +kernel

/-- The view of partition 3 selects queue 5 of die 4, which has counted. -/
def wQueue : State :=
  wrs wPart [(.viewQsel, 3, 0, 4 * 512 + 5), (.qeaEnergy, 4 * 512 + 5, 0, 0x123456789A), (.qeaTrimt, 4 * 512 + 5, 0, 77), (.qeaServed, 4 * 512 + 5, 0, 9),
    (.qeaDelayed, 4 * 512 + 5, 0, 8), (.qeaRefused, 4 * 512 + 5, 0, 7)]

theorem witness_QueueDataThroughAView :
    wQueue.frozen = none ∧ wQueue.ownQueue 3 = some 2053 ∧ wPart.ownQueue 3 = none := by decide +kernel

/-- Interrupts are enabled, MB2 holds a message with bad parity, and one interrupt has gone out. -/
def wIbi : State :=
  { wMail with i3c := { wI3c.i3c with ibiEn := true, ibiOut := [1], ibiLast := some 1 }, mbBad := [2] }

theorem witness_InBandInterrupts :
    wIbi.flag .hifMbStatFull 0 2 = true ∧ 2 ∈ wIbi.mbBad ∧ (0 : Fin 2).val = wIbi.active ∧ wIbi.i3c.ibiLast = some 1 ∧ wIbi.i3c.ibiEn = true ∧
    wIbi.ibiStands 1 = false ∧ (wIbi.wr .hifMbStatFull 1 0 3).ibiStands 1 = true ∧ wMail.i3c.ibiEn = false := by decide +kernel
/-! ## Statements whose hypotheses any state with its supply up meets -/

theorem witness_EveryCommandCompletes : wFull.aon = true ∧ State.reset.aon = true := by decide +kernel

theorem witness_NothingRunsWithoutSupply :
    ({ wFull with aon := false } : State).aon = false ∧ Instr.samplingInstant ≠ .powerOn ∧ Instr.samplingInstant ≠ .aonRemoved := by decide +kernel

/-- A sound state in which a step answers a next state. -/
theorem witness_EveryStepKeepsSoundness :
    ({ State.reset with pending := [.beaconMissed] } : State).sound ∧
    (match step { State.reset with pending := [.beaconMissed] } with | .next _ => true | _ => false) = true := by
  refine ⟨?_, ?_⟩
  · refine ⟨by decide +kernel, fun r h => ?_⟩
    have e : State.reg { State.reset with pending := [.beaconMissed] } r = if r.exists then r.reset else 0 := by
      simp [State.reg, State.reset, h, Store.get]
    rw [e]
    unfold limitLe
    split <;> simp
  · decide +kernel

/-- ELECPK lowered by one power unit, and raised by one, which is no lowering. -/
theorem witness_LowerOnlyFieldsNeverRise :
    Sys2Proof.Machine.Field.isLimit .alcElecpkPeak = true ∧ limitLe .alcElecpkPeak 33599 (wFull.rd .alcElecpkPeak) = true ∧
    limitLe .alcElecpkPeak 33601 (wFull.rd .alcElecpkPeak) = false ∧ Instr.samplingInstant ≠ .aonRemoved := by decide +kernel

/-- CREDITRSV below, at and above its least value; a write of ELECPK at the value held and above it; ACCERR clear and set. -/
theorem witness_AccessKindsLand :
    wFull.aon = true ∧ wFull.frozen = none ∧ (33600#32).toNat % 2 ^ 16 ≤ wFull.rd .alcElecpkPeak ∧ ¬ (33601#32).toNat % 2 ^ 16 ≤ wFull.rd .alcElecpkPeak ∧
    wFull.rd .govStatusAccerr ≤ 1 ∧ (wFull.wr .govStatusAccerr 1).rd .govStatusAccerr ≤ 1 := by decide +kernel

theorem witness_HalvesOfWideRegisters_LowerHalfLatchesUpper :
    let t := after (.lowerHalfRead .hx1 ⟨0x04024, .word⟩) wFull
    t.aon = true ∧ t.port .hx1 = (after (.lowerHalfRead .hx1 ⟨0x04024, .word⟩) wFull).port .hx1 ∧ Port.hx0 ≠ Port.hx1 := by decide +kernel

theorem witness_AcknowledgeAndRearm :
    wPend.aon = true ∧ wPend.flag .fltPendValid 0 0 = true ∧ testBit (2 ^ 16) 16 = true ∧ testBit (wPend.rd .fltPendSeq 0 0) 16 = false := by decide +kernel

theorem witness_WarmAndRecoveryResets :
    wPart.aon = true ∧ wPart.active = 0 ∧ wPart.rd .hifRsCtrlPort 0 3 = 0 := by decide +kernel

theorem witness_PeriodLimitWithinItsTerms : (wFull.wr .govStateCur 4).aon = true ∧ (after .samplingInstant (wFull.wr .govStateCur 4)).svc = svcHeld := by
  decide +kernel

theorem witness_InputLostGoesToCheck : (wRail railReg 0).aon = true ∧ (wRail railReg 0).railSt 3 = railReg := by decide +kernel

theorem witness_RailStartsAndChecks_RailChecksFail :
    ∀ k, k < 3 → (wRail railCheck k).railSt 3 = railCheck ∧ ((wRail railCheck k).rail 3).chk = k := by decide +kernel

/-- Die 5 with a grant to apply at the boundary. -/
theorem witness_FastPeriod :
    wFull.aon = true ∧ (wFull.die 5).powered = true ∧ ((wFull.updDie 5 fun x => { x with next := some wGrant }).die 5).next = some wGrant ∧
    (wFull.die 5).next = none := by decide +kernel

theorem witness_LiveUpdates_UpdateEnds :
    (wUpdate 7).rd .fwcBootSvnf ≤ 63 ∧ (∀ k, k < 2 → imgSvn ((wUpdate 7).region (3 + k)) ≤ 63) ∧
    1 ≤ (wUpdate 1).rd .fwcUpdStage ∧ (wUpdate 4).rd .fwcUpdStage ≤ 4 := by decide +kernel

theorem witness_InjectionsArm : wFull.aon = true := by decide +kernel

theorem witness_AlertAndThrottlePins : wFull.aon = true := by decide +kernel

/-! ## Small tests of single commands, with results from the spec -/

/-- The addresses of the examples under R388. -/
theorem test_addresses :
    locate 0x34434 = some (.dag, 20, 0x434) ∧ locate 0x194FC = some (.rgc, 37, 0x0FC) ∧ locate 0x8B110 = some (.qea, 2833, 0) ∧
    locate 0xCC020 = some (.view, 3, 0x020) := by decide +kernel

/-- Whether a command finds no supply. -/
def noSupply (c : Instr) (s : State) : Bool := match exec c s with | .fault .noSupply => true | _ => false

/-- Without the always-on supply a command finds none, and POWER_ON finds the state of reset (R369). -/
theorem test_no_supply :
    noSupply .samplingInstant { State.reset with aon := false } = true ∧ noSupply .powerOn { State.reset with aon := false } = false := by
  decide +kernel

/-- A host write of HOSTCAP lands, and a write of TRAYCAP, which is the tray manager's, does not (R51, R381). -/
theorem test_register_write :
    (after (.registerWrite .hx0 0x04018 20800 .word none) State.reset).rd .alcHostcapCap = 20800 ∧
    (after (.registerWrite .hx0 0x04014 20800 .word none) State.reset).rd .alcTraycapCap = 0xFFFF ∧
    (after (.registerWrite .i3c 0x04014 22400 .word none) State.reset).rd .alcTraycapCap = 22400 := by decide +kernel

/-- A read of the lower half latches the upper half for that port, and the upper half reads as latched (R6). -/
theorem test_lower_half_read :
    let s := after (.lowerHalfRead .hx0 ⟨0x020C0, .word⟩) (wFull.wr .fltFullns 0x500000007)
    (s.port .hx0).rdata = 7 ∧ ((after (.lowerHalfRead .hx0 ⟨0x020C4, .word⟩) (s.wr .fltFullns 0x900000000)).port .hx0).rdata = 5 := by decide +kernel

/-- CRC-32C over "123456789" (R335): the check value, after nine bytes. -/
def tCrc : State :=
  after (.crcFeedByte .cc 0x39) (after (.crcFeedWord .cc 0x38373635) (after (.crcFeedWord .cc 0x34333231) (after (.crcSeed .cc 0xFFFFFFFF) wFull)))

theorem test_crc : tCrc.rd .fwcCrcout Port.cc.num = 0xE3069283 ∧ tCrc.rd .fwcCrccnt Port.cc.num = 9 := by decide +kernel

/-- The electrical envelope of the worked example under R39: MID once bucket A is full, BASE once bucket B is. -/
theorem test_envelope :
    wFull.elecCeiling.1 = 33600 ∧ ((wFull.wr .alcElecbktAfill 79).bucketGrant 32000).elecCeiling.1 = 28800 ∧
    ((wFull.wr .alcElecbktBfill 39999).bucketGrant 28800).elecCeiling.1 = 25600 := by decide +kernel

/-- FULL with 3 000 grains held, a tray cap of 2.8 kW and a host cap; what the package draws in 1/8 W. -/
def tCaps (host : Nat) (draw : Nat := 30000) : State :=
  wrs wFull [(.chnHoldEff, 0, 0, 3000), (.alcTraycapCap, 0, 0, 22400), (.alcHostcapCap, 0, 0, host), (.dagEpwrPer, 2, 0, draw)]

/-- The example under R381: a tray cap of 2.8 kW binds with cause TRAY, and a host cap of 2.6 kW with cause HOST. -/
theorem test_sampling :
    (after .samplingInstant (tCaps 25600)).rd .alcPkglimLim = 22400 ∧ (after .samplingInstant (tCaps 25600)).rd .alcPkglimCause = 6 := by decide +kernel

/-- The same limit with a demand below it: no term holds it, and the cause is NONE (R13, R38). -/
theorem test_sampling_none :
    (after .samplingInstant (tCaps 25600 20000)).rd .alcPkglimLim = 22400 ∧ (after .samplingInstant (tCaps 25600 20000)).rd .alcPkglimCause = 0 := by
  decide +kernel

theorem test_sampling_host :
    (after .samplingInstant (tCaps 20800)).rd .alcPkglimLim = 20800 ∧ (after .samplingInstant (tCaps 20800)).rd .alcPkglimCause = 5 := by decide +kernel

/-- THROTTLE_N low: the limit of THROTTLE, with cause ALERT, from the next sampling instant (R382). -/
theorem test_throttle :
    let s := after .samplingInstant (after (.throttleEdge false) ((tCaps 25600).wr .govThrottleLim 16000))
    s.rd .alcPkglimLim = 16000 ∧ s.rd .alcPkglimCause = 7 := by decide +kernel

/-- POWER_ALERT_N forces the floor state (R36). -/
theorem test_power_alert : (after .powerAlertAssert wFull).floorOn = true ∧ (after .powerAlertAssert wFull).force.alert = true := by decide +kernel

/-- Taps of detector 19 of CD20 in the worked example under R160: 140 at level 1 and 125 at level 2. -/
def tDroop : State := (wrs wFull [(.dagDrpchrClo, 20, 19, 30), (.dagDrpchrChi, 20, 19, 205)]).updRail 20 fun x => { x with vref := 1600 }

theorem test_taps : tDroop.tap 20 19 (tDroop.rd .dagDrpthrDthr1 20) = 140 ∧ tDroop.tap 20 19 (tDroop.rd .dagDrpthrDthr2 20) = 125 := by decide +kernel

/-- A transition short of TAP1 and not of TAP2 trips at level 1, short of TAP2 at level 2 (R149). -/
def tTaps : State := wrs tDroop [(.dagDrpchrTap1, 20, 19, 140), (.dagDrpchrTap2, 20, 19, 125)]

theorem test_trip_levels : tTaps.tripLevel 20 19 130 = 1 ∧ tTaps.tripLevel 20 19 120 = 2 ∧ tTaps.tripLevel 20 19 150 = 0 := by decide +kernel

/-- Class bounds and observed classes: 64 A is in class 7 (R26, R164). Currents are in 1/4 A. -/
theorem test_classes : classBound 0 = 0 ∧ classBound 1 = 16 ∧ observedClass 0 = 0 ∧ observedClass 17 = 2 ∧ observedClass 5000 = 7 := by decide +kernel

/-- The running mean of R165: from 15 invocations to 16, with an energy above the mean by 160, the mean rises by 10 and the class to 4. -/
theorem test_learning :
    let e := ({ wEntry 1 with count := 15 }).learn { die := 4, key := (wEntry 1).key, k := 4, observed := true, energy := 1160, cycles := 100, seq := 1 } 77
    e.count = 16 ∧ e.emean = 1010 ∧ e.maxstep = 4 ∧ e.last = 77 := by decide +kernel

/-- The grid slides the shorter way round (R85). -/
theorem test_slide : slide 0 291 2000 = 1 ∧ slide 1999 291 2000 = 0 ∧ slide 291 291 2000 = 291 ∧ slide 1500 291 2000 = 1501 := by decide +kernel

/-- The worked example under R322 up to its completion: the command ring is past its wrap, and the completion ring is at index 20 in its first
pass. The command starts at 10 002 300 ns. -/
def tRing : State :=
  { (wrs wPart [(.hifRsCmdci, 0, 3, 0), (.hifRsSizesCpl, 0, 3, 6), (.hifRsCplpi, 0, 3, 20)]).updRing 3 fun x =>
      { x with cmdpi := 1, cmdPhase := false, cplPhase := true } with now := 10002300 }

def tFetched : State := after (.commandFetch 3 { cmdw := 0x00510400, tgt := 0, oper := List.replicate 14 0 }) tRing

/-- The entry with PHASE 0 is the one expected (R302, R306). -/
theorem test_fetch : (tFetched.ring 3).running.map (fun c => (c.cid, c.opcode)) = [(0x51, 4)] ∧ tFetched.rd .hifRsCmdci 0 3 = 1 := by decide +kernel

/-- Bytes 4 to 15 carry SQHEAD 1 and RESULT; then word 0 is 0x0051_0001 (R302, R311). -/
theorem test_completion :
    (after (.statement 3 0x51) tFetched).dma =
      [{ port := .hx0, addr := 0x20144, words := [1, 0, 0] }, { port := .hx0, addr := 0x20140, words := [0x00510001] }] := by decide +kernel

/-- T_END is the first fast-period boundary at or after the start (R69). -/
theorem test_demand : ((after (.statement 3 0x51) tFetched).ring 3).due.map (fun d => (d.kind, d.tEnd)) = [(.demand, 10002500)] := by decide +kernel

/-- A doorbell bit is set; a reserved bit is discarded and sets DBDISC (R313). -/
theorem test_doorbell :
    (after (.doorbellSet .hx0 8) wPart).rd .hifDbpend = 8 ∧ (after (.doorbellSet .hx0 0x80000000) wPart).rd .hifDbpend = 0 ∧
    (after (.doorbellSet .hx0 0x80000000) wPart).rd .hifStatusDbdisc = 1 := by decide +kernel

/-- SETNEWDA changes the address, and RSTDAA drops it (R375). -/
theorem test_addresses_of_the_port :
    (after (.setnewda 12) wI3c).i3c.da = some 12 ∧ (after .rstdaa wI3c).i3c.da = none := by decide +kernel

/-- CD09 in the worked example under R274: with a rise of 12.0 mV required, 12.5 mV applied and 7.5 mV of margin left at 20 000 h, 20 mV are
available, and the forecast is 134 320 h at an exponent of 0.25. Voltages are in 0.5 mV. -/
def tAged : State :=
  let s := wrs wFull [(.ageCfgNexp, 0, 0, 16), (.ageDieRaise, 0, 9, 25), (.ageDieMargin, 0, 9, 15)]
  { s.updAge 9 fun x => { x with dv := 24 } with age := { (s.updAge 9 fun x => { x with dv := 24 }).age with opNs := 20000 * 3600 * 1000000000 } }

theorem test_forecast : tAged.forecastHours 9 = 134320 := by decide +kernel

/-- A required rise of 12.0 mV with 4 steps applied leaves one step of 2.5 mV (R268). -/
theorem test_steps_due : (tAged.wr .ageDieRaise 20 0 9).stepsDue 9 = 1 := by decide +kernel

/-- SETCLASS of a core that is not the partition's: INVALID, with nothing done (R187, R308). -/
theorem test_setclass_invalid : ((after (.setclass 3 7) (wCmd 3 [1, 0, 0, 0, 2])).rd .alcCclassCls 0 0) = 1 := by decide +kernel

/-- Trimmed operands (R207, R208): an E4M3 NaN passes, its neighbour is a number and is trimmed; a subnormal with no kept bit becomes a zero of
the same sign; an infinity and a NaN of FP16 pass; FP4 is never trimmed. -/
theorem test_trim :
    trimOperand .e4m3 2 0x7F = 0x7F ∧ trimOperand .e4m3 2 0x7E = 0x7C ∧ trimOperand .bf16 1 0x8003 = 0x8000 ∧ trimOperand .fp16 2 0x7C00 = 0x7C00 ∧
    trimOperand .fp16 1 0x7E01 = 0x7E01 ∧ trimOperand .e2m1 2 7 = 7 ∧ effLevel 2 3 = 0 ∧ effLevel 2 1 = 1 := by decide +kernel

/-- 1.875 in E4M3 keeps one fraction bit at level 2, and its square comes to 2.25, within the bound of R209; a descriptor of precision code 6
gives the array no product (R210). -/
theorem test_trimmed_product :
    arrayProduct 0 2 2 { fa := .e4m3, a := 0x3F, fb := .e4m3, b := 0x3F } = some (9 / 4) ∧
    arrayProduct 0 2 0 { fa := .e4m3, a := 0x3F, fb := .e4m3, b := 0x3F } = some (225 / 64) ∧
    (225 / 64 - 9 / 4 : Rat) ≤ 225 / 64 * productBound 1 1 ∧ arrayProduct 6 2 2 { fa := .bf16, a := 0x3F, fb := .bf16, b := 0x3F } = none := by
  decide +kernel

end Sys2Proof.Tests
end

/-!
Settles O6: the lower-only fields. What each operation leaves of the table of limits, how a write of a limit's word lands in it, and what every
command can do to it (R7, R8).
-/

namespace Sys2Proof.Machine

/-! ## What the operations beside a write to a limit leave of the limits -/

theorem State.wr_limits (s : State) (f : Field) (v i j : Nat) (h : f.isLimit = false) : (s.wr f v i j).limits = s.limits := by
  simp only [State.wr, State.put, h]
  split <;> rfl

theorem isLimit_of_faultField {f : Field} (h : faultField f = true) : f.isLimit = false := by
  revert h; cases f <;> decide

/-- The table of limits is no part of what a fault reaches. -/
theorem blind_limitTable : FaultBlind fun s : State => s.limits where
  put s r v h := s.wr_limits r.f v r.i r.j (isLimit_of_faultField h)
  rings _ _ := rfl
  tel _ _ := rfl
  msix _ _ := rfl
  msixOut _ _ := rfl
  dma _ _ := rfl
  i3c _ _ := rfl
  mbBad _ _ := rfl
  inject _ _ := rfl
  fwInt _ _ := rfl
  attic _ _ := rfl
  faultSeq _ _ := rfl
  pend _ _ := rfl

@[simp] theorem State.setGdep_limits (s : State) (k v : Nat) : (s.setGdep k v).limits = s.limits := by
  unfold State.setGdep State.noteRun
  rw [State.updDie_limits, State.wr_limits _ _ _ _ _ rfl, State.updDie_limits]

@[simp] theorem State.setBranch_limits (s : State) (k div : Nat) : (s.setBranch k div).limits = s.limits := by
  have replaced (b : Bool) (t : State) : (if b then t.wr .clkStatusDivclamp 1 else t).limits = t.limits := by
    split
    · exact t.wr_limits .clkStatusDivclamp 1 0 0 rfl
    · rfl
  have corrected : (corr 15 2 (unitOf (k / 4) (k % 4)) 8).cls ≠ .fatal := FaultClass.noConfusion
  have raised (b : Bool) (t : State) : (if b then t.raise (corr 15 2 (unitOf (k / 4) (k % 4)) 8) else t).limits = t.limits := by
    split
    · exact raise_blind blind_limitTable t _ corrected
    · rfl
  unfold State.setBranch
  dsimp only
  split
  · rw [raised, replaced, State.wr_limits _ _ _ _ _ rfl]
  · rw [State.setGdep_limits, raised, replaced, State.wr_limits _ _ _ _ _ rfl]

@[simp] theorem State.setVid_limits (s : State) (r v : Nat) : (s.setVid r v).limits = s.limits := by
  have target (v1 : Nat) : (if v1 = s.rd .rgcVidV r then s
      else ((s.wr .rgcVidV v1 r).wr .rgcStatusVready 0 r).updRail r fun x => { x with near := 0 }).limits = s.limits := by
    split
    · rfl
    · rw [State.updRail_limits, State.wr_limits _ _ _ _ _ rfl, State.wr_limits _ _ _ _ _ rfl]
  unfold State.setVid
  dsimp only
  split
  · exact target _
  · rw [State.wr_limits _ _ _ _ _ rfl, target]

@[simp] theorem State.followVf_limits (s : State) (d : Nat) : (s.followVf d).limits = s.limits := by
  have shown := s.wr_limits .clkDomTgt (s.fastestTgt d) 0 d rfl
  unfold State.followVf
  dsimp only
  split
  · rw [State.setVid_limits, shown]
  · split
    · rw [State.setVid_limits, shown]
    · exact shown

@[simp] theorem State.limitLanded_limits (s : State) (r : FieldRef) : (s.limitLanded r).limits = s.limits := by
  unfold State.limitLanded
  split
  · unfold State.holdFmax
    exact each_blind (g := State.limits) _ _ (fun t k => by rw [State.followVf_limits, State.setBranch_limits]) s
  · split
    · exact State.setVid_limits _ _ _
    · rfl
  · rfl

theorem isLimit_of_raiserejOf {b : Blk} {f : Field} (h : raiserejOf b = some f) : f.isLimit = false := by
  cases b <;> cases h <;> rfl

@[simp] theorem State.raiserej_limits (s : State) (r : FieldRef) : (s.blockFlag raiserejOf r).limits = s.limits := by
  unfold State.blockFlag
  split
  · rename_i hf
    exact State.wr_limits _ _ _ _ _ (isLimit_of_raiserejOf hf)
  · rfl

@[simp] theorem State.dropHeld_limits (s : State) (p : Port) (base a : Nat) : (s.dropHeld p base a).limits = s.limits := by
  unfold State.dropHeld
  split
  · split <;> rfl
  · rfl

/-! ## A write to a limit -/

theorem State.put_limits (s : State) {r : FieldRef} (v : Nat) (he : r.exists = true) (hl : r.f.isLimit = true) :
    (s.put r v).limits = Store.set s.limits r (v % 2 ^ (fieldDef r.f).width) := by
  simp [State.put, he, hl]

/-- A limit is open to every port, and no freeze covers it (R8, R11, R352). -/
theorem isLimit_open {f : Field} (h : f.isLimit = true) : (fieldDef f).port = .any ∧ covered f = false := by
  revert h; cases f <;> decide

theorem State.writeField_limit (s : State) (p : Port) {r : FieldRef} (v : Nat) (he : r.exists = true) (hl : r.f.isLimit = true) :
    s.writeField p r v none = s.writeLimit r v none := by
  obtain ⟨hport, hcov⟩ := isLimit_open hl
  have hmay : portMay p r = true := by simp [portMay, hport]
  have hkind : (fieldDef r.f).kind = .rwl := of_decide_eq_true hl
  simp [State.writeField, he, hmay, hcov, hkind]

/-- The write lands in the table of limits where it does not raise, and nowhere otherwise (R7). -/
theorem State.writeField_limits (s : State) (p : Port) {r : FieldRef} (v : Nat) (he : r.exists = true) (hl : r.f.isLimit = true) :
    (s.writeField p r v none).limits =
      if limitLe r.f v (s.reg r) then Store.set s.limits r (v % 2 ^ (fieldDef r.f).width) else s.limits := by
  rw [State.writeField_limit s p v he hl]
  unfold State.writeLimit
  split
  · rw [State.limitLanded_limits, State.put_limits s v he hl]
  · exact State.raiserej_limits s r

/-- The release temperature shares a word with the Lintel trip; its write reaches no limit (R234). -/
theorem State.writeField_tripRelease (s : State) (p : Port) (i j v : Nat) :
    (s.writeField p ⟨.hrtLtripRel, i, j⟩ v none).limits = s.limits := by
  have landed : (s.setField p ⟨.hrtLtripRel, i, j⟩ v).limits = s.limits := by
    change (if _ then s.wr .hrtStatusCfgerr 1 else s.wr .hrtLtripRel v i j).limits = _
    split <;> exact State.wr_limits _ _ _ _ _ rfl
  unfold State.writeField
  split
  · rfl
  · split
    · rfl
    · exact landed

/-- An element of a word that holds a limit: a limit itself, or the release temperature beside the Lintel trip. -/
def limitPiece (y : Piece) : Bool := y.ref.exists && (y.ref.f.isLimit || decide (y.ref.f = .hrtLtripRel))

theorem limitPiece_exists {y : Piece} (h : limitPiece y = true) : y.ref.exists = true := by
  simp only [limitPiece, Bool.and_eq_true] at h
  exact h.1

/-- Its write keeps every reading of the table that does not look at this element. -/
theorem State.writeField_keeps {α : Type} {g : Store FieldRef Nat → α} (s : State) (p : Port) {y : Piece} (v : Nat)
    (hy : limitPiece y = true) (hg : ∀ l w, g (Store.set l y.ref w) = g l) :
    g (s.writeField p y.ref v none).limits = g s.limits := by
  simp only [limitPiece, Bool.and_eq_true, Bool.or_eq_true, decide_eq_true_eq] at hy
  obtain ⟨he, hl | hrel⟩ := hy
  · rw [State.writeField_limits s p v he hl]
    split
    · exact hg _ _
    · rfl
  · obtain ⟨⟨f, i, j⟩, lo, word⟩ := y
    subst hrel
    rw [State.writeField_tripRelease]

/-! ## A word of limits -/

/-- The elements of a word written one after the other. -/
def State.writePieces (s : State) (p : Port) (l : List Piece) (v : Nat) : State :=
  l.foldl (fun s x => s.writeField p x.ref (v / 2 ^ x.lo % 2 ^ (fieldDef x.ref.f).width) none) s

theorem State.writePieces_keeps {α : Type} {g : Store FieldRef Nat → α} (p : Port) (v : Nat) (l : List Piece) (s : State)
    (hl : ∀ y ∈ l, limitPiece y = true) (hg : ∀ y ∈ l, ∀ x w, g (Store.set x y.ref w) = g x) :
    g (s.writePieces p l v).limits = g s.limits := by
  induction l generalizing s with
  | nil => rfl
  | cons y l ih =>
    have rest := ih (s.writeField p y.ref (v / 2 ^ y.lo % 2 ^ (fieldDef y.ref.f).width) none)
      (fun z hz => hl z (List.mem_cons_of_mem _ hz)) fun z hz => hg z (List.mem_cons_of_mem _ hz)
    exact rest.trans (State.writeField_keeps s p _ (hl y List.mem_cons_self) (hg y List.mem_cons_self))

theorem lowered_set_same {old new : Store FieldRef Nat} {r : FieldRef} {v : Nat}
    (h : limitLe r.f v (Store.get FieldRef.reset old r) = true) :
    Store.get FieldRef.reset (lowered old (Store.set new r v)) r = v := by
  unfold lowered
  rw [Store.get_seal, Store.set, List.filter_cons_of_pos (by exact h), List.cons_append, Store.get_cons, if_pos rfl]

theorem lowered_set_other {old new : Store FieldRef Nat} {a r : FieldRef} {v : Nat} (h : a ≠ r) :
    Store.get FieldRef.reset (lowered old (Store.set new a v)) r = Store.get FieldRef.reset (lowered old new) r := by
  unfold lowered
  rw [Store.get_seal, Store.get_seal, Store.set, List.filter_cons]
  split
  · rw [List.cons_append, Store.get_cons, if_neg h]
  · rfl

theorem State.reg_limit (s : State) {r : FieldRef} (he : r.exists = true) (hl : r.f.isLimit = true) :
    s.reg r = Store.get FieldRef.reset s.limits r := by
  simp [State.reg, he, hl]

/-- Of a word written, each limit that is not raised is the one then held: the elements before it and after it in the word do not touch it. -/
theorem State.writePieces_lands (s : State) (p : Port) (v : Nat) {l : List Piece} {x : Piece} (hx : x ∈ l)
    (hl : ∀ y ∈ l, limitPiece y = true) (hd : (l.map Piece.ref).Nodup) (hlim : x.ref.f.isLimit = true)
    (hle : limitLe x.ref.f (v / 2 ^ x.lo % 2 ^ (fieldDef x.ref.f).width) (s.reg x.ref) = true) :
    Store.get FieldRef.reset (lowered s.limits (s.writePieces p l v).limits) x.ref = v / 2 ^ x.lo % 2 ^ (fieldDef x.ref.f).width := by
  obtain ⟨before, rest, rfl⟩ := List.append_of_mem hx
  have he := limitPiece_exists (hl x hx)
  rw [List.map_append, List.map_cons, List.nodup_middle, List.nodup_cons] at hd
  have other : ∀ y, y ∈ before ∨ y ∈ rest → y.ref ≠ x.ref := fun y hy e =>
    hd.1 (by rw [← e, ← List.map_append]; exact List.mem_map_of_mem (List.mem_append.2 hy))
  set t := s.writePieces p before v with ht
  have held : t.reg x.ref = s.reg x.ref := by
    rw [State.reg_limit _ he hlim, State.reg_limit _ he hlim]
    exact State.writePieces_keeps (g := fun l => Store.get FieldRef.reset l x.ref) p v before s
      (fun y hy => hl y (List.mem_append_left _ hy)) fun y hy l w => Store.get_set_other _ _ _ (other y (.inl hy))
  have cut : s.writePieces p (before ++ x :: rest) v =
      (t.writeField p x.ref (v / 2 ^ x.lo % 2 ^ (fieldDef x.ref.f).width) none).writePieces p rest v := by
    simp [State.writePieces, ht]
  rw [cut, State.writePieces_keeps (g := fun l => Store.get FieldRef.reset (lowered s.limits l) x.ref) p v rest _
      (fun y hy => hl y (List.mem_append_right _ (List.mem_cons_of_mem _ hy))) fun y hy l w => lowered_set_other (other y (.inr hy)),
    State.writeField_limits _ _ _ he hlim, held, if_pos hle, Nat.mod_mod]
  exact lowered_set_same (by rw [← State.reg_limit s he hlim]; exact hle)

/-! ## The words of the window that hold limits -/

/-- The places of blocks that hold limits, in which no word is written as a whole. -/
def limitPlace (b : Blk) (off : Nat) : Bool :=
  match b with
  | .clk | .hrt => true
  | .alc => decide (off < 0x100)
  | .rgc => decide (off ≠ 0)
  | _ => false

theorem State.wholeWord_limitPlace (s : State) (p : Port) {b : Blk} (i : Nat) {off : Nat} (v : Nat) (h : limitPlace b off = true) :
    s.wholeWord p b i off v = none := by
  cases b <;> simp only [limitPlace, decide_eq_true_eq, Bool.false_eq_true] at h <;> simp [State.wholeWord]
  case alc => omega
  case rgc => exact h

theorem reaches_limitPlace (p : Port) {b : Blk} {off : Nat} (h : limitPlace b off = true) : reaches p b off = true := by
  cases b <;> simp only [limitPlace, Bool.false_eq_true] at h <;> cases p <;> rfl

theorem State.hwWord_none (s : State) (p : Port) (l : List Piece) (v : Nat) : s.hwWord p l v none = (s, v) := by
  unfold State.hwWord
  induction l with
  | nil => rfl
  | cons y l ih => exact ih

/-- No element of such a word is a port's own (R389). -/
theorem pieces_limitPlace (p : Port) {b : Blk} (i : Nat) {off : Nat} (h : limitPlace b off = true) : pieces p b i off = pieces .cc b i off := by
  have shared : ∀ f ∈ blkFields b, f.perPort = false := by
    cases b <;> simp only [limitPlace, Bool.false_eq_true] at h <;> decide
  exact List.flatMap_congr fun f hf => by simp [shared f hf]

/-- A write of a word of limits writes its elements one after the other. -/
theorem State.busWrite_limitWord (s : State) (p : Port) {a : Nat} (v : Nat) {b : Blk} {i off : Nat} (ha : a % 4 = 0)
    (hloc : locate a = some (b, i, off)) (hp : limitPlace b off = true) (hdef : definedWord b off = true)
    (hwide : wideOf (pieces .cc b i off) = none) :
    ∃ s1 : State, s1.limits = s.limits ∧ s.busWrite p a v true none = s1.writePieces p (pieces .cc b i off) v := by
  have hhif : b ≠ .hif := by rintro rfl; exact absurd hp (by simp [limitPlace])
  have hmsix : isMsix b off = false := by simp [isMsix, hhif]
  have hdown : (s.answered p).meetsDown p b off = false := by simp [State.meetsDown, mboxOf, hhif]
  refine ⟨(s.answered p).dropHeld p (a - off) a, State.dropHeld_limits _ _ _ _, ?_⟩
  simp only [State.busWrite, State.wordWrite, hloc, ha, reaches_limitPlace p hp, hmsix, hdef, hdown, State.hwWord_none,
    State.wholeWord_limitPlace _ p i _ hp, pieces_limitPlace p i hp, hwide, State.writePieces]
  rfl

/-- What the table of Lintel limits says of each entry: its word lies among those of limits, is aligned and inside the window, and holds
the field at the bit named. -/
def limitEntry (x : Nat × Field × Nat × Nat) (w : Blk × Nat × Nat) : Bool :=
  let l := pieces .cc w.1 w.2.1 w.2.2
  decide (x.1 % 4 = 0 ∧ x.1 < 2 ^ 20 ∧ x.2.1.isLimit = true ∧ limitPlace w.1 w.2.2 = true ∧ definedWord w.1 w.2.2 = true ∧
    wideOf l = none ∧ (∀ y ∈ l, limitPiece y = true) ∧ (l.map Piece.ref).Nodup ∧ ⟨⟨x.2.1, x.2.2.1, 0⟩, x.2.2.2, 0⟩ ∈ l)

theorem locate_rail {r o : Nat} (hr : r < 60) (ho : o < 0x400) : locate (0x10000 + o + 0x400 * r) = some (.rgc, r, o) := by
  have hi : (0x10000 + o + 0x400 * r - 0x10000) / 0x400 = r := by omega
  have hoff : (0x10000 + o + 0x400 * r) % 0x400 = o := by omega
  unfold locate
  rw [hi, hoff, if_neg (by omega), if_neg (by omega), if_pos (by omega)]

theorem limitPiece_rail {r : Nat} (hr : r < 60) {f : Field}
    (hf : f ∈ [Field.rgcVmaxV, .rgcOclimPhase, .rgcOclimRail]) (lo : Nat) : limitPiece ⟨⟨f, r, 0⟩, lo, 0⟩ = true := by
  have typed : (railType r).isSome = true := by
    unfold railType
    split_ifs <;> rfl
  have wired : (decide (r < 64) && decide (0 < 1) && (railType r).isSome) = true := by simp [typed]; omega
  simp only [List.mem_cons, List.not_mem_nil, or_false] at hf
  rcases hf with rfl | rfl | rfl <;> exact Bool.and_eq_true_iff.2 ⟨wired, rfl⟩

theorem vmax_entry {r : Nat} (hr : r < 60) : limitEntry (0x1000C + 0x400 * r, .rgcVmaxV, r, 0) (.rgc, r, 0xC) = true := by
  have word : pieces .cc .rgc r 0xC = [⟨⟨.rgcVmaxV, r, 0⟩, 0, 0⟩] := rfl
  have defined : definedWord .rgc 0xC = true := rfl
  refine decide_eq_true ⟨by omega, by omega, rfl, rfl, defined, ?_, ?_, ?_, ?_⟩ <;> simp only [word]
  · rfl
  · simp [limitPiece_rail hr]
  · simp
  · simp

theorem oclim_entry {r : Nat} (hr : r < 60) {f : Field} {lo : Nat} (h : (f, lo) ∈ [(Field.rgcOclimPhase, 0), (.rgcOclimRail, 16)]) :
    limitEntry (0x10014 + 0x400 * r, f, r, lo) (.rgc, r, 0x14) = true := by
  have word : pieces .cc .rgc r 0x14 = [⟨⟨.rgcOclimPhase, r, 0⟩, 0, 0⟩, ⟨⟨.rgcOclimRail, r, 0⟩, 16, 0⟩] := rfl
  have defined : definedWord .rgc 0x14 = true := rfl
  simp only [List.mem_cons, Prod.mk.injEq, List.not_mem_nil, or_false] at h
  refine decide_eq_true ⟨by omega, by omega, ?_, rfl, defined, ?_, ?_, ?_, ?_⟩ <;> simp only [word]
  · rcases h with ⟨rfl, rfl⟩ | ⟨rfl, rfl⟩ <;> rfl
  · rfl
  · simp [limitPiece_rail hr]
  · simp
  · simpa using h

theorem lintelWords_entries : ∀ x ∈ lintelWords, (locate x.1).any (limitEntry x) = true := by
  intro x hx
  rcases List.mem_append.1 hx with hx | hx
  · revert x
    decide +kernel
  · obtain ⟨r, hr, hx⟩ := List.mem_flatMap.1 hx
    have hr : r < 60 := List.mem_range.1 hr
    simp only [List.mem_cons, List.not_mem_nil, or_false] at hx
    rcases hx with rfl | rfl | rfl
    · rw [show locate (0x1000C + 0x400 * r) = _ from locate_rail (o := 0xC) hr (by omega)]
      exact vmax_entry hr
    · rw [show locate (0x10014 + 0x400 * r) = _ from locate_rail (o := 0x14) hr (by omega)]
      exact oclim_entry hr (by simp)
    · rw [show locate (0x10014 + 0x400 * r) = _ from locate_rail (o := 0x14) hr (by omega)]
      exact oclim_entry hr (by simp)

theorem exec_registerWrite_word {s : State} (p : Port) (a : BitVec 20) (v : Word) (hs : s.aon = true) :
    exec (.registerWrite p a v .word none) s =
      .next { s.commit (s.busWrite p a.toNat v.toNat true none) with
        limits := lowered s.limits (s.busWrite p a.toNat v.toNat true none).limits } :=
  State.runLower_on (fun s => s.busWrite p a.toNat v.toNat true none) hs

/-- A write of a limit's word by any port lands where it is not above the limit (R7, R8, R11). -/
theorem registerWrite_lands {s : State} (p : Port) (v : Word) {x : Nat × Field × Nat × Nat} (hs : s.aon = true) (hx : x ∈ lintelWords)
    (hle : limitLe x.2.1 (v.toNat / 2 ^ x.2.2.2 % 2 ^ (fieldDef x.2.1).width) (s.rd x.2.1 x.2.2.1) = true) :
    ∃ t, exec (.registerWrite p (BitVec.ofNat 20 x.1) v .word none) s = .next t ∧
      t.rd x.2.1 x.2.2.1 = v.toNat / 2 ^ x.2.2.2 % 2 ^ (fieldDef x.2.1).width := by
  obtain ⟨⟨b, i, off⟩, hloc, hent⟩ := (Option.any_eq_true _ _).1 (lintelWords_entries x hx)
  obtain ⟨ha, hwin, hlim, hp, hdef, hwide, hl, hd, hmem⟩ := of_decide_eq_true hent
  obtain ⟨s1, hs1, hbus⟩ := s.busWrite_limitWord p v.toNat ha hloc hp hdef hwide
  have he := limitPiece_exists (hl _ hmem)
  have same : s1.reg ⟨x.2.1, x.2.2.1, 0⟩ = s.rd x.2.1 x.2.2.1 := by
    rw [State.rd, State.reg_limit _ he hlim, State.reg_limit _ he hlim, hs1]
  have haddr : (BitVec.ofNat 20 x.1).toNat = x.1 := by rw [BitVec.toNat_ofNat, Nat.mod_eq_of_lt hwin]
  refine ⟨_, exec_registerWrite_word p _ v hs, ?_⟩
  rw [State.rd, State.reg_limit _ he hlim, haddr, hbus, ← hs1]
  exact s1.writePieces_lands p v.toNat hmem hl hd hlim (by rw [same]; exact hle)

/-! ## Every command -/

/-- A command through which no limit may be lowered leaves their table as it is. -/
theorem exec_limits {c : Instr} {s t : State} (hm : mayLower c = false) (hc : c ≠ .aonRemoved) (h : exec c s = .next t) :
    t.limits = s.limits := by
  rcases exec_form c s with ⟨_, f, hf⟩ | ⟨hm', _⟩ | ⟨_, hf⟩ | ⟨hc', _⟩
  · rcases State.run_cases (hf.symm.trans h) with ⟨_, ho⟩ | ⟨_, ho⟩
    · cases ho; rfl
    · cases ho
  · rw [hm] at hm'; cases hm'
  · cases hf.symm.trans h
    split
    · rfl
    · exact State.commit_limits _ _
  · exact absurd hc' hc

/-- No command but the removal of the supply raises a limit (R8). -/
theorem exec_limit_le {c : Instr} {s t : State} (hc : c ≠ .aonRemoved) (h : exec c s = .next t) (r : FieldRef) (hl : r.f.isLimit = true) :
    limitLe r.f (t.reg r) (s.reg r) = true := by
  cases he : r.exists with
  | false => rw [State.reg_absent _ he, State.reg_absent _ he]; exact limitLe_refl _ _
  | true =>
    rw [State.reg_limit _ he hl, State.reg_limit _ he hl]
    cases hm : mayLower c with
    | false => rw [exec_limits hm hc h]; exact limitLe_refl _ _
    | true =>
      rcases exec_form c s with ⟨hm', _⟩ | ⟨_, f, hf⟩ | ⟨hc', _⟩ | ⟨hc', _⟩
      · rw [hm] at hm'; cases hm'
      · rcases State.runLower_cases (hf.symm.trans h) with ⟨_, ho⟩ | ⟨_, ho⟩
        · cases ho; exact lowered_le _ _ _
        · cases ho
      · subst hc'; cases hm
      · exact absurd hc' hc

theorem exec_aonRemoved {s : State} (hs : s.aon = true) : exec .aonRemoved s = .next s.dark := by
  change execAonRemoved s = _
  rw [execAonRemoved, if_pos hs]

theorem State.dark_reg_limit (s : State) {r : FieldRef} (hl : r.f.isLimit = true) (he : r.exists = true) : s.dark.reg r = r.reset :=
  State.reg_limit s.dark he hl

theorem mayLower_false {c : Instr} (h1 : ∀ p a v w h, c ≠ .registerWrite p a v w h) (h2 : ∀ p a v, c ≠ .upperHalfWrite p a v)
    (h3 : ∀ b, c ≠ .i3cPrivateWrite b) (h4 : ∀ h, c ≠ .policyApply h) : mayLower c = false := by
  unfold mayLower
  split
  · exact absurd rfl (h1 _ _ _ _ _)
  · exact absurd rfl (h2 _ _ _)
  · exact absurd rfl (h3 _)
  · exact absurd rfl (h4 _)
  · rfl

/-- Settles O6: every command's form bounds what it can do to a limit, the words of the Lintel table are written element by element, and the
dark package has an empty table of limits. -/
theorem lowerOnlyFieldsNeverRise : Obligations.LowerOnlyFieldsNeverRise := by
  refine ⟨?_, ?_, ?_, ?_⟩
  · intro c s t r hc h hl
    exact exec_limit_le hc h r hl
  · intro c s t hc h1 h2 h3 h4 h
    exact exec_limits (mayLower_false h1 h2 h3 h4) hc h
  · intro s p v x hs hx hle
    exact registerWrite_lands p v hs hx hle
  · intro s hs
    exact ⟨s.dark, exec_aonRemoved hs, fun r hl he => s.dark_reg_limit hl he⟩

end Sys2Proof.Machine

/-!
Settles O31: a rail that loses its input in REG. What a fault's reports leave of the counters of faults, what entry into CHECK does to a rail
and its registers, and what RAIL_INPUT_LOST makes of both (R93, R104, R276).
-/

namespace Sys2Proof.Machine

/-! ## The registers that a fault's reports write -/

/-- The counters of faults by class and by source: only a fault's own count moves them (R276, R297). -/
def faultTally (f : Field) : Bool :=
  match f with
  | .fltCorr | .fltCont | .fltFatalc | .fltSrccntCorr | .fltSrccntCont => true
  | _ => false

/-- The fields that the capture, the notices, the pending slot and the escalation of a fault may write: those of a fault but its counters. -/
def reportField (f : Field) : Bool := faultField f && !faultTally f

theorem State.rd_puts_other (s : State) {f : Field} (i j : Nat) {l : List (FieldRef × Nat)} (h : ∀ e ∈ l, e.1.f ≠ f) :
    (s.puts l).rd f i j = s.rd f i j := by
  induction l generalizing s with
  | nil => rfl
  | cons e l ih =>
    obtain ⟨he, hl⟩ := List.forall_mem_cons.1 h
    exact (ih (s.put e.1 e.2) hl).trans (s.rd_wr_field e.2 e.1.i e.1.j i j he)

@[simp] theorem State.rd_sendVector (s : State) (p : Port) (v : Nat) (f : Field) (i j : Nat) : (s.sendVector p v).rd f i j = s.rd f i j := by
  unfold State.sendVector
  split <;> rfl

@[simp] theorem State.rd_cplWritten (s : State) (n : Nat) (urgent : Bool) (f : Field) (i j : Nat) :
    (s.cplWritten n urgent).rd f i j = s.rd f i j := by
  unfold State.cplWritten State.sendCpl
  split
  · rw [State.rd_updRing, State.rd_sendVector]
  · rfl

@[simp] theorem State.rd_telWritten (s : State) (n : Nat) (f : Field) (i j : Nat) : (s.telWritten n).rd f i j = s.rd f i j := by
  unfold State.telWritten State.sendTel
  split
  · rw [State.rd_updRing, State.rd_sendVector]
  · rfl

/-! ## What a fault's reports leave -/

section Reports
variable {f : Field}

theorem ne_of_reportField {a : Field} (ha : reportField a = true) (hf : reportField f = false) : a ≠ f := by
  rintro rfl
  exact absurd ha (by rw [hf]; exact Bool.false_ne_true)

variable (hf : reportField f = false) (i j : Nat)
include hf

theorem State.rd_wr_report (s : State) {a : Field} (v ai aj : Nat) (ha : reportField a = true) : (s.wr a v ai aj).rd f i j = s.rd f i j :=
  s.rd_wr_field v ai aj i j (ne_of_reportField ha hf)

theorem State.rd_count_report (s : State) {a : Field} (n ai aj : Nat) (ha : reportField a = true) :
    (s.count a n ai aj).rd f i j = s.rd f i j :=
  s.rd_wr_report hf i j _ ai aj ha

theorem State.rd_puts_report (s : State) {l : List (FieldRef × Nat)} (hl : l.all (fun e => reportField e.1.f) = true) :
    (s.puts l).rd f i j = s.rd f i j :=
  s.rd_puts_other i j fun e he => ne_of_reportField (List.all_eq_true.1 hl e he) hf

theorem State.rd_putCpl (s : State) (n first : Nat) (rest : List Word) : (s.putCpl n first rest).rd f i j = s.rd f i j := by
  have moved (t : State) (v : Nat) : (t.wr .hifRsCplpi v 0 n).rd f i j = t.rd f i j := t.rd_wr_report hf i j v 0 n rfl
  unfold State.putCpl
  dsimp only
  split
  · exact moved _ _
  · exact moved _ _

theorem State.rd_noticeTo (s : State) (ncode seq detail n : Nat) : (s.noticeTo ncode seq detail n).rd f i j = s.rd f i j := by
  unfold State.noticeTo
  split
  · split
    · exact s.rd_wr_report hf i j 1 0 n rfl
    · exact (State.rd_cplWritten _ _ _ _ _ _).trans (s.rd_putCpl hf i j _ _ _)
  · rfl

theorem State.rd_noticePart (s : State) (ncode seq detail p : Nat) : (s.noticePart ncode seq detail p).rd f i j = s.rd f i j := by
  have told (t : State) (n : Nat) := t.rd_noticeTo hf i j ncode seq detail n
  unfold State.noticePart
  dsimp only
  split
  · split
    · exact told _ _
    · rw [told, told]
  · exact told _ _

theorem State.rd_event (s : State) (code sev unit : Nat) (part : Option Nat) : (s.event code sev unit part).rd f i j = s.rd f i j := by
  unfold State.event
  split
  · rfl
  · exact s.rd_count_report hf i j 1 0 0 rfl

theorem State.rd_capture (s : State) (x : FaultRec) : (s.capture x).rd f i j = s.rd f i j := by
  unfold State.capture
  dsimp only
  split
  · exact s.rd_count_report hf i j 1 0 _ rfl
  · exact s.rd_puts_report hf i j rfl

theorem State.rd_complete (s : State) (n cid status result : Nat) : (s.complete n cid status result).rd f i j = s.rd f i j := by
  have shown (t : State) (v : Nat) : (t.wr .hifRsStatInflight v 0 n).rd f i j = t.rd f i j := t.rd_wr_report hf i j v 0 n rfl
  unfold State.complete State.postCpl
  dsimp only
  split
  · rw [State.rd_cplWritten, State.rd_putCpl hf, shown, State.rd_updRing]
  · rw [shown, State.rd_updRing]

theorem State.rd_closeBlock (s : State) (d : Nat) : (s.closeBlock d).rd f i j = s.rd f i j := by
  unfold State.closeBlock
  dsimp only
  split
  · rfl
  · split
    · rfl
    · split
      · rfl
      · split
        · exact State.rd_count_report hf i j _ 1 0 _ rfl
        · exact State.rd_telWritten _ _ _ _ _

theorem State.rd_stopPart (s : State) (seq p : Nat) : (s.stopPart seq p).rd f i j = s.rd f i j := by
  have aborted (t : State) : (t.abortRunning p).rd f i j = t.rd f i j := by
    unfold State.abortRunning
    exact each_blind (g := fun s => s.rd f i j) _ _ (fun t c => t.rd_complete hf i j _ _ _ _) t
  have closed (t : State) (l : List Nat) : (t.each l State.closeBlock).rd f i j = t.rd f i j :=
    each_blind (g := fun s => s.rd f i j) _ _ (fun t d => t.rd_closeBlock hf i j d) t
  unfold State.stopPart
  dsimp only
  rw [State.rd_event hf, State.rd_wr_report hf i j _ _ _ _ rfl, aborted, State.rd_noticePart hf, State.rd_wr_report hf i j _ _ _ _ rfl, closed]
  rfl

theorem State.rd_escalate (s : State) (sc : Scope) (unit seq : Nat) : (s.escalate sc unit seq).rd f i j = s.rd f i j :=
  each_blind (g := fun s => s.rd f i j) _ _ (fun t p => t.rd_stopPart hf i j seq p) s

theorem State.rd_faultNotice (s : State) (x : FaultRec) (seq : Nat) : (s.faultNotice x seq).rd f i j = s.rd f i j := by
  unfold State.faultNotice
  dsimp only
  split
  · exact each_blind (g := fun s => s.rd f i j) _ _ (fun t n => t.rd_noticeTo hf i j _ _ _ n) s
  · exact each_blind (g := fun s => s.rd f i j) _ _ (fun t p => t.rd_noticePart hf i j _ _ _ p) s

theorem State.rd_addPending (s : State) (x : FaultRec) (k seq : Nat) : (s.addPending x k seq).rd f i j = s.rd f i j :=
  s.rd_puts_report hf i j rfl

theorem State.rd_collect (s : State) (x : FaultRec) : (s.collect x).rd f i j = s.rd f i j := by
  unfold State.collect
  split
  · exact s.rd_count_report hf i j 1 0 _ rfl
  · dsimp only
    split
    · rw [State.rd_faultNotice hf, State.rd_addPending hf]
      rfl
    · rw [State.rd_escalate hf, State.rd_faultNotice hf]
      exact State.rd_wr_report hf i j _ 1 0 0 rfl

/-- Of a CORRECTED or CONTAINED fault, only the count reaches a field that its reports do not write. -/
theorem State.rd_raise_count (s : State) (x : FaultRec) (hx : x.cls ≠ .fatal) : (s.raise x).rd f i j = (s.countFault x).rd f i j := by
  unfold State.raise
  dsimp only
  split
  · rw [State.rd_event hf, State.rd_capture hf]
  · rw [State.rd_collect hf, State.rd_event hf, State.rd_capture hf]
  · exact absurd ‹_› hx

end Reports

/-! ## The count of CONTAINED faults -/

/-- A CORRECTED fault leaves the count of CONTAINED faults. -/
theorem State.fltCont_raise_corrected (s : State) {x : FaultRec} (hx : x.cls = .corrected) : (s.raise x).rd .fltCont = s.rd .fltCont := by
  rw [State.rd_raise_count rfl 0 0 s x (by simp [hx])]
  simp only [State.countFault, hx, State.count]
  rw [State.rd_wr_field _ _ _ _ _ _ (by decide), State.rd_wr_field _ _ _ _ _ _ (by decide)]

/-- A CONTAINED fault is counted once. -/
theorem State.fltCont_raise_contained (s : State) {x : FaultRec} (hx : x.cls = .contained) :
    (s.raise x).rd .fltCont = s.oneUp .fltCont := by
  have width : (fieldDef .fltCont).width = 32 := rfl
  rw [State.rd_raise_count rfl 0 0 s x (by simp [hx])]
  simp only [State.countFault, hx, State.count, State.oneUp]
  rw [State.rd_wr_field _ _ _ _ _ _ (by decide), State.rd_wr_same _ _ _ _ _ (by decide), width]
  exact Nat.mod_eq_of_lt (by omega)

/-! ## Entry into CHECK -/

/-- The fields that a rail which stops driving may write: its state, its phases, and a set of coefficients that waited (R88, R91). -/
def quietFields : List Field := [.rgcStatusState, .rgcStatusVready, .rgcPhstatPh] ++ compFields

/-- The fields that entry into CHECK may write: those, and the values held for the next start (R83, R93). -/
def checkFields : List Field := [.rgcSlotS, .rgcCfgPhcnt] ++ quietFields

theorem State.rd_takeComp (s : State) (r : Nat) {f : Field} (i j : Nat) (h : f ∉ compFields) : (s.takeComp r).rd f i j = s.rd f i j := by
  unfold State.takeComp
  split
  · rfl
  · refine s.rd_puts_other i j fun e he => ?_
    obtain ⟨x, hx, rfl⟩ := List.mem_map.1 he
    exact ne_of_mem_of_not_mem (List.of_mem_zip hx).1 h

theorem State.rd_noPhases (s : State) (r : Nat) {f : Field} (i j : Nat) (h : .rgcPhstatPh ≠ f) : (s.noPhases r).rd f i j = s.rd f i j :=
  each_blind (g := fun s => s.rd f i j) _ _ (fun t p => t.rd_wr_field _ r p i j h) s

theorem State.rd_railTo (s : State) (r st : Nat) {f : Field} (i j : Nat) (hs : .rgcStatusState ≠ f) (hv : .rgcStatusVready ≠ f) :
    (s.railTo r st).rd f i j = s.rd f i j := by
  rw [State.railTo, State.rd_updRail, State.rd_wr_field _ _ _ _ _ _ hv, State.rd_wr_field _ _ _ _ _ _ hs]

theorem State.railSt_railTo (s : State) {r st : Nat} (he : (⟨.rgcStatusState, r, 0⟩ : FieldRef).exists = true) (hst : st < 8) :
    (s.railTo r st).railSt r = st := by
  rw [State.railSt, State.railTo, State.rd_updRail, State.rd_wr_field _ _ _ _ _ _ (by decide), State.rd_wr_same _ _ _ _ _ he]
  exact Nat.mod_eq_of_lt hst

theorem State.rd_railQuiet (s : State) (r st : Nat) {f : Field} (i j : Nat) (h : f ∉ quietFields) :
    (s.railQuiet r st).rd f i j = s.rd f i j := by
  obtain ⟨⟨hs, hv, hp⟩, hc⟩ : (f ≠ .rgcStatusState ∧ f ≠ .rgcStatusVready ∧ f ≠ .rgcPhstatPh) ∧ f ∉ compFields := by
    simpa [quietFields, not_or, and_assoc] using h
  rw [State.railQuiet, State.rd_updRail, State.rd_noPhases _ _ _ _ hp.symm, State.rd_railTo _ _ _ _ _ hs.symm hv.symm, State.rd_takeComp _ _ _ _ hc]

theorem State.railSt_railQuiet (s : State) {r st : Nat} (he : (⟨.rgcStatusState, r, 0⟩ : FieldRef).exists = true) (hst : st < 8) :
    (s.railQuiet r st).railSt r = st := by
  rw [State.railSt, State.railQuiet, State.rd_updRail, State.rd_noPhases _ _ _ _ (by decide)]
  exact State.railSt_railTo _ he hst

theorem State.rd_takeHeld (s : State) (r : Nat) {f : Field} (i j : Nat) (hs : .rgcSlotS ≠ f) (hn : .rgcCfgPhcnt ≠ f) :
    (s.takeHeld r).rd f i j = s.rd f i j := by
  unfold State.takeHeld
  dsimp only
  rw [State.rd_updRail]
  split <;> split <;> simp only [State.rd_wr_field _ _ _ _ _ _ hs, State.rd_wr_field _ _ _ _ _ _ hn]

theorem State.rd_enterCheck (s : State) (r : Nat) {f : Field} (i j : Nat) (h : f ∉ checkFields) :
    (s.enterCheck r).rd f i j = s.rd f i j := by
  obtain ⟨hs, hn, hq⟩ : f ≠ .rgcSlotS ∧ f ≠ .rgcCfgPhcnt ∧ f ∉ quietFields := by
    simpa [checkFields, not_or] using h
  rw [State.enterCheck, State.rd_updRail, State.rd_railQuiet _ _ _ _ _ hq, State.rd_takeHeld _ _ _ _ hs.symm hn.symm]

theorem State.railSt_enterCheck (s : State) {r : Nat} (he : (⟨.rgcStatusState, r, 0⟩ : FieldRef).exists = true) :
    (s.enterCheck r).railSt r = railCheck := by
  rw [State.railSt, State.enterCheck, State.rd_updRail]
  exact State.railSt_railQuiet _ he (by decide)

theorem State.chk_enterCheck (s : State) (r : Nat) : ((s.enterCheck r).rail r).chk = 0 := by
  rw [State.enterCheck, State.rail_updRail, if_pos rfl]

/-! ## Leaving REG -/

/-- A Cellar part lost reaches the registers through its CORRECTED fault alone (R174). -/
theorem State.rd_loseCellar (s : State) (m : Nat) (f : Field) (i j : Nat)
    (h : ∀ (t : State) (x : FaultRec), x.cls = .corrected → (t.raise x).rd f i j = t.rd f i j) :
    (s.loseCellar m).rd f i j = s.rd f i j := by
  unfold State.loseCellar
  split
  · exact h _ _ rfl
  · rfl

theorem State.rd_leaveReg (s : State) (r : Nat) (f : Field) (i j : Nat)
    (h : ∀ (t : State) (x : FaultRec), x.cls = .corrected → (t.raise x).rd f i j = t.rd f i j) :
    (s.leaveReg r).rd f i j = s.rd f i j := by
  unfold State.leaveReg
  split
  · rw [State.rd_loseCellar _ _ _ _ _ h, State.rd_loseCellar _ _ _ _ _ h]
  · rfl

/-! ## RAIL_INPUT_LOST (R104) -/

/-- The rail of a loss of input, back in CHECK with its flag set, before the fault is raised. -/
def State.inputGone (s : State) (r : Nat) : State := ((s.leaveReg r).enterCheck r).wr .rgcStatusNoinput 1 r

/-- The fault of a loss of input. -/
def inputFault (r : Nat) : FaultRec := cont 7 4 (railUnit r) (railScope r) 6

theorem exec_railInputLost {s : State} {r : Rail} (hs : s.aon = true) (hreg : s.railSt r.val = railReg) :
    exec (.railInputLost r) s = .next (s.commit ((s.inputGone r.val).raise (inputFault r.val))) := by
  change execRailInputLost r s = _
  rw [execRailInputLost, State.run_on _ hs]
  simp only [hreg, if_true]
  rfl

/-- Only a rail channel that exists can be in a state other than OFF. -/
theorem stateField_exists_of_railReg {s : State} {r : Nat} (h : s.railSt r = railReg) : (⟨.rgcStatusState, r, 0⟩ : FieldRef).exists = true := by
  by_contra he
  have off : s.railSt r = 0 := s.reg_absent (Bool.eq_false_iff.2 he)
  exact absurd (off.symm.trans h) (by decide)

theorem State.rd_inputGone (s : State) (r : Nat) {f : Field} (i j : Nat) (hn : .rgcStatusNoinput ≠ f) (hc : f ∉ checkFields)
    (hx : ∀ (t : State) (x : FaultRec), x.cls = .corrected → (t.raise x).rd f i j = t.rd f i j) :
    (s.inputGone r).rd f i j = s.rd f i j := by
  rw [State.inputGone, State.rd_wr_field _ _ _ _ _ _ hn, State.rd_enterCheck _ _ _ _ hc, State.rd_leaveReg _ _ _ _ _ hx]

theorem State.railSt_inputGone (s : State) {r : Nat} (he : (⟨.rgcStatusState, r, 0⟩ : FieldRef).exists = true) :
    (s.inputGone r).railSt r = railCheck := by
  rw [State.railSt, State.inputGone, State.rd_wr_field _ _ _ _ _ _ (by decide)]
  exact State.railSt_enterCheck _ he

/-- NOINPUT exists wherever the state of the rail does: both stand in STATUS. -/
theorem State.noinput_inputGone (s : State) {r : Nat} (he : (⟨.rgcStatusState, r, 0⟩ : FieldRef).exists = true) :
    (s.inputGone r).rd .rgcStatusNoinput r = 1 :=
  State.rd_wr_same _ .rgcStatusNoinput 1 r 0 he

theorem State.chk_inputGone (s : State) (r : Nat) : ((s.inputGone r).rail r).chk = 0 := by
  rw [State.inputGone, State.rail, State.wr_rails]
  exact State.chk_enterCheck _ r

theorem State.rail_raise (s : State) (x : FaultRec) (r : Nat) : (s.raise x).rail r = s.rail r :=
  congrArg (Store.get RailState.init · r) (raise_latch latch_rails s x)

/-- Settles O31: RAIL_INPUT_LOST is entry into CHECK and one CONTAINED fault; neither writes a count of hiccups, and what the fault's reports
and a lost Cellar part write is no register of the rail and no count of CONTAINED faults. -/
theorem inputLostGoesToCheck : Obligations.InputLostGoesToCheck := by
  intro s r hs hreg
  have he := stateField_exists_of_railReg hreg
  have raised (f : Field) (hf : latchField f = false) (hl : f.isLimit = false) :
      (s.commit ((s.inputGone r.val).raise (inputFault r.val))).rd f r.val = (s.inputGone r.val).rd f r.val := by
    rw [State.rd_commit _ _ _ _ _ hl, rd_raise_any _ _ _ _ _ hf]
  refine ⟨_, exec_railInputLost hs hreg, ?_, ?_, ?_, ?_, ?_, ?_⟩
  · exact (raised .rgcStatusState rfl rfl).trans (s.railSt_inputGone he)
  · rw [State.rail_commit, State.rail_raise]
    exact s.chk_inputGone r.val
  · exact decide_eq_true ((raised .rgcStatusNoinput rfl rfl).trans (s.noinput_inputGone he))
  · rw [State.rd_commit _ _ _ _ _ rfl, State.fltCont_raise_contained _ rfl, State.oneUp, State.oneUp]
    rw [State.rd_inputGone _ _ _ _ (by decide) (by decide) fun t x => t.fltCont_raise_corrected]
  · rw [raised .rgcHiccupConsec rfl rfl]
    exact s.rd_inputGone _ _ _ (by decide) (by decide) fun t x _ => rd_raise_any t x _ _ _ rfl
  · rw [raised .rgcHiccupCount rfl rfl]
    exact s.rd_inputGone _ _ _ (by decide) (by decide) fun t x _ => rd_raise_any t x _ _ _ rfl

end Sys2Proof.Machine

/-!
Settles O34: an illegal write of DRPTHR and a trip of a masked detector. What the guard keeps of a command that may lower limits and lowers
none, where DRPTHR lies in the window, and what a write of it comes to (R4, R148).
-/

namespace Sys2Proof.Machine

/-! ## The guard of a command that lowers no limit -/

/-- A register field that is not lower-only does not stand in the table of limits. -/
theorem State.rd_withLimits (s : State) (x : Store FieldRef Nat) {f : Field} (i j : Nat) (h : f.isLimit = false) :
    ({ s with limits := x } : State).rd f i j = s.rd f i j := by
  simp [State.rd, State.reg, h]

/-- A command that may lower limits and writes none keeps to its list of changes. -/
theorem State.onlyChanges_runLower {s n : State} {l : List FieldRef} {ts : List Tab} (h : s.onlyChanges n l ts) (hn : n.limits = s.limits) :
    s.onlyChanges { s.commit n with limits := lowered s.limits n.limits } l ts := by
  obtain ⟨regs, tabs, core⟩ := State.onlyChanges_commit h
  refine ⟨fun r hr => ?_, fun x hx => ?_, core⟩
  · cases hl : r.f.isLimit with
    | false => exact (State.rd_withLimits _ _ r.i r.j hl).trans (regs r hr)
    | true =>
      cases he : r.exists with
      | false => rw [State.reg_absent _ he, State.reg_absent _ he]
      | true => rw [State.reg_limit _ he hl, State.reg_limit _ he hl, hn, get_lowered_self]
  · have same := tabs x hx
    cases x <;> exact same

/-! ## A write by a port -/

theorem State.onlyChanges_dropHeld {s n : State} {l : List FieldRef} {ts : List Tab} (h : s.onlyChanges n l ts) (p : Port) (base a : Nat)
    (hp : Tab.ports ∈ ts) : s.onlyChanges (n.dropHeld p base a) l ts := by
  unfold State.dropHeld
  split
  · split
    · exact h
    · exact State.onlyChanges_ports h _ hp
  · exact h

/-- The answer to a port and the half that it holds stand in the table of ports. -/
theorem State.onlyChanges_wrote (s : State) (p : Port) (base off : Nat) (l : List FieldRef) : s.onlyChanges (s.wrote p base off) l [.ports] :=
  State.onlyChanges_dropHeld (State.onlyChanges_ports (s.onlyChanges_refl l _) _ List.mem_cons_self) p _ _ List.mem_cons_self

@[simp] theorem State.wrote_limits (s : State) (p : Port) (base off : Nat) : (s.wrote p base off).limits = s.limits :=
  State.dropHeld_limits _ _ _ _

/-! ## DRPTHR -/

/-- Where DRPTHR of a die lies in the window (R388). -/
def drpthrAddr (d : Nat) : Nat := 0x20404 + 0x1000 * d

theorem locate_drpthr {d : Nat} (hd : d < 40) : locate (drpthrAddr d) = some (.dag, d, 0x404) := by
  have hi : (drpthrAddr d - 0x20000) / 0x1000 = d := by unfold drpthrAddr; omega
  have hoff : drpthrAddr d % 0x1000 = 0x404 := by unfold drpthrAddr; omega
  have low : 0x20000 ≤ drpthrAddr d := by unfold drpthrAddr; omega
  have high : drpthrAddr d < 0x48000 := by unfold drpthrAddr; omega
  unfold locate
  rw [hi, hoff, if_neg (by omega), if_neg (by omega), if_neg (by omega), if_pos high]

/-- A word written to DRPTHR by the control complex takes effect as a whole. -/
theorem State.busWrite_drpthr (s : State) {d : Nat} (hd : d < 40) (v : Nat) :
    s.busWrite .cc (drpthrAddr d) v true none = (s.wrote .cc (drpthrAddr d - 0x404) 0x404).drpthrWrite d v := by
  have aligned : drpthrAddr d % 4 = 0 := by unfold drpthrAddr; omega
  have addr : drpthrAddr d - 0x404 + 0x404 = drpthrAddr d := by unfold drpthrAddr; omega
  have defined : definedWord .dag 0x404 = true := rfl
  have msix : isMsix .dag 0x404 = false := rfl
  have up (t : State) : t.meetsDown .cc .dag 0x404 = false := rfl
  simp only [State.busWrite, State.wordWrite, locate_drpthr hd, aligned, defined, msix, up, State.hwWord_none, State.wrote, addr]
  rfl

/-- The thresholds that R148 refuses: DTHR2 at or below DTHR1, or DTHR1 below 10 mV. -/
def thresholdsRefused (v : Nat) : Prop := v / 2 ^ 16 ≤ v % 2 ^ 16 ∨ v % 2 ^ 16 < 20

theorem State.drpthrWrite_refused (s : State) (d : Nat) {v : Nat} (hv : v < 2 ^ 32) (h : thresholdsRefused v) :
    s.drpthrWrite d v = s.wr .dagDrpstatCfgerr 1 d := by
  have upper : v / 2 ^ 16 % 2 ^ 16 = v / 2 ^ 16 := Nat.mod_eq_of_lt (by omega)
  have refused : (decide (v / 2 ^ 16 ≤ v % 2 ^ 16) || decide (v % 2 ^ 16 < 20)) = true := by simpa [thresholdsRefused] using h
  unfold State.drpthrWrite
  rw [upper]
  exact if_pos refused

/-- The flags of DRPSTAT exist on every die (R160). -/
theorem drpstatFlag_exists {f : Field} (hf : f ∈ [Field.dagDrpstatCfgerr, .dagDrpstatPersist]) {d : Nat} (hd : d < 40) :
    (⟨f, d, 0⟩ : FieldRef).exists = true := by
  have inRange : (decide (d < 40) && decide (0 < 1)) = true := by simpa using hd
  have everyDie : (decide (d < 32) || true) = true := Bool.or_true _
  simp only [List.mem_cons, List.not_mem_nil, or_false] at hf
  rcases hf with rfl | rfl <;> exact Bool.and_eq_true_iff.2 ⟨inRange, everyDie⟩

/-- A one-bit flag that exists and has been set reads as set. -/
theorem State.flag_wr_one (s : State) {f : Field} {i : Nat} (he : (⟨f, i, 0⟩ : FieldRef).exists = true) (hw : (fieldDef f).width = 1) :
    (s.wr f 1 i).flag f i = true :=
  decide_eq_true (by simp [State.rd_wr_same _ _ _ _ _ he, hw])

/-- The next state of a refused write: answered, with CFGERR set. -/
theorem exec_drpthr_refused {s : State} {d : Nat} {v : Word} (hs : s.aon = true) (hd : d < 40) (h : thresholdsRefused v.toNat) :
    exec (.registerWrite .cc (BitVec.ofNat 20 (drpthrAddr d)) v .word none) s =
      let n := (s.wrote .cc (drpthrAddr d - 0x404) 0x404).wr .dagDrpstatCfgerr 1 d
      .next { s.commit n with limits := lowered s.limits n.limits } := by
  have addr : (BitVec.ofNat 20 (drpthrAddr d)).toNat = drpthrAddr d := by
    rw [BitVec.toNat_ofNat]
    exact Nat.mod_eq_of_lt (by unfold drpthrAddr; omega)
  rw [exec_registerWrite_word _ _ _ hs, addr, State.busWrite_drpthr _ hd, State.drpthrWrite_refused _ _ v.isLt h]

/-- A write of DRPTHR that R148 refuses sets CFGERR and changes nothing else but the port that made it. -/
theorem drpthr_refused_sets_cfgerr {s : State} {d : Nat} {v : Word} (hs : s.aon = true) (hd : d < 40) (h : thresholdsRefused v.toNat) :
    ∃ t, exec (.registerWrite .cc (BitVec.ofNat 20 (drpthrAddr d)) v .word none) s = .next t ∧
      t.flag .dagDrpstatCfgerr d = true ∧ s.onlyChanges t [⟨.dagDrpstatCfgerr, d, 0⟩] [.ports] := by
  refine ⟨_, exec_drpthr_refused hs hd h, ?_, ?_⟩
  · rw [State.flag, State.rd_withLimits _ _ _ _ rfl, State.rd_commit _ _ _ _ _ rfl]
    exact State.flag_wr_one _ (drpstatFlag_exists (by simp) hd) rfl
  · refine State.onlyChanges_runLower ?_ ?_
    · exact State.onlyChanges_wr (s.onlyChanges_wrote _ _ _ _) _ _ _ _ List.mem_cons_self
    · rw [State.wr_limits _ _ _ _ _ rfl, State.wrote_limits]

/-! ## A masked detector -/

theorem State.detects_masked {s : State} {d : Nat} (i : Nat) (hreg : s.railSt (ownRail d) ≠ railReg) (hramp : s.railSt (ownRail d) ≠ railRamp) :
    s.detects d i = false := by
  simp [State.detects, hreg, hramp]

theorem exec_droopTrip_masked {s : State} {d : Die} {i : Fin 64} {tap : BitVec 8} {q : Queue} (hs : s.aon = true)
    (h : s.detects d.val i.val = false) : exec (.droopTrip d i tap q) s = .next (s.commit s) := by
  change execDroopTrip d i tap q s = _
  rw [execDroopTrip, State.run_on _ hs]
  simp [h]

/-- Settles O34: the whole word of DRPTHR meets the test of R148 before anything lands, and a detector that detects nothing leaves the state to
the guard. -/
theorem droopThresholdsAreLegal : Obligations.DroopThresholdsAreLegal := by
  intro s d hs
  refine ⟨fun v hv => drpthr_refused_sets_cfgerr hs d.isLt hv, fun i tap q hreg hramp => ?_⟩
  exact ⟨_, exec_droopTrip_masked hs (State.detects_masked _ hreg hramp), State.onlyChanges_commit (s.onlyChanges_refl _ _)⟩

end Sys2Proof.Machine

/-!
Settles O35: a droop that persists. What time that passes leaves of registers and dies, how a die agent reports a fault in STEWARD and out of it,
and what DROOP_PERSIST and DROOP_PERSIST_LONG make of both (R159, R293).
-/

namespace Sys2Proof.Machine

/-! ## Time that passes -/

/-- The fields that count time: those of R296 and R266. -/
def timeFields : List Field := [.fltAonns, .ageOptimeSec, .fltFullns]

theorem State.rd_operate (s : State) (n : Nat) {f : Field} (i j : Nat) (h : .ageOptimeSec ≠ f) : (s.operate n).rd f i j = s.rd f i j := by
  unfold State.operate
  split
  · rfl
  · exact s.rd_wr_field _ 0 0 i j h

theorem State.operate_dies (s : State) (n : Nat) : (s.operate n).dies = s.dies := by
  unfold State.operate
  split
  · rfl
  · exact s.wr_dies _ _ _ _

theorem State.rd_advanceTo (s : State) (t : Nat) {f : Field} (i j : Nat) (h : f ∉ timeFields) : (s.advanceTo t).rd f i j = s.rd f i j := by
  obtain ⟨haon, hop, hfull⟩ : f ≠ .fltAonns ∧ f ≠ .ageOptimeSec ∧ f ≠ .fltFullns := by simpa [timeFields, not_or] using h
  have ran (d : Nat) : ((s.wr .fltAonns (s.rd .fltAonns + d)).operate d).rd f i j = s.rd f i j := by
    rw [State.rd_operate _ _ _ _ hop.symm, State.rd_wr_field _ _ _ _ _ _ haon.symm]
  unfold State.advanceTo
  split
  · dsimp only
    split
    · exact (State.rd_wr_field _ _ 0 0 i j hfull.symm).trans (ran _)
    · exact ran _
  · rfl

theorem State.die_advanceTo (s : State) (t d : Nat) : (s.advanceTo t).die d = s.die d := by
  have same : (s.advanceTo t).dies = s.dies := by
    unfold State.advanceTo
    split
    · dsimp only
      split <;> simp only [State.wr_dies, State.operate_dies]
    · rfl
  exact congrArg (Store.get DieState.init · d) same

theorem State.die_wr (s : State) (f : Field) (v i j d : Nat) : (s.wr f v i j).die d = s.die d :=
  congrArg (Store.get DieState.init · d) (s.wr_dies f v i j)

/-! ## A fault that a die agent reports (R293) -/

/-- Outside STEWARD a die agent's fault is raised at once. -/
theorem State.dieFault_raised {s : State} {d : Nat} (x : FaultRec) (h : (s.die d).steward = false) : s.dieFault d x = s.raise x := by
  simp [State.dieFault, h]

/-- In STEWARD the die agent holds its fault, after those that it holds already, while they are fewer than 16. -/
theorem State.faultHold_dieFault {s : State} {d : Nat} {x : FaultRec} (hx : x.cls ≠ .fatal) (h : (s.die d).steward = true)
    (room : (s.die d).faultHold.length < 16) : ((s.dieFault d x).die d).faultHold = (s.die d).faultHold ++ [x] := by
  simp [State.dieFault, h, hx, State.die_updDie, room]

/-- Held or raised, a fault leaves whatever neither a fault nor a die agent keeps. -/
theorem dieFault_latch {α : Type} {g : State → α} (hg : LatchBlind g) (hd : ∀ s d f, g (State.updDie s d f) = g s) (s : State) (d : Nat)
    (x : FaultRec) : g (s.dieFault d x) = g s := by
  unfold State.dieFault
  split
  · exact hd s d _
  · exact raise_latch hg s x

theorem State.rd_dieFault (s : State) (d : Nat) (x : FaultRec) {f : Field} (i j : Nat) (h : latchField f = false) :
    (s.dieFault d x).rd f i j = s.rd f i j :=
  dieFault_latch (latch_rd f i j h) (fun _ _ _ => rfl) s d x

theorem State.now_dieFault (s : State) (d : Nat) (x : FaultRec) : (s.dieFault d x).now = s.now :=
  dieFault_latch latch_now (fun _ _ _ => rfl) s d x

/-- A CORRECTED fault is counted once. -/
theorem State.fltCorr_raise_corrected (s : State) {x : FaultRec} (hx : x.cls = .corrected) :
    (s.raise x).rd .fltCorr = s.oneUp .fltCorr := by
  have width : (fieldDef .fltCorr).width = 32 := rfl
  rw [State.rd_raise_count rfl 0 0 s x (by simp [hx])]
  simp only [State.countFault, hx, State.count, State.oneUp]
  rw [State.rd_wr_field _ _ _ _ _ _ (by decide), State.rd_wr_same _ _ _ _ _ (by decide), width]
  exact Nat.mod_eq_of_lt (by omega)

/-! ## DROOP_PERSIST and DROOP_PERSIST_LONG -/

/-- The die agent of d reports the fault x no earlier than the instant a, in the step from s to t: the stretch goes on, and the fault is
counted in c, or held in STEWARD. -/
def State.reportsDroop (s t : State) (d a : Nat) (x : FaultRec) (c : Field) : Prop :=
  a ≤ t.now ∧ (∀ e j, t.rd .dagDrpxX e j = s.rd .dagDrpxX e j) ∧
  ((s.die d).steward = false → t.rd c = s.oneUp c) ∧
  ((s.die d).steward = true → (s.die d).faultHold.length < 16 → (t.die d).faultHold = (s.die d).faultHold ++ [x])

/-- A state n in which time has come, and which reads as s of extensions, dies and the counter, lets the die agent report. -/
theorem State.reportsDroop_of {s n : State} {d a : Nat} {x : FaultRec} {c : Field} (hnow : a ≤ n.now)
    (hX : ∀ e j, n.rd .dagDrpxX e j = s.rd .dagDrpxX e j) (hc : n.rd c = s.rd c) (hdie : n.die d = s.die d) (hx : x.cls ≠ .fatal)
    (counted : (n.raise x).rd c = n.oneUp c) (hl : c.isLimit = false) : s.reportsDroop (s.commit (n.dieFault d x)) d a x c := by
  refine ⟨?_, fun e j => ?_, fun h => ?_, fun h room => ?_⟩
  · rw [State.commit_now, State.now_dieFault]
    exact le_max_of_le_right hnow
  · rw [State.rd_commit _ _ _ _ _ rfl, State.rd_dieFault _ _ _ _ _ rfl, hX]
  · rw [State.rd_commit _ _ _ _ _ hl, State.dieFault_raised x (by rw [hdie, h]), counted, State.oneUp, hc, State.oneUp]
  · rw [State.die_commit, State.faultHold_dieFault hx (by rw [hdie, h]) (by rwa [hdie]), hdie]

/-- The fault of a droop of 16 fast periods, and that of a droop of 1 ms. -/
def persistFault (d k : Nat) : FaultRec := corr 9 4 (unitOf d k) 6
def persistLongFault (d k : Nat) : FaultRec := cont 9 5 (unitOf d k) (dieScope d) 6

theorem exec_droopPersist {s : State} {d : Die} {k : Core} {a : Nat} (hs : s.aon = true) (ha : s.episodeStart d.val k.val = some a) :
    exec (.droopPersist d k) s =
      .next (s.commit (((s.advanceTo (a + 4000)).wr .dagDrpstatPersist 1 d.val).dieFault d.val (persistFault d.val k.val))) := by
  change execDroopPersist d k s = _
  rw [execDroopPersist, State.run_on _ hs]
  simp only [ha]
  rfl

theorem exec_droopPersistLong {s : State} {d : Die} {k : Core} {a : Nat} (hs : s.aon = true) (ha : s.episodeStart d.val k.val = some a) :
    exec (.droopPersistLong d k) s =
      .next (s.commit ((s.advanceTo (a + 1000000)).dieFault d.val (persistLongFault d.val k.val))) := by
  change execDroopPersistLong d k s = _
  rw [execDroopPersistLong, State.run_on _ hs]
  simp only [ha]
  rfl

/-- After 16 fast periods (R159). -/
theorem droopPersist_reports {s : State} {d : Die} {k : Core} {a : Nat} (hs : s.aon = true) (ha : s.episodeStart d.val k.val = some a) :
    ∃ t, exec (.droopPersist d k) s = .next t ∧ t.flag .dagDrpstatPersist d.val = true ∧
      s.reportsDroop t d.val (a + 4000) (persistFault d.val k.val) .fltCorr := by
  refine ⟨_, exec_droopPersist hs ha, ?_, State.reportsDroop_of ?_ (fun e j => ?_) ?_ ?_ FaultClass.noConfusion ?_ rfl⟩
  · rw [State.flag, State.rd_commit _ _ _ _ _ rfl, State.rd_dieFault _ _ _ _ _ rfl]
    exact State.flag_wr_one _ (drpstatFlag_exists (by simp) d.isLt) rfl
  · rw [State.wr_now, State.advanceTo_now]
    exact le_max_right _ _
  · rw [State.rd_wr_field _ _ _ _ _ _ (by decide), State.rd_advanceTo _ _ _ _ (by decide)]
  · rw [State.rd_wr_field _ _ _ _ _ _ (by decide), State.rd_advanceTo _ _ _ _ (by decide)]
  · rw [State.die_wr, State.die_advanceTo]
  · exact State.fltCorr_raise_corrected _ rfl

/-- After 1 ms (R159). -/
theorem droopPersistLong_reports {s : State} {d : Die} {k : Core} {a : Nat} (hs : s.aon = true) (ha : s.episodeStart d.val k.val = some a) :
    ∃ t, exec (.droopPersistLong d k) s = .next t ∧ s.reportsDroop t d.val (a + 1000000) (persistLongFault d.val k.val) .fltCont := by
  refine ⟨_, exec_droopPersistLong hs ha, State.reportsDroop_of ?_ (fun e j => ?_) ?_ ?_ FaultClass.noConfusion ?_ rfl⟩
  · rw [State.advanceTo_now]
    exact le_max_right _ _
  · exact State.rd_advanceTo _ _ _ _ (by decide)
  · exact State.rd_advanceTo _ _ _ _ (by decide)
  · exact State.die_advanceTo _ _ _
  · exact State.fltCont_raise_contained _ rfl

/-- Settles O35: both commands move time on and let the die agent report, and neither a passing time nor a fault writes an extension. -/
theorem longDroopsAreReported : Obligations.LongDroopsAreReported := by
  intro s d k a hs ha
  obtain ⟨t, ht, hflag, hnow, hX, hcorr, hheld⟩ := droopPersist_reports hs ha
  obtain ⟨u, hu, hnow', hX', hcont, hheld'⟩ := droopPersistLong_reports hs ha
  exact ⟨⟨t, ht, hflag, hnow, hX, hcorr, fun h room => ⟨_, hheld h room, rfl⟩⟩,
    u, hu, hnow', hX', hcont, fun h room => ⟨_, hheld' h room, rfl⟩⟩

end Sys2Proof.Machine

/-!
Settles O59: the in-band interrupts of the I3C port. What the operations of the mailboxes, of time and of a control complex's reset leave of the
port, what a raised interrupt adds to those that have gone out, and the five commands that raise one (R317 to R321, R377).
-/

namespace Sys2Proof.Machine

/-! ## An interrupt raised -/

/-- A state whose I3C port is as in s adds the byte to the interrupts of s where ENEC has enabled them. -/
theorem State.ibiOut_raiseIbi {s n : State} (h : n.i3c = s.i3c) (b : Nat) :
    (n.raiseIbi b).i3c.ibiOut = s.i3c.ibiOut ++ (if s.i3c.ibiEn then [b] else []) := by
  unfold State.raiseIbi
  rw [h]
  split <;> simp [h]

/-- A reading of the state that does not look at the I3C port does not see an interrupt. -/
theorem State.raiseIbi_other {α : Type} (g : State → α) (hi : ∀ s x, g { s with i3c := x } = g s) (s : State) (b : Nat) :
    g (s.raiseIbi b) = g s := by
  unfold State.raiseIbi
  split
  · exact hi s _
  · rfl

@[simp] theorem State.flag_raiseIbi (s : State) (b : Nat) (f : Field) (i j : Nat) : (s.raiseIbi b).flag f i j = s.flag f i j :=
  State.raiseIbi_other (fun t => t.flag f i j) (fun _ _ => rfl) s b

@[simp] theorem State.now_raiseIbi (s : State) (b : Nat) : (s.raiseIbi b).now = s.now :=
  State.raiseIbi_other (fun t => t.now) (fun _ _ => rfl) s b

/-! ## What leaves the I3C port as it is -/

@[simp] theorem State.i3c_commit (s n : State) : (s.commit n).i3c = n.i3c := rfl

@[simp] theorem State.i3c_puts (s : State) (l : List (FieldRef × Nat)) : (s.puts l).i3c = s.i3c := by
  induction l generalizing s with
  | nil => rfl
  | cons e l ih => exact (ih _).trans (s.put_i3c _ _)

@[simp] theorem State.i3c_sendVector (s : State) (p : Port) (v : Nat) : (s.sendVector p v).i3c = s.i3c := by
  unfold State.sendVector
  split <;> rfl

@[simp] theorem State.i3c_mbParity (s : State) (m : Nat) : (s.mbParity m).i3c = s.i3c := by
  unfold State.mbParity
  split <;> rfl

@[simp] theorem State.i3c_event (s : State) (code sev unit : Nat) (part : Option Nat) : (s.event code sev unit part).i3c = s.i3c := by
  unfold State.event
  split
  · rfl
  · exact s.count_i3c _ _ _ _

@[simp] theorem State.i3c_capture (s : State) (x : FaultRec) : (s.capture x).i3c = s.i3c := by
  unfold State.capture
  dsimp only
  split
  · exact s.count_i3c _ _ _ _
  · exact s.i3c_puts _

@[simp] theorem State.i3c_countFault (s : State) (x : FaultRec) : (s.countFault x).i3c = s.i3c := by
  unfold State.countFault
  split <;> simp only [State.count_i3c]

/-- A CORRECTED fault sends no notice, and so nothing through MB3. -/
theorem State.i3c_raise_corrected (s : State) {x : FaultRec} (hx : x.cls = .corrected) : (s.raise x).i3c = s.i3c := by
  simp only [State.raise, hx, State.i3c_event, State.i3c_capture, State.i3c_countFault]

/-! ## Writes by a port and words of a block -/

/-- A write's answer and the half that it drops stand in the table of ports. -/
theorem State.wrote_other {α : Type} (g : State → α) (hp : ∀ s x, g { s with ports := x } = g s) (s : State) (p : Port) (base off : Nat) :
    g (s.wrote p base off) = g s := by
  unfold State.wrote State.dropHeld
  split
  · split
    · exact hp s _
    · exact (hp _ _).trans (hp s _)
  · exact hp s _

@[simp] theorem State.i3c_wrote (s : State) (p : Port) (base off : Nat) : (s.wrote p base off).i3c = s.i3c :=
  State.wrote_other (fun t => t.i3c) (fun _ _ => rfl) s p base off

@[simp] theorem State.flag_wrote (s : State) (p : Port) (base off : Nat) (f : Field) (i j : Nat) :
    (s.wrote p base off).flag f i j = s.flag f i j :=
  State.wrote_other (fun t => t.flag f i j) (fun _ _ => rfl) s p base off

/-- A flag that exists reads as set once it has been set. -/
theorem State.flag_wr_set (s : State) {f : Field} {i j : Nat} (he : (⟨f, i, j⟩ : FieldRef).exists = true) (hw : (fieldDef f).width = 1) :
    (s.wr f 1 i j).flag f i j = true :=
  decide_eq_true (by simp [State.rd_wr_same _ _ _ _ _ he, hw])

theorem State.flag_wr_field (s : State) {a f : Field} (v ai aj i j : Nat) (h : a ≠ f) : (s.wr a v ai aj).flag f i j = s.flag f i j := by
  rw [State.flag, State.flag, State.rd_wr_field _ _ _ _ _ _ h]

/-- A block that goes to its reset values reaches its own fields alone. -/
theorem State.resetBlock_other {α : Type} {g : State → α} {b : Blk} (hg : ∀ (s : State) (r : FieldRef) v, r.f ∈ blkFields b → g (s.put r v) = g s)
    (s : State) (i : Nat) (p : Field → Bool) : g (s.resetBlock b i p) = g s := by
  refine List.foldlRecOn (motive := fun t => g t = g s) _ _ rfl fun t ht f hf => Eq.trans ?_ ht
  exact each_blind _ _ (fun t k => each_blind _ _ (fun t j => hg t _ _ (List.mem_filter.1 hf).1) t) t

/-! ## Mailboxes -/

/-- A mailbox with a message in it, before the receiver is told: FULL, and COLLISION where it was full already (R317, R318). -/
def State.filled (s : State) (m : Nat) : State :=
  (if s.flag .hifMbStatFull 0 m then s.wr .hifMbStatCollision 1 0 m else s).wr .hifMbStatFull 1 0 m

@[simp] theorem State.i3c_filled (s : State) (m : Nat) : (s.filled m).i3c = s.i3c := by
  unfold State.filled
  split <;> simp only [State.wr_i3c]

theorem State.mailboxPost_mb3 (s : State) (tag : Nat) :
    s.mailboxPost .cc 3 tag = (((s.wr .hifMbTag tag 0 3).mbParity 3).filled 3).raiseIbi 1 := rfl

/-- A message for MB3 raises the interrupt of a post. -/
theorem State.ibiOut_mailboxPost {s n : State} (h : n.i3c = s.i3c) (tag : Nat) :
    (n.mailboxPost .cc 3 tag).i3c.ibiOut = s.i3c.ibiOut ++ (if s.i3c.ibiEn then [1] else []) := by
  rw [State.mailboxPost_mb3]
  refine State.ibiOut_raiseIbi ?_ 1
  rw [State.i3c_filled, State.i3c_mbParity, State.wr_i3c, h]

/-- A release of MB2 raises the interrupt of a release. -/
theorem State.ibiOut_mailboxRelease {s n : State} (h : n.i3c = s.i3c) (full : n.flag .hifMbStatFull 0 2 = true) :
    (n.mailboxRelease .cc 2).i3c.ibiOut = s.i3c.ibiOut ++ (if s.i3c.ibiEn then [2] else []) := by
  have may : mayRelease .cc 2 = true := rfl
  rw [State.mailboxRelease, may, full]
  exact State.ibiOut_raiseIbi ((n.wr_i3c _ _ _ _).trans h) 2

/-- A full mailbox as a reset of its receiver leaves it, before the sender is told (R320). -/
def State.aborted (s : State) (m : Nat) : State :=
  s.puts [(⟨.hifMbPtr, 0, m⟩, 0), (⟨.hifMbTag, 0, m⟩, 0), (⟨.hifMbStatFull, 0, m⟩, 0), (⟨.hifMbStatAborted, 0, m⟩, 1)]

theorem State.mailboxAbort_two {s : State} (full : s.flag .hifMbStatFull 0 2 = true) : s.mailboxAbort 2 = (s.aborted 2).raiseIbi 3 :=
  if_pos full

theorem State.flag_aborted (s : State) : (s.aborted 2).flag .hifMbStatAborted 0 2 = true :=
  State.flag_wr_set _ (by decide) rfl

/-- The sender of MB0 is a host, and is told by a vector. -/
theorem State.i3c_mailboxAbort_zero (s : State) : (s.mailboxAbort 0).i3c = s.i3c := by
  unfold State.mailboxAbort
  split
  · exact (State.i3c_sendVector _ _ _).trans (s.i3c_puts _)
  · rfl

/-- MB2 stays as full as it was. -/
theorem State.full_mailboxAbort_zero (s : State) : (s.mailboxAbort 0).rd .hifMbStatFull 0 2 = s.rd .hifMbStatFull 0 2 := by
  unfold State.mailboxAbort
  split
  · refine (State.rd_sendVector (s.aborted 0) _ _ _ _ _).trans ?_
    simp [State.aborted, State.puts, State.rd, State.reg_put]
  · rfl

/-! ## A mailbox read by the control complex -/

/-- The word of MB2 that a read names, TAG or the lower half of PTR: its address, and its offset in the HIF block. -/
def mb2Addr (tag : Bool) : Nat := mbAddr 2 + if tag then 8 else 0
def mb2Off (tag : Bool) : Nat := 0x640 + if tag then 8 else 0

/-- No element of those words reads to clear. -/
theorem State.clearOnRead_mb2 (s : State) (b : Bool) (hw : HwBits) :
    (pieces .cc .hif 0 (mb2Off b)).foldl (fun s x => s.clearOnRead x.ref (x.hw hw)) s = s := by
  have kept : ∀ x ∈ pieces .cc .hif 0 (mb2Off b), (fieldDef x.ref.f).kind ≠ .rc := by
    cases b <;> decide
  refine List.foldlRecOn (motive := fun t => t = s) _ _ rfl fun t ht x hx => ?_
  simp [State.clearOnRead, kept x hx, ht]

theorem State.readActs_mb2 (s : State) (b : Bool) : s.readActs .cc .hif 0 (mb2Off b) none = s.mailboxRead .cc 2 b := by
  have box : mboxOf .hif (mb2Off b) = some 2 := by cases b <;> rfl
  unfold State.readActs
  rw [State.clearOnRead_mb2, box]
  cases b <;> rfl

@[simp] theorem State.i3c_latchUpper (s : State) (p : Port) (b : Blk) (i off a : Nat) : (s.latchUpper p b i off a).i3c = s.i3c := by
  unfold State.latchUpper
  split <;> rfl

@[simp] theorem State.mbBad_latchUpper (s : State) (p : Port) (b : Blk) (i off a : Nat) : (s.latchUpper p b i off a).mbBad = s.mbBad := by
  unfold State.latchUpper
  split <;> rfl

/-- The read returns the word, and does what R321 says of the parity. -/
theorem State.busRead_mb2 (s : State) (b : Bool) :
    s.busRead .cc (mb2Addr b) 4 none =
      ((s.latchUpper .cc .hif 0 (mb2Off b) (mb2Addr b)).mailboxRead .cc 2 b).returns .cc
        (readBytes (mb2Addr b) 4 (s.readValue .cc .hif 0 (mb2Off b) (mb2Addr b))) := by
  have aligned : mb2Addr b - mb2Addr b % 4 = mb2Addr b := by cases b <;> rfl
  have place : locate (mb2Addr b) = some (.hif, 0, mb2Off b) := by cases b <;> rfl
  have reach : reaches .cc .hif (mb2Off b) = true := rfl
  have up : s.meetsDown .cc .hif (mb2Off b) = false := by cases b <;> rfl
  simp [State.busRead, aligned, place, reach, up, State.readActs_mb2]

/-- Bad parity sets PERR and raises the interrupt that tells the sender. -/
theorem State.mailboxRead_mb2 {s n : State} (b : Bool) (hi : n.i3c = s.i3c) (bad : 2 ∈ n.mbBad) :
    (n.mailboxRead .cc 2 b).flag .hifMbStatPerr 0 2 = true ∧
      (n.mailboxRead .cc 2 b).i3c.ibiOut = s.i3c.ibiOut ++ (if s.i3c.ibiEn then [3] else []) := by
  have found : (isReceiver .cc 2 && n.mbBad.contains 2) = true := by simpa [isReceiver] using bad
  unfold State.mailboxRead
  rw [if_pos found]
  constructor
  · rw [State.flag, rd_raise _ _ _ _ _ FaultClass.noConfusion rfl]
    change State.flag (State.raiseIbi _ 3) _ _ _ = true
    rw [State.flag_raiseIbi, State.flag_wr_field _ _ _ _ _ _ (by decide)]
    exact State.flag_wr_set _ (by decide) rfl
  · rw [State.i3c_raise_corrected _ rfl]
    refine State.ibiOut_raiseIbi ?_ 3
    rw [State.wr_i3c, State.wr_i3c, hi]

/-! ## A reset of the active control complex -/

theorem State.i3c_resetBlock (s : State) (b : Blk) (i : Nat) (p : Field → Bool) : (s.resetBlock b i p).i3c = s.i3c :=
  State.resetBlock_other (g := fun t => t.i3c) (fun t r v _ => t.put_i3c r v) s i p

theorem State.rd_resetBlock (s : State) {b : Blk} (i : Nat) (p : Field → Bool) {f : Field} (k j : Nat) (h : f ∉ blkFields b) :
    (s.resetBlock b i p).rd f k j = s.rd f k j :=
  State.resetBlock_other (g := fun t => t.rd f k j) (fun t r v hr => t.rd_wr_field v r.i r.j k j (ne_of_mem_of_not_mem hr h)) s i p

/-- MB2 full as its receiver resets: ABORTED stands, and the interrupt that tells the sender has been raised. -/
theorem State.resetControl_mb2 {s : State} {h : Nat} (hh : h = s.active) (full : s.flag .hifMbStatFull 0 2 = true) :
    (s.resetControl h).flag .hifMbStatAborted 0 2 = true ∧
      (s.resetControl h).i3c.ibiOut = s.i3c.ibiOut ++ (if s.i3c.ibiEn then [3] else []) := by
  have abort := State.mailboxAbort_two (by rwa [State.flag, s.full_mailboxAbort_zero])
  unfold State.resetControl State.stopHall State.clearPort
  rw [if_pos hh]
  dsimp only
  rw [abort]
  constructor
  · rw [State.flag_wr_field _ _ _ _ _ _ (by decide), State.flag, State.rd_updHall, State.rd_updPort, State.rd_resetBlock _ _ _ _ _ (by decide)]
    exact (State.flag_raiseIbi _ _ _ _ _).trans (State.flag_aborted _)
  · rw [State.wr_i3c, State.updHall_i3c, State.updPort_i3c, State.i3c_resetBlock]
    exact State.ibiOut_raiseIbi ((State.i3c_puts _ _).trans s.i3c_mailboxAbort_zero) 3

/-! ## An interrupt that is raised again -/

/-- Time that passes reaches the registers, the operating time and the clock alone. -/
theorem State.advanceTo_other {α : Type} (g : State → α) (hg : ∀ (s : State) (r : FieldRef) v, g (s.put r v) = g s)
    (ha : ∀ s x, g { s with age := x } = g s) (hn : ∀ s x, g { s with now := x } = g s) (s : State) (t : Nat) : g (s.advanceTo t) = g s := by
  have ran (d : Nat) : g ((s.wr .fltAonns (s.rd .fltAonns + d)).operate d) = g s := by
    unfold State.operate
    split
    · exact hg s _ _
    · exact (ha _ _).trans ((hg _ _ _).trans (hg s _ _))
  unfold State.advanceTo
  split
  · dsimp only
    rw [hn]
    split
    · exact (hg _ _ _).trans (ran _)
    · exact ran _
  · rfl

theorem State.i3c_advanceTo (s : State) (t : Nat) : (s.advanceTo t).i3c = s.i3c :=
  State.advanceTo_other (fun n => n.i3c) State.put_i3c (fun _ _ => rfl) (fun _ _ => rfl) s t

/-- The tables of a state in which an interrupt is raised after some time. -/
theorem State.sameTabs_raiseIbi_advanceTo (s : State) (t b : Nat) : s.sameTabsBut ((s.advanceTo t).raiseIbi b) [] := by
  intro x _
  have put (n : State) (r : FieldRef) (v : Nat) : s.sameIn (n.put r v) x = s.sameIn n x :=
    State.put_other (fun n => s.sameIn n x) (fun _ _ => by cases x <;> rfl) (fun _ _ => by cases x <;> rfl) n r v
  rw [State.raiseIbi_other (fun n => s.sameIn n x) (fun _ _ => by cases x <;> rfl),
    State.advanceTo_other (fun n => s.sameIn n x) put (fun _ _ => by cases x <;> rfl) (fun _ _ => by cases x <;> rfl)]
  exact s.sameIn_refl x

/-- The guard changes no table. -/
theorem State.sameTabs_commit {s n : State} {l : List Tab} (h : s.sameTabsBut n l) : s.sameTabsBut (s.commit n) l := by
  intro x hx
  have same := h x hx
  revert same
  cases x <;> simp [State.sameIn, State.commit, State.port, State.msixOf, State.pendOf, State.hall, State.die, State.hd, State.part,
    State.ring, State.rail]

/-! ## The commands -/

theorem exec_mailboxPost_tray {s : State} (v : Word) (hs : s.aon = true) :
    exec (.mailboxPost .cc 3 v) s = .next (s.commit ((s.wrote .cc hifBase 0x668).mailboxPost .cc 3 v.toNat)) := by
  change execMailboxPost .cc 3 v s = _
  rw [execMailboxPost, State.run_on _ hs]
  rfl

theorem exec_mailboxRelease_tray {s : State} (hs : s.aon = true) :
    exec (.mailboxRelease .cc 2) s = .next (s.commit ((s.wrote .cc hifBase 0x64C).mailboxRelease .cc 2)) := by
  change execMailboxRelease .cc 2 s = _
  rw [execMailboxRelease, State.run_on _ hs]
  rfl

theorem exec_mailboxRead_tray {s : State} (b : Bool) (hs : s.aon = true) :
    exec (.mailboxRead .cc 2 b) s = .next (s.commit (s.busRead .cc (mb2Addr b) 4 none)) :=
  State.run_on (fun s => s.busRead .cc (mb2Addr b) 4 none) hs

theorem exec_warmReset_control {s : State} (h : Hall) (hs : s.aon = true) :
    exec (.warmReset (.control h)) s = .next (s.commit (s.resetControl h.val)) :=
  State.run_on (fun s => s.resetControl h.val) hs

theorem exec_ibiRetry {s : State} {b : Nat} (hs : s.aon = true) (hb : s.i3c.ibiLast = some b) (he : s.i3c.ibiEn = true) :
    exec .ibiRetry s =
      .next (s.commit (if s.ibiStands b then (s.advanceTo (s.i3c.ibiAt + 1000000)).raiseIbi b else s)) := by
  change execIbiRetry s = _
  rw [execIbiRetry, State.run_on _ hs]
  simp only [hb, he, Bool.true_and]

/-- A message with bad parity read by the control complex. -/
theorem mailboxRead_raises_ibi {s : State} (b : Bool) (hs : s.aon = true) (bad : 2 ∈ s.mbBad) :
    ∃ t, exec (.mailboxRead .cc 2 b) s = .next t ∧ t.flag .hifMbStatPerr 0 2 = true ∧
      t.i3c.ibiOut = s.i3c.ibiOut ++ (if s.i3c.ibiEn then [3] else []) := by
  obtain ⟨perr, out⟩ := State.mailboxRead_mb2 b (s.i3c_latchUpper .cc .hif 0 (mb2Off b) (mb2Addr b)) (by rwa [State.mbBad_latchUpper])
  refine ⟨_, exec_mailboxRead_tray b hs, ?_, ?_⟩
  · rw [State.flag, State.rd_commit _ _ _ _ _ rfl, s.busRead_mb2]
    exact perr
  · rw [State.i3c_commit, s.busRead_mb2]
    exact out

/-- A warm reset of the control complex that receives a full MB2. -/
theorem warmReset_raises_ibi {s : State} {h : Hall} (hs : s.aon = true) (hh : h.val = s.active) (full : s.flag .hifMbStatFull 0 2 = true) :
    ∃ t, exec (.warmReset (.control h)) s = .next t ∧ t.flag .hifMbStatAborted 0 2 = true ∧
      t.i3c.ibiOut = s.i3c.ibiOut ++ (if s.i3c.ibiEn then [3] else []) := by
  obtain ⟨aborted, out⟩ := State.resetControl_mb2 hh full
  refine ⟨_, exec_warmReset_control h hs, ?_, out⟩
  rw [State.flag, State.rd_commit _ _ _ _ _ rfl]
  exact aborted

/-- 1 ms later, while the cause stands, the same byte goes out again. -/
theorem ibiRetry_raises_ibi {s : State} {b : Nat} (hs : s.aon = true) (hb : s.i3c.ibiLast = some b) (he : s.i3c.ibiEn = true)
    (stands : s.ibiStands b = true) :
    ∃ t, exec .ibiRetry s = .next t ∧ t.i3c.ibiOut = s.i3c.ibiOut ++ [b] ∧ s.i3c.ibiAt + 1000000 ≤ t.now ∧ s.sameTabsBut t [] := by
  refine ⟨_, exec_ibiRetry hs hb he, ?_⟩
  rw [if_pos stands]
  refine ⟨?_, ?_, State.sameTabs_commit (s.sameTabs_raiseIbi_advanceTo _ b)⟩
  · rw [State.i3c_commit, State.ibiOut_raiseIbi (s.i3c_advanceTo _), if_pos he]
  · rw [State.commit_now, State.now_raiseIbi, State.advanceTo_now]
    exact le_max_of_le_right (le_max_right _ _)

theorem ibiRetry_idles {s : State} {b : Nat} (hs : s.aon = true) (hb : s.i3c.ibiLast = some b) (he : s.i3c.ibiEn = true)
    (stands : s.ibiStands b = false) : ∃ t, exec .ibiRetry s = .next t ∧ s.onlyChanges t [] [] := by
  refine ⟨_, exec_ibiRetry hs hb he, ?_⟩
  rw [stands]
  exact State.onlyChanges_commit (s.onlyChanges_refl _ _)

/-- Settles O59: each of the five commands comes to one interrupt raised in a state whose I3C port is as before, or to none. -/
theorem inBandInterrupts : Obligations.InBandInterrupts := by
  intro s hs
  refine ⟨fun v => ?_, fun full => ?_, fun b bad => mailboxRead_raises_ibi b hs bad, fun h hh full => ?_, fun b hb he => ?_⟩
  · exact ⟨_, exec_mailboxPost_tray v hs, State.ibiOut_mailboxPost (s.i3c_wrote _ _ _) _⟩
  · exact ⟨_, exec_mailboxRelease_tray hs, State.ibiOut_mailboxRelease (s.i3c_wrote _ _ _) ((s.flag_wrote _ _ _ _ _ _).trans full)⟩
  · obtain ⟨t, ht, aborted, out⟩ := warmReset_raises_ibi hs hh full
    exact ⟨t, ht, aborted, fun en => by simp [out, en], fun off => by simp [out, off]⟩
  · exact ⟨ibiRetry_raises_ibi hs hb he, ibiRetry_idles hs hb he⟩

end Sys2Proof.Machine

/-!
Settles O1 to O5: the queue, the guard and sound states. A step runs the front of the queue, the guard puts every table in canonical form, and
no command raises a lower-only field (R3, R8, R282).
-/

namespace Sys2Proof.Machine

/-! ## The queue and the guard -/

/-- Settles O1: both forms are what a step is by definition. -/
theorem stepTakesTheFront : Obligations.StepTakesTheFront := by
  refine ⟨fun c s => rfl, fun s h => ?_⟩
  rw [step, h]

/-- Settles O2: every command answers what the guard makes of some state, and the guard keeps the queue and never turns time back; the two
that run without the guard do so as well. -/
theorem everyCommandCompletes : Obligations.EveryCommandCompletes := by
  intro c s hs
  rcases exec_form c s with ⟨_, f, hf⟩ | ⟨_, f, hf⟩ | ⟨_, hf⟩ | ⟨_, hf⟩
  · exact ⟨_, hf.trans (State.run_on f hs), rfl, le_max_left _ _⟩
  · exact ⟨_, hf.trans (State.runLower_on f hs), rfl, le_max_left _ _⟩
  · exact ⟨_, hf, by rw [if_pos hs], by rw [if_pos hs]⟩
  · exact ⟨_, hf, by rw [if_pos hs]; rfl, by rw [if_pos hs]; rfl⟩

/-- Settles O3: every command but the two that act on the supply runs under the guard. -/
theorem nothingRunsWithoutSupply : Obligations.NothingRunsWithoutSupply := by
  intro c s hs hon hoff
  rcases exec_form c s with ⟨_, f, hf⟩ | ⟨_, f, hf⟩ | ⟨hc, _⟩ | ⟨hc, _⟩
  · exact hf.trans (State.run_off f hs)
  · exact hf.trans (State.runLower_off f hs)
  · exact absurd hc hon
  · exact absurd hc hoff

/-! ## Canonical tables -/

/-- A state whose tables are as the guard leaves them is in canonical form where its limits are. -/
theorem State.wf_commit (s n : State) {x : Store FieldRef Nat} (hx : Store.wf FieldRef.lt FieldRef.reset x = true) :
    State.wf { s.commit n with limits := x } = true := by
  simp only [State.wf, State.commit, Store.wf_seal fieldRefLt_order, Store.wf_seal natLt_order, hx, Bool.and_self]

theorem State.wf_limits {s : State} (h : s.wf = true) : Store.wf FieldRef.lt FieldRef.reset s.limits = true := by
  simp only [State.wf, Bool.and_eq_true] at h
  tauto

/-- Without the supply every table is empty but that of the registers, which is sealed. -/
theorem State.wf_dark (s : State) : s.dark.wf = true := by
  simp only [State.wf, State.dark, Store.wf_seal fieldRefLt_order]
  rfl

/-- Every command leaves the tables in canonical form. -/
theorem exec_wf {c : Instr} {s t : State} (hs : s.wf = true) (h : exec c s = .next t) : t.wf = true := by
  rcases exec_form c s with ⟨_, f, hf⟩ | ⟨_, f, hf⟩ | ⟨_, hf⟩ | ⟨_, hf⟩
  · rcases State.run_cases (hf.symm.trans h) with ⟨_, ho⟩ | ⟨_, ho⟩ <;> cases ho
    exact State.wf_commit s _ (State.wf_limits hs)
  · rcases State.runLower_cases (hf.symm.trans h) with ⟨_, ho⟩ | ⟨_, ho⟩ <;> cases ho
    exact State.wf_commit s _ (Store.wf_seal fieldRefLt_order _ _)
  · cases hf.symm.trans h
    split
    · exact hs
    · exact State.wf_commit s _ (State.wf_limits hs)
  · cases hf.symm.trans h
    split
    · exact s.wf_dark
    · exact hs

/-! ## Limits that nothing has raised -/

theorem limitLe_trans {f : Field} {a b c : Nat} (h : limitLe f a b = true) (h' : limitLe f b c = true) : limitLe f a c = true := by
  unfold limitLe at *
  split at h <;> simp only [decide_eq_true_eq] at * <;> exact h.trans h'

/-- An empty table of limits holds every limit at its reset value. -/
theorem State.limitsHeld_of_empty {s : State} (h : s.limits = []) : s.limitsHeld := by
  intro r hl
  have reset : s.reg r = if r.exists then r.reset else 0 := by simp [State.reg, hl, h]
  rw [reset]
  exact limitLe_refl _ _

theorem exec_limitsHeld {c : Instr} {s t : State} (hs : s.limitsHeld) (h : exec c s = .next t) : t.limitsHeld := by
  by_cases hc : c = .aonRemoved
  · subst hc
    cases ha : s.aon with
    | true =>
      cases (exec_aonRemoved ha).symm.trans h
      exact State.limitsHeld_of_empty rfl
    | false =>
      have idle : exec .aonRemoved s = .next s := by
        change execAonRemoved s = _
        rw [execAonRemoved, if_neg (by simp [ha])]
      cases idle.symm.trans h
      exact hs
  · exact fun r hl => limitLe_trans (exec_limit_le hc h r hl) (hs r hl)

/-! ## Sound states -/

theorem exec_sound {c : Instr} {s t : State} (hs : s.sound) (h : exec c s = .next t) : t.sound :=
  ⟨exec_wf hs.1 h, exec_limitsHeld hs.2 h⟩

/-- Settles O4: every table is empty after reset. -/
theorem resetIsSound : Obligations.ResetIsSound :=
  ⟨⟨rfl, State.limitsHeld_of_empty rfl⟩, rfl⟩

/-- Settles O5: a step idles or runs one command, the queue is no part of soundness, and every command keeps the tables canonical and raises
no limit. -/
theorem everyStepKeepsSoundness : Obligations.EveryStepKeepsSoundness := by
  intro s t hs h
  unfold step at h
  split at h
  · cases h
    exact hs
  · rename_i c rest _
    have sound : State.sound { s with pending := rest } := hs
    exact exec_sound sound h

end Sys2Proof.Machine

/-!
Refutes O21: a change of two phases with no dies takes force at the end of the sampling instant itself, after the period limit has been formed, and
its writes are whatever the state holds (R290, R291).
-/

namespace Sys2Proof.Machine

/-- A change that concerns no die and writes the period limit. -/
def limitChange : Change :=
  { gen := 0, kind := .floorShare, writes := [(⟨.alcPkglimLim, 0, 0⟩, 0xFFFF)], before := [], dies := [], acked := [], committed := [],
    start := 0, cmd := none, result := none }

/-- The state after reset with a tray cap of 0 and that change under way. -/
def capBelowChange : State := { State.reset with regs := [(⟨.alcTraycapCap, 0, 0⟩, 0)], change := some limitChange }

/-- The state in which the sampling instant meets the change, with the limit formed and the grants sent. -/
def State.sampled (s : State) : State :=
  let s1 := (s.advanceTo (s.lastB + 40)).heldEnds.floorRelease.acceptChange
  let s2 := s1.sampleLimit.slideSlack.sendGrants.endSample.apportionAll
  (s2.each (upto 16) State.latchPer).closeStmts.startJobs

theorem exec_samplingInstant {s : State} (hs : s.aon = true) : exec .samplingInstant s = .next (s.commit s.sampled.emptyChange) :=
  State.run_on (fun s => s.sampled.emptyChange) hs

/-- A change with no dies whose writes name the period limit alone leaves in it what it writes. -/
theorem pkglim_emptyChange {s : State} (h : s.change = some limitChange) : s.emptyChange.rd .alcPkglimLim = 0xFFFF := by
  have written : s.emptyChange.rd .alcPkglimLim = ((s.puts limitChange.writes).wr .fltCmtState 2).rd .alcPkglimLim := by
    unfold State.emptyChange
    rw [h]
    rfl
  rw [written, State.rd_wr_field _ _ _ _ _ _ (by decide)]
  exact State.rd_wr_same s .alcPkglimLim 0xFFFF 0 0 (by decide)

/-- The change is still under way when the limit has been formed. -/
theorem change_sampled_capBelowChange : capBelowChange.sampled.change = some limitChange := by
  decide +kernel

theorem pkglim_samplingInstant {s t : State} (hs : s.aon = true) (h : s.sampled.change = some limitChange)
    (ht : exec .samplingInstant s = .next t) : t.rd .alcPkglimLim = 0xFFFF := by
  have ended : s.commit s.sampled.emptyChange = t := Host.Outcome.next.inj ((exec_samplingInstant hs).symm.trans ht)
  rw [← ended, State.rd_commit _ _ _ _ _ rfl, pkglim_emptyChange h]

/-- Refutes O21: with the tray cap at 0 the period limit that the sampling instant leaves is the 0xFFFF of the change. -/
theorem not_periodLimitWithinItsTerms : ¬ Obligations.PeriodLimitWithinItsTerms := by
  intro h
  obtain ⟨t, ht, tray, -⟩ := h capBelowChange rfl
  have zero : capBelowChange.rd .alcTraycapCap = 0 := by decide
  rw [pkglim_samplingInstant rfl change_sampled_capBelowChange ht, zero] at tray
  exact absurd tray (by decide)

end Sys2Proof.Machine

/-!
Settles O8: accesses that no register answers. Each kind of discarded write comes to the answer to the port and ACCERR, and a read where no
block stands to the answer alone (R4, R5).
-/

namespace Sys2Proof.Machine

/-! ## What the answer to a port touches -/

theorem State.onlyChanges_answered (s : State) (p : Port) (l : List FieldRef) : s.onlyChanges (s.answered p) l [.ports] :=
  State.onlyChanges_ports (s.onlyChanges_refl l _) _ List.mem_cons_self

theorem State.onlyChanges_returns {s n : State} {l : List FieldRef} (h : s.onlyChanges n l [.ports]) (p : Port) (v : Nat) :
    s.onlyChanges (n.returns p v) l [.ports] :=
  State.onlyChanges_ports h _ List.mem_cons_self

@[simp] theorem State.rdata_returns (s : State) (p : Port) (v : Nat) : ((s.returns p v).port p).rdata = v := by
  simp [State.returns, State.port_updPort]

/-! ## Discarded writes -/

/-- A write that R4 and R5 discard: narrow, unaligned, or to an address that holds no register. -/
def discarded (p : Port) (a : Nat) (full : Bool) : Prop :=
  full = false ∨ a % 4 ≠ 0 ∨ (locate a = none ∧ ¬ (0xC000 ≤ a ∧ a < 0x10000)) ∨
    ∃ b i off, locate a = some (b, i, off) ∧ reaches p b off = true ∧ isMsix b off = false ∧ definedWord b off = false

theorem State.busWrite_discarded (s : State) {p : Port} {a : Nat} (v : Nat) {full : Bool} (hw : HwBits) (h : discarded p a full) :
    s.busWrite p a v full hw = (s.answered p).accErr := by
  by_cases short : (!full || decide (a % 4 ≠ 0)) = true
  · rw [State.busWrite, if_pos short]
  · simp only [Bool.or_eq_true, Bool.not_eq_true', decide_eq_true_eq, not_or] at short
    obtain ⟨wide, aligned⟩ := short
    rcases h with h | h | ⟨hloc, hout⟩ | ⟨b, i, off, hloc, hreach, hmsix, hdef⟩
    · exact absurd h wide
    · exact absurd h aligned
    · simp [State.busWrite, wide, aligned, hloc, hout]
    · simp [State.busWrite, wide, aligned, hloc, hreach, hmsix, hdef]

theorem exec_registerWrite {s : State} (p : Port) (a : BitVec 20) (v : Word) (w : Width) (hw : Option HwUpdate) (hs : s.aon = true) :
    exec (.registerWrite p a v w hw) s =
      .next { s.commit (s.busWrite p a.toNat v.toNat (decide (w = .word)) (hwBits hw)) with
        limits := lowered s.limits (s.busWrite p a.toNat v.toNat (decide (w = .word)) (hwBits hw)).limits } :=
  State.runLower_on (fun s => s.busWrite p a.toNat v.toNat (decide (w = .word)) (hwBits hw)) hs

/-- A command that may lower limits reads back what it has written to any other field. -/
theorem State.rd_runLower (s n : State) {f : Field} (i j : Nat) (x : Store FieldRef Nat) (h : f.isLimit = false) :
    ({ s.commit n with limits := x } : State).rd f i j = n.rd f i j :=
  ((s.commit n).rd_withLimits x i j h).trans (State.rd_commit s n f i j h)

/-! ## Reads -/

theorem exec_rcRead {s : State} (p : Port) (a : ReadAt) (hw : Option HwUpdate) (hs : s.aon = true) :
    exec (.rcRead p a hw) s = .next (s.commit (s.busRead p a.addr.toNat (widthBytes a.width) (hwBits hw))) :=
  State.run_on (fun s => s.busRead p a.addr.toNat (widthBytes a.width) (hwBits hw)) hs

theorem State.busRead_unmapped (s : State) (p : Port) {a : Nat} (n : Nat) (hw : HwBits) (h : locate (a - a % 4) = none) :
    s.busRead p a n hw = s.returns p 0 := by
  simp only [State.busRead, h]

/-- Settles O8: a discarded write leaves the answer and ACCERR, a read without a block the answer alone. -/
theorem discardedWritesAndEmptyAddresses : Obligations.DiscardedWritesAndEmptyAddresses := by
  refine ⟨fun s p a v w hw hs h => ?_, fun s p a hw hs h => ?_⟩
  · have gone : discarded p a.toNat (decide (w = .word)) := by simpa [discarded] using h
    have bus := s.busWrite_discarded v.toNat (hwBits hw) gone
    refine ⟨_, exec_registerWrite p a v w hw hs, ?_, ?_⟩ <;> rw [bus]
    · rw [State.rd_runLower _ _ _ _ _ rfl]
      exact State.rd_wr_same _ .govStatusAccerr 1 0 0 rfl
    · exact State.onlyChanges_runLower
        (State.onlyChanges_wr (s.onlyChanges_answered p _) .govStatusAccerr 1 0 0 List.mem_cons_self) rfl
  · refine ⟨_, exec_rcRead p a hw hs, ?_, ?_⟩ <;> rw [s.busRead_unmapped p _ _ h]
    · rw [State.port_commit]
      exact State.rdata_returns s p 0
    · exact State.onlyChanges_commit (State.onlyChanges_returns (s.onlyChanges_refl _ _) p 0)

end Sys2Proof.Machine

/-!
Settles O9: what a word written or read comes to, by access kind. A write of a word with one field is a write of that field, the three flags
of GOV.STATUS are written one by one, and a read of ALC.OVERCNT is its word and the clearing of it (R4, R7, R10).
-/

namespace Sys2Proof.Machine

/-! ## Words of one field -/

theorem State.busWrite_creditrsv (s : State) (p : Port) (v : Nat) :
    s.busWrite p 0x0402C v true none = (s.wrote p 0x4000 0x2C).writeField p ⟨.alcCreditrsvRsv, 0, 0⟩ (v / 2 ^ 0 % 2 ^ 32) none := by
  cases p <;> rfl

theorem State.busWrite_overcnt (s : State) (p : Port) (v : Nat) :
    s.busWrite p 0x04030 v true none = (s.wrote p 0x4000 0x30).writeField p ⟨.alcOvercntCount, 0, 0⟩ (v / 2 ^ 0 % 2 ^ 32) none := by
  cases p <;> rfl

theorem State.busWrite_elecpk (s : State) (p : Port) (v : Nat) :
    s.busWrite p 0x04004 v true none = (s.wrote p 0x4000 4).writeField p ⟨.alcElecpkPeak, 0, 0⟩ (v / 2 ^ 0 % 2 ^ 16) none := by
  cases p <;> rfl

/-- Every field of ALC.PKGLIM is read-only, so that a write of its word leaves only the answer. -/
theorem State.busWrite_pkglim (s : State) (p : Port) (v : Nat) : s.busWrite p 0x04000 v true none = s.wrote p 0x4000 0 := by
  cases p <;> rfl

/-- An RW field takes the value, CREDIT.RSV at least 100 000 (R51). -/
theorem State.writeField_creditrsv (s : State) (p : Port) (v : Nat) :
    s.writeField p ⟨.alcCreditrsvRsv, 0, 0⟩ v none = s.wr .alcCreditrsvRsv (max 100000 v) := rfl

theorem State.frozen_wrote (s : State) (p : Port) (base off : Nat) : (s.wrote p base off).frozen = s.frozen :=
  State.wrote_other State.frozen (fun _ _ => rfl) s p base off

/-- An RC field discards a write (R7). -/
theorem State.writeField_overcnt {s : State} (p : Port) (v : Nat) (h : s.frozen = none) :
    s.writeField p ⟨.alcOvercntCount, 0, 0⟩ v none = s := by
  have free : (covered .alcOvercntCount && s.frozen.isSome) = false := by rw [h]; rfl
  have kind : (fieldDef .alcOvercntCount).kind = .rc := rfl
  have may : portMay p ⟨.alcOvercntCount, 0, 0⟩ = true := rfl
  have there : (⟨.alcOvercntCount, 0, 0⟩ : FieldRef).exists = true := rfl
  simp only [State.writeField, there, may, free, kind]
  rfl

/-! ## A limit that lands -/

/-- A command that lowers one listed limit keeps to its list of changes. -/
theorem State.onlyChanges_lowers {s n : State} {l : List FieldRef} {ts : List Tab} (h : s.onlyChanges n l ts) {a : FieldRef} {v : Nat}
    (hn : n.limits = Store.set s.limits a v) (ha : a ∈ l) :
    s.onlyChanges { s.commit n with limits := lowered s.limits n.limits } l ts := by
  obtain ⟨regs, tabs, core⟩ := State.onlyChanges_commit h
  refine ⟨fun r hr => ?_, fun x hx => ?_, core⟩
  · have other : a ≠ r := fun e => hr (e ▸ ha)
    cases hl : r.f.isLimit with
    | false => exact (State.rd_withLimits _ _ r.i r.j hl).trans (regs r hr)
    | true =>
      cases he : r.exists with
      | false => rw [State.reg_absent _ he, State.reg_absent _ he]
      | true => rw [State.reg_limit _ he hl, State.reg_limit _ he hl, hn, lowered_set_other other, get_lowered_self]
  · have same := tabs x hx
    cases x <;> exact same

theorem limitLe_elecpk (a b : Nat) : limitLe .alcElecpkPeak a b = decide (a ≤ b) := rfl

theorem State.writeField_elecpk (s : State) (p : Port) (v : Nat) :
    s.writeField p ⟨.alcElecpkPeak, 0, 0⟩ v none =
      if v ≤ s.rd .alcElecpkPeak then s.wr .alcElecpkPeak v else s.wr .alcStatusRaiserej 1 := by
  rw [State.writeField_limit s p v rfl rfl, State.writeLimit, limitLe_elecpk]
  simp only [decide_eq_true_eq]
  rfl

/-! ## The flags of GOV.STATUS -/

theorem pieces_govStatus (p : Port) :
    pieces p .gov 0 0xFC =
      [⟨⟨.govStatusWrdrop, 0, 0⟩, 0, 0⟩, ⟨⟨.govStatusRaiserej, 0, 0⟩, 1, 0⟩, ⟨⟨.govStatusAccerr, 0, 0⟩, 2, 0⟩] := by
  cases p <;> rfl

/-- A write of the word of GOV.STATUS is a write of its flags one by one, each with what hardware brings to it. -/
theorem State.busWrite_govStatus (s : State) (p : Port) (v : Nat) (hw : HwBits) :
    s.busWrite p 0x000FC v true hw =
      (pieces p .gov 0 0xFC).foldl
        (fun s x => s.writeField p x.ref (v / 2 ^ x.lo % 2 ^ (fieldDef x.ref.f).width) (x.hw hw)) (s.wrote p 0 0xFC) := by
  have loc : locate 0xFC = some (.gov, 0, 0xFC) := rfl
  have reach : reaches p .gov 0xFC = true := by cases p <;> rfl
  have msix : isMsix .gov 0xFC = false := rfl
  have defined : definedWord .gov 0xFC = true := rfl
  have up (t : State) : t.meetsDown p .gov 0xFC = false := rfl
  have parts (t : State) (n : Nat) : t.wholeWord p .gov 0 0xFC n = none := rfl
  have narrow : wideOf (pieces p .gov 0 0xFC) = none := by rw [pieces_govStatus]; rfl
  simp only [State.busWrite, State.wordWrite, loc, reach, msix, defined, up, parts, narrow]
  rfl

/-- A port's write of ones clears an RW1C flag, and hardware that sets it in the same cycle wins (R7, R10). -/
def cleared (flag written : Nat) (hw : Option Nat) : Nat := (flag - (flag &&& written)) ||| hw.getD 0

/-- The last flag of the word is ACCERR, and the writes of the two before it leave it. -/
theorem State.accerr_busWrite (s : State) (p : Port) (v : Nat) (hw : HwBits) :
    (s.busWrite p 0x000FC v true hw).rd .govStatusAccerr =
      cleared (s.rd .govStatusAccerr) (v / 2 ^ 2 % 2) (Piece.hw ⟨⟨.govStatusAccerr, 0, 0⟩, 2, 0⟩ hw) % 2 := by
  have flag (t : State) (f : Field) (x : Nat) (h : Option Nat) (hf : f = .govStatusWrdrop ∨ f = .govStatusRaiserej ∨ f = .govStatusAccerr) :
      t.writeField p ⟨f, 0, 0⟩ x h = t.wr f (cleared (t.rd f) x h) := by
    rcases hf with rfl | rfl | rfl <;> rfl
  have kept : (s.wrote p 0 0xFC).rd .govStatusAccerr = s.rd .govStatusAccerr := (s.onlyChanges_wrote p 0 0xFC []).1 _ List.not_mem_nil
  rw [s.busWrite_govStatus, pieces_govStatus]
  simp only [List.foldl_cons, List.foldl_nil]
  rw [flag _ .govStatusAccerr _ _ (by simp), flag _ .govStatusRaiserej _ _ (by simp), flag _ .govStatusWrdrop _ _ (by simp),
    State.rd_wr_same _ _ _ _ _ rfl, State.rd_wr_field _ _ _ _ _ _ (by decide), State.rd_wr_field _ _ _ _ _ _ (by decide), kept]
  rfl

theorem cleared_none {flag written : Nat} (hf : flag ≤ 1) (hw : written < 2) :
    cleared flag written none % 2 = if written = 1 then 0 else flag := by
  interval_cases flag <;> interval_cases written <;> rfl

theorem cleared_set {flag written : Nat} (hf : flag ≤ 1) (hw : written < 2) : cleared flag written (some 1) % 2 = 1 := by
  interval_cases flag <;> interval_cases written <;> rfl

/-! ## A read of ALC.OVERCNT -/

theorem pieces_overcnt (p : Port) : pieces p .alc 0 0x30 = [⟨⟨.alcOvercntCount, 0, 0⟩, 0, 0⟩] := by
  cases p <;> rfl

/-- A read from any byte of the word returns what it asks for of the counter, and clears all of it. -/
theorem State.busRead_overcnt (s : State) (p : Port) {k : Nat} (n : Nat) (hw : HwBits) (hk : k < 4) :
    s.busRead p (0x04030 + k) n hw =
      (s.clearOnRead ⟨.alcOvercntCount, 0, 0⟩ (Piece.hw ⟨⟨.alcOvercntCount, 0, 0⟩, 0, 0⟩ hw)).returns p
        (readBytes (0x04030 + k) n (s.shown ⟨.alcOvercntCount, 0, 0⟩ % 2 ^ 32)) := by
  have base : 0x04030 + k - (0x04030 + k) % 4 = 0x04030 := by omega
  have word : s.peek p 0x04030 = s.shown ⟨.alcOvercntCount, 0, 0⟩ % 2 ^ 32 := by
    change s.blockWord p .alc 0 0x30 = _
    rw [State.blockWord, pieces_overcnt]
    simp [State.pieceBits]
  have value : s.readValue p .alc 0 0x30 0x04030 = s.peek p 0x04030 := by
    have whole : halfOf p .alc 0 0x30 = none := by cases p <;> rfl
    simp [State.readValue, whole]
  rw [← word, ← value]
  unfold State.busRead
  rw [base]
  cases p <;> rfl

theorem State.shown_overcnt {s : State} (h : s.frozen = none) : s.shown ⟨.alcOvercntCount, 0, 0⟩ = s.rd .alcOvercntCount := by
  have there : (!(⟨.alcOvercntCount, 0, 0⟩ : FieldRef).exists || decide ((fieldDef .alcOvercntCount).kind = .wo)) = false := rfl
  simp only [State.shown, h, there]
  rfl

/-- What a cleared counter holds: what hardware adds in the same cycle, and else nothing (R10). -/
theorem State.clearOnRead_overcnt {s : State} (hw : Option Nat) (h : s.frozen = none) :
    s.clearOnRead ⟨.alcOvercntCount, 0, 0⟩ hw = s.wr .alcOvercntCount (min (hw.getD 0) (2 ^ 32 - 1)) := by
  have free : (covered .alcOvercntCount && s.frozen.isSome) = false := by rw [h]; rfl
  have kind : decide ((fieldDef .alcOvercntCount).kind ≠ .rc) = false := rfl
  simp only [State.clearOnRead, free, kind]
  cases hw with
  | none => rfl
  | some x =>
    have merge : merged .alcOvercntCount 0 x = min x (2 ^ 32 - 1) := by
      change min (0 + x) (2 ^ 32 - 1) = _
      rw [Nat.zero_add]
    change s.wr .alcOvercntCount (merged .alcOvercntCount 0 x) = _
    rw [merge]
    rfl

/-- What hardware adds to a counter that fills its word, as the word of the update says it. -/
theorem hw_overcnt (h : HwUpdate) :
    (Piece.hw ⟨⟨.alcOvercntCount, 0, 0⟩, 0, 0⟩ (hwBits (some h))).getD 0 = if h.fields.toNat = 0 then 0 else h.val.toNat := by
  have fields : h.fields.toNat / 2 ^ 0 % 2 ^ 32 = h.fields.toNat := by have := h.fields.isLt; omega
  have val : h.val.toNat / 2 ^ 0 % 2 ^ 32 = h.val.toNat := by have := h.val.isLt; omega
  change (if h.fields.toNat / 2 ^ 0 % 2 ^ 32 = 0 then none else some (h.val.toNat / 2 ^ 0 % 2 ^ 32)).getD 0 = _
  rw [fields, val]
  split <;> rfl

/-! ## The access kinds -/

theorem creditrsv_lands {s : State} (p : Port) (v : Word) (hs : s.aon = true) :
    ∃ t, exec (.registerWrite p 0x0402C v .word none) s = .next t ∧ t.rd .alcCreditrsvRsv = max 100000 v.toNat ∧
      s.onlyChanges t [⟨.alcCreditrsvRsv, 0, 0⟩] [.ports] := by
  have word : v.toNat / 2 ^ 0 % 2 ^ 32 = v.toNat := by have := v.isLt; omega
  have bus : s.busWrite p 0x0402C v.toNat true none = (s.wrote p 0x4000 0x2C).wr .alcCreditrsvRsv (max 100000 v.toNat) := by
    rw [State.busWrite_creditrsv, State.writeField_creditrsv, word]
  have fits : max 100000 v.toNat % 2 ^ 32 = max 100000 v.toNat := by have := v.isLt; omega
  refine ⟨_, exec_registerWrite_word p 0x0402C v hs, ?_, ?_⟩ <;>
    rw [show BitVec.toNat (0x0402C : BitVec 20) = 0x0402C from rfl, bus]
  · rw [State.rd_runLower _ _ _ _ _ rfl, State.rd_wr_same _ _ _ _ _ rfl]
    exact fits
  · exact State.onlyChanges_runLower (State.onlyChanges_wr (s.onlyChanges_wrote p _ _ _) .alcCreditrsvRsv _ 0 0 List.mem_cons_self)
      ((State.wr_limits _ _ _ _ _ rfl).trans (s.wrote_limits p _ _))

theorem pkglim_discards {s : State} (p : Port) (v : Word) (hs : s.aon = true) :
    ∃ t, exec (.registerWrite p 0x04000 v .word none) s = .next t ∧ s.onlyChanges t [] [.ports] := by
  refine ⟨_, exec_registerWrite_word p 0x04000 v hs, ?_⟩
  rw [show BitVec.toNat (0x04000 : BitVec 20) = 0x04000 from rfl, State.busWrite_pkglim]
  exact State.onlyChanges_runLower (s.onlyChanges_wrote p _ _ _) (s.wrote_limits p _ _)

theorem overcnt_discards {s : State} (p : Port) (v : Word) (hs : s.aon = true) (hf : s.frozen = none) :
    ∃ t, exec (.registerWrite p 0x04030 v .word none) s = .next t ∧ s.onlyChanges t [] [.ports] := by
  refine ⟨_, exec_registerWrite_word p 0x04030 v hs, ?_⟩
  rw [show BitVec.toNat (0x04030 : BitVec 20) = 0x04030 from rfl, State.busWrite_overcnt,
    State.writeField_overcnt p _ ((s.frozen_wrote p _ _).trans hf)]
  exact State.onlyChanges_runLower (s.onlyChanges_wrote p _ _ _) (s.wrote_limits p _ _)

theorem elecpk_lowers {s : State} (p : Port) (v : Word) (hs : s.aon = true) :
    ∃ t, exec (.registerWrite p 0x04004 v .word none) s = .next t ∧
      if v.toNat % 2 ^ 16 ≤ s.rd .alcElecpkPeak then
        t.rd .alcElecpkPeak = v.toNat % 2 ^ 16 ∧ s.onlyChanges t [⟨.alcElecpkPeak, 0, 0⟩] [.ports]
      else t.rd .alcStatusRaiserej = 1 ∧ s.onlyChanges t [⟨.alcStatusRaiserej, 0, 0⟩] [.ports] := by
  have same : (s.wrote p 0x4000 4).rd .alcElecpkPeak = s.rd .alcElecpkPeak := (s.onlyChanges_wrote p _ _ []).1 _ List.not_mem_nil
  have bus : s.busWrite p 0x04004 v.toNat true none =
      if v.toNat % 2 ^ 16 ≤ s.rd .alcElecpkPeak then (s.wrote p 0x4000 4).wr .alcElecpkPeak (v.toNat % 2 ^ 16)
      else (s.wrote p 0x4000 4).wr .alcStatusRaiserej 1 := by
    rw [State.busWrite_elecpk, State.writeField_elecpk, same, pow_zero, Nat.div_one]
  refine ⟨_, exec_registerWrite_word p 0x04004 v hs, ?_⟩
  rw [show BitVec.toNat (0x04004 : BitVec 20) = 0x04004 from rfl, bus]
  split
  · next low =>
    have lands : ((s.wrote p 0x4000 4).wr .alcElecpkPeak (v.toNat % 2 ^ 16)).limits =
        Store.set s.limits ⟨.alcElecpkPeak, 0, 0⟩ (v.toNat % 2 ^ 16) := by
      rw [State.wr, State.put_limits _ _ rfl rfl, s.wrote_limits]
      exact congrArg _ (Nat.mod_mod _ _)
    have within : limitLe .alcElecpkPeak (v.toNat % 2 ^ 16) (Store.get FieldRef.reset s.limits ⟨.alcElecpkPeak, 0, 0⟩) = true :=
      decide_eq_true low
    refine ⟨?_, State.onlyChanges_lowers (State.onlyChanges_wr (s.onlyChanges_wrote p _ _ _) _ _ 0 0 List.mem_cons_self) lands
      List.mem_cons_self⟩
    rw [State.rd, State.reg_limit _ rfl rfl, lands]
    exact lowered_set_same within
  · refine ⟨?_, State.onlyChanges_runLower (State.onlyChanges_wr (s.onlyChanges_wrote p _ _ _) _ _ 0 0 List.mem_cons_self)
      ((State.wr_limits _ _ _ _ _ rfl).trans (s.wrote_limits p _ _))⟩
    rw [State.rd_runLower _ _ _ _ _ rfl]
    exact State.rd_wr_same _ .alcStatusRaiserej 1 0 0 rfl

theorem accerr_registerWrite {s : State} (p : Port) (v : Word) (hw : Option HwUpdate) (hs : s.aon = true) :
    ∃ t, exec (.registerWrite p 0x000FC v .word hw) s = .next t ∧ t.rd .govStatusAccerr =
      cleared (s.rd .govStatusAccerr) (v.toNat / 2 ^ 2 % 2) (Piece.hw ⟨⟨.govStatusAccerr, 0, 0⟩, 2, 0⟩ (hwBits hw)) % 2 :=
  ⟨_, exec_registerWrite p 0x000FC v .word hw hs,
    (State.rd_runLower _ _ _ _ _ rfl).trans (s.accerr_busWrite p v.toNat (hwBits hw))⟩

theorem overcnt_read {s : State} (p : Port) (w : Width) {k : Nat} (hw : Option HwUpdate) (hs : s.aon = true) (hf : s.frozen = none)
    (hk : k < 4) :
    ∃ t, exec (.rcRead p ⟨BitVec.ofNat 20 (0x04030 + k), w⟩ hw) s = .next t ∧
      (t.port p).rdata = s.rd .alcOvercntCount % 2 ^ 32 / 2 ^ (8 * k) % 2 ^ (8 * widthBytes w) ∧
      t.rd .alcOvercntCount =
        (match hw with | some h => if h.fields.toNat = 0 then 0 else min h.val.toNat (2 ^ 32 - 1) | none => 0) ∧
      s.onlyChanges t [⟨.alcOvercntCount, 0, 0⟩] [.ports] := by
  have addr : (BitVec.ofNat 20 (0x04030 + k)).toNat = 0x04030 + k := by
    rw [BitVec.toNat_ofNat, Nat.mod_eq_of_lt (by omega)]
  have byte : (0x04030 + k) % 4 = k := by omega
  refine ⟨_, exec_rcRead p ⟨BitVec.ofNat 20 (0x04030 + k), w⟩ hw hs, ?_, ?_, ?_⟩ <;> simp only [addr] <;>
    rw [s.busRead_overcnt p _ _ hk, State.clearOnRead_overcnt _ hf, State.shown_overcnt hf]
  · rw [State.port_commit, State.rdata_returns, readBytes, byte]
  · rw [State.rd_commit _ _ _ _ _ rfl, State.returns, State.rd_updPort, State.rd_wr_same _ _ _ _ _ rfl]
    have fits (n : Nat) : min n (2 ^ 32 - 1) % 2 ^ 32 = min n (2 ^ 32 - 1) := by omega
    refine (fits _).trans ?_
    cases hw with
    | none => rfl
    | some h =>
      rw [hw_overcnt]
      dsimp only
      split <;> simp
  · exact State.onlyChanges_commit (State.onlyChanges_returns
      (State.onlyChanges_wr (s.onlyChanges_refl _ _) .alcOvercntCount _ 0 0 List.mem_cons_self) p _)

/-- Settles O9: one word for each access kind, the flags of GOV.STATUS with and without hardware's update, and the RC counter read. -/
theorem accessKindsLand : Obligations.AccessKindsLand := by
  refine ⟨fun s p v hs hf => ⟨creditrsv_lands p v hs, pkglim_discards p v hs, overcnt_discards p v hs hf, elecpk_lowers p v hs⟩,
    fun s p v hs hacc => ?_, fun s p w k hw hs hf hk => overcnt_read p w hw hs hf hk⟩
  have bit : v.toNat / 2 ^ 2 % 2 < 2 := Nat.mod_lt _ (by decide)
  obtain ⟨t, ht, lands⟩ := accerr_registerWrite p v none hs
  obtain ⟨u, hu, stays⟩ := accerr_registerWrite p v (some ⟨0xFFFFFFFF, 0xFFFFFFFF⟩) hs
  exact ⟨⟨t, ht, lands.trans (cleared_none hacc bit)⟩, u, hu, stays.trans (cleared_set hacc bit)⟩

end Sys2Proof.Machine

/-!
Settles O10: the two halves of ALC.CREDIT and of QEA ENERGY. The read latch and the held lower half stand in a port's tables, each under the
address of the lower half (R6).
-/

namespace Sys2Proof.Machine

/-! ## The latch of ALC.CREDIT -/

theorem pieces_creditLower (p : Port) : pieces p .alc 0 0x24 = [⟨⟨.alcCredit, 0, 0⟩, 0, 0⟩] := by
  cases p <;> rfl

theorem pieces_creditUpper (p : Port) : pieces p .alc 0 0x28 = [⟨⟨.alcCredit, 0, 0⟩, 0, 1⟩] := by
  cases p <;> rfl

theorem State.peek_creditLower (s : State) (p : Port) : s.peek p 0x04024 = s.rd .alcCredit % 2 ^ 32 := by
  change s.blockWord p .alc 0 0x24 = _
  rw [State.blockWord, pieces_creditLower]
  simp [State.pieceBits]
  rfl

theorem State.peek_creditUpper (s : State) (p : Port) : s.peek p 0x04028 = s.rd .alcCredit / 2 ^ 32 % 2 ^ 32 := by
  change s.blockWord p .alc 0 0x28 = _
  rw [State.blockWord, pieces_creditUpper]
  simp [State.pieceBits]
  rfl

/-- The port with the upper half of ALC.CREDIT latched. -/
def State.creditLatched (s : State) (p : Port) : State :=
  s.updPort p fun x => { x with latch := Store.insert natLt 0x04024 (s.rd .alcCredit / 2 ^ 32 % 2 ^ 32) x.latch }

theorem State.busRead_creditLower (s : State) (p : Port) :
    s.busRead p 0x04024 4 none = (s.creditLatched p).returns p (s.rd .alcCredit % 2 ^ 32) := by
  have word : readBytes 0x04024 4 (s.peek p 0x04024) = s.rd .alcCredit % 2 ^ 32 := by
    rw [s.peek_creditLower, readBytes]
    norm_num
  have latched : s.creditLatched p =
      s.updPort p fun x => { x with latch := Store.insert natLt 0x04024 (s.peek p (0x04024 + 4)) x.latch } := by
    rw [State.creditLatched, s.peek_creditUpper]
  rw [← word, latched]
  cases p <;> rfl

theorem State.busRead_creditUpper (s : State) (p : Port) :
    s.busRead p 0x04028 4 none = s.returns p (readBytes 0x04028 4 (Store.get (fun _ => 0) (s.port p).latch 0x04024)) := by
  cases p <;> rfl

theorem exec_lowerHalfRead {s : State} (p : Port) (a : ReadAt) (hs : s.aon = true) :
    exec (.lowerHalfRead p a) s = .next (s.commit (s.busRead p a.addr.toNat (widthBytes a.width) none)) :=
  State.run_on (fun s => s.busRead p a.addr.toNat (widthBytes a.width) none) hs

theorem State.latch_creditLatched (s : State) (p : Port) (v : Nat) :
    Store.get (fun _ => 0) ((s.creditLatched p).returns p v |>.port p).latch 0x04024 = s.rd .alcCredit / 2 ^ 32 % 2 ^ 32 := by
  simp [State.returns, State.creditLatched, State.port_updPort, Store.get_insert]

/-- A read of the lower half latches the upper one for its port alone. -/
theorem credit_halves {s : State} (p : Port) (hs : s.aon = true) :
    ∃ t, exec (.lowerHalfRead p ⟨0x04024, .word⟩) s = .next t ∧ (t.port p).rdata = s.rd .alcCredit % 2 ^ 32 ∧
      s.onlyChanges t [] [.ports] ∧ (∀ q, q ≠ p → t.port q = s.port q) ∧
      ∀ u : State, u.aon = true → u.port p = t.port p →
        ∃ x, exec (.rcRead p ⟨0x04028, .word⟩ none) u = .next x ∧ (x.port p).rdata = s.rd .alcCredit / 2 ^ 32 % 2 ^ 32 := by
  have bus : s.busRead p (BitVec.toNat (0x04024 : BitVec 20)) (widthBytes .word) none =
      (s.creditLatched p).returns p (s.rd .alcCredit % 2 ^ 32) := s.busRead_creditLower p
  refine ⟨_, exec_lowerHalfRead p _ hs, ?_, ?_, fun q hq => ?_, fun u hu same => ?_⟩
  · rw [bus, State.port_commit, State.rdata_returns]
  · rw [bus]
    exact State.onlyChanges_commit (State.onlyChanges_returns (State.onlyChanges_ports (s.onlyChanges_refl _ _) _ List.mem_cons_self) p _)
  · rw [bus, State.port_commit]
    simp [State.returns, State.creditLatched, State.port_updPort, hq.symm]
  · have latched : Store.get (fun _ => 0) (u.port p).latch 0x04024 = s.rd .alcCredit / 2 ^ 32 % 2 ^ 32 := by
      rw [same, bus, State.port_commit, s.latch_creditLatched p]
    have read : u.busRead p (BitVec.toNat (0x04028 : BitVec 20)) (widthBytes .word) none =
        u.returns p (readBytes 0x04028 4 (s.rd .alcCredit / 2 ^ 32 % 2 ^ 32)) := by
      rw [← latched]
      exact u.busRead_creditUpper p
    refine ⟨_, exec_rcRead p ⟨0x04028, .word⟩ none hu, ?_⟩
    change ((u.commit (u.busRead p (BitVec.toNat (0x04028 : BitVec 20)) (widthBytes .word) none)).port p).rdata = _
    rw [read, State.port_commit, State.rdata_returns, readBytes]
    norm_num

/-! ## The held half of QEA ENERGY -/

/-- Where the accumulator of a queue stands in the window (R70). -/
def energyAddr (q : Nat) : Nat := 0x80000 + 16 * q

theorem locate_energy {q o : Nat} (hq : q < 16384) (ho : o < 16) : locate (energyAddr q + o) = some (.qea, q, o) := by
  have slot : (energyAddr q + o - 0x80000) / 0x10 = q := by unfold energyAddr; omega
  have off : (energyAddr q + o) % 0x10 = o := by unfold energyAddr; omega
  have low : 0x80000 ≤ energyAddr q + o := by unfold energyAddr; omega
  have high : energyAddr q + o < 0xC0000 := by unfold energyAddr; omega
  unfold locate
  rw [slot, off, if_neg (by omega), if_neg (by omega), if_neg (by omega), if_neg (by omega), if_neg (by omega), if_pos high]

/-- A half of ENERGY written by a port, once what it held elsewhere in the register has been dropped. -/
theorem State.busWrite_energy (s : State) (p : Port) {q h : Nat} (v : Nat) (hq : q < 16384) (hh : h < 2) :
    s.busWrite p (energyAddr q + 4 * h) v true none =
      (s.wrote p (energyAddr q) (4 * h)).halfWrite p ⟨⟨.qeaEnergy, q, 0⟩, 0, h⟩ (energyAddr q) (energyAddr q + 4 * h) v none := by
  have aligned : (energyAddr q + 4 * h) % 4 = 0 := by unfold energyAddr; omega
  have base : energyAddr q + 4 * h - 4 * h = energyAddr q := by omega
  have loc := locate_energy (o := 4 * h) hq (by omega)
  have msix : isMsix .qea (4 * h) = false := rfl
  have up (t : State) : t.meetsDown p .qea (4 * h) = false := rfl
  have parts (t : State) (n : Nat) : t.wholeWord p .qea q (4 * h) n = none := rfl
  have reach : reaches p .qea (4 * h) = true := by cases p <;> rfl
  have defined : definedWord .qea (4 * h) = true := by interval_cases h <;> rfl
  have piece : wideOf (pieces p .qea q (4 * h)) = some ⟨⟨.qeaEnergy, q, 0⟩, 0, h⟩ := by
    interval_cases h <;> cases p <;> rfl
  simp only [State.busWrite, State.wordWrite, loc, aligned, msix, up, parts, reach, defined, piece, State.hwWord_none, base, State.wrote]
  rfl

theorem State.heldHalf_wrote_none {s : State} {p : Port} {base : Nat} (off : Nat) (h : s.heldHalf p base = none) :
    (s.wrote p base off).heldHalf p base = none := by
  have same : (s.answered p).heldHalf p base = s.heldHalf p base := by simp [State.heldHalf, State.answered, State.port_updPort]
  simp only [State.wrote, State.dropHeld, same, h]

/-- A write to the upper half keeps the lower half that stands at the register's own address. -/
theorem State.heldHalf_wrote_upper {s : State} {p : Port} {base x : Nat} (h : s.heldHalf p base = some (base, x)) :
    (s.wrote p base 4).heldHalf p base = some (base, x) := by
  have same : (s.answered p).heldHalf p base = s.heldHalf p base := by simp [State.heldHalf, State.answered, State.port_updPort]
  simp only [State.wrote, State.dropHeld, same, h, decide_true, Bool.or_true, if_true]

theorem State.heldHalf_setHeld (s : State) (p : Port) (base : Nat) (x : Option (Nat × Nat)) : (s.setHeld p base x).heldHalf p base = x := by
  cases x <;> simp [State.heldHalf, State.setHeld, State.port_updPort, Store.get_insert, Store.get_drop]

theorem State.onlyChanges_setHeld {s n : State} {l : List FieldRef} (h : s.onlyChanges n l [.ports]) (p : Port) (base : Nat)
    (x : Option (Nat × Nat)) : s.onlyChanges (n.setHeld p base x) l [.ports] :=
  State.onlyChanges_ports h _ List.mem_cons_self

theorem State.heldHalf_put (s : State) (r : FieldRef) (v : Nat) (p : Port) (base : Nat) : (s.put r v).heldHalf p base = s.heldHalf p base :=
  State.put_other (fun t => t.heldHalf p base) (fun _ _ => rfl) (fun _ _ => rfl) s r v

theorem State.heldHalf_runLower (s n : State) (x : Store FieldRef Nat) (p : Port) (base : Nat) :
    ({ s.commit n with limits := x } : State).heldHalf p base = n.heldHalf p base := by
  change Store.get _ ((s.commit n).port p).held base = _
  rw [State.port_commit, State.heldHalf]

/-- The lower half that goes with a write to the upper one: the half that the port holds, or else that of the register. -/
def State.lowerHalf (s : State) (p : Port) (q : Nat) : Nat :=
  ((s.heldHalf p (energyAddr q)).map Prod.snd).getD (s.rd .qeaEnergy q % 2 ^ 32)

theorem State.halfWrite_upper (s : State) (p : Port) (q a w : Nat) :
    s.halfWrite p ⟨⟨.qeaEnergy, q, 0⟩, 0, 1⟩ (energyAddr q) a w none =
      (s.setHeld p (energyAddr q) none).writeField p ⟨.qeaEnergy, q, 0⟩ (w * 2 ^ 32 + s.lowerHalf p q) none := by
  have may : portMay p ⟨.qeaEnergy, q, 0⟩ = true := rfl
  have kind : (fieldDef .qeaEnergy).kind = .rw := rfl
  have quiet : Piece.hw ⟨⟨.qeaEnergy, q, 0⟩, 0, 1⟩ none = none := rfl
  have lower : (match s.heldHalf p (energyAddr q) with | some h => h.2 | none => s.reg ⟨.qeaEnergy, q, 0⟩ % 2 ^ 32) = s.lowerHalf p q := by
    unfold State.lowerHalf
    cases s.heldHalf p (energyAddr q) <;> rfl
  simp only [State.halfWrite, may, kind, quiet, Bool.not_true, reduceCtorEq, decide_false, Bool.or_self, Bool.false_eq_true, if_false,
    Nat.one_ne_zero]
  exact congrArg (fun n => (s.setHeld p (energyAddr q) none).writeField p ⟨.qeaEnergy, q, 0⟩ (w * 2 ^ 32 + n) none) lower

section Energy
variable {s : State} {p : Port} {q : Nat} (hq : q < 16384)
include hq

theorem energy_exists : (⟨.qeaEnergy, q, 0⟩ : FieldRef).exists = true := by
  have one : Field.instances .qeaEnergy = 16384 := rfl
  have single : (fieldDef .qeaEnergy).count = 1 := rfl
  have blk : (fieldDef .qeaEnergy).blk = .qea := rfl
  simp [FieldRef.exists, one, single, blk, hq]

theorem State.busWrite_energyLower (s : State) (p : Port) (v : Nat) :
    s.busWrite p (energyAddr q) v true none = (s.wrote p (energyAddr q) 0).setHeld p (energyAddr q) (some (energyAddr q, v)) :=
  (s.busWrite_energy p (h := 0) v hq (by decide)).trans rfl

/-- The whole value in force once the upper half is written. -/
theorem State.busWrite_energyUpper (p : Port) {w : Nat} (hw : w < 2 ^ 32) (hf : s.frozen = none)
    (hl : (s.wrote p (energyAddr q) 4).lowerHalf p q < 2 ^ 32) :
    s.busWrite p (energyAddr q + 4) w true none =
      ((s.wrote p (energyAddr q) 4).setHeld p (energyAddr q) none).wr .qeaEnergy
        (w * 2 ^ 32 + (s.wrote p (energyAddr q) 4).lowerHalf p q) q := by
  have there := energy_exists hq
  have may : portMay p ⟨.qeaEnergy, q, 0⟩ = true := rfl
  have kind : (fieldDef .qeaEnergy).kind = .rw := rfl
  have counter : isCounter .qeaEnergy = true := rfl
  have free : ((s.wrote p (energyAddr q) 4).setHeld p (energyAddr q) none).frozen = none := (s.frozen_wrote p _ _).trans hf
  have whole (n : Nat) (hn : n < 2 ^ 64) : merged .qeaEnergy n 0 = n := by
    change min (n + 0) (2 ^ 64 - 1) = _
    omega
  refine (s.busWrite_energy p (h := 1) w hq (by decide)).trans ((State.halfWrite_upper (s.wrote p (energyAddr q) 4) p q _ w).trans ?_)
  simp only [State.writeField, there, may, free, kind, counter, Option.isSome_none, Bool.and_false]
  exact congrArg (State.put _ _) (whole _ (by omega))

end Energy

theorem exec_upperHalfWrite {s : State} (p : Port) (a : BitVec 20) (v : Word) (hs : s.aon = true) :
    exec (.upperHalfWrite p a v) s =
      .next { s.commit (s.busWrite p a.toNat v.toNat true none) with
        limits := lowered s.limits (s.busWrite p a.toNat v.toNat true none).limits } :=
  State.runLower_on (fun s => s.busWrite p a.toNat v.toNat true none) hs

/-- What a write to the upper half leaves, whichever lower half goes with it. -/
theorem energyUpper_lands {s : State} (p : Port) {q : Nat} (w : Word) (hs : s.aon = true) (hf : s.frozen = none) (hq : q < 16384)
    {lower : Nat} (hl : lower < 2 ^ 32) (held : (s.wrote p (energyAddr q) 4).lowerHalf p q = lower) :
    ∃ t, exec (.upperHalfWrite p (BitVec.ofNat 20 (0x80004 + 16 * q)) w) s = .next t ∧
      t.rd .qeaEnergy q = w.toNat * 2 ^ 32 + lower ∧ t.heldHalf p (energyAddr q) = none ∧
      s.onlyChanges t [⟨.qeaEnergy, q, 0⟩] [.ports] := by
  have addr : (BitVec.ofNat 20 (0x80004 + 16 * q)).toNat = energyAddr q + 4 := by
    rw [BitVec.toNat_ofNat, Nat.mod_eq_of_lt (by omega), energyAddr]; omega
  have bus := State.busWrite_energyUpper hq p w.isLt hf (held ▸ hl)
  have fits : w.toNat * 2 ^ 32 + lower < 2 ^ 64 := by have := w.isLt; omega
  refine ⟨_, exec_upperHalfWrite p _ w hs, ?_, ?_, ?_⟩ <;> rw [addr, bus, held]
  · rw [State.rd_runLower _ _ _ _ _ rfl, State.rd_wr_same _ _ _ _ _ (energy_exists hq)]
    exact Nat.mod_eq_of_lt fits
  · rw [State.heldHalf_runLower, State.wr, State.heldHalf_put, State.heldHalf_setHeld]
  · exact State.onlyChanges_runLower
      (State.onlyChanges_wr (State.onlyChanges_setHeld (s.onlyChanges_wrote p _ _ _) p _ _) .qeaEnergy _ q 0 List.mem_cons_self)
      ((State.wr_limits _ _ _ _ _ rfl).trans (s.wrote_limits p _ _))

theorem energyLower_held {s : State} (p : Port) {q : Nat} (v : Word) (hs : s.aon = true) (hq : q < 16384) :
    ∃ t, exec (.registerWrite p (BitVec.ofNat 20 (energyAddr q)) v .word none) s = .next t ∧
      t.heldHalf p (energyAddr q) = some (energyAddr q, v.toNat) ∧ s.onlyChanges t [] [.ports] := by
  have addr : (BitVec.ofNat 20 (energyAddr q)).toNat = energyAddr q := by
    rw [BitVec.toNat_ofNat, Nat.mod_eq_of_lt (by unfold energyAddr; omega)]
  refine ⟨_, exec_registerWrite_word p _ v hs, ?_, ?_⟩ <;> rw [addr, State.busWrite_energyLower hq]
  · rw [State.heldHalf_runLower, State.heldHalf_setHeld]
  · exact State.onlyChanges_runLower (State.onlyChanges_setHeld (s.onlyChanges_wrote p _ _ _) p _ _) (s.wrote_limits p _ _)

theorem State.lowerHalf_held {s : State} {p : Port} {q x : Nat} (h : s.heldHalf p (energyAddr q) = some (energyAddr q, x)) :
    (s.wrote p (energyAddr q) 4).lowerHalf p q = x := by
  rw [State.lowerHalf, State.heldHalf_wrote_upper h]
  rfl

theorem State.lowerHalf_none {s : State} {p : Port} {q : Nat} (h : s.heldHalf p (energyAddr q) = none) :
    (s.wrote p (energyAddr q) 4).lowerHalf p q = s.rd .qeaEnergy q % 2 ^ 32 := by
  have same : (s.wrote p (energyAddr q) 4).rd .qeaEnergy q = s.rd .qeaEnergy q := (s.onlyChanges_wrote p _ _ []).1 _ List.not_mem_nil
  rw [State.lowerHalf, State.heldHalf_wrote_none 4 h, same]
  rfl

/-- Settles O10: the latch of a read of ALC.CREDIT, and the three writes to halves of ENERGY. -/
theorem halvesOfWideRegisters : Obligations.HalvesOfWideRegisters := by
  refine ⟨fun s p hs => credit_halves p hs, fun s p q v w hs hf => ⟨energyLower_held p v hs q.isLt, fun x held hx => ?_, fun held => ?_⟩⟩
  · exact energyUpper_lands p w hs hf q.isLt hx (State.lowerHalf_held held)
  · obtain ⟨t, ht, whole, -, frame⟩ := energyUpper_lands p w hs hf q.isLt (Nat.mod_lt _ (by decide)) (State.lowerHalf_none held)
    exact ⟨t, ht, whole, frame⟩

end Sys2Proof.Machine

/-!
Settles O11: the FATAL latch. A notice reaches less of the state than a fault, a change of service state a little more than a notice, and
entry into the floor state its own fields; what none of them touches stands as the latch has left it (R281, R286).
-/

namespace Sys2Proof.Machine

/-! ## What a notice reaches -/

/-- The fields that a notice or an event may write: those of the completion rings and the mailboxes, and the count of events lost. -/
def noticeField (f : Field) : Bool :=
  match f with
  | .hifRsStatNotelost | .hifRsCplpi | .hifMbPtr | .hifMbTag | .hifMbStatFull | .hifMbStatCollision | .atcHeldlost => true
  | _ => false

/-- A reading of the state that notices and events do not touch. -/
structure NoticeBlind {α : Type} (g : State → α) : Prop where
  put : ∀ s (r : FieldRef) v, noticeField r.f = true → g (s.put r v) = g s
  rings : ∀ s x, g { s with rings := x } = g s
  msix : ∀ s x, g { s with msix := x } = g s
  msixOut : ∀ s x, g { s with msixOut := x } = g s
  dma : ∀ s x, g { s with dma := x } = g s
  i3c : ∀ s x, g { s with i3c := x } = g s
  mbBad : ∀ s x, g { s with mbBad := x } = g s
  inject : ∀ s x, g { s with inject := x } = g s
  fwInt : ∀ s x, g { s with fwInt := x } = g s
  attic : ∀ s x, g { s with attic := x } = g s

section Notices
variable {α : Type} {g : State → α} (hg : NoticeBlind g)
include hg

theorem wr_notice (s : State) (f : Field) (v i j : Nat) (h : noticeField f = true) : g (s.wr f v i j) = g s :=
  hg.put s ⟨f, i, j⟩ v h

theorem updRing_notice (s : State) (n : Nat) (f : RingState → RingState) : g (s.updRing n f) = g s :=
  hg.rings s _

theorem sendVector_notice (s : State) (p : Port) (v : Nat) : g (s.sendVector p v) = g s := by
  unfold State.sendVector
  split
  · exact hg.msix s _
  · exact hg.msixOut s _

theorem cplWritten_notice (s : State) (n : Nat) (urgent : Bool) : g (s.cplWritten n urgent) = g s := by
  unfold State.cplWritten
  split
  · exact (updRing_notice hg _ _ _).trans (sendVector_notice hg _ _ _)
  · exact updRing_notice hg _ _ _

theorem putCpl_notice (s : State) (n first : Nat) (rest : List Word) : g (s.putCpl n first rest) = g s := by
  have written (t : State) (p : Port) (a x : Nat) (y : List Word) : g (t.writeEntry p a x y) = g t := hg.dma t _
  unfold State.putCpl
  dsimp only
  split
  · rw [updRing_notice hg, wr_notice hg _ _ _ _ _ rfl, written]
  · rw [wr_notice hg _ _ _ _ _ rfl, written]

theorem noticeTo_notice (s : State) (ncode seq detail n : Nat) : g (s.noticeTo ncode seq detail n) = g s := by
  unfold State.noticeTo
  split
  · split
    · rw [updRing_notice hg, wr_notice hg _ _ _ _ _ rfl]
    · dsimp only
      rw [cplWritten_notice hg, updRing_notice hg, putCpl_notice hg]
  · rfl

theorem noticePart_notice (s : State) (ncode seq detail p : Nat) : g (s.noticePart ncode seq detail p) = g s := by
  unfold State.noticePart
  dsimp only
  split
  · split
    · exact noticeTo_notice hg _ _ _ _ _
    · rw [noticeTo_notice hg, noticeTo_notice hg]
  · exact noticeTo_notice hg _ _ _ _ _

theorem raiseIbi_notice (s : State) (byte : Nat) : g (s.raiseIbi byte) = g s := by
  unfold State.raiseIbi
  split
  · exact hg.i3c s _
  · rfl

theorem mbPost_notice (s : State) (m : Nat) : g (s.mbPost m) = g s := by
  have collided : g (if s.flag .hifMbStatFull 0 m then s.wr .hifMbStatCollision 1 0 m else s) = g s := by
    split
    · exact wr_notice hg _ _ _ _ _ rfl
    · rfl
  have again (t : State) (b : Bool) (v : Nat) : g (if b = true then t.sendVector t.mbPort v else t) = g t := by
    split
    · exact sendVector_notice hg _ _ _
    · rfl
  unfold State.mbPost
  dsimp only
  split
  · rw [sendVector_notice hg, again, wr_notice hg _ _ _ _ _ rfl, collided]
  · split
    · rw [raiseIbi_notice hg, again, wr_notice hg _ _ _ _ _ rfl, collided]
    · rw [hg.fwInt, again, wr_notice hg _ _ _ _ _ rfl, collided]

theorem mbNotice_notice (s : State) (m ncode detail : Nat) : g (s.mbNotice m ncode detail) = g s := by
  have parity (t : State) : g (t.mbParity m) = g t := by
    unfold State.mbParity
    split
    · exact (hg.inject { t with mbBad := m :: t.mbBad.filter (· ≠ m) } _).trans (hg.mbBad t _)
    · exact hg.mbBad t _
  rw [State.mbNotice, mbPost_notice hg, parity, wr_notice hg _ _ _ _ _ rfl, wr_notice hg _ _ _ _ _ rfl]

theorem noticeAll_notice (s : State) (ncode detail : Nat) : g (s.noticeAll ncode detail) = g s := by
  have sent := each_blind (g := g) (upto 16) (fun t n => t.noticeTo ncode 0 detail n) (fun t n => noticeTo_notice hg t ncode 0 detail n) s
  unfold State.noticeAll
  dsimp only
  split
  · rw [mbNotice_notice hg, sent]
  · exact sent

theorem event_notice (s : State) (code sev unit : Nat) (part : Option Nat) : g (s.event code sev unit part) = g s := by
  unfold State.event
  split
  · exact hg.attic s _
  · exact wr_notice hg _ _ _ _ _ rfl

end Notices

/-- Any register field but those of notices. -/
theorem notice_rd {f : Field} (i j : Nat) (h : noticeField f = false) : NoticeBlind fun s : State => s.rd f i j where
  put s r v hr := State.reg_put_other s v (by rintro rfl; exact absurd hr (by rw [h]; exact Bool.false_ne_true))
  rings _ _ := rfl
  msix _ _ := rfl
  msixOut _ _ := rfl
  dma _ _ := rfl
  i3c _ _ := rfl
  mbBad _ _ := rfl
  inject _ _ := rfl
  fwInt _ _ := rfl
  attic _ _ := rfl

/-- Any reading that no register and no queue to a partner carries. -/
theorem notice_of {α : Type} {g : State → α} (hr : ∀ s x, g { s with regs := x } = g s) (hl : ∀ s x, g { s with limits := x } = g s)
    (rings : ∀ s x, g { s with rings := x } = g s) (msix : ∀ s x, g { s with msix := x } = g s)
    (msixOut : ∀ s x, g { s with msixOut := x } = g s) (dma : ∀ s x, g { s with dma := x } = g s)
    (i3c : ∀ s x, g { s with i3c := x } = g s) (mbBad : ∀ s x, g { s with mbBad := x } = g s)
    (inject : ∀ s x, g { s with inject := x } = g s) (fwInt : ∀ s x, g { s with fwInt := x } = g s)
    (attic : ∀ s x, g { s with attic := x } = g s) : NoticeBlind g :=
  ⟨fun s r v _ => State.put_other g hr hl s r v, rings, msix, msixOut, dma, i3c, mbBad, inject, fwInt, attic⟩

/-! ## What a change of service state reaches -/

/-- The fields that a change of service state writes: the state itself, and those of an update that fails and of the chain (R12, R293). -/
def svcField (f : Field) : Bool :=
  match f with
  | .govStateCur | .govStatePrev | .chnPosOrig | .fwcUpdStage | .fwcUpdFailc | .fwcImgVer => true
  | _ => false

/-- A reading of the state that a change of service state does not touch. -/
structure SvcBlind {α : Type} (g : State → α) : Prop extends NoticeBlind g where
  putSvc : ∀ s (r : FieldRef) v, svcField r.f = true → g (s.put r v) = g s
  bypHold : ∀ s x, g { s with pins := { s.pins with bypHold := x } } = g s
  chain : ∀ s x, g { s with chain := x } = g s
  upd : ∀ s x, g { s with upd := x } = g s
  ctrl : ∀ s x, g { s with ctrl := x } = g s

section Service
variable {α : Type} {g : State → α} (hg : SvcBlind g)
include hg

theorem setStage_svc (s : State) (n : Nat) : g (s.setStage n) = g s :=
  (event_notice hg.toNoticeBlind _ _ _ _ _).trans (hg.putSvc s _ n rfl)

theorem failUpdate_svc (s : State) (code : Nat) : g (s.failUpdate code) = g s := by
  unfold State.failUpdate
  dsimp only
  rw [setStage_svc hg, State.wr, hg.putSvc _ _ _ rfl, hg.upd]
  split
  · exact (hg.putSvc _ ⟨.fwcImgVer, 0, _⟩ _ rfl).trans (hg.ctrl s _)
  · rfl

theorem chainOut_svc (s : State) : g s.chainOut = g s := by
  have held : g { s.wr .chnPosOrig 0 with pins := { s.pins with bypHold := false } } = g s := by
    rw [← State.wr_pins s .chnPosOrig 0 0 0]
    exact (hg.bypHold (s.wr .chnPosOrig 0) false).trans (hg.putSvc s ⟨.chnPosOrig, 0, 0⟩ 0 rfl)
  exact (hg.chain { s.wr .chnPosOrig 0 with pins := { s.pins with bypHold := false } } _).trans held

theorem setSvc_svc (s : State) (st : Nat) : g (s.setSvc st) = g s := by
  have moved : g ((((s.wr .govStatePrev s.svc).wr .govStateCur st).noticeAll 4 (st + 8 * s.svc)).info 1) = g s := by
    rw [State.info, event_notice hg.toNoticeBlind, noticeAll_notice hg.toNoticeBlind, State.wr, hg.putSvc _ _ _ rfl, State.wr,
      hg.putSvc _ _ _ rfl]
  have failed (b : Bool) (t : State) : g (if b = true then t.failUpdate 5 else t) = g t := by
    split
    · exact failUpdate_svc hg _ _
    · rfl
  unfold State.setSvc
  split
  · rfl
  · dsimp only
    split
    · rw [chainOut_svc hg, failed, moved]
    · split
      · exact (hg.bypHold _ _).trans ((failed _ _).trans moved)
      · rw [failed, moved]

end Service

theorem svc_rd {f : Field} (i j : Nat) (hn : noticeField f = false) (hs : svcField f = false) : SvcBlind fun s : State => s.rd f i j where
  toNoticeBlind := notice_rd i j hn
  putSvc s r v hr := State.reg_put_other s v (by rintro rfl; exact absurd hr (by rw [hs]; exact Bool.false_ne_true))
  bypHold _ _ := rfl
  chain _ _ := rfl
  upd _ _ := rfl
  ctrl _ _ := rfl

theorem State.svc_failUpdate (s : State) (code : Nat) : (s.failUpdate code).svc = s.svc := by
  have eventful (t : State) (a b c : Nat) (p : Option Nat) : (t.event a b c p).svc = t.svc := event_notice (notice_rd 0 0 rfl) t a b c p
  have written (t : State) (f : Field) (v i j : Nat) (h : f ≠ .govStateCur) : (t.wr f v i j).svc = t.svc := t.rd_wr_field v i j 0 0 h
  unfold State.failUpdate State.setStage State.info
  rw [eventful, written _ _ _ _ _ (by decide), written _ _ _ _ _ (by decide)]
  change (if _ then _ else s : State).svc = _
  split
  · exact written _ .fwcImgVer _ _ _ (by decide)
  · rfl

/-- Any reading that no register, no queue to a partner, and nothing of the chain and of updates carries. -/
theorem svc_of {α : Type} {g : State → α} (hn : NoticeBlind g) (hr : ∀ s x, g { s with regs := x } = g s)
    (hl : ∀ s x, g { s with limits := x } = g s) (bypHold : ∀ s x, g { s with pins := { s.pins with bypHold := x } } = g s)
    (chain : ∀ s x, g { s with chain := x } = g s) (upd : ∀ s x, g { s with upd := x } = g s)
    (ctrl : ∀ s x, g { s with ctrl := x } = g s) : SvcBlind g :=
  { hn with putSvc := fun s r v _ => State.put_other g hr hl s r v, bypHold, chain, upd, ctrl }

/-- The service state is the one asked for. -/
theorem State.svc_setSvc (s : State) {st : Nat} (h : st < 8) : (s.setSvc st).svc = st := by
  have moved : ((((s.wr .govStatePrev s.svc).wr .govStateCur st).noticeAll 4 (st + 8 * s.svc)).info 1).svc = st := by
    rw [State.info, State.svc, event_notice (notice_rd 0 0 rfl), noticeAll_notice (notice_rd 0 0 rfl), State.rd_wr_same _ _ _ _ _ rfl]
    exact Nat.mod_eq_of_lt h
  have failed (b : Bool) (t : State) : (if b = true then t.failUpdate 5 else t).svc = t.svc := by
    split
    · exact t.svc_failUpdate 5
    · rfl
  have out (t : State) : t.chainOut.svc = t.svc := t.rd_wr_field 0 0 0 0 0 (by decide)
  unfold State.setSvc
  split
  · assumption
  · dsimp only
    split
    · rw [out, failed, moved]
    · split
      · exact (failed _ _).trans moved
      · rw [failed, moved]

/-! ## What entry into the floor state reaches -/

/-- The fields that entry into the floor state writes (R37, R206). -/
def floorField (f : Field) : Bool :=
  match f with
  | .clkCbrCur | .clkCbrGdep | .clkDomCur | .clkDomForced | .govStateFloorf => true
  | _ => false

/-- Entry into the floor state is writes to its own fields alone. -/
theorem State.enterFloor_keeps {α : Type} (g : State → α) (h : ∀ (s : State) (f : Field) (v i j : Nat), floorField f = true → g (s.wr f v i j) = g s)
    (s : State) : g s.enterFloor = g s := by
  unfold State.enterFloor
  rw [h _ _ _ _ _ rfl]
  refine each_blind _ _ (fun t d => ?_) s
  unfold State.showDomain branchesOf
  simp only [List.foldl, State.branchTo32]
  repeat rw [h _ _ _ _ _ rfl]

theorem State.rd_enterFloor (s : State) {f : Field} (i j : Nat) (hf : floorField f = false) : s.enterFloor.rd f i j = s.rd f i j :=
  State.enterFloor_keeps (fun t => t.rd f i j)
    (fun t a v ai aj ha => t.rd_wr_field v ai aj i j (by rintro rfl; exact absurd ha (by rw [hf]; exact Bool.false_ne_true))) s

theorem State.rd_forceFloor (s : State) (x : Forcing → Forcing) {f : Field} (i j : Nat) (hf : floorField f = false) :
    (s.forceFloor x).rd f i j = s.rd f i j :=
  State.rd_enterFloor { s with force := x s.force, floorOn := true, lim := { s.lim with floorRun := true } } i j hf

/-- A table or a mode that no register carries reads after entry into the floor state as before. -/
theorem State.enterFloor_other {α : Type} {g : State → α} (hr : ∀ s x, g { s with regs := x } = g s)
    (hl : ∀ s x, g { s with limits := x } = g s) (s : State) : g s.enterFloor = g s :=
  State.enterFloor_keeps g (fun t f v i j _ => State.put_other g hr hl t ⟨f, i, j⟩ v) s

/-! ## Registers that a loop leaves set -/

/-- What every round of a loop keeps holds at its end. -/
theorem State.each_keeps {β : Type} {P : State → Prop} {f : State → β → State} (keep : ∀ s y, P s → P (f s y)) (l : List β) {s : State}
    (h : P s) : P (s.each l f) := by
  unfold State.each
  induction l generalizing s with
  | nil => exact h
  | cons y l ih => exact ih (keep s y h)

/-- What one round of a loop establishes and every round keeps holds at its end. -/
theorem State.each_sets {β : Type} {P : State → Prop} {f : State → β → State} {l : List β} {x : β} (hx : x ∈ l) (set : ∀ s, P (f s x))
    (keep : ∀ s y, P s → P (f s y)) (s : State) : P (s.each l f) := by
  induction l generalizing s with
  | nil => exact absurd hx List.not_mem_nil
  | cons y l ih =>
    rcases List.mem_cons.1 hx with rfl | hx
    · exact State.each_keeps keep l (set s)
    · exact ih hx (f s y)

/-- A branch is at ÷32. -/
def State.at32 (k : Nat) (s : State) : Prop := s.rd .clkCbrCur 0 k = 0x200

theorem State.at32_branchTo32 {k : Nat} (hk : k < 128) (s : State) (m : Nat) (h : m = k ∨ s.at32 k) : (s.branchTo32 m).at32 k := by
  have there : (⟨.clkCbrCur, 0, k⟩ : FieldRef).exists = true := by
    have one : Field.instances .clkCbrCur = 1 := rfl
    have all : (fieldDef .clkCbrCur).count = 128 := rfl
    have blk : (fieldDef .clkCbrCur).blk = .clk := rfl
    simp [FieldRef.exists, one, all, blk, hk]
  have width : (fieldDef .clkCbrCur).width = 12 := rfl
  unfold State.at32 State.branchTo32
  rw [State.rd_wr_field _ _ _ _ _ _ (by decide), State.rd_wr, width]
  split
  · rfl
  · next other =>
    refine h.resolve_left ?_
    rintro rfl
    exact other ⟨rfl, there⟩

/-- Entry into the floor state leaves every branch of the compute dies at ÷32 (R37). -/
theorem State.at32_enterFloor {k : Nat} (hk : k < 128) (s : State) : s.enterFloor.at32 k := by
  have aside (t : State) (f : Field) (v i j : Nat) (hf : f ≠ .clkCbrCur) (ht : t.at32 k) : (t.wr f v i j).at32 k :=
    (t.rd_wr_field v i j 0 k hf).trans ht
  unfold State.enterFloor
  refine aside _ _ _ _ _ (by decide) (State.each_sets (x := k / 4) (List.mem_range.2 (by omega)) (fun t => ?_) (fun t d ht => ?_) s)
  · refine aside _ _ _ _ _ (by decide) (aside _ .clkDomCur _ _ _ (by decide) ?_)
    exact State.each_sets (f := State.branchTo32) (x := k) (by simp [branchesOf]; omega) (fun u => u.at32_branchTo32 hk k (.inl rfl))
      (fun u m hu => u.at32_branchTo32 hk m (.inr hu)) t
  · refine aside _ _ _ _ _ (by decide) (aside _ .clkDomCur _ _ _ (by decide) ?_)
    unfold branchesOf
    simp only [List.foldl]
    iterate 4 refine State.at32_branchTo32 hk _ _ (.inr ?_)
    exact ht

/-! ## The FATAL latch -/

/-- The state with GOV_ERR at 10 and GOV_HEARTBEAT low. -/
def State.govErr10 (s : State) : State := { s with pins := { s.pins with govErrP := true, govErrN := false, govHeartbeat := false } }

theorem State.rd_govErr10 (s : State) (f : Field) (i j : Nat) : s.govErr10.rd f i j = s.rd f i j := rfl

/-- The state with the latch set, the floor state forced, and the pins as the latch drives them. -/
def State.fatalLatched (s : State) : State := ((s.wr .fltStatusFatal 1).forceFloor fun f => { f with fatal := true }).govErr10

/-- The state with the trim of every compute die ended. -/
def State.trimEnded (s : State) : State := s.each (upto 32) fun s d => s.each (upto 4) fun s c => s.wr .dagTrimlvlLvl 0 d c

theorem State.failsafe_latched {s : State} (src unit : Nat) (h : s.flag .fltStatusFatal = false) :
    s.failsafe src unit =
      (((s.fatalLatched.trimEnded.noticeAll 3 (src + 2 ^ 5 * unit)).setSvc svcFailsafe).sendVector .hx0 35).sendVector .hx1 35 := by
  rw [State.failsafe, if_neg (by rw [h]; exact Bool.false_ne_true)]
  rfl

theorem failsafe_svc {α : Type} {g : State → α} (hg : SvcBlind g) {s : State} (src unit : Nat) (h : s.flag .fltStatusFatal = false) :
    g (s.failsafe src unit) = g s.fatalLatched.trimEnded := by
  rw [State.failsafe_latched src unit h, sendVector_notice hg.toNoticeBlind, sendVector_notice hg.toNoticeBlind, setSvc_svc hg,
    noticeAll_notice hg.toNoticeBlind]

theorem State.svc_failsafe {s : State} (src unit : Nat) (h : s.flag .fltStatusFatal = false) : (s.failsafe src unit).svc = svcFailsafe := by
  rw [State.failsafe_latched src unit h, State.svc, State.rd_sendVector, State.rd_sendVector]
  exact State.svc_setSvc _ (by decide)

theorem State.rd_fatalLatched (s : State) {f : Field} (i j : Nat) (hf : floorField f = false) :
    s.fatalLatched.rd f i j = (s.wr .fltStatusFatal 1).rd f i j := by
  rw [State.fatalLatched, State.rd_govErr10, State.rd_forceFloor _ _ _ _ hf]

theorem State.rd_trimEnded (s : State) {f : Field} (i j : Nat) (h : .dagTrimlvlLvl ≠ f) : s.trimEnded.rd f i j = s.rd f i j :=
  each_blind (g := fun t => t.rd f i j) _ _
    (fun t d => each_blind (g := fun t => t.rd f i j) _ _ (fun u c => u.rd_wr_field 0 d c i j h) t) s

/-- A table or a mode that no register carries is not touched by the end of trim. -/
theorem State.trimEnded_other {α : Type} {g : State → α} (hr : ∀ s x, g { s with regs := x } = g s)
    (hl : ∀ s x, g { s with limits := x } = g s) (s : State) : g s.trimEnded = g s :=
  each_blind _ _ (fun t d => each_blind _ _ (fun u c => State.put_other g hr hl u ⟨.dagTrimlvlLvl, d, c⟩ 0) t) s

theorem State.fatal_fatalLatched (s : State) : s.fatalLatched.flag .fltStatusFatal = true :=
  decide_eq_true ((s.rd_fatalLatched 0 0 rfl).trans (s.rd_wr_same .fltStatusFatal 1 0 0 rfl))

/-- Trim ends at each level of each compute die, and a level that does not exist reads 0 (R206). -/
theorem State.trimlvl_trimEnded (s : State) {d k : Nat} (hd : d < 32) (hk : k < 4) : s.trimEnded.rd .dagTrimlvlLvl d k = 0 := by
  have zero (t : State) (a b : Nat) (h : (a = d ∧ b = k) ∨ t.rd .dagTrimlvlLvl d k = 0) :
      (t.wr .dagTrimlvlLvl 0 a b).rd .dagTrimlvlLvl d k = 0 := by
    rw [State.rd_wr]
    split
    · exact Nat.zero_mod _
    · next other =>
      refine h.elim (fun e => ?_) id
      obtain ⟨rfl, rfl⟩ := e
      exact t.reg_absent (Bool.eq_false_iff.2 fun he => other ⟨rfl, he⟩)
  refine State.each_sets (P := fun t => t.rd .dagTrimlvlLvl d k = 0) (x := d) (List.mem_range.2 hd) (fun t => ?_) (fun t a ht => ?_) s
  · exact State.each_sets (P := fun t => t.rd .dagTrimlvlLvl d k = 0) (x := k) (List.mem_range.2 hk) (fun u => zero u d k (.inl ⟨rfl, rfl⟩))
      (fun u b hu => zero u d b (.inr hu)) t
  · exact State.each_keeps (P := fun t => t.rd .dagTrimlvlLvl d k = 0) (fun u b hu => zero u a b (.inr hu)) _ ht

/-- What the latch drives: its forcing, the floor state, GOV_ERR and GOV_HEARTBEAT. -/
def State.latchDrive (s : State) : Bool × Bool × Bool × Bool × Bool :=
  (s.force.fatal, s.floorOn, s.pins.govErrP, s.pins.govErrN, s.pins.govHeartbeat)

theorem svc_latchDrive : SvcBlind State.latchDrive := by
  apply svc_of (by apply notice_of <;> intros <;> rfl) <;> intros <;> rfl

theorem State.force_forceFloor (s : State) (x : Forcing → Forcing) : (s.forceFloor x).force = x s.force :=
  State.enterFloor_other (g := State.force) (fun _ _ => rfl) (fun _ _ => rfl) _

theorem State.floorOn_forceFloor (s : State) (x : Forcing → Forcing) : (s.forceFloor x).floorOn = true :=
  State.enterFloor_other (g := State.floorOn) (fun _ _ => rfl) (fun _ _ => rfl) _

theorem State.tel_forceFloor (s : State) (x : Forcing → Forcing) : (s.forceFloor x).tel = s.tel :=
  State.enterFloor_other (g := State.tel) (fun _ _ => rfl) (fun _ _ => rfl) _

theorem State.tel_fatalLatched (s : State) : s.fatalLatched.tel = s.tel := by
  simp only [State.fatalLatched, State.govErr10, State.tel_forceFloor, State.wr_tel]

theorem State.latchDrive_fatalLatched (s : State) : s.fatalLatched.latchDrive = (true, true, true, false, false) := by
  simp only [State.latchDrive, State.fatalLatched, State.govErr10, State.force_forceFloor, State.floorOn_forceFloor]

/-! ## A FATAL fault -/

theorem State.puts_other {α : Type} {g : State → α} (hr : ∀ s x, g { s with regs := x } = g s)
    (hl : ∀ s x, g { s with limits := x } = g s) (s : State) (l : List (FieldRef × Nat)) : g (s.puts l) = g s := by
  induction l generalizing s with
  | nil => rfl
  | cons e l ih => exact (ih _).trans (State.put_other g hr hl s e.1 e.2)

/-- A capture is of registers alone. -/
theorem State.capture_other {α : Type} {g : State → α} (hr : ∀ s x, g { s with regs := x } = g s)
    (hl : ∀ s x, g { s with limits := x } = g s) (s : State) (x : FaultRec) : g (s.capture x) = g s := by
  unfold State.capture
  dsimp only
  split
  · exact State.put_other g hr hl s _ _
  · exact State.puts_other hr hl s _

/-- What a FATAL fault leaves before it latches: counted, captured and told to the Attic. -/
def State.fatalReported (s : State) (x : FaultRec) : State :=
  ((s.countFault x).capture x).event (x.src * 256 + x.detail) (x.cls.num + 1) x.unit (s.unitPart x.unit)

theorem State.raise_fatal (s : State) {x : FaultRec} (hx : x.cls = .fatal) : s.raise x = (s.fatalReported x).failsafe x.src x.unit := by
  simp only [State.raise, State.fatalReported, hx]

theorem fatalReported_blind {α : Type} {g : State → α} (hg : FaultBlind g) (s : State) (x : FaultRec) : g (s.fatalReported x) = g s := by
  rw [State.fatalReported, event_blind hg, capture_blind hg, countFault_blind hg]

theorem cls_fatalRec (c : FatalCause) (unit : Nat) : (fatalRec c unit).cls = .fatal := by
  cases c <;> rfl

theorem exec_fatalLatch {s : State} (c : FatalCause) (u : BitVec 16) (hs : s.aon = true) :
    exec (.fatalLatch c u) s = .next (s.commit (s.raise (fatalRec c u.toNat))) :=
  State.run_on (fun s => s.raise (fatalRec c u.toNat)) hs

theorem flag_fatalReported {s : State} (x : FaultRec) (h : s.flag .fltStatusFatal = false) :
    (s.fatalReported x).flag .fltStatusFatal = false :=
  (congrArg (fun n => decide (n = 1)) (fatalReported_blind (blind_rd .fltStatusFatal 0 0 rfl) s x)).trans h

section FatalFault
variable {s : State} {x : FaultRec} (hx : x.cls = .fatal) (h : s.flag .fltStatusFatal = false)
include hx h

/-- A FATAL fault raised with the latch clear, as a reading sees it that a change of service state does not touch. -/
theorem raise_fatal_svc {α : Type} {g : State → α} (hg : SvcBlind g) : g (s.raise x) = g (s.fatalReported x).fatalLatched.trimEnded := by
  rw [State.raise_fatal s hx, failsafe_svc hg _ _ (flag_fatalReported x h)]

theorem svc_raise_fatal : (s.raise x).svc = svcFailsafe := by
  rw [State.raise_fatal s hx, State.svc_failsafe _ _ (flag_fatalReported x h)]

theorem fatal_raise_fatal : (s.raise x).flag .fltStatusFatal = true := by
  have latched := State.fatal_fatalLatched (s.fatalReported x)
  rw [State.flag] at latched ⊢
  rw [raise_fatal_svc hx h (svc_rd 0 0 rfl rfl), State.rd_trimEnded _ _ _ (by decide)]
  exact latched

/-- The latch's forcing, its floor state and its pins, whatever the state of the service. -/
theorem driven_raise_fatal :
    (s.raise x).force.fatal = true ∧ (s.raise x).floorOn = true ∧ (s.raise x).pins.govErrP = true ∧ (s.raise x).pins.govErrN = false ∧
      (s.raise x).pins.govHeartbeat = false := by
  have driven : (s.raise x).latchDrive = (s.fatalReported x).fatalLatched.latchDrive := by
    rw [raise_fatal_svc hx h svc_latchDrive]
    exact State.trimEnded_other (g := State.latchDrive) (fun _ _ => rfl) (fun _ _ => rfl) _
  have latched : (s.fatalReported x).fatalLatched.latchDrive = (true, true, true, false, false) :=
    State.latchDrive_fatalLatched _
  rw [latched] at driven
  simpa [State.latchDrive] using driven

theorem at32_raise_fatal {k : Nat} (hk : k < 128) : (s.raise x).rd .clkCbrCur 0 k = 0x200 := by
  rw [raise_fatal_svc hx h (svc_rd 0 k rfl rfl), State.rd_trimEnded _ _ _ (by decide), State.fatalLatched, State.rd_govErr10, State.forceFloor]
  exact State.at32_enterFloor hk _

theorem trimlvl_raise_fatal {d k : Nat} (hd : d < 32) (hk : k < 4) : (s.raise x).rd .dagTrimlvlLvl d k = 0 := by
  rw [raise_fatal_svc hx h (svc_rd d k rfl rfl)]
  exact State.trimlvl_trimEnded _ hd hk

theorem fltFatalc_raise_fatal : (s.raise x).rd .fltFatalc = s.oneUp .fltFatalc := by
  have width : (fieldDef .fltFatalc).width = 32 := rfl
  rw [raise_fatal_svc hx h (svc_rd 0 0 rfl rfl), State.rd_trimEnded _ _ _ (by decide), State.rd_fatalLatched _ _ _ rfl,
    State.rd_wr_field _ _ _ _ _ _ (by decide), State.fatalReported, State.rd_event rfl, State.rd_capture rfl]
  simp only [State.countFault, hx, State.count, State.oneUp]
  rw [State.rd_wr_same _ _ _ _ _ rfl, width]
  exact Nat.mod_eq_of_lt (by omega)

/-- No telemetry block is closed: only the partitions that escalation stops close theirs. -/
theorem tel_raise_fatal : (s.raise x).tel = s.tel := by
  have notice : NoticeBlind State.tel := by apply notice_of <;> intros <;> rfl
  have blind : SvcBlind State.tel := by apply svc_of notice <;> intros <;> rfl
  rw [raise_fatal_svc hx h blind, State.trimEnded_other (g := State.tel) (fun _ _ => rfl) (fun _ _ => rfl), State.tel_fatalLatched,
    State.fatalReported, event_notice notice, State.capture_other (g := State.tel) (fun _ _ => rfl) (fun _ _ => rfl)]
  simp only [State.countFault, hx, State.count, State.wr_tel]

end FatalFault

/-- The tables that a FATAL fault leaves: all but those of notices, of pending faults and of the control complexes. -/
theorem sameTabs_raise_fatal {s : State} {x : FaultRec} (hx : x.cls = .fatal) (h : s.flag .fltStatusFatal = false) :
    s.sameTabsBut (s.commit (s.raise x)) [.rings, .msix, .pend, .ctrl] := by
  have frac : LatchBlind fun s : State => s.frac := by apply latch_of _ (by apply blind_of <;> intros <;> rfl) <;> intros <;> rfl
  have ports : LatchBlind fun s : State => s.ports := by apply latch_of _ (by apply blind_of <;> intros <;> rfl) <;> intros <;> rfl
  refine State.sameTabs_commit fun tab htab => ?_
  cases tab with
  | frac => exact fun r => congrArg (Store.get fracInit · r) (raise_latch frac s x)
  | ports => exact fun p => congrArg (Store.get portInit · p.num) (raise_latch ports s x)
  | tel => exact fun d => congrArg (Store.get telInit · d) (tel_raise_fatal hx h)
  | dies => exact fun d => congrArg (Store.get DieState.init · d) (raise_latch latch_dies s x)
  | halls => exact fun d => congrArg (Store.get HallDie.init · d) (raise_latch latch_halls s x)
  | parts => exact fun p => congrArg (Store.get PartState.init · p) (raise_latch latch_parts s x)
  | rails => exact fun r => congrArg (Store.get RailState.init · r) (raise_latch latch_rails s x)
  | rings | msix | pend | ctrl => exact absurd htab (by simp)

/-- The guard keeps every register element that the command has kept. -/
theorem State.sameFields_commit {s n : State} {p : Field → Bool} (h : s.sameFieldsBut n p) : s.sameFieldsBut (s.commit n) p := by
  intro r hr
  cases hl : r.f.isLimit with
  | true => exact s.rd_commit_limit n r.f r.i r.j hl
  | false => exact (s.rd_commit n r.f r.i r.j hl).trans (h r hr)

/-- No link that is out of FULL and HELD has the role of the originator's peer (R237). -/
theorem chainRole_failsafe {s : State} (h : s.svc = svcFailsafe) : s.chainRole ≠ 2 := by
  have out : ¬ (svcFailsafe = svcFull ∨ svcFailsafe = svcHeld) := by decide
  unfold State.chainRole
  split
  · decide
  · simp [h, out]

/-- Settles O11: with the latch clear a FATAL fault latches once, and what the latch drives stays so through the notices and the change of
service state that follow. -/
theorem fatalLatchesAndFailsafe : Obligations.FatalLatchesAndFailsafe := by
  intro s c u hs h
  have hx := cls_fatalRec c u.toNat
  obtain ⟨force, floor, errP, errN, beat⟩ := driven_raise_fatal hx h
  have svc : (s.commit (s.raise (fatalRec c u.toNat))).svc = svcFailsafe := (State.rd_commit _ _ _ _ _ rfl).trans (svc_raise_fatal hx h)
  refine ⟨_, exec_fatalLatch c u hs, ?_, svc, force, floor, errP, errN, beat, chainRole_failsafe svc, fun k hk => ?_, fun d k hd hk => ?_,
    fun r hr => ?_, sameTabs_raise_fatal hx h, ?_⟩
  · rw [State.flag, State.rd_commit _ _ _ _ _ rfl]
    exact fatal_raise_fatal hx h
  · rw [State.rd_commit _ _ _ _ _ rfl, at32_raise_fatal hx h hk]
  · rw [State.rd_commit _ _ _ _ _ rfl, trimlvl_raise_fatal hx h hd hk]
  · exact State.sameFields_commit (fun r hr => rd_raise_any s _ r.f r.i r.j hr) r hr
  · rw [State.rd_commit _ _ _ _ _ rfl, fltFatalc_raise_fatal hx h, State.oneUp]

end Sys2Proof.Machine

/-!
Settles O12: escalation. What a stopped partition reaches beside the notices, what the completion and telemetry rings keep of a ring set, and
the statement that each stopped partition leaves due (R278, R280).
-/

namespace Sys2Proof.Machine

/-! ## What the traffic of a ring set keeps of it -/

/-- A reading of a ring set that its completions, its telemetry and their vectors do not move. -/
structure RingKept {α : Type} (h : RingState → α) : Prop where
  lost : ∀ r x, h { r with lost := x } = h r
  cplPhase : ∀ r x, h { r with cplPhase := x } = h r
  tel : ∀ r x y, h { r with telpi := x, telPhase := y } = h r
  running : ∀ r x, h { r with running := x } = h r
  cplSent : ∀ r x y, h { r with lastCpl := x, cplWaits := y } = h r
  telSent : ∀ r x y, h { r with lastTel := x, telWaits := y } = h r
  cplWaits : ∀ r x, h { r with cplWaits := x } = h r
  telWaits : ∀ r x, h { r with telWaits := x } = h r

theorem State.ring_updRing_kept {α : Type} {h : RingState → α} (s : State) (n : Nat) {f : RingState → RingState} (hf : ∀ r, h (f r) = h r)
    (m : Nat) : h ((s.updRing n f).ring m) = h (s.ring m) := by
  rw [State.ring_updRing]
  split
  · next e => rw [hf, e]
  · rfl

theorem State.ring_wr (s : State) (f : Field) (v i j m : Nat) : (s.wr f v i j).ring m = s.ring m :=
  State.put_other (fun t => t.ring m) (fun _ _ => rfl) (fun _ _ => rfl) s ⟨f, i, j⟩ v

theorem State.ring_sendVector (s : State) (p : Port) (v m : Nat) : (s.sendVector p v).ring m = s.ring m := by
  unfold State.sendVector
  split <;> rfl

theorem State.ring_event (s : State) (code sev unit : Nat) (part : Option Nat) (m : Nat) : (s.event code sev unit part).ring m = s.ring m := by
  unfold State.event
  split
  · rfl
  · exact State.ring_wr _ _ _ _ _ m

section Kept
variable {α : Type} {h : RingState → α} (hk : RingKept h) (m : Nat)
include hk

theorem State.kept_cplWritten (s : State) (n : Nat) (urgent : Bool) : h ((s.cplWritten n urgent).ring m) = h (s.ring m) := by
  unfold State.cplWritten State.sendCpl
  split
  · rw [State.ring_updRing_kept _ _ fun r => hk.cplSent r _ _, State.ring_sendVector]
  · exact s.ring_updRing_kept n (fun r => hk.cplWaits r _) m

theorem State.kept_telWritten (s : State) (n : Nat) : h ((s.telWritten n).ring m) = h (s.ring m) := by
  unfold State.telWritten State.sendTel
  split
  · rw [State.ring_updRing_kept _ _ fun r => hk.telSent r _ _, State.ring_sendVector]
  · exact s.ring_updRing_kept n (fun r => hk.telWaits r _) m

theorem State.kept_putCpl (s : State) (n first : Nat) (rest : List Word) : h ((s.putCpl n first rest).ring m) = h (s.ring m) := by
  unfold State.putCpl
  dsimp only
  split
  · rw [State.ring_updRing_kept _ _ fun r => hk.cplPhase r _, State.ring_wr]
    rfl
  · rw [State.ring_wr]
    rfl

theorem State.kept_noticeTo (s : State) (ncode seq detail n : Nat) : h ((s.noticeTo ncode seq detail n).ring m) = h (s.ring m) := by
  unfold State.noticeTo
  split
  · split
    · rw [State.ring_updRing_kept _ _ fun r => hk.lost r _, State.ring_wr]
    · rw [State.kept_cplWritten hk, State.ring_updRing_kept _ _ fun r => hk.lost r _, State.kept_putCpl hk]
  · rfl

theorem State.kept_noticePart (s : State) (ncode seq detail p : Nat) : h ((s.noticePart ncode seq detail p).ring m) = h (s.ring m) := by
  unfold State.noticePart
  dsimp only
  split
  · split
    · exact s.kept_noticeTo hk m _ _ _ _
    · rw [State.kept_noticeTo hk, State.kept_noticeTo hk]
  · exact s.kept_noticeTo hk m _ _ _ _

theorem State.kept_closeBlock (s : State) (d : Nat) : h ((s.closeBlock d).ring m) = h (s.ring m) := by
  unfold State.closeBlock
  dsimp only
  split
  · rfl
  · split
    · rfl
    · split
      · rfl
      · split
        · exact congrArg h (State.ring_wr _ _ _ _ _ m)
        · rw [State.kept_telWritten hk, State.ring_updRing_kept _ _ fun r => hk.tel r _ _]
          rfl

theorem State.kept_complete (s : State) (n cid status result : Nat) : h ((s.complete n cid status result).ring m) = h (s.ring m) := by
  unfold State.complete State.postCpl
  dsimp only
  split
  · rw [State.kept_cplWritten hk, State.kept_putCpl hk, State.ring_wr, State.ring_updRing_kept _ _ fun r => hk.running r _]
  · rw [State.ring_wr, State.ring_updRing_kept _ _ fun r => hk.running r _]

end Kept

theorem ringKept_due : RingKept RingState.due :=
  ⟨fun _ _ => rfl, fun _ _ => rfl, fun _ _ _ => rfl, fun _ _ => rfl, fun _ _ _ => rfl, fun _ _ _ => rfl, fun _ _ => rfl, fun _ _ => rfl⟩

/-! ## What a stopped partition reaches -/

/-- The fields that closed telemetry and aborted commands write beside those of notices. -/
def trafficField (f : Field) : Bool :=
  match f with
  | .hifRsTeldrop | .hifRsStatInflight => true
  | _ => false

/-- A reading of the state that neither notices nor closed telemetry nor completions touch. -/
structure TrafficBlind {α : Type} (g : State → α) : Prop extends NoticeBlind g where
  putTraffic : ∀ s (r : FieldRef) v, trafficField r.f = true → g (s.put r v) = g s
  tel : ∀ s x, g { s with tel := x } = g s

section Traffic
variable {α : Type} {g : State → α} (hg : TrafficBlind g)
include hg

theorem closeBlock_traffic (s : State) (d : Nat) : g (s.closeBlock d) = g s := by
  have written (t : State) (p : Port) (a x : Nat) (y : List Word) : g (t.writeEntry p a x y) = g t := hg.dma t _
  have sent (t : State) (n : Nat) : g (t.telWritten n) = g t := by
    unfold State.telWritten
    split
    · exact (updRing_notice hg.toNoticeBlind _ _ _).trans (sendVector_notice hg.toNoticeBlind _ _ _)
    · exact updRing_notice hg.toNoticeBlind _ _ _
  unfold State.closeBlock
  dsimp only
  split
  · rfl
  · split
    · exact hg.tel s _
    · split
      · exact hg.tel s _
      · split
        · exact (hg.putTraffic _ ⟨.hifRsTeldrop, 0, _⟩ _ rfl).trans (hg.tel s _)
        · rw [sent, updRing_notice hg.toNoticeBlind, written, hg.tel]

theorem complete_traffic (s : State) (n cid status result : Nat) : g (s.complete n cid status result) = g s := by
  have shown (t : State) (v : Nat) : g (t.wr .hifRsStatInflight v 0 n) = g t := hg.putTraffic t ⟨.hifRsStatInflight, 0, n⟩ v rfl
  unfold State.complete State.postCpl
  dsimp only
  split
  · rw [cplWritten_notice hg.toNoticeBlind, putCpl_notice hg.toNoticeBlind, shown, updRing_notice hg.toNoticeBlind]
  · rw [shown, updRing_notice hg.toNoticeBlind]

theorem abortRunning_traffic (s : State) (p : Nat) : g (s.abortRunning p) = g s := by
  unfold State.abortRunning
  exact each_blind _ _ (fun t c => complete_traffic hg t _ _ _ _) s

/-- A stopped partition reaches, beside its traffic, its binding and ESCAL alone. -/
theorem stopPart_traffic (s : State) (seq p : Nat) (bind : ∀ t, g (t.wr .alcPartBindValid 0 0 p) = g t)
    (escal : ∀ t, g (t.wr .fltStatusEscal 1) = g t) : g (s.stopPart seq p) = g s := by
  unfold State.stopPart
  dsimp only
  rw [event_notice hg.toNoticeBlind, escal, abortRunning_traffic hg, noticePart_notice hg.toNoticeBlind, bind,
    each_blind _ _ (closeBlock_traffic hg), State.stmtDue, updRing_notice hg.toNoticeBlind]

end Traffic

theorem traffic_rd {f : Field} (i j : Nat) (hn : noticeField f = false) (ht : trafficField f = false) :
    TrafficBlind fun s : State => s.rd f i j where
  toNoticeBlind := notice_rd i j hn
  putTraffic s r v hr := State.reg_put_other s v (by rintro rfl; exact absurd hr (by rw [ht]; exact Bool.false_ne_true))
  tel _ _ := rfl

/-- An element that has been cleared reads 0, whether it exists or not. -/
theorem State.rd_wr_zero (s : State) (f : Field) (i j : Nat) : (s.wr f 0 i j).rd f i j = 0 := by
  rw [State.rd_wr]
  split
  · exact Nat.zero_mod _
  · next other => exact s.reg_absent (Bool.eq_false_iff.2 fun he => other ⟨rfl, he⟩)

/-! ## A partition stopped -/

theorem State.inForce_stopPart_same (s : State) (seq p : Nat) : (s.stopPart seq p).inForce p = false := by
  have blind : TrafficBlind fun s : State => s.rd .alcPartBindValid 0 p := traffic_rd 0 p rfl rfl
  have zero (t : State) : (t.wr .alcPartBindValid 0 0 p).rd .alcPartBindValid 0 p = 0 :=
    t.rd_wr_zero .alcPartBindValid 0 p
  refine decide_eq_false ?_
  unfold State.stopPart
  dsimp only
  rw [event_notice blind.toNoticeBlind, State.rd_wr_field _ _ _ _ _ _ (by decide), abortRunning_traffic blind,
    noticePart_notice blind.toNoticeBlind, zero]
  decide

theorem State.inForce_stopPart {s : State} (seq q : Nat) {p : Nat} (h : s.inForce p = false) : (s.stopPart seq q).inForce p = false := by
  by_cases e : q = p
  · rw [e]
    exact s.inForce_stopPart_same seq p
  · have other (t : State) : (t.wr .alcPartBindValid 0 0 q).rd .alcPartBindValid 0 p = t.rd .alcPartBindValid 0 p :=
      State.reg_put_other t 0 (by simpa using e)
    have same := stopPart_traffic (traffic_rd (f := .alcPartBindValid) 0 p rfl rfl) s seq q other
      (fun t => t.rd_wr_field _ _ _ _ _ (by decide))
    exact (congrArg (fun n => decide (n = 1)) same).trans h

theorem State.escal_stopPart (s : State) (seq q : Nat) : (s.stopPart seq q).flag .fltStatusEscal = true := by
  refine decide_eq_true ?_
  unfold State.stopPart
  dsimp only
  rw [event_notice (notice_rd 0 0 rfl), State.rd_wr_same _ _ _ _ _ rfl]
  rfl

/-- A register field that stopping a partition leaves: none of its traffic, its binding or ESCAL. -/
theorem State.rd_stopPart_other (s : State) (seq q : Nat) {f : Field} (i j : Nat) (hn : noticeField f = false) (ht : trafficField f = false)
    (hb : .alcPartBindValid ≠ f) (he : .fltStatusEscal ≠ f) : (s.stopPart seq q).rd f i j = s.rd f i j :=
  stopPart_traffic (traffic_rd i j hn ht) s seq q (fun t => t.rd_wr_field _ _ _ _ _ hb) fun t => t.rd_wr_field _ _ _ _ _ he

/-- The statement that a stopped partition leaves due (R280, R354). -/
def State.stoppedDue (s : State) (p : Nat) : StmtDue :=
  { kind := .stopped, part := p, tag := s.tagOf p, dies := s.rd .alcPartDies 0 p, seq := (s.ring p).stmSeq, tEnd := ceilTo 250 s.now }

/-- What is due on a ring set grows by the statement of the stopped partition that it belongs to. -/
theorem State.due_stopPart (s : State) (seq q p : Nat) :
    ((s.stopPart seq q).ring p).due = if q = p then (s.ring p).due ++ [s.stoppedDue p] else (s.ring p).due := by
  have aborted (t : State) : ((t.abortRunning q).ring p).due = (t.ring p).due := by
    unfold State.abortRunning
    exact each_blind (g := fun t => (t.ring p).due) _ _ (fun t c => t.kept_complete ringKept_due p _ _ _ _) t
  have closed (t : State) (l : List Nat) : ((t.each l State.closeBlock).ring p).due = (t.ring p).due :=
    each_blind (g := fun t => (t.ring p).due) _ _ (fun t d => t.kept_closeBlock ringKept_due p d) t
  unfold State.stopPart
  dsimp only
  rw [State.ring_event, State.ring_wr, aborted, State.kept_noticePart ringKept_due, State.ring_wr, closed, State.stmtDue, State.ring_updRing]
  split
  · next e => rw [← e]; rfl
  · rfl

/-! ## Escalation -/

/-- What one round of a loop establishes from an invariant, and every round keeps, holds at its end. -/
theorem State.each_sets_under {β : Type} {I P : State → Prop} {f : State → β → State} {l : List β} {x : β} (hx : x ∈ l)
    (inv : ∀ s y, I s → I (f s y)) (set : ∀ s, I s → P (f s x)) (keep : ∀ s y, P s → P (f s y)) {s : State} (h : I s) : P (s.each l f) := by
  induction l generalizing s with
  | nil => exact absurd hx List.not_mem_nil
  | cons y l ih =>
    rcases List.mem_cons.1 hx with rfl | hx
    · exact State.each_keeps keep l (set s h)
    · exact ih hx (s := f s y) (inv s y h)

/-- A STOPPED statement of a partition with this tag and these dies is due on its ring set. -/
def State.stopsDue (p tag dies : Nat) (s : State) : Prop := ∃ d ∈ (s.ring p).due, d.kind = .stopped ∧ d.part = p ∧ d.tag = tag ∧ d.dies = dies

theorem State.stopsDue_stopPart {s : State} (seq q : Nat) {p tag dies : Nat} (h : s.stopsDue p tag dies) :
    (s.stopPart seq q).stopsDue p tag dies := by
  obtain ⟨d, hd, stopped⟩ := h
  refine ⟨d, ?_, stopped⟩
  rw [s.due_stopPart seq q p]
  split
  · exact List.mem_append_left _ hd
  · exact hd

/-- Every partition that escalation stops is unbound, shown by ESCAL, and owed its STOPPED statement. -/
theorem State.escalate_stops (s : State) (sc : Scope) (unit seq : Nat) {p : Nat} (hp : p ∈ s.scopeParts sc unit) :
    (s.escalate sc unit seq).inForce p = false ∧ (s.escalate sc unit seq).flag .fltStatusEscal = true ∧
      (s.escalate sc unit seq).stopsDue p (s.tagOf p) (s.rd .alcPartDies 0 p) := by
  refine ⟨?_, ?_, ?_⟩
  · exact State.each_sets (P := fun t => t.inForce p = false) hp (fun t => t.inForce_stopPart_same seq p)
      (fun t q ht => State.inForce_stopPart seq q ht) s
  · exact State.each_sets (P := fun t => t.flag .fltStatusEscal = true) hp (fun t => t.escal_stopPart seq p)
      (fun t q _ => t.escal_stopPart seq q) s
  · refine State.each_sets_under (I := fun t => t.tagOf p = s.tagOf p ∧ t.rd .alcPartDies 0 p = s.rd .alcPartDies 0 p)
      (P := State.stopsDue p (s.tagOf p) (s.rd .alcPartDies 0 p)) hp (fun t q ht => ?_) (fun t ht => ?_)
      (fun t q ht => State.stopsDue_stopPart seq q ht) ⟨rfl, rfl⟩
    · obtain ⟨tag, dies⟩ := ht
      exact ⟨(t.rd_stopPart_other seq q 0 p rfl rfl (by decide) (by decide)).trans tag,
        (t.rd_stopPart_other seq q 0 p rfl rfl (by decide) (by decide)).trans dies⟩
    · obtain ⟨tag, dies⟩ := ht
      refine ⟨t.stoppedDue p, ?_, rfl, rfl, tag, dies⟩
      rw [t.due_stopPart seq p p, if_pos rfl]
      exact List.mem_append_right _ (List.mem_singleton_self _)

theorem State.rd_escalate_other (s : State) (sc : Scope) (unit seq : Nat) {f : Field} (i j : Nat) (hn : noticeField f = false)
    (ht : trafficField f = false) (hb : .alcPartBindValid ≠ f) (he : .fltStatusEscal ≠ f) : (s.escalate sc unit seq).rd f i j = s.rd f i j :=
  each_blind (g := fun t => t.rd f i j) _ _ (fun t q => t.rd_stopPart_other seq q i j hn ht hb he) s

/-- The partitions in a scope are those of the bindings and the dies that the registers hold. -/
theorem State.scopeParts_congr {s t : State} (sc : Scope) (unit : Nat)
    (h : ∀ f i j, f = .alcPartBindValid ∨ f = .alcPartDies → t.rd f i j = s.rd f i j) : t.scopeParts sc unit = s.scopeParts sc unit := by
  have force (p : Nat) : t.inForce p = s.inForce p := congrArg (fun n => decide (n = 1)) (h _ _ _ (.inl rfl))
  have dies (p : Nat) : t.rd .alcPartDies 0 p = s.rd .alcPartDies 0 p := h _ _ _ (.inr rfl)
  have part : t.partOf = s.partOf := by
    funext d
    simp only [State.partOf, force, dies]
  have parts : t.partsInForce = s.partsInForce := by simp only [State.partsInForce, force]
  simp only [State.scopeParts, part, parts]

/-- The state in which a pending fault escalates: its timer has ended and its slot is empty. -/
def State.slotEnded (s : State) (j : Nat) : State := (s.advanceTo (s.pendOf j).deadline).dropPending j

theorem State.rd_slotEnded (s : State) (k : Nat) {f : Field} (i j : Nat) (hv : .fltPendValid ≠ f) (hr : .fltPendRemain ≠ f)
    (ht : f ∉ timeFields) : (s.slotEnded k).rd f i j = s.rd f i j := by
  rw [State.slotEnded, State.dropPending, State.rd_wr_field _ _ _ _ _ _ hr, State.rd_wr_field _ _ _ _ _ _ hv, State.rd_advanceTo _ _ _ _ ht]

/-- What an escalation makes of the state. -/
def State.escalated (s : State) (j : Nat) : State :=
  (s.slotEnded j).escalate (scopeOf (s.rd .fltPendScope 0 j)) (s.pendOf j).unit (s.rd .fltPendSeq 0 j)

theorem exec_escalation {s : State} (j : Fin 16) (hs : s.aon = true) (hv : s.flag .fltPendValid 0 j.val = true) :
    exec (.escalation j) s = .next (s.commit (s.escalated j.val)) := by
  change execEscalation j s = _
  rw [execEscalation, State.run_on _ hs]
  simp only [hv, if_true]
  rfl

/-- Settles O12: the slot is emptied before the escalation, which writes none, and each partition in its scope is stopped in turn. -/
theorem escalationStopsPartitions : Obligations.EscalationStopsPartitions := by
  intro s j hs hv
  refine ⟨_, exec_escalation j hs hv, ?_, ?_, fun p hp => ?_⟩
  · refine decide_eq_false ?_
    rw [State.rd_commit _ _ _ _ _ rfl, State.escalated, State.rd_escalate_other _ _ _ _ _ _ rfl rfl (by decide) (by decide), State.slotEnded,
      State.dropPending, State.rd_wr_field _ _ _ _ _ _ (by decide),
      State.rd_wr_zero]
    decide
  · rw [State.commit_now, State.escalated, escalate_blind blind_now, State.slotEnded, State.dropPending, State.wr_now, State.wr_now,
      State.advanceTo_now]
    omega
  · have parts : (s.slotEnded j.val).scopeParts (scopeOf (s.rd .fltPendScope 0 j.val)) (s.pendOf j.val).unit =
        s.scopeParts (scopeOf (s.rd .fltPendScope 0 j.val)) (s.pendOf j.val).unit :=
      State.scopeParts_congr _ _ fun f i k hf => by
        rcases hf with rfl | rfl <;> exact s.rd_slotEnded _ _ _ (by decide) (by decide) (by decide)
    obtain ⟨free, escal, d, hd, stopped, part, tag, dies⟩ := (s.slotEnded j.val).escalate_stops _ _ (s.rd .fltPendSeq 0 j.val) (parts ▸ hp)
    refine ⟨?_, ?_, d, ?_, stopped, part, ?_, ?_⟩
    · rw [State.inForce, State.flag, State.rd_commit _ _ _ _ _ rfl]
      exact free
    · rw [State.flag, State.rd_commit _ _ _ _ _ rfl]
      exact escal
    · rw [State.ring_commit]
      exact hd
    · exact tag.trans (s.rd_slotEnded _ 0 p (by decide) (by decide) (by decide))
    · exact dies.trans (s.rd_slotEnded _ 0 p (by decide) (by decide) (by decide))

end Sys2Proof.Machine

/-!
Settles O13 and O14: acknowledgement, re-arming, and the capture of the first error of a class (R278, R284, R286).
-/

namespace Sys2Proof.Machine

/-! ## Acknowledgement -/

theorem State.onlyChanges_dropPending {s n : State} {l : List FieldRef} {ts : List Tab} (h : s.onlyChanges n l ts) (j : Nat)
    (hv : (⟨.fltPendValid, 0, j⟩ : FieldRef) ∈ l) (hr : (⟨.fltPendRemain, 0, j⟩ : FieldRef) ∈ l) : s.onlyChanges (n.dropPending j) l ts :=
  State.onlyChanges_wr (State.onlyChanges_wr h .fltPendValid 0 0 j hv) .fltPendRemain 0 0 j hr

/-- The two elements of each slot. -/
def slotRefs (l : List Nat) : List FieldRef := l.flatMap fun j => [⟨.fltPendValid, 0, j⟩, ⟨.fltPendRemain, 0, j⟩]

theorem mem_slotRefs {l : List Nat} {j : Nat} (h : j ∈ l) :
    (⟨.fltPendValid, 0, j⟩ : FieldRef) ∈ slotRefs l ∧ (⟨.fltPendRemain, 0, j⟩ : FieldRef) ∈ slotRefs l :=
  ⟨List.mem_flatMap.2 ⟨j, h, by simp⟩, List.mem_flatMap.2 ⟨j, h, by simp⟩⟩

theorem field_slotRefs {l : List Nat} {r : FieldRef} (h : r ∈ slotRefs l) : r.f = .fltPendValid ∨ r.f = .fltPendRemain := by
  obtain ⟨j, -, hr⟩ := List.mem_flatMap.1 h
  simp only [List.mem_cons, List.not_mem_nil, or_false] at hr
  rcases hr with rfl | rfl <;> simp

/-- An acknowledgement writes the elements of the slots that it names and nothing else. -/
theorem State.onlyChanges_ack (s : State) (l : List Nat) : s.onlyChanges (s.ack l) (slotRefs l) [] := by
  have each (k : List Nat) (hk : ∀ j ∈ k, j ∈ l) (n : State) (h : s.onlyChanges n (slotRefs l) []) :
      s.onlyChanges (n.each k State.dropPending) (slotRefs l) [] := by
    unfold State.each
    induction k generalizing n with
    | nil => exact h
    | cons j k ih =>
      obtain ⟨hj, hk⟩ := List.forall_mem_cons.1 hk
      exact ih hk _ (State.onlyChanges_dropPending h j (mem_slotRefs hj).1 (mem_slotRefs hj).2)
  exact each l (fun _ h => h) s (s.onlyChanges_refl _ _)

theorem State.valid_dropPending_same (s : State) (j : Nat) : (s.dropPending j).flag .fltPendValid 0 j = false := by
  refine decide_eq_false ?_
  rw [State.dropPending, State.rd_wr_field _ _ _ _ _ _ (by decide), State.rd_wr_zero]
  decide

theorem State.valid_dropPending {s : State} {k : Nat} (j : Nat) (h : s.flag .fltPendValid 0 k = false) :
    (s.dropPending j).flag .fltPendValid 0 k = false := by
  by_cases e : j = k
  · rw [e]
    exact s.valid_dropPending_same k
  · have same : (s.dropPending j).rd .fltPendValid 0 k = s.rd .fltPendValid 0 k := by
      rw [State.dropPending, State.rd_wr_field _ _ _ _ _ _ (by decide)]
      exact State.reg_put_other s 0 (by simpa using e)
    exact (congrArg (fun n => decide (n = 1)) same).trans h

/-- A slot is valid after an acknowledgement where it was and is not named. -/
theorem State.valid_ack (s : State) (l : List Nat) (j : Nat) :
    (s.ack l).flag .fltPendValid 0 j = (s.flag .fltPendValid 0 j && !decide (j ∈ l)) := by
  by_cases hj : j ∈ l
  · rw [decide_eq_true hj, Bool.not_true, Bool.and_false]
    exact State.each_sets (P := fun t => t.flag .fltPendValid 0 j = false) hj (fun t => t.valid_dropPending_same j)
      (fun t k ht => State.valid_dropPending k ht) s
  · have other : (⟨.fltPendValid, 0, j⟩ : FieldRef) ∉ slotRefs l := by simpa [slotRefs] using hj
    have same : (s.ack l).rd .fltPendValid 0 j = s.rd .fltPendValid 0 j := (s.onlyChanges_ack l).1 _ other
    rw [decide_eq_false hj, Bool.not_false, Bool.and_true]
    exact congrArg (fun n => decide (n = 1)) same

theorem mem_ackSlots (s : State) (seq : Nat) (all : Bool) {j : Nat} (hj : j < 16) :
    decide (j ∈ s.ackSlots seq all) = (s.flag .fltPendValid 0 j && (all || decide (s.rd .fltPendSeq 0 j = seq))) := by
  rw [Bool.eq_iff_iff, decide_eq_true_iff, State.ackSlots, List.mem_filter, upto, List.mem_range]
  exact and_iff_right hj

theorem exec_faultAck {s : State} (p : Port) (v : Word) (hs : s.aon = true) :
    exec (.faultAck p v) s = .next (s.commit (s.ack (s.ackSlots (v.toNat % 2 ^ 16) (testBit v.toNat 16)))) :=
  State.run_on (fun s => s.ack (s.ackSlots (v.toNat % 2 ^ 16) (testBit v.toNat 16))) hs

/-! ## Re-arming -/

/-- The classes whose capture a write to FLT.FCLR re-arms. -/
def State.rearmed (s : State) (v : Nat) : State := s.each ((upto 3).filter (testBit v)) fun s c => s.wr .fltFirstValid 0 0 c

theorem exec_firstErrorRearm {s : State} (p : Port) (v : BitVec 3) (hs : s.aon = true) :
    exec (.firstErrorRearm p v) s = .next (s.commit (s.rearmed v.toNat)) :=
  State.run_on (fun s => s.rearmed v.toNat) hs

theorem State.onlyChanges_rearmed (s : State) (v : Nat) :
    s.onlyChanges (s.rearmed v) [⟨.fltFirstValid, 0, 0⟩, ⟨.fltFirstValid, 0, 1⟩, ⟨.fltFirstValid, 0, 2⟩] [] := by
  have each (k : List Nat) (hk : ∀ c ∈ k, c < 3) (n : State)
      (h : s.onlyChanges n [⟨.fltFirstValid, 0, 0⟩, ⟨.fltFirstValid, 0, 1⟩, ⟨.fltFirstValid, 0, 2⟩] []) :
      s.onlyChanges (n.each k fun s c => s.wr .fltFirstValid 0 0 c)
        [⟨.fltFirstValid, 0, 0⟩, ⟨.fltFirstValid, 0, 1⟩, ⟨.fltFirstValid, 0, 2⟩] [] := by
    unfold State.each
    induction k generalizing n with
    | nil => exact h
    | cons c k ih =>
      obtain ⟨hc, hk⟩ := List.forall_mem_cons.1 hk
      exact ih hk _ (State.onlyChanges_wr h .fltFirstValid 0 0 c (by interval_cases c <;> simp))
  exact each _ (fun c hc => List.mem_range.1 (List.mem_filter.1 hc).1) s (s.onlyChanges_refl _ _)

theorem State.firstValid_rearmed (s : State) (v : Nat) {c : Nat} (hc : c < 3) :
    (s.rearmed v).rd .fltFirstValid 0 c = if testBit v c then 0 else s.rd .fltFirstValid 0 c := by
  have zero (t : State) (k : Nat) (h : k = c ∨ t.rd .fltFirstValid 0 c = 0) : (t.wr .fltFirstValid 0 0 k).rd .fltFirstValid 0 c = 0 := by
    by_cases e : k = c
    · rw [e, State.rd_wr_zero]
    · exact (State.reg_put_other t 0 (by simpa using e)).trans (h.resolve_left e)
  have same (t : State) (k : Nat) (h : k ≠ c) : (t.wr .fltFirstValid 0 0 k).rd .fltFirstValid 0 c = t.rd .fltFirstValid 0 c :=
    State.reg_put_other t 0 (by simpa using h)
  split
  · next hb =>
    exact State.each_sets (P := fun t => t.rd .fltFirstValid 0 c = 0) (List.mem_filter.2 ⟨List.mem_range.2 hc, hb⟩)
      (fun t => zero t c (.inl rfl)) (fun t k ht => zero t k (.inr ht)) s
  · next hb =>
    have each (l : List Nat) (hl : c ∉ l) (t : State) :
        (t.each l fun s c => s.wr .fltFirstValid 0 0 c).rd .fltFirstValid 0 c = t.rd .fltFirstValid 0 c := by
      unfold State.each
      induction l generalizing t with
      | nil => rfl
      | cons k l ih =>
        obtain ⟨hk, hl⟩ := not_or.1 (fun h => hl (List.mem_cons.2 h))
        exact (ih hl _).trans (same t k (Ne.symm hk))
    exact each _ (fun h => hb (List.mem_filter.1 h).2) s

/-- Settles O13: the slots that an acknowledgement names are those valid of its number, or all valid ones; FCLR writes one flag for each bit. -/
theorem acknowledgeAndRearm : Obligations.AcknowledgeAndRearm := by
  refine ⟨fun s p v hs => ?_, fun s p v hs => ?_⟩
  · obtain ⟨regs, tabs, core⟩ := State.onlyChanges_commit (s.onlyChanges_ack (s.ackSlots (v.toNat % 2 ^ 16) (testBit v.toNat 16)))
    refine ⟨_, exec_faultAck p v hs, fun j hj => ?_, fun r hr => regs r fun h => ?_, tabs, core⟩
    · rw [State.flag, State.rd_commit _ _ _ _ _ rfl]
      refine (s.valid_ack _ j).trans ?_
      rw [mem_ackSlots s _ _ hj]
      cases s.flag .fltPendValid 0 j <;> simp
    · simp [field_slotRefs h] at hr
  · refine ⟨_, exec_firstErrorRearm p v hs, fun c hc => ?_, State.onlyChanges_commit (s.onlyChanges_rearmed _)⟩
    rw [State.rd_commit _ _ _ _ _ rfl, s.firstValid_rearmed _ hc]

/-! ## The first error of a class -/

theorem exec_govErrReadback {s : State} (h : Hall) (hs : s.aon = true) :
    exec (.govErrReadback h) s = .next (s.commit ((s.wr .fltStatusGoverrbad 1).raise (corr 2 3 (40 + h.val) 0))) :=
  State.run_on (fun s => (s.wr .fltStatusGoverrbad 1).raise (corr 2 3 (40 + h.val) 0)) hs

theorem State.raise_corrected (s : State) {x : FaultRec} (hx : x.cls = .corrected) :
    s.raise x = ((s.countFault x).capture x).event (x.src * 256 + x.detail) 1 x.unit (s.unitPart x.unit) := by
  simp only [State.raise, hx]
  rfl

theorem State.wr_other {α : Type} {g : State → α} (hr : ∀ s x, g { s with regs := x } = g s) (hl : ∀ s x, g { s with limits := x } = g s)
    (s : State) (f : Field) (v i j : Nat) : g (s.wr f v i j) = g s :=
  State.put_other g hr hl s ⟨f, i, j⟩ v

theorem State.count_other {α : Type} {g : State → α} (hr : ∀ s x, g { s with regs := x } = g s) (hl : ∀ s x, g { s with limits := x } = g s)
    (s : State) (f : Field) (n i j : Nat) : g (s.count f n i j) = g s :=
  State.wr_other hr hl s f _ i j

/-- A CORRECTED fault reaches registers and the Attic's queue alone. -/
theorem State.raise_corrected_other {α : Type} {g : State → α} (hr : ∀ s x, g { s with regs := x } = g s)
    (hl : ∀ s x, g { s with limits := x } = g s) (ha : ∀ s x, g { s with attic := x } = g s) (s : State) {x : FaultRec}
    (hx : x.cls = .corrected) : g (s.raise x) = g s := by
  have event (t : State) (a b c : Nat) (p : Option Nat) : g (t.event a b c p) = g t := by
    unfold State.event
    split
    · exact ha t _
    · exact State.count_other hr hl t _ _ _ _
  rw [s.raise_corrected hx, event, State.capture_other hr hl]
  simp only [State.countFault, hx]
  rw [State.count_other hr hl, State.count_other hr hl]

/-- A CORRECTED fault reaches no table. -/
theorem State.sameTabs_raise_corrected {s n : State} {l : List Tab} (h : s.sameTabsBut n l) {x : FaultRec} (hx : x.cls = .corrected) :
    s.sameTabsBut (n.raise x) l := by
  intro tab ht
  have same := h tab ht
  cases tab <;> exact 
    (State.raise_corrected_other (g := fun t => s.sameIn t _) (fun _ _ => rfl) (fun _ _ => rfl) (fun _ _ => rfl) n hx).mpr same

/-- The record of a first error of class c (R284): every field of the class's capture but the count of those that follow. -/
def firstRecord (x : FaultRec) (c now part : Nat) : List (FieldRef × Nat) :=
  [(⟨.fltFirstAddr, 0, c⟩, x.addr), (⟨.fltFirstSrc, 0, c⟩, x.src), (⟨.fltFirstAcc, 0, c⟩, x.acc), (⟨.fltFirstValid, 0, c⟩, 1),
   (⟨.fltFirstUnit, 0, c⟩, x.unit), (⟨.fltFirstDetail, 0, c⟩, x.detail), (⟨.fltFirstTime, 0, c⟩, now), (⟨.fltFirstScope, 0, c⟩, x.scope.num),
   (⟨.fltFirstPart, 0, c⟩, part)]

theorem State.capture_first {s : State} {x : FaultRec} {c : Nat} (hc : x.cls.num = c) (h : s.flag .fltFirstValid 0 c = false) :
    s.capture x = s.puts (firstRecord x c s.now ((s.unitPart x.unit).getD 0)) := by
  simp only [State.capture, hc, h, Bool.false_eq_true, if_false]
  rfl

theorem State.capture_more {s : State} {x : FaultRec} {c : Nat} (hc : x.cls.num = c) (h : s.flag .fltFirstValid 0 c = true) :
    s.capture x = s.count .fltFirstMore 1 0 c := by
  simp only [State.capture, hc, h, if_true]

/-- The fields of a record read back as written, where they fit. -/
theorem State.rd_firstRecord (s : State) (x : FaultRec) (now part : Nat) :
    (s.puts (firstRecord x 0 now part)).rd .fltFirstValid = 1 ∧ (s.puts (firstRecord x 0 now part)).rd .fltFirstSrc = x.src % 2 ^ 5 ∧
      (s.puts (firstRecord x 0 now part)).rd .fltFirstDetail = x.detail % 2 ^ 8 ∧
      (s.puts (firstRecord x 0 now part)).rd .fltFirstUnit = x.unit % 2 ^ 16 ∧
      (s.puts (firstRecord x 0 now part)).rd .fltFirstTime = now % 2 ^ 64 := by
  have there (f : Field) (h : f = .fltFirstValid ∨ f = .fltFirstSrc ∨ f = .fltFirstDetail ∨ f = .fltFirstUnit ∨ f = .fltFirstTime) :
      (⟨f, 0, 0⟩ : FieldRef).exists = true := by
    rcases h with rfl | rfl | rfl | rfl | rfl <;> rfl
  simp only [State.puts, firstRecord, State.rd, State.reg_put, FieldRef.mk.injEq, reduceCtorEq, false_and,
    and_true, if_false, there _ (.inl rfl), there _ (.inr (.inl rfl)), there _ (.inr (.inr (.inl rfl))),
    there _ (.inr (.inr (.inr (.inl rfl)))), there _ (.inr (.inr (.inr (.inr rfl)))), if_true]
  exact ⟨rfl, rfl, rfl, rfl, rfl⟩

/-- The state with the read-back noted and the CORRECTED fault raised. -/
def State.govErrBad (s : State) (h : Nat) : State := (s.wr .fltStatusGoverrbad 1).raise (corr 2 3 (40 + h) 0)

/-- A field of the first error of the CORRECTED class, after the fault as after its capture. -/
theorem State.rd_govErrBad_first (s : State) (h : Nat) {f : Field} (hn : noticeField f = false) :
    (s.govErrBad h).rd f =
      ((((s.wr .fltStatusGoverrbad 1).countFault (corr 2 3 (40 + h) 0))).capture (corr 2 3 (40 + h) 0)).rd f := by
  rw [State.govErrBad, State.raise_corrected _ rfl, event_notice (notice_rd 0 0 hn)]

/-- What is read of the fields of the first CORRECTED error before its capture. -/
theorem State.rd_govErrCounted (s : State) (h : Nat) {f : Field} (hc : .fltCorr ≠ f) (hs : .fltSrccntCorr ≠ f)
    (hg : .fltStatusGoverrbad ≠ f) : ((s.wr .fltStatusGoverrbad 1).countFault (corr 2 3 (40 + h) 0)).rd f = s.rd f := by
  simp only [State.countFault, corr, State.count]
  rw [State.rd_wr_field _ _ _ _ _ _ hs, State.rd_wr_field _ _ _ _ _ _ hc, State.rd_wr_field _ _ _ _ _ _ hg]

theorem State.now_govErrCounted (s : State) (h : Nat) : ((s.wr .fltStatusGoverrbad 1).countFault (corr 2 3 (40 + h) 0)).now = s.now := by
  simp only [State.countFault, corr, State.count_now, State.wr_now]

/-- Settles O14: the read-back writes its flag, and its CORRECTED fault is counted once and captured where nothing is. -/
theorem firstErrorIsCaptured : Obligations.FirstErrorIsCaptured := by
  intro s h hs hnow
  have kept (f : Field) (hf : faultField f = false) (hb : .fltStatusGoverrbad ≠ f) (i j : Nat) :
      (s.govErrBad h.val).rd f i j = s.rd f i j := by
    rw [State.govErrBad, rd_raise _ _ _ _ _ FaultClass.noConfusion hf, State.rd_wr_field _ _ _ _ _ _ hb]
  refine ⟨_, exec_govErrReadback h hs, ?_, ?_, State.sameFields_commit fun r hr => ?_, State.sameTabs_commit ?_, ?_⟩
  · refine decide_eq_true ?_
    rw [State.rd_commit _ _ _ _ _ rfl, rd_raise _ _ _ _ _ FaultClass.noConfusion rfl, State.rd_wr_same _ _ _ _ _ rfl]
    rfl
  · rw [State.rd_commit _ _ _ _ _ rfl, State.fltCorr_raise_corrected _ rfl, State.oneUp, State.rd_wr_field _ _ _ _ _ _ (by decide)]
  · obtain ⟨hf, hb⟩ : faultField r.f = false ∧ r.f ≠ .fltStatusGoverrbad := by simpa using hr
    exact kept r.f hf hb.symm r.i r.j
  · exact State.sameTabs_raise_corrected (State.onlyChanges_wr (s.onlyChanges_refl [⟨.fltStatusGoverrbad, 0, 0⟩] []) _ _ 0 0 (by simp)).2.1 rfl
  · have counted {f : Field} (hc : .fltCorr ≠ f) (hs : .fltSrccntCorr ≠ f) (hg : .fltStatusGoverrbad ≠ f) := s.rd_govErrCounted h.val hc hs hg
    have valid : ((s.wr .fltStatusGoverrbad 1).countFault (corr 2 3 (40 + h.val) 0)).flag .fltFirstValid 0 0 = s.flag .fltFirstValid 0 0 :=
      congrArg (fun n => decide (n = 1)) (counted (by decide) (by decide) (by decide))
    have read {f : Field} (hn : noticeField f = false) (hl : f.isLimit = false) :=
      (State.rd_commit s (s.govErrBad h.val) f 0 0 hl).trans (s.rd_govErrBad_first h.val hn)
    split
    · next hv =>
      rw [← valid] at hv
      have width : (fieldDef .fltFirstMore).width = 16 := rfl
      refine ⟨(read rfl rfl).trans ?_, (read rfl rfl).trans ?_, (read rfl rfl).trans ?_⟩ <;> rw [State.capture_more (c := 0) rfl hv, State.count]
      · rw [State.rd_wr_same _ _ _ _ _ rfl, counted (by decide) (by decide) (by decide), width]
        exact Nat.mod_eq_of_lt (by omega)
      · rw [State.rd_wr_field _ _ _ _ _ _ (by decide), counted (by decide) (by decide) (by decide)]
      · rw [State.rd_wr_field _ _ _ _ _ _ (by decide), counted (by decide) (by decide) (by decide)]
    · next hv =>
      rw [← valid, Bool.not_eq_true] at hv
      obtain ⟨set, src, detail, unit, time⟩ := State.rd_firstRecord ((s.wr .fltStatusGoverrbad 1).countFault (corr 2 3 (40 + h.val) 0))
        (corr 2 3 (40 + h.val) 0) s.now
        ((((s.wr .fltStatusGoverrbad 1).countFault (corr 2 3 (40 + h.val) 0)).unitPart (corr 2 3 (40 + h.val) 0).unit).getD 0)
      have fits : (40 + h.val) % 2 ^ 16 = 40 + h.val := by have := h.isLt; omega
      refine ⟨decide_eq_true ((read rfl rfl).trans ?_), (read rfl rfl).trans ?_, (read rfl rfl).trans ?_, (read rfl rfl).trans ?_,
        (read rfl rfl).trans ?_⟩ <;> rw [State.capture_first (c := 0) rfl hv, s.now_govErrCounted]
      · exact set
      · exact src
      · exact detail
      · exact unit.trans fits
      · exact time.trans (Nat.mod_eq_of_lt hnow)

end Sys2Proof.Machine

/-!
Settles O16: targeted self-tests and error pairs. A self-test is one count; what follows a failure is a rail's phase, a way of the memory, a
lane or a fault; an error pair's level is a pair's condition, its show and one fault (R285, R288).
-/

namespace Sys2Proof.Machine

/-! ## A self-test counted -/

theorem State.rd_count_same (s : State) {f : Field} {i j : Nat} (h : (⟨f, i, j⟩ : FieldRef).exists = true) :
    (s.count f 1 i j).rd f i j = s.oneUp f i j := by
  rw [State.count, State.rd_wr_same _ _ _ _ _ h, State.oneUp]
  exact Nat.mod_eq_of_lt (lt_of_le_of_lt (min_le_right _ _) (Nat.sub_lt (Nat.two_pow_pos _) Nat.one_pos))

theorem State.fltTrans_selfTest (s : State) : (s.selfTest true).rd .fltTrans = s.oneUp .fltTrans :=
  s.rd_count_same rfl

theorem State.fltLasting_selfTest (s : State) : (s.selfTest false).rd .fltLasting = s.oneUp .fltLasting :=
  s.rd_count_same rfl

theorem State.rd_selfTest (s : State) (pass : Bool) {f : Field} (i j : Nat) (ht : .fltTrans ≠ f) (hl : .fltLasting ≠ f) :
    (s.selfTest pass).rd f i j = s.rd f i j := by
  cases pass
  · exact s.rd_wr_field _ _ _ _ _ hl
  · exact s.rd_wr_field _ _ _ _ _ ht

theorem State.selfTest_other {α : Type} {g : State → α} (hr : ∀ s x, g { s with regs := x } = g s) (hl : ∀ s x, g { s with limits := x } = g s)
    (s : State) (pass : Bool) : g (s.selfTest pass) = g s :=
  State.count_other hr hl s _ _ _ _

/-- A test that passes is counted as transient and does nothing else. -/
theorem State.onlyChanges_pass (s : State) : s.onlyChanges (s.commit (s.selfTest true)) [⟨.fltTrans, 0, 0⟩] [] :=
  State.onlyChanges_commit (State.onlyChanges_wr (s.onlyChanges_refl _ _) .fltTrans _ 0 0 List.mem_cons_self)

/-! ## Phases -/

/-- A phase that reads masked exists. -/
theorem phase_exists {s : State} {r p : Nat} (h : s.phMasked r p = true) : (⟨.rgcPhstatPh, r, p⟩ : FieldRef).exists = true := by
  by_contra he
  have off : s.ph r p = 0 := s.reg_absent (Bool.eq_false_iff.2 he)
  simp [State.phMasked, off, testBit] at h

theorem exec_phaseSelftest_pass {s : State} {r : Rail} {p : Phase} {b e : Int} (hs : s.aon = true) (hm : s.phMasked r.val p.val = true)
    (hp : b + 16 ≤ e) :
    exec (.phaseSelftest r p b e) s =
      .next (s.commit (((s.selfTest true).wr .rgcPhstatPh (s.ph r.val p.val - 8) r.val p.val).disturb r.val)) := by
  change execPhaseSelftest r p b e s = _
  rw [execPhaseSelftest, State.run_on _ hs]
  simp only [hm, hp, decide_true, if_true]

theorem exec_phaseSelftest_fail {s : State} {r : Rail} {p : Phase} {b e : Int} (hs : s.aon = true) (hm : s.phMasked r.val p.val = true)
    (hp : ¬ b + 16 ≤ e) :
    exec (.phaseSelftest r p b e) s = .next (s.commit ((s.selfTest false).retirePhase r.val p.val)) := by
  change execPhaseSelftest r p b e s = _
  rw [execPhaseSelftest, State.run_on _ hs]
  simp only [hm, hp, decide_false, if_true, Bool.false_eq_true, if_false]

/-- The state with this list of the phases told to the commanders. -/
def State.tellPhases (s : State) (l : List (Nat × Nat)) : State := { s with phasesOut := l }

theorem State.rd_tellPhases (s : State) (l : List (Nat × Nat)) (f : Field) (i j : Nat) : (s.tellPhases l).rd f i j = s.rd f i j := rfl

/-- The state with a phase retired and the commanders told. -/
def State.phaseOut (s : State) (r p : Nat) : State := ((s.wr .rgcPhstatPh 4 r p).disturb r).tellPhases (s.phasesOut ++ [(r, p)])

theorem State.rd_phaseOut (s : State) (r p : Nat) (f : Field) (i j : Nat) : (s.phaseOut r p).rd f i j = (s.wr .rgcPhstatPh 4 r p).rd f i j := by
  rw [State.phaseOut, State.rd_tellPhases, State.disturb, State.rd_updRail]

/-- A phase is retired with one fault. -/
theorem State.retirePhase_raises (s : State) (r p : Nat) :
    ∃ x : FaultRec, x.cls ≠ .fatal ∧ s.retirePhase r p = (s.phaseOut r p).raise x := by
  unfold State.retirePhase
  dsimp only
  split
  · exact ⟨_, FaultClass.noConfusion, rfl⟩
  · exact ⟨_, FaultClass.noConfusion, rfl⟩

theorem blind_phasesOut : FaultBlind fun s : State => s.phasesOut := by apply blind_of <;> intros <;> rfl

theorem State.phase_retirePhase (s : State) {r p : Nat} (h : (⟨.rgcPhstatPh, r, p⟩ : FieldRef).exists = true) :
    (s.retirePhase r p).ph r p = 4 ∧ (s.retirePhase r p).phasesOut = s.phasesOut ++ [(r, p)] := by
  obtain ⟨x, hx, raised⟩ := s.retirePhase_raises r p
  rw [raised]
  refine ⟨?_, raise_blind blind_phasesOut _ x hx⟩
  rw [State.ph, rd_raise _ _ _ _ _ hx rfl, State.rd_phaseOut, State.rd_wr_same _ _ _ _ _ h]
  rfl

theorem State.rd_retirePhase (s : State) (r p : Nat) {f : Field} (i j : Nat) (hf : faultField f = false) (hp : .rgcPhstatPh ≠ f) :
    (s.retirePhase r p).rd f i j = s.rd f i j := by
  obtain ⟨x, hx, raised⟩ := s.retirePhase_raises r p
  rw [raised, rd_raise _ _ _ _ _ hx hf, State.rd_phaseOut, State.rd_wr_field _ _ _ _ _ _ hp]

/-- Bit 3 of a phase's code is clear once 8 has been taken from a masked one. -/
theorem unmasked {n : Nat} (h : testBit n 3 = true) : testBit ((n - 8) % 2 ^ 4) 3 = false := by
  simp only [testBit, decide_eq_true_eq, decide_eq_false_iff_not] at *
  omega

theorem phaseSelftest_lands {s : State} (r : Rail) (p : Phase) (b e : Int) (hs : s.aon = true) (hm : s.phMasked r.val p.val = true) :
    ∃ t, exec (.phaseSelftest r p b e) s = .next t ∧
      if b + 16 ≤ e then t.phMasked r.val p.val = false ∧ t.phasesOut = s.phasesOut ∧ t.rd .fltTrans = s.oneUp .fltTrans
      else t.ph r.val p.val = 4 ∧ t.phasesOut = s.phasesOut ++ [(r.val, p.val)] ∧ t.rd .fltLasting = s.oneUp .fltLasting := by
  have there := phase_exists hm
  have out (pass : Bool) : (s.selfTest pass).phasesOut = s.phasesOut :=
    State.selfTest_other (g := State.phasesOut) (fun _ _ => rfl) (fun _ _ => rfl) s pass
  split
  · next hp =>
    refine ⟨_, exec_phaseSelftest_pass hs hm hp, ?_, ?_, ?_⟩
    · rw [State.phMasked, State.ph, State.rd_commit _ _ _ _ _ rfl, State.disturb, State.rd_updRail, State.rd_wr_same _ _ _ _ _ there]
      exact unmasked hm
    · exact (State.wr_phasesOut _ _ _ _ _).trans (out true)
    · rw [State.rd_commit _ _ _ _ _ rfl, State.disturb, State.rd_updRail, State.rd_wr_field _ _ _ _ _ _ (by decide), s.fltTrans_selfTest]
  · next hp =>
    obtain ⟨phase, told⟩ := (s.selfTest false).phase_retirePhase there
    refine ⟨_, exec_phaseSelftest_fail hs hm hp, ?_, told.trans (by rw [out false]), ?_⟩
    · rw [State.ph, State.rd_commit _ _ _ _ _ rfl]
      exact phase
    · rw [State.rd_commit _ _ _ _ _ rfl, State.rd_retirePhase _ _ _ _ _ rfl (by decide), s.fltLasting_selfTest]

/-! ## Ways of the memory -/

/-- The state with a way of a set withdrawn. -/
def State.wayOut (s : State) (u : MemUnit) (set : Nat) : State :=
  match u with
  | .larder => s.updLard fun l => { l with withdrawn := l.withdrawn ++ [set] }
  | .cellar => s.updLard fun l => { l with withdrawnC := l.withdrawnC ++ [set] }

/-- What a way that fails leaves: the count, the way withdrawn, and its set fitted to the ways that are left. -/
def State.wayFails (s : State) (u : MemUnit) (set : Nat) : State := ((s.selfTest false).wayOut u set).fitSet (decide (u = .cellar)) set

theorem exec_memoryWordSelftest_pass {s : State} (u : MemUnit) (set : Nat) (hs : s.aon = true) :
    exec (.memoryWordSelftest u set true) s = .next (s.commit (s.selfTest true)) := by
  change execMemoryWordSelftest u set true s = _
  rw [execMemoryWordSelftest, State.run_on _ hs]
  simp only [if_true]

theorem exec_memoryWordSelftest_fail {s : State} (u : MemUnit) (set : Nat) (hs : s.aon = true) :
    exec (.memoryWordSelftest u set false) s = .next (s.commit (s.wayFails u set)) := by
  change execMemoryWordSelftest u set false s = _
  rw [execMemoryWordSelftest, State.run_on _ hs]
  cases u <;> rfl

/-- A set is fitted by dropping an entry, which no register holds and no withdrawn way. -/
theorem State.fitSet_keeps {α : Type} {g : State → α}
    (hg : ∀ (s : State) (f : LarderState → LarderState), (∀ l, (f l).withdrawn = l.withdrawn) → (∀ l, (f l).withdrawnC = l.withdrawnC) →
      g (s.updLard f) = g s) (s : State) (cellar : Bool) (set : Nat) : g (s.fitSet cellar set) = g s := by
  have kept (t : State) (k : LKey) : g (t.removeEntry cellar k) = g t := by
    have clear : g (t.clearBad cellar k) = g t := by
      refine hg t _ ?_ ?_ <;> exact fun _ => rfl
    have streamed (u : State) (x : MirrorOp) : g (u.stream x) = g u := by
      unfold State.stream
      split
      · refine hg u _ ?_ ?_ <;> exact fun _ => rfl
      · rfl
    unfold State.removeEntry
    dsimp only
    split
    · refine (hg _ _ ?_ ?_).trans clear <;> exact fun _ => rfl
    · refine (streamed _ _).trans ((hg _ _ ?_ ?_).trans clear) <;> exact fun _ => rfl
  unfold State.fitSet
  dsimp only
  split
  · rfl
  · split
    · exact kept _ _
    · rfl

theorem memoryWordSelftest_lands {s : State} (u : MemUnit) (set : Nat) (pass : Bool) (hs : s.aon = true) :
    ∃ t, exec (.memoryWordSelftest u set pass) s = .next t ∧
      (pass = true → s.onlyChanges t [⟨.fltTrans, 0, 0⟩] [] ∧ t.rd .fltTrans = s.oneUp .fltTrans) ∧
      (pass = false → s.sameRegsBut t [⟨.fltLasting, 0, 0⟩] ∧ t.rd .fltLasting = s.oneUp .fltLasting ∧
        match u with
        | .larder => t.lard.withdrawn = s.lard.withdrawn ++ [set]
        | .cellar => t.lard.withdrawnC = s.lard.withdrawnC ++ [set]) := by
  have lard : (s.selfTest false).lard = s.lard := State.selfTest_other (g := State.lard) (fun _ _ => rfl) (fun _ _ => rfl) s false
  cases pass with
  | true =>
    exact ⟨_, exec_memoryWordSelftest_pass u set hs, fun _ => ⟨s.onlyChanges_pass, (State.rd_commit _ _ _ _ _ rfl).trans s.fltTrans_selfTest⟩,
      Bool.noConfusion⟩
  | false =>
    have regs (f : Field) (i j : Nat) : (s.wayFails u set).rd f i j = (s.selfTest false).rd f i j := by
      rw [State.wayFails, State.fitSet_keeps (g := fun t => t.rd f i j) fun _ _ _ _ => rfl]
      cases u <;> rfl
    refine ⟨_, exec_memoryWordSelftest_fail u set hs, Bool.noConfusion, fun _ => ⟨fun r hr => ?_, ?_, ?_⟩⟩
    · cases hl : r.f.isLimit with
      | true => exact s.rd_commit_limit _ r.f r.i r.j hl
      | false =>
        have other : (⟨.fltLasting, 0, 0⟩ : FieldRef) ≠ r := fun e => hr (List.mem_singleton.2 e.symm)
        exact (s.rd_commit _ r.f r.i r.j hl).trans ((regs r.f r.i r.j).trans (State.reg_put_other s _ other))
    · exact (State.rd_commit _ _ _ _ _ rfl).trans ((regs _ _ _).trans s.fltLasting_selfTest)
    · cases u with
      | larder =>
        change (s.wayFails .larder set).lard.withdrawn = _
        rw [State.wayFails, State.fitSet_keeps (g := fun t => t.lard.withdrawn) fun t f h _ => h t.lard, ← lard]
        rfl
      | cellar =>
        change (s.wayFails .cellar set).lard.withdrawnC = _
        rw [State.wayFails, State.fitSet_keeps (g := fun t => t.lard.withdrawnC) fun t f _ h => h t.lard, ← lard]
        rfl

/-! ## Lanes and mailboxes -/

/-- A lane of a die to a Hall retired. -/
def State.laneOut (s : State) (d h : Nat) : State :=
  s.updHd d fun x => if h = 0 then { x with laneOutA := true } else { x with laneOutB := true }

theorem exec_laneSelftest_pass {s : State} (d : Die) (h : Hall) (hs : s.aon = true) :
    exec (.laneSelftest d h true) s = .next (s.commit (s.selfTest true)) := by
  change execLaneSelftest d h true s = _
  rw [execLaneSelftest, State.run_on _ hs]
  simp only [if_true]

theorem exec_laneSelftest_fail {s : State} (d : Die) (h : Hall) (hs : s.aon = true) :
    exec (.laneSelftest d h false) s =
      .next (s.commit (((s.selfTest false).laneOut d.val h.val).raise (corr 1 2 (unitOf d.val h.val) 7))) := by
  change execLaneSelftest d h false s = _
  rw [execLaneSelftest, State.run_on _ hs]
  simp only [State.laneOut, Bool.false_eq_true, if_false]

theorem State.hd_raise (s : State) {x : FaultRec} (d : Nat) : (s.raise x).hd d = s.hd d :=
  congrArg (Store.get HallDie.init · d) (raise_latch latch_halls s x)

theorem laneSelftest_lands {s : State} (d : Die) (h : Hall) (pass : Bool) (hs : s.aon = true) :
    ∃ t, exec (.laneSelftest d h pass) s = .next t ∧ (pass = true → s.onlyChanges t [⟨.fltTrans, 0, 0⟩] []) ∧
      (pass = false → t.rd .fltLasting = s.oneUp .fltLasting ∧ t.rd .fltCorr = s.oneUp .fltCorr ∧
        (if h.val = 0 then (t.hd d.val).laneOutA = true else (t.hd d.val).laneOutB = true)) := by
  cases pass with
  | true => exact ⟨_, exec_laneSelftest_pass d h hs, fun _ => s.onlyChanges_pass, Bool.noConfusion⟩
  | false =>
    refine ⟨_, exec_laneSelftest_fail d h hs, Bool.noConfusion, fun _ => ⟨?_, ?_, ?_⟩⟩
    · rw [State.rd_commit _ _ _ _ _ rfl, rd_raise _ _ _ _ _ FaultClass.noConfusion rfl, State.laneOut, State.rd_updHd, s.fltLasting_selfTest]
    · rw [State.rd_commit _ _ _ _ _ rfl, State.fltCorr_raise_corrected _ rfl, State.oneUp, State.laneOut, State.rd_updHd,
        State.rd_selfTest _ _ _ _ (by decide) (by decide), State.oneUp]
    · rw [State.hd_commit, State.hd_raise, State.laneOut, State.hd_updHd, if_pos rfl]
      split <;> rfl

/-- The fault of a mailbox that fails its test. -/
def mailboxFault (active m : Nat) : FaultRec := cont 6 2 (unitOf (36 + active) m) .package 7 (mbAddr m)

theorem exec_mailboxSelftest_pass {s : State} (m : Mbox) (hs : s.aon = true) :
    exec (.mailboxSelftest m true) s = .next (s.commit (s.selfTest true)) := by
  change execMailboxSelftest m true s = _
  rw [execMailboxSelftest, State.run_on _ hs]
  simp only [if_true]

theorem exec_mailboxSelftest_fail {s : State} (m : Mbox) (hs : s.aon = true) :
    exec (.mailboxSelftest m false) s = .next (s.commit ((s.selfTest false).raise (mailboxFault s.active m.val))) := by
  change execMailboxSelftest m false s = _
  rw [execMailboxSelftest, State.run_on _ hs]
  simp only [mailboxFault, Bool.false_eq_true, if_false]

theorem mailboxSelftest_lands {s : State} (m : Mbox) (pass : Bool) (hs : s.aon = true) :
    ∃ t, exec (.mailboxSelftest m pass) s = .next t ∧ (pass = true → s.onlyChanges t [⟨.fltTrans, 0, 0⟩] []) ∧
      (pass = false → t.rd .fltLasting = s.oneUp .fltLasting ∧ t.rd .fltCont = s.oneUp .fltCont) := by
  cases pass with
  | true => exact ⟨_, exec_mailboxSelftest_pass m hs, fun _ => s.onlyChanges_pass, Bool.noConfusion⟩
  | false =>
    refine ⟨_, exec_mailboxSelftest_fail m hs, Bool.noConfusion, fun _ => ⟨?_, ?_⟩⟩
    · rw [State.rd_commit _ _ _ _ _ rfl, rd_raise _ _ _ _ _ FaultClass.noConfusion rfl, s.fltLasting_selfTest]
    · rw [State.rd_commit _ _ _ _ _ rfl, State.fltCont_raise_contained _ rfl, State.oneUp,
        State.rd_selfTest _ _ _ _ (by decide) (by decide), State.oneUp]

/-! ## Error pairs -/

theorem exec_errorPair10 {s : State} (d : Die) (h : Hall) (hs : s.aon = true) :
    exec (.errorPairLevel d h .l10) s = .next (s.commit (s.failsafe 0 d.val)) :=
  State.run_on (fun s => s.failsafe 0 d.val) hs

theorem exec_errorPairBroken {s : State} (d : Die) (h : Hall) {l : PairLevel} (hs : s.aon = true) (hl : l = .l00 ∨ l = .l11) :
    exec (.errorPairLevel d h l) s = .next (s.commit (s.pairBroken d.val h.val)) := by
  rcases hl with rfl | rfl <;> exact State.run_on (fun s => s.pairBroken d.val h.val) hs

/-- What 01 on a pair leaves: its condition ended, where it stood. -/
def State.pairHeals (s : State) (d h : Nat) : State := if (s.hd d).pairTo h then s.setPair d h false else s

theorem exec_errorPair01 {s : State} (d : Die) (h : Hall) (hs : s.aon = true) :
    exec (.errorPairLevel d h .l01) s = .next (s.commit (s.pairHeals d.val h.val)) :=
  State.run_on (fun s => s.pairHeals d.val h.val) hs

/-- The latch is set after FAILSAFE whether it was before or not. -/
theorem State.fatal_failsafe (s : State) (src unit : Nat) : (s.failsafe src unit).flag .fltStatusFatal = true := by
  by_cases h : s.flag .fltStatusFatal = true
  · rw [State.failsafe, if_pos h]
    exact h
  · have latched := s.fatal_fatalLatched
    rw [State.flag] at latched ⊢
    rw [failsafe_svc (svc_rd 0 0 rfl rfl) _ _ (Bool.eq_false_iff.2 h), State.rd_trimEnded _ _ _ (by decide)]
    exact latched

/-- A sum of distinct powers of 2 below 2^n is below it. -/
theorem sumBits_lt (p : Nat → Bool) (n : Nat) : ((upto n).filter p).foldl (fun m k => m + 2 ^ k) 0 < 2 ^ n := by
  induction n with
  | zero => simp [upto]
  | succ n ih =>
    rw [upto, List.range_succ, List.filter_append, List.foldl_append]
    rw [upto] at ih
    have double := pow_succ 2 n
    cases hp : p n <;> simp only [hp, List.filter_cons, List.filter_nil, List.foldl_cons, List.foldl_nil, if_true, Bool.false_eq_true, if_false] <;>
      omega

/-- The pairs broken to the active Hall, as FLT.PAIRBRK shows them (R297). -/
def State.brokenPairs (s : State) (active : Nat) : Nat := ((upto 40).filter fun k => (s.hd k).pairTo active).foldl (fun n k => n + 2 ^ k) 0

theorem State.hd_setPair (s : State) (d h : Nat) (b : Bool) (k : Nat) :
    (s.setPair d h b).hd k = if d = k then (if h = 0 then { s.hd d with pairA := b } else { s.hd d with pairB := b }) else s.hd k := by
  rw [State.setPair, State.showPairs, State.hd, State.wr_halls]
  exact s.hd_updHd d _ k

/-- The registers of a pair's condition: the show of all pairs alone. -/
theorem State.rd_setPair (s : State) (d h : Nat) (b : Bool) {f : Field} (i j : Nat) (hf : .fltPairbrkBrk ≠ f) :
    (s.setPair d h b).rd f i j = s.rd f i j := by
  rw [State.setPair, State.showPairs, State.rd_wr_field _ _ _ _ _ _ hf, State.rd_updHd]

theorem State.pairbrk_setPair (s : State) (d h : Nat) (b : Bool) :
    (s.setPair d h b).rd .fltPairbrkBrk = (s.setPair d h b).brokenPairs s.active := by
  have shown (t : State) : t.showPairs.rd .fltPairbrkBrk = t.brokenPairs t.active := by
    rw [State.showPairs, State.rd_wr_same _ _ _ _ _ rfl]
    exact Nat.mod_eq_of_lt (sumBits_lt _ 40)
  have same : (s.setPair d h b).brokenPairs s.active = State.brokenPairs (s.updHd d fun x => if h = 0 then { x with pairA := b } else
      { x with pairB := b }) s.active := by
    simp only [State.brokenPairs, State.hd_setPair, State.hd_updHd]
  rw [same]
  exact shown _

/-- A pair newly broken: its condition shown, and one fault, CONTAINED where the die's other pair is broken too (R285). -/
theorem State.pairBroken_raises {s : State} {d h : Nat} (hh : h < 2) (hp : (s.hd d).pairTo h = false) :
    s.pairBroken d h =
      (s.setPair d h true).raise (if (s.hd d).pairTo (1 - h) then cont 2 2 (unitOf d h) (dieScope d) 0 else corr 2 1 (unitOf d h) 0) := by
  have both : (((s.setPair d h true).hd d).pairA && ((s.setPair d h true).hd d).pairB) = (s.hd d).pairTo (1 - h) := by
    rw [State.hd_setPair, if_pos rfl]
    interval_cases h <;> simp [HallDie.pairTo]
  unfold State.pairBroken
  rw [if_neg (by rw [hp]; exact Bool.false_ne_true)]
  dsimp only
  rw [both]
  split <;> rfl

theorem errorPairBroken_lands {s : State} (d : Die) (h : Hall) {l : PairLevel} (hs : s.aon = true) (hl : l = .l00 ∨ l = .l11)
    (hp : (s.hd d.val).pairTo h.val = false) :
    ∃ t, exec (.errorPairLevel d h l) s = .next t ∧ (t.hd d.val).pairTo h.val = true ∧ t.rd .fltPairbrkBrk = t.brokenPairs s.active ∧
      (if (s.hd d.val).pairTo (1 - h.val) then t.rd .fltCont = s.oneUp .fltCont else t.rd .fltCorr = s.oneUp .fltCorr) := by
  have kept (f : Field) (hf : .fltPairbrkBrk ≠ f) : (s.setPair d.val h.val true).rd f = s.rd f := s.rd_setPair _ _ _ _ _ hf
  have raised := State.pairBroken_raises h.isLt hp
  have same (x : FaultRec) : ((s.setPair d.val h.val true).raise x).brokenPairs s.active = (s.setPair d.val h.val true).brokenPairs s.active := by
    simp only [State.brokenPairs, State.hd_raise]
  refine ⟨_, exec_errorPairBroken d h hs hl, ?_, ?_, ?_⟩ <;> rw [raised]
  · rw [State.hd_commit, State.hd_raise, State.hd_setPair, if_pos rfl, HallDie.pairTo]
    split <;> rfl
  · have nonfatal (b : Bool) : (if b = true then cont 2 2 (unitOf d.val h.val) (dieScope d.val) 0 else corr 2 1 (unitOf d.val h.val) 0).cls ≠
        .fatal := by cases b <;> exact FaultClass.noConfusion
    have shown (t : State) : (s.commit t).brokenPairs s.active = t.brokenPairs s.active := by simp only [State.brokenPairs, State.hd_commit]
    rw [State.rd_commit _ _ _ _ _ rfl, rd_raise _ _ _ _ _ (nonfatal _) rfl, State.pairbrk_setPair, shown, same]
  · split
    · next other =>
      rw [State.rd_commit _ _ _ _ _ rfl, State.fltCont_raise_contained _ rfl, State.oneUp, kept _ (by decide), State.oneUp]
    · next other =>
      rw [State.rd_commit _ _ _ _ _ rfl, State.fltCorr_raise_corrected _ rfl, State.oneUp, kept _ (by decide), State.oneUp]

theorem State.pairTo_pairHeals (s : State) (d h : Nat) : ((s.pairHeals d h).hd d).pairTo h = false := by
  unfold State.pairHeals
  split
  · rw [State.hd_setPair, if_pos rfl, HallDie.pairTo]
    split <;> rfl
  · next hp => exact Bool.eq_false_iff.2 hp

/-- Settles O16: each self-test of each kind, and each level of an error pair. -/
theorem selfTestsAndErrorPairs : Obligations.SelfTestsAndErrorPairs := by
  refine ⟨fun s r p b e u set d h m pass hs => ⟨phaseSelftest_lands r p b e hs, memoryWordSelftest_lands u set pass hs,
    laneSelftest_lands d h pass hs, mailboxSelftest_lands m pass hs⟩, fun s d h hs => ⟨?_, fun l hl hp => errorPairBroken_lands d h hs hl hp, ?_⟩⟩
  · refine ⟨_, exec_errorPair10 d h hs, ?_⟩
    rw [State.flag, State.rd_commit _ _ _ _ _ rfl]
    exact s.fatal_failsafe 0 d.val
  · refine ⟨_, exec_errorPair01 d h hs, ?_⟩
    rw [State.hd_commit]
    exact s.pairTo_pairHeals d.val h.val

end Sys2Proof.Machine

/-!
Settles O17: the warm resets of a compute die, of a control complex and of a host die, and compute-recovery reset (R9, R320, R391).
-/

namespace Sys2Proof.Machine

/-! ## A compute die -/

/-- The registers that entry into reset clears: the counts of pending requests. -/
def pendRefs (d : Nat) : List FieldRef := (upto 4).map (fun c => ⟨.dagAdmcorePend, d, c⟩) ++ [⟨.dagAdmstatPend, d, 0⟩]

theorem field_pendRefs {d : Nat} {r : FieldRef} (h : r ∈ pendRefs d) : r.f = .dagAdmcorePend ∨ r.f = .dagAdmstatPend := by
  rcases List.mem_append.1 h with h | h
  · obtain ⟨c, -, rfl⟩ := List.mem_map.1 h
    exact .inl rfl
  · rw [List.mem_singleton.1 h]
    exact .inr rfl

theorem State.onlyChanges_each {β : Type} {s n : State} {l : List FieldRef} {ts : List Tab} {f : State → β → State} (k : List β)
    (h : s.onlyChanges n l ts) (step : ∀ m, ∀ x ∈ k, s.onlyChanges m l ts → s.onlyChanges (f m x) l ts) : s.onlyChanges (n.each k f) l ts := by
  unfold State.each
  induction k generalizing n with
  | nil => exact h
  | cons x k ih =>
    exact ih (step n x List.mem_cons_self h) fun m y hy => step m y (List.mem_cons_of_mem _ hy)

theorem State.onlyChanges_updDie {s n : State} {l : List FieldRef} {ts : List Tab} (h : s.onlyChanges n l ts) (d : Nat)
    (f : DieState → DieState) (hd : Tab.dies ∈ ts) : s.onlyChanges (n.updDie d f) l ts :=
  State.onlyChanges_dies h _ hd

theorem State.onlyChanges_enterReset (s : State) (d : Nat) : s.onlyChanges (s.enterReset d) (pendRefs d) [.dies] := by
  unfold State.enterReset
  refine State.onlyChanges_wr (State.onlyChanges_each (upto 4) (State.onlyChanges_updDie (s.onlyChanges_refl _ _) d _ List.mem_cons_self)
    fun m c hc hm => ?_) _ _ d 0 (List.mem_append_right _ (List.mem_singleton_self _))
  exact State.onlyChanges_wr hm .dagAdmcorePend 0 d c (List.mem_append_left _ (List.mem_map_of_mem hc))

theorem State.dies_enterReset (s : State) (d : Nat) : (s.enterReset d).dies = (s.updDie d fun x =>
    { x with windows := [], overflow := []
             adm := { (upto 24).foldl (fun a i => a.ended (i / 6) (i % 6)) x.adm with reqs := [], limiters := [], debt := 0, notices := [] } }).dies := by
  unfold State.enterReset
  rw [State.wr_dies]
  exact each_blind (g := State.dies) _ _ (fun t c => t.wr_dies _ _ _ _) _

/-- What entry into reset leaves of the die, and of the others. -/
theorem State.die_enterReset (s : State) (d e : Nat) :
    if d = e then
      ((s.enterReset d).die e).windows = [] ∧ ((s.enterReset d).die e).adm.reqs = [] ∧ ((s.enterReset d).die e).adm.limiters = [] ∧
        ((s.enterReset d).die e).adm.notices = [] ∧ ((s.enterReset d).die e).updBuf = (s.die e).updBuf
    else (s.enterReset d).die e = s.die e := by
  have dies := congrArg (Store.get DieState.init · e) (s.dies_enterReset d)
  change (s.enterReset d).die e = State.die (s.updDie d _) e at dies
  rw [dies, State.die_updDie]
  split
  · next he =>
    rw [← he]
    exact ⟨rfl, rfl, rfl, rfl, rfl⟩
  · rfl

/-- A compute die reset and released where its rails are in REG. -/
def State.dieReset (s : State) (d : Nat) : State := (s.enterReset d).updDie d fun x => { x with inReset := !s.dieFed d }

theorem State.onlyChanges_dieReset (s : State) (d : Nat) : s.onlyChanges (s.dieReset d) (pendRefs d) [.dies] :=
  State.onlyChanges_updDie (s.onlyChanges_enterReset d) d _ List.mem_cons_self

theorem State.die_dieReset (s : State) (d : Nat) :
    ((s.dieReset d).die d).windows = [] ∧ ((s.dieReset d).die d).adm.reqs = [] ∧ ((s.dieReset d).die d).adm.limiters = [] ∧
      ((s.dieReset d).die d).adm.notices = [] ∧ ((s.dieReset d).die d).updBuf = (s.die d).updBuf ∧
      ((s.dieReset d).die d).inReset = !s.dieFed d := by
  have entered := s.die_enterReset d d
  rw [if_pos rfl] at entered
  obtain ⟨windows, reqs, limiters, notices, updBuf⟩ := entered
  rw [State.dieReset, State.die_updDie, if_pos rfl]
  exact ⟨windows, reqs, limiters, notices, updBuf, rfl⟩

theorem State.die_dieReset_other (s : State) {d e : Nat} (h : e ≠ d) : (s.dieReset d).die e = s.die e := by
  have entered := s.die_enterReset d e
  rw [if_neg h.symm] at entered
  rw [State.dieReset, State.die_updDie, if_neg h.symm, entered]

/-- The frame of a die's reset, as its statements say it. -/
theorem State.dieReset_frame (s : State) (d : Nat) :
    s.sameFieldsBut (s.commit (s.dieReset d)) (fun f => decide (f = .dagAdmcorePend ∨ f = .dagAdmstatPend)) ∧
      s.sameTabsBut (s.commit (s.dieReset d)) [.dies] ∧ (s.commit (s.dieReset d)).core = s.core := by
  obtain ⟨regs, tabs, core⟩ := State.onlyChanges_commit (s.onlyChanges_dieReset d)
  refine ⟨fun r hr => regs r fun hm => ?_, tabs, core⟩
  exact of_decide_eq_false hr (field_pendRefs hm)

theorem exec_warmReset_compute {s : State} (d : CDie) (hs : s.aon = true) :
    exec (.warmReset (.compute d)) s = .next (s.commit (s.dieReset d.val)) :=
  State.run_on (fun s => s.resetCompute d.val) hs

theorem exec_computeRecoveryReset {s : State} (d : CDie) (hs : s.aon = true) :
    exec (.computeRecoveryReset d) s = .next (s.commit (s.dieReset d.val)) :=
  State.run_on (fun s => s.dieReset d.val) hs

/-! ## A control complex -/

theorem State.rd_tellSender (s : State) (m : Nat) (released : Bool) (f : Field) (i j : Nat) : (s.tellSender m released).rd f i j = s.rd f i j := by
  unfold State.tellSender
  split
  · exact State.rd_sendVector _ _ _ _ _ _
  · unfold State.raiseIbi
    split <;> rfl
  · rfl

theorem State.rd_aborted (s : State) (m k : Nat) :
    (s.aborted m).rd .hifMbStatFull 0 k = if m = k then 0 else s.rd .hifMbStatFull 0 k := by
  simp only [State.aborted, State.puts]
  change (State.wr _ .hifMbStatAborted 1 0 m).rd .hifMbStatFull 0 k = _
  rw [State.rd_wr_field _ _ _ _ _ _ (by decide)]
  change (State.wr _ .hifMbStatFull 0 0 m).rd .hifMbStatFull 0 k = _
  split
  · next e => rw [← e, State.rd_wr_zero]
  · next e =>
    refine (State.reg_put_other _ 0 (by simpa using e)).trans ?_
    change (State.wr (s.wr .hifMbPtr 0 0 m) .hifMbTag 0 0 m).rd .hifMbStatFull 0 k = _
    rw [State.rd_wr_field _ _ _ _ _ _ (by decide), State.rd_wr_field _ _ _ _ _ _ (by decide)]

/-- The mailbox that is returned is full no longer, and no other is touched (R319). -/
theorem State.full_mailboxAbort (s : State) (m k : Nat) :
    (s.mailboxAbort m).flag .hifMbStatFull 0 k = (!decide (m = k) && s.flag .hifMbStatFull 0 k) := by
  unfold State.mailboxAbort
  split
  · have moved : ((s.aborted m).tellSender m false).rd .hifMbStatFull 0 k = if m = k then 0 else s.rd .hifMbStatFull 0 k := by
      rw [State.rd_tellSender, State.rd_aborted]
    refine (congrArg (fun n => decide (n = 1)) moved).trans ?_
    by_cases e : m = k <;> simp [e, State.flag]
  · next free =>
    by_cases e : m = k
    · rw [← e, Bool.eq_false_iff.2 free, Bool.and_false]
    · simp [e]

theorem State.rd_stopHall (s : State) (h : Nat) {f : Field} (i j : Nat) (hf : .fwcImgVer ≠ f) : (s.stopHall h).rd f i j = s.rd f i j := by
  rw [State.stopHall, State.rd_wr_field _ _ _ _ _ _ hf, State.rd_updHall]

theorem State.hall_stopHall (s : State) (h : Nat) : ((s.stopHall h).hall h).up = false := by
  rw [State.stopHall, State.hall, State.wr_ctrl]
  exact congrArg HallState.up ((s.hall_updHall h _ h).trans (if_pos rfl))

theorem State.port_stopHall (s : State) (h : Nat) (p : Port) : (s.stopHall h).port p = s.port p := by
  rw [State.stopHall, State.port, State.wr_ports]
  rfl

/-- A standby that is gone is shown, with one fault where it was not. -/
theorem State.stbyrdy_noStandby (s : State) : s.noStandby.flag .govHallStbyrdy = false := by
  have shown : (s.wr .govHallStbyrdy 0).rd .govHallStbyrdy = 0 := s.rd_wr_zero _ _ _
  refine decide_eq_false ?_
  unfold State.noStandby
  dsimp only
  split
  · rw [shown]
    decide
  · rw [rd_raise _ _ _ _ _ FaultClass.noConfusion rfl, State.rd_wr_field _ _ _ _ _ _ (by decide), shown]
    decide

theorem State.hall_noStandby (s : State) (h : Nat) : s.noStandby.hall h = s.hall h := by
  unfold State.noStandby
  dsimp only
  split
  · rw [State.hall, State.wr_ctrl]
    rfl
  · rw [State.hall, raise_blind blind_ctrl _ _ FaultClass.noConfusion, State.wr_ctrl, State.wr_ctrl]
    rfl

theorem resetControl_active {s : State} {h : Nat} (hh : h = s.active) :
    ((s.resetControl h).hall h).up = false ∧ (s.resetControl h).flag .hifMbStatFull 0 0 = false ∧
      (s.resetControl h).flag .hifMbStatFull 0 2 = false ∧ (s.resetControl h).port .cc = PortState.init := by
  have full (m : Nat) : (s.resetControl h).flag .hifMbStatFull 0 m = ((s.mailboxAbort 0).mailboxAbort 2).flag .hifMbStatFull 0 m := by
    unfold State.resetControl
    rw [if_pos hh, State.flag, State.rd_stopHall _ _ _ _ (by decide), State.clearPort, State.rd_updPort, State.rd_resetBlock _ _ _ _ _ (by decide)]
    rfl
  refine ⟨?_, ?_, ?_, ?_⟩
  · unfold State.resetControl
    rw [if_pos hh]
    exact State.hall_stopHall _ h
  · rw [full, State.full_mailboxAbort, State.full_mailboxAbort]
    simp
  · rw [full, State.full_mailboxAbort]
    simp
  · unfold State.resetControl
    rw [if_pos hh]
    dsimp only
    rw [State.port_stopHall, State.clearPort, State.port_updPort, if_pos rfl]

theorem resetControl_standby {s : State} {h : Nat} (hh : h ≠ s.active) :
    ((s.resetControl h).hall h).up = false ∧ (s.resetControl h).flag .govHallStbyrdy = false := by
  unfold State.resetControl
  rw [if_neg hh, State.hall_noStandby]
  exact ⟨s.hall_stopHall h, State.stbyrdy_noStandby _⟩

/-! ## A host die -/

/-- A ring set disabled and, where it is starting or RUNNING, stopped. -/
def State.ringOff (s : State) (n : Nat) : State :=
  let s1 := s.wr .hifRsCtrlEn 0 0 n
  if s.rd .hifRsStatState 0 n = 1 || s.rd .hifRsStatState 0 n = 2 then s1.wr .hifRsStatState 3 0 n else s1

theorem State.en_ringOff (s : State) (m n : Nat) (h : m = n ∨ s.flag .hifRsCtrlEn 0 n = false) : (s.ringOff m).flag .hifRsCtrlEn 0 n = false := by
  have off : (s.wr .hifRsCtrlEn 0 0 m).flag .hifRsCtrlEn 0 n = false := by
    by_cases e : m = n
    · rw [e, State.flag, State.rd_wr_zero]
      decide
    · have same : (s.wr .hifRsCtrlEn 0 0 m).rd .hifRsCtrlEn 0 n = s.rd .hifRsCtrlEn 0 n := State.reg_put_other s 0 (by simpa using e)
      exact (congrArg (fun x => decide (x = 1)) same).trans (h.resolve_left e)
  unfold State.ringOff
  dsimp only
  split
  · rw [State.flag_wr_field _ _ _ _ _ _ (by decide)]
    exact off
  · exact off

/-- The ring sets of a host die's port. -/
def State.portRings (s : State) (h : Nat) : List Nat := (upto 16).filter fun n => s.rd .hifRsCtrlPort 0 n = h

/-- The ring sets of a host die's port off, and the mailbox that it receives returned (R9, R320). -/
def State.hostQuiet (s : State) (h : Nat) : State :=
  if s.rd .hifCfgMbport = h then (s.each (s.portRings h) State.ringOff).mailboxAbort 1 else s.each (s.portRings h) State.ringOff

theorem State.resetHost_eq (s : State) (h : Nat) :
    s.resetHost h = ((s.hostQuiet h).clearPort (hostPort h)).updMsix (hostPort h) fun _ => MsixState.init := rfl

theorem State.en_mailboxAbort (s : State) (m n : Nat) : (s.mailboxAbort m).rd .hifRsCtrlEn 0 n = s.rd .hifRsCtrlEn 0 n := by
  unfold State.mailboxAbort
  split
  · exact (State.rd_tellSender _ _ _ _ _ _).trans (s.rd_puts_other 0 n (by simp))
  · rfl

theorem State.en_hostQuiet (s : State) {h n : Nat} (hn : n < 16) (hp : s.rd .hifRsCtrlPort 0 n = h) :
    (s.hostQuiet h).flag .hifRsCtrlEn 0 n = false := by
  have off : (s.each (s.portRings h) State.ringOff).flag .hifRsCtrlEn 0 n = false :=
    State.each_sets (P := fun t => t.flag .hifRsCtrlEn 0 n = false) (List.mem_filter.2 ⟨List.mem_range.2 hn, decide_eq_true hp⟩)
      (fun t => t.en_ringOff n n (.inl rfl)) (fun t m ht => t.en_ringOff m n (.inr ht)) s
  unfold State.hostQuiet
  split
  · rw [State.flag, State.en_mailboxAbort]
    exact off
  · exact off

theorem resetHost_lands (s : State) (h : Nat) :
    (∀ n, n < 16 → s.rd .hifRsCtrlPort 0 n = h → (s.resetHost h).flag .hifRsCtrlEn 0 n = false) ∧
      (s.resetHost h).port (hostPort h) = PortState.init ∧ (s.resetHost h).msixOf (hostPort h) = MsixState.init := by
  rw [s.resetHost_eq h]
  refine ⟨fun n hn hp => s.en_hostQuiet hn hp, ?_, ?_⟩
  · exact ((s.hostQuiet h).port_updPort (hostPort h) (fun _ => PortState.init) (hostPort h)).trans (if_pos rfl)
  · exact Store.get_upd_same msixInit (s.hostQuiet h).msix (hostPort h).num fun _ => MsixState.init

theorem exec_warmReset_host {s : State} (h : Hall) (hs : s.aon = true) :
    exec (.warmReset (.host h)) s = .next (s.commit (s.resetHost h.val)) :=
  State.run_on (fun s => s.resetHost h.val) hs

/-- Settles O17: each domain's reset, and compute-recovery reset, which is that of a compute die. -/
theorem warmAndRecoveryResets : Obligations.WarmAndRecoveryResets := by
  refine ⟨fun s d h hs => ⟨?_, ?_, ?_⟩, fun s d hs => ?_⟩
  · obtain ⟨windows, reqs, -, -, -, inReset⟩ := s.die_dieReset d.val
    obtain ⟨regs, tabs, core⟩ := s.dieReset_frame d.val
    refine ⟨_, exec_warmReset_compute d hs, ?_, ?_, ?_, regs, tabs, fun e he => ?_, core⟩ <;> rw [State.die_commit]
    · exact windows
    · exact reqs
    · exact inReset
    · exact s.die_dieReset_other he
  · have kept (f : Field) (j : Nat) (hf : f.isLimit = false) : (s.commit (s.resetControl h.val)).flag f 0 j = (s.resetControl h.val).flag f 0 j :=
      congrArg (fun n => decide (n = 1)) (State.rd_commit _ _ _ _ _ hf)
    refine ⟨_, exec_warmReset_control h hs, ?_, ?_⟩
    · rw [State.hall_commit]
      by_cases hh : h.val = s.active
      · exact (resetControl_active hh).1
      · exact (resetControl_standby hh).1
    · split
      · next hh =>
        obtain ⟨-, mb0, mb2, port⟩ := resetControl_active hh
        exact ⟨(kept _ _ rfl).trans mb0, (kept _ _ rfl).trans mb2, (State.port_commit _ _ _).trans port⟩
      · next hh => exact (kept _ _ rfl).trans (resetControl_standby hh).2
  · obtain ⟨off, port, msix⟩ := resetHost_lands s h.val
    refine ⟨_, exec_warmReset_host h hs, fun n hn hp => ?_, (State.port_commit _ _ _).trans port, (State.msixOf_commit _ _ _).trans msix⟩
    exact (congrArg (fun n => decide (n = 1)) (State.rd_commit _ _ _ _ _ rfl)).trans (off n hn hp)
  · obtain ⟨windows, reqs, limiters, notices, updBuf, inReset⟩ := s.die_dieReset d.val
    obtain ⟨regs, tabs, core⟩ := s.dieReset_frame d.val
    refine ⟨_, exec_computeRecoveryReset d hs, ?_, ?_, ?_, ?_, ?_, ?_, regs, tabs, core⟩ <;> rw [State.die_commit] <;> assumption

end Sys2Proof.Machine

/-!
What the operations of the Larder reach: its own tables and counters, the CORRECTED faults of its checks, and the free values that stand for
what the spec leaves open (R172 to R177).
-/

namespace Sys2Proof.Machine

/-- A reading of the state that reading and writing the entries of the Larder and the Cellar does not touch. -/
structure EntryBlind {α : Type} (g : State → α) : Prop extends FaultBlind g where
  putLarder : ∀ s (r : FieldRef) v, (fieldDef r.f).blk = .lrd → g (s.put r v) = g s
  entries : ∀ s larder cellar bad stream,
    g { s with lard := { s.lard with larder := larder, cellar := cellar, badWords := bad, stream := stream } } = g s
  free : ∀ s x, g { s with free := x } = g s

section Entries
variable {α : Type} {g : State → α} (hg : EntryBlind g)
include hg

theorem updEntries_larder (s : State) {f : LarderState → LarderState}
    (hf : ∀ l, f l = { l with larder := (f l).larder, cellar := (f l).cellar, badWords := (f l).badWords, stream := (f l).stream }) :
    g (s.updLard f) = g s := by
  rw [State.updLard, hf s.lard]
  exact hg.entries s _ _ _ _

theorem count_larder (s : State) (f : Field) (n i j : Nat) (h : (fieldDef f).blk = .lrd) : g (s.count f n i j) = g s :=
  hg.putLarder s ⟨f, i, j⟩ _ h

theorem clearBad_larder (s : State) (cellar : Bool) (k : LKey) : g (s.clearBad cellar k) = g s :=
  updEntries_larder hg s (by intro; rfl)

theorem stream_larder (s : State) (x : MirrorOp) : g (s.stream x) = g s := by
  unfold State.stream
  split
  · exact updEntries_larder hg s (by intro; rfl)
  · rfl

theorem removeEntry_larder (s : State) (cellar : Bool) (k : LKey) : g (s.removeEntry cellar k) = g s := by
  unfold State.removeEntry
  dsimp only
  split
  · exact (updEntries_larder hg _ (by intro; rfl)).trans (clearBad_larder hg s cellar k)
  · exact (stream_larder hg _ _).trans ((updEntries_larder hg _ (by intro; rfl)).trans (clearBad_larder hg s cellar k))

theorem readEntry_larder (s : State) (cellar : Bool) (k : LKey) (ecc : Ecc) : g (s.readEntry cellar k ecc).2 = g s := by
  have used (t : State) : g t.useFree = g t := hg.free t _
  unfold State.readEntry
  split
  · rfl
  · dsimp only
    split
    · rfl
    · rw [used, raise_blind hg.toFaultBlind _ _ FaultClass.noConfusion, count_larder hg _ _ _ _ _ rfl, clearBad_larder hg]
    · rw [used, raise_blind hg.toFaultBlind _ _ FaultClass.noConfusion, removeEntry_larder hg]

theorem writeCheck_larder (s : State) (cellar : Bool) (k : LKey) : g (s.writeCheck cellar k) = g s := by
  have used (n : Nat) (b : List (Bool × LKey × Nat)) (x : Inject) :
      g (if n = 0 then s.clearBad cellar k
        else { (s.clearBad cellar k).updLard fun l => { l with badWords := b } with inject := x }) = g s := by
    split
    · exact clearBad_larder hg s cellar k
    · exact (hg.inject _ x).trans ((updEntries_larder hg _ (by intro; rfl)).trans (clearBad_larder hg s cellar k))
  exact used _ _ _

theorem toCellar_larder (s : State) (e : LEntry) : g (s.toCellar e) = g s := by
  have room (l : List LEntry) (b : Prop) [Decidable b] : g (if b then s else match oldest l with
      | some v => (s.removeEntry true v.key).count .lrdCdrop
      | none => s) = g s := by
    split
    · rfl
    · split
      · rw [count_larder hg _ _ _ _ _ rfl, removeEntry_larder hg]
      · rfl
  unfold State.toCellar
  dsimp only
  split
  · exact (count_larder hg _ _ _ _ _ rfl).trans (room _ _)
  · exact (writeCheck_larder hg _ _ _).trans ((updEntries_larder hg _ (by intro; rfl)).trans (room _ _))

theorem evict_larder (s : State) (v : LEntry) : g (s.evict v) = g s := by
  have read := readEntry_larder hg s false v.key .ok
  unfold State.evict
  dsimp only
  split
  · exact read
  · rw [count_larder hg _ _ _ _ _ rfl]
    split
    · rw [toCellar_larder hg, removeEntry_larder hg, read]
    · rw [removeEntry_larder hg, read]

theorem makeRoom_larder (s : State) (k : LKey) : g (s.makeRoom k).2 = g s := by
  unfold State.makeRoom
  dsimp only
  split
  · rfl
  · split
    · dsimp only
      rw [evict_larder hg]
      split
      · rfl
      · exact count_larder hg s .lrdCpause 1 0 0 rfl
    · exact count_larder hg s .lrdCpause 1 0 0 rfl

theorem install_larder (s : State) (e : LEntry) : g (s.install e).2 = g s := by
  have put (t : State) : g (((t.updLard fun l => { l with larder := e :: l.larder.filter fun x => x.key ≠ e.key }).stream (.put e)).writeCheck
      false e.key) = g t := by
    rw [writeCheck_larder hg, stream_larder hg, updEntries_larder hg _ (by intro; rfl)]
  unfold State.install
  dsimp only
  split
  · exact put _
  · split
    · exact (put _).trans (makeRoom_larder hg _ _)
    · exact makeRoom_larder hg _ _

/-- An applied record moves entries alone, beside the record that it notes as the last. -/
theorem applyRecord_entries (s : State) (r : UpdRec) (ecc : Ecc) : g (s.applyRecord r ecc) = g (s.updLard fun l => { l with recDone := r.seq }) := by
  have inL := readEntry_larder hg (s.updLard fun l => { l with recDone := r.seq }) false r.key ecc
  have inC := (readEntry_larder hg ((s.updLard fun l => { l with recDone := r.seq }).readEntry false r.key ecc).2 true r.key ecc).trans inL
  unfold State.applyRecord
  dsimp only
  split
  · exact (install_larder hg _ _).trans inL
  · split
    · exact (count_larder hg _ _ _ _ _ rfl).trans inL
    · split
      · split
        · exact (install_larder hg _ _).trans ((removeEntry_larder hg _ _ _).trans inC)
        · exact (count_larder hg _ _ _ _ _ rfl).trans inC
      · exact (install_larder hg _ _).trans inC

end Entries

/-- A reading of the state that the Larder's own operations do not touch. -/
structure LarderBlind {α : Type} (g : State → α) : Prop extends EntryBlind g where
  lard : ∀ s x, g { s with lard := x } = g s

section Larder
variable {α : Type} {g : State → α} (hg : LarderBlind g)
include hg

theorem updLard_larder (s : State) (f : LarderState → LarderState) : g (s.updLard f) = g s :=
  hg.lard s _

theorem applyRecord_larder (s : State) (r : UpdRec) (ecc : Ecc) : g (s.applyRecord r ecc) = g s :=
  (applyRecord_entries hg.toEntryBlind s r ecc).trans (updLard_larder hg s _)

theorem fillMirror_larder (s : State) : g s.fillMirror = g s :=
  updLard_larder hg s _

theorem larderTakeover_larder (s : State) : g s.larderTakeover = g s := by
  unfold State.larderTakeover
  dsimp only
  rw [fillMirror_larder hg, each_blind _ _ (fun t r => applyRecord_larder hg t r .ok), updLard_larder hg]

end Larder

theorem larder_rd {f : Field} (i j : Nat) (hf : faultField f = false) (hl : (fieldDef f).blk ≠ .lrd) :
    LarderBlind fun s : State => s.rd f i j where
  toFaultBlind := blind_rd f i j hf
  putLarder s r v hr := State.reg_put_other s v (by rintro rfl; exact hl hr)
  entries _ _ _ _ _ := rfl
  lard _ _ := rfl
  free _ _ := rfl

theorem larder_of {α : Type} {g : State → α} (hb : FaultBlind g) (hr : ∀ s x, g { s with regs := x } = g s)
    (hl : ∀ s x, g { s with limits := x } = g s) (lard : ∀ s x, g { s with lard := x } = g s) (free : ∀ s x, g { s with free := x } = g s) :
    LarderBlind g :=
  { hb with putLarder := fun s r v _ => State.put_other g hr hl s r v, entries := fun s _ _ _ _ => lard s _, lard, free }

theorem larder_now : LarderBlind fun s : State => s.now := by apply larder_of blind_now <;> intros <;> rfl

end Sys2Proof.Machine

/-!
Settles O24: beacons, missed beacons and forcing faults. A role that is taken is a head that writes the role's own registers and counts, and a
tail that reaches other parts of the state; what stands after it is what the head has written (R18, R292, R325).
-/

namespace Sys2Proof.Machine

/-! ## Taking the role -/

/-- The head of a role taken: the next epoch, the failover counted, the cause and the active Hall shown, and the counts of beacons begun again. -/
def State.roleHead (s : State) (cause : Nat) : State :=
  { ((s.wr .fltHallEpoch ((s.rd .fltHallEpoch + 1) % 256)).count .fltHallFocnt).puts
      [(⟨.fltHallLast, 0, 0⟩, cause), (⟨.govHallActive, 0, 0⟩, 1 - s.active)] with missed := 0, beacons := 0 }

/-- A reading of the state that the tail of a role taken does not touch. -/
structure RoleBlind {α : Type} (g : State → α) : Prop extends LarderBlind g where
  pairs : ∀ s v, g (s.wr .fltPairbrkBrk v) = g s
  age : ∀ s x, g { s with age := x } = g s
  excl : ∀ s d reason on, g (s.setExcl d reason on) = g s
  parts : ∀ s x, g { s with parts := x } = g s
  hearth : ∀ s x, g { s with hearth := x } = g s

theorem releaseAge_role {α : Type} {g : State → α} (hg : RoleBlind g) (s : State) (d : Nat) : g (s.releaseAge d) = g s := by
  have aged (t : State) (f : AgeDie → AgeDie) : g (t.updAge d f) = g t := hg.age t _
  unfold State.releaseAge
  dsimp only
  split
  · exact (hg.excl _ _ _ _).trans (aged _ _)
  · exact aged _ _

/-- After its head, a role taken shows the pairs, takes the Larder over, releases ageing, flags the partitions and tells the Hearth and the
mailboxes. -/
theorem takeRole_role {α : Type} {g : State → α} (hg : RoleBlind g) (s : State) (cause : Nat) : g (s.takeRole cause) = g (s.roleHead cause) := by
  have told (t : State) (m : Nat) : g { t with fwInt := t.fwInt ++ [m] } = g t := hg.fwInt t _
  have flagged (t : State) (p : Nat) (f : PartState → PartState) : g (t.updPart p f) = g t := hg.parts t _
  unfold State.takeRole
  dsimp only
  rw [each_blind _ _ (fun t m => told t m), hg.hearth, each_blind _ _ (fun t p => flagged t p _), each_blind _ _ (releaseAge_role hg),
    larderTakeover_larder hg.toLarderBlind, State.info, event_blind hg.toFaultBlind, State.showPairs, hg.pairs]
  rfl

theorem role_rd {f : Field} (i j : Nat) (hf : faultField f = false) (hl : (fieldDef f).blk ≠ .lrd) (hp : .fltPairbrkBrk ≠ f) :
    RoleBlind fun s : State => s.rd f i j where
  toLarderBlind := larder_rd i j hf hl
  pairs s _ := s.rd_wr_field _ _ _ _ _ hp
  age _ _ := rfl
  excl _ _ _ _ := rfl
  parts _ _ := rfl
  hearth _ _ := rfl

theorem role_of {α : Type} {g : State → α} (hb : LarderBlind g) (hr : ∀ s x, g { s with regs := x } = g s)
    (hl : ∀ s x, g { s with limits := x } = g s) (age : ∀ s x, g { s with age := x } = g s)
    (halls : ∀ s x, g { s with halls := x } = g s) (parts : ∀ s x, g { s with parts := x } = g s)
    (hearth : ∀ s x, g { s with hearth := x } = g s) : RoleBlind g :=
  { hb with pairs := fun s _ => State.wr_other hr hl s _ _ _ _, age, excl := fun s _ _ _ => halls s _, parts, hearth }

theorem blind_missed : FaultBlind fun s : State => s.missed := by apply blind_of <;> intros <;> rfl
theorem larder_missed : LarderBlind fun s : State => s.missed := by apply larder_of blind_missed <;> intros <;> rfl
theorem role_missed : RoleBlind fun s : State => s.missed := by apply role_of larder_missed <;> intros <;> rfl
theorem larder_ctrl : LarderBlind fun s : State => s.ctrl := by apply larder_of blind_ctrl <;> intros <;> rfl
theorem role_ctrl : RoleBlind fun s : State => s.ctrl := by apply role_of larder_ctrl <;> intros <;> rfl
theorem role_now : RoleBlind fun s : State => s.now := by apply role_of larder_now <;> intros <;> rfl

/-! ## What a role taken leaves -/

theorem State.active_roleHead (s : State) (cause : Nat) : (s.roleHead cause).active = 1 - s.active := by
  change (State.wr _ .govHallActive (1 - s.active)).rd .govHallActive = _
  rw [State.rd_wr_same _ _ _ _ _ rfl]
  exact Nat.mod_eq_of_lt (show 1 - s.active < 2 by omega)

theorem State.epoch_roleHead (s : State) (cause : Nat) : (s.roleHead cause).rd .fltHallEpoch = (s.rd .fltHallEpoch + 1) % 256 := by
  change (State.wr (State.wr ((s.wr .fltHallEpoch _).count .fltHallFocnt) .fltHallLast cause) .govHallActive (1 - s.active)).rd .fltHallEpoch = _
  rw [State.rd_wr_field _ _ _ _ _ _ (by decide), State.rd_wr_field _ _ _ _ _ _ (by decide), State.count,
    State.rd_wr_field _ _ _ _ _ _ (by decide), State.rd_wr_same _ _ _ _ _ rfl]
  exact Nat.mod_mod _ _

theorem State.last_roleHead (s : State) {cause : Nat} (h : cause < 16) : (s.roleHead cause).rd .fltHallLast = cause := by
  change (State.wr (State.wr ((s.wr .fltHallEpoch _).count .fltHallFocnt) .fltHallLast cause) .govHallActive (1 - s.active)).rd .fltHallLast = _
  rw [State.rd_wr_field _ _ _ _ _ _ (by decide), State.rd_wr_same _ _ _ _ _ rfl]
  exact Nat.mod_eq_of_lt (show cause < 2 ^ 4 from h)

theorem State.ctrl_roleHead (s : State) (cause : Nat) : (s.roleHead cause).ctrl = s.ctrl := by
  change (State.puts _ _).ctrl = _
  rw [State.puts_other (g := State.ctrl) (fun _ _ => rfl) (fun _ _ => rfl), State.count_ctrl, State.wr_ctrl]

theorem State.now_roleHead (s : State) (cause : Nat) : (s.roleHead cause).now = s.now := by
  change (State.puts _ _).now = _
  rw [State.puts_other (g := State.now) (fun _ _ => rfl) (fun _ _ => rfl), State.count_now, State.wr_now]

/-! ## Failover -/

/-- A register field that the loss of a standby leaves. -/
theorem State.rd_noStandby (s : State) {f : Field} (i j : Nat) (hf : faultField f = false) (hs : .govHallStbyrdy ≠ f)
    (hn : .fltStatusNostby ≠ f) : s.noStandby.rd f i j = s.rd f i j := by
  unfold State.noStandby
  dsimp only
  split
  · exact s.rd_wr_field _ _ _ _ _ hs
  · rw [rd_raise _ _ _ _ _ FaultClass.noConfusion hf, State.rd_wr_field _ _ _ _ _ _ hn, State.rd_wr_field _ _ _ _ _ _ hs]

theorem noStandby_blind {α : Type} {g : State → α} (hg : FaultBlind g) (hr : ∀ s x, g { s with regs := x } = g s)
    (hl : ∀ s x, g { s with limits := x } = g s) (s : State) : g s.noStandby = g s := by
  unfold State.noStandby
  dsimp only
  split
  · exact State.wr_other hr hl s _ _ _ _
  · rw [raise_blind hg _ _ FaultClass.noConfusion, State.wr_other hr hl, State.wr_other hr hl]

/-- The old Hall out of the way: an update in progress given up, and its control complex stopped. -/
def State.oldOut (s : State) : State := (if s.updating then s.failUpdate 6 else s).stopHall s.active

theorem State.failover_eq (s : State) (cause : Nat) : s.failover cause = (s.oldOut.takeRole cause).noStandby := rfl

theorem State.rd_oldOut (s : State) {f : Field} (i j : Nat) (hn : noticeField f = false) (hs : svcField f = false) :
    s.oldOut.rd f i j = s.rd f i j := by
  have ver : Field.fwcImgVer ≠ f := by rintro rfl; exact absurd hs (by decide)
  unfold State.oldOut
  rw [State.rd_stopHall _ _ _ _ ver]
  split
  · exact failUpdate_svc (svc_rd i j hn hs) s 6
  · rfl

theorem State.hall_oldOut (s : State) : (s.oldOut.hall s.active).up = false :=
  State.hall_stopHall _ _

/-- A failover: the other Hall is active in the next epoch, the old one's control complex is stopped, and there is no standby. -/
theorem failover_lands (s : State) {cause : Nat} (hc : cause < 16) :
    (s.failover cause).active = 1 - s.active ∧ (s.failover cause).missed = 0 ∧
      (s.failover cause).rd .fltHallEpoch = (s.rd .fltHallEpoch + 1) % 256 ∧ (s.failover cause).rd .fltHallLast = cause ∧
      (s.failover cause).flag .govHallStbyrdy = false ∧ ((s.failover cause).hall s.active).up = false := by
  have old : s.oldOut.active = s.active := s.rd_oldOut 0 0 rfl rfl
  have epoch : s.oldOut.rd .fltHallEpoch = s.rd .fltHallEpoch := s.rd_oldOut 0 0 rfl rfl
  rw [s.failover_eq cause]
  refine ⟨?_, ?_, ?_, ?_, State.stbyrdy_noStandby _, ?_⟩
  · rw [State.active, State.rd_noStandby _ _ _ rfl (by decide) (by decide), takeRole_role (role_rd 0 0 rfl (by decide) (by decide)), ← old]
    exact State.active_roleHead _ cause
  · rw [noStandby_blind blind_missed (fun _ _ => rfl) (fun _ _ => rfl), takeRole_role role_missed]
    rfl
  · rw [State.rd_noStandby _ _ _ rfl (by decide) (by decide), takeRole_role (role_rd 0 0 rfl (by decide) (by decide)), State.epoch_roleHead, epoch]
  · rw [State.rd_noStandby _ _ _ rfl (by decide) (by decide), takeRole_role (role_rd 0 0 rfl (by decide) (by decide)), State.last_roleHead _ hc]
  · rw [State.hall_noStandby, State.hall, takeRole_role role_ctrl, State.ctrl_roleHead]
    exact s.hall_oldOut

/-! ## Beacons -/

theorem State.sameRegs_commit {s n : State} {l : List FieldRef} (h : s.sameRegsBut n l) : s.sameRegsBut (s.commit n) l := by
  intro r hr
  cases hl : r.f.isLimit with
  | true => exact s.rd_commit_limit n r.f r.i r.j hl
  | false => exact (s.rd_commit n r.f r.i r.j hl).trans (h r hr)

theorem State.missed_commit (s n : State) : (s.commit n).missed = n.missed := rfl

/-- Time that passes reaches no table. -/
theorem State.sameTabs_advanceTo (s : State) (t : Nat) : s.sameTabsBut (s.advanceTo t) [] := by
  intro x _
  have put (n : State) (r : FieldRef) (v : Nat) : s.sameIn (n.put r v) x = s.sameIn n x :=
    State.put_other (fun n => s.sameIn n x) (fun _ _ => by cases x <;> rfl) (fun _ _ => by cases x <;> rfl) n r v
  rw [State.advanceTo_other (fun n => s.sameIn n x) put (fun _ _ => by cases x <;> rfl) (fun _ _ => by cases x <;> rfl)]
  exact s.sameIn_refl x

theorem exec_beaconReceived {s : State} (hs : s.aon = true) :
    exec .beaconReceived s = .next (s.commit { s with beacons := s.beacons - 1, missed := 0 }) :=
  State.run_on (fun s => { s with beacons := s.beacons - 1, missed := 0 }) hs

/-- The state in which a beacon has been missed. -/
def State.beaconGone (s : State) : State := { s.advanceTo (s.lastB + 170) with missed := s.missed + 1 }

/-- The CORRECTED fault of the fourth beacon missed in a row. -/
def beaconFault (active : Nat) : FaultRec := corr 16 1 (unitOf (40 + active) 0) 4

theorem State.rd_beaconGone (s : State) {f : Field} (i j : Nat) (h : f ∉ timeFields) : s.beaconGone.rd f i j = s.rd f i j :=
  s.rd_advanceTo (s.lastB + 170) i j h

theorem exec_beaconMissed_counted {s : State} (hs : s.aon = true) (hb : s.flag .govHallStbyrdy = true) (hm : s.missed < 3) :
    exec .beaconMissed s = .next (s.commit s.beaconGone) := by
  have few : s.missed + 1 < 4 := by omega
  change execBeaconMissed s = _
  rw [execBeaconMissed, State.run_on _ hs]
  simp only [hb, few, Bool.not_true, Bool.false_eq_true, if_false, if_true]
  rfl

theorem exec_beaconMissed_fourth {s : State} (hs : s.aon = true) (hb : s.flag .govHallStbyrdy = true) (hm : 3 ≤ s.missed) :
    exec .beaconMissed s = .next (s.commit ((s.beaconGone.raise (beaconFault s.beaconGone.active)).failover 1)) := by
  have many : ¬ s.missed + 1 < 4 := by omega
  change execBeaconMissed s = _
  rw [execBeaconMissed, State.run_on _ hs]
  simp only [hb, many, Bool.not_true, Bool.false_eq_true, if_false]
  rfl

theorem beacons_count {s : State} (hs : s.aon = true) :
    (∃ t, exec .beaconReceived s = .next t ∧ t.missed = 0 ∧ s.sameRegsBut t [] ∧ s.sameTabsBut t []) ∧
      (s.flag .govHallStbyrdy = true → s.missed < 3 →
        ∃ t, exec .beaconMissed s = .next t ∧ t.missed = s.missed + 1 ∧ t.active = s.active ∧ s.sameTabsBut t []) ∧
      (s.flag .govHallStbyrdy = true → 3 ≤ s.missed →
        ∃ t, exec .beaconMissed s = .next t ∧ t.active = 1 - s.active ∧ t.missed = 0 ∧
          t.rd .fltHallEpoch = (s.rd .fltHallEpoch + 1) % 256 ∧ t.rd .fltHallLast = 1 ∧ t.flag .govHallStbyrdy = false ∧
          (t.hall s.active).up = false) := by
  refine ⟨⟨_, exec_beaconReceived hs, rfl, State.sameRegs_commit fun r _ => rfl, State.sameTabs_commit fun x _ => ?_⟩, fun hb hm => ?_,
    fun hb hm => ?_⟩
  · cases x <;> exact fun _ => rfl
  · refine ⟨_, exec_beaconMissed_counted hs hb hm, rfl, ?_, State.sameTabs_commit fun x hx => ?_⟩
    · rw [State.active, State.rd_commit _ _ _ _ _ rfl]
      exact s.rd_beaconGone 0 0 (by decide)
    · have same := s.sameTabs_advanceTo (s.lastB + 170) x hx
      cases x <;> exact same
  · have raised (f : Field) (hf : faultField f = false) (ht : f ∉ timeFields) :
        (s.beaconGone.raise (beaconFault s.beaconGone.active)).rd f = s.rd f := by
      rw [rd_raise _ _ _ _ _ FaultClass.noConfusion hf, s.rd_beaconGone 0 0 ht]
    have active : (s.beaconGone.raise (beaconFault s.beaconGone.active)).active = s.active := raised _ rfl (by decide)
    obtain ⟨role, missed, epoch, last, stby, up⟩ :=
      failover_lands (s.beaconGone.raise (beaconFault s.beaconGone.active)) (show 1 < 16 by decide)
    rw [active] at role up
    rw [raised _ rfl (by decide)] at epoch
    refine ⟨_, exec_beaconMissed_fourth hs hb hm, ?_, (State.missed_commit _ _).trans missed, ?_, ?_, ?_, ?_⟩
    · rw [State.active, State.rd_commit _ _ _ _ _ rfl]
      exact role
    · rw [State.rd_commit _ _ _ _ _ rfl, epoch]
    · rw [State.rd_commit _ _ _ _ _ rfl, last]
    · exact (congrArg (fun n => decide (n = 1)) (State.rd_commit _ _ _ _ _ rfl)).trans stby
    · rw [State.hall_commit]
      exact up

/-! ## Forcing faults -/

theorem State.rd_ringSilent (s : State) {f : Field} (i j : Nat) (hf : .chnPosOrig ≠ f) : s.ringSilent.rd f i j = s.rd f i j := by
  rw [State.rd_congr (s := s.wr .chnPosOrig 0) (t := s.ringSilent) rfl rfl, State.rd_wr_field _ _ _ _ _ _ hf]

theorem State.ctrl_ringSilent (s : State) : s.ringSilent.ctrl = s.ctrl :=
  s.wr_ctrl .chnPosOrig 0 0 0

/-- What a forcing fault leaves: the old Hall stopped, the role moved where a standby is ready, and otherwise a silent ring. -/
theorem forcing_lands (s : State) (detail : Nat) :
    ((s.forcing detail).hall s.active).up = false ∧
      (s.forcing detail).active = (if s.flag .govHallStbyrdy then 1 - s.active else s.active) ∧
      (s.flag .govHallStbyrdy = false → (s.forcing detail).pins.bypHold = false) := by
  have raised (x : FaultRec) (hx : x.cls ≠ .fatal) : (s.raise x).active = s.active := rd_raise s x _ _ _ hx rfl
  unfold State.forcing
  dsimp only
  split
  · next hb =>
    have active (x : FaultRec) (hx : x.cls ≠ .fatal) (n : Nat) : ((s.raise x).advanceTo n).active = s.active :=
      (State.rd_advanceTo _ _ _ _ (by decide)).trans (raised x hx)
    obtain ⟨role, -, -, -, -, up⟩ := failover_lands ((s.raise (corr 16 detail (unitOf (40 + s.active) 0) 0)).advanceTo
      (s.raise (corr 16 detail (unitOf (40 + s.active) 0) 0)).nextGrant) (show 2 < 16 by decide)
    rw [active _ FaultClass.noConfusion] at role up
    exact ⟨up, role, fun h => absurd (h.symm.trans hb) Bool.false_ne_true⟩
  · refine ⟨?_, ?_, fun _ => rfl⟩
    · rw [State.hall, State.ctrl_ringSilent]
      exact State.hall_stopHall _ _
    · rw [State.active, State.rd_ringSilent _ _ _ (by decide), State.rd_stopHall _ _ _ _ (by decide)]
      exact raised _ FaultClass.noConfusion

/-- The state in which a forcing fault of a kind is met: a lockstep fault has been counted. -/
def State.forced (s : State) : ForcingFault → State
  | .lockstep => s.count .fwcCcerrLsm
  | _ => s

def forcingDetail : ForcingFault → Nat
  | .lockstep => 2
  | .parity => 3
  | .watchdog => 4

theorem exec_hallForcingFault {s : State} (k : ForcingFault) (hs : s.aon = true) :
    exec (.hallForcingFault k) s = .next (s.commit ((s.forced k).forcing (forcingDetail k))) := by
  change execHallForcingFault k s = _
  rw [execHallForcingFault, State.run_on _ hs]
  cases k <;> rfl

theorem State.rd_forced (s : State) (k : ForcingFault) {f : Field} (i j : Nat) (h : .fwcCcerrLsm ≠ f) : (s.forced k).rd f i j = s.rd f i j := by
  cases k
  · exact s.rd_wr_field _ _ _ _ _ h
  all_goals rfl

/-- What the stop of a control complex that is up leaves. -/
theorem pairStops_lands {s : State} {h : Nat} (detail : Nat) (up : (s.hall h).up = true) :
    ((s.pairStops h detail).hall h).up = false ∧
      (s.pairStops h detail).active = if decide (h = s.active) && s.flag .govHallStbyrdy then 1 - s.active else s.active := by
  unfold State.pairStops
  rw [if_neg (by simp [up])]
  split
  · next hh =>
    obtain ⟨down, role, -⟩ := forcing_lands s detail
    simp only [hh, decide_true, Bool.true_and]
    exact ⟨down, role⟩
  · next hh =>
    simp only [hh, decide_false, Bool.false_and, Bool.false_eq_true, if_false]
    refine ⟨?_, ?_⟩
    · rw [State.hall_noStandby]
      exact State.hall_stopHall _ _
    · rw [State.active, State.rd_noStandby _ _ _ rfl (by decide) (by decide), State.rd_stopHall _ _ _ _ (by decide),
        rd_raise _ _ _ _ _ FaultClass.noConfusion rfl]
      rfl

theorem exec_watchdogExpiry {s : State} (h : Hall) (hs : s.aon = true) :
    exec (.watchdogExpiry h) s = .next (s.commit (s.pairStops h.val 4)) :=
  State.run_on (fun s => s.pairStops h.val 4) hs

/-- What the lockstep of a pair does when it stops the pair (R325). -/
def State.lockstepStop (s : State) (h : Nat) : PairStop → State
  | .mismatch => (s.count .fwcCcerrLsm).pairStops h 2
  | .ecc => s.useFree.pairStops h (s.freeNat 8)

theorem exec_lockstepMismatch {s : State} (h : Hall) (p : PairStop) (hs : s.aon = true) (up : (s.hall h.val).up = true) :
    exec (.lockstepMismatch h p) s = .next (s.commit (s.lockstepStop h.val p)) := by
  have ran : execLockstepMismatch h p s = s.run fun s => if !(s.hall h.val).up then s else s.lockstepStop h.val p := by
    cases p <;> rfl
  refine ran.trans ((State.run_on _ hs).trans ?_)
  simp only [up, Bool.not_true, Bool.false_eq_true, if_false]

/-- Settles O24: a failover is the same whatever moves the role, and a Hall that is stopped without one leaves the role where it is. -/
theorem hallRolesChange : Obligations.HallRolesChange := by
  refine ⟨fun s hs => ?_, fun s k h p hs _ => ⟨?_, fun up => ?_, fun up => ?_⟩⟩
  · obtain ⟨received, counted, fourth⟩ := beacons_count hs
    exact ⟨received, counted, fun hb hm _ => fourth hb hm⟩
  · obtain ⟨down, role, silent⟩ := forcing_lands (s.forced k) (forcingDetail k)
    have active : (s.forced k).active = s.active := s.rd_forced k 0 0 (by decide)
    have stby : (s.forced k).flag .govHallStbyrdy = s.flag .govHallStbyrdy := congrArg (fun n => decide (n = 1)) (s.rd_forced k 0 0 (by decide))
    rw [active, stby] at role
    refine ⟨_, exec_hallForcingFault k hs, ?_, (State.rd_commit _ _ _ _ _ rfl).trans role, fun h => silent (stby.trans h)⟩
    rw [State.hall_commit, ← active]
    exact down
  · obtain ⟨down, role⟩ := pairStops_lands 4 up
    exact ⟨_, exec_watchdogExpiry h hs, by rw [State.hall_commit]; exact down, (State.rd_commit _ _ _ _ _ rfl).trans role⟩
  · refine ⟨_, exec_lockstepMismatch h p hs up, ?_⟩
    cases p with
    | mismatch =>
      have counted (f : Field) (hf : .fwcCcerrLsm ≠ f) : (s.count .fwcCcerrLsm).rd f = s.rd f := s.rd_wr_field _ _ _ _ _ hf
      have active : (s.count .fwcCcerrLsm).active = s.active := counted _ (by decide)
      have stby : (s.count .fwcCcerrLsm).flag .govHallStbyrdy = s.flag .govHallStbyrdy := congrArg (fun n => decide (n = 1)) (counted _ (by decide))
      have same : (s.count .fwcCcerrLsm).hall h.val = s.hall h.val := congrArg (Store.get HallState.init · h.val) (s.count_ctrl _ _ _ _)
      obtain ⟨down, role⟩ := pairStops_lands (s := s.count .fwcCcerrLsm) (h := h.val) 2 (by rw [same]; exact up)
      rw [active, stby] at role
      exact ⟨by rw [State.hall_commit]; exact down, (State.rd_commit _ _ _ _ _ rfl).trans role⟩
    | ecc =>
      obtain ⟨down, role⟩ := pairStops_lands (s := s.useFree) (h := h.val) (s.freeNat 8) up
      exact ⟨by rw [State.hall_commit]; exact down, (State.rd_commit _ _ _ _ _ rfl).trans role⟩

end Sys2Proof.Machine

/-!
Settles O18: what the restart of a die agent leaves (R16), the record with which a Hall admits it (R289), and the cut of an island's power (R288).
-/
namespace Sys2Proof.Machine

/-! ## Rails that start -/

/-- A follower that starts with the rail, or shows that its chain of leaders is broken. -/
def State.startFollower (s : State) (f : Nat) : State := if s.leadersOk f 4 f then s.enterCheck f else s.wr .rgcStatusSeqerr 1 f

/-- All that the start of a rail does: nothing, SEQERR, or CHECK with the followers that start with it (R93, R97). -/
theorem State.startRail_cases (s : State) (r : Nat) :
    s.startRail r = s ∨ s.startRail r = s.wr .rgcStatusSeqerr 1 r ∨ ∃ l, s.startRail r = (s.enterCheck r).each l State.startFollower := by
  unfold State.startRail
  dsimp only
  split
  · exact .inl rfl
  · split
    · exact .inr (.inl rfl)
    · cases s.leader r with
      | none => exact .inr (.inr ⟨_, rfl⟩)
      | some l =>
        dsimp only
        split
        · exact .inl rfl
        · exact .inr (.inr ⟨_, rfl⟩)

section RailBlind
variable {α : Type} {g : State → α} (put : ∀ s r v, g (s.put r v) = g s) (rails : ∀ s x, g { s with rails := x } = g s)
include put rails

/-! What no register and no rail carries reads after a rail's own steps as before. -/

theorem State.takeHeld_other (s : State) (r : Nat) : g (s.takeHeld r) = g s := by
  have wr (t : State) (f : Field) (v : Nat) : g (t.wr f v r) = g t := put t ⟨f, r, 0⟩ v
  have upd (t : State) (f : RailState → RailState) : g (t.updRail r f) = g t := rails t _
  unfold State.takeHeld
  dsimp only
  rw [upd]
  split <;> split <;> simp only [wr]

theorem State.takeComp_other (s : State) (r : Nat) : g (s.takeComp r) = g s := by
  have upd (t : State) (f : RailState → RailState) : g (t.updRail r f) = g t := rails t _
  have puts (t : State) (l : List (FieldRef × Nat)) : g (t.puts l) = g t := by
    induction l generalizing t with
    | nil => rfl
    | cons e l ih => exact (ih _).trans (put t e.1 e.2)
  unfold State.takeComp
  split
  · rfl
  · rw [upd, puts]

theorem State.railTo_other (s : State) (r st : Nat) : g (s.railTo r st) = g s := by
  have wr (t : State) (f : Field) (v : Nat) : g (t.wr f v r) = g t := put t ⟨f, r, 0⟩ v
  exact (rails _ _).trans ((wr _ _ _).trans (wr s _ _))

theorem State.railQuiet_other (s : State) (r st : Nat) : g (s.railQuiet r st) = g s :=
  (rails _ _).trans ((each_blind _ _ (fun t p => put t ⟨.rgcPhstatPh, r, p⟩ _) _).trans
    ((State.railTo_other put rails _ r st).trans (s.takeComp_other put rails r)))

theorem State.enterCheck_other (s : State) (r : Nat) : g (s.enterCheck r) = g s :=
  (rails _ _).trans ((State.railQuiet_other put rails _ r _).trans (s.takeHeld_other put rails r))

theorem State.startRail_other (s : State) (r : Nat) : g (s.startRail r) = g s := by
  have wr (t : State) (f : Field) (v i j : Nat) : g (t.wr f v i j) = g t := put t ⟨f, i, j⟩ v
  obtain h | h | ⟨l, h⟩ := s.startRail_cases r
  · rw [h]
  · rw [h, wr]
  · rw [h, each_blind (g := g) _ _ fun t q => ?_, s.enterCheck_other put rails]
    unfold State.startFollower
    split
    · exact t.enterCheck_other put rails q
    · exact wr _ _ _ _ _

theorem State.setVid_other (s : State) (r v : Nat) : g (s.setVid r v) = g s := by
  have wr (t : State) (f : Field) (v i j : Nat) : g (t.wr f v i j) = g t := put t ⟨f, i, j⟩ v
  have upd (t : State) (q : Nat) (f : RailState → RailState) : g (t.updRail q f) = g t := rails t _
  unfold State.setVid
  dsimp only
  split <;> split <;> simp only [wr, upd]

end RailBlind

theorem State.rd_startRail (s : State) (r : Nat) {f : Field} (i j : Nat) (hs : .rgcStatusSeqerr ≠ f) (h : f ∉ checkFields) :
    (s.startRail r).rd f i j = s.rd f i j := by
  obtain e | e | ⟨l, e⟩ := s.startRail_cases r
  · rw [e]
  · rw [e, s.rd_wr_field _ _ _ _ _ hs]
  · rw [e, each_blind (g := fun t : State => t.rd f i j) _ _ fun t q => ?_, s.rd_enterCheck r i j h]
    unfold State.startFollower
    split
    · exact t.rd_enterCheck q i j h
    · exact t.rd_wr_field _ _ _ _ _ hs

/-! ## The restart -/

/-- A die agent that has come up at the next generation, before its die is set and its rails start. -/
def State.agentUp (s : State) (d : Nat) : State :=
  ((s.updDie d fun _ => { DieState.fresh (((s.die d).gen + 1) % 16) with inReset := decide (d < 32) }).resetBlock .dag d fun f => !f.kept).updHd d
    fun x => { x with lastCum := 0, lastIdle := 0, lastRepPeriod := s.period, silent := 0, cutAt := none }

theorem State.restartAgent_eq {s : State} {d : Nat} (h : (s.die d).powered = false) :
    s.restartAgent d = (if d < 32 then (s.agentUp d).floorSettings d else s.agentUp d).each (railsOwned d) State.startRail := by
  rw [State.restartAgent, h]
  rfl

theorem State.restartAgent_other {α : Type} {g : State → α} (put : ∀ s r v, g (s.put r v) = g s) (rails : ∀ s x, g { s with rails := x } = g s)
    {s : State} {d : Nat} (h : (s.die d).powered = false) : g (s.restartAgent d) = g (s.agentUp d) := by
  have wr (t : State) (f : Field) (v i j : Nat) : g (t.wr f v i j) = g t := put t ⟨f, i, j⟩ v
  rw [State.restartAgent_eq h, each_blind _ _ fun t r => t.startRail_other put rails r]
  split
  · rw [State.floorSettings, State.setVid_other put rails _ _ _, wr, State.showDomain, wr, each_blind (g := g) _ _ fun t k => ?_]
    exact (put _ _ _).trans ((put _ _ _).trans (put _ _ _))
  · rfl

theorem State.die_agentUp (s : State) (d : Nat) :
    (s.agentUp d).die d = { DieState.fresh (((s.die d).gen + 1) % 16) with inReset := decide (d < 32) } := by
  rw [State.agentUp, State.die, State.updHd_dies, State.resetBlock_other (g := State.dies) fun t r v _ => t.put_dies r v]
  exact (s.die_updDie d _ d).trans (if_pos rfl)

theorem State.hd_agentUp (s : State) (d : Nat) :
    (s.agentUp d).hd d = { s.hd d with lastCum := 0, lastIdle := 0, lastRepPeriod := s.period, silent := 0, cutAt := none } := by
  rw [State.agentUp, State.hd_updHd, if_pos rfl, State.hd, State.resetBlock_other (g := State.halls) fun t r v _ => t.put_halls r v]
  rfl

theorem State.die_restartAgent {s : State} {d : Nat} (h : (s.die d).powered = false) : (s.restartAgent d).die d = (s.agentUp d).die d :=
  State.restartAgent_other (g := fun t : State => t.die d) (fun t r v => congrArg (Store.get DieState.init · d) (t.put_dies r v)) (fun _ _ => rfl) h

theorem State.hd_restartAgent {s : State} {d : Nat} (h : (s.die d).powered = false) : (s.restartAgent d).hd d = (s.agentUp d).hd d :=
  State.restartAgent_other (g := fun t : State => t.hd d) (fun t r v => congrArg (Store.get HallDie.init · d) (t.put_halls r v)) (fun _ _ => rfl) h

theorem State.now_restartAgent {s : State} {d : Nat} (h : (s.die d).powered = false) : (s.restartAgent d).now = s.now :=
  (State.restartAgent_other (g := State.now) State.put_now (fun _ _ => rfl) h).trans
    (State.resetBlock_other (g := State.now) (b := .dag) (fun t r v _ => t.put_now r v) _ _ _)

theorem State.rd_agentUp (s : State) (d : Nat) {f : Field} (i j : Nat) (h : f ∉ blkFields .dag) : (s.agentUp d).rd f i j = s.rd f i j := by
  rw [State.agentUp, State.rd_updHd, State.rd_resetBlock _ _ _ _ _ h, State.rd_updDie]

/-! ## The FLOOR settings of a die -/

theorem vidV_exists {r : Nat} (h : r < 32) : (⟨.rgcVidV, r, 0⟩ : FieldRef).exists = true := by
  have one : Field.instances .rgcVidV = 64 := rfl
  have all : (fieldDef .rgcVidV).count = 1 := rfl
  have blk : (fieldDef .rgcVidV).blk = .rgc := rfl
  have kind : railType r = some .vcmp := if_pos h
  simp [FieldRef.exists, one, all, blk, kind]
  omega

/-- A VID of a compute die's rail is the voltage asked for, within the rail's range and its ceiling (R83). -/
theorem State.rd_setVid {s : State} {r : Nat} (h : r < 32) (v : Nat) :
    (s.setVid r v).rd .rgcVidV r = max (railRange r).1 (min (s.ceiling r) v) := by
  have low : (railRange r).1 = 1100 := by simp [railRange, byType, railType, h]
  have high : s.ceiling r ≤ 1800 := by simp [State.ceiling, railRange, byType, railType, h]
  have width : (fieldDef .rgcVidV).width = 16 := rfl
  unfold State.setVid
  dsimp only
  rw [low]
  have fits : max 1100 (min (s.ceiling r) v) % 2 ^ 16 = max 1100 (min (s.ceiling r) v) := Nat.mod_eq_of_lt (by omega)
  have set : (if max 1100 (min (s.ceiling r) v) = s.rd .rgcVidV r then s
      else ((s.wr .rgcVidV (max 1100 (min (s.ceiling r) v)) r).wr .rgcStatusVready 0 r).updRail r fun x => { x with near := 0 }).rd .rgcVidV r =
        max 1100 (min (s.ceiling r) v) := by
    split
    · next same => exact same.symm
    · rw [State.rd_updRail, State.rd_wr_field _ _ _ _ _ _ (by decide), State.rd_wr_same _ _ _ _ _ (vidV_exists h), width, fits]
  split
  · exact set
  · rw [State.rd_wr_field _ _ _ _ _ _ (by decide), set]

theorem cbrTgt_exists {k : Nat} (h : k < 128) : (⟨.clkCbrTgt, 0, k⟩ : FieldRef).exists = true := by
  have one : Field.instances .clkCbrTgt = 1 := rfl
  have all : (fieldDef .clkCbrTgt).count = 128 := rfl
  have blk : (fieldDef .clkCbrTgt).blk = .clk := rfl
  simp [FieldRef.exists, one, all, blk, h]

/-- One branch at the FLOOR setting. -/
def State.branchFloor (s : State) (d k : Nat) : State :=
  s.puts [(⟨.clkCbrTgt, 0, k⟩, 0x100), (⟨.clkCbrCur, 0, k⟩, if s.floorOn || s.holdover d then 0x200 else 0x100), (⟨.clkCbrGdep, 0, k⟩, 0)]

theorem State.rd_branchFloor_other (s : State) (d k : Nat) {f : Field} (i j : Nat) (h : f ∉ [.clkCbrTgt, .clkCbrCur, .clkCbrGdep]) :
    (s.branchFloor d k).rd f i j = s.rd f i j :=
  s.rd_puts_other i j fun e he => by
    simp only [List.mem_cons, List.not_mem_nil, or_false, not_or] at h he
    obtain ⟨ht, hc, hg⟩ := h
    rcases he with rfl | rfl | rfl
    exacts [Ne.symm ht, Ne.symm hc, Ne.symm hg]

theorem State.tgt_branchFloor (s : State) (d : Nat) {k m : Nat} (hk : k < 128) (h : m = k ∨ s.rd .clkCbrTgt 0 k = 0x100) :
    (s.branchFloor d m).rd .clkCbrTgt 0 k = 0x100 := by
  have last (t : State) (a b : Nat) : ((t.wr .clkCbrCur a 0 m).wr .clkCbrGdep b 0 m).rd .clkCbrTgt 0 k = t.rd .clkCbrTgt 0 k := by
    rw [State.rd_wr_field _ _ _ _ _ _ (by decide), State.rd_wr_field _ _ _ _ _ _ (by decide)]
  refine (last (s.wr .clkCbrTgt 0x100 0 m) _ _).trans ?_
  rw [State.rd_wr]
  split
  · rfl
  · next other =>
    refine h.resolve_left ?_
    rintro rfl
    exact other ⟨rfl, cbrTgt_exists hk⟩

theorem State.floorSettings_eq (s : State) (d : Nat) :
    s.floorSettings d = (((s.each (branchesOf d) fun t k => t.branchFloor d k).showDomain d).wr .clkDomTgt 0x100 0 d).setVid d 1500 := rfl

theorem State.rd_setVid_other (s : State) (r v : Nat) {f : Field} (i j : Nat) (h : f ∉ [.rgcVidV, .rgcStatusVready, .rgcStatusVclamp]) :
    (s.setVid r v).rd f i j = s.rd f i j := by
  simp only [List.mem_cons, List.not_mem_nil, or_false, not_or] at h
  obtain ⟨hv, hr, hc⟩ := h
  unfold State.setVid
  dsimp only
  split <;> split <;> simp only [State.rd_wr_field _ _ _ _ _ _ (Ne.symm hc), State.rd_updRail, State.rd_wr_field _ _ _ _ _ _ (Ne.symm hr),
    State.rd_wr_field _ _ _ _ _ _ (Ne.symm hv)]

theorem State.tgt_floorSettings (s : State) {d k : Nat} (hd : d < 32) (hk : k ∈ branchesOf d) : (s.floorSettings d).rd .clkCbrTgt 0 k = 0x100 := by
  have bound : k < 128 := by simp [branchesOf] at hk; omega
  rw [State.floorSettings_eq, State.rd_setVid_other _ _ _ _ _ (by decide), State.rd_wr_field _ _ _ _ _ _ (by decide), State.showDomain,
    State.rd_wr_field _ _ _ _ _ _ (by decide)]
  exact State.each_sets (P := fun t => t.rd .clkCbrTgt 0 k = 0x100) hk (fun t => t.tgt_branchFloor d bound (.inl rfl))
    (fun t m h => t.tgt_branchFloor d bound (.inr h)) s

theorem State.vid_floorSettings (s : State) {d : Nat} (hd : d < 32) :
    (s.floorSettings d).rd .rgcVidV d = max (railRange d).1 (min (s.ceiling d) 1500) := by
  rw [State.floorSettings_eq, State.rd_setVid hd, State.ceiling, State.rd_wr_field _ _ _ _ _ _ (by decide), State.showDomain,
    State.rd_wr_field _ _ _ _ _ _ (by decide),
    each_blind (g := fun t : State => t.rd .rgcVmaxV d) _ _ fun t k => t.rd_branchFloor_other d k _ _ (by decide)]
  rfl

theorem State.rd_restartAgent {s : State} {d : Nat} (h : (s.die d).powered = false) (hd : d < 32) {f : Field} (i j : Nat)
    (hs : .rgcStatusSeqerr ≠ f) (hf : f ∉ checkFields) : (s.restartAgent d).rd f i j = ((s.agentUp d).floorSettings d).rd f i j := by
  rw [State.restartAgent_eq h, if_pos hd,
    each_blind (g := fun t : State => t.rd f i j) _ _ fun t r => t.rd_startRail r i j hs hf]

/-- A restarted agent: at the next generation, with its record kept, and its die at the FLOOR settings. -/
theorem State.restartAgent_lands {s : State} {d : Nat} (h : (s.die d).powered = false) :
    ((s.restartAgent d).die d).powered = true ∧ ((s.restartAgent d).die d).gen = ((s.die d).gen + 1) % 16 ∧
      ((s.restartAgent d).hd d).admitted = (s.hd d).admitted ∧ ((s.restartAgent d).hd d).cutAt = none ∧
      (d < 32 → (s.restartAgent d).rd .rgcVidV d = max (railRange d).1 (min (s.ceiling d) 1500) ∧
        ∀ k ∈ branchesOf d, (s.restartAgent d).rd .clkCbrTgt 0 k = 0x100) := by
  rw [State.die_restartAgent h, State.hd_restartAgent h, State.die_agentUp, State.hd_agentUp]
  refine ⟨rfl, rfl, rfl, rfl, fun hd => ⟨?_, fun k hk => ?_⟩⟩
  · rw [State.rd_restartAgent h hd _ _ (by decide) (by decide), State.vid_floorSettings _ hd, State.ceiling, State.rd_agentUp _ _ _ _ (by decide)]
    rfl
  · rw [State.rd_restartAgent h hd _ _ (by decide) (by decide), State.tgt_floorSettings _ hd hk]

end Sys2Proof.Machine

/-!
What the energy accounts write: their own registers, the partitions' counts and the statements that wait. A table that they do not
write reads after them as before.
-/
namespace Sys2Proof.Machine

/-- A block of registers that the accounts write. -/
def bookBlock (b : Blk) : Bool := b = .obs || b = .view || b = .qea

/-- A reading of the state that the accounts do not reach. -/
structure BookBlind {α : Type} (g : State → α) : Prop where
  putBook : ∀ s (r : FieldRef) v, bookBlock (fieldDef r.f).blk = true → g (s.put r v) = g s
  frac : ∀ s x, g { s with frac := x } = g s
  gopen : ∀ s x, g { s with gopen := x } = g s
  acct : ∀ s x, g { s with acct := x } = g s
  parts : ∀ s x, g { s with parts := x } = g s
  rings : ∀ s x, g { s with rings := x } = g s

section Books
variable {α : Type} {g : State → α} (hg : BookBlind g)
include hg

theorem updPart_book (s : State) (p : Nat) (f : PartState → PartState) : g (s.updPart p f) = g s := hg.parts s _

theorem updRing_book (s : State) (p : Nat) (f : RingState → RingState) : g (s.updRing p f) = g s := hg.rings s _

theorem wr_book (s : State) (f : Field) (v i j : Nat) (h : bookBlock (fieldDef f).blk = true) : g (s.wr f v i j) = g s :=
  hg.putBook s ⟨f, i, j⟩ v h

theorem accrue_book (s : State) (r : FieldRef) (e : Nat) (h : bookBlock (fieldDef r.f).blk = true) : g (s.accrue r e) = g s :=
  (hg.putBook { s with frac := _ } r _ h).trans (hg.frac s _)

theorem unassigned_book (s : State) (e : Nat) : g (s.unassigned e) = g s :=
  (hg.gopen ((s.accrue ⟨.obsUnasgnE, 0, 0⟩ e).accrue ⟨.obsPkgenergyE, 0, 0⟩ e) _).trans
    ((accrue_book hg _ _ _ rfl).trans (accrue_book hg _ _ _ rfl))

theorem bumpStat_book (s : State) (f : Field) (p : Nat) (q : Stat) (n : Nat) (h : bookBlock (fieldDef f).blk = true) :
    g (s.bumpStat f p q n) = g s := by
  unfold State.bumpStat
  split
  · split
    · exact accrue_book hg _ _ _ h
    · exact wr_book hg _ _ _ _ _ h
  · rfl

theorem tally_book (s : State) (p : Nat) (q : Stat) (n : Nat) : g (s.tally p q n) = g s := by
  unfold State.tally
  dsimp only
  split
  · rfl
  · split
    · rw [bumpStat_book hg _ _ _ _ _ rfl, updPart_book hg]
    · rw [bumpStat_book hg _ _ _ _ _ rfl, bumpStat_book hg _ _ _ _ _ rfl, updPart_book hg]

theorem tallyDie_book (s : State) (d : Nat) (q : Stat) (n : Nat) : g (s.tallyDie d q n) = g s := by
  unfold State.tallyDie
  dsimp only
  split
  · rw [tally_book hg, hg.gopen]
  · exact hg.gopen s _

theorem countEnergyAt_book (s : State) (p k : Nat) (q : Stat) (n : Nat) : g (s.countEnergyAt p k q n) = g s := by
  unfold State.countEnergyAt
  dsimp only
  split
  · rfl
  · split
    · rw [updPart_book hg, updRing_book hg]
    · exact updPart_book hg _ _ _

theorem notePeak_book (s : State) (p k e : Nat) : g (s.notePeak p k e) = g s := by
  unfold State.notePeak
  dsimp only
  split
  · rw [updRing_book hg, updPart_book hg]
  · rw [updPart_book hg, updPart_book hg]

theorem viewEnergy_book (s : State) (p k : Nat) (q : Stat) (n : Nat) : g (s.viewEnergy p k q n) = g s := by
  have opened : g (if k = s.period then s.updPart p fun x => { x with open_ := addCount x.open_ q n } else s) = g s := by
    split
    · exact updPart_book hg _ _ _
    · rfl
  have job (t : State) : g (if (t.part p).jobHeld then t else t.bumpStat .viewJob p q n) = g t := by
    split
    · rfl
    · exact bumpStat_book hg _ _ _ _ _ rfl
  unfold State.viewEnergy
  split
  · rfl
  · exact (job _).trans ((bumpStat_book hg _ _ _ _ _ rfl).trans opened)

theorem partEnergy_book (s : State) (p k e idle shared : Nat) : g (s.partEnergy p k e idle shared) = g s := by
  unfold State.partEnergy
  dsimp only
  split
  · exact unassigned_book hg s e
  · split
    · rw [notePeak_book hg, countEnergyAt_book hg, countEnergyAt_book hg, countEnergyAt_book hg, hg.gopen, accrue_book hg _ _ _ rfl]
    · rw [viewEnergy_book hg, viewEnergy_book hg, viewEnergy_book hg, notePeak_book hg, countEnergyAt_book hg, countEnergyAt_book hg,
        countEnergyAt_book hg, hg.gopen, accrue_book hg _ _ _ rfl, accrue_book hg _ _ _ rfl]

theorem gapEnergy_book (s : State) (d e idle n k : Nat) : g (s.gapEnergy d e idle n k) = g s := by
  induction n generalizing s e idle k with
  | zero => rfl
  | succ n ih =>
    refine (ih _ _ _ _).trans ?_
    split
    · exact hg.acct s _
    · split
      · exact partEnergy_book hg _ _ _ _ _ _
      · exact unassigned_book hg _ _

theorem idleGap_book (s : State) (d e n k : Nat) : g (s.idleGap d e n k) = g s := by
  induction n generalizing s e k with
  | zero => rfl
  | succ n ih =>
    refine (ih _ _ _).trans ?_
    split
    · exact countEnergyAt_book hg _ _ _ _ _
    · rfl

theorem noteDieReset_book (s : State) (p k : Nat) : g (s.noteDieReset p k) = g s := by
  unfold State.noteDieReset
  split
  · exact updRing_book hg _ _ _
  · exact updPart_book hg _ _ _

theorem fillGap_book (s : State) (d : Nat) : g (s.fillGap d) = g s :=
  (each_blind _ _ (fun t _ => each_blind _ _ (fun u p => noteDieReset_book hg u p _) t) _).trans (gapEnergy_book hg _ _ _ _ _ _)

theorem apportion_book (s : State) (k e : Nat) : g (s.apportion k e) = g s := by
  unfold State.apportion
  dsimp only
  split
  · exact unassigned_book hg _ _
  · exact each_blind _ _ (fun t x => partEnergy_book hg t _ _ _ _ _) s

theorem apportionAll_book (s : State) : g s.apportionAll = g s := by
  unfold State.apportionAll
  exact List.foldlRecOn (motive := fun t => g t = g s) _ _ (hg.acct s _) fun t ht x _ => (apportion_book hg t _ _).trans ht

theorem mergePending_book (s : State) (n : Nat) : g (s.mergePending n) = g s := by
  unfold State.mergePending
  dsimp only
  split
  · rfl
  · rw [wr_book hg _ _ _ _ _ rfl, updRing_book hg]

theorem closeStmt_book (s : State) (d : StmtDue) : g (s.closeStmt d) = g s := by
  unfold State.closeStmt
  dsimp only
  rw [mergePending_book hg, updPart_book hg, updRing_book hg]

end Books

/-- A table or a mode that the accounts do not keep, and that no register carries, is such a reading. -/
theorem book_of {α : Type} (g : State → α) (hr : ∀ s x, g { s with regs := x } = g s) (hl : ∀ s x, g { s with limits := x } = g s)
    (frac : ∀ s x, g { s with frac := x } = g s) (gopen : ∀ s x, g { s with gopen := x } = g s) (acct : ∀ s x, g { s with acct := x } = g s)
    (parts : ∀ s x, g { s with parts := x } = g s) (rings : ∀ s x, g { s with rings := x } = g s) : BookBlind g :=
  ⟨fun s r v _ => State.put_other g hr hl s r v, frac, gopen, acct, parts, rings⟩

theorem book_now : BookBlind fun s : State => s.now := by apply book_of <;> intros <;> rfl
theorem book_dies : BookBlind fun s : State => s.dies := by apply book_of <;> intros <;> rfl
theorem book_halls : BookBlind fun s : State => s.halls := by apply book_of <;> intros <;> rfl
theorem book_period : BookBlind fun s : State => s.period := by apply book_of <;> intros <;> rfl
theorem book_beacons : BookBlind fun s : State => s.beacons := by apply book_of <;> intros <;> rfl

end Sys2Proof.Machine

/-!
Settles O18 (continued): the admission of a die agent and the cut of an island's power.
-/
namespace Sys2Proof.Machine

/-! ## Admission -/

/-- The registers of the die restored from the Hall's copy, with the detectors' taps and clamps that follow from them (R289). -/
def State.recordBack (s : State) (d : Nat) : State :=
  if (s.hd d).copy.isEmpty then s.puts (s.hd d).copy else ((s.puts (s.hd d).copy).retap d).restoreClamps d

/-- The die admitted, before its first grant. -/
def State.admitRecord (s : State) (d : Nat) : State :=
  (s.recordBack d).updHd d fun x => { x with admitted := true, gen := (s.die d).gen, copy := [], readEdie := true }

theorem exec_dieAdmit {s : State} {d : Die} (hs : s.aon = true) (ha : (s.hd d.val).admitted = false) (hp : (s.die d.val).powered = true)
    {r : Report} (hr : (s.hd d.val).newest = some r) (hg : r.gen = (s.die d.val).gen) :
    exec (.dieAdmit d) s = .next (s.commit ((s.admitRecord d.val).sendGrant d.val ((s.admitRecord d.val).firstGrant d.val))) := by
  change execDieAdmit d s = _
  rw [execDieAdmit, State.run_on _ hs]
  simp only [ha, hp, hr, hg, decide_true, Bool.not_true, Bool.or_self, Bool.false_eq_true, if_false]
  rfl

theorem State.retap_other {α : Type} {d : Nat} {g : State → α} (wr1 : ∀ (t : State) (v i : Nat), g (t.wr .dagDrpchrTap1 v d i) = g t)
    (wr2 : ∀ (t : State) (v i : Nat), g (t.wr .dagDrpchrTap2 v d i) = g t) (s : State) : g (s.retap d) = g s :=
  each_blind _ _ (fun t _ => (wr2 _ _ _).trans (wr1 t _ _)) s

theorem State.restoreClamps_other {α : Type} {d : Nat} {g : State → α} (wr : ∀ t, g (State.wr t .dagDrpstatClamp 1 d) = g t)
    (upd : ∀ (t : State) (l : List Nat), g (t.updDie d fun x => { x with droop := { x.droop with clamped := l } }) = g t) (s : State) : g (s.restoreClamps d) = g s := by
  unfold State.restoreClamps
  dsimp only
  split
  · exact upd s _
  · exact (wr _).trans (upd s _)

theorem State.halls_recordBack (s : State) (d : Nat) : (s.recordBack d).halls = s.halls := by
  have wr (t : State) (f : Field) (v i j : Nat) : (t.wr f v i j).halls = t.halls := t.wr_halls f v i j
  have puts (t : State) (l : List (FieldRef × Nat)) : (t.puts l).halls = t.halls := State.puts_other (fun _ _ => rfl) (fun _ _ => rfl) t l
  unfold State.recordBack
  split
  · exact puts _ _
  · rw [State.restoreClamps_other (g := State.halls) (fun t => wr t _ _ _ _) (fun _ _ => rfl),
      State.retap_other (g := State.halls) (fun t _ _ => wr t _ _ _ _) (fun t _ _ => wr t _ _ _ _), puts]

theorem State.gen_recordBack (s : State) (d : Nat) : ((s.recordBack d).die d).gen = (s.die d).gen := by
  have wr (t : State) (f : Field) (v i j : Nat) : ((t.wr f v i j).die d).gen = (t.die d).gen :=
    congrArg (fun x => (Store.get DieState.init x d).gen) (t.wr_dies f v i j)
  have puts (t : State) (l : List (FieldRef × Nat)) : ((t.puts l).die d).gen = (t.die d).gen :=
    congrArg (fun x => (Store.get DieState.init x d).gen) (State.puts_other (g := State.dies) (fun _ _ => rfl) (fun _ _ => rfl) t l)
  unfold State.recordBack
  split
  · exact puts _ _
  · rw [State.restoreClamps_other (g := fun t : State => (t.die d).gen) (fun t => wr t _ _ _ _) (fun t f => ?_),
      State.retap_other (g := fun t : State => (t.die d).gen) (fun t _ _ => wr t _ _ _ _) (fun t _ _ => wr t _ _ _ _), puts]
    rw [State.die_updDie, if_pos rfl]

theorem State.reg_recordBack (s : State) {d : Nat} {r : FieldRef} {v : Nat} (h : (s.hd d).copy = [(r, v)]) (hf : r.f ∈ copiedFields)
    (he : r.exists = true) : (s.recordBack d).reg r = v % 2 ^ (fieldDef r.f).width := by
  have wr (t : State) (f : Field) (v i j : Nat) (ha : f ∉ copiedFields) : (t.wr f v i j).reg r = t.reg r :=
    t.rd_wr_field v i j r.i r.j (ne_of_mem_of_not_mem hf ha).symm
  unfold State.recordBack
  rw [h]
  refine (State.restoreClamps_other (g := fun t : State => t.reg r) (fun t => wr t _ _ _ _ (by decide)) (fun _ _ => rfl) _).trans ?_
  refine (State.retap_other (g := fun t : State => t.reg r) (fun t _ _ => wr t _ _ _ _ (by decide)) (fun t _ _ => wr t _ _ _ _ (by decide)) _).trans ?_
  exact s.reg_put_same v he

theorem State.gen_heldGrant (s : State) (d : Nat) (g : Grant) : (s.heldGrant d g).gen = g.gen := by
  unfold State.heldGrant
  split <;> rfl

/-- A grant carries the generation of its die (R20). -/
theorem State.gen_grantFor (s : State) (cause : Nat) (l : List CoreCalc) (d : Nat) : (s.grantFor cause l d).gen = (s.die d).gen := by
  have fixed : (if 32 ≤ d then s.bareGrant d else if s.preChain then s.fixedGrant d
      else if s.inService d then s.allocGrant cause l d else s.idleGrant d).gen = (s.die d).gen := by
    split
    · rfl
    · split
      · rfl
      · split
        · exact s.gen_heldGrant d _
        · exact s.gen_heldGrant d _
  unfold State.grantFor
  dsimp only
  cases (s.hd d).lastGrant with
  | none => exact fixed
  | some g =>
    dsimp only
    split
    · next again => exact of_decide_eq_true (Bool.and_eq_true_iff.1 again).2
    · exact fixed

theorem copied_not_limit {f : Field} (h : f ∈ copiedFields) : f.isLimit = false := by
  have all : ∀ f ∈ copiedFields, f.isLimit = false := by decide
  exact all f h

theorem admit_lands {s : State} {d : Die} (hs : s.aon = true) (ha : (s.hd d.val).admitted = false) (hp : (s.die d.val).powered = true)
    {r : Report} (hr : (s.hd d.val).newest = some r) (hg : r.gen = (s.die d.val).gen) :
    ∃ t g, exec (.dieAdmit d) s = .next t ∧ (t.hd d.val).admitted = true ∧ (t.hd d.val).gen = (s.die d.val).gen ∧
      (t.hd d.val).copy = [] ∧ (t.hd d.val).lane = (s.hd d.val).lane ++ [g] ∧ (t.hd d.val).lastGrant = some g ∧ g.gen = (s.die d.val).gen ∧
      ∀ r v, (s.hd d.val).copy = [(r, v)] → r.f ∈ copiedFields → r.exists = true → t.reg r = v % 2 ^ (fieldDef r.f).width := by
  have copied : (s.recordBack d.val).hd d.val = s.hd d.val := congrArg (Store.get HallDie.init · d.val) (s.halls_recordBack d.val)
  have agent : ((s.admitRecord d.val).die d.val).gen = (s.die d.val).gen := s.gen_recordBack d.val
  refine ⟨_, (s.admitRecord d.val).firstGrant d.val, exec_dieAdmit hs ha hp hr hg, ?_⟩
  simp only [State.hd_commit, State.sendGrant, State.hd_updHd, if_true, State.admitRecord, copied, true_and]
  refine ⟨(State.gen_grantFor _ _ _ _).trans agent, fun r v hc hf he => ?_⟩
  exact (State.rd_commit _ _ r.f r.i r.j (copied_not_limit hf)).trans (s.reg_recordBack hc hf he)

/-! ## The end of a power cycle -/

theorem exec_islandCycleEnd {s : State} {d : Die} (hs : s.aon = true) {c : Nat} (hc : (s.hd d.val).cutAt = some c) :
    exec (.islandCycleEnd d) s = .next (s.commit
      (((s.advanceTo (c + 100000)).event (17 * 256 + 2) 0 (unitOf d.val 0) (s.partOf d.val)).restartAgent d.val)) := by
  change execIslandCycleEnd d s = _
  rw [execIslandCycleEnd, State.run_on _ hs]
  simp only [hc]

theorem cycleEnd_lands {s : State} {d : Die} (hs : s.aon = true) {c : Nat} (hc : (s.hd d.val).cutAt = some c)
    (hp : (s.die d.val).powered = false) :
    ∃ t, exec (.islandCycleEnd d) s = .next t ∧ (t.die d.val).powered = true ∧ (t.die d.val).gen = ((s.die d.val).gen + 1) % 16 ∧
      c + 100000 ≤ t.now ∧ (t.hd d.val).cutAt = none := by
  have same : (((s.advanceTo (c + 100000)).event (17 * 256 + 2) 0 (unitOf d.val 0) (s.partOf d.val)).die d.val) = s.die d.val :=
    congrArg (Store.get DieState.init · d.val) ((event_blind blind_dies _ _ _ _ _).trans (s.advanceTo_other State.dies State.put_dies (fun _ _ => rfl) (fun _ _ => rfl) _))
  obtain ⟨powered, gen, -, cut, -⟩ := State.restartAgent_lands (same ▸ hp)
  refine ⟨_, exec_islandCycleEnd hs hc, ?_, ?_, ?_, ?_⟩
  · rw [State.die_commit, powered]
  · rw [State.die_commit, gen, same]
  · rw [State.commit_now, State.now_restartAgent (same ▸ hp), event_blind blind_now, State.advanceTo_now]
    omega
  · rw [State.hd_commit, cut]

/-! ## The cut of an island -/

theorem State.now_setBit (s : State) (f : Field) (k : Nat) (on : Bool) (i j : Nat) : (s.setBit f k on i j).now = s.now := by
  unfold State.setBit
  dsimp only
  split
  · rfl
  · exact s.wr_now _ _ _ _

theorem State.now_loseCellar (s : State) (m : Nat) : (s.loseCellar m).now = s.now := by
  unfold State.loseCellar
  dsimp only
  split
  · exact raise_blind blind_now _ _ FaultClass.noConfusion
  · rfl

theorem State.now_leaveReg (s : State) (r : Nat) : (s.leaveReg r).now = s.now := by
  unfold State.leaveReg
  split
  · rw [State.now_loseCellar, State.now_loseCellar]
  · rfl

theorem State.now_railQuiet (s : State) (r st : Nat) : (s.railQuiet r st).now = s.now :=
  State.railQuiet_other (g := State.now) State.put_now (fun _ _ => rfl) s r st

theorem State.now_holdReset (s : State) (d : Nat) : (s.holdReset d).now = s.now := by
  obtain ⟨-, -, core⟩ := s.onlyChanges_enterReset d
  exact congrArg (fun c => c.now) core

theorem State.now_restoreQueues (s : State) (d : Nat) : (s.restoreQueues d).now = s.now := by
  unfold State.restoreQueues
  dsimp only
  rw [State.updHd_now]
  split
  · rw [idleGap_book book_now, each_blind (g := State.now) _ _ fun t q => t.wr_now _ _ _ _]
  · rw [each_blind (g := State.now) _ _ fun t x => accrue_book book_now t _ _ rfl, each_blind (g := State.now) _ _ fun t q => t.wr_now _ _ _ _]

/-- The accounts of a die filled up to the cut. -/
def State.gapFilled (s : State) (d : Nat) : State := if d < 32 then (s.fillGap d).restoreQueues d else s.fillGap d

/-- A rail of the island off, and the dies it feeds in reset. -/
def State.railCut (s : State) (r : Nat) : State := ((s.leaveReg r).railQuiet r railOff).each (fedDies r) State.holdReset

/-- The state in which an island is cut, before its die and its record show it. -/
def State.islandDown (s : State) (d : Nat) : State :=
  ((((s.gapFilled d).each ((railsOwned d).filter fun r => !(s.railSt r = railLatched || s.railSt r = railShort))
    State.railCut).setBit .clkLock d false).setBit .clkHold d false).setExcl d 1 false

/-- The record that the Hall keeps of a die whose island is cut (R288). -/
def State.cutRecord (s : State) (d : Nat) (x : HallDie) : HallDie :=
  { x with admitted := false, rep := none, late := none, fresh := false, lane := [], lastGrant := none, silent := 0, cutAt := some s.now
           copy := if x.copy.isEmpty then s.copyOfDie d else x.copy }

theorem State.cutIsland_eq (s : State) (d : Nat) :
    s.cutIsland d = ((s.islandDown d).updDie d fun x => { x with powered := false, steward := false }).updHd d (s.cutRecord d) := rfl

theorem State.now_cutIsland (s : State) (d : Nat) : (s.cutIsland d).now = s.now := by
  have gap : (s.gapFilled d).now = s.now := by
    unfold State.gapFilled
    split
    · rw [State.now_restoreQueues, fillGap_book book_now]
    · exact fillGap_book book_now s d
  rw [State.cutIsland_eq, State.updHd_now, State.updDie_now, State.islandDown, State.setExcl, State.updHd_now, State.now_setBit, State.now_setBit,
    each_blind (g := State.now) _ _ fun t r => ?_, gap]
  rw [State.railCut, each_blind (g := State.now) _ _ fun u e => u.now_holdReset e, State.now_railQuiet, State.now_leaveReg]

theorem State.die_cutIsland (s : State) (d : Nat) : ((s.cutIsland d).die d).powered = false := by
  rw [State.cutIsland_eq, State.die, State.updHd_dies]
  exact congrArg DieState.powered ((State.die_updDie _ _ _ _).trans (if_pos rfl))

theorem State.hd_cutIsland (s : State) (d : Nat) : ((s.cutIsland d).hd d).admitted = false ∧ ((s.cutIsland d).hd d).lastGrant = none ∧
    ((s.cutIsland d).hd d).cutAt = some s.now := by
  rw [State.cutIsland_eq, State.hd_updHd, if_pos rfl]
  exact ⟨rfl, rfl, rfl⟩

/-- An island cut in a state that time has not passed beyond the command: the die shows it, and the record is dated now. -/
theorem cut_lands {s n : State} {d : Nat} (later : s.now ≤ n.now) :
    ((s.commit (n.cutIsland d)).die d).powered = false ∧ ((s.commit (n.cutIsland d)).hd d).admitted = false ∧
      ((s.commit (n.cutIsland d)).hd d).lastGrant = none ∧ ((s.commit (n.cutIsland d)).hd d).cutAt = some (s.commit (n.cutIsland d)).now := by
  rw [State.die_commit, State.hd_commit, State.commit_now, State.now_cutIsland, max_eq_right later]
  exact ⟨n.die_cutIsland d, n.hd_cutIsland d⟩

/-! ## An agent that does not answer -/

/-- A hub's agent that does not answer, before its island is cut: the other Hall takes over, or there is no standby any more (R288, R292). -/
def State.hubSilent (s : State) (h : Nat) : State :=
  if h = s.active then
    (if s.flag .govHallStbyrdy then (s.advanceTo s.nextGrant).failover 2 else (s.stopHall h).noStandby.ringSilent)
  else (s.stopHall h).noStandby

theorem State.now_stopHall (s : State) (h : Nat) : (s.stopHall h).now = s.now := State.wr_now _ _ _ _ _

theorem State.now_noStandby (s : State) : s.noStandby.now = s.now := noStandby_blind blind_now (fun _ _ => rfl) (fun _ _ => rfl) s

theorem State.now_failover (s : State) (cause : Nat) : (s.failover cause).now = s.now := by
  have old : s.oldOut.now = s.now := by
    unfold State.oldOut
    rw [State.now_stopHall]
    split
    · exact failUpdate_latch latch_now s 6
    · rfl
  rw [s.failover_eq cause, State.now_noStandby, takeRole_role role_now, State.now_roleHead, old]

theorem State.now_hubSilent (s : State) (h : Nat) : s.now ≤ (s.hubSilent h).now := by
  unfold State.hubSilent
  split
  · split
    · rw [State.now_failover, State.advanceTo_now]
      exact Nat.le_max_left _ _
    · exact ((chainOut_latch latch_now _).trans ((State.now_noStandby _).trans (s.now_stopHall h))).ge
  · exact ((State.now_noStandby _).trans (s.now_stopHall h)).ge

section Unresponsive
variable {s : State} {d : Die} (hs : s.aon = true) (hu : s.unresponsive d.val = true)
include hs hu

theorem exec_unresponsive_compute (h : d.val < 32) :
    exec (.agentUnresponsive d) s = .next (s.commit ((s.raiseNow (cont 17 1 (unitOf d.val 0) .die 3)).cutIsland d.val)) := by
  change execAgentUnresponsive d s = _
  rw [execAgentUnresponsive, State.run_on _ hs]
  simp only [hu, h, Bool.not_true, Bool.false_eq_true, if_false, if_true]

theorem exec_unresponsive_hub (h : d.val = 36 ∨ d.val = 37) :
    exec (.agentUnresponsive d) s =
      .next (s.commit (((s.hubSilent (d.val - 36)).raise (cont 17 1 (unitOf d.val 0) .package 3)).cutIsland d.val)) := by
  have high : ¬ d.val < 32 := by omega
  have hub : (decide (d.val = 36) || decide (d.val = 37)) = true := by simpa using h
  change execAgentUnresponsive d s = _
  rw [execAgentUnresponsive, State.run_on _ hs]
  simp only [hu, high, hub, Bool.not_true, Bool.false_eq_true, if_false, if_true]
  rfl

theorem exec_unresponsive_fatal (h : 32 ≤ d.val) (h6 : d.val ≠ 36) (h7 : d.val ≠ 37) :
    exec (.agentUnresponsive d) s = .next (s.commit (s.raise (fatalFault 17 1 (unitOf d.val 0) 3))) := by
  have high : ¬ d.val < 32 := by omega
  have hub : (decide (d.val = 36) || decide (d.val = 37)) = false := by simp [h6, h7]
  change execAgentUnresponsive d s = _
  rw [execAgentUnresponsive, State.run_on _ hs]
  simp only [hu, high, hub, Bool.not_true, Bool.false_eq_true, if_false]

theorem unresponsive_lands :
    ∃ t, exec (.agentUnresponsive d) s = .next t ∧
      (d.val < 32 ∨ d.val = 36 ∨ d.val = 37 → (t.die d.val).powered = false ∧ (t.hd d.val).admitted = false ∧ (t.hd d.val).lastGrant = none ∧
        (t.hd d.val).cutAt = some t.now) ∧
      (32 ≤ d.val → d.val ≠ 36 → d.val ≠ 37 → t.flag .fltStatusFatal = true) := by
  by_cases low : d.val < 32
  · exact ⟨_, exec_unresponsive_compute hs hu low, fun _ => cut_lands (raiseNow_blind blind_now s _).ge, fun h => absurd low (by omega)⟩
  · by_cases hub : d.val = 36 ∨ d.val = 37
    · refine ⟨_, exec_unresponsive_hub hs hu hub, fun _ => cut_lands ?_, fun _ h6 h7 => (hub.elim h6 h7).elim⟩
      rw [raise_blind blind_now _ _ FaultClass.noConfusion]
      exact s.now_hubSilent _
    · obtain ⟨h6, h7⟩ := not_or.1 hub
      exact ⟨_, exec_unresponsive_fatal hs hu (by omega) h6 h7, fun h => (h.elim low hub).elim, fun _ _ _ =>
        (congrArg (fun n => decide (n = 1)) (State.rd_commit _ _ _ _ _ rfl)).trans (State.fatal_failsafe _ _ _)⟩

end Unresponsive

/-! ## The obligation -/

/-- Settles O18: a restart, an admission and a cut each end in an update of the die or of its record that says all that is asked for. -/
theorem agentsRestartOrAreCut : Obligations.AgentsRestartOrAreCut := by
  refine ⟨fun s d hs => ⟨fun hp => ?_, fun hp => ?_, fun ha hp hr => ?_, fun c hc hp => cycleEnd_lands hs hc hp⟩,
    fun s d hs hu => unresponsive_lands hs hu⟩
  · obtain ⟨powered, gen, admitted, -, settings⟩ := State.restartAgent_lands hp
    refine ⟨_, State.run_on (fun s => s.restartAgent d.val) hs, ?_, ?_, ?_, fun hd => ?_⟩
    · rw [State.die_commit, powered]
    · rw [State.die_commit, gen]
    · rw [State.hd_commit, admitted]
    · obtain ⟨vid, tgt⟩ := settings hd
      exact ⟨(State.rd_commit _ _ _ _ _ rfl).trans vid, fun k hk => (State.rd_commit _ _ _ _ _ rfl).trans (tgt k hk)⟩
  · have same : s.restartAgent d.val = s := by rw [State.restartAgent, if_pos hp]
    exact ⟨_, State.run_on (fun s => s.restartAgent d.val) hs, by rw [same]; exact State.onlyChanges_commit (s.onlyChanges_refl _ _)⟩
  · obtain ⟨r, hr, hg⟩ := hr
    exact admit_lands hs ha hp hr hg

end Sys2Proof.Machine

/-!
Settles O19: what a fast period and a sampling instant leave of each die agent's link, and of each die's report in the Hall.
-/
namespace Sys2Proof.Machine

/-! ## What a period leaves alone -/

/-- The part of a die agent that its lanes, its grants and its power make. -/
structure DieLink where
  powered : Bool
  gen : Nat
  laneA : List Report
  laneB : List Report
  next : Option Grant
  applied : Option Nat
  steward : Bool

def DieState.link (x : DieState) : DieLink := ⟨x.powered, x.gen, x.laneA, x.laneB, x.next, x.applied, x.steward⟩

/-- Whether the Hall has a fresh report of a die, and for how many periods it has had none. -/
def HallDie.heard (x : HallDie) : Bool × Nat := (x.fresh, x.silent)

/-- A reading of the state that reaches neither the registers nor anything of a die but its link and its report's freshness. -/
structure PeriodBlind {α : Type} (g : State → α) : Prop extends LatchBlind g, BookBlind g where
  putAny : ∀ s (r : FieldRef) v, g (s.put r v) = g s
  dies : ∀ s d (f : DieState → DieState), (∀ x, (f x).link = x.link) → g (s.updDie d f) = g s
  halls : ∀ s d (f : HallDie → HallDie), (∀ x, (f x).heard = x.heard) → g (s.updHd d f) = g s
  rails : ∀ s x, g { s with rails := x } = g s
  lard : ∀ s x, g { s with lard := x } = g s
  hearth : ∀ s x, g { s with hearth := x } = g s
  lim : ∀ s x, g { s with lim := x } = g s
  telDecim : ∀ s x, g { s with telDecim := x } = g s
  frozen : ∀ s x, g { s with frozen := x } = g s
  thaw : ∀ s x, g { s with thaw := x } = g s
  perDue : ∀ s x, g { s with perDue := x } = g s
  winDue : ∀ s x, g { s with winDue := x } = g s
  jobDue : ∀ s x, g { s with jobDue := x } = g s
  change : ∀ s x, g { s with change := x } = g s
  changes : ∀ s x, g { s with changes := x } = g s
  changeGen : ∀ s x, g { s with changeGen := x } = g s
  svcUnder : ∀ s x, g { s with svcUnder := x } = g s

/-- A table or a mode that only the registers, the links and the records could change. -/
theorem period_of {α : Type} (g : State → α) (hl : LatchBlind g) (hb : BookBlind g) (regs : ∀ s x, g { s with regs := x } = g s)
    (limits : ∀ s x, g { s with limits := x } = g s)
    (dies : ∀ s d (f : DieState → DieState), (∀ x, (f x).link = x.link) → g (s.updDie d f) = g s)
    (halls : ∀ s d (f : HallDie → HallDie), (∀ x, (f x).heard = x.heard) → g (s.updHd d f) = g s) (rails : ∀ s x, g { s with rails := x } = g s)
    (lard : ∀ s x, g { s with lard := x } = g s) (hearth : ∀ s x, g { s with hearth := x } = g s) (lim : ∀ s x, g { s with lim := x } = g s)
    (telDecim : ∀ s x, g { s with telDecim := x } = g s) (frozen : ∀ s x, g { s with frozen := x } = g s)
    (thaw : ∀ s x, g { s with thaw := x } = g s) (perDue : ∀ s x, g { s with perDue := x } = g s) (winDue : ∀ s x, g { s with winDue := x } = g s)
    (jobDue : ∀ s x, g { s with jobDue := x } = g s) (change : ∀ s x, g { s with change := x } = g s)
    (changes : ∀ s x, g { s with changes := x } = g s) (changeGen : ∀ s x, g { s with changeGen := x } = g s)
    (svcUnder : ∀ s x, g { s with svcUnder := x } = g s) : PeriodBlind g :=
  { hl, hb with putAny := fun s r v => State.put_other g regs limits s r v, dies, halls, rails, lard, hearth, lim, telDecim, frozen, thaw, perDue,
                winDue, jobDue, change, changes, changeGen, svcUnder }

theorem period_now : PeriodBlind fun s : State => s.now := by apply period_of _ latch_now book_now <;> intros <;> rfl

theorem blind_period : FaultBlind fun s : State => s.period := by apply blind_of <;> intros <;> rfl
theorem latch_period : LatchBlind fun s : State => s.period := by apply latch_of _ blind_period <;> intros <;> rfl
theorem period_period : PeriodBlind fun s : State => s.period := by apply period_of _ latch_period book_period <;> intros <;> rfl

theorem blind_beacons : FaultBlind fun s : State => s.beacons := by apply blind_of <;> intros <;> rfl
theorem latch_beacons : LatchBlind fun s : State => s.beacons := by apply latch_of _ blind_beacons <;> intros <;> rfl
theorem period_beacons : PeriodBlind fun s : State => s.beacons := by apply period_of _ latch_beacons book_beacons <;> intros <;> rfl

theorem period_link (e : Nat) : PeriodBlind fun s : State => (s.die e).link := by
  have latch : LatchBlind fun s : State => (s.die e).link := by
    apply latch_of _ (by apply blind_of <;> intros <;> rfl) <;> intros <;> rfl
  have book : BookBlind fun s : State => (s.die e).link := by apply book_of <;> intros <;> rfl
  apply period_of _ latch book
  case dies =>
    intro s d f hf
    rw [State.die_updDie]
    split
    · next h => rw [hf, h]
    · rfl
  all_goals intros; rfl

theorem period_heard (e : Nat) : PeriodBlind fun s : State => (s.hd e).heard := by
  have latch : LatchBlind fun s : State => (s.hd e).heard := by
    apply latch_of _ (by apply blind_of <;> intros <;> rfl) <;> intros <;> rfl
  have book : BookBlind fun s : State => (s.hd e).heard := by apply book_of <;> intros <;> rfl
  apply period_of _ latch book
  case halls =>
    intro s d f hf
    rw [State.hd_updHd]
    split
    · next h => rw [hf, h]
    · rfl
  all_goals intros; rfl

/-! ## The steps of a period -/

section Period
variable {α : Type} {g : State → α} (hg : PeriodBlind g)
include hg

theorem wr_period (s : State) (f : Field) (v i j : Nat) : g (s.wr f v i j) = g s := hg.putAny s ⟨f, i, j⟩ v

theorem count_period (s : State) (f : Field) (n i j : Nat) : g (s.count f n i j) = g s := hg.putAny s ⟨f, i, j⟩ _

theorem puts_period (s : State) (l : List (FieldRef × Nat)) : g (s.puts l) = g s := by
  induction l generalizing s with
  | nil => rfl
  | cons e l ih => exact (ih _).trans (hg.putAny s e.1 e.2)

theorem accrue_period (s : State) (r : FieldRef) (e : Nat) : g (s.accrue r e) = g s :=
  (hg.putAny { s with frac := _ } r _).trans (hg.frac s _)

theorem raise_period (s : State) (x : FaultRec) : g (s.raise x) = g s := raise_latch hg.toLatchBlind s x

theorem tallyDie_period (s : State) (d : Nat) (q : Stat) (n : Nat) : g (s.tallyDie d q n) = g s := tallyDie_book hg.toBookBlind s d q n

theorem tallyActs_period (s : State) (i : DieInput) : g (s.tallyActs i) = g s := by
  refine each_blind _ _ (fun t a => ?_) s
  split
  · split
    · exact tallyDie_period hg _ _ _ _
    · rfl
  · rfl

theorem pay_period (s : State) (d : Nat) (x : Payee × Nat) : g (s.pay d x) = g s := by
  unfold State.pay
  split
  · exact accrue_period hg _ _ _
  · exact hg.dies _ _ _ fun _ => rfl

theorem countEnergy_period (s : State) (i : DieInput) : g (s.countEnergy i) = g s := by
  unfold State.countEnergy
  dsimp only
  rw [wr_period hg, wr_period hg]
  exact (hg.dies _ _ _ (by intro; rfl)).trans (each_blind _ _ (fun t x => pay_period hg t _ x) s)

theorem countTrim_period (s : State) (i : DieInput) (c : Nat) : g (s.countTrim i c) = g s := by
  refine (each_blind _ _ (fun t q => count_period hg t _ _ _ _) _).trans ?_
  split
  · rw [tallyDie_period hg, count_period hg]
  · split
    · rw [tallyDie_period hg, count_period hg]
    · rfl

theorem chargeThrottle_period (s : State) (i : DieInput) (c : Nat) : g (s.chargeThrottle i c) = g s := by
  unfold State.chargeThrottle
  dsimp only
  split
  · rfl
  · exact tallyDie_period hg _ _ _ _

theorem endTel_period (s : State) (d : Nat) : g (s.endTel d) = g s := by
  unfold State.endTel
  dsimp only
  split
  · rfl
  · exact hg.dies _ _ _ fun _ => rfl

theorem trackWindows_period (s : State) (i : DieInput) : g (s.trackWindows i) = g s :=
  (count_period hg _ _ _ _ _).trans (hg.dies s i.die.val _ (by intro; rfl))

theorem noteRun_period (s : State) (d k : Nat) : g (s.noteRun d k) = g s := hg.dies s d _ fun _ => rfl

theorem setGdep_period (s : State) (k v : Nat) : g (s.setGdep k v) = g s := by
  rw [State.setGdep, noteRun_period hg, wr_period hg, noteRun_period hg]

theorem setBranch_period (s : State) (k div : Nat) : g (s.setBranch k div) = g s := by
  have clamp (b : Bool) (t : State) : g (if b then t.wr .clkStatusDivclamp 1 else t) = g t := by
    split
    · exact wr_period hg _ _ _ _ _
    · rfl
  have slow (b : Bool) (x : FaultRec) (t : State) : g (if b then t.raise x else t) = g t := by
    split
    · exact raise_period hg _ _
    · rfl
  unfold State.setBranch
  dsimp only
  split
  · rw [slow, clamp, wr_period hg]
  · rw [setGdep_period hg, slow, clamp, wr_period hg]

theorem setVid_period (s : State) (r v : Nat) : g (s.setVid r v) = g s := s.setVid_other hg.putAny hg.rails r v

theorem followVf_period (s : State) (d : Nat) : g (s.followVf d) = g s := by
  unfold State.followVf
  dsimp only
  split
  · rw [setVid_period hg, wr_period hg]
  · split
    · rw [setVid_period hg, wr_period hg]
    · exact wr_period hg _ _ _ _ _

theorem traceRecord_period (s : State) (d : Nat) (r : TraceRec) : g (s.traceRecord d r) = g s := by
  unfold State.traceRecord
  dsimp only
  split
  · rfl
  · split
    · exact (hg.dies _ _ _ (by intro; rfl)).trans (count_period hg _ _ _ _ _)
    · rw [wr_period hg]
      split
      · exact (count_period hg _ _ _ _ _).trans (hg.dies _ _ _ (by intro; rfl))
      · exact hg.dies _ _ _ fun _ => rfl

theorem trace_period (s : State) (d type core eng a b : Nat) : g (s.trace d type core eng a b) = g s := by
  unfold State.trace
  split
  · exact traceRecord_period hg _ _ _
  · rfl

theorem applyCore_period (s : State) (d c : Nat) (x : CoreGrant) : g (s.applyCore d c x) = g s := by
  unfold State.applyCore
  dsimp only
  split
  · rw [trace_period hg, setBranch_period hg, puts_period hg]
  · rw [setBranch_period hg, puts_period hg]

theorem useGrant_period (s : State) (d : Nat) (x : Grant) : g (s.useGrant d x) = g s := by
  unfold State.useGrant
  dsimp only
  rw [followVf_period hg, each_blind _ _ fun t y => applyCore_period hg t _ _ _, puts_period hg]

theorem recordGrant_period (s : State) (d : Nat) (x : Grant) : g (s.recordGrant d x) = g s :=
  (each_blind _ _ (fun t y => wr_period hg t _ _ _ _) _).trans (hg.dies s d _ (by intro; rfl))

/-- What follows the taking of a grant. -/
theorem applyGrant_period (s : State) (d : Nat) (x : Grant) : g (s.applyGrant d x) = g (s.takeGrant d x) := by
  unfold State.applyGrant
  dsimp only
  split
  · rfl
  · split
    · exact recordGrant_period hg _ _ _
    · exact useGrant_period hg _ _ _

theorem stewardSet_period (s : State) (d : Nat) : g (s.stewardSet d) = g s := by
  unfold State.stewardSet
  dsimp only
  split
  · rfl
  · rw [followVf_period hg, each_blind _ _ fun t x => (wr_period hg _ _ _ _ _).trans (setBranch_period hg t _ _)]
    exact (hg.dies _ _ _ (by intro; rfl)).trans (wr_period hg _ _ _ _ _)

theorem dropTrim_period (s : State) (d : Nat) : g (s.dropTrim d) = g s := by
  unfold State.dropTrim
  split
  · exact each_blind _ _ (fun t c => wr_period hg t _ _ _ _) s
  · rfl

theorem sendUpdates_period (s : State) (d : Nat) : g (s.sendUpdates d) = g s := by
  have lost (n : Nat) (t : State) (x : FaultRec) : g (if n = 0 then t else (t.wr .lrdMirrorOvf 1).raise x) = g t := by
    split
    · rfl
    · rw [raise_period hg, wr_period hg]
  have kept (l : List UpdRec) (x : LarderState) : g { s.updDie d (fun y => { y with updBuf := l }) with lard := x } = g s :=
    (hg.lard _ _).trans (hg.dies _ _ _ fun _ => rfl)
  unfold State.sendUpdates
  dsimp only
  split
  · rfl
  · split
    · exact hg.dies _ _ _ fun _ => rfl
    · exact (lost _ _ _).trans (kept _ _)

theorem unfreeze_period (s : State) : g s.unfreeze = g s := by
  have seq (b : Bool) (t : State) (f : Field) (v p : Nat) : g (if b then t.wr f v p else t) = g t := by
    split
    · exact wr_period hg _ _ _ _ _
    · rfl
  have thawed : g { s with frozen := none, thaw := false, perDue := false, winDue := false, jobDue := [] } = g s :=
    (hg.jobDue { s with frozen := none, thaw := false, perDue := false, winDue := false } _).trans
      ((hg.winDue { s with frozen := none, thaw := false, perDue := false } _).trans
        ((hg.perDue { s with frozen := none, thaw := false } _).trans ((hg.thaw { s with frozen := none } _).trans (hg.frozen s _))))
  unfold State.unfreeze
  split
  · rfl
  · dsimp only
    rw [each_blind (g := g) _ _ fun t p => ?_, wr_period hg, thawed]
    rw [seq, seq, seq]

theorem fixBin_period (s : State) : g s.fixBin = g s := by
  have fixed (h : HearthState) (l : LimState) : g { s with hearth := h, lim := l } = g s := (hg.lim { s with hearth := h } l).trans (hg.hearth s h)
  unfold State.fixBin
  dsimp only
  split
  · rfl
  · rw [wr_period hg, wr_period hg]
    exact fixed _ _

theorem takeVids_period (s : State) : g s.takeVids = g s := by
  unfold State.takeVids
  split
  · rfl
  · refine each_blind _ _ (fun t r => ?_) s
    split
    · exact (hg.rails _ _).trans (setVid_period hg _ _ _)
    · rfl

theorem newDecim_period (s : State) : g s.newDecim = g s := by
  unfold State.newDecim
  dsimp only
  split
  · exact hg.telDecim s _
  · rfl

theorem recordMembers_period (s : State) : g s.recordMembers = g s := by
  have kept (c : Prop) [Decidable c] (t : State) (p : Nat) (f : PartState → PartState) : g (if c then t else t.updPart p f) = g t := by
    split
    · rfl
    · exact hg.parts _ _
  refine each_blind _ _ (fun t p => ?_) s
  dsimp only
  split
  · exact kept _ _ _ _
  · exact kept _ _ _ _

theorem setSvc_period (s : State) (st : Nat) : g (s.setSvc st) = g s := setSvc_latch hg.toLatchBlind s st

theorem leaveSteward_period (s : State) : g s.leaveSteward = g s := by
  unfold State.leaveSteward
  split
  · rw [setSvc_period hg, wr_period hg]
  · rfl

theorem flagInterval_period (s : State) (p : Nat) : g (s.flagInterval p) = g s := by
  unfold State.flagInterval
  dsimp only
  split
  · exact hg.parts _ _
  · rfl

end Period

/-! ## One die at the boundary -/

/-- A die's period counted, before the grant that waits. -/
def State.periodCounted (s : State) (i : DieInput) : State :=
  let d := i.die.val
  let s1 := (s.tallyActs i).countEnergy i
  let s2 := if d < 32 then s1.each (upto 4) fun s c => (s.countTrim i c).chargeThrottle i c else s1
  let s3 := if d < 32 then s2.each (List.finRange 4) fun s c => s.showWait d (s.feedOf i c) else s2
  ((s3.endTel d).trackWindows i).updDie d fun x =>
    { x with admHit := [], traceTokens := min 1776 (x.traceTokens + 250)
             droop := { x.droop with hit := x.droop.episodes.map fun e => e.1 }
             adm := { x.adm with chargeNow := 0, chargeLast := x.adm.chargeNow
                                 reqs := x.adm.reqs.map fun r => { r with hit := false } } }

/-- A die without a new grant: one in STEWARD goes on with what it holds. -/
def State.goOn (s : State) (d : Nat) : State :=
  if (s.die d).steward then
    if ((s.updDie d fun x => { x with held := x.held + 1 }).die d).onShare && decide (d < 32) then
      (s.updDie d fun x => { x with held := x.held + 1 }).stewardSet d
    else s.updDie d fun x => { x with held := x.held + 1 }
  else s

/-- The report of a die put on both its lanes (R19). -/
def State.sendReport (s : State) (i : DieInput) : State :=
  s.updDie i.die.val fun x =>
    { x with trimRun := (upto 4).map fun c => s.rd .dagTrimlvlLvl i.die.val c
             laneA := x.laneA ++ [s.report i], laneB := x.laneB ++ [s.report i], acks := [] }

theorem State.boundaryDie_grant {s : State} {i : DieInput} (hp : (s.die i.die.val).powered = true) {x : Grant}
    (hx : ((s.periodCounted i).die i.die.val).next = some x) :
    s.boundaryDie i = ((((s.periodCounted i).applyGrant i.die.val x).dropTrim i.die.val).sendUpdates i.die.val).sendReport i := by
  rw [State.boundaryDie, if_neg (by rw [hp]; decide)]
  change ((State.dropTrim (match ((s.periodCounted i).die i.die.val).next with | some g => _ | none => _) _).sendUpdates _).sendReport i = _
  rw [hx]
  rfl

theorem State.boundaryDie_none {s : State} {i : DieInput} (hp : (s.die i.die.val).powered = true)
    (hx : ((s.periodCounted i).die i.die.val).next = none) :
    s.boundaryDie i = ((((s.periodCounted i).goOn i.die.val).dropTrim i.die.val).sendUpdates i.die.val).sendReport i := by
  rw [State.boundaryDie, if_neg (by rw [hp]; decide)]
  change ((State.dropTrim (match ((s.periodCounted i).die i.die.val).next with | some g => _ | none => _) _).sendUpdates _).sendReport i = _
  rw [hx]
  rfl

section Boundary
variable {α : Type} {g : State → α} (hg : PeriodBlind g)
include hg

theorem periodCounted_period (s : State) (i : DieInput) : g (s.periodCounted i) = g s := by
  have trims (t : State) (c : Nat) : g ((t.countTrim i c).chargeThrottle i c) = g t :=
    (chargeThrottle_period hg _ _ _).trans (countTrim_period hg _ _ _)
  have waits (t : State) (c : Core) : g (t.showWait i.die.val (t.feedOf i c)) = g t := puts_period hg _ _
  have counted : g ((s.tallyActs i).countEnergy i) = g s := (countEnergy_period hg _ _).trans (tallyActs_period hg _ _)
  unfold State.periodCounted
  dsimp only
  refine (hg.dies _ _ _ (by intro; rfl)).trans ((trackWindows_period hg _ _).trans ((endTel_period hg _ _).trans ?_))
  split
  · rw [each_blind _ _ waits, each_blind _ _ trims, counted]
  · exact counted

theorem goOn_period (s : State) (d : Nat) : g (s.goOn d) = g s := by
  have held : g (s.updDie d fun x => { x with held := x.held + 1 }) = g s := hg.dies _ _ _ fun _ => rfl
  unfold State.goOn
  split
  · split
    · exact (stewardSet_period hg _ _).trans held
    · exact held
  · rfl

/-- A die at the boundary leaves alone what no die agent keeps. -/
theorem boundaryDie_period (any : ∀ s d f, g (s.updDie d f) = g s) (s : State) (i : DieInput) : g (s.boundaryDie i) = g s := by
  by_cases hp : (s.die i.die.val).powered = true
  · cases hx : ((s.periodCounted i).die i.die.val).next with
    | some x =>
      rw [State.boundaryDie_grant hp hx, State.sendReport, any, sendUpdates_period hg, dropTrim_period hg, applyGrant_period hg, State.takeGrant, any,
        periodCounted_period hg]
    | none =>
      rw [State.boundaryDie_none hp hx, State.sendReport, any, sendUpdates_period hg, dropTrim_period hg, goOn_period hg, periodCounted_period hg]
  · rw [State.boundaryDie, if_pos (by simpa using hp)]

end Boundary

/-- The link of a die after the grant that waits has been applied, or not (R19, R197). -/
def DieLink.turned (x : DieLink) : DieLink :=
  { x with next := none, applied := (x.next.map Grant.period).or x.applied, steward := x.steward && x.next.isNone }

/-- The link of a die with a report on both lanes. -/
def DieLink.reported (x : DieLink) (r : Report) : DieLink := { x with laneA := x.laneA ++ [r], laneB := x.laneB ++ [r] }

theorem State.link_sendReport (s : State) (i : DieInput) :
    ((s.sendReport i).die i.die.val).link = (s.die i.die.val).link.reported (s.report i) := by
  rw [State.sendReport, State.die_updDie, if_pos rfl]
  rfl

theorem State.link_takeGrant (s : State) (d : Nat) {x : Grant} (h : (s.die d).next = some x) :
    ((s.takeGrant d x).die d).link = (s.die d).link.turned := by
  rw [State.takeGrant, State.die_updDie, if_pos rfl]
  simp [DieState.link, DieLink.turned, h]

/-- A die with power at the boundary: its grant applied, and its report on both lanes. -/
theorem State.link_boundaryDie {s : State} {i : DieInput} (hp : (s.die i.die.val).powered = true) :
    ∃ r : Report, r.gen = (s.die i.die.val).gen ∧ ((s.boundaryDie i).die i.die.val).link = (s.die i.die.val).link.turned.reported r := by
  have counted : ((s.periodCounted i).die i.die.val).link = (s.die i.die.val).link := periodCounted_period (period_link _) s i
  have ends (t : State) : (((t.dropTrim i.die.val).sendUpdates i.die.val).die i.die.val).link = (t.die i.die.val).link :=
    (sendUpdates_period (period_link _) _ _).trans (dropTrim_period (period_link _) _ _)
  have gen (t : State) (h : (t.die i.die.val).link = (s.die i.die.val).link.turned) :
      (((t.dropTrim i.die.val).sendUpdates i.die.val).report i).gen = (s.die i.die.val).gen := congrArg DieLink.gen ((ends t).trans h)
  cases hx : ((s.periodCounted i).die i.die.val).next with
  | some x =>
    have turned := (applyGrant_period (period_link i.die.val) (s.periodCounted i) i.die.val x).trans (State.link_takeGrant _ _ hx)
    rw [counted] at turned
    rw [State.boundaryDie_grant hp hx, State.link_sendReport, ends, turned]
    exact ⟨_, gen _ turned, rfl⟩
  | none =>
    have idle : (s.die i.die.val).next = none := (congrArg DieLink.next counted).symm.trans hx
    have turned : (((s.periodCounted i).goOn i.die.val).die i.die.val).link = (s.die i.die.val).link.turned := by
      refine ((goOn_period (period_link _) _ _).trans counted).trans ?_
      simp [DieState.link, DieLink.turned, idle]
    rw [State.boundaryDie_none hp hx, State.link_sendReport, ends, turned]
    exact ⟨_, gen _ turned, rfl⟩

/-- The link of another die stays. -/
theorem State.link_boundaryDie_other (s : State) {i : DieInput} {e : Nat} (h : i.die.val ≠ e) : ((s.boundaryDie i).die e).link = (s.die e).link := by
  have aside (t : State) (f : DieState → DieState) : ((t.updDie i.die.val f).die e).link = (t.die e).link := by
    rw [State.die_updDie, if_neg h]
  by_cases hp : (s.die i.die.val).powered = true
  · have counted : ((s.periodCounted i).die e).link = (s.die e).link := periodCounted_period (period_link e) s i
    have ends (t : State) : (((t.dropTrim i.die.val).sendUpdates i.die.val).die e).link = (t.die e).link :=
      (sendUpdates_period (period_link e) _ _).trans (dropTrim_period (period_link e) _ _)
    cases hx : ((s.periodCounted i).die i.die.val).next with
    | some x =>
      rw [State.boundaryDie_grant hp hx, State.sendReport, aside, ends, applyGrant_period (period_link e), State.takeGrant, aside, counted]
    | none =>
      rw [State.boundaryDie_none hp hx, State.sendReport, aside, ends, goOn_period (period_link e), counted]
  · rw [State.boundaryDie, if_pos (by simpa using hp)]

/-! ## The boundary of a fast period -/

/-- Of a list of dies without repeats, the one that stands in it passes its boundary once. -/
theorem State.link_boundaries {f : Die → DieInput} (hf : ∀ d, (f d).die = d) {d : Die} {l : List Die} (nodup : l.Nodup) (hd : d ∈ l) (s : State)
    (hp : (s.die d.val).link.powered = true) :
    ∃ r : Report, r.gen = (s.die d.val).link.gen ∧
      ((s.each (l.map f) State.boundaryDie).die d.val).link = (s.die d.val).link.turned.reported r := by
  have others (k : List Die) (hk : d ∉ k) (t : State) : ((t.each (k.map f) State.boundaryDie).die d.val).link = (t.die d.val).link := by
    unfold State.each
    induction k generalizing t with
    | nil => rfl
    | cons e k ih =>
      obtain ⟨he, hk⟩ := not_or.1 (List.mem_cons.not.1 hk)
      refine (ih hk (t.boundaryDie (f e))).trans (t.link_boundaryDie_other ?_)
      rw [hf]
      exact fun h => he (Fin.ext h.symm)
  induction l generalizing s with
  | nil => exact absurd hd List.not_mem_nil
  | cons e l ih =>
    obtain ⟨apart, nodup⟩ := List.nodup_cons.1 nodup
    by_cases he : e = d
    · subst he
      obtain ⟨r, hr, link⟩ := State.link_boundaryDie (s := s) (i := f e) (by rw [hf]; exact hp)
      rw [hf] at hr link
      exact ⟨r, hr, (others l apart (s.boundaryDie (f e))).trans link⟩
    · have same : ((s.boundaryDie (f e)).die d.val).link = (s.die d.val).link :=
        s.link_boundaryDie_other (by rw [hf]; exact fun h => he (Fin.ext h))
      obtain ⟨r, hr, link⟩ := ih nodup ((List.mem_cons.1 hd).resolve_left (Ne.symm he)) (s.boundaryDie (f e)) (by rw [same]; exact hp)
      rw [same] at hr link
      exact ⟨r, hr, link⟩

theorem State.die_inputOf (s : State) (ins : List DieInput) (d : Die) : (s.inputOf ins d).die = d := by
  unfold State.inputOf
  cases h : ins.find? fun i => i.die = d with
  | none => rfl
  | some i =>
    have found := List.find?_some h
    exact of_decide_eq_true found

/-- The number of the fast period that begins. -/
def State.nextPeriod (s : State) : Nat := max (s.period + 1) ((s.now + 249) / 250)

/-- The state in which the period has moved on and no die has passed its boundary. -/
def State.periodOn (s : State) : State :=
  { (if s.thaw then s.unfreeze else s).fixBin.advanceTo (250 * s.nextPeriod) with period := s.nextPeriod }

/-- The floor state of the period that ended noted. -/
def State.floorNoted (s : State) : State := { s with lim := { s.lim with floorEnded := s.lim.floorRun, floorRun := s.floorOn } }

def State.inForceFlagged (s : State) : State := s.each s.partsInForce State.flagInterval

theorem State.boundary_eq (s : State) (ins : List DieInput) :
    s.boundary ins =
      (s.periodOn.floorNoted.takeVids.each ((List.finRange 40).map (s.periodOn.floorNoted.inputOf ins)) State.boundaryDie).newDecim.recordMembers.leaveSteward.inForceFlagged :=
  rfl

section Turn
variable {α : Type} {g : State → α} (hg : PeriodBlind g)
include hg

theorem floorNoted_period (s : State) : g s.floorNoted = g s := hg.lim s _

theorem boundaryEnd_period (s : State) : g s.newDecim.recordMembers.leaveSteward.inForceFlagged = g s :=
  (each_blind _ _ (fun t p => flagInterval_period hg t p) _).trans
    ((leaveSteward_period hg _).trans ((recordMembers_period hg _).trans (newDecim_period hg _)))

theorem thawed_period (s : State) : g (if s.thaw then s.unfreeze else s).fixBin = g s := by
  rw [fixBin_period hg]
  split
  · exact unfreeze_period hg s
  · rfl

end Turn

theorem State.link_periodOn (s : State) (e : Nat) : (s.periodOn.die e).link = (s.die e).link :=
  (State.advanceTo_other (fun t => (t.die e).link) (period_link e).putAny (fun _ _ => rfl) (fun _ _ => rfl) _ _).trans (thawed_period (period_link e) s)

theorem State.now_periodOn (s : State) : 250 * s.nextPeriod ≤ s.periodOn.now := by
  have now := State.advanceTo_now (if s.thaw then s.unfreeze else s).fixBin (250 * s.nextPeriod)
  exact (Nat.le_max_right _ _).trans now.ge

theorem State.period_boundary (s : State) (ins : List DieInput) : (s.boundary ins).period = s.nextPeriod := by
  rw [State.boundary_eq, boundaryEnd_period period_period, each_blind (g := State.period) _ _ (boundaryDie_period period_period fun _ _ _ => rfl),
    takeVids_period period_period]
  rfl

theorem State.now_boundary (s : State) (ins : List DieInput) : (s.boundary ins).now = s.periodOn.now := by
  rw [State.boundary_eq, boundaryEnd_period period_now, each_blind (g := State.now) _ _ (boundaryDie_period period_now fun _ _ _ => rfl),
    takeVids_period period_now]
  rfl

theorem State.link_boundary {s : State} (ins : List DieInput) {d : Die} (hp : (s.die d.val).powered = true) :
    ∃ r : Report, r.gen = (s.die d.val).gen ∧ ((s.boundary ins).die d.val).link = (s.die d.val).link.turned.reported r := by
  have before : (s.periodOn.floorNoted.takeVids.die d.val).link = (s.die d.val).link :=
    (takeVids_period (period_link _) _).trans ((floorNoted_period (period_link _) _).trans (s.link_periodOn _))
  obtain ⟨r, hr, link⟩ := State.link_boundaries (s.periodOn.floorNoted.die_inputOf ins) (List.nodup_finRange 40) (List.mem_finRange d)
    s.periodOn.floorNoted.takeVids (by rw [before]; exact hp)
  rw [before] at hr link
  refine ⟨r, hr, ?_⟩
  rw [State.boundary_eq, boundaryEnd_period (period_link d.val)]
  exact link

/-! ## The sampling instant -/

section Sample
variable {α : Type} {g : State → α} (hg : PeriodBlind g)
include hg

theorem showHold_period (s : State) : g s.showHold = g s := wr_period hg _ _ _ _ _

theorem heldEnds_period (s : State) : g s.heldEnds = g s := by
  have left (l : LimState) (c : ChainState) (n : Nat) : g { s with lim := l, chain := c, svcUnder := n } = g s :=
    (hg.svcUnder { s with lim := l, chain := c } n).trans ((hg.chain { s with lim := l } c).trans (hg.lim s l))
  unfold State.heldEnds
  split
  · dsimp only
    split
    · rw [setSvc_period hg, showHold_period hg]
      exact left _ _ _
    · rw [showHold_period hg]
      exact left _ _ _
  · rfl

theorem useRecorded_period (s : State) (d : Nat) : g (s.useRecorded d) = g s := by
  unfold State.useRecorded
  split
  · exact (useGrant_period hg _ _ _).trans (hg.dies _ _ _ (by intro; rfl))
  · rfl

theorem rampFrom_period (s : State) (d : Nat) : g (s.rampFrom d) = g s := by
  refine each_blind _ _ (fun t k => ?_) s
  split
  · rfl
  · exact setGdep_period hg _ _ _

theorem releaseDie_period (s : State) (d : Nat) : g (s.releaseDie d) = g s := by
  rw [State.releaseDie, rampFrom_period hg, useRecorded_period hg, wr_period hg]

theorem floorRelease_period (s : State) : g s.floorRelease = g s := by
  unfold State.floorRelease
  split
  · exact (each_blind _ _ (fun t d => releaseDie_period hg t d) _).trans (hg.floorOn s _)
  · rfl

theorem complete_period (s : State) (n cid status result : Nat) : g (s.complete n cid status result) = g s :=
  complete_blind hg.toFaultBlind _ _ _ _ _

theorem acceptChange_period (s : State) : g s.acceptChange = g s := by
  have taken (t : State) (x : Option Change) (n : Nat) : g { t with change := x, changeGen := n } = g t :=
    (hg.changeGen { t with change := x } n).trans (hg.change t x)
  unfold State.acceptChange
  split
  · next rest _ _ =>
    have head : g ({ s with changes := rest }.wr .fltCmtQueued rest.length) = g s := (wr_period hg _ _ _ _ _).trans (hg.changes s _)
    dsimp only
    split
    · split
      · rw [complete_period hg, wr_period hg, head]
      · rw [wr_period hg, head]
    · rw [puts_period hg, puts_period hg]
      exact (taken _ _ _).trans head
  · rfl

theorem retract_period (s : State) (x : GrantFill) : g (s.retract x) = g s := by
  have one (b : Bool) (t : State) (f : Field) (v : Nat) : g (if b then t.wr f v else t) = g t := by
    split
    · exact wr_period hg _ _ _ _ _
    · rfl
  unfold State.retract
  exact (hg.lim _ _).trans ((one _ _ _ _).trans (one _ _ _ _))

theorem floorGrants_period (s : State) : g s.floorGrants = g s := by
  have back (b : Bool) (t u : State) (h : g u = g t) : g (if b then u else t) = g t := by
    split
    · exact h
    · rfl
  have filled (t : State) (x : GrantFill) (l : LimState) : g { t.retract x with lim := l } = g t := (hg.lim _ l).trans (retract_period hg t x)
  unfold State.floorGrants
  exact (back _ _ _ (filled _ _ _)).trans (back _ _ _ (filled _ _ _))

theorem fillA_period (s : State) : g s.fillA = g s := (hg.lim _ _).trans (wr_period hg s _ _ _ _)

theorem fillB_period (s : State) : g s.fillB = g s := (hg.lim _ _).trans (wr_period hg s _ _ _ _)

theorem drainBuckets_period (s : State) : g s.drainBuckets = g s :=
  (hg.lim _ _).trans ((wr_period hg _ _ _ _ _).trans (wr_period hg s _ _ _ _))

theorem bucketMeasure_period (s : State) (e n : Nat) : g (s.bucketMeasure e n) = g s := by
  have pick (c : Prop) [Decidable c] (t u : State) (h : g u = g t) : g (if c then u else t) = g t := by
    split
    · exact h
    · rfl
  unfold State.bucketMeasure
  exact (pick _ _ _ (drainBuckets_period hg _)).trans ((pick _ _ _ (fillB_period hg _)).trans (pick _ _ _ (fillA_period hg _)))

theorem addHead_period (s : State) (a b : Int) : g (s.addHead a b) = g s := (hg.lim _ _).trans (hg.lim s _)

theorem chargePeriod_period (s : State) : g s.chargePeriod = g s := by
  unfold State.chargePeriod
  refine (hg.lim _ _).trans ((bucketMeasure_period hg _ _ _).trans ?_)
  split
  · exact (count_period hg _ _ _ _ _).trans (addHead_period hg _ _ _)
  · exact addHead_period hg _ _ _

theorem moveHeads_period (s : State) : g s.moveHeads = g s := (hg.lim _ _).trans (hg.lim s _)

theorem bucketGrant_period (s : State) (n : Nat) : g (s.bucketGrant n) = g s := by
  have pick (c : Prop) [Decidable c] (t u : State) (h : g u = g t) : g (if c then u else t) = g t := by
    split
    · exact h
    · rfl
  unfold State.bucketGrant
  exact (pick _ _ _ (fillB_period hg _)).trans (pick _ _ _ (fillA_period hg _))

theorem sampleLimit_period (s : State) : g s.sampleLimit = g s := by
  have formed (t : State) (h : HearthState) (l : LimState) : g { t with hearth := h, lim := l } = g t :=
    (hg.lim { t with hearth := h } l).trans (hg.hearth t h)
  unfold State.sampleLimit
  dsimp only
  rw [State.showCredit, wr_period hg, bucketGrant_period hg]
  refine (formed _ _ _).trans ((puts_period hg _ _).trans ((moveHeads_period hg _).trans ?_))
  exact (hg.lim _ _).trans ((chargePeriod_period hg _).trans (floorGrants_period hg s))

theorem slideSlack_period (s : State) : g s.slideSlack = g s :=
  each_blind _ _ (fun t d => hg.halls t d _ (by intro; rfl)) s

theorem sendGrant_period (s : State) (d : Nat) (x : Grant) : g (s.sendGrant d x) = g s := hg.halls s d _ fun _ => rfl

theorem latchPer_period (s : State) (p : Nat) : g (s.latchPer p) = g s := by
  unfold State.latchPer
  dsimp only
  refine (hg.parts _ _).trans ?_
  split
  · exact (hg.perDue _ _).trans (each_blind _ _ (fun t i => wr_period hg t _ _ _ _) s)
  · exact (wr_period hg _ _ _ _ _).trans (each_blind _ _ (fun t i => wr_period hg t _ _ _ _) s)

theorem closeStmts_period (s : State) : g s.closeStmts = g s := by
  refine each_blind _ _ (fun t p => each_blind _ _ (fun u d => ?_) t) s
  dsimp only
  split
  · split
    · exact (hg.jobDue _ _).trans (closeStmt_book hg.toBookBlind _ _)
    · exact (wr_period hg _ _ _ _ _).trans (closeStmt_book hg.toBookBlind _ _)
  · exact closeStmt_book hg.toBookBlind _ _

theorem startJob_period (s : State) (p n : Nat) : g (s.startJob p n) = g s :=
  (hg.parts _ _).trans ((hg.frac _ _).trans ((each_blind _ _ (fun t _ => (hg.frac _ _).trans (wr_period hg t _ _ _ _)) _).trans
    (wr_period hg s _ _ _ _)))

theorem startJobs_period (s : State) : g s.startJobs = g s := by
  refine each_blind _ _ (fun t p => ?_) s
  split
  · split
    · exact startJob_period hg _ _ _
    · rfl
  · rfl

theorem stmtDue_period (s : State) (k : StmtKind) (p : Nat) : g (s.stmtDue k p) = g s := hg.toFaultBlind.rings s _

theorem closeBlocks_period (s : State) (l : List Nat) : g (s.each l State.closeBlock) = g s :=
  each_blind _ _ (fun t d => closeBlock_blind hg.toFaultBlind t d) s

theorem effectChange_period (s : State) (c : Change) : g (s.effectChange c) = g s := by
  unfold State.effectChange
  dsimp only
  rw [wr_period hg, puts_period hg]
  split
  · split
    · refine (hg.parts _ _).trans ((closeBlocks_period hg _ _).trans ?_)
      split
      · exact stmtDue_period hg _ _ _
      · rfl
    · refine (closeBlocks_period hg _ _).trans ?_
      split
      · exact stmtDue_period hg _ _ _
      · rfl
  · exact (closeBlocks_period hg _ _).trans (stmtDue_period hg _ _ _)
  · rfl

theorem endChange_period (s : State) (c : Change) (n : Nat) : g (s.endChange c n) = g s := by
  unfold State.endChange
  dsimp only
  split
  · exact (complete_period hg _ _ _ _ _).trans (hg.change s _)
  · exact hg.change s _

theorem emptyChange_period (s : State) : g s.emptyChange = g s := by
  unfold State.emptyChange
  split
  · split
    · exact (endChange_period hg _ _ _).trans (effectChange_period hg _ _)
    · rfl
  · rfl

end Sample

/-- The grants of a sampling instant, before the beacon is counted. -/
def State.grantsOut (s : State) : State :=
  let cbud := s.rd .alcPkglimLim - s.reserve
  let l := if s.preChain then [] else s.allocate cbud
  let gs := ((upto 40).filter s.wantsGrant).map fun d => (d, s.grantFor (s.rd .alcPkglimCause) l d)
  let under := gs.any fun x => x.2.cores.any fun c => c.lever = 6
  let s1 := s.puts [(⟨.alcCbud, 0, 0⟩, cbud), (⟨.alcCbudReserve, 0, 0⟩, min 0xFFFF s.reserve), (⟨.alcAlstatUnder, 0, 0⟩, bit under)]
  ((if under then s1.count .alcAlstatUndercnt else s1).each gs fun s x => s.sendGrant x.1 x.2).each (upto 16) fun s p => s.showPart gs p

/-- The beacon of a sampling instant counted. -/
def State.beaconOut (s : State) : State := { s with beacons := s.beacons + 1, lard := { s.lard with invals := [] } }

theorem State.now_beaconOut (s : State) : s.beaconOut.now = s.now := rfl

theorem State.beacons_beaconOut (s : State) : s.beaconOut.beacons = s.beacons + 1 := rfl

theorem State.hd_beaconOut (s : State) (d : Nat) : s.beaconOut.hd d = s.hd d := rfl

theorem State.sendGrants_eq (s : State) : s.sendGrants = s.grantsOut.beaconOut := rfl

theorem showPart_period {α : Type} {g : State → α} (hg : PeriodBlind g) (s : State) (l : List (Nat × Grant)) (p : Nat) : g (s.showPart l p) = g s :=
  puts_period hg _ _

theorem grantsOut_period {α : Type} {g : State → α} (hg : PeriodBlind g) (s : State) : g s.grantsOut = g s := by
  have under (b : Bool) (l : List (FieldRef × Nat)) : g (if b then (s.puts l).count .alcAlstatUndercnt else s.puts l) = g s := by
    split
    · rw [count_period hg, puts_period hg]
    · exact puts_period hg _ _
  unfold State.grantsOut
  dsimp only
  rw [each_blind (g := g) _ _ fun t p => showPart_period hg t _ p, each_blind (g := g) _ _ fun t x => sendGrant_period hg t _ _, under]

/-- The samples and the limit of an instant, before its grants. -/
def State.instantOpen (s : State) : State :=
  ((s.advanceTo (s.lastB + 40)).heldEnds.floorRelease.acceptChange).sampleLimit.slideSlack

/-- What the instant does once every report has been used. -/
def State.instantClose (s : State) : State :=
  (s.apportionAll.each (upto 16) State.latchPer).closeStmts.startJobs.emptyChange

theorem State.sampled_eq (s : State) : s.sampled.emptyChange = s.instantOpen.sendGrants.endSample.instantClose := rfl

theorem instantOpen_period {α : Type} {g : State → α} (hg : PeriodBlind g) (s : State) : g s.instantOpen = g (s.advanceTo (s.lastB + 40)) := by
  rw [State.instantOpen, slideSlack_period hg, sampleLimit_period hg, acceptChange_period hg, floorRelease_period hg, heldEnds_period hg]

theorem instantClose_period {α : Type} {g : State → α} (hg : PeriodBlind g) (s : State) : g s.instantClose = g s := by
  rw [State.instantClose, emptyChange_period hg, startJobs_period hg, closeStmts_period hg, each_blind _ _ (latchPer_period hg),
    apportionAll_book hg.toBookBlind]

/-- A die's report taken as used: one that has sent none is one period more silent (R288). -/
def heardNext (h : Bool × Nat) : Bool × Nat := (false, if h.1 then 0 else h.2 + 1)

theorem State.heard_endSample (s : State) {d : Nat} (hd : d < 40) : (s.endSample.hd d).heard = heardNext (s.hd d).heard := by
  have step (t : State) (e : Nat) : ((t.updHd e fun x => { x with fresh := false, silent := if x.fresh then 0 else x.silent + 1 }).hd d).heard =
      if e = d then heardNext (t.hd d).heard else (t.hd d).heard := by
    rw [State.hd_updHd]
    split
    · next h => rw [h]; rfl
    · rfl
  have others (l : List Nat) (h : d ∉ l) (t : State) : ((t.each l fun s e =>
      s.updHd e fun x => { x with fresh := false, silent := if x.fresh then 0 else x.silent + 1 }).hd d).heard = (t.hd d).heard := by
    unfold State.each
    induction l generalizing t with
    | nil => rfl
    | cons e l ih =>
      obtain ⟨he, hl⟩ := not_or.1 (List.mem_cons.not.1 h)
      exact (ih hl _).trans ((step t e).trans (if_neg (Ne.symm he)))
  have once (l : List Nat) (nodup : l.Nodup) (h : d ∈ l) (t : State) : ((t.each l fun s e =>
      s.updHd e fun x => { x with fresh := false, silent := if x.fresh then 0 else x.silent + 1 }).hd d).heard = heardNext (t.hd d).heard := by
    induction l generalizing t with
    | nil => exact absurd h List.not_mem_nil
    | cons e l ih =>
      obtain ⟨apart, nodup⟩ := List.nodup_cons.1 nodup
      by_cases he : e = d
      · subst he
        exact (others l apart _).trans ((step t e).trans (if_pos rfl))
      · refine (ih nodup ((List.mem_cons.1 h).resolve_left (Ne.symm he)) _).trans (congrArg heardNext ?_)
        exact (step t e).trans (if_neg he)
  exact once (upto 40) List.nodup_range (List.mem_range.2 hd) s

theorem State.now_endSample (s : State) : s.endSample.now = s.now := by
  unfold State.endSample
  exact each_blind (g := State.now) _ _ (fun t d => t.updHd_now d _) s

theorem State.beacons_endSample (s : State) : s.endSample.beacons = s.beacons := by
  unfold State.endSample
  exact each_blind (g := State.beacons) _ _ (fun t d => t.updHd_beacons d _) s

theorem State.beacons_commit (s n : State) : (s.commit n).beacons = n.beacons := rfl

theorem State.period_commit (s n : State) : (s.commit n).period = n.period := rfl

theorem HallDie.of_heard {x y : HallDie} (h : x.heard = heardNext y.heard) : x.fresh = false ∧ x.silent = if y.fresh then 0 else y.silent + 1 :=
  ⟨congrArg Prod.fst h, congrArg Prod.snd h⟩

theorem State.heard_sampled (s : State) {d : Nat} (hd : d < 40) : (s.sampled.emptyChange.hd d).heard = heardNext (s.hd d).heard := by
  have before : (s.instantOpen.sendGrants.hd d).heard = (s.hd d).heard := by
    rw [State.sendGrants_eq, State.hd_beaconOut, grantsOut_period (period_heard d), instantOpen_period (period_heard d)]
    exact State.advanceTo_other (fun t => (t.hd d).heard) (period_heard d).putAny (fun _ _ => rfl) (fun _ _ => rfl) _ _
  rw [State.sampled_eq, instantClose_period (period_heard d), State.heard_endSample _ hd, before]

theorem sampling_lands {s : State} (hs : s.aon = true) :
    ∃ t, exec .samplingInstant s = .next t ∧ s.lastB + 40 ≤ t.now ∧ t.beacons = s.beacons + 1 ∧
      ∀ d, d < 40 → (t.hd d).fresh = false ∧ (t.hd d).silent = if (s.hd d).fresh then 0 else (s.hd d).silent + 1 := by
  refine ⟨_, exec_samplingInstant hs, ?_, ?_, fun d hd => ?_⟩
  · rw [State.commit_now, State.sampled_eq, instantClose_period period_now, State.now_endSample, State.sendGrants_eq, State.now_beaconOut,
      grantsOut_period period_now, instantOpen_period period_now, State.advanceTo_now]
    omega
  · rw [State.beacons_commit, State.sampled_eq, instantClose_period period_beacons, State.beacons_endSample, State.sendGrants_eq,
      State.beacons_beaconOut, grantsOut_period period_beacons, instantOpen_period period_beacons,
      State.advanceTo_other State.beacons period_beacons.putAny (fun _ _ => rfl) fun _ _ => rfl]
  · rw [State.hd_commit]
    exact HallDie.of_heard (s.heard_sampled hd)

/-- What a turned and reported link says of a die. -/
theorem DieState.of_turned {x y : DieState} {r : Report} (h : x.link = y.link.turned.reported r) :
    x.laneA = y.laneA ++ [r] ∧ x.laneB = y.laneB ++ [r] ∧ x.next = none ∧
      (∀ n, y.next = some n → x.applied = some n.period ∧ x.steward = false) ∧
      (y.next = none → x.applied = y.applied ∧ x.steward = y.steward) := by
  have applied := congrArg DieLink.applied h
  have steward := congrArg DieLink.steward h
  refine ⟨congrArg DieLink.laneA h, congrArg DieLink.laneB h, congrArg DieLink.next h, fun n hn => ?_, fun hn => ?_⟩ <;>
    simpa [DieLink.reported, DieLink.turned, DieState.link, hn] using And.intro applied steward

/-! ## The obligation -/

/-- Settles O19: a period reaches a die's link through its grant and its report alone, and an instant a die's record through its own end alone. -/
theorem fastPeriod : Obligations.FastPeriod := by
  refine ⟨fun s ins hs => ⟨_, State.run_on (fun s => s.boundary ins) hs, ?_, ?_, fun d hp => ?_⟩, fun s hs => sampling_lands hs⟩
  · rw [State.period_commit, State.period_boundary, State.nextPeriod]
    omega
  · rw [State.commit_now, State.now_boundary, State.period_commit, State.period_boundary]
    exact s.now_periodOn.trans (Nat.le_max_right _ _)
  · obtain ⟨r, hr, link⟩ := State.link_boundary ins hp
    obtain ⟨laneA, laneB, next, granted, idle⟩ := DieState.of_turned link
    rw [State.die_commit]
    refine ⟨⟨r, laneA, laneB, hr⟩, next, ?_⟩
    cases hn : (s.die d.val).next with
    | some x => exact granted x hn
    | none => exact idle hn

end Sys2Proof.Machine

/-!
Settles O20: what a report and a grant leave in each of the ways in which the receiver can take them.
-/
namespace Sys2Proof.Machine

/-! ## What the accounts of a report reach -/

/-- A reading that the accounts of a late report do not reach. -/
structure ReportBlind {α : Type} (g : State → α) : Prop extends BookBlind g where
  putOther : ∀ s (r : FieldRef) v, r.f ≠ .dagStatusLaterep → g (s.put r v) = g s
  lim : ∀ s x, g { s with lim := x } = g s
  hearth : ∀ s x, g { s with hearth := x } = g s

section Reports
variable {α : Type} {g : State → α} (hg : ReportBlind g)
include hg

theorem wr_report (s : State) (f : Field) (v i j : Nat) (h : f ≠ .dagStatusLaterep) : g (s.wr f v i j) = g s := hg.putOther s ⟨f, i, j⟩ v h

theorem fixBin_report (s : State) : g s.fixBin = g s := by
  have fixed (h : HearthState) (l : LimState) : g { s with hearth := h, lim := l } = g s := (hg.lim { s with hearth := h } l).trans (hg.hearth s h)
  unfold State.fixBin
  dsimp only
  split
  · rfl
  · rw [wr_report hg _ _ _ _ _ (by decide), wr_report hg _ _ _ _ _ (by decide)]
    exact fixed _ _

theorem noteLinks_report (s : State) (d k n : Nat) : g (s.noteLinks d k n) = g s := by
  unfold State.noteLinks
  split
  · rfl
  · exact hg.acct s _

/-- The accounts of a report reach its die's record alone. -/
theorem account_report (s : State) (d : Nat) (r : Report) (upd : ∀ (t : State) (a b c : Nat) (e : Bool),
    g (t.updHd d fun x => { x with lastCum := a, lastIdle := b, lastRepPeriod := c, readEdie := e }) = g t) : g (s.account d r) = g s := by
  have linked (c : Bool) : g (if c then s.noteLinks d r.period r.links else s) = g s := by
    split
    · exact noteLinks_report hg _ _ _ _
    · rfl
  unfold State.account
  dsimp only
  split
  · rfl
  · exact (upd _ _ _ _ _).trans ((hg.hearth _ _).trans ((gapEnergy_book hg.toBookBlind _ _ _ _ _ _).trans (linked _)))

theorem addHead_report (s : State) (a b : Int) : g (s.addHead a b) = g s := (hg.lim _ _).trans (hg.lim s _)

theorem fillA_report (s : State) : g s.fillA = g s := (hg.lim _ _).trans (wr_report hg s _ _ _ _ (by decide))

theorem fillB_report (s : State) : g s.fillB = g s := (hg.lim _ _).trans (wr_report hg s _ _ _ _ (by decide))

theorem chargeLate_report (s : State) (k e : Nat) : g (s.chargeLate k e) = g s := by
  have pick (b : Bool) (t u : State) (h : g u = g t) : g (if b then u else t) = g t := by
    split
    · exact h
    · rfl
  unfold State.chargeLate
  split
  · split
    · rfl
    · exact addHead_report hg _ _ _
  · exact (hg.lim _ _).trans ((pick _ _ _ (wr_report hg _ _ _ _ _ (by decide))).trans ((pick _ _ _ (fillB_report hg _)).trans
      ((pick _ _ _ (fillA_report hg _)).trans (addHead_report hg _ _ _))))

end Reports

theorem report_dies : ReportBlind fun s : State => s.dies :=
  { book_dies with putOther := fun s r v _ => s.put_dies r v, lim := fun _ _ => rfl, hearth := fun _ _ => rfl }

theorem report_halls : ReportBlind fun s : State => s.halls :=
  { book_halls with putOther := fun s r v _ => s.put_halls r v, lim := fun _ _ => rfl, hearth := fun _ _ => rfl }

theorem report_laterep (d : Nat) : ReportBlind fun s : State => s.rd .dagStatusLaterep d where
  putBook s r v h := by
    refine State.reg_put_other s v ?_
    rintro rfl
    exact Bool.false_ne_true h
  frac _ _ := rfl
  gopen _ _ := rfl
  acct _ _ := rfl
  parts _ _ := rfl
  rings _ _ := rfl
  putOther s r v h := State.reg_put_other s v fun e => h (congrArg FieldRef.f e)
  lim _ _ := rfl
  hearth _ _ := rfl

/-- The accounts of a report leave what the Hall uses of it. -/
theorem State.hd_account (s : State) (d : Nat) (r : Report) :
    (((s.account d r).hd d).rep, ((s.account d r).hd d).fresh) = ((s.hd d).rep, (s.hd d).fresh) := by
  have reading : ReportBlind fun s : State => ((s.hd d).rep, (s.hd d).fresh) :=
    { toBookBlind := by apply book_of <;> intros <;> rfl
      putOther := fun s r v _ => congrArg (fun x => ((Store.get HallDie.init x d).rep, (Store.get HallDie.init x d).fresh)) (s.put_halls r v)
      lim := fun _ _ => rfl, hearth := fun _ _ => rfl }
  refine account_report reading s d r fun t _ _ _ _ => ?_
  rw [State.hd_updHd, if_pos rfl]

/-! ## Reports -/

/-- The lane of a die without its oldest report. -/
def State.laneTaken (s : State) (h : Hall) (d : Nat) : State := s.updDie d fun x => x.takeLane h

theorem DieState.laneTo_takeLane (x : DieState) (h : Hall) : (x.takeLane h).laneTo h = (x.laneTo h).drop 1 := by
  unfold DieState.laneTo DieState.takeLane
  by_cases hh : h.val = 0
  · rw [if_pos hh, if_pos hh, if_pos hh]
  · rw [if_neg hh, if_neg hh, if_neg hh]

theorem State.laneTo_laneTaken {s : State} {h : Hall} {d : Nat} {r : Report} {l : List Report} (hl : (s.die d).laneTo h = r :: l) :
    ((s.laneTaken h d).die d).laneTo h = l := by
  rw [State.laneTaken, State.die_updDie, if_pos rfl, DieState.laneTo_takeLane, hl]
  rfl

theorem State.onlyChanges_laneTaken (s : State) (h : Hall) (d : Nat) : s.onlyChanges (s.laneTaken h d) [] [.dies] :=
  State.onlyChanges_updDie (s.onlyChanges_refl _ _) d _ List.mem_cons_self

/-- The accounts of a late report, before it is kept apart. -/
def State.lateCharged (s : State) (h : Hall) (d : Nat) (r : Report) : State :=
  (((s.laneTaken h d).fixBin.lateReport d).account d r).chargeLate r.period r.energy

section Received
variable {s : State} {h : Hall} {d : Die} {r : Report} {l : List Report} (hs : s.aon = true) (hl : (s.die d.val).laneTo h = r :: l)
include hs hl

theorem exec_report_good (ha : h.val = s.active) (hi : s.inject.lanes.contains d.val = false) (hg : r.gen = (s.die d.val).gen) :
    exec (.reportReceived h d true false) s = .next (s.commit ((s.laneTaken h d.val).useReport d.val r)) := by
  change execReportReceived h d true false s = _
  rw [execReportReceived, State.run_on _ hs]
  simp only [State.reportIn, hl, List.head?_cons, ha, hg, decide_true, State.updDie_inject, hi, Bool.and_false, Bool.not_true, Bool.or_false,
    Bool.false_eq_true, if_false, ne_eq, not_true_eq_false, decide_false]
  rfl

theorem exec_report_late (ha : h.val = s.active) (hi : s.inject.lanes.contains d.val = false) (hg : r.gen = (s.die d.val).gen) :
    exec (.reportReceived h d true true) s =
      .next (s.commit ((s.lateCharged h d.val r).updHd d.val fun x => { x with silent := 0, late := some r })) := by
  change execReportReceived h d true true s = _
  rw [execReportReceived, State.run_on _ hs]
  simp only [State.reportIn, hl, List.head?_cons, ha, hg, decide_true, State.updDie_inject, hi, Bool.and_false, Bool.not_true, Bool.or_false,
    Bool.false_eq_true, if_false, if_true, ne_eq, not_true_eq_false, decide_false]
  rfl

theorem exec_report_stale (ha : h.val = s.active) (hi : s.inject.lanes.contains d.val = false) (hg : r.gen ≠ (s.die d.val).gen) :
    exec (.reportReceived h d true false) s = .next (s.commit (s.laneTaken h d.val)) := by
  change execReportReceived h d true false s = _
  rw [execReportReceived, State.run_on _ hs]
  simp only [State.reportIn, hl, List.head?_cons, ha, hg, decide_true, State.updDie_inject, hi, Bool.and_false, Bool.not_true, Bool.or_false,
    Bool.false_eq_true, if_false, ne_eq, not_false_eq_true, if_true]
  rfl

theorem exec_report_parity (ha : h.val = s.active) (hi : s.inject.lanes.contains d.val = false) :
    exec (.reportReceived h d false false) s =
      .next (s.commit (((s.laneTaken h d.val).raise (corr 1 1 (unitOf d.val h.val) 3)).lateReport d.val)) := by
  change execReportReceived h d false false s = _
  rw [execReportReceived, State.run_on _ hs]
  simp only [State.reportIn, hl, List.head?_cons, ha, decide_true, State.updDie_inject, hi, Bool.and_false, Bool.not_false, Bool.or_false,
    Bool.false_eq_true, if_false, if_true]
  rfl

theorem exec_report_standby (ha : h.val ≠ s.active) (late : Bool) :
    exec (.reportReceived h d true late) s = .next (s.commit (s.laneTaken h d.val)) := by
  change execReportReceived h d true late s = _
  rw [execReportReceived, State.run_on _ hs]
  simp only [State.reportIn, hl, List.head?_cons, ha, decide_false, Bool.false_and, Bool.not_true, Bool.or_false, Bool.false_eq_true, if_false,
    Bool.not_false, Bool.or_true, if_true]
  rfl

end Received

theorem State.halls_noteAcks (s : State) (d : Nat) (l : List Nat) : (s.noteAcks d l).halls = s.halls := by
  have acked (t : State) (x : Option Change) : { t.wr .fltCmtmapAck (t.rd .fltCmtmapAck + if testBit (t.rd .fltCmtmapAck) d then 0 else 2 ^ d) with
      change := x }.halls = t.halls := State.wr_halls _ _ _ _ _
  unfold State.noteAcks
  split
  · split
    · exact acked _ _
    · rfl
  · rfl

theorem State.halls_deliverHeld (s : State) (d : Nat) : (s.deliverHeld d).halls = s.halls := by
  unfold State.deliverHeld
  dsimp only
  split
  · rfl
  · rw [each_blind (g := State.halls) _ _ fun t x => raise_latch latch_halls t x, State.updDie_halls, State.count_halls]

/-- A report in use: it stands in the die's record, fresh, and the die is not silent. -/
theorem State.hd_useReport (s : State) (d : Nat) (r : Report) :
    ((s.useReport d r).hd d).rep = some r ∧ ((s.useReport d r).hd d).fresh = true ∧ ((s.useReport d r).hd d).silent = 0 := by
  have halls : (s.useReport d r).halls = ((s.account d r).updHd d fun x => { x with rep := some r, fresh := true, silent := 0 }).halls := by
    unfold State.useReport
    dsimp only
    split
    · rw [failsafe_latch latch_halls, State.halls_deliverHeld, State.halls_noteAcks]
    · rw [State.halls_deliverHeld, State.halls_noteAcks]
  have record := congrArg (Store.get HallDie.init · d) halls
  change (s.useReport d r).hd d = State.hd (State.updHd _ d _) d at record
  rw [record, State.hd_updHd, if_pos rfl]
  exact ⟨rfl, rfl, rfl⟩

theorem laterep_exists (d : Die) : (⟨.dagStatusLaterep, d.val, 0⟩ : FieldRef).exists = true := by
  revert d
  decide

theorem State.dies_lateCharged (s : State) (h : Hall) (d : Nat) (r : Report) : (s.lateCharged h d r).dies = (s.laneTaken h d).dies := by
  rw [State.lateCharged, chargeLate_report report_dies, account_report report_dies _ _ _ fun _ _ _ _ _ => rfl, State.lateReport, State.count_dies,
    fixBin_report report_dies]

theorem State.laterep_lateCharged (s : State) (h : Hall) (d : Die) (r : Report) :
    (s.lateCharged h d.val r).rd .dagStatusLaterep d.val = s.oneUp .dagStatusLaterep d.val := by
  rw [State.lateCharged, chargeLate_report (report_laterep d.val), account_report (report_laterep d.val) _ _ _ fun _ _ _ _ _ => rfl,
    State.lateReport, State.rd_count_same _ (laterep_exists d), State.oneUp, fixBin_report (report_laterep d.val), State.laneTaken, State.rd_updDie]
  rfl

/-- A late report leaves the report in use. -/
theorem State.hd_lateCharged (s : State) (h : Hall) (d : Nat) (r : Report) :
    ((s.lateCharged h d r).hd d).rep = (s.hd d).rep ∧ ((s.lateCharged h d r).hd d).fresh = (s.hd d).fresh := by
  have record : ((s.laneTaken h d).fixBin.lateReport d).hd d = s.hd d :=
    congrArg (Store.get HallDie.init · d) ((State.count_halls _ _ _ _ _).trans (fixBin_report report_halls (s.laneTaken h d)))
  have charged (t : State) : (t.chargeLate r.period r.energy).hd d = t.hd d :=
    congrArg (Store.get HallDie.init · d) (chargeLate_report report_halls t _ _)
  have kept := ((s.laneTaken h d).fixBin.lateReport d).hd_account d r
  rw [record] at kept
  rw [State.lateCharged, charged]
  exact ⟨congrArg Prod.fst kept, congrArg Prod.snd kept⟩

/-- The active Hall and a report of each kind (R20). -/
theorem reports_land {s : State} {h : Hall} {d : Die} {r : Report} {l : List Report} (hs : s.aon = true) (ha : h.val = s.active)
    (hl : (s.die d.val).laneTo h = r :: l) (hi : d.val ∉ s.inject.lanes) :
    (r.gen = (s.die d.val).gen → ∃ t, exec (.reportReceived h d true false) s = .next t ∧
      (t.hd d.val).rep = some r ∧ (t.hd d.val).fresh = true ∧ (t.hd d.val).silent = 0) ∧
    (r.gen ≠ (s.die d.val).gen → ∃ t, exec (.reportReceived h d true false) s = .next t ∧
      (t.die d.val).laneTo h = l ∧ s.onlyChanges t [] [.dies]) ∧
    (r.gen = (s.die d.val).gen → ∃ t, exec (.reportReceived h d true true) s = .next t ∧
      (t.hd d.val).rep = (s.hd d.val).rep ∧ (t.hd d.val).fresh = (s.hd d.val).fresh ∧ (t.hd d.val).silent = 0 ∧
      (t.hd d.val).late = some r ∧ (t.die d.val).laneTo h = l ∧ t.rd .dagStatusLaterep d.val = s.oneUp .dagStatusLaterep d.val) ∧
    ∃ t, exec (.reportReceived h d false false) s = .next t ∧ (t.die d.val).laneTo h = l ∧ t.hd d.val = s.hd d.val ∧
      t.rd .fltCorr = min (s.rd .fltCorr + 1) (2 ^ (fieldDef .fltCorr).width - 1) ∧
      t.rd .dagStatusLaterep d.val = min (s.rd .dagStatusLaterep d.val + 1) (2 ^ (fieldDef .dagStatusLaterep).width - 1) := by
  have clear : s.inject.lanes.contains d.val = false := by simpa using hi
  have taken := State.laneTo_laneTaken hl
  refine ⟨fun hg => ⟨_, exec_report_good hs hl ha clear hg, ?_⟩, fun hg => ⟨_, exec_report_stale hs hl ha clear hg, ?_, ?_⟩,
    fun hg => ⟨_, exec_report_late hs hl ha clear hg, ?_⟩, ⟨_, exec_report_parity hs hl ha clear, ?_, ?_, ?_, ?_⟩⟩
  · rw [State.hd_commit]
    exact State.hd_useReport _ _ _
  · rw [State.die_commit, taken]
  · exact State.onlyChanges_commit (s.onlyChanges_laneTaken h d.val)
  · obtain ⟨rep, fresh⟩ := s.hd_lateCharged h d.val r
    rw [State.hd_commit, State.hd_updHd, if_pos rfl, State.die_commit, State.rd_commit _ _ _ _ _ rfl, State.rd_updHd, s.laterep_lateCharged h d r,
      State.die, State.updHd_dies, s.dies_lateCharged]
    exact ⟨rep, fresh, rfl, rfl, taken, rfl⟩
  · rw [State.die_commit, State.die, State.lateReport, State.count_dies, raise_latch latch_dies]
    exact taken
  · rw [State.hd_commit, State.hd, State.lateReport, State.count_halls, raise_latch latch_halls]
    rfl
  · rw [State.rd_commit _ _ _ _ _ rfl, State.lateReport, State.count, State.rd_wr_field _ _ _ _ _ _ (by decide), State.fltCorr_raise_corrected _ rfl]
    rfl
  · rw [State.rd_commit _ _ _ _ _ rfl, State.lateReport, State.rd_count_same _ (laterep_exists d), State.oneUp,
      rd_raise _ _ _ _ _ FaultClass.noConfusion rfl, State.laneTaken, State.rd_updDie]

/-! ## Grants -/

/-- The grant at the head of the lane taken off it. -/
def State.grantTaken (s : State) (d : Nat) : State := s.updHd d fun x => { x with lane := x.lane.drop 1 }

theorem State.hd_grantTaken {s : State} {d : Nat} {g : Grant} {l : List Grant} (hl : (s.hd d).lane = g :: l) : ((s.grantTaken d).hd d).lane = l := by
  rw [State.grantTaken, State.hd_updHd, if_pos rfl]
  exact congrArg (List.drop 1) hl

/-- A grant that the die agent does not take: its period applied or awaited, or its generation or epoch stale (R20, R197). -/
def DieState.refuses (x : DieState) (g : Grant) : Prop :=
  g.gen ≠ x.gen ∨ g.epoch < x.epoch ∨ x.applied = some g.period ∨ ∃ n, x.next = some n ∧ n.period = g.period

theorem State.grantIn_refused {s : State} {d : Nat} {g : Grant} {l : List Grant} (hl : (s.hd d).lane = g :: l)
    (hp : (s.die d).powered = true) (h : (s.die d).refuses g) :
    s.grantIn d true = if d < 32 then (s.grantTaken d).count .dagAlstatDupgrant 1 d else s.grantTaken d := by
  simp only [State.grantIn, hl, List.head?_cons, hp, Bool.not_true, Bool.false_eq_true, if_false]
  rw [if_pos ?_]
  · rfl
  · rcases h with h | h | h | ⟨n, hn, h⟩
    · simp [h]
    · simp [h]
    · simp [h]
    · simp [hn, h]

theorem State.grantIn_taken {s : State} {d : Nat} {g : Grant} {l : List Grant} (hl : (s.hd d).lane = g :: l)
    (hp : (s.die d).powered = true) (h : ¬ (s.die d).refuses g) :
    s.grantIn d true = (s.grantTaken d).updDie d fun y => { y with next := some g, epoch := max y.epoch g.epoch } := by
  simp only [DieState.refuses, not_or, not_exists, not_and] at h
  obtain ⟨gen, epoch, applied, next⟩ := h
  simp only [State.grantIn, hl, List.head?_cons, hp, Bool.not_true, Bool.false_eq_true, if_false]
  rw [if_neg ?_]
  · rfl
  · cases hn : (s.die d).next with
    | none => simpa [hn] using ⟨⟨applied, not_not.1 gen⟩, not_lt.1 epoch⟩
    | some n => simpa [hn] using ⟨⟨⟨applied, not_not.1 gen⟩, not_lt.1 epoch⟩, next n hn⟩

theorem State.grantIn_parity {s : State} {d : Nat} {g : Grant} {l : List Grant} (hl : (s.hd d).lane = g :: l)
    (hp : (s.die d).powered = true) : s.grantIn d false = (s.grantTaken d).raise (corr 1 1 (unitOf d s.active) 4) := by
  simp only [State.grantIn, hl, List.head?_cons, hp, Bool.not_true, Bool.not_false, Bool.false_eq_true, if_false, if_true]
  rfl

theorem dupgrant_exists {d : Die} (h : d.val < 32) : (⟨.dagAlstatDupgrant, d.val, 0⟩ : FieldRef).exists = true := by
  revert d
  decide

theorem State.onlyChanges_grantTaken (s : State) (d : Nat) (l : List FieldRef) : s.onlyChanges (s.grantTaken d) l [.halls] :=
  State.onlyChanges_halls (s.onlyChanges_refl _ _) _ List.mem_cons_self

/-- A grant that is refused is counted on a compute die, and otherwise only gone. -/
theorem refused_lands {s : State} {d : Die} {g : Grant} {l : List Grant} (hs : s.aon = true) (hl : (s.hd d.val).lane = g :: l)
    (hp : (s.die d.val).powered = true) (h : (s.die d.val).refuses g) :
    ∃ t, exec (.grantReceived d true) s = .next t ∧ t.die d.val = s.die d.val ∧ (t.hd d.val).lane = l ∧
      s.onlyChanges t [⟨.dagAlstatDupgrant, d.val, 0⟩] [.halls] ∧
      (d.val < 32 → t.rd .dagAlstatDupgrant d.val =
        min (s.rd .dagAlstatDupgrant d.val + 1) (2 ^ (fieldDef .dagAlstatDupgrant).width - 1)) := by
  refine ⟨_, State.run_on (fun s => s.grantIn d.val true) hs, ?_⟩
  rw [State.grantIn_refused hl hp h, State.die_commit, State.hd_commit, State.rd_commit _ _ _ _ _ rfl]
  have taken := s.onlyChanges_grantTaken d.val [⟨.dagAlstatDupgrant, d.val, 0⟩]
  split
  · next low =>
    refine ⟨?_, ?_, State.onlyChanges_commit (State.onlyChanges_wr taken _ _ _ _ List.mem_cons_self), fun _ => ?_⟩
    · rw [State.die, State.count_dies]
      rfl
    · rw [State.hd, State.count_halls]
      exact State.hd_grantTaken hl
    · rw [State.rd_count_same _ (dupgrant_exists low), State.oneUp]
      rfl
  · next high => exact ⟨rfl, State.hd_grantTaken hl, State.onlyChanges_commit taken, fun low => absurd low high⟩

/-- A grant of each kind at the head of a die's lane (R20, R197). -/
theorem grants_land {s : State} {d : Die} {g : Grant} {l : List Grant} (hs : s.aon = true) (hl : (s.hd d.val).lane = g :: l)
    (hp : (s.die d.val).powered = true) :
    (g.gen = (s.die d.val).gen → (s.die d.val).epoch ≤ g.epoch → (s.die d.val).applied ≠ some g.period →
      (∀ n, (s.die d.val).next = some n → n.period ≠ g.period) →
      ∃ t, exec (.grantReceived d true) s = .next t ∧ (t.die d.val).next = some g ∧ (t.die d.val).epoch = g.epoch ∧
        (t.hd d.val).lane = l ∧ s.onlyChanges t [] [.dies, .halls]) ∧
    ∃ t, exec (.grantReceived d false) s = .next t ∧ t.die d.val = s.die d.val ∧ (t.hd d.val).lane = l ∧
      t.rd .fltCorr = min (s.rd .fltCorr + 1) (2 ^ (fieldDef .fltCorr).width - 1) := by
  refine ⟨fun gen epoch applied next => ?_, ⟨_, State.run_on (fun s => s.grantIn d.val false) hs, ?_⟩⟩
  · have takes : ¬ (s.die d.val).refuses g := by
      simpa only [DieState.refuses, not_or, not_exists, not_and] using ⟨not_not.2 gen, not_lt.2 epoch, applied, next⟩
    refine ⟨_, State.run_on (fun s => s.grantIn d.val true) hs, ?_⟩
    rw [State.grantIn_taken hl hp takes, State.die_commit, State.hd_commit, State.die_updDie, if_pos rfl]
    refine ⟨rfl, max_eq_right epoch, State.hd_grantTaken hl, State.onlyChanges_commit (State.onlyChanges_updDie ?_ d.val _ List.mem_cons_self)⟩
    exact State.onlyChanges_halls (s.onlyChanges_refl _ _) _ (List.mem_cons_of_mem _ List.mem_cons_self)
  · rw [State.grantIn_parity hl hp, State.die_commit, State.hd_commit, State.rd_commit _ _ _ _ _ rfl, State.die, raise_latch latch_dies, State.hd,
      raise_latch latch_halls, State.fltCorr_raise_corrected _ rfl]
    exact ⟨rfl, State.hd_grantTaken hl, rfl⟩

/-! ## The obligation -/

/-- Settles O20: what is done with a report and with a grant is decided at the head of its lane, and each outcome reaches its own records alone. -/
theorem reportsAndGrants : Obligations.ReportsAndGrants := by
  refine ⟨fun s h d r l hs ha hl hi => reports_land hs ha hl hi, fun s h d r l late hs ha hl => ?_, fun s d g l hs hl hp => ?_⟩
  · exact ⟨_, exec_report_standby hs hl ha late, by rw [State.die_commit, State.laneTo_laneTaken hl],
      State.onlyChanges_commit (s.onlyChanges_laneTaken h d.val)⟩
  · obtain ⟨takes, parity⟩ := grants_land hs hl hp
    exact ⟨takes, refused_lands hs hl hp, parity⟩

end Sys2Proof.Machine

/-!
Settles O23: POWER_ALERT_N forces the floor state and lets go of it, and THROTTLE_N is kept.
-/
namespace Sys2Proof.Machine

/-- A domain that the floor state forces. -/
def State.domForced (d : Nat) (s : State) : Prop := s.rd .clkDomForced 0 d = 1

/-- Entry into the floor state forces the domain of every compute die (R37). -/
theorem State.domForced_enterFloor {d : Nat} (hd : d < 32) (s : State) : s.enterFloor.domForced d := by
  have there : (⟨.clkDomForced, 0, d⟩ : FieldRef).exists = true := by
    have one : Field.instances .clkDomForced = 1 := rfl
    have all : (fieldDef .clkDomForced).count = 80 := rfl
    have blk : (fieldDef .clkDomForced).blk = .clk := rfl
    simp [FieldRef.exists, one, all, blk]
    omega
  have aside (t : State) (f : Field) (v i j : Nat) (hf : f ≠ .clkDomForced) (ht : t.domForced d) : (t.wr f v i j).domForced d :=
    (t.rd_wr_field v i j 0 d hf).trans ht
  have branch (t : State) (k : Nat) (ht : t.domForced d) : (t.branchTo32 k).domForced d := aside _ _ _ _ _ (by decide) (aside _ _ _ _ _ (by decide) ht)
  unfold State.enterFloor
  refine aside _ _ _ _ _ (by decide) (State.each_sets (x := d) (List.mem_range.2 hd) (fun t => State.rd_wr_same _ _ _ _ _ there) (fun t e ht => ?_) s)
  have before : (((branchesOf e).foldl State.branchTo32 t).showDomain e).domForced d := by
    refine aside _ .clkDomCur _ _ _ (by decide) ?_
    unfold branchesOf
    simp only [List.foldl]
    iterate 4 refine branch _ _ ?_
    exact ht
  unfold State.domForced
  rw [State.rd_wr]
  split
  · rfl
  · exact before

/-- The state with POWER_ALERT_N at a level. -/
def State.alertPin (s : State) (b : Bool) : State := { s with pins := { s.pins with powerAlertN := b } }

theorem State.rd_alertPin (s : State) (b : Bool) (f : Field) (i j : Nat) : (s.alertPin b).rd f i j = s.rd f i j := rfl

theorem State.sameIn_alertPin (s : State) (b : Bool) (x : Tab) : s.sameIn (s.alertPin b) x := by
  cases x <;> intro _ <;> rfl

theorem State.sameTabs_forceFloor (s : State) (f : Forcing → Forcing) : s.sameTabsBut (s.forceFloor f) [] := by
  intro x _
  have same := State.enterFloor_other (g := fun t => s.sameIn t x) (fun _ _ => by cases x <;> rfl) (fun _ _ => by cases x <;> rfl)
    { s with force := f s.force, floorOn := true, lim := { s.lim with floorRun := true } }
  refine same.mpr ?_
  cases x <;> intro _ <;> rfl

theorem State.floorOn_commit (s n : State) : (s.commit n).floorOn = n.floorOn := rfl

theorem State.force_commit (s n : State) : (s.commit n).force = n.force := rfl

theorem State.pins_commit (s n : State) : (s.commit n).pins = n.pins := rfl

/-- POWER_ALERT_N low (R36). -/
theorem alert_lands {s : State} (hs : s.aon = true) :
    ∃ t, exec .powerAlertAssert s = .next t ∧ t.floorOn = true ∧ t.force.alert = true ∧ t.pins.powerAlertN = false ∧
      (∀ k, k < 128 → t.rd .clkCbrCur 0 k = 0x200) ∧ (∀ d, d < 32 → t.flag .clkDomForced 0 d = true) ∧
      (∀ k, t.rd .clkCbrTgt 0 k = s.rd .clkCbrTgt 0 k) ∧ s.sameTabsBut t [] := by
  have run : exec .powerAlertAssert s = .next (s.commit ((s.alertPin false).forceFloor fun f => { f with alert := true })) :=
    State.run_on (fun s => (s.alertPin false).forceFloor fun f => { f with alert := true }) hs
  refine ⟨_, run, ?_, ?_, ?_, fun k hk => ?_, fun d hd => ?_, fun k => ?_, State.sameTabs_commit fun x hx => ?_⟩
  · rw [State.floorOn_commit, State.floorOn_forceFloor]
  · rw [State.force_commit, State.force_forceFloor]
  · rw [State.pins_commit]
    exact congrArg Pins.powerAlertN (State.enterFloor_other (g := State.pins) (fun _ _ => rfl) (fun _ _ => rfl) _)
  · rw [State.rd_commit _ _ _ _ _ rfl]
    exact State.at32_enterFloor hk _
  · refine decide_eq_true ?_
    rw [State.rd_commit _ _ _ _ _ rfl]
    exact State.domForced_enterFloor hd _
  · rw [State.rd_commit _ _ _ _ _ rfl, State.rd_forceFloor _ _ _ _ rfl, State.rd_alertPin]
  · have pin := s.sameIn_alertPin false x
    have forced := (s.alertPin false).sameTabs_forceFloor (fun f => { f with alert := true }) x hx
    revert pin forced
    cases x <;> exact fun pin forced r => (forced r).trans (pin r)

/-- POWER_ALERT_N high again (R36). -/
theorem alertRelease_lands {s : State} (hs : s.aon = true) :
    ∃ t, exec .powerAlertRelease s = .next t ∧ t.force = { s.force with alert := false } ∧ t.floorOn = s.floorOn ∧
      t.pins.powerAlertN = true ∧ s.sameRegsBut t [⟨.govStateFloorf, 0, 0⟩] ∧ s.sameTabsBut t [] := by
  have run : exec .powerAlertRelease s = .next (s.commit ((s.alertPin true).releaseFloor fun f => { f with alert := false })) :=
    State.run_on (fun s => (s.alertPin true).releaseFloor fun f => { f with alert := false }) hs
  refine ⟨_, run, State.wr_force _ _ _ _ _, State.wr_floorOn _ _ _ _ _, congrArg Pins.powerAlertN (State.wr_pins _ _ _ _ _),
    State.sameRegs_commit fun r hr => ?_, State.sameTabs_commit fun x _ => ?_⟩
  · exact State.reg_put_other _ _ fun e => hr (List.mem_singleton.2 e.symm)
  · have same := State.put_other (fun t => s.sameIn t x) (fun _ _ => by cases x <;> rfl) (fun _ _ => by cases x <;> rfl)
      { s.alertPin true with force := { s.force with alert := false } } ⟨.govStateFloorf, 0, 0⟩ { s.force with alert := false }.bits
    refine same.mpr ?_
    cases x <;> intro _ <;> rfl

/-- An edge of THROTTLE_N kept (R382). -/
def State.throttlePin (s : State) (b : Bool) : State :=
  { s with pins := { s.pins with throttleN := b }, lim := { s.lim with throttle := !b } }

theorem throttle_lands {s : State} (hs : s.aon = true) (b : Bool) :
    ∃ t, exec (.throttleEdge b) s = .next t ∧ t.pins.throttleN = b ∧ t.lim.throttle = !b ∧ s.sameRegsBut t [] ∧ s.sameTabsBut t [] ∧
      t.core = { s.core with pins := t.pins, lim := t.lim } := by
  refine ⟨_, State.run_on (fun s => s.throttlePin b) hs, rfl, rfl, State.sameRegs_commit fun r _ => rfl, State.sameTabs_commit fun x _ => ?_, ?_⟩
  · cases x <;> intro _ <;> rfl
  · simp [State.core, State.commit, State.throttlePin]

/-- Settles O23: each pin's command reaches its pin, its forcing and, where the floor state is entered, the branches. -/
theorem alertAndThrottlePins : Obligations.AlertAndThrottlePins :=
  fun _ b hs => ⟨alert_lands hs, alertRelease_lands hs, throttle_lands hs b⟩

end Sys2Proof.Machine

/-!
Settles O25: the first boot ROM, the standby that rejoins, and the CRC unit of each port.
-/
namespace Sys2Proof.Machine

/-! ## What the tables restored at boot reach -/

/-- A block whose registers the tables restored at boot write. -/
def restoreBlock (b : Blk) : Bool := b = .age || b = .dag || b = .rgc || b = .clk || b = .atc

/-- A reading that the tables restored at boot do not reach. -/
structure RestoreBlind {α : Type} (g : State → α) : Prop extends FaultBlind g where
  putTable : ∀ s (r : FieldRef) v, restoreBlock (fieldDef r.f).blk = true → g (s.put r v) = g s
  rails : ∀ s x, g { s with rails := x } = g s
  age : ∀ s x, g { s with age := x } = g s
  hearth : ∀ s x, g { s with hearth := x } = g s

section Restored
variable {α : Type} {g : State → α} (hg : RestoreBlind g)
include hg

theorem wr_restore (s : State) (f : Field) (v i j : Nat) (h : restoreBlock (fieldDef f).blk = true) : g (s.wr f v i j) = g s :=
  hg.putTable s ⟨f, i, j⟩ v h

theorem withdrawTop_restore (s : State) (d rise n : Nat) : g (s.withdrawTop d rise n) = g s := by
  induction n generalizing s with
  | zero => rfl
  | succ n ih =>
    unfold State.withdrawTop
    dsimp only
    split
    · rw [ih, raise_blind hg.toFaultBlind _ _ FaultClass.noConfusion, wr_restore hg _ _ _ _ _ rfl]
    · rfl

theorem setVf_restore (s : State) (d n v : Nat) : g (s.setVf d n v) = g s := by
  unfold State.setVf
  dsimp only
  split
  · exact wr_restore hg _ _ _ _ _ rfl
  · exact wr_restore hg _ _ _ _ _ rfl

theorem setVid_restore (s : State) (r v : Nat) : g (s.setVid r v) = g s := by
  have set (c : Prop) [Decidable c] (v : Nat) :
      g (if c then s else ((s.wr .rgcVidV v r).wr .rgcStatusVready 0 r).updRail r fun x => { x with near := 0 }) = g s := by
    split
    · rfl
    · exact (hg.rails _ _).trans ((wr_restore hg _ _ _ _ _ rfl).trans (wr_restore hg s _ _ _ _ rfl))
  unfold State.setVid
  dsimp only
  split
  · exact set _ _
  · rw [wr_restore hg _ _ _ _ _ rfl, set]

theorem followVf_restore (s : State) (d : Nat) : g (s.followVf d) = g s := by
  unfold State.followVf
  dsimp only
  split
  · rw [setVid_restore hg, wr_restore hg _ _ _ _ _ rfl]
  · split
    · rw [setVid_restore hg, wr_restore hg _ _ _ _ _ rfl]
    · exact wr_restore hg _ _ _ _ _ rfl

theorem raiseTable_restore (s : State) (d n : Nat) : g (s.raiseTable d n) = g s := by
  have step (t : State) (c : Prop) [Decidable c] (k v : Nat) : g (if c then t else t.setVf d k v) = g t := by
    split
    · rfl
    · exact setVf_restore hg _ _ _ _
  unfold State.raiseTable
  dsimp only
  rw [followVf_restore hg, wr_restore hg _ _ _ _ _ rfl, each_blind (g := g) _ _ fun t k => step t _ _ _, withdrawTop_restore hg]

theorem showPendAge_restore (s : State) (d : Nat) : g (s.showPendAge d) = g s :=
  (wr_restore hg _ _ _ _ _ rfl).trans (wr_restore hg s _ _ _ _ rfl)

theorem restoreAge_restore (s : State) : g s.restoreAge = g s := by
  unfold State.restoreAge
  refine (each_blind (g := g) _ _ (fun t d => ?_) _).trans ((hg.age _ _).trans (wr_restore hg s _ _ _ _ rfl))
  dsimp only
  rw [showPendAge_restore hg]
  split
  · rfl
  · split
    · rw [wr_restore hg _ _ _ _ _ rfl, raiseTable_restore hg]
    · exact setVid_restore hg _ _ _

theorem atticProgram_restore (s : State) (r : AtticRec) : g (s.atticProgram r) = g s :=
  (wr_restore hg _ _ _ _ _ rfl).trans ((wr_restore hg _ _ _ _ _ rfl).trans (hg.attic s _))

theorem atticRestore_restore (s : State) : g s.atticRestore = g s := by
  unfold State.atticRestore
  dsimp only
  split
  · exact (wr_restore hg _ _ _ _ _ rfl).trans ((hg.attic _ _).trans (each_blind _ _ (atticProgram_restore hg) s))
  · rfl

end Restored

theorem restore_of {α : Type} {g : State → α} (hb : FaultBlind g) (hr : ∀ s x, g { s with regs := x } = g s)
    (hl : ∀ s x, g { s with limits := x } = g s) (rails : ∀ s x, g { s with rails := x } = g s) (age : ∀ s x, g { s with age := x } = g s)
    (hearth : ∀ s x, g { s with hearth := x } = g s) : RestoreBlind g :=
  { hb with putTable := fun s r v _ => State.put_other g hr hl s r v, rails, age, hearth }

theorem restore_rd {f : Field} (i j : Nat) (hf : faultField f = false) (hb : restoreBlock (fieldDef f).blk = false) :
    RestoreBlind fun s => s.rd f i j :=
  { blind_rd f i j hf with
    putTable := fun s r v h => State.reg_put_other s v (by rintro rfl; exact absurd h (by rw [hb]; exact Bool.false_ne_true))
    rails := fun _ _ => rfl, age := fun _ _ => rfl, hearth := fun _ _ => rfl }

theorem restore_start : RestoreBlind fun s : State => s.start := by apply restore_of blind_start <;> intros <;> rfl
theorem restore_flash : RestoreBlind fun s : State => s.flash := by apply restore_of blind_flash <;> intros <;> rfl
theorem restore_ctrl : RestoreBlind fun s : State => s.ctrl := by apply restore_of blind_ctrl <;> intros <;> rfl

/-! ## The slot loaded -/

theorem State.loadSlot_act {s : State} (h : Nat) (ha : s.slotValid s.sel.act = true) : s.loadSlot h = s.startHall h s.sel.act := by
  rw [State.loadSlot]
  exact if_pos ha

theorem State.loadSlot_other {s : State} (h : Nat) (ha : s.slotValid s.sel.act = false) (ho : s.slotValid (1 - s.sel.act) = true) :
    s.loadSlot h = (s.startHall h (1 - s.sel.act)).wr .fwcBootAltslot 1 := by
  rw [State.loadSlot]
  exact (if_neg (by simp [ha])).trans (if_pos ho)

/-- A Hall whose control complex has found no valid slot, before the fault. -/
def State.bootFailed (s : State) (h : Nat) : State := s.updHall h fun x => { x with tried := true, failed := true }

theorem State.loadSlot_none {s : State} (h : Nat) (ha : s.slotValid s.sel.act = false) (ho : s.slotValid (1 - s.sel.act) = false) :
    s.loadSlot h = (s.bootFailed h).raise (fatalFault 19 4 (unitOf (40 + h) 0) 1) := by
  rw [State.loadSlot]
  exact (if_neg (by simp [ha])).trans (if_neg (by simp [ho]))

theorem State.hall_startHall (s : State) (h slot : Nat) : ((s.startHall h slot).hall h).up = true ∧ ((s.startHall h slot).hall h).slot = slot := by
  have ctrl : (s.startHall h slot).hall h = { s.hall h with up := true, slot, version := imgVer (s.region (3 + slot)), tried := true, failed := false } := by
    rw [State.startHall, State.hall, State.wr_ctrl]
    exact (s.hall_updHall h _ h).trans (if_pos rfl)
  rw [ctrl]
  exact ⟨rfl, rfl⟩

/-- Entry into FAILSAFE takes no update back (R345). -/
theorem State.ctrl_setSvc_failsafe (s : State) : (s.setSvc svcFailsafe).ctrl = s.ctrl := by
  have head : ((((s.wr .govStatePrev s.svc).wr .govStateCur svcFailsafe).noticeAll 4 (svcFailsafe + 8 * s.svc)).info 1).ctrl = s.ctrl := by
    rw [State.info, event_blind blind_ctrl, noticeAll_blind blind_ctrl, State.wr_ctrl, State.wr_ctrl]
  have driven (c : Prop) [Decidable c] (t : State) : (if c then { t with pins := { t.pins with bypHold := t.bypWanted } } else t).ctrl = t.ctrl := by
    split <;> rfl
  unfold State.setSvc
  split
  · rfl
  · simp only [ne_eq, not_true_eq_false, decide_false, Bool.and_false, Bool.false_and, Bool.false_eq_true, if_false]
    rw [if_neg (by decide), driven, head]

theorem State.ctrl_forceFloor (s : State) (x : Forcing → Forcing) : (s.forceFloor x).ctrl = s.ctrl :=
  State.enterFloor_other (g := State.ctrl) (fun _ _ => rfl) (fun _ _ => rfl) _

theorem State.ctrl_fatalLatched (s : State) : s.fatalLatched.ctrl = s.ctrl := by
  simp only [State.fatalLatched, State.govErr10, State.ctrl_forceFloor, State.wr_ctrl]

/-- The FATAL latch stops no control complex and starts none (R281). -/
theorem State.ctrl_failsafe (s : State) (src unit : Nat) : (s.failsafe src unit).ctrl = s.ctrl := by
  by_cases h : s.flag .fltStatusFatal = true
  · rw [State.failsafe, if_pos h]
  · rw [State.failsafe_latched src unit (Bool.eq_false_iff.2 h), sendVector_blind blind_ctrl, sendVector_blind blind_ctrl, State.ctrl_setSvc_failsafe,
      noticeAll_blind blind_ctrl, State.trimEnded_other (g := State.ctrl) (fun _ _ => rfl) (fun _ _ => rfl), State.ctrl_fatalLatched]

theorem State.ctrl_raise_fatal (s : State) {x : FaultRec} (hx : x.cls = .fatal) : (s.raise x).ctrl = s.ctrl := by
  unfold State.raise
  simp only [hx]
  rw [State.ctrl_failsafe, event_blind blind_ctrl, capture_blind blind_ctrl, countFault_blind blind_ctrl]

/-! ## The first boot -/

/-- The first boot counted (R17). -/
def State.bootCounted (s : State) : State :=
  { s with flash := { s.flash with pwrcyc := s.flash.pwrcyc + 1 }, start := { s.start with booted := true } }

theorem State.rd_bootCounted (s : State) (f : Field) (i j : Nat) : s.bootCounted.rd f i j = s.rd f i j := rfl

/-- The first boot counted and noted (R17, R294). -/
def State.bootNoted (s : State) : State := (s.bootCounted.wr .atcPwrcyc (s.flash.pwrcyc + 1)).info 4

/-- The first boot with the selector in force shown. -/
def State.bootBegun (s : State) : State := s.bootNoted.showSel

/-- The slot in force shown, where its image runs or not. -/
def State.bootSlot (s : State) (h : Nat) : State := s.wr .fwcBootSlot (s.hall h).slot

/-- The boot of a slot that is loaded: the role, and the tables of the ageing and of the Attic. -/
def State.bootRestored (s : State) (h : Nat) : State := ((if h = s.active then s else s.wr .govHallActive h).restoreAge).atticRestore

/-- The firmware runs from now. -/
def State.running (s : State) : State := { s with hearth := { s.hearth with fwSince := some s.now } }

/-- The boot ended: an image on trial waits for its confirmation. -/
def State.bootEnded (s : State) : State := if s.running.sel.confirmed then s.running else s.running.wr .fwcUpdStage 7

theorem State.sel_congr {s t : State} (h : t.flash.regions = s.flash.regions) : t.sel = s.sel := by
  unfold State.sel State.inForceSel State.region
  rw [h]

theorem State.slotValid_congr {s t : State} (h : t.flash.regions = s.flash.regions) (hr : t.rd .fwcBootSvnf = s.rd .fwcBootSvnf) (k : Nat) :
    t.slotValid k = s.slotValid k := by
  unfold State.slotValid State.region
  rw [h, hr]

/-- A register that the boot writes beside the tables. -/
def bootFields : List Field := [.fwcUpdStage, .fwcBootSlot, .fwcBootTrial, .fwcBootConfirmed, .fwcImgVer]

/-- A reading that the boot reaches neither in its tables nor in its registers. -/
structure BootBlind {α : Type} (g : State → α) : Prop extends RestoreBlind g where
  putBoot : ∀ s (r : FieldRef) v, r.f ∈ bootFields → g (s.put r v) = g s

section Boot
variable {α : Type} {g : State → α} (hg : BootBlind g)
include hg

theorem bootEnded_boot (s : State) : g s.bootEnded = g s := by
  unfold State.bootEnded
  split
  · exact hg.hearth s _
  · exact (hg.putBoot _ ⟨.fwcUpdStage, 0, 0⟩ 7 (by decide)).trans (hg.hearth s _)

theorem showSel_boot (s : State) : g s.showSel = g s :=
  (hg.putBoot _ ⟨.fwcBootConfirmed, 0, 0⟩ _ (by decide)).trans (hg.putBoot s ⟨.fwcBootTrial, 0, 0⟩ _ (by decide))

theorem bootSlot_boot (s : State) (h : Nat) : g (s.bootSlot h) = g s := hg.putBoot s ⟨.fwcBootSlot, 0, 0⟩ _ (by decide)

theorem bootRestored_boot (role : ∀ s v, g (s.wr .govHallActive v) = g s) (s : State) (h : Nat) : g (s.bootRestored h) = g s := by
  rw [State.bootRestored, atticRestore_restore hg.toRestoreBlind, restoreAge_restore hg.toRestoreBlind]
  split
  · rfl
  · exact role _ _

/-- All of a boot but the load of its slot. -/
theorem bootTail_boot (role : ∀ s v, g (s.wr .govHallActive v) = g s) (s : State) (h : Nat) :
    g ((s.bootSlot h).bootRestored h).bootEnded = g s := by
  rw [bootEnded_boot hg, bootRestored_boot hg role, bootSlot_boot hg]

end Boot

theorem boot_of {α : Type} {g : State → α} (hb : RestoreBlind g) (hr : ∀ s x, g { s with regs := x } = g s)
    (hl : ∀ s x, g { s with limits := x } = g s) : BootBlind g :=
  { hb with putBoot := fun s r v _ => State.put_other g hr hl s r v }

theorem boot_rd {f : Field} (i j : Nat) (hf : faultField f = false) (hb : restoreBlock (fieldDef f).blk = false) (h : f ∉ bootFields) :
    BootBlind fun s => s.rd f i j :=
  { restore_rd i j hf hb with putBoot := fun s r v hr => State.reg_put_other s v (by rintro rfl; exact h hr) }

theorem boot_start : BootBlind fun s : State => s.start := boot_of restore_start (fun _ _ => rfl) fun _ _ => rfl
theorem boot_flash : BootBlind fun s : State => s.flash := boot_of restore_flash (fun _ _ => rfl) fun _ _ => rfl
theorem boot_ctrl : BootBlind fun s : State => s.ctrl := boot_of restore_ctrl (fun _ _ => rfl) fun _ _ => rfl

theorem State.flash_bootBegun (s : State) : s.bootBegun.flash = { s.flash with pwrcyc := s.flash.pwrcyc + 1 } := by
  rw [State.bootBegun, showSel_boot boot_flash, State.bootNoted, State.info, event_blind blind_flash, State.wr_flash]
  rfl

theorem State.start_bootBegun (s : State) : s.bootBegun.start = { s.start with booted := true } := by
  rw [State.bootBegun, showSel_boot boot_start, State.bootNoted, State.info, event_blind blind_start, State.wr_start]
  rfl

theorem State.ctrl_bootBegun (s : State) : s.bootBegun.ctrl = s.ctrl := by
  rw [State.bootBegun, showSel_boot boot_ctrl, State.bootNoted, State.info, event_blind blind_ctrl, State.wr_ctrl]
  rfl

theorem State.rd_bootBegun (s : State) {f : Field} (i j : Nat) (hf : faultField f = false) (hb : restoreBlock (fieldDef f).blk = false)
    (h : f ∉ bootFields) : s.bootBegun.rd f i j = s.rd f i j := by
  rw [State.bootBegun, showSel_boot (boot_rd i j hf hb h), State.bootNoted, State.info, event_blind (blind_rd f i j hf),
    State.rd_wr_field _ _ _ _ _ _ (by rintro rfl; exact Bool.false_ne_true hb.symm), State.rd_bootCounted]

/-- What follows the load of the slot: the slot shown, and where its control complex is up, the tables and the firmware (R331). -/
def State.bootRest (s : State) (h : Nat) : State :=
  if ((s.bootSlot h).hall h).up then ((s.bootSlot h).bootRestored h).bootEnded else s.bootSlot h

theorem State.firstBoot_rest (s : State) (h : Nat) : s.firstBoot h = (s.bootNoted.bootSelector.showSel.loadSlot h).bootRest h := by
  have ended (x : State) : (let y := { x with hearth := { x.hearth with fwSince := some x.now } }
      if y.sel.confirmed then y else y.wr .fwcUpdStage 7) = x.bootEnded := rfl
  exact ite_congr rfl (fun _ => (ended _).trans rfl) fun _ => rfl

/-- With the selector confirmed, the first boot loads the slot that it names and goes on where its control complex is up (R331). -/
theorem State.firstBoot_eq {s : State} (h : Nat) (hc : s.sel.confirmed = true) :
    s.firstBoot h = (s.bootBegun.loadSlot h).bootRest h := by
  have same : s.bootNoted.bootSelector = s.bootNoted := by
    have flash : s.bootNoted.flash = { s.flash with pwrcyc := s.flash.pwrcyc + 1 } := by
      rw [State.bootNoted, State.info, event_blind blind_flash, State.wr_flash]
      rfl
    rw [State.bootSelector, State.sel_congr (s := s) (by rw [flash])]
    exact if_pos hc
  rw [State.firstBoot_rest, same, State.bootBegun]

theorem bootRest_boot {α : Type} {g : State → α} (hg : BootBlind g) (role : ∀ s v, g (s.wr .govHallActive v) = g s) (s : State) (h : Nat) :
    g (s.bootRest h) = g s := by
  unfold State.bootRest
  split
  · exact bootTail_boot hg role s h
  · exact bootSlot_boot hg s h

/-- The load of a slot reaches a reading through its Hall, its version, its flag and its fault alone. -/
theorem loadSlot_latch {α : Type} {g : State → α} (hg : LatchBlind g) (hr : ∀ s x, g { s with regs := x } = g s)
    (hl : ∀ s x, g { s with limits := x } = g s) (s : State) (h : Nat) : g (s.loadSlot h) = g s := by
  have wr (t : State) (f : Field) (v i j : Nat) : g (t.wr f v i j) = g t := State.wr_other hr hl t f v i j
  have start (k : Nat) : g (s.startHall h k) = g s := (wr _ _ _ _ _).trans (hg.ctrl s _)
  unfold State.loadSlot
  dsimp only
  split
  · exact start _
  · split
    · exact (wr _ _ _ _ _).trans (start _)
    · exact (raise_latch hg _ _).trans (hg.ctrl s _)

theorem State.hall_bootRest (s : State) (h k : Nat) : (s.bootRest h).hall k = s.hall k :=
  congrArg (Store.get HallState.init · k) (bootRest_boot boot_ctrl (fun s _ => s.wr_ctrl _ _ _ _) s h)

theorem State.rd_bootRest (s : State) (h : Nat) {f : Field} (i j : Nat) (hf : faultField f = false) (hb : restoreBlock (fieldDef f).blk = false)
    (hn : f ∉ bootFields) (ha : .govHallActive ≠ f) : (s.bootRest h).rd f i j = s.rd f i j :=
  bootRest_boot (boot_rd i j hf hb hn) (fun s v => s.rd_wr_field v 0 0 i j ha) s h

/-- A Hall that has booted first is the active one (R17). -/
theorem State.active_bootRest {s : State} {h : Hall} (up : (s.hall h.val).up = true) : (s.bootRest h.val).active = h.val := by
  have shown : ((s.bootSlot h.val).hall h.val).up = true := by
    rw [State.hall, bootSlot_boot boot_ctrl]
    exact up
  have reading : RestoreBlind State.active := restore_rd 0 0 rfl rfl
  rw [State.bootRest, if_pos shown, State.active, bootEnded_boot (boot_rd 0 0 rfl rfl (by decide)), State.bootRestored]
  change State.active _ = _
  rw [atticRestore_restore reading, restoreAge_restore reading]
  split
  · next same => exact same.symm
  · rw [State.active, State.rd_wr_same _ _ _ _ _ rfl]
    have width : (fieldDef .govHallActive).width = 1 := rfl
    rw [width]
    exact Nat.mod_eq_of_lt h.isLt

theorem State.slotValid_bootBegun (s : State) (k : Nat) : s.bootBegun.slotValid k = s.slotValid k :=
  State.slotValid_congr (by rw [State.flash_bootBegun]) (s.rd_bootBegun 0 0 rfl rfl (by decide)) k

theorem State.sel_bootBegun (s : State) : s.bootBegun.sel = s.sel := State.sel_congr (by rw [State.flash_bootBegun])

section FirstBoot
variable {s : State} {h : Hall} (hc : s.sel.confirmed = true)
include hc

theorem counted_firstBoot : (s.firstBoot h.val).start.booted = true ∧ (s.firstBoot h.val).flash.pwrcyc = s.flash.pwrcyc + 1 := by
  rw [State.firstBoot_eq h.val hc, bootRest_boot boot_start fun s _ => s.wr_start _ _ _ _, bootRest_boot boot_flash fun s _ => s.wr_flash _ _ _ _,
    loadSlot_latch latch_start (fun _ _ => rfl) fun _ _ => rfl, loadSlot_latch latch_flash (fun _ _ => rfl) fun _ _ => rfl,
    State.start_bootBegun, State.flash_bootBegun]
  exact ⟨rfl, rfl⟩

theorem firstBoot_act (ha : s.slotValid s.sel.act = true) : ((s.firstBoot h.val).hall h.val).up = true ∧
    ((s.firstBoot h.val).hall h.val).slot = s.sel.act ∧ (s.firstBoot h.val).active = h.val := by
  have load : s.bootBegun.loadSlot h.val = s.bootBegun.startHall h.val s.sel.act := by
    have valid : s.bootBegun.slotValid s.bootBegun.sel.act = true := by rw [State.sel_bootBegun, State.slotValid_bootBegun, ha]
    rw [State.loadSlot_act h.val valid, State.sel_bootBegun]
  obtain ⟨up, slot⟩ := s.bootBegun.hall_startHall h.val s.sel.act
  rw [State.firstBoot_eq h.val hc, State.hall_bootRest, load]
  exact ⟨up, slot, State.active_bootRest up⟩

theorem firstBoot_other (ha : s.slotValid s.sel.act = false) (ho : s.slotValid (1 - s.sel.act) = true) :
    ((s.firstBoot h.val).hall h.val).up = true ∧ ((s.firstBoot h.val).hall h.val).slot = 1 - s.sel.act ∧
      (s.firstBoot h.val).flag .fwcBootAltslot = true := by
  have load : s.bootBegun.loadSlot h.val = (s.bootBegun.startHall h.val (1 - s.sel.act)).wr .fwcBootAltslot 1 := by
    have invalid : s.bootBegun.slotValid s.bootBegun.sel.act = false := by rw [State.sel_bootBegun, State.slotValid_bootBegun, ha]
    have valid : s.bootBegun.slotValid (1 - s.bootBegun.sel.act) = true := by rw [State.sel_bootBegun, State.slotValid_bootBegun, ho]
    rw [State.loadSlot_other h.val invalid valid, State.sel_bootBegun]
  obtain ⟨up, slot⟩ := s.bootBegun.hall_startHall h.val (1 - s.sel.act)
  rw [State.firstBoot_eq h.val hc, State.hall_bootRest, load, State.hall, State.wr_ctrl]
  refine ⟨up, slot, decide_eq_true ?_⟩
  rw [State.rd_bootRest _ _ _ _ rfl rfl (by decide) (by decide), State.rd_wr_same _ _ _ _ _ rfl]
  rfl

theorem firstBoot_none (hu : (s.hall h.val).up = false) (ha : s.slotValid s.sel.act = false) (ho : s.slotValid (1 - s.sel.act) = false) :
    ((s.firstBoot h.val).hall h.val).up = false ∧ (s.firstBoot h.val).flag .fltStatusFatal = true := by
  have load : s.bootBegun.loadSlot h.val = (s.bootBegun.bootFailed h.val).raise (fatalFault 19 4 (unitOf (40 + h.val) 0) 1) := by
    have invalid : s.bootBegun.slotValid s.bootBegun.sel.act = false := by rw [State.sel_bootBegun, State.slotValid_bootBegun, ha]
    have neither : s.bootBegun.slotValid (1 - s.bootBegun.sel.act) = false := by rw [State.sel_bootBegun, State.slotValid_bootBegun, ho]
    exact State.loadSlot_none h.val invalid neither
  have down : ((s.bootBegun.loadSlot h.val).hall h.val).up = false := by
    rw [load, State.hall, State.ctrl_raise_fatal _ rfl]
    refine (congrArg HallState.up ((s.bootBegun.hall_updHall h.val _ h.val).trans (if_pos rfl))).trans ?_
    exact (congrArg (fun c => (Store.get HallState.init c h.val).up) s.ctrl_bootBegun).trans hu
  have latched : (s.bootBegun.loadSlot h.val).flag .fltStatusFatal = true := by
    rw [load]
    exact State.fatal_failsafe _ _ _
  have shown : ((s.bootBegun.loadSlot h.val).bootSlot h.val).hall h.val = (s.bootBegun.loadSlot h.val).hall h.val :=
    congrArg (Store.get HallState.init · h.val) (bootSlot_boot boot_ctrl _ _)
  rw [State.firstBoot_eq h.val hc, State.hall_bootRest, State.bootRest, shown, down, if_neg Bool.false_ne_true, State.bootSlot,
    State.flag_wr_field _ _ _ _ _ _ (by decide)]
  exact ⟨rfl, latched⟩

end FirstBoot

theorem exec_bootRom_first {s : State} {h : Hall} (hs : s.aon = true) (hu : (s.hall h.val).up = false)
    (ht : h.val = 1 → (s.hall 0).tried = true) (hf : s.flag .fltStatusFatal = false) (hb : s.start.booted = false) :
    exec (.bootRom h true) s = .next (s.commit (s.firstBoot h.val)) := by
  have turn : (decide (h.val = 1) && !(s.hall 0).tried) = false := by
    by_cases one : h.val = 1
    · simp [ht one]
    · simp [one]
  change execBootRom h true s = _
  rw [execBootRom, State.run_on _ hs]
  simp only [hu, turn, hf, hb, Bool.or_self, Bool.not_true, Bool.false_eq_true, if_false]

theorem exec_bootRom_failed {s : State} {h : Hall} (hs : s.aon = true) (hu : (s.hall h.val).up = false)
    (ht : h.val = 1 → (s.hall 0).tried = true) (hf : s.flag .fltStatusFatal = false) :
    exec (.bootRom h false) s = .next (s.commit (s.bootFailed h.val)) := by
  have turn : (decide (h.val = 1) && !(s.hall 0).tried) = false := by
    by_cases one : h.val = 1
    · simp [ht one]
    · simp [one]
  change execBootRom h false s = _
  rw [execBootRom, State.run_on _ hs]
  simp only [hu, turn, hf, Bool.or_self, Bool.not_false, Bool.false_eq_true, if_false, if_true]
  rfl

theorem State.start_commit (s n : State) : (s.commit n).start = n.start := rfl

theorem State.flash_commit (s n : State) : (s.commit n).flash = n.flash := rfl

theorem firstBoot_lands {s : State} {h : Hall} (hs : s.aon = true) (hu : (s.hall h.val).up = false)
    (ht : h.val = 1 → (s.hall 0).tried = true) (hf : s.flag .fltStatusFatal = false) (hb : s.start.booted = false)
    (hc : s.sel.confirmed = true) :
    ∃ t, exec (.bootRom h true) s = .next t ∧ t.start.booted = true ∧ t.flash.pwrcyc = s.flash.pwrcyc + 1 ∧
      if s.slotValid s.sel.act then (t.hall h.val).up = true ∧ (t.hall h.val).slot = s.sel.act ∧ t.active = h.val
      else if s.slotValid (1 - s.sel.act) then (t.hall h.val).up = true ∧ (t.hall h.val).slot = 1 - s.sel.act ∧
        t.flag .fwcBootAltslot = true
      else (t.hall h.val).up = false ∧ t.flag .fltStatusFatal = true := by
  obtain ⟨booted, cycles⟩ := counted_firstBoot (h := h) hc
  have flag (f : Field) (hl : f.isLimit = false) (v : (s.firstBoot h.val).flag f = true) : (s.commit (s.firstBoot h.val)).flag f = true :=
    (congrArg (fun n => decide (n = 1)) (State.rd_commit _ _ _ _ _ hl)).trans v
  refine ⟨_, exec_bootRom_first hs hu ht hf hb, ?_, ?_, ?_⟩
  · rw [State.start_commit, booted]
  · rw [State.flash_commit, cycles]
  · rw [State.hall_commit]
    cases ha : s.slotValid s.sel.act with
    | true =>
      obtain ⟨up, slot, active⟩ := firstBoot_act (h := h) hc ha
      exact ⟨up, slot, (State.rd_commit _ _ _ _ _ rfl).trans active⟩
    | false =>
      rw [if_neg Bool.false_ne_true]
      cases ho : s.slotValid (1 - s.sel.act) with
      | true =>
        obtain ⟨up, slot, alt⟩ := firstBoot_other (h := h) hc ha ho
        exact ⟨up, slot, flag _ rfl alt⟩
      | false =>
        obtain ⟨down, fatal⟩ := firstBoot_none hc hu ha ho
        exact ⟨down, flag _ rfl fatal⟩

theorem State.onlyChanges_ctrl {s n : State} {l : List FieldRef} {ts : List Tab} (h : s.onlyChanges n l ts) (x : Store Nat HallState)
    (hr : Tab.ctrl ∈ ts) : s.onlyChanges { n with ctrl := x } l ts := by
  obtain ⟨regs, tabs, core⟩ := h
  refine ⟨regs, fun y hy => ?_, core⟩
  have same := tabs y hy
  cases y
  case ctrl => exact absurd hr hy
  all_goals exact same

theorem selfTestFailed_lands {s : State} {h : Hall} (hs : s.aon = true) (hu : (s.hall h.val).up = false)
    (ht : h.val = 1 → (s.hall 0).tried = true) (hf : s.flag .fltStatusFatal = false) :
    ∃ t, exec (.bootRom h false) s = .next t ∧ (t.hall h.val).up = false ∧ (t.hall h.val).failed = true ∧ s.onlyChanges t [] [.ctrl] := by
  have record : (s.bootFailed h.val).hall h.val = { s.hall h.val with tried := true, failed := true } :=
    (s.hall_updHall h.val _ h.val).trans (if_pos rfl)
  refine ⟨_, exec_bootRom_failed hs hu ht hf, ?_, ?_, State.onlyChanges_commit (State.onlyChanges_ctrl (s.onlyChanges_refl _ _) _ List.mem_cons_self)⟩
  · rw [State.hall_commit, record]
    exact hu
  · rw [State.hall_commit, record]

/-! ## The standby that rejoins -/

theorem exec_standbyRejoin_up {s : State} (hs : s.aon = true) (hn : s.flag .govHallStbyrdy = false) (hb : s.start.booted = true)
    (hu : (s.hall (1 - s.active)).up = true) : exec .standbyRejoin s = .next (s.commit s.standbyReady) := by
  change execStandbyRejoin s = _
  rw [execStandbyRejoin, State.run_on _ hs]
  simp only [hn, hb, hu, Bool.not_true, Bool.or_self, Bool.false_eq_true, if_false, if_true]

theorem rejoin_lands {s : State} (hs : s.aon = true) (hn : s.flag .govHallStbyrdy = false) (hb : s.start.booted = true)
    (hu : (s.hall (1 - s.active)).up = true) :
    ∃ t, exec .standbyRejoin s = .next t ∧ t.flag .govHallStbyrdy = true ∧ t.flag .fltStatusNostby = false ∧
      t.lard.mirror = s.lard.larder ∧ s.sameRegsBut t [⟨.govHallStbyrdy, 0, 0⟩, ⟨.fltStatusNostby, 0, 0⟩] ∧ s.sameTabsBut t [] ∧
      t.core = { s.core with lard := t.lard } := by
  have put (x : Tab) (t : State) (f : Field) (v : Nat) : s.sameIn (t.wr f v) x = s.sameIn t x :=
    State.wr_other (g := fun t => s.sameIn t x) (fun _ _ => by cases x <;> rfl) (fun _ _ => by cases x <;> rfl) t f v 0 0
  refine ⟨_, exec_standbyRejoin_up hs hn hb hu, decide_eq_true ?_, decide_eq_false ?_, ?_, State.sameRegs_commit fun r hr => ?_,
    State.sameTabs_commit fun x _ => ?_, ?_⟩
  · rw [State.rd_commit _ _ _ _ _ rfl]
    exact (State.rd_wr_field _ _ _ _ _ _ (by decide)).trans (State.rd_wr_same _ _ _ _ _ rfl)
  · rw [State.rd_commit _ _ _ _ _ rfl]
    exact fun h => absurd ((State.rd_wr_same _ _ _ _ _ rfl).symm.trans h) (by decide)
  · exact congrArg LarderState.larder ((State.wr_lard _ _ _ _ _).trans (s.wr_lard .govHallStbyrdy 1 0 0))
  · obtain ⟨ha, hb⟩ : r ≠ ⟨.govHallStbyrdy, 0, 0⟩ ∧ r ≠ ⟨.fltStatusNostby, 0, 0⟩ := by simpa using hr
    exact (State.reg_put_other _ _ hb.symm).trans (State.reg_put_other _ _ ha.symm)
  · have kept : s.sameIn ((s.wr .govHallStbyrdy 1).wr .fltStatusNostby 0) x := by
      rw [put, put]
      exact s.sameIn_refl x
    revert kept
    cases x <;> exact fun h => h
  · simp [State.core, State.commit, State.standbyReady, State.fillMirror, State.updLard]

end Sys2Proof.Machine

/-!
Settles O25 (continued): the CRC unit of each port, whose word feed is four byte feeds.
-/
namespace Sys2Proof.Machine

/-! ## The running value -/

theorem crcBit_lt {c : Nat} (h : c < 2 ^ 32) : crcBit c < 2 ^ 32 := by
  unfold crcBit
  split
  · exact Nat.xor_lt_two_pow (by omega) (by decide)
  · omega

theorem crcByte_lt {c : Nat} (h : c < 2 ^ 32) (b : Nat) : crcByte c b < 2 ^ 32 := by
  have start : c ^^^ (b % 256) < 2 ^ 32 := Nat.xor_lt_two_pow h (by omega)
  unfold crcByte
  dsimp only
  iterate 8 refine crcBit_lt ?_
  exact start

theorem crcBytes_lt {c : Nat} (h : c < 2 ^ 32) (l : List Nat) : crcBytes c l < 2 ^ 32 :=
  List.foldlRecOn (motive := fun c => c < 2 ^ 32) l _ h fun _ hc b _ => crcByte_lt hc b

theorem ones_xor_lt {c : Nat} (h : c < 2 ^ 32) : c ^^^ 0xFFFFFFFF < 2 ^ 32 := Nat.xor_lt_two_pow h (by decide)

/-- The value that a port shows is the complement of the one that runs. -/
theorem xor_ones_twice (c : Nat) : c ^^^ 0xFFFFFFFF ^^^ 0xFFFFFFFF = c := by
  rw [Nat.xor_assoc, Nat.xor_self, Nat.xor_zero]

/-! ## The registers of a port's unit -/

theorem crcout_exists (p : Port) : (⟨.fwcCrcout, p.num, 0⟩ : FieldRef).exists = true := by cases p <;> rfl

theorem crccnt_exists (p : Port) : (⟨.fwcCrccnt, p.num, 0⟩ : FieldRef).exists = true := by cases p <;> rfl

/-- The two registers that the unit of a port writes. -/
def crcRefs (p : Port) : List FieldRef := [⟨.fwcCrcout, p.num, 0⟩, ⟨.fwcCrccnt, p.num, 0⟩]

theorem State.onlyChanges_crc (s : State) (p : Port) (a b : Nat) :
    s.onlyChanges ((s.wr .fwcCrcout a p.num).wr .fwcCrccnt b p.num) (crcRefs p) [] :=
  State.onlyChanges_wr (State.onlyChanges_wr (s.onlyChanges_refl _ _) _ _ _ _ List.mem_cons_self) _ _ _ _ (List.mem_cons_of_mem _ List.mem_cons_self)

theorem State.crcout_written (s : State) (p : Port) {a : Nat} (b : Nat) (h : a < 2 ^ 32) :
    ((s.wr .fwcCrcout a p.num).wr .fwcCrccnt b p.num).rd .fwcCrcout p.num = a := by
  rw [State.rd_wr_field _ _ _ _ _ _ (by decide), State.rd_wr_same _ _ _ _ _ (crcout_exists p)]
  exact Nat.mod_eq_of_lt h

theorem State.crccnt_written (s : State) (p : Port) (a b : Nat) :
    ((s.wr .fwcCrcout a p.num).wr .fwcCrccnt b p.num).rd .fwcCrccnt p.num = b % 2 ^ 32 :=
  State.rd_wr_same _ _ _ _ _ (crccnt_exists p)

/-! ## Feeds -/

/-- What a feed of bytes leaves of a port's unit. -/
structure Fed (s t : State) (p : Port) (l : List Nat) : Prop where
  aon : t.aon = true
  out : t.rd .fwcCrcout p.num = crcBytes (s.rd .fwcCrcout p.num ^^^ 0xFFFFFFFF) l ^^^ 0xFFFFFFFF
  count : t.rd .fwcCrccnt p.num = (s.rd .fwcCrccnt p.num + l.length) % 2 ^ 32
  frame : s.onlyChanges t (crcRefs p) []

theorem State.crcFeed_fed {s : State} (hs : s.aon = true) (p : Port) (l : List Nat) (h : s.rd .fwcCrcout p.num < 2 ^ 32) :
    Fed s (s.commit (s.crcFeed p l)) p l where
  aon := ((s.wr .fwcCrcout _ p.num).wr_aon .fwcCrccnt _ p.num 0).trans ((s.wr_aon _ _ _ _).trans hs)
  out := (State.rd_commit _ _ _ _ _ rfl).trans (s.crcout_written p _ (ones_xor_lt (crcBytes_lt (ones_xor_lt h) l)))
  count := (State.rd_commit _ _ _ _ _ rfl).trans (s.crccnt_written p _ _)
  frame := State.onlyChanges_commit (s.onlyChanges_crc p _ _)

theorem Fed.lt {s t : State} {p : Port} {l : List Nat} (h : Fed s t p l) (hs : s.rd .fwcCrcout p.num < 2 ^ 32) :
    t.rd .fwcCrcout p.num < 2 ^ 32 := by
  rw [h.out]
  exact ones_xor_lt (crcBytes_lt (ones_xor_lt hs) l)

theorem exec_feedByte {s : State} (hs : s.aon = true) (p : Port) (b : Octet) :
    exec (.crcFeedByte p b) s = .next (s.commit (s.crcFeed p [b.toNat])) :=
  State.run_on (fun s => s.crcFeed p [b.toNat]) hs

theorem exec_feedWord {s : State} (hs : s.aon = true) (p : Port) (v : Word) :
    exec (.crcFeedWord p v) s = .next (s.commit (s.crcFeed p (wordBytes v.toNat))) :=
  State.run_on (fun s => s.crcFeed p (wordBytes v.toNat)) hs

/-- A feed of one byte, with its run. -/
theorem feedByte_lands {s : State} (hs : s.aon = true) {p : Port} (h : s.rd .fwcCrcout p.num < 2 ^ 32) (b : Octet) :
    ∃ t, exec (.crcFeedByte p b) s = .next t ∧ Fed s t p [b.toNat] :=
  ⟨_, exec_feedByte hs p b, State.crcFeed_fed hs p _ h⟩

/-- A word's bytes, the least significant first. -/
theorem wordBytes_eq (v : Word) :
    wordBytes v.toNat = [(v.extractLsb' 0 8).toNat, (v.extractLsb' 8 8).toNat, (v.extractLsb' 16 8).toNat, (v.extractLsb' 24 8).toNat] := by
  simp [wordBytes, BitVec.extractLsb'_toNat, Nat.shiftRight_eq_div_pow]

theorem feedWord_lands {s : State} (hs : s.aon = true) {p : Port} (h : s.rd .fwcCrcout p.num < 2 ^ 32) (v : Word) :
    ∃ t t0 t1 t2 t3, exec (.crcFeedWord p v) s = .next t ∧ exec (.crcFeedByte p (v.extractLsb' 0 8)) s = .next t0 ∧
      exec (.crcFeedByte p (v.extractLsb' 8 8)) t0 = .next t1 ∧ exec (.crcFeedByte p (v.extractLsb' 16 8)) t1 = .next t2 ∧
      exec (.crcFeedByte p (v.extractLsb' 24 8)) t2 = .next t3 ∧ t.rd .fwcCrcout p.num = t3.rd .fwcCrcout p.num ∧
      t.rd .fwcCrccnt p.num = t3.rd .fwcCrccnt p.num := by
  obtain ⟨t0, run0, fed0⟩ := feedByte_lands hs h (v.extractLsb' 0 8)
  obtain ⟨t1, run1, fed1⟩ := feedByte_lands fed0.aon (fed0.lt h) (v.extractLsb' 8 8)
  obtain ⟨t2, run2, fed2⟩ := feedByte_lands fed1.aon (fed1.lt (fed0.lt h)) (v.extractLsb' 16 8)
  obtain ⟨t3, run3, fed3⟩ := feedByte_lands fed2.aon (fed2.lt (fed1.lt (fed0.lt h))) (v.extractLsb' 24 8)
  have word := State.crcFeed_fed hs p (wordBytes v.toNat) h
  refine ⟨_, t0, t1, t2, t3, exec_feedWord hs p v, run0, run1, run2, run3, ?_, ?_⟩
  · rw [word.out, wordBytes_eq, fed3.out, fed2.out, fed1.out, fed0.out, xor_ones_twice, xor_ones_twice, xor_ones_twice]
    rfl
  · rw [word.count, wordBytes_eq, fed3.count, fed2.count, fed1.count, fed0.count]
    simp only [List.length_cons, List.length_nil]
    omega

theorem seed_lands {s : State} (hs : s.aon = true) (p : Port) (v : Word) :
    ∃ t, exec (.crcSeed p v) s = .next t ∧ t.rd .fwcCrcout p.num = v.toNat ^^^ 0xFFFFFFFF ∧ t.rd .fwcCrccnt p.num = 0 ∧
      s.onlyChanges t (crcRefs p) [] :=
  ⟨_, State.run_on (fun s => s.crcSeed p v.toNat) hs, (State.rd_commit _ _ _ _ _ rfl).trans (s.crcout_written p _ (ones_xor_lt v.isLt)),
    (State.rd_commit _ _ _ _ _ rfl).trans (s.crccnt_written p _ _), State.onlyChanges_commit (s.onlyChanges_crc p _ _)⟩

/-- Settles O25: the first boot is followed slot by slot, and the units of the ports byte by byte. -/
theorem crcAndBoot : Obligations.CrcAndBoot := by
  refine ⟨fun s h hs => ⟨fun hu ht hf hb hc => firstBoot_lands hs hu ht hf hb hc, fun hu ht hf => selfTestFailed_lands hs hu ht hf,
    fun hn hb hu => rejoin_lands hs hn hb hu⟩, fun s p v b hs => ⟨seed_lands hs p v, fun h => ?_, fun h => feedWord_lands hs h v⟩⟩
  obtain ⟨t, run, fed⟩ := feedByte_lands hs h b
  exact ⟨t, run, fed.out, fed.count, fed.frame⟩

end Sys2Proof.Machine

/-!
Refutes O27: the statement speaks of every state, also of one whose SLOT.S holds more than its 14 bits. There the grid slides by one root
period to an offset that STAGGER.OFFS cannot hold, and the write leaves the offset without its upper bits.
-/
namespace Sys2Proof.Machine

/-- A rail in REG with slots of 32 768 root periods, at the end of a cycle, whose offset of 16 383 is one short of its target. -/
def wideSlot : State :=
  { State.reset with
    regs := [(⟨.rgcStatusState, 40, 0⟩, 3), (⟨.rgcSlotS, 40, 0⟩, 32768), (⟨.rgcStaggerOffs, 40, 0⟩, 16383)]
    rails := [(40, { RailState.init 40 with slot := 1 })] }

/-- A slot at the target with no samples. -/
def wideInput : SlotInput := { vsense := 1560, imon := [], samples := 0, tmon := 0, starts := [] }

theorem exec_railSlot {s : State} {r : Rail} (i : SlotInput) (hs : s.aon = true) (hl : s.railLives r.val = true) (ho : s.railOn r.val = true) :
    exec (.railSlot r i) s = .next (s.commit (s.railSlot r.val i)) := by
  change execRailSlot r i s = _
  rw [execRailSlot, State.run_on _ hs]
  simp only [hl, ho, Bool.not_true, Bool.false_eq_true, if_false, if_true]

/-- The slot moves the offset to 16 384, of which 14 bits are 0, and the grid on by one slot. -/
theorem grid_wideSlot : (wideSlot.railSlot 40 wideInput).rd .rgcStaggerOffs 40 = 0 ∧ ((wideSlot.railSlot 40 wideInput).rail 40).slot = 2 := by
  decide +kernel

/-- Refutes O27: after the slot the grid stands 16 383 root periods before the end of the slot that it has left. -/
theorem not_railSlots : ¬ Obligations.RailSlots := by
  intro h
  obtain ⟨t, run, -, -, goesOn, -⟩ := h.1 wideSlot 40 wideInput rfl (by decide) (by decide)
  obtain ⟨-, -, -, -, -, grid⟩ := goesOn (by decide)
  obtain ⟨-, late⟩ := grid (by decide) (by decide)
  have left : wideSlot.commit (wideSlot.railSlot 40 wideInput) = t :=
    Host.Outcome.next.inj ((exec_railSlot wideInput rfl (by decide) (by decide)).symm.trans run)
  obtain ⟨offset, slot⟩ := grid_wideSlot
  have before : wideSlot.rd .rgcStaggerOffs 40 + ((wideSlot.rail 40).slot + 2) * wideSlot.slotS 40 = 114687 := by decide
  have width : wideSlot.slotS 40 = 32768 := by decide
  rw [← left, State.rd_commit _ _ _ _ _ rfl, State.rail_commit] at late
  change wideSlot.rd .rgcStaggerOffs 40 + ((wideSlot.rail 40).slot + 2) * wideSlot.slotS 40 ≤
    (wideSlot.railSlot 40 wideInput).rd .rgcStaggerOffs 40 + (((wideSlot.railSlot 40 wideInput).rail 40).slot + 1) * wideSlot.slotS 40 + 1 at late
  rw [before, offset, slot, width] at late
  omega

end Sys2Proof.Machine

/-!
Settles O28: how a rail starts, passes its check or fails it (R92 to R96). Before it, what the steps of one rail leave of every other: a rail's
followers start, ramp and stop with it, each through its own registers and its own record.
-/
namespace Sys2Proof.Machine

/-! ## The steps of one rail, seen from another -/

/-- A reading that the registers and the record of rail `r` do not move. -/
structure RailBlind {α : Type} (g : State → α) (r : Nat) : Prop where
  put : ∀ s (a : FieldRef) v, a.i = r → g (s.put a v) = g s
  upd : ∀ s h, g (s.updRail r h) = g s

theorem railBlind_rail {q r : Nat} (h : q ≠ r) : RailBlind (fun t : State => t.rail q) r where
  put s a v _ := congrArg (Store.get RailState.init · q) (s.put_rails a v)
  upd s f := (s.rail_updRail r f q).trans (if_neg (Ne.symm h))

theorem railBlind_rd {q r : Nat} (h : q ≠ r) (f : Field) (j : Nat) : RailBlind (fun t : State => t.rd f q j) r where
  put s a v ha := State.reg_put_other s v (by rintro rfl; exact h ha)
  upd s x := s.rd_updRail r x f q j

theorem railBlind_now (r : Nat) : RailBlind (fun t : State => t.now) r := ⟨fun s a v _ => s.put_now a v, fun _ _ => rfl⟩

section RailBlind
variable {α : Type} {g : State → α} {r : Nat} (hg : RailBlind g r)
include hg

theorem RailBlind.wr (s : State) (f : Field) (v j : Nat) : g (s.wr f v r j) = g s := hg.put s ⟨f, r, j⟩ v rfl

theorem State.takeHeld_rail (s : State) : g (s.takeHeld r) = g s := by
  unfold State.takeHeld
  dsimp only
  rw [hg.upd]
  split <;> split <;> simp only [hg.wr]

theorem State.takeComp_rail (s : State) : g (s.takeComp r) = g s := by
  have puts (t : State) (fs : List (Field × Nat)) : g (t.puts (fs.map fun x => (⟨x.1, r, 0⟩, x.2))) = g t := by
    induction fs generalizing t with
    | nil => rfl
    | cons e l ih => exact (ih _).trans (hg.wr t e.1 e.2 0)
  unfold State.takeComp
  split
  · rfl
  · rw [hg.upd, puts]

theorem State.railTo_rail (s : State) (st : Nat) : g (s.railTo r st) = g s := by
  rw [State.railTo, hg.upd, hg.wr, hg.wr]

theorem State.railQuiet_rail (s : State) (st : Nat) : g (s.railQuiet r st) = g s := by
  rw [State.railQuiet, hg.upd, State.noPhases, each_blind _ _ fun t p => hg.wr t _ _ p, State.railTo_rail hg, s.takeComp_rail hg]

theorem State.enterCheck_rail (s : State) : g (s.enterCheck r) = g s := by
  rw [State.enterCheck, hg.upd, State.railQuiet_rail hg, s.takeHeld_rail hg]

theorem State.startFollower_rail (s : State) : g (s.startFollower r) = g s := by
  unfold State.startFollower
  split
  · exact s.enterCheck_rail hg
  · exact hg.wr _ _ _ _

theorem State.setPhase_rail (s : State) (p : Nat) (on : Bool) : g (s.setPhase r p on) = g s := by
  unfold State.setPhase
  split
  · rfl
  · rw [State.disturb, hg.upd, hg.wr]

theorem State.allPhases_rail (s : State) : g (s.allPhases r) = g s :=
  (hg.upd _ _).trans (each_blind _ _ (fun t p => t.setPhase_rail hg p true) s)

theorem State.enterRamp_rail (s : State) : g (s.enterRamp r) = g s := by
  rw [State.enterRamp, hg.upd, State.allPhases_rail hg, hg.wr, hg.wr, s.railTo_rail hg]

end RailBlind

/-- Steps of other rails one after the other leave what is read of this one. -/
theorem State.each_otherRail {α : Type} {g : State → α} {q : Nat} {f : State → Nat → State} {l : List Nat} (other : ∀ r ∈ l, r ≠ q)
    (step : ∀ s r, r ≠ q → g (f s r) = g s) (s : State) : g (s.each l f) = g s := by
  unfold State.each
  induction l generalizing s with
  | nil => rfl
  | cons r l ih =>
    exact (ih (fun x hx => other x (List.mem_cons_of_mem _ hx)) _).trans (step s r (other r List.mem_cons_self))

/-! ## Readings of the rail itself -/

theorem statusField_exists {r : Nat} (h : (railType r).isSome = true) : (⟨.rgcStatusState, r, 0⟩ : FieldRef).exists = true := by
  have bound : r < 64 := by
    by_contra hr
    simp [railType, show ¬ r < 32 by omega, show ¬ r < 48 by omega, show ¬ r < 52 by omega, show ¬ r < 54 by omega, show ¬ r < 56 by omega,
      show ¬ r < 60 by omega] at h
  have one : Field.instances .rgcStatusState = 64 := rfl
  have all : (fieldDef .rgcStatusState).count = 1 := rfl
  have blk : (fieldDef .rgcStatusState).blk = .rgc := rfl
  simp [FieldRef.exists, one, all, blk, h, bound]

/-- Only a rail channel that exists has a state other than OFF. -/
theorem statusField_exists_of_state {s : State} {r st : Nat} (h : s.railSt r = st) (hst : st ≠ railOff) :
    (⟨.rgcStatusState, r, 0⟩ : FieldRef).exists = true := by
  by_contra he
  exact hst (h.symm.trans (s.reg_absent (Bool.eq_false_iff.2 he)))

theorem State.railSt_enterRamp (s : State) {r : Nat} (he : (⟨.rgcStatusState, r, 0⟩ : FieldRef).exists = true) :
    (s.enterRamp r).railSt r = railRamp := by
  have all (t : State) : (t.allPhases r).railSt r = t.railSt r := by
    refine (State.rd_updRail _ _ _ _ _ _).trans (each_blind (g := fun t : State => t.railSt r) _ _ (fun m p => ?_) t)
    unfold State.setPhase
    split
    · rfl
    · exact (State.rd_updRail _ _ _ _ _ _).trans (m.rd_wr_field _ _ _ _ _ (by decide))
  rw [State.enterRamp, State.railSt, State.rd_updRail]
  refine (all _).trans ?_
  rw [State.railSt, State.rd_wr_field _ _ _ _ _ _ (by decide), State.rd_wr_field _ _ _ _ _ _ (by decide)]
  exact s.railSt_railTo he (by decide)

/-- What entry into RAMP keeps of the record of its rail: all that only samples and the check write. -/
theorem State.rail_allPhases {α : Type} (g : RailState → α) (dist : ∀ x, g { x with disturbed := true } = g x) (low : ∀ x, g { x with low := 0 } = g x)
    (s : State) (r : Nat) : g ((s.allPhases r).rail r) = g (s.rail r) := by
  rw [State.allPhases, State.rail_updRail, if_pos rfl, low]
  refine each_blind (g := fun t : State => g (t.rail r)) _ _ (fun m p => ?_) s
  unfold State.setPhase
  split
  · rfl
  · rw [State.disturb, State.rail_updRail, if_pos rfl, dist, State.rail, State.wr_rails]
    rfl

theorem State.offs_enterRamp (s : State) (r : Nat) : ((s.enterRamp r).rail r).offs = (s.rail r).offs := by
  rw [State.enterRamp, State.rail_updRail, if_pos rfl]
  refine (State.rail_allPhases RailState.offs (fun _ => rfl) (fun _ => rfl) _ r).trans ?_
  rw [State.rail, State.wr_rails, State.wr_rails]
  exact congrArg RailState.offs ((State.rail_updRail _ _ _ _).trans (if_pos rfl)) |>.trans (by rw [State.rail, State.wr_rails, State.wr_rails]; rfl)

theorem State.vref_enterRamp (s : State) (r : Nat) : ((s.enterRamp r).rail r).vref = (s.rail r).vs := by
  have sensed : ((((s.railTo r railRamp).wr .rgcStaggerOffs (s.staggerTgt r) r).wr .rgcStaggerTgt (s.staggerTgt r) r).allPhases r |>.rail r).vs =
      (s.rail r).vs := by
    refine (State.rail_allPhases RailState.vs (fun _ => rfl) (fun _ => rfl) _ r).trans ?_
    rw [State.rail, State.wr_rails, State.wr_rails]
    exact congrArg RailState.vs ((State.rail_updRail _ _ _ _).trans (if_pos rfl)) |>.trans (by rw [State.rail, State.wr_rails, State.wr_rails]; rfl)
  rw [State.enterRamp, State.rail_updRail, if_pos rfl]
  exact congrArg Nat.cast sensed

/-! ## A rail that starts (R93, R97) -/

theorem State.leader_wr (s : State) (r x : Nat) {f : Field} (v : Nat) (hm : f ≠ .rgcSeqMode) (hl : f ≠ .rgcSeqLeader) :
    (s.wr f v r).leader x = s.leader x := by
  simp only [State.leader, State.rd_wr_field _ _ _ _ _ _ hm, State.rd_wr_field _ _ _ _ _ _ hl]

theorem State.leadersOk_wr (s : State) (r q n x : Nat) {f : Field} (v : Nat) (hm : f ≠ .rgcSeqMode) (hl : f ≠ .rgcSeqLeader) :
    (s.wr f v r).leadersOk q n x = s.leadersOk q n x := by
  induction n generalizing x with
  | zero => rfl
  | succ n ih => simp only [State.leadersOk, s.leader_wr r x v hm hl, ih]

/-- A rail that may start goes through CHECK, and only other rails start with it. -/
theorem State.startRail_checks {s : State} {r : Nat} (off : s.railSt r = railOff) (en : s.flag .rgcCfgEn r = true) (lives : s.railLives r = true)
    (ok : s.leadersOk r 4 r = true) (led : ∀ l, s.leader r = some l → s.railSt l ≠ railOff) :
    ∃ l, (∀ f ∈ l, f ≠ r) ∧ s.startRail r = (s.enterCheck r).each l State.startFollower := by
  refine ⟨(s.family r).filter fun f => decide (f ≠ r) && s.railSt f = railOff && s.flag .rgcCfgEn f, fun f hf => ?_, ?_⟩
  · simp only [List.mem_filter, Bool.and_eq_true, decide_eq_true_eq] at hf
    exact hf.2.1.1
  · unfold State.startRail
    simp only [off, en, lives, ok]
    cases hl : s.leader r with
    | none => rfl
    | some l =>
      simp only [led l hl, decide_false]
      rfl

theorem State.startRail_waits {s : State} {r l : Nat} (off : s.railSt r = railOff) (en : s.flag .rgcCfgEn r = true) (lives : s.railLives r = true)
    (ok : s.leadersOk r 4 r = true) (hl : s.leader r = some l) (led : s.railSt l = railOff) : s.startRail r = s := by
  unfold State.startRail
  simp only [off, en, lives, ok, hl, led]
  rfl

theorem State.startRail_broken {s : State} {r : Nat} (off : s.railSt r = railOff) (en : s.flag .rgcCfgEn r = true) (lives : s.railLives r = true)
    (ok : s.leadersOk r 4 r = false) : s.startRail r = s.wr .rgcStatusSeqerr 1 r := by
  unfold State.startRail
  simp only [off, en, lives, ok]
  rfl

theorem exec_railEnable {s : State} {r : Rail} (hs : s.aon = true) (kind : (railType r.val).isSome = true) :
    exec (.railEnable r) s = .next (s.commit ((s.wr .rgcCfgEn 1 r.val).startRail r.val)) := by
  change execRailEnable r s = _
  rw [execRailEnable, State.run_on _ hs]
  simp only [kind, if_true]

section Enabled
variable {s : State} {r : Nat} (kind : (railType r).isSome = true)
include kind

theorem cfgEn_exists : (⟨.rgcCfgEn, r, 0⟩ : FieldRef).exists = true := statusField_exists kind

theorem State.en_enabled (s : State) : (s.wr .rgcCfgEn 1 r).flag .rgcCfgEn r = true :=
  decide_eq_true (s.rd_wr_same .rgcCfgEn 1 r 0 (cfgEn_exists kind))

end Enabled

theorem State.railSt_enabled (s : State) (r q : Nat) : (s.wr .rgcCfgEn 1 r).railSt q = s.railSt q := s.rd_wr_field _ _ _ _ _ (by decide)

theorem State.en_startRail (s : State) (r : Nat) (j : Nat) : (s.startRail r).rd .rgcCfgEn r j = s.rd .rgcCfgEn r j :=
  s.rd_startRail r _ _ (by decide) (by decide)

/-- The rail that has entered CHECK stands there, whatever its followers do. -/
theorem State.check_started (s : State) {r : Nat} {l : List Nat} (he : (⟨.rgcStatusState, r, 0⟩ : FieldRef).exists = true) (hl : ∀ f ∈ l, f ≠ r) :
    ((s.enterCheck r).each l State.startFollower).railSt r = railCheck ∧ (((s.enterCheck r).each l State.startFollower).rail r).chk = 0 := by
  constructor
  · exact (State.each_otherRail (g := fun t : State => t.railSt r) hl
      (fun t f hf => t.startFollower_rail (railBlind_rd (Ne.symm hf) .rgcStatusState 0)) _).trans (s.railSt_enterCheck he)
  · rw [State.each_otherRail (g := fun t : State => t.rail r) hl (fun t f hf => t.startFollower_rail (railBlind_rail (Ne.symm hf))) _]
    exact s.chk_enterCheck r

/-! ## A rail that is SHORT (R94) -/

theorem State.leaveReg_of_ne {s : State} {r : Nat} (h : s.railSt r ≠ railReg) : s.leaveReg r = s := by
  unfold State.leaveReg
  simp [h]

theorem State.takenWith_of_ne {s : State} {r : Nat} (h : s.railSt r ≠ railReg) : s.takenWith r = [r] := if_neg h

/-- A rail outside REG before its fault is raised, with all off and SHORT shown. -/
def State.shortShown (s : State) (r : Nat) : State := (s.railQuiet r railShort).wr .rgcStatusShort 1 r

theorem State.railShorted_eq {s : State} {r : Nat} (h : s.railSt r ≠ railReg) :
    s.railShorted r = (s.shortShown r).raise (fatalFault 7 3 (railUnit r) 8) := by
  have one : (s.each (s.takenWith r) fun t x => (t.leaveReg x).railQuiet x railShort) = s.railQuiet r railShort := by
    rw [State.takenWith_of_ne h]
    exact congrArg (fun t : State => t.railQuiet r railShort) (State.leaveReg_of_ne h)
  rw [State.railShorted, one]
  rfl

theorem State.fatal_raise {x : FaultRec} (hx : x.cls = .fatal) (s : State) : (s.raise x).flag .fltStatusFatal = true := by
  rw [State.raise_fatal s hx]
  exact State.fatal_failsafe _ _ _

/-- A rail that is SHORT stays so: its state, its flag, and the FATAL latch. -/
structure Shorted (t : State) (r : Nat) : Prop where
  state : t.railSt r = railShort
  shown : t.flag .rgcStatusShort r = true
  fatal : t.flag .fltStatusFatal = true

theorem State.railShorted_shorted {s : State} {r : Nat} (h : s.railSt r = railCheck) : Shorted (s.railShorted r) r := by
  have he := statusField_exists_of_state h (by decide)
  rw [State.railShorted_eq (by rw [h]; decide)]
  refine ⟨?_, ?_, State.fatal_raise rfl _⟩
  · rw [State.railSt, rd_raise_any _ _ _ _ _ rfl, State.shortShown, State.rd_wr_field _ _ _ _ _ _ (by decide)]
    exact s.railSt_railQuiet he (by decide)
  · rw [State.flag, rd_raise_any _ _ _ _ _ rfl]
    exact decide_eq_true (State.rd_wr_same _ .rgcStatusShort 1 r 0 he)

theorem Shorted.commit {n : State} {r : Nat} (h : Shorted n r) (s : State) : Shorted (s.commit n) r where
  state := (State.rd_commit _ _ _ _ _ rfl).trans h.state
  shown := (congrArg (fun n => decide (n = 1)) (State.rd_commit _ _ _ _ _ rfl)).trans h.shown
  fatal := (congrArg (fun n => decide (n = 1)) (State.rd_commit _ _ _ _ _ rfl)).trans h.fatal

theorem State.now_railShorted {s : State} {r : Nat} (h : s.railSt r = railCheck) : (s.railShorted r).now = s.now := by
  rw [State.railShorted_eq (by rw [h]; decide), raise_latch latch_now]
  exact (State.put_now _ _ _).trans (State.railQuiet_rail (railBlind_now r) s _)

/-! ## The steps of a check -/

theorem State.inCheck_at {s : State} {r step : Nat} (h : s.railSt r = railCheck) (hc : (s.rail r).chk = step) (f : State → State) :
    s.inCheck r step f = f s := by
  unfold State.inCheck
  simp [h, hc]

theorem State.railSt_advanceTo (s : State) (t r : Nat) : (s.advanceTo t).railSt r = s.railSt r := s.rd_advanceTo t _ _ (by decide)

theorem State.rail_advanceTo (s : State) (t r : Nat) : (s.advanceTo t).rail r = s.rail r := (s.sameTabs_advanceTo t) .rails (by simp) r

/-- A change of a rail's record changes no other table. -/
theorem State.sameTabs_updRail {s n : State} (h : s.sameTabsBut n [.rails]) (r : Nat) (f : RailState → RailState) :
    s.sameTabsBut (n.updRail r f) [.rails] := by
  intro x hx
  have same := h x hx
  cases x with
  | rails => exact absurd List.mem_cons_self hx
  | _ => exact same

/-- The rail after its window, with the offsets stored and the sense taken. -/
def State.windowTaken (s : State) (r : Nat) (win : WindowRead) : State :=
  (s.advanceTo ((s.rail r).since + 200000)).updRail r fun x =>
    { x with vs := win.vsense, offs := ((win.offs ++ [0, 0, 0, 0]).take 4).map fun (n : Int) => (n : Rat) }

theorem State.rd_windowTaken (s : State) (r : Nat) (win : WindowRead) {f : Field} (i j : Nat) (h : f ∉ timeFields) :
    (s.windowTaken r win).rd f i j = s.rd f i j := (State.rd_updRail _ _ _ _ _ _).trans (s.rd_advanceTo _ i j h)

theorem State.waitsLeader_windowTaken (s : State) (r : Nat) (win : WindowRead) : (s.windowTaken r win).waitsLeader r = s.waitsLeader r := by
  have leader : (s.windowTaken r win).leader r = s.leader r := by
    rw [State.leader, State.leader, s.rd_windowTaken r win _ _ (by decide), s.rd_windowTaken r win _ _ (by decide)]
  have state (l : Nat) : (s.windowTaken r win).railSt l = s.railSt l := s.rd_windowTaken r win _ _ (by decide)
  unfold State.waitsLeader
  rw [leader]
  cases s.leader r with
  | none => rfl
  | some l => simp only [State.railOn, state]

/-- A follower that has waited for its leader. -/
def State.rampFollower (s : State) (f : Nat) : State :=
  if s.railSt f = railCheck && decide ((s.rail f).chk = 3) && !s.waitsLeader f then s.enterRamp f else s

theorem State.rampFollower_rail {α : Type} {g : State → α} {r : Nat} (hg : RailBlind g r) (s : State) : g (s.rampFollower r) = g s := by
  unfold State.rampFollower
  split
  · exact s.enterRamp_rail hg
  · rfl

/-- A rail that has passed its check and waits for none is in RAMP, whatever of its followers ramps with it. -/
theorem State.passCheck_keeps {α : Type} {g : State → α} {s : State} {r : Nat} (h : s.waitsLeader r = false)
    (other : ∀ q, q ≠ r → RailBlind g q) : g (s.passCheck r) = g (s.enterRamp r) := by
  rw [State.passCheck, if_neg (by rw [h]; exact Bool.false_ne_true)]
  refine State.each_otherRail (f := State.rampFollower) (q := r) (fun f hf => ?_) (fun t f hf => t.rampFollower_rail (other f hf)) _
  simp only [List.mem_filter, decide_eq_true_eq] at hf
  exact hf.2

theorem State.passCheck_waits {s : State} {r : Nat} (h : s.waitsLeader r = true) :
    s.passCheck r = s.updRail r fun x => { x with chk := 3 } := if_pos h

theorem State.now_passCheck (s : State) (r : Nat) : (s.passCheck r).now = s.now := by
  cases h : s.waitsLeader r with
  | false => rw [State.passCheck_keeps (g := State.now) h fun q _ => railBlind_now q, State.enterRamp_rail (railBlind_now r)]
  | true => rw [State.passCheck_waits h]; rfl

theorem exec_checkWindowEnd {s : State} {r : Rail} (win : WindowRead) (hs : s.aon = true) (h : s.railSt r.val = railCheck)
    (hc : (s.rail r.val).chk = 2) :
    exec (.checkWindowEnd r win) s = .next (s.commit
      (if 500 < win.vsense then (s.advanceTo ((s.rail r.val).since + 200000)).railShorted r.val else (s.windowTaken r.val win).passCheck r.val)) := by
  change execCheckWindowEnd r win s = _
  rw [execCheckWindowEnd, State.run_on _ hs, State.inCheck_at h hc]
  rfl

/-- A rail whose start has failed for want of an input, before the fault is raised (R93). -/
def State.noInput (s : State) (r : Nat) : State :=
  ((s.advanceTo ((s.rail r).since + 10000000)).railQuiet r railOff).wr .rgcStatusNoinput 1 r

theorem exec_checkInputTimeout {s : State} {r : Rail} (hs : s.aon = true) (h : s.railSt r.val = railCheck) (hc : (s.rail r.val).chk = 0) :
    exec (.checkInputTimeout r) s = .next (s.commit ((s.noInput r.val).raise (inputFault r.val))) := by
  change execCheckInputTimeout r s = _
  rw [execCheckInputTimeout, State.run_on _ hs, State.inCheck_at h hc]
  rfl

/-- The start of a rail as the obligation asks for it, by what its chain of leaders shows. -/
theorem railEnable_outcomes (s : State) (r : Rail) (hs : s.aon = true) (kind : (railType r.val).isSome = true) (off : s.railSt r.val = railOff)
    (lives : s.railLives r.val = true) :
    (s.leadersOk r.val 4 r.val = true →
      ((∀ l, s.leader r.val = some l → s.railSt l ≠ railOff) →
        ∃ t, exec (.railEnable r) s = .next t ∧ t.flag .rgcCfgEn r.val = true ∧ t.railSt r.val = railCheck ∧ (t.rail r.val).chk = 0) ∧
      (∀ l, s.leader r.val = some l → s.railSt l = railOff →
        ∃ t, exec (.railEnable r) s = .next t ∧ t.flag .rgcCfgEn r.val = true ∧ s.onlyChanges t [⟨.rgcCfgEn, r.val, 0⟩] [])) ∧
    (s.leadersOk r.val 4 r.val = false →
      ∃ t, exec (.railEnable r) s = .next t ∧ t.flag .rgcCfgEn r.val = true ∧ t.flag .rgcStatusSeqerr r.val = true ∧
        s.onlyChanges t [⟨.rgcCfgEn, r.val, 0⟩, ⟨.rgcStatusSeqerr, r.val, 0⟩] []) := by
  have leader := s.leader_wr r.val r.val 1 (show Field.rgcCfgEn ≠ .rgcSeqMode by decide) (by decide)
  have chain := s.leadersOk_wr r.val r.val 4 r.val 1 (show Field.rgcCfgEn ≠ .rgcSeqMode by decide) (by decide)
  have off' : (s.wr .rgcCfgEn 1 r.val).railSt r.val = railOff := (s.railSt_enabled _ _).trans off
  have lives' : (s.wr .rgcCfgEn 1 r.val).railLives r.val = true := by
    simp only [State.railLives, State.die, State.wr_dies] at lives ⊢
    exact lives
  have en := State.en_enabled kind s
  have shown : (s.commit ((s.wr .rgcCfgEn 1 r.val).startRail r.val)).flag .rgcCfgEn r.val = true := by
    rw [State.flag, State.rd_commit _ _ _ _ _ rfl, State.en_startRail]
    exact en
  refine ⟨fun ok => ⟨fun led => ?_, fun l hl led => ?_⟩, fun ok => ?_⟩
  · obtain ⟨l, hl, start⟩ := State.startRail_checks off' en lives' (chain.trans ok) fun l hl => by
      rw [State.railSt_enabled]; exact led l (leader.symm.trans hl)
    obtain ⟨state, chk⟩ := State.check_started (s.wr .rgcCfgEn 1 r.val) (statusField_exists kind) hl
    refine ⟨_, exec_railEnable hs kind, shown, ?_, ?_⟩
    · exact (State.rd_commit _ _ _ _ _ rfl).trans (by rw [start]; exact state)
    · rw [State.rail_commit, start]; exact chk
  · have start := State.startRail_waits off' en lives' (chain.trans ok) (leader.trans hl) ((s.railSt_enabled _ _).trans led)
    refine ⟨_, exec_railEnable hs kind, shown, ?_⟩
    rw [start]
    exact State.onlyChanges_commit (State.onlyChanges_wr (s.onlyChanges_refl _ _) _ _ _ _ List.mem_cons_self)
  · have start := State.startRail_broken off' en lives' (chain.trans ok)
    refine ⟨_, exec_railEnable hs kind, shown, ?_, ?_⟩
    · rw [State.flag, State.rd_commit _ _ _ _ _ rfl, start]
      exact decide_eq_true (State.rd_wr_same _ .rgcStatusSeqerr 1 r.val 0 (statusField_exists kind))
    · rw [start]
      exact State.onlyChanges_commit (State.onlyChanges_wr (State.onlyChanges_wr (s.onlyChanges_refl _ _) _ _ _ _ List.mem_cons_self) _ _ _ _
        (List.mem_cons_of_mem _ List.mem_cons_self))

/-- A step of a check that moves the record of the rail alone. -/
theorem rail_step (s : State) (r : Nat) (f : RailState → RailState) :
    (s.commit (s.updRail r f)).rail r = f (s.rail r) ∧ s.onlyChanges (s.commit (s.updRail r f)) [] [.rails] ∧
      ∀ q, q ≠ r → (s.commit (s.updRail r f)).rail q = s.rail q := by
  refine ⟨?_, State.onlyChanges_commit (State.onlyChanges_rails (s.onlyChanges_refl _ _) _ List.mem_cons_self), fun q hq => ?_⟩
  · rw [State.rail_commit, State.rail_updRail, if_pos rfl]
  · rw [State.rail_commit, State.rail_updRail, if_neg (Ne.symm hq)]

theorem exec_checkInputPresent {s : State} {r : Rail} (hs : s.aon = true) (h : s.railSt r.val = railCheck) (hc : (s.rail r.val).chk = 0) :
    exec (.checkInputPresent r) s = .next (s.commit (s.updRail r.val fun x => { x with chk := 1, since := s.now })) := by
  change execCheckInputPresent r s = _
  rw [execCheckInputPresent, State.run_on _ hs, State.inCheck_at h hc]

theorem exec_checkDecayed {s : State} {r : Rail} (hs : s.aon = true) (h : s.railSt r.val = railCheck) (hc : (s.rail r.val).chk = 1) :
    exec (.checkDecayed r) s = .next (s.commit (s.updRail r.val fun x => { x with chk := 2, since := s.now })) := by
  change execCheckDecayed r s = _
  rw [execCheckDecayed, State.run_on _ hs, State.inCheck_at h hc]

/-- A rail that has passed its check and waits for its leader: only its record has changed, and the time. -/
theorem State.windowTaken_waiting (s : State) (r : Nat) (win : WindowRead) :
    let t := s.commit ((s.windowTaken r win).updRail r fun x => { x with chk := 3 })
    t.railSt r = s.railSt r ∧ (t.rail r).chk = 3 ∧ s.sameTabsBut t [.rails] ∧ ∀ q, q ≠ r → t.rail q = s.rail q := by
  refine ⟨?_, ?_, State.sameTabs_commit fun x hx => ?_, fun q hq => ?_⟩
  · rw [State.railSt, State.rd_commit _ _ _ _ _ rfl, State.rd_updRail, s.rd_windowTaken r win _ _ (by decide)]
    rfl
  · rw [State.rail_commit, State.rail_updRail, if_pos rfl]
  · exact State.sameTabs_updRail (State.sameTabs_updRail (fun x _ => s.sameTabs_advanceTo _ x List.not_mem_nil) _ _) _ _ x hx
  · rw [State.rail_commit, State.rail_updRail, if_neg (Ne.symm hq), State.windowTaken, State.rail_updRail, if_neg (Ne.symm hq),
      State.rail_advanceTo]

/-- The end of the window, by what the output then reads. -/
theorem checkWindowEnd_outcomes (s : State) (r : Rail) (win : WindowRead) (hs : s.aon = true) (check : s.railSt r.val = railCheck)
    (hc : (s.rail r.val).chk = 2) :
    ∃ t, exec (.checkWindowEnd r win) s = .next t ∧ (s.rail r.val).since + 200000 ≤ t.now ∧
      (win.vsense ≤ 500 →
        (t.rail r.val).offs = ((win.offs ++ [0, 0, 0, 0]).take 4).map (fun (n : Int) => (n : Rat)) ∧
        (s.waitsLeader r.val = false → t.railSt r.val = railRamp ∧ (t.rail r.val).vref = (win.vsense : Rat)) ∧
        (s.waitsLeader r.val = true → t.railSt r.val = railCheck ∧ (t.rail r.val).chk = 3 ∧ s.sameTabsBut t [.rails] ∧
          ∀ q, q ≠ r.val → t.rail q = s.rail q)) ∧
      (500 < win.vsense → t.railSt r.val = railShort ∧ t.flag .rgcStatusShort r.val = true ∧ t.flag .fltStatusFatal = true) := by
  have he := statusField_exists_of_state check (by decide)
  have check' : (s.advanceTo ((s.rail r.val).since + 200000)).railSt r.val = railCheck := (s.railSt_advanceTo _ _).trans check
  have taken : (s.windowTaken r.val win).rail r.val =
      { s.rail r.val with vs := win.vsense, offs := ((win.offs ++ [0, 0, 0, 0]).take 4).map fun (n : Int) => (n : Rat) } := by
    rw [State.windowTaken, State.rail_updRail, if_pos rfl, State.rail_advanceTo]
  have waits := s.waitsLeader_windowTaken r.val win
  refine ⟨_, exec_checkWindowEnd win hs check hc, ?_, fun low => ?_, fun high => ?_⟩
  · rw [State.commit_now]
    split
    · rw [State.now_railShorted check', State.advanceTo_now]; omega
    · have now : (s.windowTaken r.val win).now = max s.now ((s.rail r.val).since + 200000) :=
        ((railBlind_now r.val).upd _ _).trans (s.advanceTo_now _)
      rw [State.now_passCheck, now]; omega
  · rw [if_neg (by omega)]
    refine ⟨?_, fun free => ?_, fun wait => ?_⟩
    · rw [State.rail_commit]
      cases hw : s.waitsLeader r.val with
      | false =>
        rw [State.passCheck_keeps (g := fun t : State => t.rail r.val) (waits.trans hw) fun q hq => railBlind_rail (Ne.symm hq),
          State.offs_enterRamp, taken]
      | true => rw [State.passCheck_waits (waits.trans hw), State.rail_updRail, if_pos rfl, taken]
    · constructor
      · rw [State.railSt, State.rd_commit _ _ _ _ _ rfl]
        exact (State.passCheck_keeps (g := fun t : State => t.railSt r.val) (waits.trans free)
          fun q hq => railBlind_rd (Ne.symm hq) .rgcStatusState 0).trans (State.railSt_enterRamp _ he)
      · rw [State.rail_commit, State.passCheck_keeps (g := fun t : State => t.rail r.val) (waits.trans free)
          fun q hq => railBlind_rail (Ne.symm hq), State.vref_enterRamp, taken]
    · rw [State.passCheck_waits (waits.trans wait)]
      obtain ⟨state, chk, tabs, others⟩ := s.windowTaken_waiting r.val win
      exact ⟨state.trans check, chk, tabs, others⟩
  · rw [if_pos high]
    obtain ⟨state, shown, fatal⟩ := (State.railShorted_shorted check').commit s
    exact ⟨state, shown, fatal⟩

/-- Settles O28: the start is the inversion of `startRail`, and each later step moves the record of the rail alone until the check passes or
fails; what its followers do is no reading of the rail. -/
theorem railStartsAndChecks : Obligations.RailStartsAndChecks := by
  refine ⟨fun s r win hs kind => ⟨fun off lives ok => ((railEnable_outcomes s r hs kind off lives).1 ok),
    fun off lives ok => (railEnable_outcomes s r hs kind off lives).2 ok, fun check hc => ?_, fun check hc => ?_,
    fun check hc => checkWindowEnd_outcomes s r win hs check hc⟩, fun s r hs check => ⟨fun hc => ?_, fun hc => ?_, fun hc => ?_⟩⟩
  · obtain ⟨rail, only, others⟩ := rail_step s r.val fun x => { x with chk := 1, since := s.now }
    exact ⟨_, exec_checkInputPresent hs check hc, by rw [rail], by rw [rail], only, others⟩
  · obtain ⟨rail, only, others⟩ := rail_step s r.val fun x => { x with chk := 2, since := s.now }
    exact ⟨_, exec_checkDecayed hs check hc, by rw [rail], by rw [rail], only, others⟩
  · have he := statusField_exists_of_state check (by decide)
    have raised (f : Field) (hf : latchField f = false) (hl : f.isLimit = false) :
        (s.commit ((s.noInput r.val).raise (inputFault r.val))).rd f r.val = (s.noInput r.val).rd f r.val := by
      rw [State.rd_commit _ _ _ _ _ hl, rd_raise_any _ _ _ _ _ hf]
    refine ⟨_, exec_checkInputTimeout hs check hc, ?_, ?_, ?_, ?_⟩
    · refine (raised .rgcStatusState rfl rfl).trans ?_
      rw [State.noInput, State.rd_wr_field _ _ _ _ _ _ (by decide)]
      exact State.railSt_railQuiet _ he (by decide)
    · exact decide_eq_true ((raised .rgcStatusNoinput rfl rfl).trans (State.rd_wr_same _ .rgcStatusNoinput 1 r.val 0 he))
    · have now : (s.noInput r.val).now = max s.now ((s.rail r.val).since + 10000000) :=
        (State.put_now _ _ _).trans ((State.railQuiet_rail (railBlind_now r.val) _ _).trans (s.advanceTo_now _))
      rw [State.commit_now, raise_latch latch_now, now]; omega
    · rw [State.rd_commit _ _ _ _ _ rfl, State.fltCont_raise_contained _ rfl, State.oneUp, State.noInput,
        State.rd_wr_field _ _ _ _ _ _ (by decide), State.rd_railQuiet _ _ _ _ _ (by decide), State.rd_advanceTo _ _ _ _ (by decide)]
  · have check' : (s.advanceTo ((s.rail r.val).since + 20000000)).railSt r.val = railCheck := (s.railSt_advanceTo _ _).trans check
    have ran : exec (.checkDecayTimeout r) s =
        .next (s.commit ((s.advanceTo ((s.rail r.val).since + 20000000)).railShorted r.val)) := by
      change execCheckDecayTimeout r s = _
      rw [execCheckDecayTimeout, State.run_on _ hs, State.inCheck_at check hc]
    obtain ⟨state, shown, fatal⟩ := (State.railShorted_shorted check').commit s
    refine ⟨_, ran, state, shown, fatal, ?_⟩
    rw [State.commit_now, State.now_railShorted check', State.advanceTo_now]; omega
  · have ran : exec (.shortInWindow r) s = .next (s.commit (s.railShorted r.val)) := by
      change execShortInWindow r s = _
      rw [execShortInWindow, State.run_on _ hs, State.inCheck_at check hc]
    obtain ⟨state, shown, fatal⟩ := (State.railShorted_shorted check).commit s
    exact ⟨_, ran, state, shown, fatal⟩

end Sys2Proof.Machine

/-!
Settles O29: a rail in trouble takes its followers with it, counts, and latches at CONSEC 4 (R100 to R103), and a rail is stopped, ends its
ramp down, its hiccup, and its count of consecutive hiccups (R97, R101, R103, R105).
-/
namespace Sys2Proof.Machine

/-! ## The family of a rail -/

theorem distinct_nodup (l : List Nat) : (distinct l).Nodup := by
  induction l with
  | nil => exact List.nodup_nil
  | cons x l ih => exact List.nodup_cons.2 ⟨by simp, ih.filter _⟩

theorem mem_distinct {x : Nat} (l : List Nat) : x ∈ distinct l ↔ x ∈ l := by
  induction l with
  | nil => rfl
  | cons y l ih =>
    simp only [distinct, List.mem_cons, List.mem_filter, ih, decide_eq_true_eq]
    tauto

theorem State.mem_family (s : State) (r : Nat) : r ∈ s.family r := (mem_distinct _).2 List.mem_cons_self

theorem State.takenWith_nodup (s : State) (r : Nat) : (s.takenWith r).Nodup := by
  unfold State.takenWith
  split
  · exact (distinct_nodup _).filter _
  · exact List.nodup_singleton r

theorem State.mem_takenWith (s : State) (r : Nat) : r ∈ s.takenWith r := by
  unfold State.takenWith
  split
  · exact List.mem_filter.2 ⟨s.mem_family r, by simp⟩
  · exact List.mem_singleton.2 rfl

/-- A rail that follows another stands among the rail channels, whatever is read of one that does not exist. -/
theorem State.follower_exists {s : State} {r f : Nat} (h : f ∈ s.followers r) : (⟨.rgcStatusState, f, 0⟩ : FieldRef).exists = true := by
  simp only [State.followers, List.mem_filter, Bool.and_eq_true, Bool.or_eq_true, decide_eq_true_eq] at h
  by_contra he
  have none : s.rd .rgcSeqMode f = 0 := s.reg_absent (r := ⟨.rgcSeqMode, f, 0⟩) (Bool.eq_false_iff.2 he)
  omega

theorem State.withFollowers_exist {s : State} {n r f : Nat} (he : (⟨.rgcStatusState, r, 0⟩ : FieldRef).exists = true) (h : f ∈ s.withFollowers n r) :
    (⟨.rgcStatusState, f, 0⟩ : FieldRef).exists = true := by
  induction n generalizing r with
  | zero => exact List.mem_singleton.1 h ▸ he
  | succ n ih =>
    rcases List.mem_cons.1 h with rfl | h
    · exact he
    · obtain ⟨x, hx, hf⟩ := List.mem_flatMap.1 h
      exact ih (State.follower_exists hx) hf

theorem State.takenWith_exist {s : State} {r f : Nat} (he : (⟨.rgcStatusState, r, 0⟩ : FieldRef).exists = true) (h : f ∈ s.takenWith r) :
    (⟨.rgcStatusState, f, 0⟩ : FieldRef).exists = true := by
  unfold State.takenWith at h
  split at h
  · exact State.withFollowers_exist he ((mem_distinct _).1 (List.mem_filter.1 h).1)
  · exact List.mem_singleton.1 h ▸ he

/-- What one step of a list reaches, with what it needs kept by the steps before it and what it sets kept by those after it. -/
theorem State.each_once {I P : State → Prop} {f : State → Nat → State} {l : List Nat} {r : Nat} (once : l.Nodup) (hr : r ∈ l)
    (before : ∀ s y, y ≠ r → I s → I (f s y)) (set : ∀ s, I s → P (f s r)) (after : ∀ s y, y ≠ r → P s → P (f s y)) {s : State} (h : I s) :
    P (s.each l f) := by
  induction l generalizing s with
  | nil => exact absurd hr List.not_mem_nil
  | cons y l ih =>
    obtain ⟨out, once⟩ := List.nodup_cons.1 once
    by_cases same : y = r
    · subst same
      have keep (k : List Nat) (hk : y ∉ k) : ∀ m : State, P m → P (m.each k f) := by
        induction k with
        | nil => exact fun m hm => hm
        | cons x k ihk =>
          obtain ⟨hx, hk⟩ := not_or.1 fun h => hk (List.mem_cons.2 h)
          exact fun m hm => ihk hk _ (after m x (Ne.symm hx) hm)
      exact keep l out _ (set s h)
    · exact ih once ((List.mem_cons.1 hr).resolve_left (Ne.symm same)) (before s y same h)

/-! ## What the trouble of a rail leaves -/

/-- A reading that a fault, a lost Cellar part, a die held in reset and its exclusion do not move. -/
structure TroubleBlind {α : Type} (g : State → α) : Prop where
  raise : ∀ s x, g (State.raise s x) = g s
  lard : ∀ s h, g (s.updLard h) = g s
  reset : ∀ s d, g (State.holdReset s d) = g s
  hall : ∀ s d h, g (s.updHd d h) = g s

/-- The fields of a rail that its trouble reaches through the rail alone. -/
theorem trouble_rd (f : Field) (i j : Nat) (hf : latchField f = false) (hc : f ≠ .dagAdmcorePend) (ha : f ≠ .dagAdmstatPend) :
    TroubleBlind fun t : State => t.rd f i j where
  raise s x := rd_raise_any s x f i j hf
  lard _ _ := rfl
  reset s d := (State.rd_updDie _ _ _ _ _ _).trans ((s.onlyChanges_enterReset d).1 ⟨f, i, j⟩ (by simp [pendRefs, Ne.symm hc, ha]))
  hall s d h := rfl

theorem trouble_rail (q : Nat) : TroubleBlind fun t : State => t.rail q where
  raise s x := s.rail_raise x q
  lard _ _ := rfl
  reset s d := (s.onlyChanges_enterReset d).2.1 .rails (by simp) q
  hall _ _ _ := rfl

theorem trouble_now : TroubleBlind fun t : State => t.now := ⟨fun s x => raise_latch latch_now s x, fun _ _ => rfl, fun s d => s.now_holdReset d, fun _ _ _ => rfl⟩

section Trouble
variable {α : Type} {g : State → α} (hg : TroubleBlind g)
include hg

theorem State.leaveReg_trouble (s : State) (r : Nat) : g (s.leaveReg r) = g s := by
  have lose (t : State) (m : Nat) : g (t.loseCellar m) = g t := by
    unfold State.loseCellar
    split
    · exact (hg.raise _ _).trans (hg.lard _ _)
    · rfl
  unfold State.leaveReg
  split
  · exact (lose _ _).trans (lose _ _)
  · rfl

variable {r : Nat} (hr : RailBlind g r)
include hr

theorem State.hiccupOne_other (s : State) (detail : Nat) : g (s.hiccupOne r detail) = g s := by
  rw [State.hiccupOne]
  rw [hg.raise, hr.wr, State.count, hr.wr, each_blind _ _ hg.reset, State.railQuiet_rail hr, s.leaveReg_trouble hg]

theorem State.latchRail_other (s : State) : g (s.latchRail r) = g s := by
  have cut (l : List Nat) (x : FaultRec) : g (((s.railQuiet r railLatched).each l fun s d => s.setExcl d 0 true).raise x) = g s := by
    rw [hg.raise, each_blind (f := fun s d => s.setExcl d 0 true) _ fun t d => hg.hall t d _, State.railQuiet_rail hr]
  unfold State.latchRail
  dsimp only
  split
  · exact cut _ _
  · exact cut _ _
  · rw [hg.raise, State.railQuiet_rail hr]

end Trouble

/-- The dies held in reset stay so whatever is held in reset beside them. -/
theorem State.inReset_holdReset (s : State) (d e : Nat) : ((s.holdReset d).die e).inReset = if d = e then true else (s.die e).inReset := by
  rw [State.holdReset, State.die_updDie]
  split
  · rfl
  · next other =>
    rw [State.die, State.dies_enterReset]
    exact congrArg DieState.inReset ((State.die_updDie _ _ _ _).trans (if_neg other))

/-- A rail in HICCUP before its fault is raised (R101). -/
def State.inHiccup (s : State) (r : Nat) : State :=
  ((s.leaveReg r).railQuiet r railHiccup).each (fedDies r) State.holdReset

/-- CONSEC after a hiccup or a failed start (R103). -/
def State.nextConsec (s : State) (r : Nat) : Nat := min 7 ((if s.consecutive r then s.rd .rgcHiccupConsec r else 0) + 1)

theorem State.hiccupOne_eq (s : State) (r detail : Nat) :
    s.hiccupOne r detail = (((s.inHiccup r).count .rgcHiccupCount 1 r).wr .rgcHiccupConsec (s.nextConsec r) r).raise
      (cont 7 detail (railUnit r) (railScope r) 8) := rfl

theorem State.rd_inHiccup (s : State) (r : Nat) {f : Field} (i j : Nat) (hf : latchField f = false) (hc : f ≠ .dagAdmcorePend)
    (ha : f ≠ .dagAdmstatPend) (hq : f ∉ quietFields) : (s.inHiccup r).rd f i j = s.rd f i j := by
  have hg := trouble_rd f i j hf hc ha
  rw [State.inHiccup, each_blind (g := fun t : State => t.rd f i j) _ _ hg.reset, State.rd_railQuiet _ _ _ _ _ hq]
  exact s.leaveReg_trouble hg r

section OneHiccup
variable (s : State) {r : Nat} (detail : Nat) (he : (⟨.rgcStatusState, r, 0⟩ : FieldRef).exists = true)
include he

theorem State.railSt_hiccupOne : (s.hiccupOne r detail).railSt r = railHiccup := by
  have hg := trouble_rd .rgcStatusState r 0 rfl (by decide) (by decide)
  rw [State.hiccupOne_eq, State.railSt, rd_raise_any _ _ _ _ _ rfl, State.rd_wr_field _ _ _ _ _ _ (by decide), State.count,
    State.rd_wr_field _ _ _ _ _ _ (by decide), State.inHiccup, each_blind (g := fun t : State => t.rd .rgcStatusState r) _ _ hg.reset]
  exact State.railSt_railQuiet _ he (by decide)

theorem State.consec_hiccupOne : (s.hiccupOne r detail).rd .rgcHiccupConsec r = s.nextConsec r := by
  rw [State.hiccupOne_eq, rd_raise_any _ _ _ _ _ rfl, State.rd_wr_same _ .rgcHiccupConsec _ r 0 he]
  exact Nat.mod_eq_of_lt (show s.nextConsec r < 8 from lt_of_le_of_lt (min_le_left _ _) (by decide))

theorem State.count_hiccupOne : (s.hiccupOne r detail).rd .rgcHiccupCount r = s.oneUp .rgcHiccupCount r := by
  rw [State.hiccupOne_eq, rd_raise_any _ _ _ _ _ rfl, State.rd_wr_field _ _ _ _ _ _ (by decide), State.rd_count_same (f := .rgcHiccupCount) _ he, State.oneUp,
    State.rd_inHiccup _ _ _ _ rfl (by decide) (by decide) (by decide), State.oneUp]

end OneHiccup

theorem State.dies_railQuiet (s : State) (r st : Nat) : (s.railQuiet r st).dies = s.dies :=
  State.railQuiet_other (g := State.dies) State.put_dies (fun _ _ => rfl) s r st

theorem State.dies_leaveReg (s : State) (r : Nat) : (s.leaveReg r).dies = s.dies := by
  have lose (t : State) (m : Nat) : (t.loseCellar m).dies = t.dies := by
    unfold State.loseCellar
    split
    · exact raise_latch latch_dies _ _
    · rfl
  unfold State.leaveReg
  split
  · exact (lose _ _).trans (lose _ _)
  · rfl

theorem State.dies_hiccupOne (s : State) (r detail : Nat) : (s.hiccupOne r detail).dies = (s.inHiccup r).dies := by
  rw [State.hiccupOne_eq, raise_latch latch_dies, State.wr_dies, State.count_dies]

theorem State.inReset_inHiccup (s : State) (r d : Nat) (h : (s.die d).inReset = true ∨ d ∈ fedDies r) : ((s.inHiccup r).die d).inReset = true := by
  have keep (t : State) (e : Nat) (ht : (t.die d).inReset = true) : ((t.holdReset e).die d).inReset = true := by
    rw [State.inReset_holdReset]
    split
    · rfl
    · exact ht
  have held : ((s.leaveReg r).railQuiet r railHiccup).die d = s.die d := by
    rw [State.die, State.dies_railQuiet, State.dies_leaveReg]
    rfl
  rcases h with h | h
  · exact State.each_keeps (P := fun t : State => (t.die d).inReset = true) keep _ (by rw [held]; exact h)
  · exact State.each_sets (P := fun t : State => (t.die d).inReset = true) h (fun t => by rw [State.inReset_holdReset, if_pos rfl]) keep _

theorem State.dies_latchRail (s : State) (r : Nat) : (s.latchRail r).dies = s.dies := by
  have cut (l : List Nat) (x : FaultRec) : (((s.railQuiet r railLatched).each l fun s d => s.setExcl d 0 true).raise x).dies = s.dies := by
    rw [raise_latch latch_dies, each_blind (g := State.dies) l (fun s d => s.setExcl d 0 true) fun t d => rfl, State.dies_railQuiet]
  unfold State.latchRail
  dsimp only
  split
  · exact cut _ _
  · exact cut _ _
  · rw [raise_latch latch_dies, State.dies_railQuiet]

theorem State.railSt_latchRail (s : State) {r : Nat} (he : (⟨.rgcStatusState, r, 0⟩ : FieldRef).exists = true) :
    (s.latchRail r).railSt r = railLatched := by
  have quiet := s.railSt_railQuiet he (show railLatched < 8 by decide)
  have hg := trouble_rd .rgcStatusState r 0 rfl (by decide) (by decide)
  have cut (l : List Nat) (x : FaultRec) :
      (((s.railQuiet r railLatched).each l fun s d => s.setExcl d 0 true).raise x).railSt r = railLatched := by
    rw [State.railSt, hg.raise, each_blind (g := fun t : State => t.rd .rgcStatusState r) l (fun s d => s.setExcl d 0 true) fun t d => rfl]
    exact quiet
  unfold State.latchRail
  dsimp only
  split
  · exact cut _ _
  · exact cut _ _
  · rw [State.railSt, hg.raise]
    exact quiet

theorem State.rd_latchRail (s : State) (r : Nat) {f : Field} (i j : Nat) (hf : latchField f = false) (hq : f ∉ quietFields) :
    (s.latchRail r).rd f i j = s.rd f i j := by
  have cut (l : List Nat) (x : FaultRec) :
      (((s.railQuiet r railLatched).each l fun s d => s.setExcl d 0 true).raise x).rd f i j = s.rd f i j := by
    rw [rd_raise_any _ _ _ _ _ hf, each_blind (g := fun t : State => t.rd f i j) l (fun s d => s.setExcl d 0 true) fun t d => rfl,
      State.rd_railQuiet _ _ _ _ _ hq]
  unfold State.latchRail
  dsimp only
  split
  · exact cut _ _
  · exact cut _ _
  · rw [rd_raise_any _ _ _ _ _ hf, State.rd_railQuiet _ _ _ _ _ hq]

/-! ## A rail and the followers that it takes with it (R101, R103) -/

/-- Every rail taken along, in HICCUP. -/
def State.allHiccup (s : State) (r detail : Nat) : State := s.each (s.takenWith r) fun t x => t.hiccupOne x detail

/-- A rail taken along that is LATCHED with its leader, or by its own count. -/
def State.latchCounted (all : Bool) (s : State) (x : Nat) : State :=
  if all || decide (4 ≤ s.rd .rgcHiccupConsec x) then s.latchRail x else s

theorem State.hiccup_eq (s : State) (r detail : Nat) :
    s.hiccup r detail =
      (s.allHiccup r detail).each (s.takenWith r) (State.latchCounted (decide (4 ≤ (s.allHiccup r detail).rd .rgcHiccupConsec r))) := rfl

theorem State.latchCounted_other {α : Type} {g : State → α} (hg : TroubleBlind g) {r : Nat} (hr : RailBlind g r) (all : Bool) (s : State) :
    g (s.latchCounted all r) = g s := by
  unfold State.latchCounted
  split
  · exact s.latchRail_other hg hr
  · rfl

theorem State.rd_latchCounted (s : State) (all : Bool) (x : Nat) {f : Field} (i j : Nat) (hf : latchField f = false) (hq : f ∉ quietFields) :
    (s.latchCounted all x).rd f i j = s.rd f i j := by
  unfold State.latchCounted
  split
  · exact s.rd_latchRail x i j hf hq
  · rfl

theorem State.inReset_latchCounted (s : State) (all : Bool) (x d : Nat) : ((s.latchCounted all x).die d) = s.die d := by
  unfold State.latchCounted
  split
  · rw [State.die, State.dies_latchRail]
    rfl
  · rfl

/-- What one rail reads that decides its hiccup. -/
structure SameTrouble (s t : State) (r : Nat) : Prop where
  rail : t.rail r = s.rail r
  consec : t.rd .rgcHiccupConsec r = s.rd .rgcHiccupConsec r
  count : t.rd .rgcHiccupCount r = s.rd .rgcHiccupCount r
  now : t.now = s.now

/-- What a hiccup has made of one rail. -/
structure Hiccuped (s t : State) (r : Nat) : Prop where
  state : t.railSt r = railHiccup
  consec : t.rd .rgcHiccupConsec r = s.nextConsec r
  count : t.rd .rgcHiccupCount r = s.oneUp .rgcHiccupCount r
  now : t.now = s.now

theorem State.now_hiccupOne (s : State) (r detail : Nat) : (s.hiccupOne r detail).now = s.now :=
  s.hiccupOne_other trouble_now (railBlind_now r) detail

theorem SameTrouble.nextConsec {s t : State} {r : Nat} (h : SameTrouble s t r) : t.nextConsec r = s.nextConsec r := by
  have run : t.consecutive r = s.consecutive r := by
    unfold State.consecutive
    rw [h.rail, h.now]
  rw [State.nextConsec, State.nextConsec, run, h.consec]

section Taken
variable {s : State} {r : Nat} (he : (⟨.rgcStatusState, r, 0⟩ : FieldRef).exists = true)
include he

/-- The rail itself has its hiccup once, and those of its followers are none of its own. -/
theorem State.hiccuped_allHiccup (s : State) (detail : Nat) : Hiccuped s (s.allHiccup r detail) r := by
  have other {y : Nat} (hy : y ≠ r) (f : Field) (hf : latchField f = false) (hc : f ≠ .dagAdmcorePend) (ha : f ≠ .dagAdmstatPend) (t : State) :
      (t.hiccupOne y detail).rd f r = t.rd f r := t.hiccupOne_other (trouble_rd f r 0 hf hc ha) (railBlind_rd (Ne.symm hy) f 0) detail
  refine State.each_once (I := fun t => SameTrouble s t r) (P := fun t => Hiccuped s t r) (s.takenWith_nodup r) (s.mem_takenWith r)
    (fun t y hy h => ?_) (fun t h => ?_) (fun t y hy h => ?_) ⟨rfl, rfl, rfl, rfl⟩
  · exact ⟨(t.hiccupOne_other (trouble_rail r) (railBlind_rail (Ne.symm hy)) detail).trans h.rail,
      (other hy _ rfl (by decide) (by decide) t).trans h.consec, (other hy _ rfl (by decide) (by decide) t).trans h.count,
      (t.now_hiccupOne y detail).trans h.now⟩
  · refine ⟨t.railSt_hiccupOne detail he, (t.consec_hiccupOne detail he).trans h.nextConsec, ?_, (t.now_hiccupOne r detail).trans h.now⟩
    rw [t.count_hiccupOne detail he, State.oneUp, State.oneUp, h.count]
  · exact ⟨(other hy _ rfl (by decide) (by decide) t).trans h.state, (other hy _ rfl (by decide) (by decide) t).trans h.consec,
      (other hy _ rfl (by decide) (by decide) t).trans h.count, (t.now_hiccupOne y detail).trans h.now⟩

/-- The rail is LATCHED where its own count says so, whatever its followers' counts say. -/
theorem State.railSt_hiccup (s : State) (detail : Nat) :
    (s.hiccup r detail).railSt r = if 4 ≤ (s.allHiccup r detail).rd .rgcHiccupConsec r then railLatched else railHiccup := by
  rw [State.hiccup_eq]
  refine State.each_once (P := fun t => t.railSt r = if 4 ≤ (s.allHiccup r detail).rd .rgcHiccupConsec r then railLatched else railHiccup)
    (I := fun t => t.railSt r = railHiccup ∧ t.rd .rgcHiccupConsec r = (s.allHiccup r detail).rd .rgcHiccupConsec r)
    (s.takenWith_nodup r) (s.mem_takenWith r) (fun t y hy h => ?_) (fun t h => ?_) (fun t y hy h => ?_)
    ⟨(State.hiccuped_allHiccup he s detail).state, rfl⟩
  · obtain ⟨state, consec⟩ := h
    exact ⟨(t.latchCounted_other (trouble_rd .rgcStatusState r 0 rfl (by decide) (by decide)) (railBlind_rd (Ne.symm hy) .rgcStatusState 0) _).trans state,
      (t.rd_latchCounted _ y r 0 rfl (by decide)).trans consec⟩
  · obtain ⟨state, consec⟩ := h
    rw [State.latchCounted, consec, Bool.or_self]
    split
    · next latch => rw [if_pos (of_decide_eq_true latch)]; exact t.railSt_latchRail he
    · next free => rw [if_neg (by simpa using free)]; exact state
  · exact (t.latchCounted_other (trouble_rd .rgcStatusState r 0 rfl (by decide) (by decide)) (railBlind_rd (Ne.symm hy) .rgcStatusState 0) _).trans h

omit he in
theorem State.rd_hiccup (s : State) (detail : Nat) (q : Nat) {f : Field} (hf : latchField f = false) (hq : f ∉ quietFields) :
    (s.hiccup r detail).rd f q = (s.allHiccup r detail).rd f q := by
  rw [State.hiccup_eq]
  exact each_blind (g := fun t : State => t.rd f q) _ _ (fun t x => t.rd_latchCounted _ x q 0 hf hq) _

theorem State.now_hiccup (s : State) (detail : Nat) : (s.hiccup r detail).now = s.now := by
  rw [State.hiccup_eq, each_blind (g := State.now) _ _ fun t x => t.latchCounted_other trouble_now (railBlind_now x) _]
  exact (State.hiccuped_allHiccup he s detail).now

/-- Every rail taken along ends in HICCUP or LATCHED. -/
theorem State.taken_hiccup (s : State) (detail : Nat) {f : Nat} (hf : f ∈ s.takenWith r) :
    (s.hiccup r detail).railSt f = railHiccup ∨ (s.hiccup r detail).railSt f = railLatched := by
  have hef := State.takenWith_exist he hf
  have blind := trouble_rd .rgcStatusState f 0 rfl (by decide) (by decide)
  have first : (s.allHiccup r detail).railSt f = railHiccup := by
    refine State.each_sets (P := fun t => t.railSt f = railHiccup) (f := fun t x => t.hiccupOne x detail) hf (fun t => t.railSt_hiccupOne detail hef) (fun t y h => ?_) s
    by_cases same : y = f
    · subst same
      exact t.railSt_hiccupOne detail hef
    · exact (t.hiccupOne_other blind (railBlind_rd (Ne.symm same) .rgcStatusState 0) detail).trans h
  rw [State.hiccup_eq]
  refine State.each_keeps (P := fun t => t.railSt f = railHiccup ∨ t.railSt f = railLatched) (fun t y h => ?_) _ (.inl first)
  by_cases same : y = f
  · subst same
    unfold State.latchCounted
    split
    · exact .inr (t.railSt_latchRail hef)
    · exact h
  · have kept (all : Bool) : (t.latchCounted all y).railSt f = t.railSt f :=
      t.latchCounted_other blind (railBlind_rd (Ne.symm same) .rgcStatusState 0) all
    rw [kept]
    exact h

omit he in
/-- The dies that the rail feeds are held in reset. -/
theorem State.inReset_hiccup (s : State) (detail : Nat) {d : Nat} (hd : d ∈ fedDies r) : ((s.hiccup r detail).die d).inReset = true := by
  have latched : (s.hiccup r detail).die d = (s.allHiccup r detail).die d := by
    rw [State.hiccup_eq]
    exact each_blind (g := fun t : State => t.die d) _ _ (fun t x => t.inReset_latchCounted _ x d) _
  rw [latched]
  refine State.each_sets (P := fun t => (t.die d).inReset = true) (f := fun t x => t.hiccupOne x detail) (s.mem_takenWith r) (fun t => ?_) (fun t y h => ?_) s <;>
    rw [State.die, State.dies_hiccupOne]
  · exact t.inReset_inHiccup r d (.inr hd)
  · exact t.inReset_inHiccup y d (.inl h)

/-- A hiccup counts as R101 and R103 ask, whatever the command's time. -/
theorem State.hiccupCounted_hiccup {s n : State} (detail : Nat) (rail : n.rail r = s.rail r)
    (consec : n.rd .rgcHiccupConsec r = s.rd .rgcHiccupConsec r) (count : n.rd .rgcHiccupCount r = s.rd .rgcHiccupCount r) (hn : s.now ≤ n.now) :
    s.hiccupCounted (s.commit (n.hiccup r detail)) r := by
  have made := State.hiccuped_allHiccup he n detail
  have now : (s.commit (n.hiccup r detail)).now = n.now := by
    rw [State.commit_now, State.now_hiccup he]; omega
  have counted : (s.commit (n.hiccup r detail)).rd .rgcHiccupConsec r = n.nextConsec r := by
    rw [State.rd_commit _ _ _ _ _ rfl, State.rd_hiccup _ _ _ rfl (by decide), made.consec]
  refine ⟨fun soon => ?_, fun a ha late => ?_, ?_, ?_, fun d hd => ?_⟩
  · have run : n.consecutive r = true := by
      rw [State.consecutive, rail]
      cases h : (s.rail r).regAt with
      | none => rfl
      | some a => exact decide_eq_true (by rw [← now]; exact soon a h)
    rw [counted, State.nextConsec, run, if_pos rfl, consec]
  · have lapsed : n.consecutive r = false := by
      rw [now] at late
      unfold State.consecutive
      simp only [rail, ha]
      exact decide_eq_false (by omega)
    rw [counted, State.nextConsec, lapsed, if_neg Bool.false_ne_true]
    rfl
  · rw [counted, ← made.consec]
    exact (State.rd_commit _ _ _ _ _ rfl).trans (State.railSt_hiccup he n detail)
  · rw [State.rd_commit _ _ _ _ _ rfl, State.rd_hiccup _ _ _ rfl (by decide), made.count, State.oneUp, State.oneUp, count]
  · rw [State.die_commit]
    exact State.inReset_hiccup n detail hd

end Taken

/-! ## A rail that is stopped (R97, R105) -/

theorem SameTrouble.refl_advanceTo (s : State) (t r : Nat) : (s.advanceTo t).rail r = s.rail r ∧
    (s.advanceTo t).rd .rgcHiccupConsec r = s.rd .rgcHiccupConsec r ∧ (s.advanceTo t).rd .rgcHiccupCount r = s.rd .rgcHiccupCount r :=
  ⟨s.rail_advanceTo t r, s.rd_advanceTo _ _ _ (by decide), s.rd_advanceTo _ _ _ (by decide)⟩

theorem exec_railStartTimeout {s : State} {r : Rail} (hs : s.aon = true) (h : s.railSt r.val = railRamp)
    (low : 10 * (s.rail r.val).vs < 9 * s.target r.val) :
    exec (.railStartTimeout r) s =
      .next (s.commit ((s.advanceTo ((s.rail r.val).since + 4 * s.rampNs r.val + 1000000)).hiccup r.val 5)) := by
  change execRailStartTimeout r s = _
  rw [execRailStartTimeout, State.run_on _ hs]
  simp only [h, low, decide_true, Bool.and_true, if_true]

theorem exec_hiccupEntry {s : State} {r : Rail} {b : Bool} (hs : s.aon = true)
    (h : (s.railSt r.val = railReg ∧ (b = true ∨ 8 ≤ (s.rail r.val).cutRun)) ∨ ((s.rail r.val).sumOver = true ∧ s.sumStops r.val = true)) :
    exec (.hiccupEntry r b) s = .next (s.commit (s.hiccup r.val 1)) := by
  have enters : ((s.railSt r.val = railReg && (b || decide (8 ≤ (s.rail r.val).cutRun))) || ((s.rail r.val).sumOver && s.sumStops r.val)) = true := by
    simpa using h
  change execHiccupEntry r b s = _
  rw [execHiccupEntry, State.run_on _ hs]
  simp only [enters, if_true]

/-- A rail that goes DOWN. -/
def State.goDown (s : State) (r : Nat) : State := (s.leaveReg r).railTo r railDown

theorem State.goDown_rail {α : Type} {g : State → α} (hg : TroubleBlind g) {r : Nat} (hr : RailBlind g r) (s : State) : g (s.goDown r) = g s :=
  (State.railTo_rail hr _ _).trans (s.leaveReg_trouble hg r)

/-- What a rail that goes DOWN shows, kept by the followers that go with it. -/
theorem State.disabled_down {s : State} {r : Nat} (he : (⟨.rgcStatusState, r, 0⟩ : FieldRef).exists = true)
    (h : s.railSt r = railReg ∨ s.railSt r = railRamp) :
    (s.disableRail r).railSt r = railDown ∧ (s.disableRail r).flag .rgcStatusVready r = false := by
  have state : (s.wr .rgcCfgEn 0 r).railSt r = s.railSt r := s.rd_wr_field _ _ _ _ _ (by decide)
  have driven : (s.wr .rgcCfgEn 0 r).railSt r = railRamp ∨ (s.wr .rgcCfgEn 0 r).railSt r = railReg := by rw [state]; exact h.symm
  rw [State.disableRail]
  rw [if_pos (by simpa using driven)]
  refine State.each_sets (P := fun t => t.railSt r = railDown ∧ t.flag .rgcStatusVready r = false) (f := State.goDown) (x := r)
    (List.mem_filter.2 ⟨State.mem_family _ r, by simpa using driven⟩) (fun t => ?_) (fun t y ht => ?_) _
  · refine ⟨State.railSt_railTo _ he (by decide), decide_eq_false ?_⟩
    rw [State.goDown, State.railTo, State.rd_updRail, State.rd_wr_same _ .rgcStatusVready 0 r 0 he]
    decide
  · by_cases same : y = r
    · subst same
      refine ⟨State.railSt_railTo _ he (by decide), decide_eq_false ?_⟩
      rw [State.goDown, State.railTo, State.rd_updRail, State.rd_wr_same _ .rgcStatusVready 0 y 0 he]
      decide
    · obtain ⟨down, ready⟩ := ht
      exact ⟨(t.goDown_rail (trouble_rd .rgcStatusState r 0 rfl (by decide) (by decide)) (railBlind_rd (Ne.symm same) .rgcStatusState 0)).trans down,
        (congrArg (fun n => decide (n = 1)) (t.goDown_rail (trouble_rd .rgcStatusVready r 0 rfl (by decide) (by decide))
          (railBlind_rd (Ne.symm same) .rgcStatusVready 0))).trans ready⟩

/-- A check that is ended: the rail is OFF, whatever of its followers stops with it. -/
theorem State.disabled_off {s : State} {r : Nat} (he : (⟨.rgcStatusState, r, 0⟩ : FieldRef).exists = true) (h : s.railSt r = railCheck) :
    (s.disableRail r).railSt r = railOff := by
  have state : (s.wr .rgcCfgEn 0 r).railSt r = railCheck := (s.rd_wr_field _ _ _ _ _ (by decide)).trans h
  rw [State.disableRail]
  rw [if_neg (by rw [state]; decide), if_pos state]
  refine (State.each_otherRail (g := fun t : State => t.railSt r) (q := r) (fun f hf => ?_) (fun t f hf =>
    State.railQuiet_rail (railBlind_rd (Ne.symm hf) .rgcStatusState 0) t railOff) _).trans (State.railSt_railQuiet _ he (by decide))
  simp only [List.mem_filter, Bool.and_eq_true, decide_eq_true_eq] at hf
  exact hf.2.1

/-- EN stays clear whatever of a rail and its followers stops. -/
theorem State.en_disableRail {s : State} {r : Nat} (he : (⟨.rgcStatusState, r, 0⟩ : FieldRef).exists = true) :
    (s.disableRail r).flag .rgcCfgEn r = false := by
  have hg := trouble_rd .rgcCfgEn r 0 rfl (by decide) (by decide)
  have cleared : (s.wr .rgcCfgEn 0 r).rd .rgcCfgEn r = 0 := s.rd_wr_same .rgcCfgEn 0 r 0 he
  have quiet (t : State) (x : Nat) : (t.railQuiet x railOff).rd .rgcCfgEn r = t.rd .rgcCfgEn r := t.rd_railQuiet _ _ _ _ (by decide)
  have down (t : State) (x : Nat) : (t.goDown x).rd .rgcCfgEn r = t.rd .rgcCfgEn r :=
    (State.rd_railTo _ _ _ _ _ (by decide) (by decide)).trans (t.leaveReg_trouble hg x)
  have kept : (s.disableRail r).rd .rgcCfgEn r = (s.wr .rgcCfgEn 0 r).rd .rgcCfgEn r := by
    rw [State.disableRail]
    split
    · exact each_blind (g := fun t : State => t.rd .rgcCfgEn r) _ State.goDown down _
    · split
      · exact (each_blind (g := fun t : State => t.rd .rgcCfgEn r) _ _ quiet _).trans (quiet _ _)
      · rfl
  exact decide_eq_false (by rw [kept, cleared]; decide)

theorem exec_railDisable {s : State} {r : Rail} (hs : s.aon = true) (kind : (railType r.val).isSome = true) :
    exec (.railDisable r) s = .next (s.commit (s.disableRail r.val)) := by
  change execRailDisable r s = _
  rw [execRailDisable, State.run_on _ hs]
  simp only [kind, if_true]

/-- A rail at rest drives with no phase: of each, only its retirement and its mask are kept. -/
theorem State.phActive_railQuiet (s : State) (r st : Nat) {p : Nat} (hp : p < 4) : (s.railQuiet r st).phActive r p = false := by
  have idle (a b : Bool) : testBit ((4 * bit a + 8 * bit b) % 2 ^ 4) 0 = false := by revert a b; decide
  have wrote (t : State) (q : Nat) (v : Nat) (h : q = p ∨ t.phActive r p = false) (hv : testBit (v % 2 ^ 4) 0 = false) :
      (t.wr .rgcPhstatPh v r q).phActive r p = false := by
    rw [State.phActive, State.ph, State.rd_wr]
    split
    · exact hv
    · next other =>
      rcases h with rfl | h
      · have none : t.rd .rgcPhstatPh r q = 0 := t.reg_absent (Bool.eq_false_iff.2 fun he => other ⟨rfl, he⟩)
        rw [none]
        decide
      · exact h
  rw [State.railQuiet, State.phActive, State.ph, State.rd_updRail]
  refine State.each_sets (P := fun t => t.phActive r p = false) (List.mem_range.2 hp) (fun t => ?_) (fun t q h => ?_) _
  · exact wrote t p _ (.inl rfl) (idle _ _)
  · exact wrote t q _ (.inr h) (idle _ _)

theorem exec_railDownComplete {s : State} {r : Rail} (hs : s.aon = true) (h : s.railSt r.val = railDown) :
    exec (.railDownComplete r) s = .next (s.commit (if (s.rail r.val).vref ≤ 200 then s.railQuiet r.val railOff else s)) := by
  change execRailDownComplete r s = _
  rw [execRailDownComplete, State.run_on _ hs]
  simp only [h, decide_true, Bool.true_and, decide_eq_true_eq]

theorem exec_hiccupEnd {s : State} {r : Rail} (hs : s.aon = true) (h : s.railSt r.val = railHiccup) :
    exec (.hiccupEnd r) s = .next (s.commit
      (if s.flag .rgcCfgEn r.val then (s.advanceTo ((s.rail r.val).since + 20000000)).enterCheck r.val
        else (s.advanceTo ((s.rail r.val).since + 20000000)).railQuiet r.val railOff)) := by
  change execHiccupEnd r s = _
  rw [execHiccupEnd, State.run_on _ hs]
  simp only [h, if_true]

theorem exec_consecClear {s : State} {r : Rail} {a : Nat} (hs : s.aon = true) (ha : (s.rail r.val).regAt = some a)
    (h : s.railSt r.val = railReg) :
    exec (.consecClear r) s = .next (s.commit ((s.advanceTo (a + 1000000000)).wr .rgcHiccupConsec 0 r.val)) := by
  change execConsecClear r s = _
  rw [execConsecClear, State.run_on _ hs]
  simp only [ha, h, if_true]

/-- A write to a register changes no table. -/
theorem State.sameTabs_wr {s n : State} {l : List Tab} (h : s.sameTabsBut n l) (f : Field) (v i j : Nat) : s.sameTabsBut (n.wr f v i j) l := by
  intro x hx
  rw [State.wr, State.put_other (fun n => s.sameIn n x) (fun _ _ => by cases x <;> rfl) (fun _ _ => by cases x <;> rfl)]
  exact h x hx

/-- Settles O29: each rail that a hiccup takes along is counted once and LATCHED by the counts then formed; the steps that stop a rail write
its own state, and what its followers do is no reading of it. -/
theorem railTroubleAndRecovery : Obligations.RailTroubleAndRecovery := by
  refine ⟨fun s r b hs kind => ⟨fun ramp low => ?_, fun h => ?_⟩, fun s r hs kind => ⟨fun h => ?_, fun h => ?_, fun h low => ?_, fun h high => ?_,
    fun h => ?_, fun a ha h => ?_⟩⟩ <;> have he := statusField_exists kind
  · obtain ⟨rail, consec, count⟩ := SameTrouble.refl_advanceTo s ((s.rail r.val).since + 4 * s.rampNs r.val + 1000000) r.val
    refine ⟨_, exec_railStartTimeout hs ramp low, ?_, State.hiccupCounted_hiccup he 5 rail consec count (by rw [State.advanceTo_now]; omega)⟩
    rw [State.commit_now, State.now_hiccup he, State.advanceTo_now]
    omega
  · refine ⟨_, exec_hiccupEntry hs h, State.hiccupCounted_hiccup he 1 rfl rfl rfl (Nat.le_refl _), fun f hf => ?_⟩
    have state : (s.commit (s.hiccup r.val 1)).railSt f = (s.hiccup r.val 1).railSt f := State.rd_commit _ _ _ _ _ rfl
    rw [state]
    exact State.taken_hiccup he s 1 hf
  · obtain ⟨down, ready⟩ := State.disabled_down he h
    refine ⟨_, exec_railDisable hs kind, ?_, (State.rd_commit _ _ _ _ _ rfl).trans down, ?_⟩
    · rw [State.flag, State.rd_commit _ _ _ _ _ rfl]
      exact State.en_disableRail he
    · rw [State.flag, State.rd_commit _ _ _ _ _ rfl]
      exact ready
  · refine ⟨_, exec_railDisable hs kind, ?_, (State.rd_commit _ _ _ _ _ rfl).trans (State.disabled_off he h)⟩
    rw [State.flag, State.rd_commit _ _ _ _ _ rfl]
    exact State.en_disableRail he
  · refine ⟨_, exec_railDownComplete hs h, ?_⟩
    rw [if_pos low]
    refine ⟨(State.rd_commit _ _ _ _ _ rfl).trans (s.railSt_railQuiet he (by decide)), fun p hp => ?_, fun q hq => ?_⟩
    · rw [State.phActive, State.ph, State.rd_commit _ _ _ _ _ rfl]
      exact s.phActive_railQuiet r.val railOff hp
    · rw [State.rail_commit]
      exact State.railQuiet_rail (railBlind_rail hq) s railOff
  · refine ⟨_, exec_railDownComplete hs h, ?_⟩
    rw [if_neg (not_le.2 high)]
    exact State.onlyChanges_commit (s.onlyChanges_refl _ _)
  · refine ⟨_, exec_hiccupEnd hs h, ?_, ?_⟩
    · rw [State.commit_now]
      split
      · rw [State.enterCheck_rail (railBlind_now r.val), State.advanceTo_now]; omega
      · rw [State.railQuiet_rail (railBlind_now r.val), State.advanceTo_now]; omega
    · rw [State.railSt, State.rd_commit _ _ _ _ _ rfl]
      split
      · exact State.railSt_enterCheck _ he
      · exact State.railSt_railQuiet _ he (by decide)
  · refine ⟨_, exec_consecClear hs ha h, ?_, ?_, ?_, State.sameTabs_commit (State.sameTabs_wr (s.sameTabs_advanceTo _) _ _ _ _)⟩
    · rw [State.rd_commit _ _ _ _ _ rfl, State.rd_wr_same _ .rgcHiccupConsec 0 r.val 0 he]
      rfl
    · refine (State.rd_commit _ _ _ _ _ rfl).trans ?_
      rw [State.rd_wr_field _ _ _ _ _ _ (by decide)]
      exact (s.railSt_advanceTo _ _).trans h
    · rw [State.commit_now, State.wr, State.put_now, State.advanceTo_now]
      omega

end Sys2Proof.Machine

/-!
Settles O30: what guards a rail that drives (R82, R91, R100), and what serves it: phases shed, coefficients committed, 1 s averages (R88, R98,
R106).
-/
namespace Sys2Proof.Machine

/-! ## The bits of a phase -/

/-- Within the four bits of its phase, a mask set leaves the others. -/
theorem testBit_mask {n : Nat} (h : testBit n 3 = false) :
    testBit ((n + 8) % 2 ^ 4) 3 = true ∧ testBit ((n + 8) % 2 ^ 4) 0 = testBit n 0 := by
  simp only [testBit, decide_eq_false_iff_not, decide_eq_true_eq, decide_eq_decide] at h ⊢
  omega

theorem phase_exists_of {r p : Nat} (kind : (railType r).isSome = true) (hp : p < 4) : (⟨.rgcPhstatPh, r, p⟩ : FieldRef).exists = true := by
  have state := statusField_exists kind
  have bound : r < 64 := by
    have one : Field.instances .rgcStatusState = 64 := rfl
    simp only [FieldRef.exists, one, Bool.and_eq_true, decide_eq_true_eq] at state
    exact state.1.1
  have one : Field.instances .rgcPhstatPh = 64 := rfl
  have all : (fieldDef .rgcPhstatPh).count = 4 := rfl
  have blk : (fieldDef .rgcPhstatPh).blk = .rgc := rfl
  simp [FieldRef.exists, one, all, blk, kind, bound, hp]

/-! ## Guards -/

theorem exec_pulseCurrentLimit {s : State} (r : Rail) (p : Phase) (cur sum : Nat) {hit : Bool} (hs : s.aon = true) (stops : s.sumStops r.val = true)
    (hh : hit = (s.phActive r.val p.val && (decide (s.ocp r.val ≤ cur) || decide (s.rd .rgcOclimPhase r.val ≤ cur)))) :
    exec (.pulseCurrentLimit r p cur sum) s = .next (s.commit (s.updRail r.val fun x =>
      { x with cut := x.cut || hit, pulse := (s.rail r.val).pulse.filter fun y => !(hit && decide (y.1 = p.val)),
               sumOver := x.sumOver || decide (s.rd .rgcOclimRail r.val < sum) })) := by
  change execPulseCurrentLimit r p cur sum s = _
  rw [execPulseCurrentLimit, State.run_on _ hs, hh]
  simp only [stops, Bool.not_true, Bool.false_eq_true, if_false]

theorem exec_pulseCurrentLimit_idle {s : State} (r : Rail) (p : Phase) (cur sum : Nat) (hs : s.aon = true) (idle : s.sumStops r.val = false) :
    exec (.pulseCurrentLimit r p cur sum) s = .next (s.commit s) := by
  change execPulseCurrentLimit r p cur sum s = _
  rw [execPulseCurrentLimit, State.run_on _ hs]
  simp only [idle, Bool.not_false, if_true]

/-- The phase that R91's cut leaves of a rail: none drives. -/
def State.cutPhases (s : State) (r : Nat) : State := s.updRail r fun x => { x with tri := true, excursion := true }

theorem exec_vmaxCut {s : State} {r : Rail} (hs : s.aon = true) (on : s.railOn r.val = true) (high : 4 ≤ (s.rail r.val).above) :
    exec (.vmaxCut r) s = .next (s.commit
      (if (s.rail r.val).excursion then s.cutPhases r.val else (s.cutPhases r.val).raise (corr 15 1 (railUnit r.val) 8))) := by
  change execVmaxCut r s = _
  rw [execVmaxCut, State.run_on _ hs]
  simp only [on, high, decide_true, Bool.and_true, if_true]
  rfl

/-- A phase with its mask set (R82). -/
def State.maskPhase (s : State) (r p : Nat) : State := (s.wr .rgcPhstatPh (s.ph r p + 8) r p).disturb r

theorem exec_imonMask {s : State} {r : Rail} {p : Phase} (hs : s.aon = true) (kind : (railType r.val).isSome = true) (wired : p.val < railWired r.val)
    (masked : s.phMasked r.val p.val = false) (retired : s.phRetired r.val p.val = false) :
    exec (.imonMask r p) s = .next (s.commit ((s.maskPhase r.val p.val).raise (corr 8 1 (phaseUnit r.val p.val) 6))) := by
  change execImonMask r p s = _
  rw [execImonMask, State.run_on _ hs]
  simp only [kind, wired, masked, retired, decide_true, Bool.not_false, Bool.and_true, if_true]
  rfl

theorem State.ph_maskPhase (s : State) {r p : Nat} (kind : (railType r).isSome = true) (hp : p < 4) :
    (s.maskPhase r p).ph r p = (s.ph r p + 8) % 2 ^ 4 := by
  rw [State.maskPhase, State.disturb, State.ph, State.rd_updRail, State.rd_wr_same _ _ _ _ _ (phase_exists_of kind hp)]
  rfl

/-! ## Shedding (R98) -/

/-- A phase that is shed: its pulse is off, and its mask stays. -/
def State.shedPhase (s : State) (r p : Nat) : State :=
  ((s.wr .rgcPhstatPh (2 + 8 * bit (s.phMasked r p)) r p).disturb r).updRail r fun x => { x with low := 0 }

theorem State.active_of_last {s : State} {r p : Nat} (h : (s.actives r).getLast? = some p) : s.phActive r p = true :=
  (List.mem_filter.1 (List.mem_of_getLast? h)).2

theorem exec_phaseShed {s : State} {r : Rail} {p : Nat} (hs : s.aon = true) (may : s.mayShed r.val = true)
    (low : s.rd .rgcShedDly r.val * s.slotN r.val ≤ (s.rail r.val).low) (more : s.rd .rgcShedPhmin r.val < (s.actives r.val).length)
    (last : (s.actives r.val).getLast? = some p) (retired : s.phRetired r.val p = false) :
    exec (.phaseShed r) s = .next (s.commit (s.shedPhase r.val p)) := by
  have on := State.active_of_last last
  change execPhaseShed r s = _
  rw [execPhaseShed, State.run_on _ hs]
  simp only [may, low, more, decide_true, Bool.and_true, if_true, last, State.setPhase, retired, on, Bool.false_or, Bool.true_eq_false, false_and,
    decide_false, Bool.false_eq_true, if_false]
  rfl

/-! ## Coefficients (R88) -/

/-- The pole check of a shadow set. -/
def polesHold (l : List Nat) : Prop :=
  (16384 + toSigned 16 ((l[4]?).getD 0) + toSigned 16 ((l[5]?).getD 0) + toSigned 16 ((l[6]?).getD 0)).natAbs ≤ 1

/-- The rail with its shadow set handed to the next slot boundary. -/
def State.handComp (s : State) (r : Nat) : State := s.updRail r fun x => { x with newComp := some (s.rail r).shadow }

theorem State.commitComp_holds {s : State} {r : Nat} (kind : (railType r).isSome = true) (h : polesHold (s.rail r).shadow) :
    s.commitComp r = if s.railOn r then s.handComp r else (s.handComp r).takeComp r := by
  have some : (railType r).isNone = false := by rw [← Option.not_isSome, kind]; rfl
  unfold State.commitComp
  simp only [some, Bool.false_eq_true, if_false]
  exact if_pos h

theorem State.commitComp_fails {s : State} {r : Nat} (kind : (railType r).isSome = true) (h : ¬ polesHold (s.rail r).shadow) :
    s.commitComp r = s.wr .rgcStatusCommiterr 1 r := by
  have some : (railType r).isNone = false := by rw [← Option.not_isSome, kind]; rfl
  unfold State.commitComp
  simp only [some, Bool.false_eq_true, if_false]
  exact if_neg h

/-- The seven coefficients of a set, written to their fields. -/
def compWrites (r : Nat) (l : List Nat) : List (FieldRef × Nat) := (compFields.zip l).map fun x => (⟨x.1, r, 0⟩, x.2)

theorem State.takeComp_handComp (s : State) (r : Nat) :
    (s.handComp r).takeComp r = ((s.handComp r).puts (compWrites r (s.rail r).shadow)).updRail r fun x => { x with newComp := none } := by
  have handed : ((s.handComp r).rail r).newComp = some (s.rail r).shadow := by
    rw [State.handComp, State.rail_updRail, if_pos rfl]
  unfold State.takeComp
  rw [handed]
  rfl

/-- The elements that a set of coefficients writes. -/
def compRefs (r : Nat) : List FieldRef :=
  [⟨.rgcCompB0, r, 0⟩, ⟨.rgcCompB1, r, 0⟩, ⟨.rgcCompB2, r, 0⟩, ⟨.rgcCompB3, r, 0⟩, ⟨.rgcCompA1, r, 0⟩, ⟨.rgcCompA2, r, 0⟩, ⟨.rgcCompA3, r, 0⟩]

theorem mem_compRefs {r : Nat} {l : List Nat} {e : FieldRef × Nat} (h : e ∈ compWrites r l) : e.1 ∈ compRefs r := by
  obtain ⟨x, hx, rfl⟩ := List.mem_map.1 h
  have field : x.1 ∈ compFields := (List.of_mem_zip hx).1
  exact List.mem_map_of_mem (f := fun f => (⟨f, r, 0⟩ : FieldRef)) field

/-- The first and the last coefficient stand as the set has them. -/
theorem State.comp_puts (s : State) {r : Nat} {l : List Nat} (he : (⟨.rgcStatusState, r, 0⟩ : FieldRef).exists = true) (hl : l.length = 7) :
    (s.puts (compWrites r l)).rd .rgcCompB0 r = ((l[0]?).getD 0) % 2 ^ (fieldDef .rgcCompB0).width ∧
      (s.puts (compWrites r l)).rd .rgcCompA3 r = ((l[6]?).getD 0) % 2 ^ (fieldDef .rgcCompA3).width := by
  match l, hl with
  | [b0, b1, b2, b3, a1, a2, a3], _ =>
    have wrote : s.puts (compWrites r [b0, b1, b2, b3, a1, a2, a3]) =
        ((((((s.wr .rgcCompB0 b0 r).wr .rgcCompB1 b1 r).wr .rgcCompB2 b2 r).wr .rgcCompB3 b3 r).wr .rgcCompA1 a1 r).wr .rgcCompA2 a2 r).wr
          .rgcCompA3 a3 r := rfl
    rw [wrote]
    refine ⟨?_, State.rd_wr_same _ .rgcCompA3 a3 r 0 he⟩
    iterate 6 rw [State.rd_wr_field _ _ _ _ _ _ (by decide)]
    exact State.rd_wr_same _ .rgcCompB0 b0 r 0 he

theorem exec_compCommit {s : State} {r : Rail} (hs : s.aon = true) : exec (.compCommit r) s = .next (s.commit (s.commitComp r.val)) :=
  State.run_on (fun s => s.commitComp r.val) hs

theorem compCommit_lands {s : State} {r : Rail} (hs : s.aon = true) (kind : (railType r.val).isSome = true)
    (full : (s.rail r.val).shadow.length = 7) :
    ∃ t, exec (.compCommit r) s = .next t ∧
      if (16384 + toSigned 16 (((s.rail r.val).shadow[4]?).getD 0) + toSigned 16 (((s.rail r.val).shadow[5]?).getD 0) +
          toSigned 16 (((s.rail r.val).shadow[6]?).getD 0)).natAbs ≤ 1 then
        (∀ q, q ≠ r.val → t.rail q = s.rail q) ∧
        (s.railOn r.val = true → (t.rail r.val).newComp = some (s.rail r.val).shadow ∧ s.onlyChanges t [] [.rails]) ∧
        (s.railOn r.val = false →
          t.rd .rgcCompB0 r.val = (((s.rail r.val).shadow[0]?).getD 0) % 2 ^ (fieldDef .rgcCompB0).width ∧
          t.rd .rgcCompA3 r.val = (((s.rail r.val).shadow[6]?).getD 0) % 2 ^ (fieldDef .rgcCompA3).width ∧
          s.onlyChanges t [⟨.rgcCompB0, r.val, 0⟩, ⟨.rgcCompB1, r.val, 0⟩, ⟨.rgcCompB2, r.val, 0⟩, ⟨.rgcCompB3, r.val, 0⟩,
            ⟨.rgcCompA1, r.val, 0⟩, ⟨.rgcCompA2, r.val, 0⟩, ⟨.rgcCompA3, r.val, 0⟩] [.rails])
      else t.flag .rgcStatusCommiterr r.val = true ∧ s.onlyChanges t [⟨.rgcStatusCommiterr, r.val, 0⟩] [] := by
  have he := statusField_exists kind
  refine ⟨_, exec_compCommit hs, ?_⟩
  split
  · next holds =>
    rw [State.commitComp_holds kind holds]
    refine ⟨fun q hq => ?_, fun on => ?_, fun off => ?_⟩
    · rw [State.rail_commit]
      split
      · exact (s.rail_updRail _ _ _).trans (if_neg (Ne.symm hq))
      · rw [State.takeComp_rail (railBlind_rail hq)]
        exact (s.rail_updRail _ _ _).trans (if_neg (Ne.symm hq))
    · rw [if_pos on]
      obtain ⟨rail, only, -⟩ := rail_step s r.val fun x => { x with newComp := some (s.rail r.val).shadow }
      exact ⟨congrArg RailState.newComp rail, only⟩
    · rw [if_neg (by rw [off]; decide), State.takeComp_handComp]
      obtain ⟨first, last⟩ := (s.handComp r.val).comp_puts he full
      exact ⟨(State.rd_commit _ _ _ _ _ rfl).trans first, (State.rd_commit _ _ _ _ _ rfl).trans last,
        State.onlyChanges_commit (State.onlyChanges_rails (State.onlyChanges_puts
          (State.onlyChanges_rails (s.onlyChanges_refl (compRefs r.val) _) _ List.mem_cons_self) _ fun e he => mem_compRefs he) _
          List.mem_cons_self)⟩
  · next fails =>
    rw [State.commitComp_fails kind fails]
    refine ⟨?_, State.onlyChanges_commit (State.onlyChanges_wr (s.onlyChanges_refl _ _) _ _ _ _ List.mem_cons_self)⟩
    exact decide_eq_true ((State.rd_commit _ _ _ _ _ rfl).trans (s.rd_wr_same .rgcStatusCommiterr 1 r.val 0 he))

/-! ## The averages of a second (R106) -/

/-- The averages of a rail of which samples stand. -/
def meanWrites (r : Nat) (m : List Nat) : List (FieldRef × Nat) :=
  [(⟨.rgcTelV1s, r, 0⟩, (m[0]?).getD 0), (⟨.rgcTelI1s, r, 0⟩, (m[1]?).getD 0), (⟨.rgcTelP1s, r, 0⟩, (m[2]?).getD 0),
   (⟨.rgcTelT1s, r, 0⟩, (m[3]?).getD 0)]

/-- The registers of a rail as its second ends: the means of the samples in REG, and otherwise those that stand. -/
def State.secondMeans (s : State) (r : Nat) (x : RailSums) : State :=
  if x.n = 0 || decide (s.railSt r ≠ railReg) then s else s.puts (meanWrites r x.means)

theorem exec_railTel1s {s : State} {r : Rail} (hs : s.aon = true) :
    exec (.railTel1s r) s = .next (s.commit (((s.advanceTo (ceilTo 1000000000 s.now)).secondMeans r.val (s.rail r.val).sec).updRail r.val fun y =>
      { y with sec := RailSums.init })) :=
  State.run_on (fun s => ((s.advanceTo (ceilTo 1000000000 s.now)).secondMeans r.val (s.rail r.val).sec).updRail r.val fun y =>
      { y with sec := RailSums.init }) hs

theorem ofSigned_lt (w : Nat) (z : Int) : ofSigned w z < 2 ^ w := by
  have pos : (0 : Int) < (2 ^ w : Nat) := by exact_mod_cast Nat.two_pow_pos w
  have := Int.emod_lt_of_pos z pos
  unfold ofSigned
  omega

theorem RailSums.mean_lt (x : RailSums) (k : Nat) : ((x.means)[k]?).getD 0 < 2 ^ 16 := by
  match k with
  | 0 | 1 | 2 | 3 => exact ofSigned_lt 16 _
  | k + 4 => exact Nat.two_pow_pos 16

theorem ge_ceilTo (k t : Nat) (hk : 0 < k) : t ≤ ceilTo k t := by
  have := Nat.div_add_mod (t + (k - 1)) k
  have := Nat.mod_lt (t + (k - 1)) hk
  have : (t + (k - 1)) / k * k = k * ((t + (k - 1)) / k) := Nat.mul_comm _ _
  unfold ceilTo
  omega

/-- Reading the averages after they are written. -/
theorem State.rd_meanWrites (s : State) {r : Nat} (he : (⟨.rgcStatusState, r, 0⟩ : FieldRef).exists = true) (x : RailSums) :
    (s.puts (meanWrites r x.means)).rd .rgcTelV1s r = ((x.means)[0]?).getD 0 ∧ (s.puts (meanWrites r x.means)).rd .rgcTelI1s r = ((x.means)[1]?).getD 0 ∧
      (s.puts (meanWrites r x.means)).rd .rgcTelP1s r = ((x.means)[2]?).getD 0 ∧ (s.puts (meanWrites r x.means)).rd .rgcTelT1s r = ((x.means)[3]?).getD 0 := by
  have wrote (m : List Nat) : s.puts (meanWrites r m) =
      (((s.wr .rgcTelV1s ((m[0]?).getD 0) r).wr .rgcTelI1s ((m[1]?).getD 0) r).wr .rgcTelP1s ((m[2]?).getD 0) r).wr .rgcTelT1s ((m[3]?).getD 0) r := rfl
  have fits (k : Nat) := Nat.mod_eq_of_lt (x.mean_lt k)
  rw [wrote]
  refine ⟨?_, ?_, ?_, ?_⟩
  · iterate 3 rw [State.rd_wr_field _ _ _ _ _ _ (by decide)]
    exact (State.rd_wr_same _ .rgcTelV1s _ r 0 he).trans (fits 0)
  · iterate 2 rw [State.rd_wr_field _ _ _ _ _ _ (by decide)]
    exact (State.rd_wr_same _ .rgcTelI1s _ r 0 he).trans (fits 1)
  · rw [State.rd_wr_field _ _ _ _ _ _ (by decide)]
    exact (State.rd_wr_same _ .rgcTelP1s _ r 0 he).trans (fits 2)
  · exact (State.rd_wr_same _ .rgcTelT1s _ r 0 he).trans (fits 3)

theorem State.secondMeans_other {α : Type} {g : State → α} (put : ∀ s r v, g (s.put r v) = g s) (s : State) (r : Nat) (x : RailSums) :
    g (s.secondMeans r x) = g s := by
  unfold State.secondMeans
  split
  · rfl
  · exact (put _ _ _).trans ((put _ _ _).trans ((put _ _ _).trans (put _ _ _)))

theorem railTel1s_lands {s : State} {r : Rail} (hs : s.aon = true) (kind : (railType r.val).isSome = true) :
    ∃ t, exec (.railTel1s r) s = .next t ∧ t.now = ceilTo 1000000000 s.now ∧ (t.rail r.val).sec = RailSums.init ∧
      (s.railSt r.val = railReg → (s.rail r.val).sec.n ≠ 0 →
        t.rd .rgcTelV1s r.val = (((s.rail r.val).sec.means)[0]?).getD 0 ∧
        t.rd .rgcTelI1s r.val = (((s.rail r.val).sec.means)[1]?).getD 0 ∧ t.rd .rgcTelP1s r.val = (((s.rail r.val).sec.means)[2]?).getD 0 ∧
        t.rd .rgcTelT1s r.val = (((s.rail r.val).sec.means)[3]?).getD 0) ∧
      (s.railSt r.val ≠ railReg →
        t.rd .rgcTelV1s r.val = s.rd .rgcTelV1s r.val ∧ t.rd .rgcTelI1s r.val = s.rd .rgcTelI1s r.val ∧
        t.rd .rgcTelP1s r.val = s.rd .rgcTelP1s r.val ∧ t.rd .rgcTelT1s r.val = s.rd .rgcTelT1s r.val) ∧
      (∀ q, q ≠ r.val → t.rail q = s.rail q) ∧ s.sameTabsBut t [.rails] ∧
      s.sameFieldsBut t (fun f => decide (f ∈ [.rgcTelV1s, .rgcTelI1s, .rgcTelP1s, .rgcTelT1s, .fltAonns, .fltFullns, .ageOptimeSec])) := by
  have he := statusField_exists kind
  have state := s.railSt_advanceTo (ceilTo 1000000000 s.now) r.val
  have rails (q : Nat) : ((s.advanceTo (ceilTo 1000000000 s.now)).secondMeans r.val (s.rail r.val).sec).rail q = s.rail q :=
    (State.secondMeans_other (g := fun t : State => t.rail q) (fun t a v => congrArg (Store.get RailState.init · q) (t.put_rails a v)) _ _ _).trans
      (s.rail_advanceTo _ q)
  refine ⟨_, exec_railTel1s hs, ?_, ?_, fun reg some => ?_, fun out => ?_, fun q hq => ?_, State.sameTabs_commit ?_, State.sameFields_commit ?_⟩
  · have now (t : State) (f : RailState → RailState) : (t.updRail r.val f).now = t.now := rfl
    rw [State.commit_now, now, State.secondMeans_other (g := State.now) State.put_now, State.advanceTo_now]
    have := ge_ceilTo 1000000000 s.now (by decide)
    omega
  · rw [State.rail_commit, State.rail_updRail, if_pos rfl]
  · have means : (s.advanceTo (ceilTo 1000000000 s.now)).secondMeans r.val (s.rail r.val).sec =
        (s.advanceTo (ceilTo 1000000000 s.now)).puts (meanWrites r.val (s.rail r.val).sec.means) :=
      if_neg (by rw [state, reg]; simpa using some)
    have rd (f : Field) (hf : f.isLimit = false) (n : State) (h : RailState → RailState) : (s.commit (n.updRail r.val h)).rd f r.val = n.rd f r.val := by
      rw [State.rd_commit _ _ _ _ _ hf, State.rd_updRail]
    rw [means, rd _ rfl, rd _ rfl, rd _ rfl, rd _ rfl]
    exact State.rd_meanWrites _ he _
  · have kept : (s.advanceTo (ceilTo 1000000000 s.now)).secondMeans r.val (s.rail r.val).sec = s.advanceTo (ceilTo 1000000000 s.now) :=
      if_pos (by rw [state]; simp [out])
    have rd (f : Field) (hf : f.isLimit = false) (ht : f ∉ timeFields) (h : RailState → RailState) :
        (s.commit ((s.advanceTo (ceilTo 1000000000 s.now)).updRail r.val h)).rd f r.val = s.rd f r.val := by
      rw [State.rd_commit _ _ _ _ _ hf, State.rd_updRail, State.rd_advanceTo _ _ _ _ ht]
    rw [kept]
    exact ⟨rd _ rfl (by decide) _, rd _ rfl (by decide) _, rd _ rfl (by decide) _, rd _ rfl (by decide) _⟩
  · rw [State.rail_commit, State.rail_updRail, if_neg (Ne.symm hq), rails]
  · refine State.sameTabs_updRail (fun x hx => ?_) _ _
    rw [State.secondMeans_other (g := fun n => s.sameIn n x) fun n a v =>
      State.put_other (fun n => s.sameIn n x) (fun _ _ => by cases x <;> rfl) (fun _ _ => by cases x <;> rfl) n a v]
    exact s.sameTabs_advanceTo _ x List.not_mem_nil
  · intro a ha
    simp only [List.mem_cons, List.not_mem_nil, or_false, decide_eq_false_iff_not, not_or] at ha
    obtain ⟨hv, hi, hp, ht, haon, hfull, hop⟩ := ha
    have rd (n : State) (x : RailSums) : (n.secondMeans r.val x).rd a.f a.i a.j = n.rd a.f a.i a.j := by
      unfold State.secondMeans
      split
      · rfl
      · refine n.rd_puts_other a.i a.j fun e he => ?_
        simp only [meanWrites, List.mem_cons, List.not_mem_nil, or_false] at he
        rcases he with rfl | rfl | rfl | rfl
        exacts [Ne.symm hv, Ne.symm hi, Ne.symm hp, Ne.symm ht]
    exact (State.rd_updRail _ _ _ _ _ _).trans ((rd _ _).trans (s.rd_advanceTo _ _ _ (by simp [timeFields, haon, hfull, hop])))

/-- Settles O30: each guard moves the record of its rail or one phase's bits, and what serves the rail writes the registers named. -/
theorem railGuardsAndService : Obligations.RailGuardsAndService := by
  refine ⟨fun s r p cur sum hit hs hh => ⟨fun stops => ?_, fun idle => ?_, fun on high => ?_, fun kind wired masked retired => ?_⟩,
    fun s r p hs kind => ⟨fun may low more last retired hp => ?_, fun full => compCommit_lands hs kind full, railTel1s_lands hs kind⟩⟩
  · obtain ⟨rail, only, others⟩ := rail_step s r.val fun x =>
      { x with cut := x.cut || hit, pulse := (s.rail r.val).pulse.filter fun y => !(hit && decide (y.1 = p.val)),
               sumOver := x.sumOver || decide (s.rd .rgcOclimRail r.val < sum) }
    refine ⟨_, exec_pulseCurrentLimit r p cur sum hs stops hh, only, others, by rw [rail], fun miss => ?_, fun n struck hn => ?_, by rw [rail]⟩
    · rw [rail, miss]
      cases (s.rail r.val).pulse <;> rfl
    · rw [rail, struck, hn]
      simp
  · exact ⟨_, exec_pulseCurrentLimit_idle r p cur sum hs idle, State.onlyChanges_commit (s.onlyChanges_refl _ _)⟩
  · have rail (q : Nat) : (if (s.rail r.val).excursion then s.cutPhases r.val
        else (s.cutPhases r.val).raise (corr 15 1 (railUnit r.val) 8)).rail q = (s.cutPhases r.val).rail q := by
      split
      · rfl
      · exact State.rail_raise _ _ _
    refine ⟨_, exec_vmaxCut hs on high, ?_, ?_, fun q hq => ?_, ?_⟩
    · rw [State.rail_commit, rail, State.cutPhases, State.rail_updRail, if_pos rfl]
    · rw [State.rail_commit, rail, State.cutPhases, State.rail_updRail, if_pos rfl]
    · rw [State.rail_commit, rail, State.cutPhases, State.rail_updRail, if_neg (Ne.symm hq)]
    · rw [State.rd_commit _ _ _ _ _ rfl]
      split
      · rfl
      · exact State.fltCorr_raise_corrected _ rfl
  · obtain ⟨mask, active⟩ := testBit_mask masked
    have ph : (s.commit ((s.maskPhase r.val p.val).raise (corr 8 1 (phaseUnit r.val p.val) 6))).ph r.val p.val = (s.ph r.val p.val + 8) % 2 ^ 4 := by
      rw [State.ph, State.rd_commit _ _ _ _ _ rfl, rd_raise_any _ _ _ _ _ rfl]
      exact s.ph_maskPhase kind p.isLt
    refine ⟨_, exec_imonMask hs kind wired masked retired, ?_, ?_, ?_⟩
    · rw [State.phMasked, ph]
      exact mask
    · rw [State.phActive, ph]
      exact active
    · rw [State.rd_commit _ _ _ _ _ rfl, State.fltCorr_raise_corrected _ rfl, State.oneUp, State.maskPhase, State.disturb, State.rd_updRail,
        State.rd_wr_field _ _ _ _ _ _ (by decide)]
  · have ph : (s.commit (s.shedPhase r.val p)).ph r.val p = (2 + 8 * bit (s.phMasked r.val p)) % 2 ^ 4 := by
      rw [State.ph, State.rd_commit _ _ _ _ _ rfl, State.shedPhase, State.rd_updRail, State.disturb, State.rd_updRail,
        State.rd_wr_same _ _ _ _ _ (phase_exists_of kind hp)]
      rfl
    refine ⟨_, exec_phaseShed hs may low more last retired, ?_, ?_, ?_, ?_⟩
    · rw [State.phShed, ph]
      cases s.phMasked r.val p <;> decide
    · rw [State.phActive, ph]
      cases s.phMasked r.val p <;> decide
    · rw [State.rail_commit, State.shedPhase, State.rail_updRail, if_pos rfl]
    · exact State.onlyChanges_commit (State.onlyChanges_rails (State.onlyChanges_rails (State.onlyChanges_wr (s.onlyChanges_refl _ _) _ _ _ _
        List.mem_cons_self) _ List.mem_cons_self) _ List.mem_cons_self)

end Sys2Proof.Machine

/-!
The windows and requests of O32: what a descriptor brings to its window and an invocation takes from it (R27, R110, R373), and which request a
window's head makes (R28, R111).
-/
namespace Sys2Proof.Machine

/-! ## Windows -/

theorem DieState.window_setWindow (x : DieState) (i : Nat) (l : List WinDesc) (k : Nat) :
    (x.setWindow i l).window k = if k = i then l else x.window k := by
  have rest : Store.get (fun _ => []) (x.windows.filter fun w => w.1 ≠ i) k = if k = i then [] else x.window k := by
    unfold DieState.window
    induction x.windows with
    | nil => simp
    | cons w l ih =>
      by_cases same : w.1 = i
      · rw [List.filter_cons_of_neg (by simp [same]), ih, Store.get_cons, same]
        by_cases h : k = i
        · rw [if_pos h, if_pos h]
        · rw [if_neg h, if_neg h, if_neg (Ne.symm h)]
      · rw [List.filter_cons_of_pos (by simpa using same), Store.get_cons, Store.get_cons, ih]
        by_cases h : w.1 = k
        · rw [if_pos h, if_pos h, if_neg (h ▸ same)]
        · rw [if_neg h, if_neg h]
  unfold DieState.window DieState.setWindow
  cases l with
  | nil => exact rest
  | cons w l =>
    refine (Store.get_cons _ _ _ _ _).trans ?_
    by_cases h : k = i
    · rw [if_pos h.symm, if_pos h]
    · rw [if_neg (Ne.symm h), if_neg h]
      exact rest.trans (if_neg h)

/-- What a lookup of the Pantry leaves: all but its own counters, the copies and the lookups of its die agent. -/
structure LookupBlind {α : Type} (g : State → α) (d : Nat) : Prop where
  count : ∀ s f, f ∈ [.dagPnthit, .dagPntmiss, .dagPntupd] → g (State.count s f 1 d) = g s
  die : ∀ s f, (∀ x, (f x).windows = x.windows) → g (State.updDie s d f) = g s
  lard : ∀ s f, g (State.updLard s f) = g s

theorem lookup_windows (d : Nat) : LookupBlind (fun t : State => (t.die d).windows) d where
  count s f _ := congrArg (fun l => (Store.get DieState.init l d).windows) (s.count_dies f 1 d 0)
  die s f hf := by rw [State.die_updDie, if_pos rfl, hf]
  lard _ _ := rfl

theorem lookup_die {x d : Nat} (h : x ≠ d) : LookupBlind (fun t : State => t.die x) d where
  count s f _ := congrArg (Store.get DieState.init · x) (s.count_dies f 1 d 0)
  die s f _ := by rw [State.die_updDie, if_neg (Ne.symm h)]
  lard _ _ := rfl

theorem lookup_rd {f : Field} (i j : Nat) (h : f ∉ [.dagPnthit, .dagPntmiss, .dagPntupd]) (d : Nat) : LookupBlind (fun t : State => t.rd f i j) d where
  count s _ hc := s.rd_wr_field _ _ _ _ _ (ne_of_mem_of_not_mem hc h)
  die _ _ _ := rfl
  lard _ _ := rfl

section Lookup
variable {α : Type} {g : State → α} {d : Nat} (hg : LookupBlind g d)
include hg

theorem ask_blind (s : State) (k : LKey) : g (s.ask d k) = g s := by
  have send (t : State) : g (t.sendAsk d) = g t := by
    unfold State.sendAsk
    dsimp only
    split
    · rfl
    · split
      · rfl
      · exact (hg.lard _ _).trans (hg.die _ _ fun _ => rfl)
  unfold State.ask
  split
  · rfl
  · exact (send _).trans (hg.die _ _ fun _ => rfl)

theorem lookup_blind (s : State) (k : LKey) : g (s.lookup d k) = g s := by
  have touched (t : State) (e : PEntry) : g (t.updDie d fun x => if x.pantry.contains e then { x with pantry := e :: x.pantry.erase e } else x) = g t :=
    hg.die t _ fun x => by split <;> rfl
  unfold State.lookup
  split
  · dsimp only
    split
    · exact (touched _ _).trans (hg.count _ _ (by simp))
    · exact (ask_blind hg _ _).trans ((touched _ _).trans (hg.count _ _ (by simp)))
  · dsimp only
    split
    · exact hg.count _ _ (by simp)
    · exact (ask_blind hg _ _).trans (hg.count _ _ (by simp))

theorem learnAt_blind (s : State) (r : UpdRec) : g (s.learnAt d r) = g s := by
  unfold State.learnAt
  dsimp only
  split
  · rfl
  · split
    · exact hg.die _ _ (by intro; rfl)
    · split
      · exact (hg.die _ _ (by intro; rfl)).trans (hg.die _ _ (by intro; rfl))
      · exact (hg.count _ _ (by simp)).trans (hg.die _ _ (by intro; rfl))

end Lookup

/-- The window that a descriptor comes to. -/
def windowWith (l : List WinDesc) (w : WinDesc) : List WinDesc :=
  if w.pattern then l.filter (fun y => y.running || y.pattern) ++ [w] ++ l.filter (fun y => !(y.running || y.pattern)) else l ++ [w]

/-- A descriptor as it stands in the window: a pattern has no tag (R164, R373). -/
def State.entering (s : State) (d : Nat) (src : DescSource) (pw : Word64) : WinDesc :=
  if (readPowerWord pw src s.now).pattern then readPowerWord pw src s.now
  else { readPowerWord pw src s.now with tag := (s.partOf d).map s.tagOf }

/-- The descriptor in its window, with its format flagged, before its lookup. -/
def State.entered (s : State) (d i : Nat) (src : DescSource) (pw : Word64) : State :=
  let s1 := s.updDie d fun x => x.setWindow i (windowWith ((s.die d).window i) (s.entering d src pw))
  if badPowerWord pw then s1.wr .dagStatusPwfmt 1 d else s1

/-- Its lookup, of a descriptor that has a key. -/
def State.lookupOf (s : State) (d : Nat) : Option LKey → State
  | some k => s.lookup d k
  | none => s

theorem lookupOf_blind {α : Type} {g : State → α} {d : Nat} (hg : LookupBlind g d) (s : State) (k : Option LKey) : g (s.lookupOf d k) = g s := by
  cases k with
  | none => rfl
  | some k => exact lookup_blind hg s k

section Enters
variable {s : State} {d : CDie} {k : Core} {e : Engine} {src : DescSource} (pw : Word64) (hs : s.aon = true)
include hs

theorem exec_descriptorEnters (power : (s.die d.val).powered = true) (run : (s.die d.val).inReset = false) (warm : s.svc ≠ svcCold)
    (room : ((s.die d.val).window (k.val * 6 + e.val)).length < 8) (may : src = .pattern → s.patternsRun = true) :
    exec (.descriptorEntersWindow d k e src pw) s =
      .next (s.commit ((s.entered d.val (k.val * 6 + e.val) src pw).lookupOf d.val (s.entering d.val src pw).key)) := by
  have pass : (decide (src = .pattern) && !s.patternsRun) = false := by
    by_cases h : src = .pattern
    · simp [h, may h]
    · simp [h]
  change execDescriptorEntersWindow d k e src pw s = _
  rw [execDescriptorEntersWindow, State.run_on _ hs]
  simp only [power, run, warm, not_le.2 room, pass, Bool.not_true, decide_false, Bool.or_self, Bool.false_eq_true, if_false]
  rfl

theorem exec_descriptorRefused (h : (s.die d.val).inReset = true ∨ 8 ≤ ((s.die d.val).window (k.val * 6 + e.val)).length ∨
      (src = .pattern ∧ s.patternsRun = false)) :
    exec (.descriptorEntersWindow d k e src pw) s = .next (s.commit s) := by
  change execDescriptorEntersWindow d k e src pw s = _
  rw [execDescriptorEntersWindow, State.run_on _ hs]
  rcases h with h | h | ⟨hp, hn⟩
  · simp [h]
  · simp [h]
  · simp [hp, hn]

end Enters

theorem State.window_entered (s : State) (d i : Nat) (src : DescSource) (pw : Word64) (k : Nat) :
    ((s.entered d i src pw).die d).window k =
      if k = i then windowWith ((s.die d).window i) (s.entering d src pw) else (s.die d).window k := by
  have set : ((s.updDie d fun x => x.setWindow i (windowWith ((s.die d).window i) (s.entering d src pw))).die d).window k =
      if k = i then windowWith ((s.die d).window i) (s.entering d src pw) else (s.die d).window k := by
    rw [State.die_updDie, if_pos rfl, DieState.window_setWindow]
  unfold State.entered
  dsimp only
  split
  · rw [State.die, State.wr_dies]
    exact set
  · exact set

theorem State.die_entered (s : State) {d x : Nat} (h : x ≠ d) (i : Nat) (src : DescSource) (pw : Word64) : (s.entered d i src pw).die x = s.die x := by
  unfold State.entered
  dsimp only
  split
  · rw [State.die, State.wr_dies]
    exact (s.die_updDie _ _ _).trans (if_neg (Ne.symm h))
  · exact (s.die_updDie _ _ _).trans (if_neg (Ne.symm h))

/-- A field of a die agent's block that every compute die has. -/
theorem computeField_exists {f : Field} {d : Nat} (h : ∀ i, (⟨f, i, 0⟩ : FieldRef).exists =
      (decide (i < 40) && true && (decide (i < 32) || !computeOnly (fieldDef f).off))) (hd : d < 32) : (⟨f, d, 0⟩ : FieldRef).exists = true := by
  rw [h]
  simp [hd]
  omega

theorem pwfmt_exists {d : Nat} (h : d < 32) : (⟨.dagStatusPwfmt, d, 0⟩ : FieldRef).exists = true := computeField_exists (fun _ => rfl) h

theorem State.pwfmt_entered (s : State) {d : Nat} (h : d < 32) (i : Nat) (src : DescSource) (pw : Word64) :
    (s.entered d i src pw).flag .dagStatusPwfmt d = (badPowerWord pw || s.flag .dagStatusPwfmt d) := by
  unfold State.entered
  cases hb : badPowerWord pw with
  | false => rfl
  | true => exact decide_eq_true (State.rd_wr_same _ .dagStatusPwfmt 1 d 0 (pwfmt_exists h))

/-- A window reads after the lookup as the descriptor has left it. -/
theorem State.window_lookupOf (s : State) (d : Nat) (key : Option LKey) (i : Nat) : ((s.lookupOf d key).die d).window i = (s.die d).window i :=
  congrArg (Store.get (fun _ => []) · i) (lookupOf_blind (lookup_windows d) s key)

/-! ## An invocation that completes -/

/-- The record that the Larder learns of an invocation, if its descriptor has a key. -/
def State.learned (s : State) (d : Nat) (r : Option UpdRec) : State :=
  match r with
  | some r => s.learnAt d r
  | none => s

theorem learned_blind {α : Type} {g : State → α} {d : Nat} (hg : LookupBlind g d) (s : State) (r : Option UpdRec) : g (s.learned d r) = g s := by
  cases r with
  | none => rfl
  | some r => exact learnAt_blind hg s r

/-- A die agent whose window has lost its head. -/
def DieState.completed (x : DieState) (c e : Nat) (l : List WinDesc) (r : DoneRun) : DieState :=
  { (x.setWindow (c * 6 + e) l).trimOverflow with done := r :: x.done, adm := x.adm.ended c e }

theorem exec_invocationComplete {s : State} {d : CDie} {k : Core} {e : Engine} (m : Measured) {w : WinDesc} {l : List WinDesc} (hs : s.aon = true)
    (hw : (s.die d.val).window (k.val * 6 + e.val) = w :: l) :
    ∃ r u, exec (.invocationComplete d k e m) s =
      .next (s.commit ((s.learned d.val u).updDie d.val fun x => x.completed k.val e.val l r)) := by
  have ran (u : Option UpdRec) (r : DoneRun) (h : execInvocationComplete d k e m s =
      .next (s.commit ((s.learned d.val u).updDie d.val fun x => x.completed k.val e.val l r))) :
      ∃ r u, exec (.invocationComplete d k e m) s =
        .next (s.commit ((s.learned d.val u).updDie d.val fun x => x.completed k.val e.val l r)) := ⟨r, u, h⟩
  cases hk : w.key with
  | none =>
    refine ran none { eng := k.val * 6 + e.val, queue := w.queue, cycles := m.cycles,
                      energy := s.normOf d.val (k.val * 6 + e.val) w.queue m.acts } ?_
    rw [execInvocationComplete, State.run_on _ hs]
    simp only [hw, hk]
    rfl
  | some key =>
    refine ran (some (w.record d.val key (w.energy + s.normOf d.val (k.val * 6 + e.val) w.queue m.acts) (w.cycles + m.cycles)))
      { eng := k.val * 6 + e.val, queue := w.queue, cycles := m.cycles, energy := s.normOf d.val (k.val * 6 + e.val) w.queue m.acts } ?_
    rw [execInvocationComplete, State.run_on _ hs]
    simp only [hw, hk]
    rfl

theorem invocationComplete_lands {s : State} {d : CDie} {k : Core} {e : Engine} (m : Measured) {w : WinDesc} {l : List WinDesc} (hs : s.aon = true)
    (hw : (s.die d.val).window (k.val * 6 + e.val) = w :: l) :
    ∃ t, exec (.invocationComplete d k e m) s = .next t ∧ (t.die d.val).window (k.val * 6 + e.val) = l ∧
      (∀ i, i ≠ k.val * 6 + e.val → (t.die d.val).window i = (s.die d.val).window i) ∧ (∀ x, x ≠ d.val → t.die x = s.die x) := by
  obtain ⟨r, u, ran⟩ := exec_invocationComplete m hs hw
  have kept (i : Nat) : ((s.learned d.val u).die d.val).window i = (s.die d.val).window i :=
    congrArg (Store.get (fun _ => []) · i) (learned_blind (lookup_windows d.val) s u)
  have window (x : DieState) (i : Nat) : (x.completed k.val e.val l r).window i = if i = k.val * 6 + e.val then l else x.window i :=
    x.window_setWindow (k.val * 6 + e.val) l i
  refine ⟨_, ran, ?_, fun i hi => ?_, fun x hx => ?_⟩
  · rw [State.die_commit, State.die_updDie, if_pos rfl, window, if_pos rfl]
  · rw [State.die_commit, State.die_updDie, if_pos rfl, window, if_neg hi, kept]
  · rw [State.die_commit, State.die_updDie, if_neg (Ne.symm hx), learned_blind (lookup_die hx)]

/-! ## Requests (R110, R111) -/

/-- The request that the head of a window makes. -/
def headRequest (k e : Nat) (w : WinDesc) : AdmReq :=
  { core := k, eng := e, queue := w.queue, pattern := w.pattern, cls := w.step, charge := none, learned := false, dly := 0, hit := false }

/-- A request that joins those pending. -/
def State.requested (s : State) (d : Nat) (r : AdmReq) : State := s.updDie d fun x => { x with adm := { x.adm with reqs := x.adm.reqs ++ [r] } }

section Request
variable {s : State} {d : CDie} {k : Core} {e : Engine} {w : WinDesc} {l : List WinDesc} (hs : s.aon = true)
  (hw : (s.die d.val).window (k.val * 6 + e.val) = w :: l)
include hs hw

theorem exec_stepRequest (power : (s.die d.val).powered = true) (run : (s.die d.val).inReset = false) (warm : s.svc ≠ svcCold)
    (idle : w.running = false) (steps : s.threshold d.val ≤ w.step) (free : ∀ r ∈ (s.die d.val).adm.reqs, ¬ (r.core = k.val ∧ r.eng = e.val))
    (may : s.svc = svcCalibrating → w.pattern = true) :
    exec (.stepRequest d k e) s = .next (s.commit ((s.requested d.val (headRequest k.val e.val w)).showPend d.val)) := by
  have noted : ((s.die d.val).adm.reqs.any fun r => r.core = k.val && r.eng = e.val) = false := by
    rw [List.any_eq_false]
    intro r hr
    simpa using free r hr
  have calm : (decide (s.svc = svcCalibrating) && !w.pattern) = false := by
    by_cases h : s.svc = svcCalibrating
    · simp [may h]
    · simp [h]
  change execStepRequest d k e s = _
  rw [execStepRequest, State.run_on _ hs]
  simp only [hw, power, run, warm, idle, not_lt.2 steps, calm, noted, Bool.not_true, decide_false, Bool.or_self, Bool.false_eq_true, if_false]
  rfl

theorem exec_stepRequest_calibrating (cal : s.svc = svcCalibrating) (hp : w.pattern = false) : exec (.stepRequest d k e) s = .next (s.commit s) := by
  change execStepRequest d k e s = _
  rw [execStepRequest, State.run_on _ hs]
  simp [hw, cal, hp]

end Request

theorem pend_exists {d : Nat} (h : d < 32) : (⟨.dagAdmstatPend, d, 0⟩ : FieldRef).exists = true := computeField_exists (fun _ => rfl) h

theorem State.onlyChanges_showPend {s n : State} {ts : List Tab} {d : Nat} (h : s.onlyChanges n (pendRefs d) ts) :
    s.onlyChanges (n.showPend d) (pendRefs d) ts := by
  unfold State.showPend
  dsimp only
  refine State.onlyChanges_each (upto 4) (State.onlyChanges_wr h _ _ _ _ (List.mem_append_right _ (List.mem_singleton_self _))) fun m c hc hm => ?_
  exact State.onlyChanges_wr hm .dagAdmcorePend _ d c (List.mem_append_left _ (List.mem_map_of_mem hc))

theorem State.pend_showPend (s : State) {d : Nat} (h : d < 32) :
    (s.showPend d).rd .dagAdmstatPend d = (s.die d).adm.reqs.length % 2 ^ (fieldDef .dagAdmstatPend).width :=
  (each_blind (g := fun t : State => t.rd .dagAdmstatPend d) _ _ (fun t _ => t.rd_wr_field _ _ _ _ _ (by decide)) _).trans
    (s.rd_wr_same .dagAdmstatPend _ d 0 (pend_exists h))

theorem State.dies_showPend (s : State) (d : Nat) : (s.showPend d).dies = s.dies :=
  (each_blind (g := State.dies) _ _ (fun t _ => t.wr_dies _ _ _ _) _).trans (s.wr_dies _ _ _ _)

theorem State.rd_showPend (s : State) (d : Nat) {f : Field} (i j : Nat) (hp : .dagAdmstatPend ≠ f) (hc : .dagAdmcorePend ≠ f) :
    (s.showPend d).rd f i j = s.rd f i j :=
  (each_blind (g := fun t : State => t.rd f i j) _ _ (fun t _ => t.rd_wr_field _ _ _ _ _ hc) _).trans (s.rd_wr_field _ _ _ _ _ hp)

theorem State.requested_lands (s : State) (d : CDie) (r : AdmReq) :
    let t := s.commit ((s.requested d.val r).showPend d.val)
    (t.die d.val).adm.reqs = (s.die d.val).adm.reqs ++ [r] ∧
      t.rd .dagAdmstatPend d.val = ((s.die d.val).adm.reqs.length + 1) % 2 ^ (fieldDef .dagAdmstatPend).width ∧
      s.sameTabsBut t [.dies] ∧ t.core = s.core ∧ ∀ x, x ≠ d.val → t.die x = s.die x := by
  have reqs : ((s.requested d.val r).die d.val).adm.reqs = (s.die d.val).adm.reqs ++ [r] := by
    rw [State.requested, State.die_updDie, if_pos rfl]
  obtain ⟨-, tabs, core⟩ := State.onlyChanges_commit (State.onlyChanges_showPend
    (State.onlyChanges_updDie (s.onlyChanges_refl (pendRefs d.val) [.dies]) d.val (fun x => { x with adm := { x.adm with reqs := x.adm.reqs ++ [r] } })
      List.mem_cons_self))
  refine ⟨?_, ?_, tabs, core, fun x hx => ?_⟩
  · rw [State.die_commit, State.die, State.dies_showPend]
    exact reqs
  · rw [State.rd_commit _ _ _ _ _ rfl, State.pend_showPend _ d.isLt, reqs, List.length_append, List.length_singleton]
  · rw [State.die_commit, State.die, State.dies_showPend]
    exact (s.die_updDie _ _ _).trans (if_neg (Ne.symm hx))

end Sys2Proof.Machine

/-!
Settles O32: how a slot's arbitration serves or refuses the requests of a die (R119, R126), with the windows and requests before it.
-/
namespace Sys2Proof.Machine

/-! ## The end of a request -/

/-- A reading that the end of a request at die `d` reaches through the state of that die's admission alone. -/
structure AdmBlind {α : Type} (g : State → α) (d : Nat) : Prop extends BookBlind g where
  putAny : ∀ s (r : FieldRef) v, g (s.put r v) = g s
  die : ∀ s f, (∀ x, (f x).adm = x.adm) → g (State.updDie s d f) = g s
  rails : ∀ s x, g { s with rails := x } = g s

theorem adm_of {α : Type} {g : State → α} {d : Nat} (hr : ∀ s x, g { s with regs := x } = g s) (hl : ∀ s x, g { s with limits := x } = g s)
    (book : BookBlind g) (die : ∀ s f, (∀ x, (f x).adm = x.adm) → g (State.updDie s d f) = g s) (rails : ∀ s x, g { s with rails := x } = g s) :
    AdmBlind g d := { book with putAny := fun s r v => State.put_other g hr hl s r v, die, rails }

theorem adm_adm (d : Nat) : AdmBlind (fun t : State => (t.die d).adm) d := by
  apply adm_of
  case book => apply book_of <;> intros <;> rfl
  case die =>
    intro s f hf
    rw [State.die_updDie, if_pos rfl, hf]
  all_goals intros; rfl

theorem adm_die {x d : Nat} (h : x ≠ d) : AdmBlind (fun t : State => t.die x) d := by
  apply adm_of
  case book => apply book_of <;> intros <;> rfl
  case die =>
    intro s f _
    rw [State.die_updDie, if_neg (Ne.symm h)]
  all_goals intros; rfl

theorem adm_floorOn (d : Nat) : AdmBlind (fun t : State => t.floorOn) d := by
  apply adm_of
  case book => apply book_of <;> intros <;> rfl
  all_goals intros; rfl

/-- The admission of a die whose request has ended: the request is gone and its notice is out (R119). -/
def AdmState.without (x : AdmState) (r : AdmReq) (n : StepOut) : AdmState :=
  { x with reqs := x.reqs.filter (fun y => !(y.core = r.core && y.eng = r.eng)), notices := x.notices ++ [n] }

/-- A request that has ended, with its invocation started. -/
def State.requestEnded (s : State) (d : Nat) (r : AdmReq) (n : StepOut) : State :=
  (s.updDie d fun x => { x.startHead (r.core * 6 + r.eng) with
    adm := { x.adm with reqs := x.adm.reqs.filter (fun y => !(y.core = r.core && y.eng = r.eng)) } }).notice d n

theorem State.adm_requestEnded (s : State) (d : Nat) (r : AdmReq) (n : StepOut) :
    ((s.requestEnded d r n).die d).adm = (s.die d).adm.without r n := by
  rw [State.requestEnded, State.notice, State.die_updDie, if_pos rfl, State.die_updDie, if_pos rfl]
  rfl

section AdmBlind
variable {α : Type} {g : State → α} {d : Nat} (hg : AdmBlind g d)
include hg

theorem wr_adm (s : State) (f : Field) (v i j : Nat) : g (s.wr f v i j) = g s := hg.putAny s ⟨f, i, j⟩ v

theorem count_adm (s : State) (f : Field) (n i j : Nat) : g (s.count f n i j) = g s := hg.putAny s ⟨f, i, j⟩ _

theorem puts_adm (s : State) (l : List (FieldRef × Nat)) : g (s.puts l) = g s := by
  induction l generalizing s with
  | nil => rfl
  | cons e l ih => exact (ih _).trans (hg.putAny s e.1 e.2)

theorem trace_adm (s : State) (type core eng a b : Nat) : g (s.trace d type core eng a b) = g s := by
  have record (r : TraceRec) : g (s.traceRecord d r) = g s := by
    unfold State.traceRecord
    dsimp only
    split
    · rfl
    · split
      · exact (hg.die _ _ (by intro; rfl)).trans (count_adm hg _ _ _ _ _)
      · rw [wr_adm hg]
        split
        · exact (count_adm hg _ _ _ _ _).trans (hg.die _ _ (by intro; rfl))
        · exact hg.die _ _ fun _ => rfl
  unfold State.trace
  split
  · exact record _
  · rfl

theorem allPhases_adm (s : State) (r : Nat) : g (s.allPhases r) = g s := by
  have upd (t : State) (q : Nat) (f : RailState → RailState) : g (t.updRail q f) = g t := hg.rails t _
  refine (upd _ _ _).trans (each_blind _ _ (fun t p => ?_) s)
  unfold State.setPhase
  split
  · rfl
  · exact (upd _ _ _).trans (wr_adm hg _ _ _ _ _)

theorem showPend_adm (s : State) (e : Nat) : g (s.showPend e) = g s :=
  (each_blind _ _ (fun t _ => wr_adm hg t _ _ _ _) _).trans (wr_adm hg s _ _ _ _)

/-- Beside its request and its notice, the end of a request counts, shows and traces. -/
theorem admEnd_adm (s : State) (r : AdmReq) (out cause : Nat) :
    g (s.admEnd d r out cause) = g (s.requestEnded d r { core := r.core, eng := r.eng, out, go := true, dly := r.dly, cause }) := by
  have tallied (t : State) (f h : Field) (q : Nat) (k : Stat) : g ((if r.pattern then t.count f 1 d else (t.count f 1 d).count h 1 q).tallyDie d k 1) = g t := by
    refine (tallyDie_book hg.toBookBlind _ _ _ _).trans ?_
    split
    · exact count_adm hg _ _ _ _ _
    · exact (count_adm hg _ _ _ _ _).trans (count_adm hg _ _ _ _ _)
  have ended (t : State) (b c : Prop) [Decidable b] [Decidable c] (f1 h1 f2 h2 f3 h3 : Field) (q : Nat) (k1 k2 k3 : Stat) :
      g (if b then (if r.pattern then t.count f1 1 d else (t.count f1 1 d).count h1 1 q).tallyDie d k1 1
        else if c then (if r.pattern then t.count f2 1 d else (t.count f2 1 d).count h2 1 q).tallyDie d k2 1
        else (if r.pattern then t.count f3 1 d else (t.count f3 1 d).count h3 1 q).tallyDie d k3 1) = g t := by
    split
    · exact tallied _ _ _ _ _
    · split
      · exact tallied _ _ _ _ _
      · exact tallied _ _ _ _ _
  have shown (t : State) (c : Nat) (p : Prop) [Decidable p] : g (if p then t else t.admHits d c) = g t := by
    split
    · rfl
    · exact hg.die _ _ fun _ => rfl
  have traced (t : State) (p : Bool) (c q a b : Nat) : g (if p then t.trace d 2 c q a b else t) = g t := by
    split
    · exact trace_adm hg _ _ _ _ _ _
    · rfl
  unfold State.admEnd
  dsimp only
  exact (traced _ _ _ _ _ _).trans ((shown _ _ _).trans ((ended _ _ _ _ _ _ _ _ _ _ _ _ _).trans ((count_adm hg _ _ _ _ _).trans (puts_adm hg _ _))))

end AdmBlind

/-! ## The steps of an arbitration -/

/-- The feed-forward of a step that is served, given to its rail (R122). -/
def State.fedForward (s : State) (d : Nat) : Option Rat → State
  | some f => s.updRail d fun x => { x with ff := x.ff + f }
  | none => s

/-- The step served enters the slot's charges and the pointer moves on (R120, R126). -/
def State.served (s t : State) (d : Nat) (r : AdmReq) (ff : Option Rat) : State :=
  t.updDie d fun x => { x with adm := { x.adm with
    chargeNow := x.adm.chargeNow + r.amps
    next := x.adm.next ++ [{ core := r.core, eng := r.eng, queue := r.queue, charge := r.amps, cur := s.ffCurrent d r, ff, live := true }]
    ptr := (r.core + 1) % 4
    limiters := x.adm.limiters.filter (fun l => !(l.core = r.core && l.eng = r.eng)) } }

theorem State.admServe_eq (s : State) (d : Nat) (r : AdmReq) :
    s.admServe d r =
      if 4 ≤ r.class then ((s.served (s.admEnd d r (if r.dly = 0 then 1 else 2) 0) d r (s.stepFf d r)).fedForward d (s.stepFf d r)).allPhases d
      else (s.served (s.admEnd d r (if r.dly = 0 then 1 else 2) 0) d r (s.stepFf d r)).fedForward d (s.stepFf d r) := by
  unfold State.admServe
  cases s.stepFf d r <;> rfl

/-! ## What the arbitration of one die leaves -/

/-- A reading that the admission of die `d` does not reach. -/
structure AdmAway {α : Type} (g : State → α) (d : Nat) : Prop extends AdmBlind g d where
  any : ∀ s f, g (State.updDie s d f) = g s

theorem away_die {x d : Nat} (h : x ≠ d) : AdmAway (fun t : State => t.die x) d :=
  { adm_die h with any := fun s f => (s.die_updDie d f x).trans (if_neg (Ne.symm h)) }

theorem away_floorOn (d : Nat) : AdmAway (fun t : State => t.floorOn) d := { adm_floorOn d with any := fun _ _ => rfl }

section AdmAway
variable {α : Type} {g : State → α} {d : Nat} (hg : AdmAway g d)
include hg

theorem admEnd_away (s : State) (r : AdmReq) (out cause : Nat) : g (s.admEnd d r out cause) = g s :=
  (admEnd_adm hg.toAdmBlind s r out cause).trans ((hg.any _ _).trans (hg.any _ _))

theorem admRefuse_away (s : State) (r : AdmReq) (cause : Nat) : g (s.admRefuse d r cause) = g s :=
  (hg.any _ _).trans (admEnd_away hg _ _ _ _)

theorem admServe_away (s : State) (r : AdmReq) : g (s.admServe d r) = g s := by
  have fed (t : State) (ff : Option Rat) : g (t.fedForward d ff) = g t := by
    cases ff with
    | none => rfl
    | some f => exact hg.rails _ _
  rw [State.admServe_eq]
  split
  · exact (allPhases_adm hg.toAdmBlind _ _).trans ((fed _ _).trans ((hg.any _ _).trans (admEnd_away hg _ _ _ _)))
  · exact (fed _ _).trans ((hg.any _ _).trans (admEnd_away hg _ _ _ _))

theorem arbitrate1_away (s : State) (first : Bool) (a : Arb) (r : AdmReq) : g (s.arbitrate1 d first a r).2 = g s := by
  unfold State.arbitrate1
  dsimp only
  split
  · exact admServe_away hg _ _
  · split
    · exact admRefuse_away hg _ _ _
    · exact (hg.any _ _).trans (hg.any _ _)

theorem refuseAll_away (s : State) (a : Arb) (l : List AdmReq) : g (s.refuseAll d a l).2 = g s := by
  induction l generalizing s a with
  | nil => rfl
  | cons r l ih =>
    unfold State.refuseAll
    split
    · exact (ih _ _).trans (admRefuse_away hg _ _ _)
    · exact ih _ _

theorem arbitrateAll_away (s : State) (first : Bool) (a : Arb) (l : List AdmReq) : g (s.arbitrateAll d first a l).2 = g s := by
  induction l generalizing s first a with
  | nil => rfl
  | cons r l ih => exact (ih _ _ _).trans (arbitrate1_away hg _ _ _ _)

theorem settle_away (s : State) : g (s.settle d) = g s := by
  refine each_blind _ _ (fun t r => ?_) s
  split
  · rfl
  · dsimp only
    split
    · exact (count_adm hg.toAdmBlind _ _ _ _ _).trans (hg.any _ _)
    · exact hg.any _ _

theorem arbitrate_away (s : State) : g (s.arbitrate d) = g s := by
  unfold State.arbitrate
  dsimp only
  rw [showPend_adm hg.toAdmBlind, wr_adm hg.toAdmBlind, wr_adm hg.toAdmBlind, hg.any, arbitrateAll_away hg, refuseAll_away hg, settle_away hg, hg.any]

end AdmAway

/-! ## In the floor state every request is refused -/

theorem mem_insertBy {lt : AdmReq → AdmReq → Bool} {r y : AdmReq} (l : List AdmReq) : y ∈ insertBy lt r l ↔ y = r ∨ y ∈ l := by
  induction l with
  | nil => simp [insertBy]
  | cons q l ih =>
    unfold insertBy
    split
    · exact List.mem_cons
    · rw [List.mem_cons, ih, List.mem_cons]
      tauto

/-- The arbitration takes up every request that is pending. -/
theorem State.mem_ranked (s : State) (d : Nat) {y : AdmReq} : y ∈ s.ranked d ↔ y ∈ (s.die d).adm.reqs := by
  have fold (l m : List AdmReq) : y ∈ l.foldl (fun l r => insertBy (s.before d) r l) m ↔ y ∈ m ∨ y ∈ l := by
    induction l generalizing m with
    | nil => simp
    | cons r l ih =>
      rw [List.foldl_cons, ih, mem_insertBy, List.mem_cons]
      tauto
  exact (fold _ _).trans (by simp)

theorem State.adm_admRefuse (s : State) (d : Nat) (r : AdmReq) (cause : Nat) :
    ((s.admRefuse d r cause).die d).adm.reqs = (s.die d).adm.reqs.filter (fun y => !(y.core = r.core && y.eng = r.eng)) ∧
      ((s.admRefuse d r cause).die d).adm.next = (s.die d).adm.next := by
  have ended : ((s.admEnd d r 3 cause).die d).adm =
      (s.die d).adm.without r { core := r.core, eng := r.eng, out := 3, go := true, dly := r.dly, cause } :=
    (admEnd_adm (adm_adm d) s r 3 cause).trans (s.adm_requestEnded d r _)
  rw [State.admRefuse, State.die_updDie, if_pos rfl]
  change ((s.admEnd d r 3 cause).die d).adm.reqs = _ ∧ ((s.admEnd d r 3 cause).die d).adm.next = _
  rw [ended]
  exact ⟨rfl, rfl⟩

/-- In the floor state every request taken up is refused, and none is served. -/
theorem State.refuseAll_floor {s : State} (d : Nat) (a : Arb) (l : List AdmReq) (floor : s.floorOn = true) :
    ((s.refuseAll d a l).2.die d).adm.next = (s.die d).adm.next ∧
      ∀ y ∈ ((s.refuseAll d a l).2.die d).adm.reqs, y ∈ (s.die d).adm.reqs ∧ ∀ r ∈ l, ¬ (y.core = r.core ∧ y.eng = r.eng) := by
  induction l generalizing s a with
  | nil => exact ⟨rfl, fun y hy => ⟨hy, fun r hr => absurd hr List.not_mem_nil⟩⟩
  | cons r l ih =>
    have refused : s.refusedAtOnce d a.budget r = some 3 := by rw [State.refusedAtOnce, floor]; rfl
    have floor' : (s.admRefuse d r 3).floorOn = true := (admRefuse_away (away_floorOn d) s r 3).trans floor
    obtain ⟨reqs, next⟩ := s.adm_admRefuse d r 3
    obtain ⟨next', reqs'⟩ := ih (s.refuseFrom d a r 3).1 floor'
    unfold State.refuseAll
    rw [refused]
    refine ⟨next'.trans next, fun y hy => ?_⟩
    obtain ⟨here, others⟩ := reqs' y hy
    rw [reqs, List.mem_filter] at here
    obtain ⟨pending, apart⟩ := here
    refine ⟨pending, fun q hq => ?_⟩
    rcases List.mem_cons.1 hq with rfl | hq
    · exact fun ⟨hc, he⟩ => by simp [hc, he] at apart
    · exact others q hq

theorem State.next_settle (s : State) (d : Nat) : ((s.settle d).die d).adm.next = (s.die d).adm.next := by
  refine each_blind (g := fun t : State => (t.die d).adm.next) _ _ (fun t r => ?_) s
  have kept (f : AdmReq → AdmReq) : ((t.updDie d fun x => { x with adm := { x.adm with reqs := x.adm.reqs.map f } }).die d).adm.next =
      (t.die d).adm.next := by rw [State.die_updDie, if_pos rfl]
  split
  · rfl
  · dsimp only
    split
    · rw [State.die, State.count_dies]
      exact kept _
    · exact kept _

/-- A slot's arbitration begun: the notices and the steps of the slot before are gone (R124). -/
def State.slotBegun (s : State) (d : Nat) : State :=
  s.updDie d fun x => { x with adm := { x.adm with notices := [], next := [], arbDone := true, excess := 0, debt := 0 } }

/-- The budget and the debt with which a slot's arbitration begins. -/
def State.slotArb (s : State) (d : Nat) : Arb :=
  let x := (s.die d).adm
  let rises : Rat := x.limiters.foldl (fun n l => n + (l.charge : Rat) / l.den) 0
  let owed := min (x.debt : Rat) (s.slotBudget d)
  { budget := s.slotBudget d, rem := max 0 ((s.slotBudget d : Rat) - owed - x.excess - rises), served := false, blocked := false,
    debt := (x.debt : Rat) - owed }

/-- The requests that cannot be served at once, refused. -/
def State.slotRefused (s : State) (d : Nat) : Arb × State :=
  ((s.slotBegun d).settle d).refuseAll d (s.slotArb d) (((s.slotBegun d).settle d).ranked d)

/-- The others arbitrated. -/
def State.slotArbitrated (s : State) (d : Nat) : Arb × State :=
  (s.slotRefused d).2.arbitrateAll d true (s.slotRefused d).1 ((s.slotRefused d).2.ranked d)

/-- The debt that the slot leaves. -/
def State.slotOver (s : State) (d : Nat) : State :=
  (s.slotArbitrated d).2.updDie d fun y => { y with adm := { y.adm with debt := (s.slotArbitrated d).1.debt.floor.toNat } }

theorem State.arbitrate_eq (s : State) (d : Nat) :
    s.arbitrate d = ((((s.slotOver d).wr .dagAdmstatBud (s.slotBudget d) d).wr .dagAdmstatFloorref (bit (s.floorOn || s.holdover d)) d).showPend d) := rfl

/-- What the slot has made of the admission of its die is what the die then holds, but for the debt. -/
theorem State.adm_arbitrate (s : State) (d : Nat) {α : Type} {g : AdmState → α} (debt : ∀ x n, g { x with debt := n } = g x) :
    g ((s.arbitrate d).die d).adm = g ((s.slotArbitrated d).2.die d).adm := by
  rw [State.arbitrate_eq, State.die, State.dies_showPend, State.wr_dies, State.wr_dies]
  exact (congrArg (fun x : DieState => g x.adm) ((State.die_updDie _ _ _ _).trans (if_pos rfl))).trans (debt _ _)

theorem State.slot_floor {s : State} (d : Nat) (floor : s.floorOn = true) :
    ((s.slotArbitrated d).2.die d).adm.reqs = [] ∧ ((s.slotArbitrated d).2.die d).adm.next = [] := by
  have begun : ((s.slotBegun d).die d).adm.next = [] := by rw [State.slotBegun, State.die_updDie, if_pos rfl]
  have floor' : ((s.slotBegun d).settle d).floorOn = true := (settle_away (away_floorOn d) _).trans floor
  obtain ⟨next, reqs⟩ := State.refuseAll_floor d (s.slotArb d) (((s.slotBegun d).settle d).ranked d) floor'
  have none : ((s.slotRefused d).2.die d).adm.reqs = [] := List.eq_nil_iff_forall_not_mem.2 fun y hy => by
    obtain ⟨pending, apart⟩ := reqs y hy
    exact apart y ((State.mem_ranked _ d).2 pending) ⟨rfl, rfl⟩
  have done : (s.slotArbitrated d).2 = (s.slotRefused d).2 := by
    have empty : (s.slotRefused d).2.ranked d = [] := by rw [State.ranked, none]; rfl
    rw [State.slotArbitrated, empty]
    rfl
  rw [done]
  exact ⟨none, next.trans ((State.next_settle _ d).trans begun)⟩

/-! ## A request alone (R119, R126) -/

theorem State.adm_slotBegun (s : State) (d : Nat) :
    ((s.slotBegun d).die d).adm =
      { (s.die d).adm with notices := [], next := [], arbDone := true, excess := 0, debt := 0 } := by
  rw [State.slotBegun, State.die_updDie, if_pos rfl]

/-- What decides a request reads alike before the slot's arbitration and after it has begun. -/
theorem State.refusedAtOnce_slotBegun (s : State) (d b : Nat) (r : AdmReq) : (s.slotBegun d).refusedAtOnce d b r = s.refusedAtOnce d b r := rfl

theorem State.slowStart_slotBegun (s : State) (d : Nat) : (s.slotBegun d).slowStart d = s.slowStart d := rfl

theorem State.headroom_slotBegun (s : State) (d : Nat) : (s.slotBegun d).headroom d = s.headroom d := by
  have applied : ((s.slotBegun d).die d).applied = (s.die d).applied := by rw [State.slotBegun, State.die_updDie, if_pos rfl]
  have now : ((s.slotBegun d).die d).adm.chargeNow = (s.die d).adm.chargeNow :=
    (congrArg AdmState.chargeNow (s.adm_slotBegun d)).trans rfl
  have last : ((s.slotBegun d).die d).adm.chargeLast = (s.die d).adm.chargeLast :=
    (congrArg AdmState.chargeLast (s.adm_slotBegun d)).trans rfl
  have slow := s.slowStart_slotBegun d
  unfold State.headroom
  rw [applied, now, last, slow]
  rfl

section Alone
variable {s : State} {d c : Nat} {r : AdmReq} (alone : (s.die d).adm.reqs = [r]) (charged : r.charge = some c) (owed : (s.die d).adm.debt = 0)
  (excess : (s.die d).adm.excess = 0) (free : (s.die d).adm.limiters = []) (may : s.refusedAtOnce d (s.slotBudget d) r = none)
  (steady : s.slowStart d = false) (fits : classBound c ≤ s.slotBudget d) (room : s.chargePower d (classBound c) ≤ s.headroom d)
include alone charged owed excess free may

theorem State.slotRefused_alone :
    s.slotRefused d = ({ budget := s.slotBudget d, rem := s.slotBudget d, served := false, blocked := false, debt := 0 }, s.slotBegun d) := by
  have reqs : ((s.slotBegun d).die d).adm.reqs = [r] := (congrArg AdmState.reqs (s.adm_slotBegun d)).trans alone
  have settled : (s.slotBegun d).settle d = s.slotBegun d := by
    unfold State.settle
    rw [reqs]
    exact if_pos (by rw [charged]; rfl)
  have ranked : (s.slotBegun d).ranked d = [r] := by
    unfold State.ranked
    rw [reqs]
    rfl
  have arb : s.slotArb d = { budget := s.slotBudget d, rem := s.slotBudget d, served := false, blocked := false, debt := 0 } := by
    have pos : (0 : Rat) ≤ s.slotBudget d := Nat.cast_nonneg _
    unfold State.slotArb
    simp [owed, excess, free, pos]
  have now : (s.slotBegun d).refusedAtOnce d (s.slotBudget d) r = none := (s.refusedAtOnce_slotBegun d _ r).trans may
  rw [State.slotRefused, settled, ranked, arb]
  simp only [State.refuseAll, now]

include steady fits room

theorem State.slotArbitrated_alone : (s.slotArbitrated d).2 = (s.slotBegun d).admServe d r := by
  have amps : r.amps = classBound c := by rw [AdmReq.amps, AdmReq.class, charged]; rfl
  have reqs : ((s.slotBegun d).die d).adm.reqs = [r] := (congrArg AdmState.reqs (s.adm_slotBegun d)).trans alone
  have ranked : (s.slotBegun d).ranked d = [r] := by
    unfold State.ranked
    rw [reqs]
    rfl
  have inBudget : (r.amps : Rat) ≤ (s.slotBudget d : Nat) := by rw [amps]; exact_mod_cast fits
  have inRoom : (s.slotBegun d).chargePower d r.amps ≤ (s.slotBegun d).headroom d := by
    rw [s.headroom_slotBegun d, amps]
    exact room
  rw [State.slotArbitrated, State.slotRefused_alone alone charged owed excess free may, ranked]
  simp only [State.arbitrateAll, State.arbitrate1, inBudget, inRoom, s.slowStart_slotBegun d, steady, decide_true, Bool.true_or, Bool.false_and,
    Bool.not_false, Bool.and_true, if_true]

theorem State.served_alone :
    ((s.slotArbitrated d).2.die d).adm.reqs = [] ∧ ((s.slotArbitrated d).2.die d).adm.chargeNow = (s.die d).adm.chargeNow + classBound c ∧
      ((s.slotArbitrated d).2.die d).adm.notices =
        [{ core := r.core, eng := r.eng, out := if r.dly = 0 then 1 else 2, go := true, dly := r.dly, cause := 0 }] := by
  have amps : r.amps = classBound c := by rw [AdmReq.amps, AdmReq.class, charged]; rfl
  have ended : (((s.slotBegun d).admEnd d r (if r.dly = 0 then 1 else 2) 0).die d).adm =
      ((s.slotBegun d).die d).adm.without r
        { core := r.core, eng := r.eng, out := if r.dly = 0 then 1 else 2, go := true, dly := r.dly, cause := 0 } :=
    (admEnd_adm (adm_adm d) _ r _ 0).trans (State.adm_requestEnded _ d r _)
  have fed (t : State) (ff : Option Rat) : ((t.fedForward d ff).die d).adm = (t.die d).adm := by cases ff <;> rfl
  have phases (t : State) : ((t.allPhases d).die d).adm = (t.die d).adm := allPhases_adm (adm_adm d) t d
  have adm : (((s.slotBegun d).admServe d r).die d).adm =
      (((s.slotBegun d).served ((s.slotBegun d).admEnd d r (if r.dly = 0 then 1 else 2) 0) d r ((s.slotBegun d).stepFf d r)).die d).adm := by
    rw [State.admServe_eq]
    split
    · rw [phases, fed]
    · rw [fed]
  rw [State.slotArbitrated_alone alone charged owed excess free may steady fits room, adm, State.served, State.die_updDie, if_pos rfl]
  change (((s.slotBegun d).admEnd d r (if r.dly = 0 then 1 else 2) 0).die d).adm.reqs = [] ∧
    (((s.slotBegun d).admEnd d r (if r.dly = 0 then 1 else 2) 0).die d).adm.chargeNow + r.amps = _ ∧
    (((s.slotBegun d).admEnd d r (if r.dly = 0 then 1 else 2) 0).die d).adm.notices = _
  rw [ended, s.adm_slotBegun d, amps]
  refine ⟨?_, rfl, rfl⟩
  change (s.die d).adm.reqs.filter _ = []
  rw [alone]
  simp

end Alone

theorem exec_admissionArbitration {s : State} {d : CDie} (hs : s.aon = true) (power : (s.die d.val).powered = true)
    (run : (s.die d.val).inReset = false) (due : (s.die d.val).adm.arbDone = false) :
    exec (.admissionArbitration d) s = .next (s.commit (s.arbitrate d.val)) := by
  change execAdmissionArbitration d s = _
  rw [execAdmissionArbitration, State.run_on _ hs]
  simp only [power, run, due, Bool.not_true, Bool.false_and, Bool.or_self, Bool.false_eq_true, if_false]

theorem State.arbDone_slotArbitrated (s : State) (d : Nat) : ((s.slotArbitrated d).2.die d).adm.arbDone = true := by
  have ended (t : State) (r : AdmReq) (out cause : Nat) : ((t.admEnd d r out cause).die d).adm.arbDone = (t.die d).adm.arbDone :=
    (congrArg AdmState.arbDone ((admEnd_adm (adm_adm d) t r out cause).trans (t.adm_requestEnded d r _))).trans rfl
  have kept (t : State) (f : DieState → DieState) (hf : ∀ x, (f x).adm.arbDone = x.adm.arbDone) :
      ((t.updDie d f).die d).adm.arbDone = (t.die d).adm.arbDone := by rw [State.die_updDie, if_pos rfl, hf]
  have refuse (t : State) (r : AdmReq) (cause : Nat) : ((t.admRefuse d r cause).die d).adm.arbDone = (t.die d).adm.arbDone :=
    (kept _ _ (by intro; rfl)).trans (ended _ _ _ _)
  have serve (t : State) (r : AdmReq) : ((t.admServe d r).die d).adm.arbDone = (t.die d).adm.arbDone := by
    have fed (t : State) (ff : Option Rat) : ((t.fedForward d ff).die d).adm.arbDone = (t.die d).adm.arbDone := by cases ff <;> rfl
    have phases (t : State) : ((t.allPhases d).die d).adm.arbDone = (t.die d).adm.arbDone :=
      congrArg AdmState.arbDone (allPhases_adm (adm_adm d) t d)
    have taken (u : State) (ff : Option Rat) : ((t.served u d r ff).die d).adm.arbDone = (u.die d).adm.arbDone := by
      rw [State.served, State.die_updDie, if_pos rfl]
    rw [State.admServe_eq]
    split
    · rw [phases, fed, taken, ended]
    · rw [fed, taken, ended]
  have delay (t : State) (r : AdmReq) : ((t.admDelay d r).die d).adm.arbDone = (t.die d).adm.arbDone :=
    (kept _ _ (by intro; rfl)).trans (kept _ _ (by intro; rfl))
  have all (l : List AdmReq) : ∀ (t : State) (first : Bool) (a : Arb), ((t.arbitrateAll d first a l).2.die d).adm.arbDone = (t.die d).adm.arbDone := by
    induction l with
    | nil => exact fun _ _ _ => rfl
    | cons r l ih =>
      intro t first a
      refine (ih _ _ _).trans ?_
      unfold State.arbitrate1
      dsimp only
      split
      · exact serve _ _
      · split
        · exact refuse _ _ _
        · exact delay _ _
  have refused (l : List AdmReq) : ∀ (t : State) (a : Arb), ((t.refuseAll d a l).2.die d).adm.arbDone = (t.die d).adm.arbDone := by
    induction l with
    | nil => exact fun _ _ => rfl
    | cons r l ih =>
      intro t a
      unfold State.refuseAll
      split
      · exact (ih _ _).trans (refuse _ _ _)
      · exact ih _ _
  have settled (t : State) : ((t.settle d).die d).adm.arbDone = (t.die d).adm.arbDone := by
    refine each_blind (g := fun t : State => (t.die d).adm.arbDone) _ _ (fun u r => ?_) t
    split
    · rfl
    · dsimp only
      split
      · rw [State.die, State.count_dies]
        exact kept _ _ (by intro; rfl)
      · exact kept _ _ (by intro; rfl)
  rw [State.slotArbitrated, all, State.slotRefused, refused, settled, s.adm_slotBegun d]

theorem State.showsSlot (s : State) {d : Nat} (h : d < 32) :
    (s.arbitrate d).rd .dagAdmstatBud d = s.slotBudget d % 2 ^ (fieldDef .dagAdmstatBud).width ∧
      (s.floorOn = true → (s.arbitrate d).flag .dagAdmstatFloorref d = true) := by
  rw [State.arbitrate_eq]
  refine ⟨?_, fun floor => ?_⟩
  · rw [State.rd_showPend _ _ _ _ (by decide) (by decide), State.rd_wr_field _ _ _ _ _ _ (by decide)]
    exact State.rd_wr_same _ .dagAdmstatBud _ d 0 (computeField_exists (fun _ => rfl) h)
  · rw [State.flag, State.rd_showPend _ _ _ _ (by decide) (by decide), floor]
    exact decide_eq_true (State.rd_wr_same _ .dagAdmstatFloorref _ d 0 (computeField_exists (fun _ => rfl) h))

/-- Settles O32: a window changes by the descriptor's own list, its lookup apart; a request joins those pending; and a slot's arbitration refuses
all in the floor state and serves one alone that fits. -/
theorem windowsAndRequests : Obligations.WindowsAndRequests := by
  refine ⟨fun s d k e q pw m hs => ⟨fun power run warm room => ⟨?_, fun pat => ?_⟩, fun off => ?_, fun full => ?_, fun w l hw =>
      invocationComplete_lands m hs hw, fun reset => ?_⟩,
    fun s d k e w l hs power run => ⟨fun hw warm idle steps free => ⟨fun may => ?_, fun cal hp => ?_⟩, fun due => ?_⟩⟩
  · refine ⟨_, exec_descriptorEnters (src := .queue q) pw hs power run warm room DescSource.noConfusion, ?_, fun i hi => ?_, ?_, fun x hx => ?_⟩
    · rw [State.die_commit, State.window_lookupOf, State.window_entered, if_pos rfl]
      rfl
    · rw [State.die_commit, State.window_lookupOf, State.window_entered, if_neg hi]
    · rw [State.flag, State.rd_commit _ _ _ _ _ rfl, lookupOf_blind (lookup_rd _ _ (by decide) _)]
      exact s.pwfmt_entered d.isLt _ _ pw
    · rw [State.die_commit, lookupOf_blind (lookup_die hx)]
      exact s.die_entered hx _ _ pw
  · refine ⟨_, exec_descriptorEnters (src := .pattern) pw hs power run warm room fun _ => pat, ?_⟩
    rw [State.die_commit, State.window_lookupOf, State.window_entered, if_pos rfl]
    rfl
  · exact ⟨_, exec_descriptorRefused (src := .pattern) pw hs (.inr (.inr ⟨rfl, off⟩)), State.onlyChanges_commit (s.onlyChanges_refl _ _)⟩
  · exact ⟨_, exec_descriptorRefused pw hs (.inr (.inl full)), State.onlyChanges_commit (s.onlyChanges_refl _ _)⟩
  · exact ⟨_, exec_descriptorRefused pw hs (.inl reset), State.onlyChanges_commit (s.onlyChanges_refl _ _)⟩
  · exact ⟨_, exec_stepRequest hs hw power run warm idle steps free may, s.requested_lands d (headRequest k.val e.val w)⟩
  · exact ⟨_, exec_stepRequest_calibrating hs hw cal hp, State.onlyChanges_commit (s.onlyChanges_refl _ _)⟩
  · obtain ⟨budget, floorref⟩ := s.showsSlot d.isLt
    refine ⟨_, exec_admissionArbitration hs power run due, ?_, (State.rd_commit _ _ _ _ _ rfl).trans budget, fun floor => ?_,
      fun r c alone charged owed excess free may steady fits room => ?_, fun x hx => ?_⟩
    · rw [State.die_commit]
      exact (s.adm_arbitrate d.val (g := AdmState.arbDone) fun _ _ => rfl).trans (s.arbDone_slotArbitrated d.val)
    · obtain ⟨reqs, next⟩ := State.slot_floor d.val floor
      rw [State.die_commit]
      refine ⟨(s.adm_arbitrate d.val (g := AdmState.reqs) fun _ _ => rfl).trans reqs, (s.adm_arbitrate d.val (g := AdmState.next) fun _ _ => rfl).trans next, ?_⟩
      rw [State.flag, State.rd_commit _ _ _ _ _ rfl]
      exact floorref floor
    · obtain ⟨reqs, charge, notices⟩ := State.served_alone alone charged owed excess free may steady fits room
      rw [State.die_commit]
      exact ⟨(s.adm_arbitrate d.val (g := AdmState.reqs) fun _ _ => rfl).trans reqs, (s.adm_arbitrate d.val (g := AdmState.chargeNow) fun _ _ => rfl).trans charge,
        (s.adm_arbitrate d.val (g := AdmState.notices) fun _ _ => rfl).trans notices⟩
    · rw [State.die_commit]
      exact arbitrate_away (away_die hx) s

end Sys2Proof.Machine

/-!
The trips of O33: what a trip of a working detector counts, stretches and holds (R144 to R152).
-/
namespace Sys2Proof.Machine

/-! ## Registers of the droop unit -/

theorem drpx_exists {d k : Nat} (hd : d < 40) (hk : k < dieDomains d) : (⟨.dagDrpxX, d, k⟩ : FieldRef).exists = true := by
  have one : Field.instances .dagDrpxX = 40 := rfl
  have all : (fieldDef .dagDrpxX).count = 4 := rfl
  have blk : (fieldDef .dagDrpxX).blk = .dag := rfl
  have four : k < 4 := lt_of_lt_of_le hk (by unfold dieDomains; split_ifs <;> omega)
  simp [FieldRef.exists, one, all, blk, hd, hk, four]

theorem drpcnt_exists {d i : Nat} (hd : d < 40) (hi : i < dieDetectors d) : (⟨.dagDrpcntT1, d, i⟩ : FieldRef).exists = true := by
  have one : Field.instances .dagDrpcntT1 = 40 := rfl
  have all : (fieldDef .dagDrpcntT1).count = 64 := rfl
  have blk : (fieldDef .dagDrpcntT1).blk = .dag := rfl
  have most : i < 64 := lt_of_lt_of_le hi (by unfold dieDetectors; split_ifs <;> omega)
  simp [FieldRef.exists, one, all, blk, hd, hi, most]

/-- A field of a die agent's block that every die has. -/
theorem everyDie_exists {f : Field} {d : Nat} (h : ∀ i, (⟨f, i, 0⟩ : FieldRef).exists =
      (decide (i < 40) && true && (decide (i < 32) || true))) (hd : d < 40) : (⟨f, d, 0⟩ : FieldRef).exists = true := by
  rw [h]
  simp [hd]

theorem detDomain_lt {d i : Nat} (hi : i < dieDetectors d) : detDomain d i < dieDomains d := by
  unfold dieDetectors at hi
  unfold detDomain dieDomains
  split_ifs at hi ⊢ <;> omega

/-! ## A trip (R148 to R152) -/

theorem State.tripDomains_nodup (s : State) (d i : Nat) : (s.tripDomains d i).Nodup := by
  unfold State.tripDomains
  split
  · exact List.nodup_range
  · exact List.nodup_singleton _

theorem State.tripDomains_lt (s : State) {d i k : Nat} (hi : i < dieDetectors d) (hk : k ∈ s.tripDomains d i) : k < dieDomains d := by
  unfold State.tripDomains at hk
  split at hk
  · next h =>
    have die : d < 32 := of_decide_eq_true (Bool.and_eq_true _ _ ▸ h).1
    have dom : dieDomains d = 4 := if_pos die
    rw [dom]
    exact List.mem_range.1 hk
  · exact List.mem_singleton.1 hk ▸ detDomain_lt hi

/-- A stretch writes X and HOLD of its domain, and the episodes of its die. -/
theorem State.stretch_other {α : Type} {g : State → α} (d i level queue k : Nat)
    (put : ∀ s (f : Field) v, f = .dagDrpxX ∨ f = .dagDrpxHold → g (State.wr s f v d k) = g s) (die : ∀ s f, g (State.updDie s d f) = g s) (s : State) :
    g (s.stretch d i level queue k) = g s :=
  (die _ _).trans ((put _ _ _ (.inr rfl)).trans ((put _ _ _ (.inl rfl)).trans (die _ _)))

theorem State.rd_stretch (s : State) (d i level queue k : Nat) {f : Field} (e j : Nat) (h : (f ≠ .dagDrpxX ∧ f ≠ .dagDrpxHold) ∨ j ≠ k) :
    (s.stretch d i level queue k).rd f e j = s.rd f e j := by
  refine State.stretch_other (g := fun t : State => t.rd f e j) d i level queue k (fun t x v hx => ?_) (fun _ _ => rfl) s
  refine State.reg_put_other t v fun same => ?_
  obtain ⟨rfl, rfl, rfl⟩ := FieldRef.mk.inj same
  rcases h with ⟨hX, hH⟩ | h
  · exact hx.elim hX hH
  · exact h rfl

theorem Store.find_insert {α : Type} (lt : Nat → Nat → Bool) (k : Nat) (v : α) (l : Store Nat α) (n : Nat) :
    (Store.insert lt k v l).find? (fun e => decide (e.1 = n)) =
      if k = n then some (k, v) else l.find? fun e => decide (e.1 = n) := by
  induction l with
  | nil =>
    unfold Store.insert
    by_cases h : k = n <;> simp [h]
  | cons e l ih =>
    obtain ⟨k', v'⟩ := e
    unfold Store.insert
    split
    · next same =>
      by_cases h : k = n
      · simp [h]
      · simp [h, ← same]
    · next other =>
      split
      · by_cases h : k = n
        · simp [h]
        · rw [List.find?_cons_of_neg (by simpa using h), if_neg h]
      · by_cases h : k' = n
        · have apart : k ≠ n := h ▸ other
          rw [List.find?_cons_of_pos (by simpa using h), List.find?_cons_of_pos (by simpa using h), if_neg apart]
        · rw [List.find?_cons_of_neg (by simpa using h), List.find?_cons_of_neg (by simpa using h), ih]

/-- The stretch of another domain leaves the episode of this one, or turns its cycles over (R154). -/
theorem State.find_noteRun (s : State) (d k n : Nat) :
    ((s.noteRun d k).die d).droop.episodes.find? (fun e => decide (e.1 = n)) =
      ((s.die d).droop.episodes.find? fun e => decide (e.1 = n)).map fun e => if e.1 = k then (k, e.2.turn (s.droopCounts d k)) else e := by
  rw [State.noteRun, State.die_updDie, if_pos rfl]
  change (((s.die d).droop.episodes.map fun e => if e.1 = k then (k, e.2.turn (s.droopCounts d k)) else e).find? fun e => decide (e.1 = n)) = _
  rw [List.find?_map]
  congr 1
  refine congrArg (fun p => List.find? p (s.die d).droop.episodes) (funext fun e => ?_)
  by_cases h : e.1 = k
  · simp [h]
  · simp [h]

theorem State.episodeStart_stretch (s : State) (d i level queue k n : Nat) (h : k = n ∨ (s.episodeStart d n).isSome = true) :
    ((s.stretch d i level queue k).episodeStart d n).isSome = true := by
  have noted (t : State) (x : Nat) : (t.noteEpisode d k i level x queue).episodeStart d n =
      if k = n then (t.noteEpisode d k i level x queue).episodeStart d k else t.episodeStart d n := by
    by_cases same : k = n
    · rw [if_pos same, same]
    · rw [if_neg same, State.episodeStart, State.noteEpisode, State.die_updDie, if_pos rfl, Store.find_insert, if_neg same]
      rfl
  have own (t : State) (x : Nat) : ((t.noteEpisode d k i level x queue).episodeStart d k).isSome = true := by
    rw [State.episodeStart, State.noteEpisode, State.die_updDie, if_pos rfl, Store.find_insert, if_pos rfl]
    rfl
  have kept (a b : Nat) : ((((s.noteRun d k).wr .dagDrpxX a d k).wr .dagDrpxHold b d k).episodeStart d n).isSome = (s.episodeStart d n).isSome := by
    rw [State.episodeStart, State.die, State.wr_dies, State.wr_dies]
    refine (congrArg (fun o : Option (Nat × Episode) => (o.map fun e => e.2.start).isSome) (s.find_noteRun d k n)).trans ?_
    rw [State.episodeStart]
    cases (s.die d).droop.episodes.find? (fun e => decide (e.1 = n)) <;> rfl
  rw [State.stretch, noted]
  split
  · exact own _ _
  · next other => exact (kept _ _).trans (h.resolve_left other)

/-- What a stretch has made of its domain. -/
structure Stretched (t : State) (d k x : Nat) : Prop where
  episode : (t.episodeStart d k).isSome = true
  hold : t.rd .dagDrpxHold d k = 1
  x : t.rd .dagDrpxX d k = x

theorem State.stretched (s : State) {d k : Nat} (i level queue : Nat) (hd : d < 40) (hk : k < dieDomains d) :
    Stretched (s.stretch d i level queue k) d k
      (max (s.rd .dagDrpxX d k) (16 * s.droopDepth d level) % 2 ^ (fieldDef .dagDrpxX).width) := by
  refine ⟨s.episodeStart_stretch d i level queue k k (.inl rfl), ?_, ?_⟩
  · exact (State.rd_updDie _ _ _ _ _ _).trans (State.rd_wr_same _ .dagDrpxHold 1 d k (drpx_exists hd hk))
  · exact (State.rd_updDie _ _ _ _ _ _).trans ((State.rd_wr_field _ _ _ _ _ _ (by decide)).trans (State.rd_wr_same _ .dagDrpxX _ d k (drpx_exists hd hk)))

theorem State.droopDepth_congr {s t : State} {d : Nat} (h1 : t.rd .dagDrpcfgDep1 d = s.rd .dagDrpcfgDep1 d)
    (h2 : t.rd .dagDrpcfgDep2 d = s.rd .dagDrpcfgDep2 d) (level : Nat) : t.droopDepth d level = s.droopDepth d level := by
  rw [State.droopDepth, State.droopDepth, h1, h2]

/-- Every domain of the trip is stretched by the depth of its level. -/
theorem State.stretches (s : State) {d i : Nat} (level queue : Nat) (hd : d < 40) {l : List Nat} (once : l.Nodup) (lt : ∀ k ∈ l, k < dieDomains d)
    {n : Nat} (hn : n ∈ l) :
    Stretched (s.each l fun t k => t.stretch d i level queue k) d n
      (max (s.rd .dagDrpxX d n) (16 * s.droopDepth d level) % 2 ^ (fieldDef .dagDrpxX).width) := by
  refine State.each_once (f := fun t k => t.stretch d i level queue k)
    (P := fun t => Stretched t d n (max (s.rd .dagDrpxX d n) (16 * s.droopDepth d level) % 2 ^ (fieldDef .dagDrpxX).width))
    (I := fun t => t.rd .dagDrpxX d n = s.rd .dagDrpxX d n ∧ t.droopDepth d level = s.droopDepth d level) once hn
    (fun t y hy h => ?_) (fun t h => ?_) (fun t y hy h => ?_) ⟨rfl, rfl⟩
  · obtain ⟨x, depth⟩ := h
    refine ⟨(t.rd_stretch d i level queue y d n (.inr (Ne.symm hy))).trans x, (State.droopDepth_congr ?_ ?_ level).trans depth⟩
    · exact t.rd_stretch d i level queue y d 0 (.inl ⟨by decide, by decide⟩)
    · exact t.rd_stretch d i level queue y d 0 (.inl ⟨by decide, by decide⟩)
  · obtain ⟨x, depth⟩ := h
    have made := t.stretched i level queue hd (lt n hn)
    rw [x, depth] at made
    exact made
  · obtain ⟨episode, hold, x⟩ := h
    exact ⟨t.episodeStart_stretch d i level queue y n (.inr episode), (t.rd_stretch d i level queue y d n (.inr (Ne.symm hy))).trans hold,
      (t.rd_stretch d i level queue y d n (.inr (Ne.symm hy))).trans x⟩

/-- The counters of a trip, and its detector noted for the boundary. -/
def State.tripCounted (s : State) (d i level : Nat) : State :=
  let s1 := s.count .dagDrpcntT1 1 d i
  (if level = 2 then s1.count .dagDrpcntT2 1 d i else s1).updDie d fun y =>
    { y with droop := { y.droop with trips := y.droop.trips ++ [(i, detDomain d i)] } }

theorem exec_droopTrip {s : State} {d : Die} {i : Fin 64} {tap : BitVec 8} (q : Queue) (hs : s.aon = true) (det : s.detects d.val i.val = true)
    (trips : s.tripLevel d.val i.val tap.toNat ≠ 0) :
    exec (.droopTrip d i tap q) s = .next (s.commit ((s.tripCounted d.val i.val (s.tripLevel d.val i.val tap.toNat)).each
      (s.tripDomains d.val i.val) fun t k => t.stretch d.val i.val (s.tripLevel d.val i.val tap.toNat) q.val k)) := by
  change execDroopTrip d i tap q s = _
  rw [execDroopTrip, State.run_on _ hs]
  simp only [det, trips, Bool.not_true, decide_false, Bool.or_self, Bool.false_eq_true, if_false]
  rfl

theorem State.rd_tripCounted (s : State) (d i level : Nat) {f : Field} (e j : Nat) (h1 : .dagDrpcntT1 ≠ f) (h2 : .dagDrpcntT2 ≠ f) :
    (s.tripCounted d i level).rd f e j = s.rd f e j := by
  rw [State.tripCounted, State.rd_updDie]
  split
  · rw [State.count, State.rd_wr_field _ _ _ _ _ _ h2, State.count, State.rd_wr_field _ _ _ _ _ _ h1]
  · rw [State.count, State.rd_wr_field _ _ _ _ _ _ h1]

/-- A trip moves registers and its die alone. -/
theorem State.sameTabs_droopTrip (s : State) (d i level queue : Nat) (l : List Nat) :
    s.sameTabsBut ((s.tripCounted d i level).each l fun t k => t.stretch d i level queue k) [.dies] := by
  intro x hx
  have put (t : State) (f : Field) (v e j : Nat) : s.sameIn (t.wr f v e j) x = s.sameIn t x :=
    State.put_other (fun n => s.sameIn n x) (fun _ _ => by cases x <;> rfl) (fun _ _ => by cases x <;> rfl) t ⟨f, e, j⟩ v
  have die (t : State) (f : DieState → DieState) : s.sameIn (t.updDie d f) x = s.sameIn t x := by
    cases x with
    | dies => exact absurd List.mem_cons_self hx
    | _ => rfl
  have counted : s.sameIn (s.tripCounted d i level) x := by
    rw [State.tripCounted, die]
    split
    · rw [State.count, put, State.count, put]
      exact s.sameIn_refl x
    · rw [State.count, put]
      exact s.sameIn_refl x
  have kept (t : State) (k : Nat) : s.sameIn (t.stretch d i level queue k) x = s.sameIn t x :=
    State.stretch_other (g := fun n => s.sameIn n x) d i level queue k (fun t f v _ => put t f v d k) die t
  rw [each_blind (g := fun t => s.sameIn t x) l (fun t k => t.stretch d i level queue k) kept]
  exact counted

theorem droopTrip_lands {s : State} {d : Die} {i : Fin 64} (tap : BitVec 8) (q : Queue) {l : Nat} (hs : s.aon = true)
    (det : s.detects d.val i.val = true) (hl : l = s.tripLevel d.val i.val tap.toNat) (trips : l ≠ 0) :
    ∃ t, exec (.droopTrip d i tap q) s = .next t ∧ t.rd .dagDrpcntT1 d.val i.val = s.oneUp .dagDrpcntT1 d.val i.val ∧
      t.rd .dagDrpcntT2 d.val i.val = (if l = 2 then s.oneUp .dagDrpcntT2 d.val i.val else s.rd .dagDrpcntT2 d.val i.val) ∧
      s.sameTabsBut t [.dies] ∧
      ∀ n ∈ s.tripDomains d.val i.val, (t.episodeStart d.val n).isSome = true ∧ t.flag .dagDrpxHold d.val n = true ∧
        t.rd .dagDrpxX d.val n = max (s.rd .dagDrpxX d.val n) (16 * s.droopDepth d.val l) % 2 ^ (fieldDef .dagDrpxX).width := by
  subst hl
  have lt : i.val < dieDetectors d.val := by
    simp only [State.detects, Bool.and_eq_true, decide_eq_true_eq] at det
    exact det.1.1.1.2
  have rd (f : Field) (hl : f.isLimit = false) (hX : f ≠ .dagDrpxX) (hH : f ≠ .dagDrpxHold) (t : State) (e j : Nat) :
      (s.commit (t.each (s.tripDomains d.val i.val) fun t k => t.stretch d.val i.val (s.tripLevel d.val i.val tap.toNat) q.val k)).rd f e j =
        t.rd f e j := by
    rw [State.rd_commit _ _ _ _ _ hl]
    exact each_blind (g := fun t : State => t.rd f e j) _ _ (fun t k => t.rd_stretch _ _ _ _ _ e j (.inl ⟨hX, hH⟩)) t
  refine ⟨_, exec_droopTrip q hs det trips, ?_, ?_, State.sameTabs_commit (s.sameTabs_droopTrip _ _ _ _ _), fun n hn => ?_⟩
  · rw [rd _ rfl (by decide) (by decide), State.tripCounted, State.rd_updDie]
    split
    · rw [State.count, State.rd_wr_field _ _ _ _ _ _ (by decide), State.rd_count_same _ (drpcnt_exists d.isLt lt)]
    · rw [State.rd_count_same _ (drpcnt_exists d.isLt lt)]
  · rw [rd _ rfl (by decide) (by decide), State.tripCounted, State.rd_updDie]
    split
    · rw [State.rd_count_same (f := .dagDrpcntT2) _ (drpcnt_exists d.isLt lt), State.oneUp, State.count, State.rd_wr_field _ _ _ _ _ _ (by decide), State.oneUp]
    · rw [State.count, State.rd_wr_field _ _ _ _ _ _ (by decide)]
  · obtain ⟨episode, hold, x⟩ := (s.tripCounted d.val i.val (s.tripLevel d.val i.val tap.toNat)).stretches (i := i.val)
      (s.tripLevel d.val i.val tap.toNat) q.val d.isLt (s.tripDomains_nodup d.val i.val) (fun k hk => s.tripDomains_lt lt hk) hn
    refine ⟨?_, decide_eq_true ((State.rd_commit _ _ _ _ _ rfl).trans hold), (State.rd_commit _ _ _ _ _ rfl).trans ?_⟩
    · rw [State.episodeStart, State.die_commit]
      exact episode
    · rw [x, s.rd_tripCounted _ _ _ _ _ (by decide) (by decide),
        State.droopDepth_congr (s.rd_tripCounted _ _ _ _ _ (by decide) (by decide)) (s.rd_tripCounted _ _ _ _ _ (by decide) (by decide))]

end Sys2Proof.Machine

/-!
Settles O33: the end of a hold and the steps of a release, with the cycles that count as DROOP, and the tests that retire a detector (R153 to
R158), after the trips before it.
-/
namespace Sys2Proof.Machine

/-! ## The cycles of a hold and the end of an episode -/

/-- The registers of a die agent that an episode's end writes. -/
def episodeFields : List Field := [.dagDrpepiL1, .dagDrpepiL2, .dagDrpann, .dagDrpuna, .dagTrcdrop, .dagTrcocc]

/-- A reading that the end of an episode does not reach. -/
structure EndBlind {α : Type} (g : State → α) : Prop where
  put : ∀ s (r : FieldRef) v, r.f ∈ episodeFields → g (State.put s r v) = g s
  die : ∀ s d f, g (State.updDie s d f) = g s

theorem end_rd {f : Field} (i j : Nat) (h : f ∉ episodeFields) : EndBlind fun t : State => t.rd f i j where
  put s r v hr := State.reg_put_other s v (by rintro rfl; exact h hr)
  die _ _ _ := rfl

/-- A reading that the cycles and the end of an episode do not reach: the counts that they make stand in the die agent's registers, in the
partition's record and in its counters. -/
structure EpisodeBlind {α : Type} (g : State → α) : Prop extends EndBlind g where
  cycles : ∀ s (r : FieldRef) v, r.f = .dagDrpcyc ∨ bookBlock (fieldDef r.f).blk = true → g (State.put s r v) = g s
  frac : ∀ s x, g { s with frac := x } = g s
  gopen : ∀ s x, g { s with gopen := x } = g s
  parts : ∀ s x, g { s with parts := x } = g s
  clock : ∀ s x, g { s with clock := x } = g s

theorem episode_rd {f : Field} (i j : Nat) (h : f ∉ episodeFields) (hc : f ≠ .dagDrpcyc) (hb : bookBlock (fieldDef f).blk = false) :
    EpisodeBlind fun t : State => t.rd f i j where
  toEndBlind := end_rd i j h
  cycles s r v hr := State.reg_put_other s v (by rintro rfl; exact hr.elim hc fun hr => Bool.false_ne_true (hb.symm.trans hr))
  frac _ _ := rfl
  gopen _ _ := rfl
  parts _ _ := rfl
  clock _ _ := rfl

/-- The tables that the cycles and the end of an episode leave. -/
theorem episode_tabs (s : State) {x : Tab} (h : x ∉ [Tab.dies, .parts, .frac]) : EpisodeBlind fun t : State => s.sameIn t x := by
  have put (t : State) (r : FieldRef) (v : Nat) : s.sameIn (t.put r v) x = s.sameIn t x :=
    State.put_other (fun n => s.sameIn n x) (fun _ _ => by cases x <;> rfl) (fun _ _ => by cases x <;> rfl) t r v
  cases x with
  | dies | parts | frac => simp at h
  | _ => exact { put := fun t r v _ => put t r v, cycles := fun t r v _ => put t r v, frac := fun _ _ => rfl, gopen := fun _ _ => rfl, parts := fun _ _ => rfl,
                 die := fun _ _ _ => rfl, clock := fun _ _ => rfl }

section EpisodeEnd
variable {α : Type} {g : State → α} (hg : EndBlind g)
include hg

theorem count_episode (s : State) (f : Field) (n i j : Nat) (h : f ∈ episodeFields) : g (s.count f n i j) = g s := hg.put s ⟨f, i, j⟩ _ h

theorem trace_episode (s : State) (d type core eng a b : Nat) : g (s.trace d type core eng a b) = g s := by
  have occ : Field.dagTrcocc ∈ episodeFields := by decide
  have dropped (t : State) (p : Prop) [Decidable p] : g (if p then t.count .dagTrcdrop 1 d else t) = g t := by
    split
    · exact count_episode hg _ _ _ _ _ (by decide)
    · rfl
  have record (r : TraceRec) : g (s.traceRecord d r) = g s := by
    unfold State.traceRecord
    dsimp only
    split
    · rfl
    · split
      · rw [hg.die, count_episode hg _ _ _ _ _ (by decide)]
      · exact (hg.put _ ⟨.dagTrcocc, d, 0⟩ _ occ).trans ((dropped _ _).trans (hg.die _ _ _))
  unfold State.trace
  split
  · exact record _
  · rfl

theorem endEpisode_episode (s : State) (d k : Nat) : g (s.endEpisode d k) = g s := by
  have level (t : State) (p : Prop) [Decidable p] : g (if p then t.count .dagDrpepiL2 1 d k else t) = g t := by
    split
    · exact count_episode hg _ _ _ _ _ (by decide)
    · rfl
  have told (t : State) (p : Prop) [Decidable p] (b : Bool) : g (if p then t.count (if b then .dagDrpann else .dagDrpuna) 1 d else t) = g t := by
    split
    · cases b <;> exact count_episode hg _ _ _ _ _ (by decide)
    · rfl
  unfold State.endEpisode
  split
  · rfl
  · exact (trace_episode hg _ _ _ _ _ _ _).trans ((hg.die _ _ _).trans ((told _ _ _).trans ((level _ _).trans (count_episode hg _ _ _ _ _ (by decide)))))

theorem dropX_episode (s : State) (d k : Nat) : g (s.dropX d k) = g (s.wr .dagDrpxX (s.rd .dagDrpxX d k - 1) d k) := by
  unfold State.dropX
  dsimp only
  split
  · rw [endEpisode_episode hg]
    exact hg.die _ _ _
  · exact hg.die _ _ _

end EpisodeEnd

section Episode
variable {α : Type} {g : State → α} (hg : EpisodeBlind g)
include hg

theorem bumpStat_episode (s : State) (f : Field) (p : Nat) (q : Stat) (n : Nat) (h : bookBlock (fieldDef f).blk = true) :
    g (s.bumpStat f p q n) = g s := by
  unfold State.bumpStat
  split
  · split
    · exact (hg.cycles { s with frac := _ } _ _ (.inr h)).trans (hg.frac s _)
    · exact hg.cycles s ⟨f, p, _⟩ _ (.inr h)
  · rfl

theorem tallyDie_episode (s : State) (d : Nat) (q : Stat) (n : Nat) : g (s.tallyDie d q n) = g s := by
  have part (t : State) (p : Nat) (f : PartState → PartState) : g (t.updPart p f) = g t := hg.parts t _
  unfold State.tallyDie
  dsimp only
  split
  · unfold State.tally
    dsimp only
    split
    · exact hg.gopen s _
    · split
      · rw [bumpStat_episode hg _ _ _ _ _ rfl, part, hg.gopen]
      · rw [bumpStat_episode hg _ _ _ _ _ rfl, bumpStat_episode hg _ _ _ _ _ rfl, part, hg.gopen]
  · exact hg.gopen s _

theorem droopCycles_episode (s : State) (d k : Nat) (counts : Bool) (n : Nat) : g (s.droopCycles d k counts n) = g s := by
  have ran : g ((s.runCycles (patternUnit d k) n).updDie d fun y =>
      let l := y.droop.episodes.map fun e => if e.1 = k then (k, { e.2 with cycles := e.2.cycles + n }) else e
      { y with droop := { y.droop with episodes := l } }) = g s := (hg.die _ _ _).trans (hg.clock _ _)
  unfold State.droopCycles
  dsimp only
  split
  · exact (tallyDie_episode hg _ _ _ _).trans ((hg.cycles _ ⟨.dagDrpcyc, d, k⟩ _ (.inl rfl)).trans ran)
  · exact ran

theorem closeRuns_episode (s : State) (d k len : Nat) (cycles : List Nat) : g (s.closeRuns d k len cycles) = g s := by
  have all (t : State) (l : List (Bool × Nat)) : g (l.foldl (fun s x => s.droopCycles d k x.1 x.2) t) = g t :=
    each_blind l (fun s x => s.droopCycles d k x.1 x.2) (fun t x => droopCycles_episode hg t d k x.1 x.2) t
  unfold State.closeRuns
  split
  · rfl
  · exact (hg.die _ _ _).trans (all _ _)

end Episode

/-! ## The episode itself -/

/-- The trace of an event keeps what droop detection holds of a die. -/
theorem State.droop_trace (s : State) (d type core eng a b e : Nat) : ((s.trace d type core eng a b).die e).droop = (s.die e).droop := by
  have kept (t : State) (f : DieState → DieState) (hf : ∀ x, (f x).droop = x.droop) : ((t.updDie d f).die e).droop = (t.die e).droop := by
    rw [State.die_updDie]
    split
    · next h => rw [hf, h]
    · rfl
  have dropped (t : State) (p : Prop) [Decidable p] : ((if p then t.count .dagTrcdrop 1 d else t).die e).droop = (t.die e).droop := by
    split
    · exact congrArg (fun l => (Store.get DieState.init l e).droop) (t.count_dies _ _ _ _)
    · rfl
  have record (r : TraceRec) : ((s.traceRecord d r).die e).droop = (s.die e).droop := by
    unfold State.traceRecord
    dsimp only
    split
    · rfl
    · split
      · refine (kept _ _ (by intro; rfl)).trans ?_
        rw [State.die, State.count_dies]
        rfl
      · rw [State.die, State.wr_dies]
        exact (dropped _ _).trans (kept _ _ (by intro; rfl))
  unfold State.trace
  split
  · exact record _
  · rfl

/-- An episode that has ended is no longer under way. -/
theorem State.episodeStart_endEpisode (s : State) (d k : Nat) : (s.endEpisode d k).episodeStart d k = none := by
  have gone (t : State) : ((t.updDie d fun y => { y with droop := { y.droop with episodes := y.droop.episodes.filter (fun e => e.1 ≠ k) } }).die
      d).droop.episodes.find? (fun e => decide (e.1 = k)) = none := by
    rw [State.die_updDie, if_pos rfl]
    exact List.find?_eq_none.2 fun e he => by simpa using (List.mem_filter.1 he).2
  unfold State.endEpisode
  split
  · next none => exact congrArg (Option.map fun e => e.2.start) none
  · dsimp only
    rw [State.episodeStart, State.droop_trace, gone]
    rfl

theorem State.episodeStart_dropX {s : State} {d k : Nat} (h : s.rd .dagDrpxX d k = 1) : (s.dropX d k).episodeStart d k = none := by
  unfold State.dropX
  dsimp only
  rw [if_pos h]
  exact State.episodeStart_endEpisode _ _ _

/-! ## The end of a hold and a step of a release (R153 to R155) -/

/-- X before it drops: the cycles counted, and where a hold ends its flag clear. -/
def State.runsClosed (s : State) (d k len : Nat) (cycles : List Nat) : State := (s.noteRun d k).closeRuns d k len cycles

theorem State.rd_runsClosed (s : State) (d k len : Nat) (cycles : List Nat) {f : Field} (i j : Nat) (h : f ∉ episodeFields)
    (hc : f ≠ .dagDrpcyc) (hb : bookBlock (fieldDef f).blk = false) : (s.runsClosed d k len cycles).rd f i j = s.rd f i j :=
  (closeRuns_episode (episode_rd i j h hc hb) _ _ _ _ _).trans (s.rd_updDie _ _ _ _ _)

theorem State.sameTabs_runsClosed (s : State) (d k len : Nat) (cycles : List Nat) :
    s.sameTabsBut (s.runsClosed d k len cycles) [.dies, .parts, .frac] := by
  intro x hx
  have hg := episode_tabs s hx
  rw [State.runsClosed, closeRuns_episode hg, State.noteRun, hg.die]
  exact s.sameIn_refl x

theorem State.sameTabs_dropX {s n : State} (d k : Nat) (h : s.sameTabsBut n [.dies, .parts, .frac]) :
    s.sameTabsBut (n.dropX d k) [.dies, .parts, .frac] := by
  intro x hx
  rw [dropX_episode (episode_tabs s hx).toEndBlind]
  exact State.sameTabs_wr h _ _ _ _ x hx

theorem State.x_dropX (s : State) {d k : Nat} (he : (⟨.dagDrpxX, d, k⟩ : FieldRef).exists = true) :
    (s.dropX d k).rd .dagDrpxX d k = (s.rd .dagDrpxX d k - 1) % 2 ^ (fieldDef .dagDrpxX).width := by
  rw [dropX_episode (end_rd d k (by decide)), State.rd_wr_same _ _ _ _ _ he]

theorem exec_droopHoldEnd {s : State} {d : Die} {k : Core} (cycles : List Nat) (hs : s.aon = true) (hold : s.flag .dagDrpxHold d.val k.val = true) :
    exec (.droopHoldEnd d k cycles) s =
      .next (s.commit (((s.runsClosed d.val k.val (s.holdLen d.val) cycles).wr .dagDrpxHold 0 d.val k.val).dropX d.val k.val)) := by
  change execDroopHoldEnd d k cycles s = _
  rw [execDroopHoldEnd, State.run_on _ hs]
  simp only [hold, if_true]
  rfl

theorem exec_droopReleaseStep {s : State} {d : Die} {k : Core} (cycles : List Nat) (hs : s.aon = true) (x : s.rd .dagDrpxX d.val k.val ≠ 0)
    (hold : s.flag .dagDrpxHold d.val k.val = false) :
    exec (.droopReleaseStep d { dom := k, cycles := cycles }) s =
      .next (s.commit ((s.runsClosed d.val k.val (max 64 (s.rd .clkRampCyc)) cycles).dropX d.val k.val)) := by
  have gate : (decide (s.rd .dagDrpxX d.val k.val ≠ 0) && !s.flag .dagDrpxHold d.val k.val) = true := by simp [x, hold]
  change execDroopReleaseStep d { dom := k, cycles := cycles } s = _
  rw [execDroopReleaseStep, State.run_on _ hs]
  simp only [gate, if_true]
  rfl

/-- With X as it was through the whole hold, its cycles count as DROOP whole, or not at all (R154). -/
theorem State.drpcyc_runsClosed {s : State} {d k : Nat} {e : Episode} (he : (⟨.dagDrpcyc, d, k⟩ : FieldRef).exists = true)
    (found : (s.die d).droop.episodes.find? (fun x => decide (x.1 = k)) = some (k, e)) (hb : e.before = []) (hs : e.since = [])
    (counts : e.counts = s.droopCounts d k) (len : Nat) (cycles : List Nat) :
    (s.runsClosed d k len cycles).rd .dagDrpcyc d k =
      if e.counts then min (s.rd .dagDrpcyc d k + len) (2 ^ (fieldDef .dagDrpcyc).width - 1) else s.rd .dagDrpcyc d k := by
  have still : ((s.noteRun d k).die d).droop.episodes.find? (fun x => decide (x.1 = k)) = some (k, e) := by
    rw [State.find_noteRun, found]
    simp [Episode.turn, counts]
  have closed : s.runsClosed d k len cycles = ((s.noteRun d k).droopCycles d k e.counts len).updDie d fun y => { y with droop := { y.droop with
      episodes := y.droop.episodes.map fun e => if e.1 = k then (k, { e.2 with before := [], since := [] }) else e } } := by
    unfold State.runsClosed State.closeRuns
    rw [still]
    dsimp only
    rw [hb, hs]
    rfl
  have run (t : State) (n : Nat) : (t.runCycles (patternUnit d k) n).rd .dagDrpcyc d k = t.rd .dagDrpcyc d k := rfl
  have tallied (t : State) (q : Stat) (n : Nat) : (t.tallyDie d q n).rd .dagDrpcyc d k = t.rd .dagDrpcyc d k := by
    refine tallyDie_book (g := fun t : State => t.rd .dagDrpcyc d k) ?_ t d q n
    have other : bookBlock (fieldDef .dagDrpcyc).blk = false := rfl
    exact { putBook := fun s r v hr => State.reg_put_other s v (by rintro rfl; exact Bool.false_ne_true (other.symm.trans hr)), frac := fun _ _ => rfl,
            gopen := fun _ _ => rfl, acct := fun _ _ => rfl, parts := fun _ _ => rfl, rings := fun _ _ => rfl }
  rw [closed, State.rd_updDie]
  unfold State.droopCycles
  dsimp only
  cases e.counts with
  | false =>
    rw [if_neg Bool.false_ne_true, if_neg Bool.false_ne_true, State.rd_updDie, run]
    rfl
  | true =>
    rw [if_pos rfl, if_pos rfl, tallied, State.count, State.rd_wr_same _ _ _ _ _ he, State.rd_updDie, run]
    exact Nat.mod_eq_of_lt (lt_of_le_of_lt (min_le_right _ _) (Nat.sub_lt (Nat.two_pow_pos _) Nat.one_pos))

/-! ## A detector that fails (R156 to R158) -/

/-- The registers that a die's target and its voltage are written to (R89). -/
def vidFields : List Field := [.clkDomTgt, .rgcVidV, .rgcStatusVready, .rgcStatusVclamp]

/-- A reading that a voltage which follows the divisors does not reach. -/
structure FollowBlind {α : Type} (g : State → α) : Prop where
  put : ∀ s (r : FieldRef) v, r.f ∈ vidFields → g (State.put s r v) = g s
  rails : ∀ s x, g { s with rails := x } = g s

theorem follow_rd {f : Field} (i j : Nat) (h : f ∉ vidFields) : FollowBlind fun t : State => t.rd f i j where
  put s r v hr := State.reg_put_other s v (by rintro rfl; exact h hr)
  rails _ _ := rfl

section Follow
variable {α : Type} {g : State → α} (hg : FollowBlind g)
include hg

theorem setVid_follow (s : State) (r v : Nat) : g (s.setVid r v) = g s := by
  have wr (t : State) (f : Field) (w : Nat) (h : f ∈ vidFields) : g (t.wr f w r) = g t := hg.put t ⟨f, r, 0⟩ w h
  have upd (t : State) (q : Nat) (f : RailState → RailState) : g (t.updRail q f) = g t := hg.rails t _
  have clamped (t : State) (p : Prop) [Decidable p] (w : Nat) (f : RailState → RailState) :
      g (if p then t else ((t.wr .rgcVidV w r).wr .rgcStatusVready 0 r).updRail r f) = g t := by
    split
    · rfl
    · rw [upd, wr _ _ _ (by decide), wr _ _ _ (by decide)]
  unfold State.setVid
  dsimp only
  split
  · exact clamped _ _ _ _
  · exact (wr _ _ _ (by decide)).trans (clamped _ _ _ _)

theorem followVf_follow (s : State) (d : Nat) : g (s.followVf d) = g s := by
  have target (t : State) (w : Nat) : g (t.wr .clkDomTgt w 0 d) = g t := hg.put t ⟨.clkDomTgt, 0, d⟩ w List.mem_cons_self
  unfold State.followVf
  dsimp only
  split
  · rw [setVid_follow hg, target]
  · split
    · rw [setVid_follow hg, target]
    · exact target _ _

end Follow

/-- The registers that a detector's retirement may write beside its own two: a domain it clamps is held to its retired divisor (R157). -/
def clampFields : List Field :=
  [.dagDrpstatClamp, .clkCbrTgt, .clkStatusDivclamp, .clkCbrGdep, .clkDomTgt, .rgcVidV, .rgcStatusVready, .rgcStatusVclamp]

/-- A reading that a clamped domain does not reach. -/
structure ClampBlind {α : Type} (g : State → α) : Prop where
  put : ∀ s (r : FieldRef) v, r.f ∈ clampFields → g (State.put s r v) = g s
  raise : ∀ s x, g (State.raise s x) = g s
  die : ∀ s d f, (∀ x, (f x).droop.testDue = x.droop.testDue) → g (State.updDie s d f) = g s
  rails : ∀ s x, g { s with rails := x } = g s

theorem clamp_rd {f : Field} (i j : Nat) (h : f ∉ clampFields) (hl : latchField f = false) : ClampBlind fun t : State => t.rd f i j where
  put s r v hr := State.reg_put_other s v (by rintro rfl; exact h hr)
  raise s x := rd_raise_any s x f i j hl
  die _ _ _ _ := rfl
  rails _ _ := rfl

theorem clamp_testDue (d : Nat) : ClampBlind fun t : State => (t.die d).droop.testDue where
  put s r v _ := congrArg (fun l => (Store.get DieState.init l d).droop.testDue) (s.put_dies r v)
  raise s x := congrArg (fun l => (Store.get DieState.init l d).droop.testDue) (raise_latch latch_dies s x)
  die s e f hf := by
    rw [State.die_updDie]
    split
    · next h => rw [hf, h]
    · rfl
  rails _ _ := rfl

section Clamp
variable {α : Type} {g : State → α} (hg : ClampBlind g)
include hg

theorem ClampBlind.wr (s : State) {f : Field} (v i j : Nat) (h : f ∈ clampFields) : g (s.wr f v i j) = g s := hg.put s ⟨f, i, j⟩ v h

theorem dieFault_clamp (s : State) (d : Nat) (x : FaultRec) : g (s.dieFault d x) = g s := by
  unfold State.dieFault
  split
  · exact hg.die _ _ _ fun y => by split <;> rfl
  · exact hg.raise s x

theorem setGdep_clamp (s : State) (k v : Nat) : g (s.setGdep k v) = g s := by
  have note (t : State) (d k : Nat) : g (t.noteRun d k) = g t := hg.die _ _ _ (by intro; rfl)
  rw [State.setGdep, note, hg.wr _ _ _ _ (by decide), note]

theorem setBranch_clamp (s : State) (k div : Nat) : g (s.setBranch k div) = g s := by
  have clamp (b : Bool) (t : State) : g (if b then t.wr .clkStatusDivclamp 1 else t) = g t := by
    split
    · exact hg.wr _ _ _ _ (by decide)
    · rfl
  have slow (b : Bool) (x : FaultRec) (t : State) : g (if b then t.raise x else t) = g t := by
    split
    · exact hg.raise _ _
    · rfl
  unfold State.setBranch
  dsimp only
  split
  · rw [slow, clamp, hg.wr _ _ _ _ (by decide)]
  · rw [setGdep_clamp hg, slow, clamp, hg.wr _ _ _ _ (by decide)]

theorem followVf_clamp (s : State) (d : Nat) : g (s.followVf d) = g s := by
  refine followVf_follow ⟨fun s r v hr => hg.put s r v ?_, hg.rails⟩ s d
  revert hr
  cases r.f <;> decide

theorem holdClamp_clamp (s : State) (d k : Nat) : g (s.holdClamp d k) = g s := by
  unfold State.holdClamp
  split
  · rw [followVf_clamp hg, setBranch_clamp hg]
  · unfold State.setDomain
    dsimp only
    split
    · rw [hg.wr _ _ _ _ (by decide), hg.wr _ _ _ _ (by decide)]
    · exact hg.wr _ _ _ _ (by decide)

theorem clampDomain_clamp (s : State) (d k : Nat) : g (s.clampDomain d k) = g s := by
  unfold State.clampDomain
  split
  · rfl
  · dsimp only
    rw [dieFault_clamp hg, holdClamp_clamp hg, hg.wr _ _ _ _ (by decide)]
    exact hg.die _ _ _ (by intro; rfl)

/-- What retirement leaves beside the detector's bit and the count. -/
theorem retireDetector_clamp (s : State) (d i : Nat) :
    g (s.retireDetector d i) = g ((s.setBit .dagDrpretRet i true d).wr .dagDrpstatRetcnt (min 64 (s.rd .dagDrpstatRetcnt d + 1)) d) := by
  rw [State.retireDetector, clampDomain_clamp hg, dieFault_clamp hg]

end Clamp

theorem testBit_eq (n k : Nat) : testBit n k = n.testBit k := (Nat.testBit_eq_decide_div_mod_eq).symm

/-- A bit set in a field that holds it. -/
theorem State.testBit_setBit (s : State) {f : Field} {k i : Nat} (he : (⟨f, i, 0⟩ : FieldRef).exists = true) (hk : k < (fieldDef f).width) :
    testBit ((s.setBit f k true i).rd f i) k = true := by
  unfold State.setBit
  dsimp only
  split
  · next set => exact set
  · next clear =>
    rw [if_pos rfl, State.rd_wr_same _ _ _ _ _ he, testBit_eq, Nat.testBit_mod_two_pow, Nat.add_comm, Nat.testBit_two_pow_add_eq]
    rw [testBit_eq] at clear
    simp [hk, clear]

section Retired
variable (s : State) {d i : Nat} (hd : d < 40) (hi : i < dieDetectors d)
include hd hi

theorem State.detRetired_retireDetector : (s.retireDetector d i).detRetired d i = true := by
  have most : i < 64 := lt_of_lt_of_le hi (by unfold dieDetectors; split_ifs <;> omega)
  rw [State.detRetired, retireDetector_clamp (clamp_rd d 0 (by decide) rfl), State.rd_wr_field _ _ _ _ _ _ (by decide)]
  exact s.testBit_setBit (everyDie_exists (fun _ => rfl) hd) most

omit hi in
theorem State.retcnt_retireDetector : (s.retireDetector d i).rd .dagDrpstatRetcnt d = min 64 (s.rd .dagDrpstatRetcnt d + 1) := by
  rw [retireDetector_clamp (clamp_rd d 0 (by decide) rfl), State.rd_wr_same _ _ _ _ _ (everyDie_exists (fun _ => rfl) hd)]
  exact Nat.mod_eq_of_lt (lt_of_le_of_lt (min_le_left _ _) (by decide))

end Retired

theorem State.testDue_retireDetector (s : State) (d i : Nat) : ((s.retireDetector d i).die d).droop.testDue = (s.die d).droop.testDue := by
  rw [retireDetector_clamp (clamp_testDue d), State.die, State.wr_dies]
  unfold State.setBit
  dsimp only
  split
  · rfl
  · rw [State.wr_dies]
    rfl

theorem dieDetectors_pos (d : Nat) : 0 < dieDetectors d := by unfold dieDetectors; split_ifs <;> omega

theorem detectorSelftest_lands {s : State} {d : Die} (hi lo : Bool) (hs : s.aon = true) (power : (s.die d.val).powered = true)
    (run : s.svc = svcFull ∨ s.svc = svcHeld ∨ s.svc = svcSteward) (free : s.detRetired d.val (s.now / 1000000 % dieDetectors d.val) = false) :
    ∃ t, exec (.detectorSelftest d hi lo) s = .next t ∧
      (hi = true → lo = false → s.onlyChanges t [] []) ∧
      (hi = false ∨ lo = true → t.detRetired d.val (s.now / 1000000 % dieDetectors d.val) = true ∧
        t.rd .dagDrpstatRetcnt d.val = min 64 (s.rd .dagDrpstatRetcnt d.val + 1)) := by
  have due : (s.svc = svcFull || s.svc = svcHeld || s.svc = svcSteward) = true := by simpa [or_assoc] using run
  have ran : exec (.detectorSelftest d hi lo) s =
      .next (s.commit (if !(hi && !lo) then s.retireDetector d.val (s.now / 1000000 % dieDetectors d.val) else s)) := by
    change execDetectorSelftest d hi lo s = _
    rw [execDetectorSelftest, State.run_on _ hs]
    simp only [power, due, free, Bool.not_false, Bool.and_true, Bool.true_and]
  have lt := Nat.mod_lt (s.now / 1000000) (dieDetectors_pos d.val)
  refine ⟨_, ran, fun high low => ?_, fun fails => ?_⟩
  · rw [if_neg (by simp [high, low])]
    exact State.onlyChanges_commit (s.onlyChanges_refl _ _)
  · rw [if_pos (by rcases fails with h | h <;> simp [h])]
    refine ⟨?_, (State.rd_commit _ _ _ _ _ rfl).trans (s.retcnt_retireDetector d.isLt)⟩
    rw [State.detRetired, State.rd_commit _ _ _ _ _ rfl]
    exact s.detRetired_retireDetector d.isLt lt

/-- A test that was due and has been begun. -/
def State.testTaken (s : State) (d i : Nat) : State :=
  s.updDie d fun y => { y with droop := { y.droop with testDue := y.droop.testDue.filter (· ≠ i) } }

theorem exec_detectorTargetedTest {s : State} {d : Die} {i : Fin 64} (f : Bool) (q : QuietTest) (w : SweepTest) (hs : s.aon = true)
    (power : (s.die d.val).powered = true) (due : i.val ∈ (s.die d.val).droop.testDue) (free : s.detRetired d.val i.val = false) :
    exec (.detectorTargetedTest d i f q w) s = .next (s.commit
      (if s.targetedPass d.val i.val f q w then (s.testTaken d.val i.val).selfTest (s.targetedPass d.val i.val f q w)
        else ((s.testTaken d.val i.val).selfTest (s.targetedPass d.val i.val f q w)).retireDetector d.val i.val)) := by
  have listed : (s.die d.val).droop.testDue.contains i.val = true := List.contains_iff_mem.2 due
  change execDetectorTargetedTest d i f q w s = _
  rw [execDetectorTargetedTest, State.run_on _ hs]
  simp only [power, listed, free, Bool.and_self, if_true, Bool.false_eq_true, if_false]
  rfl

theorem State.testDue_testTaken (s : State) (d i : Nat) (pass : Bool) : i ∉ (((s.testTaken d i).selfTest pass).die d).droop.testDue := by
  have taken : (((s.testTaken d i).selfTest pass).die d).droop.testDue = (s.die d).droop.testDue.filter (· ≠ i) := by
    rw [State.selfTest, State.die, State.count_dies]
    exact congrArg (fun x : DieState => x.droop.testDue) ((s.die_updDie _ _ _).trans (if_pos rfl))
  rw [taken]
  simp

theorem detectorTargetedTest_lands {s : State} {d : Die} {i : Fin 64} (f : Bool) (q : QuietTest) (w : SweepTest) (hs : s.aon = true)
    (power : (s.die d.val).powered = true) (due : i.val ∈ (s.die d.val).droop.testDue) (lt : i.val < dieDetectors d.val)
    (free : s.detRetired d.val i.val = false) :
    ∃ t, exec (.detectorTargetedTest d i f q w) s = .next t ∧ i.val ∉ (t.die d.val).droop.testDue ∧
      if f = true ∧ q.tripped < 16 ∧ s.charTap d.val i.val ((s.rail (ownRail d.val)).vs : Rat) - 4 ≤ (w.tap : Rat) ∧
          (w.tap : Rat) ≤ s.charTap d.val i.val ((s.rail (ownRail d.val)).vs : Rat) + 4 then
        t.rd .fltTrans = s.oneUp .fltTrans ∧ s.onlyChanges t [⟨.fltTrans, 0, 0⟩] [.dies]
      else t.rd .fltLasting = s.oneUp .fltLasting ∧ t.detRetired d.val i.val = true := by
  have passes : s.targetedPass d.val i.val f q w = true ↔
      f = true ∧ q.tripped < 16 ∧ s.charTap d.val i.val ((s.rail (ownRail d.val)).vs : Rat) - 4 ≤ (w.tap : Rat) ∧
        (w.tap : Rat) ≤ s.charTap d.val i.val ((s.rail (ownRail d.val)).vs : Rat) + 4 := by
    simp only [State.targetedPass, Bool.and_eq_true, decide_eq_true_eq, and_assoc]
  refine ⟨_, exec_detectorTargetedTest f q w hs power due free, ?_, ?_⟩
  · rw [State.die_commit]
    split
    · exact s.testDue_testTaken _ _ _
    · rw [State.testDue_retireDetector]
      exact s.testDue_testTaken _ _ _
  · rw [State.rd_commit _ _ _ _ _ rfl, State.rd_commit _ _ _ _ _ rfl]
    split
    · next h =>
      have pass := passes.2 h
      rw [pass, if_pos rfl]
      refine ⟨(State.testTaken s d.val i.val).rd_count_same (f := .fltTrans) rfl, State.onlyChanges_commit ?_⟩
      exact State.onlyChanges_wr (State.onlyChanges_updDie (s.onlyChanges_refl _ _) _ _ List.mem_cons_self) .fltTrans _ 0 0 List.mem_cons_self
    · next h =>
      have fail : s.targetedPass d.val i.val f q w = false := Bool.eq_false_iff.2 fun pass => h (passes.1 pass)
      rw [fail, if_neg Bool.false_ne_true]
      refine ⟨?_, ?_⟩
      · rw [retireDetector_clamp (clamp_rd 0 0 (by decide) rfl), State.rd_wr_field _ _ _ _ _ _ (by decide)]
        have kept (t : State) : (t.setBit .dagDrpretRet i.val true d.val).rd .fltLasting = t.rd .fltLasting := by
          unfold State.setBit
          dsimp only
          split
          · rfl
          · exact t.rd_wr_field _ _ _ _ _ (by decide)
        rw [kept]
        exact (State.testTaken s d.val i.val).rd_count_same (f := .fltLasting) rfl
      · rw [State.detRetired, State.rd_commit _ _ _ _ _ rfl]
        exact State.detRetired_retireDetector _ d.isLt lt

/-- Settles O33: a trip stretches each of its domains once, X drops behind the cycles that its hold has counted, and a test that fails retires its
detector whatever its domain is then clamped to. -/
theorem droopStretchesAndTests : Obligations.DroopStretchesAndTests := by
  intro s d i k hs
  refine ⟨fun tap q l det hl trips => droopTrip_lands tap q hs det hl trips, fun cycles hold => ?_, fun cycles x hold => ?_,
    fun hi lo power run free => detectorSelftest_lands hi lo hs power run free,
    fun f q w => ⟨fun power due lt free => detectorTargetedTest_lands f q w hs power due lt free, fun out => ?_⟩⟩
  · have he : (⟨.dagDrpxHold, d.val, k.val⟩ : FieldRef).exists = true := by
      by_contra none
      have zero : s.rd .dagDrpxHold d.val k.val = 0 := s.reg_absent (Bool.eq_false_iff.2 none)
      rw [State.flag, zero] at hold
      exact absurd hold (by decide)
    have drop (f : Field) (hx : f ∉ episodeFields) (hX : .dagDrpxX ≠ f) (t : State) :
        (t.dropX d.val k.val).rd f d.val k.val = t.rd f d.val k.val :=
      (dropX_episode (end_rd d.val k.val hx) t _ _).trans (t.rd_wr_field _ _ _ _ _ hX)
    have x : ((s.runsClosed d.val k.val (s.holdLen d.val) cycles).wr .dagDrpxHold 0 d.val k.val).rd .dagDrpxX d.val k.val = s.rd .dagDrpxX d.val k.val := by
      rw [State.rd_wr_field _ _ _ _ _ _ (by decide), State.rd_runsClosed _ _ _ _ _ _ _ (by decide) (by decide) rfl]
    refine ⟨_, exec_droopHoldEnd cycles hs hold, ?_, ?_, fun one => ?_, fun e found before since counts => ?_,
      State.sameTabs_commit (State.sameTabs_dropX _ _ (State.sameTabs_wr (s.sameTabs_runsClosed _ _ _ _) _ _ _ _))⟩
    · rw [State.flag, State.rd_commit _ _ _ _ _ rfl, drop _ (by decide) (by decide), State.rd_wr_same _ _ _ _ _ he]
      rfl
    · rw [State.rd_commit _ _ _ _ _ rfl, State.x_dropX _ he, x]
    · rw [State.episodeStart, State.die_commit]
      exact State.episodeStart_dropX (x.trans one)
    · rw [State.rd_commit _ _ _ _ _ rfl, drop _ (by decide) (by decide), State.rd_wr_field _ _ _ _ _ _ (by decide)]
      exact State.drpcyc_runsClosed he found before since counts _ _
  · have he : (⟨.dagDrpxX, d.val, k.val⟩ : FieldRef).exists = true := by
      by_contra none
      exact x (s.reg_absent (Bool.eq_false_iff.2 none))
    have kept : (s.runsClosed d.val k.val (max 64 (s.rd .clkRampCyc)) cycles).rd .dagDrpxX d.val k.val = s.rd .dagDrpxX d.val k.val :=
      s.rd_runsClosed _ _ _ _ _ _ (by decide) (by decide) rfl
    refine ⟨_, exec_droopReleaseStep cycles hs x hold, ?_, fun one => ?_, State.sameTabs_commit (State.sameTabs_dropX _ _ (s.sameTabs_runsClosed _ _ _ _))⟩
    · rw [State.rd_commit _ _ _ _ _ rfl, State.x_dropX _ he, kept]
    · rw [State.episodeStart, State.die_commit]
      exact State.episodeStart_dropX (kept.trans one)
  · have idle : (s.die d.val).droop.testDue.contains i.val = false := by simpa using out
    have ran : exec (.detectorTargetedTest d i f q w) s = .next (s.commit s) := by
      change execDetectorTargetedTest d i f q w s = _
      rw [execDetectorTargetedTest, State.run_on _ hs]
      simp only [idle, Bool.and_false, Bool.false_eq_true, if_false]
    exact ⟨_, ran, State.onlyChanges_commit (s.onlyChanges_refl _ _)⟩

end Sys2Proof.Machine

/-!
Settles O36: the states of the crystals, the reference that they give, and the oscillator's trim (R129 to R134).
-/
namespace Sys2Proof.Machine

/-! ## The clock's record beside the registers -/

/-- The state with another record of the clock. -/
def State.withClock (s : State) (c : ClockState) : State := { s with clock := c }

theorem State.rd_withClock (s : State) (c : ClockState) (f : Field) (i j : Nat) : (s.withClock c).rd f i j = s.rd f i j := rfl
theorem State.now_withClock (s : State) (c : ClockState) : (s.withClock c).now = s.now := rfl
theorem State.core_withClock (s : State) (c : ClockState) : (s.withClock c).core = { s.core with clock := c } := rfl
theorem State.clock_commit (s n : State) : (s.commit n).clock = n.clock := rfl

theorem State.sameTabs_withClock {s n : State} {l : List Tab} (h : s.sameTabsBut n l) (c : ClockState) : s.sameTabsBut (n.withClock c) l := by
  intro x hx
  have same := h x hx
  cases x <;> exact same

theorem State.core_put (s : State) (r : FieldRef) (v : Nat) : (s.put r v).core = s.core :=
  State.put_other State.core (fun _ _ => rfl) (fun _ _ => rfl) s r v

theorem State.core_wr (s : State) (f : Field) (v i j : Nat) : (s.wr f v i j).core = s.core := s.core_put ⟨f, i, j⟩ v

/-- A command that lets no time pass and queues none reads after the guard as it has left the block. -/
theorem State.core_commit {s n : State} (hp : n.pending = s.pending) (hn : n.now = s.now) : (s.commit n).core = n.core := by
  have now : max s.now n.now = n.now := by omega
  simp [State.core, State.commit, hp, now]

theorem State.clock_wr (s : State) (f : Field) (v i j : Nat) : (s.wr f v i j).clock = s.clock :=
  State.put_other State.clock (fun _ _ => rfl) (fun _ _ => rfl) s ⟨f, i, j⟩ v

/-! ## A crystal -/

theorem xtalField_ne (x : Xtal) : xtalField (1 - x.val) ≠ xtalField x.val := by revert x; decide

theorem xtalField_limit (x : Nat) : (xtalField x).isLimit = false := by unfold xtalField; split <;> rfl

theorem xtalField_exists (x : Nat) : (⟨xtalField x, 0, 0⟩ : FieldRef).exists = true := by unfold xtalField; split <;> rfl

theorem xtalField_time (x : Nat) : xtalField x ∉ timeFields := by unfold xtalField; split <;> decide

theorem xtalField_width (x : Nat) : (fieldDef (xtalField x)).width = 2 := by unfold xtalField; split <;> rfl

/-- A crystal's field is X0 or X1, and no other. -/
theorem xtalField_ne_of {f : Field} (h0 : f ≠ .clkSrcX0) (h1 : f ≠ .clkSrcX1) (x : Nat) : f ≠ xtalField x := by
  unfold xtalField
  split
  · exact h0
  · exact h1

theorem xcnt_exists (x : Xtal) : (⟨.clkXcntCount, 0, x.val⟩ : FieldRef).exists = true := by revert x; decide

theorem State.xtal_commit (s n : State) (x : Nat) : (s.commit n).xtal x = n.xtal x := s.rd_commit n _ 0 0 (xtalField_limit x)

theorem State.xtal_withClock (s : State) (c : ClockState) (x : Nat) : (s.withClock c).xtal x = s.xtal x := rfl

theorem State.rd_xtalTo (s : State) (x st n : Nat) {f : Field} (i j : Nat) (h : xtalField x ≠ f) (hc : .clkXcntCount ≠ f) :
    (s.xtalTo x st n).rd f i j = s.rd f i j := by
  rw [State.xtalTo, State.rd_wr_field _ _ _ _ _ _ hc, State.rd_wr_field _ _ _ _ _ _ h]

theorem State.xtal_xtalTo (s : State) (x n : Nat) {st : Nat} (h : st < 4) : (s.xtalTo x st n).xtal x = st := by
  rw [State.xtal, State.xtalTo, State.rd_wr_field _ _ _ _ _ _ (xtalField_ne_of (by decide) (by decide) x),
    State.rd_wr_same _ _ _ _ _ (xtalField_exists x), xtalField_width]
  exact Nat.mod_eq_of_lt h

theorem State.other_xtalTo (s : State) (x : Xtal) (st n : Nat) : (s.xtalTo x.val st n).xtal (1 - x.val) = s.xtal (1 - x.val) :=
  s.rd_xtalTo _ _ _ _ _ (Ne.symm (xtalField_ne x)) (xtalField_ne_of (by decide) (by decide) _)

theorem State.xcnt_xtalTo (s : State) (x : Xtal) (st n : Nat) : (s.xtalTo x.val st n).rd .clkXcntCount 0 x.val = n % 2 ^ 21 :=
  State.rd_wr_same _ .clkXcntCount n 0 x.val (xcnt_exists x)

theorem State.sameTabs_xtalTo {s n : State} {l : List Tab} (h : s.sameTabsBut n l) (x st c : Nat) : s.sameTabsBut (n.xtalTo x st c) l :=
  State.sameTabs_wr (State.sameTabs_wr h _ _ _ _) _ _ _ _

theorem State.clock_xtalTo (s : State) (x st n : Nat) : (s.xtalTo x st n).clock = s.clock := by
  rw [State.xtalTo, State.clock_wr, State.clock_wr]

theorem State.core_xtalTo (s : State) (x st n : Nat) : (s.xtalTo x st n).core = s.core := by
  rw [State.xtalTo, State.core_wr, State.core_wr]

theorem State.now_xtalTo (s : State) (x st n : Nat) : (s.xtalTo x st n).now = s.now := by
  rw [State.xtalTo, State.wr_now, State.wr_now]

/-- Outside COUNT the count of a crystal is the one that stands. -/
theorem State.xtalCycles_of_ne {s : State} {x : Nat} (h : s.xtal x ≠ xtalCount) : s.xtalCycles x = s.rd .clkXcntCount 0 x := if_neg h

theorem State.xtalCycles_commit (s n : State) {x : Nat} (h : n.xtal x ≠ xtalCount) : (s.commit n).xtalCycles x = n.rd .clkXcntCount 0 x := by
  rw [State.xtalCycles_of_ne (by rw [State.xtal_commit]; exact h), State.rd_commit _ _ _ _ _ rfl]

/-! ## The trim source -/

/-- How TSRC shows a trim source (R131). -/
def tsrc (t : Option Nat) : Nat := if t = none then 0 else if t = some 2 then 2 else 1

/-- The clock with its trim source taken. -/
def State.trimmedBy (s : State) (b : Bool) : ClockState :=
  { s.clock with trimBy := s.trimSource b, beacons := b, gates := if s.trimSource b = s.clock.trimBy then s.clock.gates else 0 }

theorem State.retrim_eq (s : State) (b : Bool) : s.retrim b = (s.wr .clkOsctrimTsrc (tsrc (s.trimSource b))).withClock (s.trimmedBy b) := by
  unfold State.retrim tsrc State.trimmedBy State.withClock
  dsimp only
  rw [State.clock_wr]
  rcases s.trimSource b with - | ⟨- | - | - | n⟩ <;> rfl

theorem State.rd_retrim (s : State) (b : Bool) {f : Field} (i j : Nat) (h : .clkOsctrimTsrc ≠ f) : (s.retrim b).rd f i j = s.rd f i j := by
  rw [State.retrim_eq, State.rd_withClock, State.rd_wr_field _ _ _ _ _ _ h]

theorem State.xtal_retrim (s : State) (b : Bool) (x : Nat) : (s.retrim b).xtal x = s.xtal x :=
  s.rd_retrim b _ _ (xtalField_ne_of (by decide) (by decide) x)

theorem State.trimBy_retrim (s : State) (b : Bool) : (s.retrim b).clock.trimBy = s.trimSource b := by rw [State.retrim_eq]; rfl

theorem State.now_retrim (s : State) (b : Bool) : (s.retrim b).now = s.now := by rw [State.retrim_eq, State.now_withClock, State.wr_now]

/-- A crystal that is STABLE gives a source of trim. -/
theorem State.trimSource_ne_none {s : State} {x : Xtal} (h : s.xtal x.val = xtalStable) (b : Bool) : s.trimSource b ≠ none := by
  unfold State.trimSource
  split
  · exact Option.some_ne_none _
  · match x with
    | 0 => rw [if_pos (show s.xtal 0 = xtalStable from h)]; exact Option.some_ne_none _
    | 1 =>
      split
      · exact Option.some_ne_none _
      · rw [if_pos (show s.xtal 1 = xtalStable from h)]; exact Option.some_ne_none _

/-- A crystal that is not STABLE is no source of trim. -/
theorem State.trimSource_ne_some {s : State} {x : Xtal} (h : s.xtal x.val ≠ xtalStable) (b : Bool) : s.trimSource b ≠ some x.val := by
  unfold State.trimSource
  split
  · next y hy =>
    have kept := (Option.filter_eq_some_iff.1 hy).2
    rintro same
    obtain rfl := Option.some.inj same
    simp [h] at kept
  · split
    · next stable => intro same; exact h (Option.some.inj same ▸ stable)
    · split
      · next stable => intro same; exact h (Option.some.inj same ▸ stable)
      · split
        · intro same
          have := Option.some.inj same
          have := x.isLt
          omega
        · exact (Option.some_ne_none _).symm

/-! ## Commands of the crystals -/

/-- A crystal that begins to count, at this time (R129). -/
def State.countBegun (s : State) (x : Nat) : State := (s.xtalTo x xtalCount 0).withClock (s.clock.begin x s.now)

theorem count_begin (c : ClockState) (x t : Nat) : (c.begin x t).count x = t := by
  unfold ClockState.begin ClockState.count
  by_cases h : x = 0 <;> simp [h]

theorem xtalAmplitude_lands {s : State} {x : Xtal} (hs : s.aon = true) (h : s.xtal x.val = xtalNoamp) :
    ∃ t, exec (.xtalAmplitude x) s = .next t ∧ t.xtal x.val = xtalCount ∧ t.xtalCycles x.val = 0 ∧
      s.sameRegsBut t [⟨xtalField x.val, 0, 0⟩, ⟨.clkXcntCount, 0, x.val⟩] ∧ s.sameTabsBut t [] ∧
      t.core = { s.core with clock := s.clock.begin x.val s.now } := by
  have ran : exec (.xtalAmplitude x) s = .next (s.commit (s.countBegun x.val)) := by
    have begun : (s.xtalTo x.val xtalCount 0).withClock ((s.xtalTo x.val xtalCount 0).clock.begin x.val (s.xtalTo x.val xtalCount 0).now) =
        s.countBegun x.val := by rw [State.clock_xtalTo, State.now_xtalTo]; rfl
    change execXtalAmplitude x s = _
    rw [execXtalAmplitude, State.run_on _ hs]
    simp only [h, if_true]
    exact congrArg (fun n => Host.Outcome.next (s.commit n)) begun
  have counts : (s.commit (s.countBegun x.val)).xtal x.val = xtalCount := by
    rw [State.xtal_commit, State.countBegun, State.xtal_withClock, State.xtal_xtalTo _ _ _ (by decide)]
  have now : (s.countBegun x.val).now = s.now := by rw [State.countBegun, State.now_withClock, State.now_xtalTo]
  refine ⟨_, ran, counts, ?_, State.sameRegs_commit ?_, State.sameTabs_commit ?_, ?_⟩
  · rw [State.xtalCycles, if_pos counts, State.clock_commit, State.commit_now, now]
    have start : (s.countBegun x.val).clock.count x.val = s.now := count_begin _ _ _
    rw [start, Nat.max_self, Nat.sub_self]
    rfl
  · exact (State.onlyChanges_wr (State.onlyChanges_wr (s.onlyChanges_refl _ []) _ _ _ _ List.mem_cons_self) _ _ _ _
      (List.mem_cons_of_mem _ List.mem_cons_self)).1
  · exact State.sameTabs_withClock (State.sameTabs_xtalTo (fun y _ => s.sameIn_refl y) _ _ _) _
  · rw [State.core_commit ?_ now, State.countBegun, State.core_withClock, State.core_xtalTo]
    have pending : (s.xtalTo x.val xtalCount 0).core.pending = s.core.pending := by rw [State.core_xtalTo]
    exact pending

theorem xtalCountDrop_lands {s : State} {x : Xtal} (hs : s.aon = true) (h : s.xtal x.val = xtalCount) :
    ∃ t, exec (.xtalCountDrop x) s = .next t ∧ t.xtal x.val = xtalNoamp ∧ t.xtalCycles x.val = 0 ∧
      s.onlyChanges t [⟨xtalField x.val, 0, 0⟩, ⟨.clkXcntCount, 0, x.val⟩] [] := by
  have ran : exec (.xtalCountDrop x) s = .next (s.commit (s.xtalTo x.val xtalNoamp 0)) := by
    change execXtalCountDrop x s = _
    rw [execXtalCountDrop, State.run_on _ hs]
    simp only [h, if_true]
  have dropped := s.xtal_xtalTo x.val 0 (show xtalNoamp < 4 by decide)
  refine ⟨_, ran, (s.xtal_commit _ _).trans dropped, ?_, State.onlyChanges_commit ?_⟩
  · rw [State.xtalCycles_commit _ _ (by rw [dropped]; decide), State.xcnt_xtalTo]
    rfl
  · exact State.onlyChanges_wr (State.onlyChanges_wr (s.onlyChanges_refl _ []) _ _ _ _ List.mem_cons_self) _ _ _ _
      (List.mem_cons_of_mem _ List.mem_cons_self)

theorem exec_xtalStable {s : State} {x : Xtal} (hs : s.aon = true) (h : s.xtal x.val = xtalCount) :
    exec (.xtalStable x) s = .next (s.commit
      (if s.clock.count x.val + 20971520 ≤ s.clock.start x.val + 250000000 then
        ((s.advanceTo (s.clock.count x.val + 20971520)).xtalTo x.val xtalStable 1048576).retrim s.clock.beacons else s)) := by
  change execXtalStable x s = _
  rw [execXtalStable, State.run_on _ hs]
  simp only [h, decide_true, Bool.true_and, decide_eq_true_eq]

theorem xtalStable_lands {s : State} {x : Xtal} (hs : s.aon = true) (h : s.xtal x.val = xtalCount) :
    (s.clock.count x.val + 20971520 ≤ s.clock.start x.val + 250000000 →
      ∃ t, exec (.xtalStable x) s = .next t ∧ t.xtal x.val = xtalStable ∧ t.xtalCycles x.val = 1048576 ∧
        s.clock.count x.val + 20971520 ≤ t.now ∧ t.clock.trimBy ≠ none ∧ s.sameTabsBut t []) ∧
    (s.clock.start x.val + 250000000 < s.clock.count x.val + 20971520 →
      ∃ t, exec (.xtalStable x) s = .next t ∧ s.onlyChanges t [] []) := by
  refine ⟨fun soon => ?_, fun late => ⟨_, exec_xtalStable hs h, ?_⟩⟩
  · have stable := (s.advanceTo (s.clock.count x.val + 20971520)).xtal_xtalTo x.val 1048576 (show xtalStable < 4 by decide)
    refine ⟨_, exec_xtalStable hs h, ?_⟩
    rw [if_pos soon]
    refine ⟨?_, ?_, ?_, ?_, State.sameTabs_commit ?_⟩
    · rw [State.xtal_commit, State.xtal_retrim, stable]
    · rw [State.xtalCycles_commit _ _ (by rw [State.xtal_retrim, stable]; decide), State.rd_retrim _ _ _ _ (by decide), State.xcnt_xtalTo]
      rfl
    · rw [State.commit_now, State.now_retrim, State.now_xtalTo, State.advanceTo_now]
      omega
    · rw [State.clock_commit, State.trimBy_retrim]
      exact State.trimSource_ne_none stable _
    · rw [State.retrim_eq]
      exact State.sameTabs_withClock (State.sameTabs_wr (State.sameTabs_xtalTo (s.sameTabs_advanceTo _) _ _ _) _ _ _ _) _
  · rw [if_neg (not_le.2 late)]
    exact State.onlyChanges_commit (s.onlyChanges_refl _ _)

theorem State.rd_xtalFault (s : State) (x : Nat) {f : Field} (i j : Nat) (h : latchField f = false) : (s.xtalFault x).rd f i j = s.rd f i j := by
  unfold State.xtalFault
  dsimp only
  split <;> exact rd_raise_any _ _ _ _ _ h

theorem latchField_xtal (x : Nat) : latchField (xtalField x) = false := by unfold xtalField; split <;> rfl

theorem State.xtal_xtalFault (s : State) (x y : Nat) : (s.xtalFault x).xtal y = s.xtal y := s.rd_xtalFault x _ _ (latchField_xtal y)

theorem clock_raise (s : State) (x : FaultRec) : (s.raise x).clock = s.clock := raise_latch latch_clock s x

theorem State.clock_xtalFault (s : State) (x : Nat) : (s.xtalFault x).clock = s.clock := by
  unfold State.xtalFault
  dsimp only
  split <;> exact clock_raise _ _

theorem State.now_xtalFault (s : State) (x : Nat) : (s.xtalFault x).now = s.now := by
  unfold State.xtalFault
  dsimp only
  split <;> exact raise_latch latch_now _ _

/-- The class of a crystal's fault depends on the other crystal (R133). -/
theorem State.counted_xtalFault (s : State) (x : Nat) :
    (s.xtal (1 - x) = xtalStable → (s.xtalFault x).rd .fltCorr = s.oneUp .fltCorr) ∧
      (s.xtal (1 - x) ≠ xtalStable → (s.xtalFault x).rd .fltCont = s.oneUp .fltCont) := by
  unfold State.xtalFault
  refine ⟨fun h => ?_, fun h => ?_⟩
  · rw [if_pos h]
    exact State.fltCorr_raise_corrected _ rfl
  · rw [if_neg h]
    exact State.fltCont_raise_contained _ rfl

theorem State.rd_selectRef (s : State) (r : Nat) {f : Field} (i j : Nat) (h : .clkSrcRefsel ≠ f) (hw : .clkStatusRefsw ≠ f) :
    (s.selectRef r).rd f i j = s.rd f i j := by
  unfold State.selectRef
  split
  · rfl
  · rw [State.rd_wr_field _ _ _ _ _ _ hw, State.rd_wr_field _ _ _ _ _ _ h]

/-- A reference that gives way to another (R132). -/
theorem State.ref_selectRef {s : State} {r : Nat} (h : s.rd .clkSrcRefsel ≠ r) (hr : r < 4) :
    (s.selectRef r).rd .clkSrcRefsel = r ∧ (s.selectRef r).flag .clkStatusRefsw = true := by
  rw [State.selectRef, if_neg h]
  refine ⟨?_, decide_eq_true (State.rd_wr_same _ .clkStatusRefsw 1 0 0 rfl)⟩
  rw [State.rd_wr_field _ _ _ _ _ _ (by decide), State.rd_wr_same _ .clkSrcRefsel r 0 0 rfl]
  exact Nat.mod_eq_of_lt hr

theorem State.clock_selectRef (s : State) (r : Nat) : (s.selectRef r).clock = s.clock := by
  unfold State.selectRef
  split
  · rfl
  · rw [State.clock_wr, State.clock_wr]

/-- The reference that leaves a crystal which has failed (R132). -/
def State.refLeaves (s : State) (x : Nat) : State :=
  if s.rd .clkSrcRefsel = x then s.selectRef (if s.xtal (1 - x) = xtalStable then 1 - x else 2) else s

theorem State.rd_refLeaves (s : State) (x : Nat) {f : Field} (i j : Nat) (h : .clkSrcRefsel ≠ f) (hw : .clkStatusRefsw ≠ f) :
    (s.refLeaves x).rd f i j = s.rd f i j := by
  unfold State.refLeaves
  split
  · exact s.rd_selectRef _ _ _ h hw
  · rfl

theorem State.clock_refLeaves (s : State) (x : Nat) : (s.refLeaves x).clock = s.clock := by
  unfold State.refLeaves
  split
  · exact s.clock_selectRef _
  · rfl

/-- A crystal that is lost, with its fault raised, before the reference leaves it (R133). -/
def State.xtalLost (s : State) (x : Nat) : State := ((s.xtalTo x xtalFailed 0).retrim s.clock.beacons).xtalFault x

theorem exec_xtalLoss {s : State} {x : Xtal} (hs : s.aon = true) (h : s.xtal x.val = xtalStable) :
    exec (.xtalLoss x) s = .next (s.commit ((s.xtalLost x.val).refLeaves x.val)) := by
  change execXtalLoss x s = _
  rw [execXtalLoss, State.run_on _ hs]
  simp only [h, if_true]
  rfl

theorem xtalLoss_lands {s : State} {x : Xtal} (hs : s.aon = true) (h : s.xtal x.val = xtalStable) :
    ∃ t, exec (.xtalLoss x) s = .next t ∧ t.xtal x.val = xtalFailed ∧
      (s.xtal (1 - x.val) = xtalStable → t.rd .fltCorr = s.oneUp .fltCorr) ∧
      (s.xtal (1 - x.val) ≠ xtalStable → t.rd .fltCont = s.oneUp .fltCont) ∧
      (s.rd .clkSrcRefsel = x.val → t.flag .clkStatusRefsw = true ∧
        t.rd .clkSrcRefsel = if s.xtal (1 - x.val) = xtalStable then 1 - x.val else 2) ∧
      (s.rd .clkSrcRefsel ≠ x.val → t.rd .clkSrcRefsel = s.rd .clkSrcRefsel) ∧
      t.clock.trimBy ≠ some x.val ∧ t.xtal (1 - x.val) = s.xtal (1 - x.val) := by
  have failed := s.xtal_xtalTo x.val 0 (show xtalFailed < 4 by decide)
  have lost : (s.xtalLost x.val).xtal x.val = xtalFailed := by rw [State.xtalLost, State.xtal_xtalFault, State.xtal_retrim, failed]
  have before : ((s.xtalTo x.val xtalFailed 0).retrim s.clock.beacons).xtal (1 - x.val) = s.xtal (1 - x.val) := by
    rw [State.xtal_retrim, State.other_xtalTo]
  have other : (s.xtalLost x.val).xtal (1 - x.val) = s.xtal (1 - x.val) := by rw [State.xtalLost, State.xtal_xtalFault, before]
  have rd (f : Field) (hx0 : f ≠ .clkSrcX0) (hx1 : f ≠ .clkSrcX1) (hc : .clkXcntCount ≠ f) (ht : .clkOsctrimTsrc ≠ f) :
      ((s.xtalTo x.val xtalFailed 0).retrim s.clock.beacons).rd f = s.rd f := by
    rw [State.rd_retrim _ _ _ _ ht, State.rd_xtalTo _ _ _ _ _ _ (Ne.symm (xtalField_ne_of hx0 hx1 _)) hc]
  have ref : (s.xtalLost x.val).rd .clkSrcRefsel = s.rd .clkSrcRefsel :=
    (State.rd_xtalFault _ _ _ _ rfl).trans (rd _ (by decide) (by decide) (by decide) (by decide))
  have xtals (y : Nat) : (s.commit ((s.xtalLost x.val).refLeaves x.val)).xtal y = (s.xtalLost x.val).xtal y :=
    (s.xtal_commit _ y).trans (State.rd_refLeaves _ _ _ _ (xtalField_ne_of (by decide) (by decide) y) (xtalField_ne_of (by decide) (by decide) y))
  obtain ⟨corr, cont⟩ := ((s.xtalTo x.val xtalFailed 0).retrim s.clock.beacons).counted_xtalFault x.val
  refine ⟨_, exec_xtalLoss hs h, (xtals x.val).trans lost, fun stable => ?_, fun out => ?_, fun mine => ?_, fun hers => ?_, ?_, (xtals _).trans other⟩
  · rw [State.rd_commit _ _ _ _ _ rfl, State.rd_refLeaves _ _ _ _ (by decide) (by decide), State.xtalLost, corr (before.trans stable), State.oneUp,
      rd _ (by decide) (by decide) (by decide) (by decide), State.oneUp]
  · rw [State.rd_commit _ _ _ _ _ rfl, State.rd_refLeaves _ _ _ _ (by decide) (by decide), State.xtalLost, cont (by rw [before]; exact out),
      State.oneUp, rd _ (by decide) (by decide) (by decide) (by decide), State.oneUp]
  · have apart : (s.xtalLost x.val).rd .clkSrcRefsel ≠ (if s.xtal (1 - x.val) = xtalStable then 1 - x.val else 2) := by
      rw [ref, mine]
      have := x.isLt
      split <;> omega
    obtain ⟨sel, sw⟩ := State.ref_selectRef apart (by have := x.isLt; split <;> omega)
    rw [State.refLeaves, if_pos (ref.trans mine), other]
    refine ⟨?_, (State.rd_commit _ _ _ _ _ rfl).trans sel⟩
    rw [State.flag, State.rd_commit _ _ _ _ _ rfl]
    exact sw
  · rw [State.rd_commit _ _ _ _ _ rfl, State.refLeaves, if_neg (by rw [ref]; exact hers), ref]
  · rw [State.clock_commit, State.clock_refLeaves, State.xtalLost, State.clock_xtalFault, State.trimBy_retrim]
    exact State.trimSource_ne_some (by rw [failed]; decide) _

/-- A crystal that is late, before its fault (R130). -/
def State.xtalLate (s : State) (x : Nat) : State := (s.advanceTo (s.clock.start x + 250000000)).xtalTo x xtalFailed 0

theorem exec_xtalTimeout {s : State} {x : Xtal} (hs : s.aon = true) (h : s.xtal x.val = xtalNoamp ∨ s.xtal x.val = xtalCount) :
    exec (.xtalTimeout x) s = .next (s.commit (if s.clock.retry x.val then s.xtalLate x.val else (s.xtalLate x.val).xtalFault x.val)) := by
  have tries : (s.xtal x.val = xtalNoamp || s.xtal x.val = xtalCount) = true := by simpa using h
  change execXtalTimeout x s = _
  rw [execXtalTimeout, State.run_on _ hs]
  simp only [tries, if_true]
  rfl

theorem xtalTimeout_lands {s : State} {x : Xtal} (hs : s.aon = true) (h : s.xtal x.val = xtalNoamp ∨ s.xtal x.val = xtalCount) :
    ∃ t, exec (.xtalTimeout x) s = .next t ∧ t.xtal x.val = xtalFailed ∧ s.clock.start x.val + 250000000 ≤ t.now ∧
      (s.clock.retry x.val = true → t.rd .fltCorr = s.rd .fltCorr ∧ t.rd .fltCont = s.rd .fltCont) ∧
      (s.clock.retry x.val = false → if s.xtal (1 - x.val) = xtalStable then t.rd .fltCorr = s.oneUp .fltCorr
        else t.rd .fltCont = s.oneUp .fltCont) := by
  have failed : (s.xtalLate x.val).xtal x.val = xtalFailed := State.xtal_xtalTo _ _ _ (by decide)
  have other : (s.xtalLate x.val).xtal (1 - x.val) = s.xtal (1 - x.val) :=
    (State.other_xtalTo _ x _ _).trans (s.rd_advanceTo _ _ _ (xtalField_time _))
  have now : (s.xtalLate x.val).now = max s.now (s.clock.start x.val + 250000000) := (State.now_xtalTo _ _ _ _).trans (s.advanceTo_now _)
  have rd (f : Field) (hx0 : f ≠ .clkSrcX0) (hx1 : f ≠ .clkSrcX1) (hc : .clkXcntCount ≠ f) (ht : f ∉ timeFields) : (s.xtalLate x.val).rd f = s.rd f := by
    rw [State.xtalLate, State.rd_xtalTo _ _ _ _ _ _ (Ne.symm (xtalField_ne_of hx0 hx1 _)) hc, State.rd_advanceTo _ _ _ _ ht]
  refine ⟨_, exec_xtalTimeout hs h, ?_, ?_, fun again => ?_, fun first => ?_⟩
  · rw [State.xtal_commit]
    split
    · exact failed
    · rw [State.xtal_xtalFault, failed]
  · rw [State.commit_now]
    split
    · rw [now]; omega
    · rw [State.now_xtalFault, now]; omega
  · rw [if_pos again, State.rd_commit _ _ _ _ _ rfl, State.rd_commit _ _ _ _ _ rfl]
    exact ⟨rd _ (by decide) (by decide) (by decide) (by decide), rd _ (by decide) (by decide) (by decide) (by decide)⟩
  · obtain ⟨corr, cont⟩ := (s.xtalLate x.val).counted_xtalFault x.val
    have fault : (if s.clock.retry x.val then s.xtalLate x.val else (s.xtalLate x.val).xtalFault x.val) = (s.xtalLate x.val).xtalFault x.val :=
      if_neg (by rw [first]; decide)
    rw [fault, State.rd_commit _ _ _ _ _ rfl, State.rd_commit _ _ _ _ _ rfl]
    split
    · next stable =>
      rw [corr (other.trans stable), State.oneUp, rd _ (by decide) (by decide) (by decide) (by decide), State.oneUp]
    · next out =>
      rw [cont (by rw [other]; exact out), State.oneUp, rd _ (by decide) (by decide) (by decide) (by decide), State.oneUp]

/-- A crystal that is tried again, from this time on (R133). -/
def State.xtalAgain (s : State) (x : Nat) : State :=
  let n := (s.advanceTo (s.clock.start x + 1000000000)).xtalTo x xtalNoamp 0
  n.withClock (n.clock.attempt x n.now true)

theorem attempt_same (c : ClockState) (x t : Nat) (again : Bool) : (c.attempt x t again).start x = t ∧ (c.attempt x t again).retry x = again := by
  unfold ClockState.attempt ClockState.start ClockState.retry
  by_cases h : x = 0 <;> simp [h]

theorem xtalRetry_lands {s : State} {x : Xtal} (hs : s.aon = true) (h : s.xtal x.val = xtalFailed) :
    ∃ t, exec (.xtalRetry x) s = .next t ∧ t.xtal x.val = xtalNoamp ∧ s.clock.start x.val + 1000000000 ≤ t.now ∧
      t.clock.start x.val = t.now ∧ t.clock.retry x.val = true ∧ s.sameTabsBut t [] := by
  have ran : exec (.xtalRetry x) s = .next (s.commit (s.xtalAgain x.val)) := by
    change execXtalRetry x s = _
    rw [execXtalRetry, State.run_on _ hs]
    simp only [h, if_true]
    rfl
  have now : ((s.advanceTo (s.clock.start x.val + 1000000000)).xtalTo x.val xtalNoamp 0).now = max s.now (s.clock.start x.val + 1000000000) :=
    (State.now_xtalTo _ _ _ _).trans (s.advanceTo_now _)
  have nowAgain : (s.xtalAgain x.val).now = max s.now (s.clock.start x.val + 1000000000) := (State.now_withClock _ _).trans now
  obtain ⟨start, retry⟩ := attempt_same ((s.advanceTo (s.clock.start x.val + 1000000000)).xtalTo x.val xtalNoamp 0).clock x.val
    ((s.advanceTo (s.clock.start x.val + 1000000000)).xtalTo x.val xtalNoamp 0).now true
  have waits : (s.commit (s.xtalAgain x.val)).xtal x.val = xtalNoamp := by
    rw [State.xtal_commit, State.xtalAgain, State.xtal_withClock, State.xtal_xtalTo _ _ _ (by decide)]
  refine ⟨_, ran, waits, ?_, ?_, ?_,
    State.sameTabs_commit (State.sameTabs_withClock (State.sameTabs_xtalTo (s.sameTabs_advanceTo _) _ _ _) _)⟩
  · rw [State.commit_now, nowAgain]; omega
  · rw [State.commit_now, nowAgain, State.clock_commit]
    refine (start.trans now).trans ?_
    omega
  · rw [State.clock_commit]
    exact retry

theorem refSwitch_lands {s : State} {x : Xtal} (hs : s.aon = true) (fresh : s.clock.picked = false) (trimmed : s.flag .clkOsctrimTrimmed = true)
    (ref : s.rd .clkSrcRefsel = 2) (stable : s.xtal x.val = xtalStable) (first : x.val = 1 → s.xtal 0 ≠ xtalStable) :
    ∃ t, exec .refSwitch s = .next t ∧ t.rd .clkSrcRefsel = x.val ∧ t.flag .clkStatusRefsw = true ∧ t.clock.picked = true ∧
      s.sameRegsBut t [⟨.clkSrcRefsel, 0, 0⟩, ⟨.clkStatusRefsw, 0, 0⟩] ∧ s.sameTabsBut t [] := by
  have ran : exec .refSwitch s = .next (s.commit ((s.selectRef x.val).withClock { s.clock with picked := true })) := by
    have gate : (!s.clock.picked && s.flag .clkOsctrimTrimmed && decide (s.rd .clkSrcRefsel = 2)) = true := by simp [fresh, trimmed, ref]
    change execRefSwitch s = _
    rw [execRefSwitch, State.run_on _ hs]
    simp only [gate, if_true]
    match x with
    | 0 => rw [if_pos (show s.xtal 0 = xtalStable from stable)]; rfl
    | 1 => rw [if_neg (first rfl), if_pos (show s.xtal 1 = xtalStable from stable)]; rfl
  obtain ⟨sel, sw⟩ := State.ref_selectRef (s := s) (r := x.val) (by rw [ref]; have := x.isLt; omega) (by have := x.isLt; omega)
  have only : s.onlyChanges (s.selectRef x.val) [⟨.clkSrcRefsel, 0, 0⟩, ⟨.clkStatusRefsw, 0, 0⟩] [] := by
    unfold State.selectRef
    split
    · exact s.onlyChanges_refl _ _
    · exact State.onlyChanges_wr (State.onlyChanges_wr (s.onlyChanges_refl _ _) _ _ _ _ List.mem_cons_self) _ _ _ _
        (List.mem_cons_of_mem _ List.mem_cons_self)
  obtain ⟨regs, tabs, -⟩ := only
  refine ⟨_, ran, (State.rd_commit _ _ _ _ _ rfl).trans sel, ?_, by rw [State.clock_commit]; rfl, State.sameRegs_commit regs,
    State.sameTabs_commit (State.sameTabs_withClock tabs _)⟩
  rw [State.flag, State.rd_commit _ _ _ _ _ rfl]
  exact sw

/-! ## The oscillator's trim (R131) -/

/-- One gate of the approximation. -/
def State.approximated (s : State) (b : Bool) (n : Nat) : State :=
  let s1 := s.retrim b
  let k := s1.clock.gates + 1
  (s1.wr .clkOsctrimCode (sarCode (if k = 1 then 0x200 else s.rd .clkOsctrimCode) k n)).withClock { s1.clock with gates := k }

/-- The state after a gate, by what the oscillator is trimmed to. -/
def State.gated (s : State) (b : Bool) (n : Nat) : State :=
  if s.trimSource b = none then s.retrim b
  else if s.flag .clkOsctrimTrimmed then (s.retrim b).wr .clkOsctrimCode (trackCode (s.rd .clkOsctrimCode) n)
  else if 10 ≤ (s.retrim b).clock.gates + 1 then (s.approximated b n).wr .clkOsctrimTrimmed 1 else s.approximated b n

theorem exec_oscTrimGate {s : State} (b : Bool) (n : Nat) (hs : s.aon = true) : exec (.oscTrimGate b n) s = .next (s.commit (s.gated b n)) := by
  have same : s.gated b n = (if (s.retrim b).clock.trimBy = none then s.retrim b
      else if s.flag .clkOsctrimTrimmed then (s.retrim b).wr .clkOsctrimCode (trackCode (s.rd .clkOsctrimCode) n)
      else if 10 ≤ (s.retrim b).clock.gates + 1 then (s.approximated b n).wr .clkOsctrimTrimmed 1 else s.approximated b n) := by
    rw [State.trimBy_retrim]
    rfl
  rw [same]
  exact State.run_on (fun s => if (s.retrim b).clock.trimBy = none then s.retrim b
      else if s.flag .clkOsctrimTrimmed then (s.retrim b).wr .clkOsctrimCode (trackCode (s.rd .clkOsctrimCode) n)
      else if 10 ≤ (s.retrim b).clock.gates + 1 then (s.approximated b n).wr .clkOsctrimTrimmed 1 else s.approximated b n) hs

theorem State.code_approximated (s : State) (b : Bool) (n : Nat) :
    (s.approximated b n).rd .clkOsctrimCode =
      sarCode (if (s.retrim b).clock.gates + 1 = 1 then 0x200 else s.rd .clkOsctrimCode) ((s.retrim b).clock.gates + 1) n % 2 ^ 10 :=
  State.rd_wr_same _ .clkOsctrimCode _ 0 0 rfl

theorem State.gates_approximated (s : State) (b : Bool) (n : Nat) : (s.approximated b n).clock.gates = (s.retrim b).clock.gates + 1 := rfl

theorem State.gates_retrim (s : State) (b : Bool) : (s.retrim b).clock.gates = if s.trimSource b = s.clock.trimBy then s.clock.gates else 0 := by
  rw [State.retrim_eq]
  rfl

/-- Reading that a gate does not reach reads as after the source was taken. -/
theorem State.gated_other {α : Type} {g : State → α} (code : ∀ s v, g (State.wr s .clkOsctrimCode v) = g s)
    (trimmed : ∀ s v, g (State.wr s .clkOsctrimTrimmed v) = g s) (gates : ∀ (s : State) k, g (s.withClock { s.clock with gates := k }) = g s)
    (s : State) (b : Bool) (n : Nat) : g (s.gated b n) = g (s.retrim b) := by
  have step : g (s.approximated b n) = g (s.retrim b) := by
    have clock : (s.retrim b).clock = ((s.retrim b).wr .clkOsctrimCode
      (sarCode (if (s.retrim b).clock.gates + 1 = 1 then 0x200 else s.rd .clkOsctrimCode) ((s.retrim b).clock.gates + 1) n)).clock :=
      (State.clock_wr _ _ _ _ _).symm
    unfold State.approximated
    dsimp only
    rw [clock]
    exact (gates _ _).trans (code _ _)
  unfold State.gated
  split
  · rfl
  · split
    · exact code _ _
    · split
      · exact (trimmed _ _).trans step
      · exact step

/-- The frame of a gate: TSRC, the code and TRIMMED, and the clock's record (R131). -/
theorem State.frame_gated (s : State) (b : Bool) (n : Nat) :
    s.sameRegsBut (s.gated b n) [⟨.clkOsctrimTsrc, 0, 0⟩, ⟨.clkOsctrimCode, 0, 0⟩, ⟨.clkOsctrimTrimmed, 0, 0⟩] ∧ s.sameTabsBut (s.gated b n) [] ∧
      (s.gated b n).core = { s.core with clock := (s.gated b n).clock } ∧ (s.gated b n).now = s.now := by
  refine ⟨fun r hr => ?_, fun x hx => ?_, ?_, ?_⟩
  · simp only [List.mem_cons, List.not_mem_nil, or_false, not_or] at hr
    obtain ⟨ht, hc, hm⟩ := hr
    refine (State.gated_other (g := fun t : State => t.reg r) (fun t v => t.reg_put_other v (Ne.symm hc)) (fun t v => t.reg_put_other v (Ne.symm hm))
      (fun _ _ => rfl) s b n).trans ?_
    rw [State.retrim_eq]
    exact s.reg_put_other _ (Ne.symm ht)
  · have put (t : State) (f : Field) (v : Nat) : s.sameIn (t.wr f v) x = s.sameIn t x :=
      State.put_other (fun n => s.sameIn n x) (fun _ _ => by cases x <;> rfl) (fun _ _ => by cases x <;> rfl) t ⟨f, 0, 0⟩ v
    rw [State.gated_other (g := fun t => s.sameIn t x) (fun t v => put t _ v) (fun t v => put t _ v) (fun _ _ => by cases x <;> rfl), State.retrim_eq]
    exact State.sameTabs_withClock (State.sameTabs_wr (fun y _ => s.sameIn_refl y) _ _ _ _) _ x hx
  · have core : { (s.gated b n).core with clock := (s.gated b n).clock } = { s.core with clock := (s.gated b n).clock } := by
      refine (State.gated_other (g := fun t : State => { t.core with clock := (s.gated b n).clock }) (fun t v => by rw [State.core_wr])
        (fun t v => by rw [State.core_wr]) (fun _ _ => rfl) s b n).trans ?_
      rw [State.retrim_eq, State.core_withClock, State.core_wr]
    exact core
  · refine (State.gated_other (g := State.now) (fun t v => t.wr_now _ _ _ _) (fun t v => t.wr_now _ _ _ _) (fun _ _ => rfl) s b n).trans ?_
    exact s.now_retrim b

theorem trackCode_lt {code n : Nat} (h : code < 1024) : trackCode code n < 1024 := by
  unfold trackCode
  split
  · omega
  · split <;> omega

theorem oscTrimGate_lands {s : State} (b : Bool) (n : Nat) (hs : s.aon = true) :
    ∃ t, exec (.oscTrimGate b n) s = .next t ∧ t.clock.trimBy = s.trimSource b ∧
      t.rd .clkOsctrimTsrc = (if s.trimSource b = none then 0 else if s.trimSource b = some 2 then 2 else 1) ∧
      s.sameRegsBut t [⟨.clkOsctrimTsrc, 0, 0⟩, ⟨.clkOsctrimCode, 0, 0⟩, ⟨.clkOsctrimTrimmed, 0, 0⟩] ∧ s.sameTabsBut t [] ∧
      t.core = { s.core with clock := t.clock } ∧
      (s.trimSource b = none → t.rd .clkOsctrimCode = s.rd .clkOsctrimCode ∧ t.flag .clkOsctrimTrimmed = s.flag .clkOsctrimTrimmed) ∧
      (s.trimSource b ≠ none → s.flag .clkOsctrimTrimmed = true → s.rd .clkOsctrimCode < 1024 →
        (50000 < n → t.rd .clkOsctrimCode = s.rd .clkOsctrimCode - 1) ∧
        (n < 50000 → t.rd .clkOsctrimCode = min 1023 (s.rd .clkOsctrimCode + 1)) ∧
        (n = 50000 → t.rd .clkOsctrimCode = s.rd .clkOsctrimCode)) ∧
      (s.trimSource b ≠ none → s.flag .clkOsctrimTrimmed = false →
        (s.clock.gates = 0 ∨ s.trimSource b ≠ s.clock.trimBy →
          t.rd .clkOsctrimCode = (if 50000 < n then 0x100 else 0x300) ∧ t.clock.gates = 1) ∧
        (s.clock.gates ≠ 0 → s.trimSource b = s.clock.trimBy →
          t.rd .clkOsctrimCode = sarCode (s.rd .clkOsctrimCode) (s.clock.gates + 1) n % 2 ^ 10 ∧ t.clock.gates = s.clock.gates + 1 ∧
          (9 ≤ s.clock.gates → t.flag .clkOsctrimTrimmed = true))) := by
  obtain ⟨regs, tabs, core, now⟩ := s.frame_gated b n
  have pending : (s.gated b n).pending = s.pending := by
    have pending : (s.gated b n).core.pending = s.core.pending := by rw [core]
    exact pending
  have rd (f : Field) (hf : f.isLimit = false) : (s.commit (s.gated b n)).rd f = (s.gated b n).rd f := State.rd_commit _ _ _ _ _ hf
  refine ⟨_, exec_oscTrimGate b n hs, ?_, ?_, State.sameRegs_commit regs, State.sameTabs_commit tabs, ?_, fun free => ?_, fun src on low => ?_,
    fun src off => ?_⟩
  · rw [State.clock_commit]
    exact (State.gated_other (g := fun t : State => t.clock.trimBy) (fun t v => by rw [State.clock_wr]) (fun t v => by rw [State.clock_wr])
      (fun _ _ => rfl) s b n).trans (s.trimBy_retrim b)
  · rw [rd _ rfl, State.gated_other (g := fun t : State => t.rd .clkOsctrimTsrc) (fun t v => t.rd_wr_field _ _ _ _ _ (by decide))
      (fun t v => t.rd_wr_field _ _ _ _ _ (by decide)) (fun _ _ => rfl), State.retrim_eq, State.rd_withClock, State.rd_wr_same _ _ _ _ _ rfl]
    exact Nat.mod_eq_of_lt (show tsrc (s.trimSource b) < 4 by unfold tsrc; split_ifs <;> omega)
  · rw [State.core_commit pending now, core, State.clock_commit]
  · have held : s.gated b n = s.retrim b := if_pos free
    rw [State.flag, rd _ rfl, rd _ rfl, held, State.rd_retrim _ _ _ _ (by decide), State.rd_retrim _ _ _ _ (by decide)]
    exact ⟨rfl, rfl⟩
  · have tracked : s.gated b n = (s.retrim b).wr .clkOsctrimCode (trackCode (s.rd .clkOsctrimCode) n) := by rw [State.gated, if_neg src, if_pos on]
    have code : (s.commit (s.gated b n)).rd .clkOsctrimCode = trackCode (s.rd .clkOsctrimCode) n := by
      rw [rd _ rfl, tracked, State.rd_wr_same _ _ _ _ _ rfl]
      exact Nat.mod_eq_of_lt (trackCode_lt low)
    rw [code]
    refine ⟨fun fast => if_pos fast, fun slow => ?_, fun still => ?_⟩
    · rw [trackCode, if_neg (by omega), if_pos slow]
    · rw [trackCode, if_neg (by omega), if_neg (by omega)]
  · have steps : s.gated b n = if 10 ≤ (s.retrim b).clock.gates + 1 then (s.approximated b n).wr .clkOsctrimTrimmed 1 else s.approximated b n := by
      rw [State.gated, if_neg src, if_neg (by rw [off]; exact Bool.false_ne_true)]
    have code : (s.commit (s.gated b n)).rd .clkOsctrimCode = (s.approximated b n).rd .clkOsctrimCode := by
      rw [rd _ rfl, steps]
      split
      · exact State.rd_wr_field _ _ _ _ _ _ (by decide)
      · rfl
    have gates : (s.commit (s.gated b n)).clock.gates = (s.retrim b).clock.gates + 1 := by
      rw [State.clock_commit, steps]
      split
      · rw [State.clock_wr, State.gates_approximated]
      · rw [State.gates_approximated]
    rw [code, gates, State.code_approximated, State.gates_retrim]
    refine ⟨fun first => ?_, fun again same => ?_⟩
    · have zero : (if s.trimSource b = s.clock.trimBy then s.clock.gates else 0) = 0 := by
        split
        · next same => exact first.resolve_right fun other => other same
        · rfl
      rw [zero, if_pos rfl]
      refine ⟨?_, rfl⟩
      unfold sarCode
      by_cases h : 50000 < n <;> simp [h]
    · rw [if_pos same, if_neg (by omega)]
      refine ⟨rfl, rfl, fun last => ?_⟩
      rw [State.flag, rd _ rfl, steps, State.gates_retrim, if_pos same, if_pos (by omega)]
      exact decide_eq_true (State.rd_wr_same _ .clkOsctrimTrimmed 1 0 0 rfl)

/-- Settles O36: each state of a crystal by its own command, and a gate of the trim by its source and the gates done. -/
theorem crystalsAndOscillator : Obligations.CrystalsAndOscillator :=
  ⟨fun _ _ hs => ⟨xtalAmplitude_lands hs, fun h => ⟨xtalCountDrop_lands hs h, xtalStable_lands hs h⟩, xtalLoss_lands hs, xtalTimeout_lands hs,
    xtalRetry_lands hs, refSwitch_lands hs⟩, fun _ b n hs => oscTrimGate_lands b n hs⟩

end Sys2Proof.Machine

/-!
Settles O37: lock and holdover of the root PLLs (R135, R136), the divisors that ramp by one dither step with their governed stretch (R138 to
R142), and the dither pattern.
-/
namespace Sys2Proof.Machine

/-! ## Bits of a register -/

theorem testBit_sub {n k : Nat} (h : testBit n k = true) : testBit (n - 2 ^ k) k = false := by
  have odd : n / 2 ^ k % 2 = 1 := of_decide_eq_true h
  have pos : 0 < 2 ^ k := Nat.two_pow_pos k
  have le : 2 ^ k ≤ n := by
    by_contra low
    rw [Nat.div_eq_of_lt (not_le.1 low)] at odd
    omega
  have down : (n - 2 ^ k) / 2 ^ k = n / 2 ^ k - 1 := by
    have := Nat.sub_mul_div n (2 ^ k) 1
    rwa [Nat.mul_one] at this
  refine decide_eq_false ?_
  rw [down]
  omega

theorem State.testBit_clearBit (s : State) {f : Field} {k i : Nat} (he : (⟨f, i, 0⟩ : FieldRef).exists = true) :
    testBit ((s.setBit f k false i).rd f i) k = false := by
  unfold State.setBit
  dsimp only
  split
  · next clear => exact clear
  · next set =>
    have bit := testBit_sub (Bool.eq_true_of_not_eq_false set)
    rw [if_neg Bool.false_ne_true, State.rd_wr_same _ _ _ _ _ he, testBit_eq, Nat.testBit_mod_two_pow]
    rw [testBit_eq] at bit
    simp [bit]

theorem State.rd_setBit (s : State) (f : Field) (k : Nat) (on : Bool) (i : Nat) {h : Field} (a b : Nat) (hf : f ≠ h) :
    (s.setBit f k on i).rd h a b = s.rd h a b := by
  unfold State.setBit
  dsimp only
  split
  · rfl
  · exact s.rd_wr_field _ _ _ _ _ hf

theorem State.onlyChanges_setBit {s n : State} {l : List FieldRef} {ts : List Tab} (h : s.onlyChanges n l ts) (f : Field) (k : Nat) (on : Bool)
    (i : Nat) (hr : (⟨f, i, 0⟩ : FieldRef) ∈ l) : s.onlyChanges (n.setBit f k on i) l ts := by
  unfold State.setBit
  dsimp only
  split
  · exact h
  · exact State.onlyChanges_wr h _ _ _ _ hr

theorem State.sameTabs_setBit {s n : State} {l : List Tab} (h : s.sameTabsBut n l) (f : Field) (k : Nat) (on : Bool) (i : Nat) :
    s.sameTabsBut (n.setBit f k on i) l := by
  unfold State.setBit
  dsimp only
  split
  · exact h
  · exact State.sameTabs_wr h _ _ _ _

theorem State.holdover_setLock (s : State) (d : Nat) (on : Bool) (e : Nat) : (s.setBit .clkLock d on).holdover e = s.holdover e :=
  congrArg (testBit · e) (s.rd_setBit .clkLock d on 0 _ _ (by decide))

/-! ## Branches -/

theorem branch_exists {k : Nat} (h : k < 128) : (⟨.clkCbrCur, 0, k⟩ : FieldRef).exists = true := by
  have one : Field.instances .clkCbrCur = 1 := rfl
  have all : (fieldDef .clkCbrCur).count = 128 := rfl
  have blk : (fieldDef .clkCbrCur).blk = .clk := rfl
  simp [FieldRef.exists, one, all, blk, h]

theorem governed_lt (d t : Nat) : governed d t < 8 := by
  unfold governed
  split <;> omega

theorem mem_branchesOf {d c : Nat} (h : c < 4) : 4 * d + c ∈ branchesOf d := by
  simp only [branchesOf, List.mem_cons, List.not_mem_nil, or_false]
  omega

theorem branchesOf_nodup (d : Nat) : (branchesOf d).Nodup := by
  simp [branchesOf]

theorem State.rd_setGdep (s : State) (k v : Nat) {f : Field} (i j : Nat) (h : .clkCbrGdep ≠ f) : (s.setGdep k v).rd f i j = s.rd f i j :=
  (State.rd_updDie _ _ _ _ _ _).trans ((State.rd_wr_field _ _ _ _ _ _ h).trans (s.rd_updDie _ _ _ _ _))

theorem State.gdep_setGdep (s : State) (k v j : Nat) (hk : k < 128) :
    (s.setGdep k v).rd .clkCbrGdep 0 j = if j = k then v % 2 ^ 3 else s.rd .clkCbrGdep 0 j := by
  refine (State.rd_updDie _ _ _ _ _ _).trans ((State.rd_wr _ _ _ _ _ _ _ _).trans ?_)
  by_cases h : j = k
  · subst h
    rw [if_pos ⟨rfl, branch_exists hk⟩, if_pos rfl]
    rfl
  · rw [if_neg (fun same => h (FieldRef.mk.inj same.1).2.2.symm), if_neg h]
    exact s.rd_updDie _ _ _ _ _

theorem State.gdep_setGdep_other (s : State) {k : Nat} (v : Nat) {j : Nat} (h : j ≠ k) :
    (s.setGdep k v).rd .clkCbrGdep 0 j = s.rd .clkCbrGdep 0 j :=
  (State.rd_updDie _ _ _ _ _ _).trans ((State.reg_put_other _ _ fun same => h (FieldRef.mk.inj same).2.2.symm).trans (s.rd_updDie _ _ _ _ _))

/-! ## Lock and holdover (R135, R136) -/

theorem exec_rootPllLock {s : State} {d : Die} (hs : s.aon = true) :
    exec (.rootPllLock d) s =
      .next (s.commit (if s.holdover d.val || !(s.die d.val).powered then s else s.setBit .clkLock d.val true)) :=
  State.run_on (fun s => if s.holdover d.val || !(s.die d.val).powered then s else s.setBit .clkLock d.val true) hs

/-- A die out of lock, in holdover (R136). -/
def State.inHoldover (s : State) (d : Nat) : State :=
  let s1 := (s.setBit .clkLock d false).setBit .clkHold d true
  s1.withClock { s1.clock with holdAt := (d, s1.now) :: s1.clock.holdAt.filter fun x => x.1 ≠ d }

/-- Its branches at ÷32. -/
def State.unlocked (s : State) (d : Nat) : State :=
  if d < 32 then ((((s.inHoldover d).each (branchesOf d) State.branchTo32).showDomain d).wr .clkDomForced 1 0 d) else s.inHoldover d

theorem exec_pllLossOfLock {s : State} {d : Die} (hs : s.aon = true) (h : testBit (s.rd .clkLock) d.val = true) :
    exec (.pllLossOfLock d) s = .next (s.commit (s.unlocked d.val)) := by
  change execPllLossOfLock d s = _
  rw [execPllLossOfLock, State.run_on _ hs]
  simp only [h, if_true]
  rfl

/-- What the fall to ÷32 writes of a die's branches. -/
theorem State.unlocked_other {α : Type} {g : State → α} (d : Nat)
    (put : ∀ s (r : FieldRef) v, r.f ∈ [.clkCbrCur, .clkCbrGdep, .clkDomCur, .clkDomForced] → g (State.put s r v) = g s) (s : State) :
    g (s.unlocked d) = g (s.inHoldover d) := by
  unfold State.unlocked
  split
  · refine (put _ ⟨.clkDomForced, 0, d⟩ _ (by simp)).trans ((put _ ⟨.clkDomCur, 0, d⟩ _ (by simp)).trans (each_blind _ _ (fun t k => ?_) _))
    exact (put _ ⟨.clkCbrGdep, 0, k⟩ _ (by simp)).trans (put _ ⟨.clkCbrCur, 0, k⟩ _ (by simp))
  · rfl

theorem State.rd_unlocked (s : State) (d : Nat) {f : Field} (i j : Nat) (h : f ∉ [.clkCbrCur, .clkCbrGdep, .clkDomCur, .clkDomForced]) :
    (s.unlocked d).rd f i j = ((s.setBit .clkLock d false).setBit .clkHold d true).rd f i j :=
  State.unlocked_other (g := fun t : State => t.rd f i j) d (fun t r v hr => t.reg_put_other v (by rintro rfl; exact h hr)) s

theorem domForced_exists {d : Nat} (h : d < 80) : (⟨.clkDomForced, 0, d⟩ : FieldRef).exists = true := by
  have one : Field.instances .clkDomForced = 1 := rfl
  have all : (fieldDef .clkDomForced).count = 80 := rfl
  have blk : (fieldDef .clkDomForced).blk = .clk := rfl
  simp [FieldRef.exists, one, all, blk, h]

theorem State.cur_branchTo32 (s : State) {k m : Nat} (hk : k < 128) (h : m = k ∨ s.rd .clkCbrCur 0 k = 0x200) :
    (s.branchTo32 m).rd .clkCbrCur 0 k = 0x200 := by
  rw [State.branchTo32, State.rd_wr_field _ _ _ _ _ _ (by decide), State.rd_wr]
  split
  · rfl
  · next other =>
    refine h.resolve_left ?_
    rintro rfl
    exact other ⟨rfl, branch_exists hk⟩

theorem pllLossOfLock_lands {s : State} {d : Die} (hs : s.aon = true) (h : testBit (s.rd .clkLock) d.val = true) :
    ∃ t, exec (.pllLossOfLock d) s = .next t ∧ testBit (t.rd .clkLock) d.val = false ∧
      t.holdover d.val = true ∧ s.sameTabsBut t [] ∧
      (d.val < 32 → t.flag .clkDomForced 0 d.val = true ∧ ∀ c, c < 4 → t.rd .clkCbrCur 0 (4 * d.val + c) = 0x200 ∧
        t.rd .clkCbrTgt 0 (4 * d.val + c) = s.rd .clkCbrTgt 0 (4 * d.val + c)) := by
  refine ⟨_, exec_pllLossOfLock hs h, ?_, ?_, State.sameTabs_commit fun x hx => ?_, fun compute => ⟨?_, fun c hc => ⟨?_, ?_⟩⟩⟩
  · rw [State.rd_commit _ _ _ _ _ rfl, State.rd_unlocked _ _ _ _ (by decide), State.rd_setBit _ _ _ _ _ _ _ (by decide)]
    exact s.testBit_clearBit rfl
  · rw [State.holdover, State.rd_commit _ _ _ _ _ rfl, State.rd_unlocked _ _ _ _ (by decide)]
    exact State.testBit_setBit _ rfl d.isLt
  · rw [State.unlocked_other (g := fun n => s.sameIn n x) d.val fun n r v _ =>
      State.put_other (fun n => s.sameIn n x) (fun _ _ => by cases x <;> rfl) (fun _ _ => by cases x <;> rfl) n r v]
    exact State.sameTabs_withClock (State.sameTabs_setBit (State.sameTabs_setBit (fun y _ => s.sameIn_refl y) _ _ _ _) _ _ _ _) _ x hx
  · rw [State.flag, State.rd_commit _ _ _ _ _ rfl, State.unlocked, if_pos compute]
    exact decide_eq_true (State.rd_wr_same _ .clkDomForced 1 0 d.val (domForced_exists (by omega)))
  · rw [State.rd_commit _ _ _ _ _ rfl, State.unlocked, if_pos compute, State.rd_wr_field _ _ _ _ _ _ (by decide), State.showDomain,
      State.rd_wr_field _ _ _ _ _ _ (by decide)]
    exact State.each_sets (P := fun t => t.rd .clkCbrCur 0 (4 * d.val + c) = 0x200) (mem_branchesOf hc)
      (fun t => t.cur_branchTo32 (by omega) (.inl rfl)) (fun t m ht => t.cur_branchTo32 (by omega) (.inr ht)) _
  · rw [State.rd_commit _ _ _ _ _ rfl, State.rd_unlocked _ _ _ _ (by decide), State.rd_setBit _ _ _ _ _ _ _ (by decide),
      State.rd_setBit _ _ _ _ _ _ _ (by decide)]

/-! ### Relock -/

/-- One branch of a die that is in lock again: it ramps with a governed stretch (R136). -/
def State.rampBranch (d : Nat) (s : State) (k : Nat) : State :=
  if s.floorOn || s.holdover d then s else s.setGdep k (governed (s.rd .clkCbrCur 0 k) (s.rd .clkCbrTgt 0 k))

theorem State.rd_rampBranch (d : Nat) (s : State) (k : Nat) {f : Field} (i j : Nat) (h : .clkCbrGdep ≠ f) : (s.rampBranch d k).rd f i j = s.rd f i j := by
  unfold State.rampBranch
  split
  · rfl
  · exact s.rd_setGdep _ _ _ _ h

/-- Lock and holdover of a die as it leaves holdover. -/
def State.lockAgain (s : State) (d : Nat) : State := (s.setBit .clkHold d false).setBit .clkLock d true

theorem State.leaveHold_eq (s : State) (d : Nat) :
    s.leaveHold d = if d < 32 then ((s.lockAgain d).wr .clkDomForced (bit (s.lockAgain d).floorOn) 0 d).each (branchesOf d) (State.rampBranch d)
      else s.lockAgain d := rfl

theorem State.rd_leaveHold (s : State) (d : Nat) {f : Field} (i j : Nat) (hf : .clkDomForced ≠ f) (hg : .clkCbrGdep ≠ f) :
    (s.leaveHold d).rd f i j = (s.lockAgain d).rd f i j := by
  rw [State.leaveHold_eq]
  split
  · rw [each_blind (g := fun t : State => t.rd f i j) _ _ fun t k => t.rd_rampBranch d k i j hg, State.rd_wr_field _ _ _ _ _ _ hf]
  · rfl

theorem State.halls_setBit (s : State) (f : Field) (k : Nat) (on : Bool) (i : Nat) : (s.setBit f k on i).halls = s.halls := by
  unfold State.setBit
  dsimp only
  split
  · rfl
  · exact s.wr_halls _ _ _ _

theorem State.floorOn_setBit (s : State) (f : Field) (k : Nat) (on : Bool) (i : Nat) : (s.setBit f k on i).floorOn = s.floorOn := by
  unfold State.setBit
  dsimp only
  split
  · rfl
  · exact State.put_other State.floorOn (fun _ _ => rfl) (fun _ _ => rfl) s _ _

theorem State.floorOn_wr (s : State) (f : Field) (v i j : Nat) : (s.wr f v i j).floorOn = s.floorOn :=
  State.put_other State.floorOn (fun _ _ => rfl) (fun _ _ => rfl) s _ _

theorem State.floorOn_setGdep (s : State) (k v : Nat) : (s.setGdep k v).floorOn = s.floorOn := State.floorOn_wr (s.noteRun (k / 4) (k % 4)) _ _ _ _

theorem State.hd_leaveHold (s : State) (d e : Nat) : (s.leaveHold d).hd e = s.hd e := by
  have again : (s.lockAgain d).halls = s.halls := by rw [State.lockAgain, State.halls_setBit, State.halls_setBit]
  have ramp (t : State) (k : Nat) : (t.rampBranch d k).halls = t.halls := by
    unfold State.rampBranch
    split
    · rfl
    · exact State.wr_halls (t.noteRun (k / 4) (k % 4)) _ _ _ _
  rw [State.leaveHold_eq, State.hd]
  split
  · rw [each_blind (g := State.halls) _ _ ramp, State.wr_halls, again]
    rfl
  · rw [again]
    rfl

theorem State.holdover_lockAgain (s : State) (d : Nat) : (s.lockAgain d).holdover d = false :=
  (State.holdover_setLock _ _ _ _).trans (s.testBit_clearBit (f := .clkHold) rfl)

theorem State.gdep_leaveHold (s : State) {d c : Nat} (hd : d < 32) (floor : s.floorOn = false) (hc : c < 4) :
    (s.leaveHold d).rd .clkCbrGdep 0 (4 * d + c) = governed (s.rd .clkCbrCur 0 (4 * d + c)) (s.rd .clkCbrTgt 0 (4 * d + c)) := by
  have kept (t : State) (k : Nat) (f : Field) (h : .clkCbrGdep ≠ f) (j : Nat) : (t.rampBranch d k).rd f 0 j = t.rd f 0 j := t.rd_rampBranch d k 0 j h
  have again (f : Field) (h1 : .clkHold ≠ f) (h2 : .clkLock ≠ f) (h3 : .clkDomForced ≠ f) :
      ((s.lockAgain d).wr .clkDomForced (bit (s.lockAgain d).floorOn) 0 d).rd f 0 (4 * d + c) = s.rd f 0 (4 * d + c) := by
    rw [State.rd_wr_field _ _ _ _ _ _ h3, State.lockAgain, State.rd_setBit _ _ _ _ _ _ _ h2, State.rd_setBit _ _ _ _ _ _ _ h1]
  have ramps {t : State} (hf : t.floorOn = false) (hh : t.holdover d = false) (k : Nat) :
      t.rampBranch d k = t.setGdep k (governed (t.rd .clkCbrCur 0 k) (t.rd .clkCbrTgt 0 k)) := by
    rw [State.rampBranch, hf, hh]
    rfl
  rw [State.leaveHold_eq, if_pos hd]
  refine (State.each_once (f := State.rampBranch d) (r := 4 * d + c)
    (I := fun t => t.floorOn = false ∧ t.holdover d = false ∧ t.rd .clkCbrCur 0 (4 * d + c) = s.rd .clkCbrCur 0 (4 * d + c) ∧
      t.rd .clkCbrTgt 0 (4 * d + c) = s.rd .clkCbrTgt 0 (4 * d + c))
    (P := fun t => (t.floorOn = false ∧ t.holdover d = false) ∧
      t.rd .clkCbrGdep 0 (4 * d + c) = governed (s.rd .clkCbrCur 0 (4 * d + c)) (s.rd .clkCbrTgt 0 (4 * d + c)))
    (branchesOf_nodup d) (mem_branchesOf hc) (fun t y hy h => ?_) (fun t h => ?_) (fun t y hy h => ?_) ⟨?_, ?_, ?_, ?_⟩).2
  · obtain ⟨hf, hh, cur, tgt⟩ := h
    have holdover : (t.rampBranch d y).holdover d = false := (congrArg (testBit · d) (kept t y .clkHold (by decide) 0)).trans hh
    refine ⟨?_, holdover, (kept t y _ (by decide) _).trans cur, (kept t y _ (by decide) _).trans tgt⟩
    rw [ramps hf hh, State.floorOn_setGdep, hf]
  · obtain ⟨hf, hh, cur, tgt⟩ := h
    have holdover : (t.rampBranch d (4 * d + c)).holdover d = false := (congrArg (testBit · d) (kept t _ .clkHold (by decide) 0)).trans hh
    refine ⟨⟨by rw [ramps hf hh, State.floorOn_setGdep, hf], holdover⟩, ?_⟩
    rw [ramps hf hh, State.gdep_setGdep _ _ _ _ (by omega), if_pos rfl, cur, tgt]
    exact Nat.mod_eq_of_lt (governed_lt _ _)
  · obtain ⟨⟨hf, hh⟩, depth⟩ := h
    have holdover : (t.rampBranch d y).holdover d = false := (congrArg (testBit · d) (kept t y .clkHold (by decide) 0)).trans hh
    refine ⟨⟨by rw [ramps hf hh, State.floorOn_setGdep, hf], holdover⟩, ?_⟩
    rw [ramps hf hh]
    rw [State.gdep_setGdep_other _ _ (Ne.symm hy), depth]
  · rw [State.floorOn_wr, State.lockAgain, State.floorOn_setBit, State.floorOn_setBit, floor]
  · exact (congrArg (testBit · d) (State.rd_wr_field _ _ _ _ _ _ (by decide))).trans (s.holdover_lockAgain d)
  · exact again _ (by decide) (by decide) (by decide)
  · exact again _ (by decide) (by decide) (by decide)

/-- A die in lock again, with its exclusion ended or a CORRECTED fault raised (R136). -/
def State.relocked (s : State) (d : Nat) : State :=
  if (s.hd d).excl.contains 1 then (s.leaveHold d).setExcl d 1 false else (s.leaveHold d).raise (corr 12 2 (unitOf d 0) 0)

theorem exec_pllRelock {s : State} {d : Die} (hs : s.aon = true) (h : s.holdover d.val = true) :
    exec (.pllRelock d) s = .next (s.commit (s.relocked d.val)) := by
  change execPllRelock d s = _
  rw [execPllRelock, State.run_on _ hs]
  simp only [h, if_true]
  rfl

theorem State.rd_relocked (s : State) (d : Nat) {f : Field} (i j : Nat) (h : faultField f = false) : (s.relocked d).rd f i j = (s.leaveHold d).rd f i j := by
  unfold State.relocked
  split
  · rfl
  · exact rd_raise _ _ _ _ _ FaultClass.noConfusion h

theorem pllRelock_lands {s : State} {d : Die} (hs : s.aon = true) (h : s.holdover d.val = true) :
    ∃ t, exec (.pllRelock d) s = .next t ∧ t.holdover d.val = false ∧
      testBit (t.rd .clkLock) d.val = true ∧ 1 ∉ (t.hd d.val).excl ∧
      (d.val < 32 → s.floorOn = false → ∀ c, c < 4 → t.rd .clkCbrGdep 0 (4 * d.val + c) =
        governed (s.rd .clkCbrCur 0 (4 * d.val + c)) (s.rd .clkCbrTgt 0 (4 * d.val + c))) ∧
      t.rd .fltCorr = if 1 ∈ (s.hd d.val).excl then s.rd .fltCorr else s.oneUp .fltCorr := by
  have excl : (s.leaveHold d.val).hd d.val = s.hd d.val := s.hd_leaveHold _ _
  refine ⟨_, exec_pllRelock hs h, ?_, ?_, ?_, fun compute floor c hc => ?_, ?_⟩
  · rw [State.holdover, State.rd_commit _ _ _ _ _ rfl, State.rd_relocked _ _ _ _ rfl, State.rd_leaveHold _ _ _ _ (by decide) (by decide)]
    exact s.holdover_lockAgain d.val
  · rw [State.rd_commit _ _ _ _ _ rfl, State.rd_relocked _ _ _ _ rfl, State.rd_leaveHold _ _ _ _ (by decide) (by decide)]
    exact State.testBit_setBit _ rfl d.isLt
  · rw [State.hd_commit, State.relocked]
    split
    · rw [State.setExcl, State.hd_updHd, if_pos rfl, if_neg Bool.false_ne_true]
      simp
    · next out =>
      rw [State.hd_raise, excl]
      simpa using out
  · rw [State.rd_commit _ _ _ _ _ rfl, State.rd_relocked _ _ _ _ rfl]
    exact s.gdep_leaveHold compute floor hc
  · have kept : (s.leaveHold d.val).rd .fltCorr = s.rd .fltCorr := by
      rw [State.rd_leaveHold _ _ _ _ (by decide) (by decide), State.lockAgain, State.rd_setBit _ _ _ _ _ _ _ (by decide),
        State.rd_setBit _ _ _ _ _ _ _ (by decide)]
    rw [State.rd_commit _ _ _ _ _ rfl, State.relocked]
    by_cases held : 1 ∈ (s.hd d.val).excl
    · rw [if_pos held, if_pos (by simpa using held)]
      exact kept
    · rw [if_neg held, if_neg (by simpa using held), State.fltCorr_raise_corrected _ rfl, State.oneUp, kept, State.oneUp]

/-- A die excluded for a holdover of 1 ms (R136). -/
def State.holdoverExcluded (s : State) (d : Nat) : State :=
  (s.advanceTo (Store.get (fun _ => 0) s.clock.holdAt d + 1000000)).setExcl d 1 true

theorem exec_pllHoldoverTimeout {s : State} {d : Die} (hs : s.aon = true) (h : s.holdover d.val = true) (free : 1 ∉ (s.hd d.val).excl) :
    exec (.pllHoldoverTimeout d) s =
      .next (s.commit ((s.holdoverExcluded d.val).raise (cont 12 3 (unitOf d.val 0) (dieScope d.val) 0))) := by
  have gate : (s.holdover d.val && !(s.hd d.val).excl.contains 1) = true := by simp [h, free]
  change execPllHoldoverTimeout d s = _
  rw [execPllHoldoverTimeout, State.run_on _ hs]
  simp only [gate, if_true]
  rfl

theorem mem_addTo (l : List Nat) (n : Nat) : n ∈ addTo l n := by
  unfold addTo
  split
  · next h => exact List.contains_iff_mem.1 h
  · simp

theorem State.mem_setExcl (s : State) (d reason : Nat) : reason ∈ ((s.setExcl d reason true).hd d).excl := by
  rw [State.setExcl, State.hd_updHd, if_pos rfl]
  exact mem_addTo _ _

theorem State.rd_holdoverExcluded (s : State) (d : Nat) {f : Field} (i j : Nat) (ht : f ∉ timeFields) :
    (s.holdoverExcluded d).rd f i j = s.rd f i j := by
  rw [State.holdoverExcluded, State.setExcl, State.rd_updHd, State.rd_advanceTo _ _ _ _ ht]

theorem State.now_holdoverExcluded (s : State) (d : Nat) :
    (s.holdoverExcluded d).now = max s.now (Store.get (fun _ => 0) s.clock.holdAt d + 1000000) := by
  rw [State.holdoverExcluded, State.setExcl, State.updHd_now, State.advanceTo_now]

theorem pllHoldoverTimeout_lands {s : State} {d : Die} (hs : s.aon = true) (h : s.holdover d.val = true) (free : 1 ∉ (s.hd d.val).excl) :
    ∃ t, exec (.pllHoldoverTimeout d) s = .next t ∧ 1 ∈ (t.hd d.val).excl ∧
      Store.get (fun _ => 0) s.clock.holdAt d.val + 1000000 ≤ t.now ∧ t.rd .fltCont = s.oneUp .fltCont ∧ t.holdover d.val = true := by
  refine ⟨_, exec_pllHoldoverTimeout hs h free, ?_, ?_, ?_, ?_⟩
  · rw [State.hd_commit, State.hd_raise]
    exact State.mem_setExcl _ _ _
  · rw [State.commit_now, raise_latch latch_now, State.now_holdoverExcluded]
    omega
  · rw [State.rd_commit _ _ _ _ _ rfl, State.fltCont_raise_contained _ rfl, State.oneUp, State.rd_holdoverExcluded _ _ _ _ (by decide), State.oneUp]
  · rw [State.holdover, State.rd_commit _ _ _ _ _ rfl, rd_raise _ _ _ _ _ FaultClass.noConfusion rfl, State.rd_holdoverExcluded _ _ _ _ (by decide)]
    exact h

/-! ## A step of a branch (R44, R90, R138 to R142) -/

theorem State.rd_easeStretch (s : State) (k : Nat) {f : Field} (i j : Nat) (h : .clkCbrGdep ≠ f) : (s.easeStretch k).rd f i j = s.rd f i j := by
  unfold State.easeStretch
  dsimp only
  split
  · exact (State.rd_setGdep _ _ _ _ _ h).trans rfl
  · rfl

/-- Sixteen steps release one root period of an excess governed depth (R50). -/
theorem State.gdep_easeStretch (s : State) {k : Nat} (hk : k < 128) :
    (s.easeStretch k).rd .clkCbrGdep 0 k =
      if (Store.get (fun _ => 0) s.clock.release k + 1) % 16 = 0 then (s.rd .clkCbrGdep 0 k - 1) % 2 ^ 3 else s.rd .clkCbrGdep 0 k := by
  unfold State.easeStretch
  dsimp only
  split
  · rw [State.gdep_setGdep _ _ _ _ hk, if_pos rfl]
  · rfl

theorem State.clock_setGdep (s : State) (k v : Nat) : (s.setGdep k v).clock = s.clock := State.clock_wr (s.noteRun (k / 4) (k % 4)) _ _ _ _

theorem State.pattern_easeStretch (s : State) (k : Nat) : (s.easeStretch k).clock.pattern = s.clock.pattern := by
  unfold State.easeStretch
  dsimp only
  split
  · rw [State.clock_setGdep]
  · rfl

theorem follow_clock : FollowBlind fun t : State => t.clock :=
  ⟨fun s r v _ => State.put_other State.clock (fun _ _ => rfl) (fun _ _ => rfl) s r v, fun _ _ => rfl⟩

/-- The die's domain shown and its voltage following, after a branch has moved. -/
def State.branchMoved (s : State) (d : Nat) : State := (s.showDomain d).followVf d

theorem State.rd_branchMoved (s : State) (d : Nat) {f : Field} (i j : Nat) (hc : .clkDomCur ≠ f) (h : f ∉ vidFields) :
    (s.branchMoved d).rd f i j = s.rd f i j := by
  rw [State.branchMoved, followVf_follow (follow_rd i j h), State.showDomain, State.rd_wr_field _ _ _ _ _ _ hc]

theorem State.clock_branchMoved (s : State) (d : Nat) : (s.branchMoved d).clock = s.clock := by
  rw [State.branchMoved, followVf_follow follow_clock, State.showDomain, State.clock_wr]

/-- The cases of a branch's step, in the order in which they are taken. -/
theorem State.stepBranch_cases (s : State) (k : Nat) (floor : s.floorOn = false) (hold : s.holdover (k / 4) = false) :
    s.stepBranch k =
      if s.rd .clkCbrCur 0 k < s.rd .clkCbrTgt 0 k then
        (if governed (s.rd .clkCbrCur 0 k) (s.rd .clkCbrTgt 0 k) < s.rd .clkCbrGdep 0 k then
          (s.wr .clkCbrCur (s.rd .clkCbrCur 0 k + 1) 0 k).easeStretch k
        else (s.wr .clkCbrCur (s.rd .clkCbrCur 0 k + 1) 0 k).setGdep k
          (governed (s.rd .clkCbrCur 0 k + 1) (s.rd .clkCbrTgt 0 k))).branchMoved (k / 4)
      else if governed (s.rd .clkCbrCur 0 k) (s.rd .clkCbrTgt 0 k) < s.rd .clkCbrGdep 0 k then s.easeStretch k
      else if s.rd .clkCbrTgt 0 k < s.rd .clkCbrCur 0 k ∧ s.mayQuicken k = true then
        (s.wr .clkCbrCur (s.rd .clkCbrCur 0 k - 1) 0 k).branchMoved (k / 4)
      else s := by
  unfold State.stepBranch State.branchMoved
  simp only [floor, hold, Bool.or_self, Bool.false_eq_true, if_false, decide_eq_true_eq, Bool.and_eq_true]

/-- What a step of a branch moves of the branches: the current divisor of its own. -/
theorem State.cur_stepBranch (s : State) {k : Nat} (hk : k < 128) (floor : s.floorOn = false) (hold : s.holdover (k / 4) = false) :
    (s.stepBranch k).rd .clkCbrCur 0 k =
      if s.rd .clkCbrCur 0 k < s.rd .clkCbrTgt 0 k then (s.rd .clkCbrCur 0 k + 1) % 2 ^ 12
      else if ¬ governed (s.rd .clkCbrCur 0 k) (s.rd .clkCbrTgt 0 k) < s.rd .clkCbrGdep 0 k ∧
          s.rd .clkCbrTgt 0 k < s.rd .clkCbrCur 0 k ∧ s.mayQuicken k = true then (s.rd .clkCbrCur 0 k - 1) % 2 ^ 12
      else s.rd .clkCbrCur 0 k := by
  have moved (t : State) : (t.branchMoved (k / 4)).rd .clkCbrCur 0 k = t.rd .clkCbrCur 0 k := t.rd_branchMoved _ _ _ (by decide) (by decide)
  have wrote (v : Nat) : (s.wr .clkCbrCur v 0 k).rd .clkCbrCur 0 k = v % 2 ^ 12 := s.rd_wr_same .clkCbrCur v 0 k (branch_exists hk)
  rw [s.stepBranch_cases k floor hold]
  split
  · rw [moved]
    split
    · rw [State.rd_easeStretch _ _ _ _ (by decide), wrote]
    · rw [State.rd_setGdep _ _ _ _ _ (by decide), wrote]
  · split
    · next excess =>
      rw [State.rd_easeStretch _ _ _ _ (by decide), if_neg fun h => h.1 excess]
    · next fits =>
      split
      · next quick => rw [moved, wrote, if_pos ⟨fits, quick⟩]
      · next still => rw [if_neg fun h => still h.2]

theorem State.gdep_stepBranch (s : State) {k : Nat} (hk : k < 128) (floor : s.floorOn = false) (hold : s.holdover (k / 4) = false) :
    (s.rd .clkCbrCur 0 k < s.rd .clkCbrTgt 0 k → s.rd .clkCbrGdep 0 k ≤ governed (s.rd .clkCbrCur 0 k) (s.rd .clkCbrTgt 0 k) →
      (s.stepBranch k).rd .clkCbrGdep 0 k = governed (s.rd .clkCbrCur 0 k + 1) (s.rd .clkCbrTgt 0 k)) ∧
    (governed (s.rd .clkCbrCur 0 k) (s.rd .clkCbrTgt 0 k) < s.rd .clkCbrGdep 0 k →
      (s.stepBranch k).rd .clkCbrGdep 0 k =
        if (Store.get (fun _ => 0) s.clock.release k + 1) % 16 = 0 then (s.rd .clkCbrGdep 0 k - 1) % 2 ^ 3 else s.rd .clkCbrGdep 0 k) := by
  have moved (t : State) : (t.branchMoved (k / 4)).rd .clkCbrGdep 0 k = t.rd .clkCbrGdep 0 k := t.rd_branchMoved _ _ _ (by decide) (by decide)
  rw [s.stepBranch_cases k floor hold]
  refine ⟨fun slower fits => ?_, fun excess => ?_⟩
  · rw [if_pos slower, if_neg (not_lt.2 fits), moved, State.gdep_setGdep _ _ _ _ hk, if_pos rfl]
    exact Nat.mod_eq_of_lt (governed_lt _ _)
  · split
    · rw [moved, State.gdep_easeStretch _ hk, State.clock_wr, State.rd_wr_field _ _ _ _ _ _ (by decide)]
    · rw [State.gdep_easeStretch _ hk]

/-- Where no step is made, in the floor state and in holdover, the branch stands. -/
theorem State.stepBranch_held (s : State) (k : Nat) (h : s.floorOn = true ∨ s.holdover (k / 4) = true) : s.stepBranch k = s :=
  if_pos (by simpa using h)

/-- A reading that the step of a branch reaches in no way: all but its own divisor, its die's domain and voltage, and its governed depth. -/
theorem State.other_stepBranch (s : State) (k j : Nat) (h : j ≠ k) : (s.stepBranch k).rd .clkCbrCur 0 j = s.rd .clkCbrCur 0 j := by
  by_cases held : s.floorOn = true ∨ s.holdover (k / 4) = true
  · rw [s.stepBranch_held k held]
  · have moved (t : State) : (t.branchMoved (k / 4)).rd .clkCbrCur 0 j = t.rd .clkCbrCur 0 j := t.rd_branchMoved _ _ _ (by decide) (by decide)
    have wrote (v : Nat) : (s.wr .clkCbrCur v 0 k).rd .clkCbrCur 0 j = s.rd .clkCbrCur 0 j :=
      s.reg_put_other v fun same => h (FieldRef.mk.inj same).2.2.symm
    rw [not_or, Bool.not_eq_true, Bool.not_eq_true] at held
    rw [s.stepBranch_cases k held.1 held.2]
    split
    · rw [moved]
      split
      · rw [State.rd_easeStretch _ _ _ _ (by decide), wrote]
      · rw [State.rd_setGdep _ _ _ _ _ (by decide), wrote]
    · split
      · exact State.rd_easeStretch _ _ _ _ (by decide)
      · split
        · rw [moved, wrote]
        · rfl

theorem State.pattern_stepBranch (s : State) (k : Nat) : (s.stepBranch k).clock.pattern = s.clock.pattern := by
  by_cases held : s.floorOn = true ∨ s.holdover (k / 4) = true
  · rw [s.stepBranch_held k held]
  · rw [not_or, Bool.not_eq_true, Bool.not_eq_true] at held
    rw [s.stepBranch_cases k held.1 held.2]
    split
    · rw [State.clock_branchMoved]
      split
      · rw [State.pattern_easeStretch, State.clock_wr]
      · rw [State.clock_setGdep, State.clock_wr]
    · split
      · exact s.pattern_easeStretch k
      · split
        · rw [State.clock_branchMoved, State.clock_wr]
        · rfl

/-! ## The cycles of a ramp step -/

/-- The pattern index moved on by the cycles of a step (R138). -/
def State.cyclesRun (s : State) (u : Nat) : State := s.runCycles u (max 64 (s.rd .clkRampCyc))

theorem State.pattern_cyclesRun (s : State) (u : Nat) :
    Store.get (fun _ => 0) (s.cyclesRun u).clock.pattern u = (Store.get (fun _ => 0) s.clock.pattern u + max 64 (s.rd .clkRampCyc)) % 16 :=
  (Store.get_insert _ _ _ _ _ _).trans (if_pos rfl)

theorem State.rd_cyclesRun (s : State) (u : Nat) (f : Field) (i j : Nat) : (s.cyclesRun u).rd f i j = s.rd f i j := rfl
theorem State.mayQuicken_cyclesRun (s : State) (u k : Nat) : (s.cyclesRun u).mayQuicken k = s.mayQuicken k := rfl
theorem State.release_cyclesRun (s : State) (u : Nat) : (s.cyclesRun u).clock.release = s.clock.release := rfl
theorem State.core_cyclesRun (s : State) (u : Nat) : (s.cyclesRun u).core = { s.core with clock := (s.cyclesRun u).clock } := rfl
theorem State.now_cyclesRun (s : State) (u : Nat) : (s.cyclesRun u).now = s.now := rfl
theorem State.pending_cyclesRun (s : State) (u : Nat) : (s.cyclesRun u).pending = s.pending := rfl

theorem State.sameTabs_cyclesRun (s : State) (u : Nat) : s.sameTabsBut (s.cyclesRun u) [] := by
  intro x _
  cases x <;> intro _ <;> rfl

theorem exec_rampBranch {s : State} (k : Fin 128) (hs : s.aon = true) :
    exec (.divisorRampStep (.branch k)) s = .next (s.commit ((s.cyclesRun (80 + k.val)).stepBranch k.val)) :=
  State.run_on (fun s => (s.cyclesRun (80 + k.val)).stepBranch k.val) hs

theorem exec_rampDomain {s : State} (c : Fin 80) (hs : s.aon = true) :
    exec (.divisorRampStep (.domain c)) s = .next (s.commit ((s.cyclesRun c.val).stepDomain c.val)) :=
  State.run_on (fun s => (s.cyclesRun c.val).stepDomain c.val) hs

theorem branchStep_lands (s : State) (k : Fin 128) (cur tgt dep : Nat) (hs : s.aon = true) (hcur : cur = s.rd .clkCbrCur 0 k.val)
    (htgt : tgt = s.rd .clkCbrTgt 0 k.val) (hdep : dep = s.rd .clkCbrGdep 0 k.val) :
    ∃ t, exec (.divisorRampStep (.branch k)) s = .next t ∧
      Store.get (fun _ => 0) t.clock.pattern (80 + k.val) =
        (Store.get (fun _ => 0) s.clock.pattern (80 + k.val) + max 64 (s.rd .clkRampCyc)) % 16 ∧
      (∀ j, j ≠ k.val → t.rd .clkCbrCur 0 j = s.rd .clkCbrCur 0 j) ∧
      (s.floorOn = true ∨ s.holdover (k.val / 4) = true → s.sameRegsBut t [] ∧ s.sameTabsBut t [] ∧
        t.core = { s.core with clock := t.clock }) ∧
      (s.floorOn = false → s.holdover (k.val / 4) = false →
        (cur < tgt → t.rd .clkCbrCur 0 k.val = (cur + 1) % 2 ^ (fieldDef .clkCbrCur).width) ∧
        (tgt = cur → t.rd .clkCbrCur 0 k.val = cur) ∧
        (tgt < cur → t.rd .clkCbrCur 0 k.val =
          if dep = 0 ∧ s.mayQuicken k.val = true then (cur - 1) % 2 ^ (fieldDef .clkCbrCur).width else cur) ∧
        (cur < tgt → dep ≤ governed cur tgt → t.rd .clkCbrGdep 0 k.val = governed (cur + 1) tgt) ∧
        (governed cur tgt < dep → t.rd .clkCbrGdep 0 k.val =
          if (Store.get (fun _ => 0) s.clock.release k.val + 1) % 16 = 0 then (dep - 1) % 2 ^ (fieldDef .clkCbrGdep).width else dep)) := by
  subst hcur htgt hdep
  refine ⟨_, exec_rampBranch k hs, ?_, fun j hj => ?_, fun held => ?_, fun floor hold => ?_⟩
  · rw [State.clock_commit, State.pattern_stepBranch, State.pattern_cyclesRun]
  · rw [State.rd_commit _ _ _ _ _ rfl, State.other_stepBranch _ _ _ hj, State.rd_cyclesRun]
  · rw [State.stepBranch_held (s.cyclesRun (80 + k.val)) k.val held]
    refine ⟨State.sameRegs_commit fun r _ => rfl, State.sameTabs_commit (s.sameTabs_cyclesRun _), ?_⟩
    rw [State.core_commit (s.pending_cyclesRun _) (s.now_cyclesRun _), State.core_cyclesRun, State.clock_commit]
  · have cur := (s.cyclesRun (80 + k.val)).cur_stepBranch k.isLt floor hold
    obtain ⟨deeper, eased⟩ := (s.cyclesRun (80 + k.val)).gdep_stepBranch k.isLt floor hold
    simp only [State.rd_cyclesRun, State.mayQuicken_cyclesRun, State.release_cyclesRun] at cur deeper eased
    rw [State.rd_commit _ _ _ _ _ rfl, State.rd_commit _ _ _ _ _ rfl, cur]
    refine ⟨fun slower => if_pos slower, fun same => ?_, fun faster => ?_, deeper, eased⟩
    · exact (if_neg (by omega)).trans (if_neg fun h => absurd h.2.1 (by omega))
    · have none : governed (s.rd .clkCbrCur 0 k.val) (s.rd .clkCbrTgt 0 k.val) = 0 := if_neg (by omega)
      refine (if_neg (by omega)).trans (ite_congr (propext ?_) (fun _ => rfl) fun _ => rfl)
      exact ⟨fun h => ⟨by have := h.1; omega, h.2.2⟩, fun h => ⟨by have := h.1; omega, faster, h.2⟩⟩

/-! ## A step of a domain -/

theorem domCur_exists {c : Nat} (h : c < 80) : (⟨.clkDomCur, 0, c⟩ : FieldRef).exists = true := domForced_exists h

theorem State.onlyChanges_stepDomain {s n : State} {ts : List Tab} {c : Nat} (h : s.onlyChanges n [⟨.clkDomCur, 0, c⟩] ts) :
    s.onlyChanges (n.stepDomain c) [⟨.clkDomCur, 0, c⟩] ts := by
  unfold State.stepDomain
  dsimp only
  split
  · exact h
  · split
    · exact State.onlyChanges_wr h _ _ _ _ List.mem_cons_self
    · split
      · exact State.onlyChanges_wr h _ _ _ _ List.mem_cons_self
      · exact h

theorem State.clock_stepDomain (s : State) (c : Nat) : (s.stepDomain c).clock = s.clock := by
  unfold State.stepDomain
  dsimp only
  split
  · rfl
  · split
    · exact s.clock_wr _ _ _ _
    · split
      · exact s.clock_wr _ _ _ _
      · rfl

theorem State.slower_stepDomain (s : State) {c : Nat} (hc : c < 80) (other : 32 ≤ c) (slower : s.rd .clkDomCur 0 c < s.rd .clkDomTgt 0 c) :
    (s.stepDomain c).rd .clkDomCur 0 c = (s.rd .clkDomCur 0 c + 1) % 2 ^ (fieldDef .clkDomCur).width := by
  rw [State.stepDomain, if_neg (not_lt.2 other), if_pos slower, State.rd_wr_same _ _ _ _ _ (domCur_exists hc)]

theorem State.faster_stepDomain (s : State) {c : Nat} (hc : c < 80) (other : 32 ≤ c) (faster : s.rd .clkDomTgt 0 c < s.rd .clkDomCur 0 c) :
    (s.stepDomain c).rd .clkDomCur 0 c = (s.rd .clkDomCur 0 c - 1) % 2 ^ (fieldDef .clkDomCur).width := by
  rw [State.stepDomain, if_neg (not_lt.2 other), if_neg (by omega), if_pos faster, State.rd_wr_same _ _ _ _ _ (domCur_exists hc)]

theorem domainStep_lands (s : State) (c : Fin 80) (hs : s.aon = true) :
    ∃ t, exec (.divisorRampStep (.domain c)) s = .next t ∧ s.sameRegsBut t [⟨.clkDomCur, 0, c.val⟩] ∧ s.sameTabsBut t [] ∧
      t.core = { s.core with clock := t.clock } ∧
      (32 ≤ c.val → s.rd .clkDomCur 0 c.val < s.rd .clkDomTgt 0 c.val →
        t.rd .clkDomCur 0 c.val = (s.rd .clkDomCur 0 c.val + 1) % 2 ^ (fieldDef .clkDomCur).width) ∧
      (32 ≤ c.val → s.rd .clkDomTgt 0 c.val < s.rd .clkDomCur 0 c.val →
        t.rd .clkDomCur 0 c.val = (s.rd .clkDomCur 0 c.val - 1) % 2 ^ (fieldDef .clkDomCur).width) := by
  obtain ⟨regs, tabs, core⟩ := State.onlyChanges_stepDomain ((s.cyclesRun c.val).onlyChanges_refl [⟨.clkDomCur, 0, c.val⟩] [])
  have pending : ((s.cyclesRun c.val).stepDomain c.val).pending = s.pending := congrArg (fun x => x.pending) core
  have now : ((s.cyclesRun c.val).stepDomain c.val).now = s.now := congrArg (fun x => x.now) core
  refine ⟨_, exec_rampDomain c hs, State.sameRegs_commit regs, State.sameTabs_commit fun x hx => ?_, ?_, fun other slower => ?_, fun other faster => ?_⟩
  · have same := tabs x hx
    cases x <;> exact same
  · rw [State.core_commit pending now, core, State.core_cyclesRun, State.clock_commit, State.clock_stepDomain]
  · rw [State.rd_commit _ _ _ _ _ rfl]
    exact (s.cyclesRun c.val).slower_stepDomain c.isLt other slower
  · rw [State.rd_commit _ _ _ _ _ rfl]
    exact (s.cyclesRun c.val).faster_stepDomain c.isLt other faster

/-- The cycles from the i-th on: the whole part of each, and the steps that the dither has made (R138). -/
theorem cycleLen_run (div i n : Nat) :
    (upto n).foldl (fun m j => m + cycleLen div (i + j)) 0 = n * (div / 16) + ((i + n) * (div % 16) / 16 - i * (div % 16) / 16) := by
  induction n with
  | zero => simp [upto]
  | succ n ih =>
    have first : i * (div % 16) / 16 ≤ (i + n) * (div % 16) / 16 := Nat.div_le_div_right (Nat.mul_le_mul_right _ (Nat.le_add_right i n))
    have next : (i + n) * (div % 16) / 16 ≤ (i + n + 1) * (div % 16) / 16 := Nat.div_le_div_right (Nat.mul_le_mul_right _ (Nat.le_succ _))
    unfold upto at ih ⊢
    rw [List.range_succ, List.foldl_append, ih, List.foldl_cons, List.foldl_nil, cycleLen, Nat.succ_mul n, ← Nat.add_assoc i n 1]
    rw [Nat.succ_mul (i + n)] at next ⊢
    omega

/-- Any sixteen cycles in a row together last sixteen times the mean divisor (R138). -/
theorem cycleLen_sum (div i : Nat) : (upto 16).foldl (fun n j => n + cycleLen div (i + j)) 0 = div := by
  have whole : (i + 16) * (div % 16) / 16 = i * (div % 16) / 16 + div % 16 := by
    rw [Nat.add_mul, Nat.add_mul_div_left _ _ (by decide)]
  rw [cycleLen_run, whole]
  omega

/-- Settles O37: lock and holdover are bits of two registers, a branch's step is one of four cases, and the dither pattern telescopes. -/
theorem locksAndDivisors : Obligations.LocksAndDivisors := by
  refine ⟨fun s d hs => ⟨fun hold power => ?_, fun idle => ?_, pllLossOfLock_lands hs, pllRelock_lands hs, pllHoldoverTimeout_lands hs⟩,
    branchStep_lands, domainStep_lands, cycleLen_sum⟩
  · refine ⟨_, exec_rootPllLock hs, ?_⟩
    rw [hold, power, if_neg (by decide)]
    refine ⟨?_, State.onlyChanges_commit (State.onlyChanges_setBit (s.onlyChanges_refl _ _) _ _ _ _ List.mem_cons_self)⟩
    rw [State.rd_commit _ _ _ _ _ rfl]
    exact s.testBit_setBit rfl d.isLt
  · refine ⟨_, exec_rootPllLock hs, ?_⟩
    rw [if_pos (by simpa using idle)]
    exact State.onlyChanges_commit (s.onlyChanges_refl _ _)

end Sys2Proof.Machine

/-!
Settles O38: an update record, a streamed change, a lookup and an answer are each taken from the front of their own list; what is done with them
moves entries alone, so that the lists of what is under way stand as they were left.
-/

namespace Sys2Proof.Machine

/-! ## The Larder's lists, and the lane -/

theorem State.lard_commit (s n : State) : (s.commit n).lard = n.lard := rfl
theorem State.die_updLard (s : State) (f : LarderState → LarderState) (d : Nat) : (s.updLard f).die d = s.die d := rfl
theorem State.lard_updLard (s : State) (f : LarderState → LarderState) : (s.updLard f).lard = f s.lard := rfl

theorem entry_of {α : Type} {p : LarderState → α} (hp : ∀ l larder cellar bad stream,
    p { l with larder := larder, cellar := cellar, badWords := bad, stream := stream } = p l) : EntryBlind fun s : State => p s.lard :=
  have hb : FaultBlind fun s : State => p s.lard := by apply blind_of <;> intros <;> rfl
  { hb with putLarder := fun s r v _ => State.put_other (fun s : State => p s.lard) (fun _ _ => rfl) (fun _ _ => rfl) s r v
            entries := fun s => hp s.lard, free := fun _ _ => rfl }

theorem entry_updates : EntryBlind fun s : State => s.lard.updates := entry_of fun _ _ _ _ _ => rfl
theorem entry_recDone : EntryBlind fun s : State => s.lard.recDone := entry_of fun _ _ _ _ _ => rfl
theorem entry_lookups : EntryBlind fun s : State => s.lard.lookups := entry_of fun _ _ _ _ _ => rfl
theorem entry_cellarReads : EntryBlind fun s : State => s.lard.cellarReads := entry_of fun _ _ _ _ _ => rfl

theorem State.flitIn_clear (s : State) {d : Nat} (h : d ∉ s.inject.lanes) : s.flitIn d true = (true, s) := by
  have hit : s.inject.lanes.contains d = false := by simpa using h
  simp only [State.flitIn, hit, Bool.not_false, Bool.and_self, Bool.false_eq_true, if_true, if_false]

theorem State.flitIn_bad (s : State) {d : Nat} (h : d ∉ s.inject.lanes) :
    s.flitIn d false = (false, s.raise (corr 1 1 (unitOf d s.active) 3)) := by
  have hit : s.inject.lanes.contains d = false := by simpa using h
  simp only [State.flitIn, hit, Bool.false_and, Bool.false_eq_true, if_false]

/-! ## Update records and the mirror (R166, R167, R177) -/

/-- The oldest update record taken off the way. -/
def State.recordTaken (s : State) (l : List UpdRec) : State := s.updLard fun x => { x with updates := l }

/-- A record that the Hall does not learn from, off the way and no longer kept for a takeover. -/
def State.recordPassed (s : State) (r : UpdRec) (l : List UpdRec) : State :=
  (s.recordTaken l).updLard fun x => { x with replay := x.replay.filter fun y => y.seq ≠ r.seq }

theorem State.lard_recordTaken (s : State) (l : List UpdRec) : (s.recordTaken l).lard = { s.lard with updates := l } := rfl

theorem exec_updateRecord {s : State} (e : Ecc) {r : UpdRec} {l : List UpdRec} (hs : s.aon = true) (h : s.lard.updates = r :: l)
    (lane : r.die ∉ s.inject.lanes) :
    exec (.larderUpdateRecord ⟨e, true⟩) s =
      .next (s.commit (if s.learning then (s.recordTaken l).applyRecord r e else s.recordPassed r l)) := by
  have flit : (s.recordTaken l).flitIn r.die true = (true, s.recordTaken l) := State.flitIn_clear _ lane
  change execLarderUpdateRecord ⟨e, true⟩ s = _
  rw [execLarderUpdateRecord, State.run_on _ hs]
  simp only [h]
  rw [State.recordTaken] at flit
  simp only [flit, Bool.not_true, Bool.false_eq_true, if_false]
  rw [State.recordPassed, State.recordTaken]

theorem exec_updateRecord_bad {s : State} (e : Ecc) {r : UpdRec} {l : List UpdRec} (hs : s.aon = true) (h : s.lard.updates = r :: l)
    (lane : r.die ∉ s.inject.lanes) :
    exec (.larderUpdateRecord ⟨e, false⟩) s = .next (s.commit ((s.recordTaken l).raise (corr 1 1 (unitOf r.die s.active) 3))) := by
  have flit : (s.recordTaken l).flitIn r.die false = (false, (s.recordTaken l).raise (corr 1 1 (unitOf r.die s.active) 3)) :=
    State.flitIn_bad _ lane
  change execLarderUpdateRecord ⟨e, false⟩ s = _
  rw [execLarderUpdateRecord, State.run_on _ hs]
  simp only [h]
  rw [State.recordTaken] at flit
  simp only [flit, Bool.not_false, if_true]
  rw [State.recordTaken]

theorem updateRecord_lands {s : State} (e : Ecc) {r : UpdRec} {l : List UpdRec} (hs : s.aon = true) (h : s.lard.updates = r :: l)
    (lane : r.die ∉ s.inject.lanes) :
    ∃ t, exec (.larderUpdateRecord ⟨e, true⟩) s = .next t ∧ t.lard.updates = l ∧ (s.learning = true → t.lard.recDone = r.seq) ∧
      (s.learning = false → s.sameRegsBut t [] ∧ s.sameTabsBut t [] ∧
        t.core = { s.core with lard := { s.lard with updates := l, replay := s.lard.replay.filter fun x => x.seq ≠ r.seq } }) := by
  refine ⟨_, exec_updateRecord e hs h lane, ?_, fun learns => ?_, fun passes => ?_⟩
  · rw [State.lard_commit]
    split
    · exact applyRecord_entries entry_updates _ _ _
    · rfl
  · rw [State.lard_commit, if_pos learns]
    exact applyRecord_entries entry_recDone _ _ _
  · rw [passes, if_neg Bool.false_ne_true]
    refine ⟨State.sameRegs_commit fun _ _ => rfl, State.sameTabs_commit ?_, ?_⟩
    · intro x _
      cases x <;> intro _ <;> rfl
    · exact (State.core_commit (n := s.recordPassed r l) rfl rfl).trans rfl

theorem updateRecord_drops {s : State} (e : Ecc) {r : UpdRec} {l : List UpdRec} (hs : s.aon = true) (h : s.lard.updates = r :: l)
    (lane : r.die ∉ s.inject.lanes) :
    ∃ t, exec (.larderUpdateRecord ⟨e, false⟩) s = .next t ∧ t.lard = { s.lard with updates := l } ∧ t.rd .fltCorr = s.oneUp .fltCorr := by
  refine ⟨_, exec_updateRecord_bad e hs h lane, ?_, ?_⟩
  · rw [State.lard_commit, raise_blind blind_lard _ _ FaultClass.noConfusion, State.lard_recordTaken]
  · rw [State.rd_commit _ _ _ _ _ rfl, State.fltCorr_raise_corrected _ rfl]
    rfl

/-- A streamed change in the standby's copy, with the records that it covers dropped. -/
def State.streamTaken (s : State) (x : MirrorOp × Nat) (l : List (MirrorOp × Nat)) : State :=
  s.updLard fun y => { y with mirror := mirrored y.mirror x.1, stream := l, replay := y.replay.filter fun r => decide (x.2 < r.seq) }

theorem exec_mirrorReceive {s : State} {x : MirrorOp × Nat} {l : List (MirrorOp × Nat)} (hs : s.aon = true) (h : s.lard.stream = x :: l) :
    exec .larderMirrorReceive s = .next (s.commit (s.streamTaken x l)) := by
  change execLarderMirrorReceive s = _
  rw [execLarderMirrorReceive, State.run_on _ hs]
  simp only [h]
  rfl

theorem mirrorReceive_lands {s : State} {x : MirrorOp × Nat} {l : List (MirrorOp × Nat)} (hs : s.aon = true) (h : s.lard.stream = x :: l) :
    ∃ t, exec .larderMirrorReceive s = .next t ∧
      t.core = { s.core with lard := { s.lard with
        mirror := mirrored s.lard.mirror x.1, stream := l, replay := s.lard.replay.filter fun r => decide (x.2 < r.seq) } } ∧
      s.sameRegsBut t [] ∧ s.sameTabsBut t [] := by
  refine ⟨_, exec_mirrorReceive hs h, ?_, State.sameRegs_commit fun _ _ => rfl, State.sameTabs_commit ?_⟩
  · exact (State.core_commit (n := s.streamTaken x l) rfl rfl).trans rfl
  · intro y _
    cases y <;> intro _ <;> rfl

/-! ## Lookups at the Hall (R169, R173, R174) -/

/-- A lookup taken off the lanes to the Hall. -/
def State.lookupTaken (s : State) (x : LReq) : State := s.updLard fun l => { l with lookups := l.lookups.erase x }

/-- What the Hall does with a lookup, with its Larder's entry or without it. -/
def State.lookedUp (s t : State) (x : LReq) : Option LEntry → State
  | some e => (t.count .lrdLhit).reply x (some e)
  | none =>
    if !s.cellarOn then (t.count .lrdLmiss).reply x none
    else if !s.keyAvail x.key then ((t.count .lrdLmiss).count .lrdCpause).reply x none
    else (t.count .lrdLmiss).updLard fun l => { l with cellarReads := l.cellarReads ++ [x] }

theorem State.lard_lookupTaken (s : State) (x : LReq) : (s.lookupTaken x).lard = { s.lard with lookups := s.lard.lookups.erase x } := rfl

theorem exec_lookupRequest {s : State} {d : CDie} (e : Ecc) {x : LReq} (hs : s.aon = true)
    (h : (s.lard.lookups.find? fun y => decide (y.die = d.val)) = some x) (lane : d.val ∉ s.inject.lanes) :
    exec (.larderLookupRequest d ⟨e, true⟩) s =
      .next (s.commit (s.lookedUp ((s.lookupTaken x).readEntry false x.key e).2 x ((s.lookupTaken x).readEntry false x.key e).1)) := by
  have flit : (s.lookupTaken x).flitIn d.val true = (true, s.lookupTaken x) := State.flitIn_clear _ lane
  change execLarderLookupRequest d ⟨e, true⟩ s = _
  rw [execLarderLookupRequest, State.run_on _ hs]
  simp only [h]
  rw [State.lookupTaken] at flit
  simp only [flit, Bool.not_true, Bool.false_eq_true, if_false]
  rw [State.lookupTaken]
  cases (State.readEntry (s.updLard fun l => { l with lookups := l.lookups.erase x }) false x.key e).1 <;> rfl

theorem exec_lookupRequest_bad {s : State} {d : CDie} (e : Ecc) {x : LReq} (hs : s.aon = true)
    (h : (s.lard.lookups.find? fun y => decide (y.die = d.val)) = some x) (lane : d.val ∉ s.inject.lanes) :
    exec (.larderLookupRequest d ⟨e, false⟩) s = .next (s.commit ((s.lookupTaken x).raise (corr 1 1 (unitOf d.val s.active) 3))) := by
  have flit : (s.lookupTaken x).flitIn d.val false = (false, (s.lookupTaken x).raise (corr 1 1 (unitOf d.val s.active) 3)) :=
    State.flitIn_bad _ lane
  change execLarderLookupRequest d ⟨e, false⟩ s = _
  rw [execLarderLookupRequest, State.run_on _ hs]
  simp only [h]
  rw [State.lookupTaken] at flit
  simp only [flit, Bool.not_false, if_true]
  rfl

theorem State.replies_reply (s : State) (x : LReq) (e : Option LEntry) :
    ((s.reply x e).die x.die).replies = (s.die x.die).replies ++ [{ key := x.key, ent := e, gen := x.gen }] := by
  rw [State.reply, State.die_updDie, if_pos rfl]

theorem entry_replies (d : Nat) : EntryBlind fun s : State => (s.die d).replies :=
  have hb : FaultBlind fun s : State => (s.die d).replies := by apply blind_of <;> intros <;> rfl
  { hb with putLarder := fun s r v _ => State.put_other (fun s : State => (s.die d).replies) (fun _ _ => rfl) (fun _ _ => rfl) s r v
            entries := fun _ _ _ _ _ => rfl, free := fun _ _ => rfl }

theorem lookups_lookedUp (s t : State) (x : LReq) (e : Option LEntry) : (s.lookedUp t x e).lard.lookups = t.lard.lookups := by
  have counted (u : State) (f : Field) (h : (fieldDef f).blk = .lrd) : (u.count f).lard.lookups = u.lard.lookups :=
    count_larder entry_lookups u f 1 0 0 h
  cases e with
  | some e => exact counted t _ rfl
  | none =>
    unfold State.lookedUp
    dsimp only
    split
    · exact counted t _ rfl
    · split
      · exact (counted _ _ rfl).trans (counted t _ rfl)
      · exact counted t _ rfl

theorem lookedUp_answers (s t : State) (x : LReq) (e : Option LEntry) :
    (∃ r, ((s.lookedUp t x e).die x.die).replies = (t.die x.die).replies ++ [{ key := x.key, ent := r, gen := x.gen }] ∧
      (s.lookedUp t x e).lard.cellarReads = t.lard.cellarReads) ∨
    (s.cellarOn = true ∧ (s.lookedUp t x e).lard.cellarReads = t.lard.cellarReads ++ [x] ∧
      ((s.lookedUp t x e).die x.die).replies = (t.die x.die).replies) := by
  have replies (u : State) (f : Field) (h : (fieldDef f).blk = .lrd) : ((u.count f).die x.die).replies = (u.die x.die).replies :=
    count_larder (entry_replies x.die) u f 1 0 0 h
  have reads (u : State) (f : Field) (h : (fieldDef f).blk = .lrd) : (u.count f).lard.cellarReads = u.lard.cellarReads :=
    count_larder entry_cellarReads u f 1 0 0 h
  cases e with
  | some e =>
    refine .inl ⟨some e, ?_, reads t _ rfl⟩
    rw [State.lookedUp, State.replies_reply, replies t _ rfl]
  | none =>
    unfold State.lookedUp
    dsimp only
    split
    · refine .inl ⟨none, ?_, reads t _ rfl⟩
      rw [State.replies_reply, replies t _ rfl]
    · next on =>
      split
      · refine .inl ⟨none, ?_, (reads _ _ rfl).trans (reads t _ rfl)⟩
        rw [State.replies_reply, replies _ _ rfl, replies t _ rfl]
      · refine .inr ⟨by simpa using on, ?_, replies t _ rfl⟩
        rw [State.lard_updLard, reads t _ rfl]

theorem lookupRequest_lands {s : State} {d : CDie} (e : Ecc) {x : LReq} (hs : s.aon = true)
    (h : (s.lard.lookups.find? fun y => decide (y.die = d.val)) = some x) (lane : d.val ∉ s.inject.lanes) :
    ∃ t, exec (.larderLookupRequest d ⟨e, true⟩) s = .next t ∧ t.lard.lookups = s.lard.lookups.erase x ∧
      ((∃ r, (t.die d.val).replies = (s.die d.val).replies ++ [{ key := x.key, ent := r, gen := x.gen }] ∧
          t.lard.cellarReads = s.lard.cellarReads) ∨
        (s.cellarOn = true ∧ t.lard.cellarReads = s.lard.cellarReads ++ [x] ∧ (t.die d.val).replies = (s.die d.val).replies)) := by
  have own : x.die = d.val := by simpa using List.find?_some h
  refine ⟨_, exec_lookupRequest e hs h lane, ?_, ?_⟩
  · rw [State.lard_commit, lookups_lookedUp, readEntry_larder entry_lookups]
    rfl
  · have answers := lookedUp_answers s ((s.lookupTaken x).readEntry false x.key e).2 x ((s.lookupTaken x).readEntry false x.key e).1
    rw [readEntry_larder (entry_replies x.die), readEntry_larder entry_cellarReads, own] at answers
    rw [State.lard_commit, State.die_commit]
    exact answers

theorem lookupRequest_drops {s : State} {d : CDie} (e : Ecc) {x : LReq} (hs : s.aon = true)
    (h : (s.lard.lookups.find? fun y => decide (y.die = d.val)) = some x) (lane : d.val ∉ s.inject.lanes) :
    ∃ t, exec (.larderLookupRequest d ⟨e, false⟩) s = .next t ∧ t.lard = { s.lard with lookups := s.lard.lookups.erase x } ∧
      (t.die d.val).replies = (s.die d.val).replies ∧ t.rd .fltCorr = s.oneUp .fltCorr := by
  refine ⟨_, exec_lookupRequest_bad e hs h lane, ?_, ?_, ?_⟩
  · rw [State.lard_commit, raise_blind blind_lard _ _ FaultClass.noConfusion, State.lard_lookupTaken]
  · rw [State.die_commit, raise_blind (entry_replies d.val).toFaultBlind _ _ FaultClass.noConfusion]
    rfl
  · rw [State.rd_commit _ _ _ _ _ rfl, State.fltCorr_raise_corrected _ rfl]
    rfl

/-! ## Reads of the Cellar -/

/-- The oldest read of the Cellar taken off. -/
def State.cellarTaken (s : State) (l : List LReq) : State := s.updLard fun x => { x with cellarReads := l }

/-- An entry read from the Cellar, installed where there is room, and answered. -/
def State.cellarFound (s : State) (x : LReq) (e : LEntry) : State :=
  let q := ((s.count .lrdChit).removeEntry true x.key).install e
  (if q.1 then q.2 else (s.count .lrdChit).count .lrdCpause).reply x (some e)

/-- What the Cellar's read answers. -/
def State.cellarAnswer (s : State) (x : LReq) : Option LEntry → State
  | some e => s.cellarFound x e
  | none => (s.count .lrdCmiss).reply x none

/-- What a finished read of the Cellar does, with the Larder's entry, where it has come there since, or without it. -/
def State.cellarRead (s t : State) (x : LReq) (ecc : Ecc) : Option LEntry → State
  | some e => t.reply x (some e)
  | none =>
    if !s.keyAvail x.key then (t.count .lrdCpause).reply x none
    else (t.readEntry true x.key ecc).2.cellarAnswer x (t.readEntry true x.key ecc).1

theorem exec_cellarRead {s : State} (e : Ecc) {x : LReq} {l : List LReq} (hs : s.aon = true) (h : s.lard.cellarReads = x :: l) :
    exec (.cellarReadComplete e) s =
      .next (s.commit (s.cellarRead ((s.cellarTaken l).readEntry false x.key .ok).2 x e ((s.cellarTaken l).readEntry false x.key .ok).1)) := by
  change execCellarReadComplete e s = _
  rw [execCellarReadComplete, State.run_on _ hs]
  simp only [h]
  rw [State.cellarTaken]
  refine congrArg (fun n => Host.Outcome.next (s.commit n)) ?_
  cases ((s.updLard fun x => { x with cellarReads := l }).readEntry false x.key .ok).1 with
  | some e => rfl
  | none =>
    refine ite_congr rfl (fun _ => rfl) fun _ => ?_
    cases (((s.updLard fun x => { x with cellarReads := l }).readEntry false x.key .ok).2.readEntry true x.key e).1 <;> rfl

theorem cellarAnswer_lands (s : State) (x : LReq) (e : Option LEntry) :
    (s.cellarAnswer x e).lard.cellarReads = s.lard.cellarReads ∧
      ∃ r, ((s.cellarAnswer x e).die x.die).replies = (s.die x.die).replies ++ [{ key := x.key, ent := r, gen := x.gen }] := by
  have found {α : Type} {g : State → α} (hg : EntryBlind g) (e : LEntry) (b : Bool) :
      g (if b then (((s.count .lrdChit).removeEntry true x.key).install e).2 else (s.count .lrdChit).count .lrdCpause) = g s := by
    split
    · rw [install_larder hg, removeEntry_larder hg, count_larder hg _ _ _ _ _ rfl]
    · rw [count_larder hg _ _ _ _ _ rfl, count_larder hg _ _ _ _ _ rfl]
  cases e with
  | some e =>
    refine ⟨found entry_cellarReads e _, some e, ?_⟩
    rw [State.cellarAnswer, State.cellarFound, State.replies_reply, found (entry_replies x.die)]
  | none =>
    refine ⟨count_larder entry_cellarReads s .lrdCmiss 1 0 0 rfl, none, ?_⟩
    rw [State.cellarAnswer, State.replies_reply, count_larder (entry_replies x.die) _ _ _ _ _ rfl]

theorem cellarRead_lands (s t : State) (x : LReq) (ecc : Ecc) (e : Option LEntry) :
    (s.cellarRead t x ecc e).lard.cellarReads = t.lard.cellarReads ∧
      ∃ r, ((s.cellarRead t x ecc e).die x.die).replies = (t.die x.die).replies ++ [{ key := x.key, ent := r, gen := x.gen }] := by
  cases e with
  | some e => exact ⟨rfl, some e, t.replies_reply x _⟩
  | none =>
    unfold State.cellarRead
    dsimp only
    split
    · refine ⟨count_larder entry_cellarReads t .lrdCpause 1 0 0 rfl, none, ?_⟩
      rw [State.replies_reply, count_larder (entry_replies x.die) _ _ _ _ _ rfl]
    · have answer := cellarAnswer_lands (t.readEntry true x.key ecc).2 x (t.readEntry true x.key ecc).1
      rwa [readEntry_larder entry_cellarReads, readEntry_larder (entry_replies x.die)] at answer

theorem cellarReadComplete_lands {s : State} (e : Ecc) {x : LReq} {l : List LReq} (hs : s.aon = true) (h : s.lard.cellarReads = x :: l) :
    ∃ t, exec (.cellarReadComplete e) s = .next t ∧ t.lard.cellarReads = l ∧
      ∃ r, (t.die x.die).replies = (s.die x.die).replies ++ [{ key := x.key, ent := r, gen := x.gen }] := by
  have lands := cellarRead_lands s ((s.cellarTaken l).readEntry false x.key .ok).2 x e ((s.cellarTaken l).readEntry false x.key .ok).1
  rw [readEntry_larder entry_cellarReads, readEntry_larder (entry_replies x.die)] at lands
  refine ⟨_, exec_cellarRead e hs h, ?_⟩
  rw [State.lard_commit, State.die_commit]
  exact lands

/-! ## A die agent's lookups and the answers to them (R169, R173, R174) -/

/-- The lookup of one key sent. -/
def DieState.sent (x : DieState) (k : LKey) : DieState :=
  { x with asked := x.asked.map fun b => if b.key = k then { b with sent := true } else b }

/-- The lookup of one key on the lanes to the Hall. -/
def State.asks (s : State) (d : Nat) (k : LKey) : State :=
  (s.updDie d fun x => x.sent k).updLard fun l => { l with lookups := l.lookups ++ [{ die := d, key := k, gen := (s.die d).gen }] }

theorem State.sendAsk_cases (s : State) (d : Nat) : s.sendAsk d = s ∨ ∃ k, s.sendAsk d = s.asks d k := by
  unfold State.sendAsk
  dsimp only
  split
  · exact .inl rfl
  · next a _ =>
    split
    · exact .inl rfl
    · exact .inr ⟨a.key, rfl⟩

theorem DieState.keys_sent (x : DieState) (k : LKey) : (x.sent k).asked.map (fun a => a.key) = x.asked.map fun a => a.key := by
  rw [DieState.sent, List.map_map]
  refine List.map_congr_left fun a _ => ?_
  rw [Function.comp_apply]
  split <;> rfl

theorem DieState.mem_sent {x : DieState} {k : LKey} {a : Lookup} (h : a ∈ (x.sent k).asked) : ∃ b ∈ x.asked, a.key = b.key ∧ a.late = b.late := by
  obtain ⟨b, hb, rfl⟩ := List.mem_map.1 h
  refine ⟨b, hb, ?_⟩
  split <;> exact ⟨rfl, rfl⟩

theorem State.die_asks (s : State) (d : Nat) (k : LKey) : (s.asks d k).die d = (s.die d).sent k := by
  rw [State.asks, State.die_updLard, State.die_updDie, if_pos rfl]

/-- The next lookup leaves what the die agent holds and which keys it waits for. -/
theorem State.die_sendAsk (s : State) (d : Nat) :
    ∃ l, (s.sendAsk d).die d = { s.die d with asked := l } ∧ l.map (fun a => a.key) = (s.die d).asked.map (fun a => a.key) ∧
      ∀ a ∈ l, ∃ b ∈ (s.die d).asked, a.key = b.key ∧ a.late = b.late := by
  obtain same | ⟨k, moved⟩ := s.sendAsk_cases d
  · rw [same]
    exact ⟨_, rfl, rfl, fun a ha => ⟨a, ha, rfl, rfl⟩⟩
  · rw [moved, State.die_asks]
    exact ⟨_, rfl, DieState.keys_sent _ k, fun a => DieState.mem_sent⟩

theorem State.rest_sendAsk (s : State) (d : Nat) :
    (∀ x, (s.sendAsk d).reg x = s.reg x) ∧ s.sameTabsBut (s.sendAsk d) [.dies] ∧
      (s.sendAsk d).core = { s.core with lard := { s.lard with lookups := (s.sendAsk d).lard.lookups } } := by
  obtain same | ⟨k, moved⟩ := s.sendAsk_cases d
  · rw [same]
    exact ⟨fun _ => rfl, fun x _ => State.sameIn_refl s x, rfl⟩
  · rw [moved]
    refine ⟨fun _ => rfl, fun x hx => ?_, rfl⟩
    cases x
    case dies => exact absurd List.mem_cons_self hx
    all_goals intro _; rfl

theorem State.now_sendAsk (s : State) (d : Nat) : (s.sendAsk d).now = s.now := by
  obtain same | ⟨k, moved⟩ := s.sendAsk_cases d
  · rw [same]
  · rw [moved, State.asks]
    rfl

theorem State.pending_sendAsk (s : State) (d : Nat) : (s.sendAsk d).pending = s.pending := by
  obtain same | ⟨k, moved⟩ := s.sendAsk_cases d
  · rw [same]
  · rw [moved, State.asks]
    rfl

/-- An answer taken off the lane to a die agent. -/
def State.replyTaken (s : State) (d : Nat) (l : List LReply) : State := s.updDie d fun x => { x with replies := l }

/-- A die agent with an answer taken, and its key no longer asked for. -/
def DieState.unasked (x : DieState) (l : List LReply) (k : LKey) : DieState :=
  { x with replies := l, asked := x.asked.filter fun a => a.key ≠ k }

/-- A key no longer asked for, its answer taken. -/
def State.unasked (s : State) (d : Nat) (l : List LReply) (k : LKey) : State :=
  (s.replyTaken d l).updDie d fun x => { x with asked := x.asked.filter fun a => a.key ≠ k }

/-- An answer's entry in the Pantry, where it brings one. -/
def State.keyAnswered (s : State) (d : Nat) (l : List LReply) (k : LKey) : Option LEntry → State
  | some e => (s.unasked d l k).updDie d fun x => x.fetch { ent := e, fetched := s.now }
  | none => s.unasked d l k

theorem State.die_unasked (s : State) (d : Nat) (l : List LReply) (k : LKey) : (s.unasked d l k).die d = (s.die d).unasked l k := by
  rw [State.unasked, State.die_updDie, if_pos rfl, State.replyTaken, State.die_updDie, if_pos rfl]
  rfl

/-- A fetched entry moves the Pantry alone. -/
theorem DieState.fetch_keeps (x : DieState) (e : PEntry) : ∃ p o, x.fetch e = { x with pantry := p, overflow := o } := by
  unfold DieState.fetch
  dsimp only
  split
  · exact ⟨_, _, rfl⟩
  · split
    · exact ⟨_, _, rfl⟩
    · split
      · exact ⟨x.pantry, _, rfl⟩
      · exact ⟨_, _, rfl⟩

/-- An entry of a key that the Pantry holds takes that entry's place. -/
theorem DieState.mem_fetch {x : DieState} {e y : PEntry} (hy : y ∈ x.pantry) (hk : y.ent.key = e.ent.key) : e ∈ (x.fetch e).pantry := by
  have shorter : (x.pantry.filter fun z => z.ent.key ≠ e.ent.key).length < x.pantry.length :=
    List.length_filter_lt_length_iff_exists.2 ⟨y, hy, by simp [hk]⟩
  rw [DieState.fetch, if_pos (by simp only [shorter, decide_true, Bool.true_or])]
  exact List.mem_cons_self

theorem State.die_keyAnswered (s : State) (d : Nat) (l : List LReply) (k : LKey) (e : Option LEntry) :
    ∃ p o, (s.keyAnswered d l k e).die d = { (s.die d).unasked l k with pantry := p, overflow := o } ∧
      (e = none → p = (s.die d).pantry) ∧
      ∀ x, e = some x → (∃ y ∈ (s.die d).pantry, y.ent.key = x.key) → { ent := x, fetched := s.now } ∈ p := by
  cases e with
  | none => exact ⟨(s.die d).pantry, (s.die d).overflow, s.die_unasked d l k, fun _ => rfl, fun _ h => nomatch h⟩
  | some e =>
    have fetched : (s.keyAnswered d l k (some e)).die d = ((s.die d).unasked l k).fetch { ent := e, fetched := s.now } := by
      rw [State.keyAnswered, State.die_updDie, if_pos rfl, State.die_unasked]
    obtain ⟨p, o, kept⟩ := ((s.die d).unasked l k).fetch_keeps { ent := e, fetched := s.now }
    refine ⟨p, o, fetched.trans kept, (nomatch ·), fun x hx held => ?_⟩
    obtain rfl : e = x := Option.some.inj hx
    obtain ⟨y, hy, hk⟩ := held
    have landed := DieState.mem_fetch (x := (s.die d).unasked l k) (e := { ent := e, fetched := s.now }) hy hk
    rwa [kept] at landed

theorem State.onlyChanges_keyAnswered (s : State) (d : Nat) (l : List LReply) (k : LKey) (e : Option LEntry) :
    s.onlyChanges (s.keyAnswered d l k e) [] [.dies] := by
  have unasked : s.onlyChanges (s.unasked d l k) [] [.dies] :=
    State.onlyChanges_updDie (State.onlyChanges_updDie (s.onlyChanges_refl _ _) _ _ List.mem_cons_self) _ _ List.mem_cons_self
  cases e with
  | none => exact unasked
  | some e => exact State.onlyChanges_updDie unasked _ _ List.mem_cons_self

theorem State.lard_keyAnswered (s : State) (d : Nat) (l : List LReply) (k : LKey) (e : Option LEntry) : (s.keyAnswered d l k e).lard = s.lard := by
  cases e <;> rfl

theorem State.now_keyAnswered (s : State) (d : Nat) (l : List LReply) (k : LKey) (e : Option LEntry) : (s.keyAnswered d l k e).now = s.now := by
  cases e <;> rfl

theorem State.pending_keyAnswered (s : State) (d : Nat) (l : List LReply) (k : LKey) (e : Option LEntry) :
    (s.keyAnswered d l k e).pending = s.pending := by
  cases e <;> rfl

section Reply
variable {s : State} {d : CDie} {r : LReply} {l : List LReply} (hs : s.aon = true) (h : (s.die d.val).replies = r :: l)
include hs h

theorem exec_lookupReply (gen : r.gen = (s.die d.val).gen) :
    exec (.lookupReply ⟨d, true⟩) s = .next (s.commit ((s.keyAnswered d.val l r.key r.ent).sendAsk d.val)) := by
  change execLookupReply ⟨d, true⟩ s = _
  rw [execLookupReply, State.run_on _ hs]
  simp only [h, gen, ne_eq, not_true_eq_false, if_false, Bool.not_true, Bool.false_eq_true]
  cases r.ent <;> rfl

theorem exec_lookupReply_stale (b : Bool) (gen : r.gen ≠ (s.die d.val).gen) :
    exec (.lookupReply ⟨d, b⟩) s = .next (s.commit (s.replyTaken d.val l)) := by
  change execLookupReply ⟨d, b⟩ s = _
  rw [execLookupReply, State.run_on _ hs]
  simp only [h, ne_eq, gen, not_false_eq_true, if_true]
  rfl

theorem exec_lookupReply_bad (gen : r.gen = (s.die d.val).gen) :
    exec (.lookupReply ⟨d, false⟩) s = .next (s.commit ((s.replyTaken d.val l).raise (corr 1 1 (unitOf d.val s.active) 4))) := by
  change execLookupReply ⟨d, false⟩ s = _
  rw [execLookupReply, State.run_on _ hs]
  simp only [h, gen, ne_eq, not_true_eq_false, if_false, Bool.not_false, if_true]
  rfl

theorem lookupReply_lands (gen : r.gen = (s.die d.val).gen) :
    ∃ t, exec (.lookupReply ⟨d, true⟩) s = .next t ∧ (t.die d.val).replies = l ∧
      (t.die d.val).asked.map (fun a => a.key) = ((s.die d.val).asked.filter fun a => a.key ≠ r.key).map (fun a => a.key) ∧
      s.sameRegsBut t [] ∧ s.sameTabsBut t [.dies] ∧ t.core = { s.core with lard := { s.lard with lookups := t.lard.lookups } } ∧
      (r.ent = none → (t.die d.val).pantry = (s.die d.val).pantry) ∧
      ∀ x, r.ent = some x → (∃ y ∈ (s.die d.val).pantry, y.ent.key = x.key) → { ent := x, fetched := s.now } ∈ (t.die d.val).pantry := by
  obtain ⟨p, o, kept, gone, got⟩ := s.die_keyAnswered d.val l r.key r.ent
  obtain ⟨asked, die, keys, _⟩ := (s.keyAnswered d.val l r.key r.ent).die_sendAsk d.val
  obtain ⟨regs, tabs, core⟩ := (s.keyAnswered d.val l r.key r.ent).rest_sendAsk d.val
  obtain ⟨regs', tabs', core'⟩ := s.onlyChanges_keyAnswered d.val l r.key r.ent
  rw [kept] at die keys
  refine ⟨_, exec_lookupReply hs h gen, ?_, ?_, State.sameRegs_commit fun x _ => ?_, State.sameTabs_commit fun x hx => ?_, ?_, ?_, ?_⟩
  · rw [State.die_commit, die]
    rfl
  · rw [State.die_commit, die]
    exact keys
  · exact (regs x).trans (regs' x List.not_mem_nil)
  · have here := tabs' x hx
    have there := tabs x hx
    cases x <;> exact fun y => (there y).trans (here y)
  · rw [State.core_commit ((State.pending_sendAsk _ _).trans (s.pending_keyAnswered _ _ _ _)) ((State.now_sendAsk _ _).trans (s.now_keyAnswered _ _ _ _)), core, core', State.lard_keyAnswered, State.lard_commit]
  · rw [State.die_commit, die]
    exact gone
  · rw [State.die_commit, die]
    exact got

theorem lookupReply_stale (b : Bool) (gen : r.gen ≠ (s.die d.val).gen) :
    ∃ t, exec (.lookupReply ⟨d, b⟩) s = .next t ∧ s.onlyChanges t [] [.dies] ∧ t.die d.val = { s.die d.val with replies := l } := by
  refine ⟨_, exec_lookupReply_stale hs h b gen, State.onlyChanges_commit (State.onlyChanges_updDie (s.onlyChanges_refl _ _) _ _ List.mem_cons_self), ?_⟩
  rw [State.die_commit, State.replyTaken, State.die_updDie, if_pos rfl]

theorem lookupReply_drops (gen : r.gen = (s.die d.val).gen) :
    ∃ t, exec (.lookupReply ⟨d, false⟩) s = .next t ∧ t.die d.val = { s.die d.val with replies := l } ∧ t.rd .fltCorr = s.oneUp .fltCorr := by
  have blind : FaultBlind fun t : State => t.die d.val := by apply blind_of <;> intros <;> rfl
  refine ⟨_, exec_lookupReply_bad hs h gen, ?_, ?_⟩
  · rw [State.die_commit, raise_blind blind _ _ FaultClass.noConfusion, State.replyTaken, State.die_updDie, if_pos rfl]
  · rw [State.rd_commit _ _ _ _ _ rfl, State.fltCorr_raise_corrected _ rfl]
    rfl

end Reply

/-! ## A lookup late by 4 000 ns -/

/-- A die agent's lookups with one shown late, and given up where nothing can answer it any more. -/
def DieState.late (x : DieState) (k : LKey) (keep : Bool) : DieState :=
  { x with asked := (x.asked.map fun b => if b.key = k then { b with late := true } else b).filter fun b => keep || decide (b.key ≠ k) }

/-- A lookup late by 4 000 ns, counted. -/
def State.lookupLate (s : State) (d : Nat) (a : Lookup) : State :=
  ((s.advanceTo (a.start + 4000)).updDie d fun x => x.late a.key (s.awaited d a)).count .dagPntlate 1 d

theorem exec_lookupTimeout {s : State} {d : CDie} {a : Lookup} (hs : s.aon = true)
    (h : (s.die d.val).asked.find? (fun x => !x.late) = some a) :
    exec (.lookupTimeout d) s = .next (s.commit ((s.lookupLate d.val a).sendAsk d.val)) := by
  change execLookupTimeout d s = _
  rw [execLookupTimeout, State.run_on _ hs]
  simp only [h]
  rfl

theorem State.die_lookupLate (s : State) (d : Nat) (a : Lookup) : (s.lookupLate d a).die d = (s.die d).late a.key (s.awaited d a) := by
  have counted (t : State) : (t.count .dagPntlate 1 d).die d = t.die d := congrArg (Store.get DieState.init · d) (t.count_dies .dagPntlate 1 d 0)
  rw [State.lookupLate, counted, State.die_updDie, if_pos rfl, State.die_advanceTo]

theorem State.now_lookupLate (s : State) (d : Nat) (a : Lookup) : (s.lookupLate d a).now = max s.now (a.start + 4000) := by
  rw [State.lookupLate, State.count_now, State.updDie_now, State.advanceTo_now]

theorem State.pntlate_lookupLate (s : State) {d : Nat} (hd : d < 32) (a : Lookup) : (s.lookupLate d a).rd .dagPntlate d = s.oneUp .dagPntlate d := by
  rw [State.lookupLate, State.rd_count_same _ (computeField_exists (f := .dagPntlate) (fun _ => rfl) hd), State.oneUp, State.rd_updDie,
    State.rd_advanceTo _ _ _ _ (by decide), State.oneUp]

theorem DieState.keys_late (x : DieState) (k : LKey) : (x.late k true).asked.map (fun a => a.key) = x.asked.map fun a => a.key := by
  have all (l : List Lookup) : l.filter (fun b => true || decide (b.key ≠ k)) = l := List.filter_eq_self.2 fun _ _ => rfl
  rw [DieState.late, all, List.map_map]
  refine List.map_congr_left fun a _ => ?_
  rw [Function.comp_apply]
  split <;> rfl

theorem DieState.late_late {x : DieState} {k : LKey} {keep : Bool} {a : Lookup} (h : a ∈ (x.late k keep).asked) (hk : a.key = k) : a.late = true := by
  obtain ⟨b, _, rfl⟩ := List.mem_map.1 (List.mem_filter.1 h).1
  by_cases hb : b.key = k
  · rw [if_pos hb]
  · rw [if_neg hb] at hk
    exact absurd hk hb

theorem DieState.gone_late {x : DieState} {k : LKey} {a : Lookup} (h : a ∈ (x.late k false).asked) : a.key ≠ k := by
  simpa using (List.mem_filter.1 h).2

theorem lookupTimeout_lands {s : State} {d : CDie} {a : Lookup} (hs : s.aon = true)
    (h : (s.die d.val).asked.find? (fun x => !x.late) = some a) :
    ∃ t, exec (.lookupTimeout d) s = .next t ∧ a.start + 4000 ≤ t.now ∧ t.rd .dagPntlate d.val = s.oneUp .dagPntlate d.val ∧
      (s.awaited d.val a = true → (t.die d.val).asked.map (fun x => x.key) = (s.die d.val).asked.map (fun x => x.key) ∧
        ∀ x ∈ (t.die d.val).asked, x.key = a.key → x.late = true) ∧
      (s.awaited d.val a = false → ∀ x ∈ (t.die d.val).asked, x.key ≠ a.key) := by
  obtain ⟨asked, die, keys, from'⟩ := (s.lookupLate d.val a).die_sendAsk d.val
  obtain ⟨regs, _⟩ := (s.lookupLate d.val a).rest_sendAsk d.val
  rw [State.die_lookupLate] at die keys from'
  refine ⟨_, exec_lookupTimeout hs h, ?_, ?_, fun waits => ⟨?_, fun x hx hk => ?_⟩, fun lost x hx => ?_⟩
  · rw [State.commit_now, State.now_sendAsk, State.now_lookupLate]
    omega
  · rw [State.rd_commit _ _ _ _ _ rfl, State.rd, regs]
    exact s.pntlate_lookupLate d.isLt a
  · rw [State.die_commit, die]
    rw [waits, DieState.keys_late] at keys
    exact keys
  · rw [State.die_commit, die] at hx
    obtain ⟨b, hb, key, late⟩ := from' x hx
    exact late.trans (DieState.late_late hb (key.symm.trans hk))
  · rw [State.die_commit, die] at hx
    obtain ⟨b, hb, key, _⟩ := from' x hx
    rw [lost] at hb
    exact fun same => DieState.gone_late hb (key.symm.trans same)

/-- Settles O38: each list of the Larder and of the die agents loses its front, and what is done with the front leaves the lists as they are. -/
theorem larderRecordsAndLookups : Obligations.LarderRecordsAndLookups :=
  ⟨fun _ e hs => ⟨fun _ _ h lane => ⟨updateRecord_lands e hs h lane, updateRecord_drops e hs h lane⟩, fun _ _ h => mirrorReceive_lands hs h⟩,
   fun _ _ e hs => ⟨fun _ h lane => ⟨lookupRequest_lands e hs h lane, lookupRequest_drops e hs h lane⟩,
    fun _ _ h => cellarReadComplete_lands e hs h,
    fun _ _ h => ⟨lookupReply_lands hs h, lookupReply_stale hs h, lookupReply_drops hs h⟩,
    fun _ h => lookupTimeout_lands hs h⟩⟩

end Sys2Proof.Machine

/-!
Settles O39: a partition's write lands or becomes a change that waits; a change in progress is staged by each die agent, takes force with the first
commit and ends with the last, or goes back to what stood before it.
-/

namespace Sys2Proof.Machine

/-! ## Partition writes (R185, R290) -/

theorem exec_partitionWrite (port : Port) (p : Part) (which : PartReg) (v : Word) {s : State} (hs : s.aon = true) :
    exec (.partitionWrite port p which v) s = .next (s.commit (s.partitionWrite p.val which v.toNat)) :=
  State.run_on (fun s => s.partitionWrite p.val which v.toNat) hs

/-- A change among those that wait, their number shown. -/
def State.enqueued (s : State) (c : Change) : State := { s with changes := s.changes ++ [c] }.wr .fltCmtQueued (s.changes.length + 1)

theorem State.requestChange_enqueued {s : State} (room : s.changes.length < 4) (c : Change) : s.requestChange c = some (s.enqueued c) :=
  if_pos room

theorem State.changes_enqueued (s : State) (c : Change) : (s.enqueued c).changes = s.changes ++ [c] :=
  State.wr_changes _ _ _ _ _

theorem State.sameRegs_enqueued (s : State) (c : Change) : s.sameRegsBut (s.enqueued c) [⟨.fltCmtQueued, 0, 0⟩] :=
  fun _ hr => State.reg_put_other _ _ fun same => hr (List.mem_singleton.2 same.symm)

theorem State.sameTabs_enqueued (s : State) (c : Change) : s.sameTabsBut (s.enqueued c) [] :=
  State.sameTabs_wr (s := s) (fun x _ => by cases x <;> intro _ <;> rfl) _ _ _ _

/-- The change that a write to a partition not in force asks for. -/
def State.boundBy (s : State) (p dies valid : Nat) (ws : List (FieldRef × Nat)) : Change :=
  s.mkChange (.bind p false (decide (valid = 1))) ws (distinct ((upto 32).filter (testBit dies))) none

theorem State.bindChange_lands (s : State) (p dies tag : Nat) (ws : List (FieldRef × Nat)) (free : s.inForce p = false) (idle : s.binding p = false) :
    (s.bindChange p dies tag 0 ws none).2 = s.puts ws := by
  simp only [State.bindChange, free, idle, Nat.zero_ne_one, decide_false, decide_true, Option.isNone_none, Bool.false_and, Bool.not_false,
    Bool.and_self, Bool.false_eq_true, if_false, if_true]

theorem State.bindChange_waits (s : State) (p dies tag : Nat) {valid : Nat} (ws : List (FieldRef × Nat)) (free : s.inForce p = false)
    (alone : valid = 1 → s.clashes p dies = false) (waits : valid = 0 → s.binding p = true) (room : s.changes.length < 4) :
    (s.bindChange p dies tag valid ws none).2 = s.enqueued (s.boundBy p dies valid ws) := by
  have clear : (decide (valid = 1) && s.clashes p dies) = false := by
    rcases Decidable.em (valid = 1) with one | other
    · rw [alone one, Bool.and_false]
    · rw [decide_eq_false other, Bool.false_and]
  have later : (decide (valid = 0) && !s.binding p) = false := by
    rcases Decidable.em (valid = 0) with zero | other
    · rw [waits zero, Bool.not_true, Bool.and_false]
    · rw [decide_eq_false other, Bool.false_and]
  simp only [State.bindChange, free, clear, Bool.not_false, Bool.true_and, Option.isNone_none, Bool.and_true, later, Bool.false_eq_true, if_false,
    Bool.false_and, Bool.true_or, State.requestChange_enqueued room, List.nil_append, State.boundBy]

theorem State.bindChange_clashes (s : State) (p dies tag : Nat) (ws : List (FieldRef × Nat)) (clash : s.clashes p dies = true) :
    (s.bindChange p dies tag 1 ws none).2 = s.wr .alcAlstatParterr 1 := by
  simp only [State.bindChange, clash, decide_true, Bool.and_self, if_true]

/-- What a change that joins those that wait leaves. -/
theorem State.enqueued_lands (s : State) (c : Change) :
    (s.commit (s.enqueued c)).changes = s.changes ++ [c] ∧ s.sameRegsBut (s.commit (s.enqueued c)) [⟨.fltCmtQueued, 0, 0⟩] ∧
      s.sameTabsBut (s.commit (s.enqueued c)) [] :=
  ⟨s.changes_enqueued c, State.sameRegs_commit (s.sameRegs_enqueued c), State.sameTabs_commit (s.sameTabs_enqueued c)⟩

theorem State.inForce_of_zero {s : State} {p : Nat} (h : s.rd .alcPartBindValid 0 p = 0) : s.inForce p = false := by
  rw [State.inForce, State.flag, h]
  rfl

theorem partDies_exists {p : Nat} (h : p < 16) : (⟨.alcPartDies, 0, p⟩ : FieldRef).exists = true := by
  have one : Field.instances .alcPartDies = 1 := rfl
  have all : (fieldDef .alcPartDies).count = 16 := rfl
  have blk : (fieldDef .alcPartDies).blk = .alc := rfl
  simp [FieldRef.exists, one, all, blk, h]

theorem partCap_exists {p : Nat} (h : p < 16) : (⟨.alcPartCap, 0, p⟩ : FieldRef).exists = true := by
  have one : Field.instances .alcPartCap = 1 := rfl
  have all : (fieldDef .alcPartCap).count = 16 := rfl
  have blk : (fieldDef .alcPartCap).blk = .alc := rfl
  simp [FieldRef.exists, one, all, blk, h]

section Write
variable {s : State} (port : Port) {p : Part} {v : Word} (hs : s.aon = true) (h : s.rd .alcPartBindValid 0 p.val = 0)
include hs

include h in
theorem partitionDies_lands (idle : s.binding p.val = false) :
    ∃ t, exec (.partitionWrite port p .dies v) s = .next t ∧ t.rd .alcPartDies 0 p.val = v.toNat ∧
      s.onlyChanges t [⟨.alcPartDies, 0, p.val⟩] [] := by
  have free : s.inForce p.val = false := State.inForce_of_zero h
  have moved : s.partitionWrite p.val .dies v.toNat = s.wr .alcPartDies v.toNat 0 p.val := by
    rw [State.partitionWrite, h]
    exact s.bindChange_lands _ _ _ _ free idle
  refine ⟨_, exec_partitionWrite port p .dies v hs, ?_, ?_⟩
  · rw [State.rd_commit _ _ _ _ _ rfl, moved, State.rd_wr_same _ _ _ _ _ (partDies_exists p.isLt)]
    exact Nat.mod_eq_of_lt v.isLt
  · rw [moved]
    exact State.onlyChanges_commit (State.onlyChanges_wr (s.onlyChanges_refl _ _) _ _ _ _ List.mem_cons_self)

include h in
theorem partitionDies_waits (busy : s.binding p.val = true) (room : s.changes.length < 4) :
    ∃ t c, exec (.partitionWrite port p .dies v) s = .next t ∧ t.changes = s.changes ++ [c] ∧
      c.writes = [(⟨.alcPartDies, 0, p.val⟩, v.toNat)] ∧ s.sameRegsBut t [⟨.fltCmtQueued, 0, 0⟩] ∧ s.sameTabsBut t [] := by
  have free : s.inForce p.val = false := State.inForce_of_zero h
  have moved : s.partitionWrite p.val .dies v.toNat = s.enqueued (s.boundBy p.val v.toNat 0 [(⟨.alcPartDies, 0, p.val⟩, v.toNat)]) := by
    rw [State.partitionWrite, h]
    exact s.bindChange_waits _ _ _ _ free (nomatch ·) (fun _ => busy) room
  obtain ⟨changes, regs, tabs⟩ := s.enqueued_lands (s.boundBy p.val v.toNat 0 [(⟨.alcPartDies, 0, p.val⟩, v.toNat)])
  rw [← moved] at changes regs tabs
  exact ⟨_, _, exec_partitionWrite port p .dies v hs, changes, rfl, regs, tabs⟩

include h in
theorem partitionBind_waits (valid : v.toNat / 2 ^ 16 % 2 = 1) (alone : s.clashes p.val (s.rd .alcPartDies 0 p.val) = false)
    (room : s.changes.length < 4) :
    ∃ t c, exec (.partitionWrite port p .bind v) s = .next t ∧ t.changes = s.changes ++ [c] ∧ c.kind = .bind p.val false true ∧
      c.writes = [(⟨.alcPartBindTag, 0, p.val⟩, v.toNat % 2 ^ 16), (⟨.alcPartBindValid, 0, p.val⟩, 1)] ∧ t.inForce p.val = false ∧
      s.sameRegsBut t [⟨.fltCmtQueued, 0, 0⟩] ∧ s.sameTabsBut t [] := by
  have free : s.inForce p.val = false := State.inForce_of_zero h
  have moved : s.partitionWrite p.val .bind v.toNat = s.enqueued (s.boundBy p.val (s.rd .alcPartDies 0 p.val) 1
      [(⟨.alcPartBindTag, 0, p.val⟩, v.toNat % 2 ^ 16), (⟨.alcPartBindValid, 0, p.val⟩, 1)]) := by
    rw [State.partitionWrite]
    simp only [valid]
    exact s.bindChange_waits _ _ _ _ free (fun _ => alone) (nomatch ·) room
  obtain ⟨changes, regs, tabs⟩ := s.enqueued_lands (s.boundBy p.val (s.rd .alcPartDies 0 p.val) 1
    [(⟨.alcPartBindTag, 0, p.val⟩, v.toNat % 2 ^ 16), (⟨.alcPartBindValid, 0, p.val⟩, 1)])
  rw [← moved] at changes regs tabs
  refine ⟨_, _, exec_partitionWrite port p .bind v hs, changes, rfl, rfl, ?_, regs, tabs⟩
  have same := regs ⟨.alcPartBindValid, 0, p.val⟩ (by simp)
  exact State.inForce_of_zero (same.trans h)

theorem partitionBind_clashes (valid : v.toNat / 2 ^ 16 % 2 = 1) (clash : s.clashes p.val (s.rd .alcPartDies 0 p.val) = true) :
    ∃ t, exec (.partitionWrite port p .bind v) s = .next t ∧ t.flag .alcAlstatParterr = true ∧
      s.onlyChanges t [⟨.alcAlstatParterr, 0, 0⟩] [] := by
  have moved : s.partitionWrite p.val .bind v.toNat = s.wr .alcAlstatParterr 1 := by
    rw [State.partitionWrite]
    simp only [valid]
    exact s.bindChange_clashes _ _ _ _ clash
  refine ⟨_, exec_partitionWrite port p .bind v hs, ?_, ?_⟩
  · rw [State.flag, State.rd_commit _ _ _ _ _ rfl, moved]
    exact s.flag_wr_one (f := .alcAlstatParterr) rfl rfl
  · rw [moved]
    exact State.onlyChanges_commit (State.onlyChanges_wr (s.onlyChanges_refl _ _) _ _ _ _ List.mem_cons_self)

end Write

/-! ## Changes of two phases (R290, R291) -/

/-- A change staged by a die agent and acknowledged, with what it lowers lowered at once. -/
def State.prepared (s : State) (c : Change) (d : Nat) : State :=
  (s.puts (c.writes.filter s.lowers)).updDie d fun x => { x with staged := some c.gen, acks := x.acks ++ [c.gen] }

theorem exec_prepare {s : State} {d : CDie} {c : Change} (hs : s.aon = true) (h : s.change = some c) (mem : d.val ∈ c.dies)
    (power : (s.die d.val).powered = true) : exec (.twoPhasePrepare d) s = .next (s.commit (s.prepared c d.val)) := by
  have mem : c.dies.contains d.val = true := List.contains_iff_mem.2 mem
  change execTwoPhasePrepare d s = _
  rw [execTwoPhasePrepare, State.run_on _ hs]
  simp only [h, mem, power, Bool.and_self, if_true]
  rfl

theorem State.die_puts (s : State) (l : List (FieldRef × Nat)) (d : Nat) : (s.puts l).die d = s.die d :=
  State.puts_other (g := fun t : State => t.die d) (fun _ _ => rfl) (fun _ _ => rfl) s l

theorem State.sameTabs_puts (s : State) (l : List (FieldRef × Nat)) : s.sameTabsBut (s.puts l) [] := by
  intro x _
  rw [State.puts_other (g := fun t : State => s.sameIn t x) (fun _ _ => by cases x <;> rfl) (fun _ _ => by cases x <;> rfl)]
  exact State.sameIn_refl s x

theorem State.core_puts (s : State) (l : List (FieldRef × Nat)) : (s.puts l).core = s.core :=
  State.puts_other (g := State.core) (fun _ _ => rfl) (fun _ _ => rfl) s l

theorem prepare_lands {s : State} {d : CDie} {c : Change} (hs : s.aon = true) (h : s.change = some c) (mem : d.val ∈ c.dies)
    (power : (s.die d.val).powered = true) :
    ∃ t, exec (.twoPhasePrepare d) s = .next t ∧ (t.die d.val).staged = some c.gen ∧ (t.die d.val).acks = (s.die d.val).acks ++ [c.gen] ∧
      t.core = s.core ∧ s.sameTabsBut t [.dies] := by
  have die : (s.prepared c d.val).die d.val = { s.die d.val with staged := some c.gen, acks := (s.die d.val).acks ++ [c.gen] } := by
    rw [State.prepared, State.die_updDie, if_pos rfl, State.die_puts]
  have core : (s.prepared c d.val).core = s.core := s.core_puts _
  have pending : (s.prepared c d.val).pending = s.pending := (congrArg (fun x => x.pending) core :)
  have now : (s.prepared c d.val).now = s.now := (congrArg (fun x => x.now) core :)
  refine ⟨_, exec_prepare hs h mem power, ?_, ?_, ?_, State.sameTabs_commit fun x hx => ?_⟩
  · rw [State.die_commit, die]
  · rw [State.die_commit, die]
  · rw [State.core_commit pending now, core]
  · have kept := s.sameTabs_puts (c.writes.filter s.lowers) x List.not_mem_nil
    cases x
    case dies => exact absurd List.mem_cons_self hx
    all_goals exact kept

/-- A change with one die agent's commit noted. -/
def State.committedBy (s : State) (c : Change) (d : Nat) : Change :=
  { (if c.committed.isEmpty then s.markChange c else c) with committed := c.committed ++ [d] }

/-- What the first commit puts in force. -/
def State.inEffect (s : State) (c : Change) : State := if c.committed.isEmpty then s.effectChange c else s

/-- A die agent's commit of a change. -/
def State.commits (s : State) (c : Change) (d : Nat) : State :=
  ({ s.inEffect c with change := some (s.committedBy c d) }).updDie d fun x => { x with staged := none }

/-- The last commit of a change ends it. -/
def State.ends (s : State) (c : Change) (d : Nat) : State :=
  if c.dies.all fun x => (c.committed ++ [d]).contains x then (s.commits c d).endChange (s.committedBy c d) 0 else s.commits c d

section Commit
variable {s : State} {d : CDie} {c : Change} (hs : s.aon = true) (h : s.change = some c)

include hs h in
theorem exec_commit (acked : ∀ x ∈ c.dies, x ∈ c.acked) (mem : d.val ∈ c.dies) (first : d.val ∉ c.committed) :
    exec (.twoPhaseCommit d) s = .next (s.commit (s.ends c d.val)) := by
  have gate : (c.dies.all (fun x => c.acked.contains x) && c.dies.contains d.val && !c.committed.contains d.val) = true := by
    simpa using ⟨⟨acked, mem⟩, first⟩
  change execTwoPhaseCommit d s = _
  rw [execTwoPhaseCommit, State.run_on _ hs]
  simp only [h, gate, if_true]
  rfl

theorem State.change_endChange (s : State) (c : Change) (st : Nat) : (s.endChange c st).change = none := by
  unfold State.endChange
  dsimp only
  split
  · exact complete_blind blind_change _ _ _ _ _
  · rfl

/-- The end of a change completes its command and no more. -/
theorem endChange_other {α : Type} {g : State → α} (complete : ∀ s n cid st r, g (State.complete s n cid st r) = g s)
    (change : ∀ s x, g { s with change := x } = g s) (s : State) (c : Change) (st : Nat) : g (s.endChange c st) = g s := by
  unfold State.endChange
  dsimp only
  split
  · rw [complete, change]
  · exact change s none

theorem State.staged_endChange (s : State) (c : Change) (st x : Nat) : ((s.endChange c st).die x).staged = (s.die x).staged := by
  have blind : FaultBlind fun t : State => (t.die x).staged := by apply blind_of <;> intros <;> rfl
  exact endChange_other (g := fun t : State => (t.die x).staged) (complete_blind blind) (by intros; rfl) s c st

theorem State.now_endChange (s : State) (c : Change) (st : Nat) : (s.endChange c st).now = s.now :=
  endChange_other (g := State.now) (complete_blind blind_now) (by intros; rfl) s c st

theorem State.gen_committedBy (s : State) (c : Change) (d : Nat) : (s.committedBy c d).gen = c.gen := by
  unfold State.committedBy
  dsimp only
  split
  · unfold State.markChange
    split <;> rfl
  · rfl

theorem State.rd_endChange (s : State) (c : Change) (st : Nat) {f : Field} (i j : Nat) (hn : noticeField f = false) (ht : trafficField f = false) :
    (s.endChange c st).rd f i j = s.rd f i j :=
  endChange_other (complete_traffic (traffic_rd i j hn ht)) (by intros; rfl) s c st

theorem State.rd_ends (s : State) (c : Change) (d : Nat) {f : Field} (i j : Nat) (hn : noticeField f = false) (ht : trafficField f = false) :
    (s.ends c d).rd f i j = (s.inEffect c).rd f i j := by
  unfold State.ends
  split
  · rw [State.rd_endChange _ _ _ _ _ hn ht]
    exact State.rd_updDie _ _ _ _ _ _
  · exact State.rd_updDie _ _ _ _ _ _

theorem State.inEffect_first {s : State} {c : Change} (h : c.committed = []) : s.inEffect c = s.effectChange c := by
  rw [State.inEffect, h]
  rfl

theorem State.cmtState_effectChange (s : State) (c : Change) : (s.effectChange c).rd .fltCmtState = 2 := by
  unfold State.effectChange
  exact State.rd_wr_same _ .fltCmtState 2 0 0 rfl

theorem State.effectChange_policy (s : State) {c : Change} {p : Nat} (h : c.kind = .policy p) :
    s.effectChange c = (s.puts c.writes).wr .fltCmtState 2 := by
  rw [State.effectChange, h]

theorem State.rd_put_cap (s : State) {p : Nat} (hp : p < 16) (v : Nat) :
    (s.puts [(⟨.alcPartCap, 0, p⟩, v)]).rd .alcPartCap 0 p = v % 2 ^ (fieldDef .alcPartCap).width :=
  s.rd_wr_same .alcPartCap v 0 p (partCap_exists hp)

include hs h in
theorem commit_lands (acked : ∀ x ∈ c.dies, x ∈ c.acked) (mem : d.val ∈ c.dies) (first : d.val ∉ c.committed) :
    ∃ t, exec (.twoPhaseCommit d) s = .next t ∧ (t.die d.val).staged = none ∧
      (if ∀ x ∈ c.dies, x ∈ c.committed ++ [d.val] then t.change = none
        else ∃ c', t.change = some c' ∧ c'.committed = c.committed ++ [d.val] ∧ c'.gen = c.gen) ∧
      (c.committed = [] → t.rd .fltCmtState = 2) ∧
      ∀ p v, c.committed = [] → c.kind = .policy p → p < 16 → c.writes = [(⟨.alcPartCap, 0, p⟩, v)] →
        t.rd .alcPartCap 0 p = v % 2 ^ (fieldDef .alcPartCap).width := by
  have staged : ((s.commits c d.val).die d.val).staged = none := by
    rw [State.commits, State.die_updDie, if_pos rfl]
  have last : (c.dies.all fun x => (c.committed ++ [d.val]).contains x) = true ↔ ∀ x ∈ c.dies, x ∈ c.committed ++ [d.val] := by
    simp only [List.all_eq_true, List.contains_iff_mem]
  refine ⟨_, exec_commit hs h acked mem first, ?_, ?_, fun new => ?_, fun p v new policy hp writes => ?_⟩
  · rw [State.die_commit, State.ends]
    split
    · rw [State.staged_endChange, staged]
    · exact staged
  · have change : (s.commit (s.ends c d.val)).change = (s.ends c d.val).change := rfl
    rw [change, State.ends]
    by_cases all : ∀ x ∈ c.dies, x ∈ c.committed ++ [d.val]
    · rw [if_pos all, if_pos (last.2 all), State.change_endChange]
    · rw [if_neg all, if_neg fun h => all (last.1 h)]
      exact ⟨s.committedBy c d.val, rfl, rfl, s.gen_committedBy c d.val⟩
  · rw [State.rd_commit _ _ _ _ _ rfl, State.rd_ends _ _ _ _ _ rfl rfl, State.inEffect_first new, State.cmtState_effectChange]
  · rw [State.rd_commit _ _ _ _ _ rfl, State.rd_ends _ _ _ _ _ rfl rfl, State.inEffect_first new, State.effectChange_policy s policy, writes,
      State.rd_wr_field _ _ _ _ _ _ (by decide), State.rd_put_cap s hp]

end Commit

/-! ## A change rolled back at 5 µs -/

/-- A change's fields as they stood before it, at 5 µs, and nothing staged. -/
def State.unstaged (s : State) (c : Change) : State :=
  ((s.advanceTo (c.start + 5000)).puts c.before).each c.dies fun s d => s.updDie d fun x => { x with staged := none }

/-- A change rolled back, with its fault. -/
def State.rolledBack (s : State) (c : Change) : State :=
  ((s.unstaged c).wr .fltCmtState 3).raise (corr 18 1 (40 + s.active) 9)

section Abort
variable {s : State} {c : Change}

theorem exec_abort (hs : s.aon = true) (h : s.change = some c) (missing : ∃ x ∈ c.dies, x ∉ c.acked) :
    exec .twoPhaseAbort s = .next (s.commit ((s.rolledBack c).endChange c 5)) := by
  have gate : (c.dies.all fun x => c.acked.contains x) = false := by
    obtain ⟨x, hx, out⟩ := missing
    simp only [List.all_eq_false, List.contains_iff_mem]
    exact ⟨x, hx, out⟩
  change execTwoPhaseAbort s = _
  rw [execTwoPhaseAbort, State.run_on _ hs]
  simp only [h, gate, Bool.false_eq_true, if_false]
  rfl

/-- What neither the fields put back nor the die agents' staging touch stands as it does at 5 µs. -/
theorem unstaged_other {α : Type} {g : State → α} (hr : ∀ s x, g { s with regs := x } = g s) (hl : ∀ s x, g { s with limits := x } = g s)
    (hd : ∀ s x, g { s with dies := x } = g s) (s : State) (c : Change) : g (s.unstaged c) = g (s.advanceTo (c.start + 5000)) := by
  exact (each_blind (g := g) _ _ (fun t _ => hd t _) _).trans (State.puts_other hr hl _ _)

theorem State.rd_unstaged (s : State) (c : Change) (f : Field) (i j : Nat) :
    (s.unstaged c).rd f i j = ((s.advanceTo (c.start + 5000)).puts c.before).rd f i j :=
  each_blind (g := fun t : State => t.rd f i j) _ _ (fun t x => State.rd_updDie t x _ f i j) _

theorem State.staged_unstaged (s : State) (c : Change) {x : Nat} (hx : x ∈ c.dies) : ((s.unstaged c).die x).staged = none := by
  refine State.each_sets (P := fun t => (t.die x).staged = none) hx (fun t => ?_) (fun t y kept => ?_) _
  · rw [State.die_updDie, if_pos rfl]
  · rw [State.die_updDie]
    split
    · rfl
    · exact kept

theorem State.staged_rolledBack (s : State) (c : Change) {x : Nat} (hx : x ∈ c.dies) : ((s.rolledBack c).die x).staged = none := by
  have blind : FaultBlind fun t : State => (t.die x).staged := by apply blind_of <;> intros <;> rfl
  have wrote (t : State) : ((t.wr .fltCmtState 3).die x).staged = (t.die x).staged :=
    State.put_other (fun t : State => (t.die x).staged) (fun _ _ => rfl) (fun _ _ => rfl) t _ _
  rw [State.rolledBack, raise_blind blind _ _ FaultClass.noConfusion, wrote]
  exact s.staged_unstaged c hx

theorem abort_lands (hs : s.aon = true) (h : s.change = some c) (missing : ∃ x ∈ c.dies, x ∉ c.acked) :
    ∃ t, exec .twoPhaseAbort s = .next t ∧ t.change = none ∧ t.rd .fltCmtState = 3 ∧ c.start + 5000 ≤ t.now ∧
      (∀ x ∈ c.dies, (t.die x).staged = none) ∧
      (∀ p v, p < 16 → c.before = [(⟨.alcPartCap, 0, p⟩, v)] →
        t.rd .alcPartCap 0 p = v % 2 ^ (fieldDef .alcPartCap).width ∧ t.rd .fltCorr = s.oneUp .fltCorr) := by
  refine ⟨_, exec_abort hs h missing, State.change_endChange _ _ _, ?_, ?_, fun x hx => ?_, fun p v hp before => ⟨?_, ?_⟩⟩
  · rw [State.rd_commit _ _ _ _ _ rfl, State.rd_endChange _ _ _ _ _ rfl rfl, State.rolledBack, rd_raise _ _ _ _ _ FaultClass.noConfusion rfl]
    exact State.rd_wr_same _ .fltCmtState 3 0 0 rfl
  · have now : ((s.rolledBack c).endChange c 5).now = max s.now (c.start + 5000) := by
      rw [State.now_endChange, State.rolledBack, raise_blind blind_now _ _ FaultClass.noConfusion, State.wr_now,
        unstaged_other (g := State.now) (by intros; rfl) (by intros; rfl) (by intros; rfl), State.advanceTo_now]
    rw [State.commit_now, now]
    omega
  · rw [State.die_commit, State.staged_endChange, State.staged_rolledBack s c hx]
  · rw [State.rd_commit _ _ _ _ _ rfl, State.rd_endChange _ _ _ _ _ rfl rfl, State.rolledBack, rd_raise _ _ _ _ _ FaultClass.noConfusion rfl,
      State.rd_wr_field _ _ _ _ _ _ (by decide), State.rd_unstaged, before, State.rd_put_cap _ hp]
  · have kept : ((s.unstaged c).wr .fltCmtState 3).rd .fltCorr = s.rd .fltCorr := by
      rw [State.rd_wr_field _ _ _ _ _ _ (by decide), State.rd_unstaged, before, State.rd_puts_other _ _ _ (by simp),
        State.rd_advanceTo _ _ _ _ (by decide)]
    rw [State.rd_commit _ _ _ _ _ rfl, State.rd_endChange _ _ _ _ _ rfl rfl, State.rolledBack, State.fltCorr_raise_corrected _ rfl, State.oneUp,
      kept, State.oneUp]

end Abort

/-- Settles O39: a partition's write is a put or one more change, and each of the three commands of a change moves its lists by one die agent. -/
theorem partitionsAndChanges : Obligations.PartitionsAndChanges :=
  ⟨fun _ port _ _ hs h => ⟨partitionDies_lands port hs h, partitionDies_waits port hs h, partitionBind_waits port hs h,
    partitionBind_clashes port hs⟩,
   fun _ _ _ hs h => ⟨prepare_lands hs h, commit_lands hs h, abort_lands hs h⟩⟩

end Sys2Proof.Machine

/-!
Settles O40: the Hearth boundary and its run move registers, the dies' readings and the Hearth's own record of each die; what the boundary notes
and what a run commits is read off the step that writes it.
-/

namespace Sys2Proof.Machine

/-! ## The bin fixed, and time -/

theorem State.hearth_fixBin {α : Type} {p : HearthState → α}
    (hp : ∀ h bins e1 e30 peak, p { h with bins := bins, e1 := e1, e30 := e30, closing := none, secPeak := peak } = p h) (s : State) :
    p s.fixBin.hearth = p s.hearth := by
  unfold State.fixBin
  split
  · rfl
  · exact (congrArg p ((State.wr_hearth _ _ _ _ _).trans (State.wr_hearth _ _ _ _ _))).trans (hp s.hearth _ _ _ _)

theorem State.rd_fixBin (s : State) {f : Field} (i j : Nat) (h1 : .hrtE1 ≠ f) (h30 : .hrtE30 ≠ f) : s.fixBin.rd f i j = s.rd f i j := by
  unfold State.fixBin
  split
  · rfl
  · dsimp only
    rw [State.rd_wr_field _ _ _ _ _ _ h30, State.rd_wr_field _ _ _ _ _ _ h1]
    rfl

/-- What a fixed bin reaches beside the Hearth and the limits: two registers. -/
theorem State.fixBin_other {α : Type} {g : State → α} (put : ∀ (s : State) r v, g (s.put r v) = g s) (hearth : ∀ s x, g { s with hearth := x } = g s)
    (lim : ∀ s x, g { s with lim := x } = g s) (s : State) : g s.fixBin = g s := by
  have fixed (h : HearthState) (l : LimState) : g { s with hearth := h, lim := l } = g s := (lim { s with hearth := h } l).trans (hearth s h)
  unfold State.fixBin
  split
  · rfl
  · exact (put _ _ _).trans ((put _ _ _).trans (fixed _ _))

theorem State.lim_fixBin {α : Type} {p : LimState → α}
    (hp : ∀ l since30 since1 leave30 leave1, p { l with since30 := since30, since1 := since1, leave30 := leave30, leave1 := leave1 } = p l)
    (s : State) : p s.fixBin.lim = p s.lim := by
  unfold State.fixBin
  split
  · rfl
  · exact (congrArg p ((State.wr_lim _ _ _ _ _).trans (State.wr_lim _ _ _ _ _))).trans (hp s.lim _ _ _ _)

theorem State.now_fixBin (s : State) : s.fixBin.now = s.now :=
  State.fixBin_other (g := State.now) State.put_now (by intros; rfl) (by intros; rfl) s

theorem State.sameTabs_fixBin (s : State) : s.sameTabsBut s.fixBin [] := by
  intro x _
  have put (n : State) (r : FieldRef) (v : Nat) : s.sameIn (n.put r v) x = s.sameIn n x :=
    State.put_other (fun n => s.sameIn n x) (fun _ _ => by cases x <;> rfl) (fun _ _ => by cases x <;> rfl) n r v
  rw [State.fixBin_other (g := fun n => s.sameIn n x) put (fun _ _ => by cases x <;> rfl) (fun _ _ => by cases x <;> rfl)]
  exact s.sameIn_refl x

/-! ## The Hearth boundary (R226 to R228, R230) -/

/-- One gain moved, where its step gives one (R56). -/
def State.withGain (s : State) (x : GainStep) : State := match x.2.2 with | some g => s.put x.1 g | none => s

/-- A reading of the state that a millisecond's measurements do not touch: they move registers, the dies' and the rails' sums, and what the Hearth
keeps of each die. -/
structure MsBlind {α : Type} (g : State → α) : Prop where
  put : ∀ s r v, g (State.put s r v) = g s
  dies : ∀ s x, g { s with dies := x } = g s
  rails : ∀ s x, g { s with rails := x } = g s
  kept : ∀ s x, g { s with hearth := { s.hearth with dies := x } } = g s

section Ms
variable {α : Type} {g : State → α} (hg : MsBlind g)
include hg

theorem puts_ms (s : State) (l : List (FieldRef × Nat)) : g (s.puts l) = g s := by
  induction l generalizing s with
  | nil => rfl
  | cons e l ih => exact (ih _).trans (hg.put s _ _)

theorem tel1ms_ms (s : State) (r : Nat) : g (s.tel1ms r) = g s := by
  have means (x : RailSums) (v i p t : Field) : g (s.telMeans r x v i p t) = g s := by
    unfold State.telMeans
    dsimp only
    split
    · rfl
    · exact puts_ms hg _ _
  exact (hg.rails _ _).trans (means _ _ _ _ _)

theorem withGain_ms (s : State) (x : GainStep) : g (s.withGain x) = g s := by
  unfold State.withGain
  split
  · exact hg.put s _ _
  · rfl

theorem calibrate_ms (s : State) (d : Nat) (l : List GainStep) : g (s.calibrate d l) = g s := by
  have shown (t : State) (stuck calm : Prop) [Decidable stuck] [Decidable calm] :
      g (if stuck then t.wr .dagEcalConv 0 d else if calm then t.wr .dagEcalConv 1 d else t) = g t := by
    split
    · exact hg.put _ _ _
    · split
      · exact hg.put _ _ _
      · rfl
  unfold State.calibrate
  dsimp only
  split
  · rfl
  · exact (shown _ _ _).trans ((hg.dies _ _).trans ((hg.put _ _ _).trans (each_blind (g := g) _ _ (withGain_ms hg) s)))

theorem latchDie_ms (s : State) (d : Nat) : g (s.latchDie d) = g s := by
  unfold State.latchDie
  split
  · exact hg.kept s _
  · exact (hg.dies _ _).trans ((hg.put _ _ _).trans (hg.kept s _))

end Ms

/-- The millisecond that a boundary now is. -/
def State.boundaryMs (s : State) : Nat := max (s.fixBin.hearth.ms + 1) ((s.fixBin.now + 999999) / 1000000)

/-- The rails' means of the millisecond. -/
def State.msMeasured (s : State) : State := (s.fixBin.advanceTo (1000000 * s.boundaryMs)).each (upto 60) State.tel1ms

/-- The gains moved, and each die's sums latched. -/
def State.msLatched (s : State) : State :=
  (s.msMeasured.each ((upto 40).map fun d => (d, s.msMeasured.gainSteps d)) fun s x => s.calibrate x.1 x.2).each (upto 40) State.latchDie

/-- The millisecond's bin closed. -/
def State.msClosed (s : State) : State := s.msLatched.closeBin s.boundaryMs

/-- The rails no longer disturbed. -/
def State.railsCalm (s : State) : State := s.each (upto 60) fun s r => s.updRail r fun x => { x with disturbed := false }

theorem exec_hearthBoundary {s : State} (hs : s.aon = true) : exec .hearthBoundary s = .next (s.commit s.msClosed.railsCalm) :=
  State.run_on (fun s => s.msClosed.railsCalm) hs

theorem msLatched_ms {α : Type} {g : State → α} (hg : MsBlind g) (s : State) : g s.msLatched = g (s.fixBin.advanceTo (1000000 * s.boundaryMs)) := by
  rw [State.msLatched, each_blind (g := g) _ _ (latchDie_ms hg), each_blind (g := g) _ (fun (s : State) (x : Nat × List GainStep) => s.calibrate x.1 x.2) fun t x => calibrate_ms hg t x.1 x.2, State.msMeasured,
    each_blind (g := g) _ _ (tel1ms_ms hg)]

theorem railsCalm_other {α : Type} {g : State → α} (rails : ∀ s x, g { s with rails := x } = g s) (s : State) : g s.railsCalm = g s :=
  each_blind (g := g) _ _ (fun t _ => rails t _) s

theorem ms_now : MsBlind State.now := ⟨by intros; exact State.put_now _ _ _, by intros; rfl, by intros; rfl, by intros; rfl⟩
theorem ms_hearth {α : Type} {p : HearthState → α} (hp : ∀ h x, p { h with dies := x } = p h) : MsBlind fun s : State => p s.hearth :=
  ⟨fun s r v => congrArg p (State.put_hearth s r v), by intros; rfl, by intros; rfl, fun s => hp s.hearth⟩
theorem ms_lim : MsBlind State.lim := ⟨by intros; exact State.put_lim _ _ _, by intros; rfl, by intros; rfl, by intros; rfl⟩

theorem State.hearth_advanceTo (s : State) (t : Nat) : (s.advanceTo t).hearth = s.hearth :=
  State.advanceTo_other State.hearth State.put_hearth (by intros; rfl) (by intros; rfl) s t

theorem State.lim_advanceTo (s : State) (t : Nat) : (s.advanceTo t).lim = s.lim :=
  State.advanceTo_other State.lim State.put_lim (by intros; rfl) (by intros; rfl) s t

/-- What the Hearth keeps beside each die's record stands through the millisecond's measurements. -/
theorem State.hearth_msLatched {α : Type} {p : HearthState → α} (hd : ∀ h x, p { h with dies := x } = p h)
    (hp : ∀ h bins e1 e30 peak, p { h with bins := bins, e1 := e1, e30 := e30, closing := none, secPeak := peak } = p h) (s : State) :
    p s.msLatched.hearth = p s.hearth := by
  rw [msLatched_ms (ms_hearth hd), State.hearth_advanceTo, State.hearth_fixBin hp]

theorem State.now_msLatched (s : State) : s.msLatched.now = 1000000 * s.boundaryMs := by
  rw [msLatched_ms ms_now, State.advanceTo_now, State.boundaryMs, State.now_fixBin]
  omega

/-- The limits in force at the boundary are those in force before it: only the bins fixed have moved. -/
theorem State.lim_msLatched {α : Type} {p : LimState → α}
    (hp : ∀ l since30 since1 leave30 leave1, p { l with since30 := since30, since1 := since1, leave30 := leave30, leave1 := leave1 } = p l)
    (s : State) : p s.msLatched.lim = p s.lim := by
  rw [msLatched_ms ms_lim, State.lim_advanceTo, State.lim_fixBin hp]

theorem State.hearth_commit (s n : State) : (s.commit n).hearth = n.hearth := rfl

theorem State.hearth_railsCalm (s : State) : s.railsCalm.hearth = s.hearth :=
  railsCalm_other (g := State.hearth) (by intros; rfl) s

theorem State.sameIn_closeBin (s n : State) (m : Nat) (x : Tab) : s.sameIn (n.closeBin m) x = s.sameIn n x := by
  cases x <;> rfl

theorem State.sAt_closeBin (s : State) (m : Nat) : (s.closeBin m).hearth.sAt = s.lim.s := rfl
theorem State.w1At_closeBin (s : State) (m : Nat) : (s.closeBin m).hearth.w1At = s.lim.w1 := rfl
theorem State.now_closeBin (s : State) (m : Nat) : (s.closeBin m).now = s.now := rfl

theorem State.sameTabs_msClosed (s : State) : s.sameTabsBut s.msClosed.railsCalm [.dies, .rails] := by
  intro x hx
  have put (n : State) (r : FieldRef) (v : Nat) : s.sameIn (n.put r v) x = s.sameIn n x :=
    State.put_other (fun n => s.sameIn n x) (fun _ _ => by cases x <;> rfl) (fun _ _ => by cases x <;> rfl) n r v
  have blind : MsBlind fun n => s.sameIn n x := by
    refine ⟨put, fun n y => ?_, fun n y => ?_, fun n y => ?_⟩
    · cases x <;> simp at hx <;> rfl
    · cases x <;> simp at hx <;> rfl
    · cases x <;> rfl
  rw [railsCalm_other (g := fun n => s.sameIn n x) blind.rails, State.msClosed, State.sameIn_closeBin, msLatched_ms blind,
    State.advanceTo_other (fun n => s.sameIn n x) put (fun _ _ => by cases x <;> rfl) (fun _ _ => by cases x <;> rfl)]
  exact s.sameTabs_fixBin x List.not_mem_nil

/-- A run is due once the firmware has run for a millisecond, and can be made once the role has been held for one. -/
theorem State.due_closeBin (s : State) (m : Nat) :
    (s.hearth.fwSince = none → (s.closeBin m).hearth.due = false) ∧
      ∀ f, s.hearth.fwSince = some f → ((s.closeBin m).hearth.due = true ↔ f + 1000000 ≤ 1000000 * m) := by
  constructor
  · intro h
    simp only [State.closeBin, h]
  · intro f h
    simp only [State.closeBin, h, decide_eq_true_eq]

theorem State.able_closeBin (s : State) (m : Nat) :
    (s.hearth.roleAt = none → (s.closeBin m).hearth.able = true) ∧
      ∀ f, s.hearth.roleAt = some f → ((s.closeBin m).hearth.able = true ↔ f + 1000000 ≤ 1000000 * m) := by
  constructor
  · intro h
    simp only [State.closeBin, h]
  · intro f h
    simp only [State.closeBin, h, decide_eq_true_eq]

theorem hearthBoundary_lands {s : State} (hs : s.aon = true) :
    ∃ t, exec .hearthBoundary s = .next t ∧ s.hearth.ms < t.hearth.ms ∧ t.now = 1000000 * t.hearth.ms ∧ t.hearth.openBin = 0 ∧
      t.hearth.closing = some s.hearth.openBin ∧ (s.hearth.fwSince = none → t.hearth.due = false) ∧
      (∀ f, s.hearth.fwSince = some f → (t.hearth.due = true ↔ f + 1000000 ≤ t.now)) ∧
      (s.hearth.roleAt = none → t.hearth.able = true) ∧ (∀ f, s.hearth.roleAt = some f → (t.hearth.able = true ↔ f + 1000000 ≤ t.now)) ∧
      t.hearth.sAt = s.lim.s ∧ t.hearth.w1At = s.lim.w1 ∧ t.hearth.inletRun = none ∧ s.sameTabsBut t [.dies, .rails] := by
  have fw : s.msLatched.hearth.fwSince = s.hearth.fwSince := State.hearth_msLatched (p := HearthState.fwSince) (by intros; rfl) (by intros; rfl) s
  have role : s.msLatched.hearth.roleAt = s.hearth.roleAt := State.hearth_msLatched (p := HearthState.roleAt) (by intros; rfl) (by intros; rfl) s
  have bin : s.msLatched.hearth.openBin = s.hearth.openBin := State.hearth_msLatched (p := HearthState.openBin) (by intros; rfl) (by intros; rfl) s
  have ms : s.fixBin.hearth.ms = s.hearth.ms := State.hearth_fixBin (p := HearthState.ms) (by intros; rfl) s
  have shown : (s.commit s.msClosed.railsCalm).hearth = s.msClosed.hearth := by
    rw [State.hearth_commit, State.hearth_railsCalm]
  have now : (s.commit s.msClosed.railsCalm).now = 1000000 * s.boundaryMs := by
    rw [State.commit_now, railsCalm_other (g := State.now) (by intros; rfl), State.msClosed, State.now_closeBin, State.now_msLatched, State.boundaryMs, State.now_fixBin]
    omega
  refine ⟨_, exec_hearthBoundary hs, ?_⟩
  rw [now, shown]
  obtain ⟨never, since⟩ := s.msLatched.due_closeBin s.boundaryMs
  obtain ⟨always, held⟩ := s.msLatched.able_closeBin s.boundaryMs
  rw [fw] at never since
  rw [role] at always held
  refine ⟨?_, rfl, rfl, congrArg some bin, never, since, always, held, ?_, ?_, rfl, State.sameTabs_commit s.sameTabs_msClosed⟩
  · change s.hearth.ms < s.boundaryMs
    rw [State.boundaryMs, ms]
    omega
  · rw [State.msClosed, State.sAt_closeBin, State.lim_msLatched (p := LimState.s) (by intros; rfl)]
  · rw [State.msClosed, State.w1At_closeBin, State.lim_msLatched (p := LimState.w1) (by intros; rfl)]

/-! ## A run committed (R226 to R230) -/

theorem exec_hearthRunCommit_idle {s : State} (hs : s.aon = true) (h : s.hearth.due = false ∨ s.hearth.able = false) :
    exec .hearthRunCommit s = .next (s.commit s) := by
  have gate : (!(s.hearth.due && s.hearth.able)) = true := by
    obtain h | h := h <;> simp [h]
  change execHearthRunCommit s = _
  rw [execHearthRunCommit, State.run_on _ hs]
  simp only [gate, if_true]

/-- The fields that the Hearth's run of a die moves. -/
def runFields : List Field := [.hrtDieTerm, .hrtDieTpred, .hrtDieTmax, .clkDomTgt, .clkStatusDivclamp]

/-- A reading of the state that a die's run does not touch. -/
structure RunBlind {α : Type} (g : State → α) : Prop where
  put : ∀ s (r : FieldRef) v, r.f ∈ runFields → g (State.put s r v) = g s
  kept : ∀ s x, g { s with hearth := { s.hearth with dies := x } } = g s

section Run
variable {α : Type} {g : State → α} (hg : RunBlind g)
include hg

theorem wr_run (s : State) (f : Field) (v i j : Nat) (h : f ∈ runFields) : g (s.wr f v i j) = g s := hg.put s ⟨f, i, j⟩ v h

theorem setDomain_run (s : State) (c div : Nat) : g (s.setDomain c div) = g s := by
  unfold State.setDomain
  dsimp only
  split
  · rw [wr_run hg _ _ _ _ _ (by decide), wr_run hg _ _ _ _ _ (by decide)]
  · exact wr_run hg _ _ _ _ _ (by decide)

theorem stepDomains_run (s : State) (d : Nat) (r : HearthRun) : g (s.stepDomains d r) = g s := by
  have stepped (t : State) (i c : Nat) (up : Bool) : g (t.stepDomainTerm d i c up) = g t := (hg.kept _ _).trans (setDomain_run hg _ _ _)
  have moved (up : Bool) : g (s.each (termDomains d).zipIdx fun s x => s.stepDomainTerm d x.2 x.1 up) = g s :=
    each_blind (g := g) _ (fun (s : State) (x : Nat × Nat) => s.stepDomainTerm d x.2 x.1 up) (fun t x => stepped t _ _ _) s
  unfold State.stepDomains
  dsimp only
  split
  · exact moved true
  · split
    · exact moved false
    · rfl

theorem commitDie_run (s : State) (d : Nat) (r : HearthRun) : g (s.commitDie d r) = g s := by
  have put2 (t : State) (a b : Nat) : g (t.puts [(⟨.hrtDieTerm, 0, d⟩, a), (⟨.hrtDieTpred, 0, d⟩, b)]) = g t :=
    (hg.put _ _ _ (show Field.hrtDieTpred ∈ runFields by decide)).trans (hg.put _ _ _ (show Field.hrtDieTerm ∈ runFields by decide))
  unfold State.commitDie
  dsimp only
  rw [stepDomains_run hg]
  refine (hg.kept _ _).trans ?_
  split
  · rw [wr_run hg _ _ _ _ _ (by decide), put2]
  · exact put2 _ _ _

end Run

/-- The state at the run, the bin fixed. -/
def State.runAt (s : State) : State := s.fixBin.advanceTo (1000000 * s.hearth.ms + 200000)

/-- Every die's term and forecast of the run. -/
def State.runDies (s : State) : State :=
  s.runAt.each ((upto 40).map fun d => (d, s.runAt.hearthSolve d)) fun s x => s.commitDie x.1 x.2

/-- therm_lim and both headrooms of the run. -/
def State.runLimits (s : State) : State := (s.runDies.wr .alcThermlimLim s.runDies.thermLim).replaceCredit

/-- The run counted. -/
def State.runCounted (s : State) : State :=
  s.puts [(⟨.hrtRunSeq, 0, 0⟩, s.rd .hrtRunSeq + 1), (⟨.hrtRunMiss, 0, 0⟩, 0), (⟨.hrtHstatHstale, 0, 0⟩, 0)]

/-- No run due any more. -/
def HearthState.idle (h : HearthState) : HearthState := { h with due := false }

/-- No run due any more. -/
def State.notDue (s : State) : State := { s with hearth := s.hearth.idle }

theorem exec_hearthRunCommit {s : State} (hs : s.aon = true) (due : s.hearth.due = true) (able : s.hearth.able = true) :
    exec .hearthRunCommit s = .next (s.commit s.runLimits.runCounted.notDue) := by
  change execHearthRunCommit s = _
  rw [execHearthRunCommit, State.run_on _ hs]
  simp only [due, able, Bool.and_self, Bool.not_true, Bool.false_eq_true, if_false, State.notDue, HearthState.idle, State.runCounted, State.runLimits,
    State.runDies, State.runAt]

theorem runDies_run {α : Type} {g : State → α} (hg : RunBlind g) (s : State) : g s.runDies = g s.runAt := by
  rw [State.runDies, each_blind (g := g) _ (fun (s : State) (x : Nat × HearthRun) => s.commitDie x.1 x.2) fun t x => commitDie_run hg t x.1 x.2]

theorem run_of {α : Type} {g : State → α} (hr : ∀ s x, g { s with regs := x } = g s) (hl : ∀ s x, g { s with limits := x } = g s)
    (kept : ∀ s x, g { s with hearth := { s.hearth with dies := x } } = g s) : RunBlind g :=
  ⟨fun s r v _ => State.put_other g hr hl s r v, kept⟩

theorem run_rd {f : Field} (i j : Nat) (h : f ∉ runFields) : RunBlind fun s : State => s.rd f i j :=
  ⟨fun s r v hr => State.reg_put_other s v (by rintro rfl; exact h hr), by intros; rfl⟩

theorem State.rd_runAt (s : State) {f : Field} (i j : Nat) (h1 : .hrtE1 ≠ f) (h30 : .hrtE30 ≠ f) (ht : f ∉ timeFields) :
    s.runAt.rd f i j = s.rd f i j := by
  rw [State.runAt, State.rd_advanceTo _ _ _ _ ht, State.rd_fixBin _ _ _ h1 h30]

theorem State.now_runAt (s : State) : s.runAt.now = max s.now (1000000 * s.hearth.ms + 200000) := by
  rw [State.runAt, State.advanceTo_now, State.now_fixBin]

theorem State.hearth_runAt (s : State) : s.runAt.hearth = s.fixBin.hearth := by
  rw [State.runAt, State.hearth_advanceTo]

theorem State.sameTabs_runAt (s : State) : s.sameTabsBut s.runAt [] := by
  intro x _
  have put (n : State) (r : FieldRef) (v : Nat) : s.sameIn (n.put r v) x = s.sameIn n x :=
    State.put_other (fun n => s.sameIn n x) (fun _ _ => by cases x <;> rfl) (fun _ _ => by cases x <;> rfl) n r v
  rw [State.runAt, State.advanceTo_other (fun n => s.sameIn n x) put (fun _ _ => by cases x <;> rfl) (fun _ _ => by cases x <;> rfl)]
  exact s.sameTabs_fixBin x List.not_mem_nil

theorem State.rd_replaceCredit (s : State) {f : Field} (i j : Nat) (h : .alcCredit ≠ f) : s.replaceCredit.rd f i j = s.rd f i j := by
  rw [State.replaceCredit]
  exact State.rd_wr_field _ _ _ _ _ _ h

theorem State.hearth_replaceCredit (s : State) : s.replaceCredit.hearth = s.hearth := State.wr_hearth _ _ _ _ _

/-- Both headrooms formed again from the bins at the noted s and limit. -/
def LimState.reformed (l : LimState) (h : HearthState) : LimState :=
  { l with
    head30 := h.sAt * (30 * 32768000000000) - 4000 * h.e30 + l.since30
    head1 := h.w1At * 32768000000000 - 4000 * h.e1 + l.since1
    s := h.sAt, w1 := h.w1At }

theorem LimState.head30_reformed (l : LimState) (h : HearthState) :
    (l.reformed h).head30 = h.sAt * (30 * 32768000000000) - 4000 * h.e30 + (l.reformed h).since30 := rfl
theorem LimState.head1_reformed (l : LimState) (h : HearthState) :
    (l.reformed h).head1 = h.w1At * 32768000000000 - 4000 * h.e1 + (l.reformed h).since1 := rfl
theorem LimState.s_reformed (l : LimState) (h : HearthState) : (l.reformed h).s = h.sAt := rfl
theorem LimState.w1_reformed (l : LimState) (h : HearthState) : (l.reformed h).w1 = h.w1At := rfl

theorem State.lim_replaceCredit (s : State) : s.replaceCredit.lim = s.lim.reformed s.hearth := by
  rw [State.replaceCredit]
  simp only [Int.mul_assoc]
  exact State.wr_lim _ _ _ _ _

theorem replaceCredit_other {α : Type} {g : State → α} (put : ∀ s r v, g (State.put s r v) = g s) (lim : ∀ s x, g { s with lim := x } = g s)
    (s : State) : g s.replaceCredit = g s := by
  rw [State.replaceCredit, State.showCredit]
  exact (put _ ⟨.alcCredit, 0, 0⟩ _).trans (lim s _)

theorem State.rd_runLimits (s : State) {f : Field} (i j : Nat) (hc : .alcCredit ≠ f) (hl : .alcThermlimLim ≠ f) :
    s.runLimits.rd f i j = s.runDies.rd f i j := by
  rw [State.runLimits, State.rd_replaceCredit _ _ _ hc, State.rd_wr_field _ _ _ _ _ _ hl]

/-- therm_lim is the sum of what the dies' terms and forecasts say. -/
theorem State.thermLim_congr {s t : State} (terms : ∀ d, t.rd .hrtDieTerm 0 d = s.rd .hrtDieTerm 0 d) (halls : ∀ d, t.hd d = s.hd d) :
    t.thermLim = s.thermLim := by
  have fc (d : Nat) : t.dieForecast d = s.dieForecast d := by rw [State.dieForecast, State.dieForecast, halls]
  simp only [State.thermLim, terms, fc]

theorem State.hearth_runCounted (s : State) : s.runCounted.hearth = s.hearth :=
  State.puts_other (g := State.hearth) (by intros; rfl) (by intros; rfl) s _

theorem State.lim_runCounted (s : State) : s.runCounted.lim = s.lim :=
  State.puts_other (g := State.lim) (by intros; rfl) (by intros; rfl) s _

theorem State.rd_runCounted (s : State) {f : Field} (i j : Nat) (h : f ∉ [.hrtRunSeq, .hrtRunMiss, .hrtHstatHstale]) :
    s.runCounted.rd f i j = s.rd f i j := by
  refine s.rd_puts_other i j fun e he => ?_
  simp only [List.mem_cons, List.not_mem_nil, or_false, not_or] at h he
  obtain rfl | rfl | rfl := he
  · exact Ne.symm h.1
  · exact Ne.symm h.2.1
  · exact Ne.symm h.2.2

theorem State.seq_runCounted (s : State) : s.runCounted.rd .hrtRunSeq = (s.rd .hrtRunSeq + 1) % 2 ^ (fieldDef .hrtRunSeq).width := by
  change (((s.wr .hrtRunSeq (s.rd .hrtRunSeq + 1)).wr .hrtRunMiss 0).wr .hrtHstatHstale 0).rd .hrtRunSeq = _
  rw [State.rd_wr_field _ _ _ _ _ _ (by decide), State.rd_wr_field _ _ _ _ _ _ (by decide), State.rd_wr_same _ .hrtRunSeq _ _ _ rfl]

theorem State.miss_runCounted (s : State) : s.runCounted.rd .hrtRunMiss = 0 := by
  change (((s.wr .hrtRunSeq (s.rd .hrtRunSeq + 1)).wr .hrtRunMiss 0).wr .hrtHstatHstale 0).rd .hrtRunMiss = _
  rw [State.rd_wr_field _ _ _ _ _ _ (by decide), State.rd_wr_zero]

theorem State.stale_runCounted (s : State) : s.runCounted.flag .hrtHstatHstale = false := by
  have zero : s.runCounted.rd .hrtHstatHstale = 0 :=
    State.rd_wr_zero ((s.wr .hrtRunSeq (s.rd .hrtRunSeq + 1)).wr .hrtRunMiss 0) .hrtHstatHstale 0 0
  rw [State.flag, zero]
  rfl

theorem HearthState.sAt_idle (h : HearthState) : h.idle.sAt = h.sAt := rfl
theorem HearthState.w1At_idle (h : HearthState) : h.idle.w1At = h.w1At := rfl
theorem HearthState.e1_idle (h : HearthState) : h.idle.e1 = h.e1 := rfl
theorem HearthState.e30_idle (h : HearthState) : h.idle.e30 = h.e30 := rfl
theorem HearthState.due_idle (h : HearthState) : h.idle.due = false := rfl

theorem State.rd_notDue (s : State) (f : Field) (i j : Nat) : s.notDue.rd f i j = s.rd f i j := rfl
theorem State.lim_notDue (s : State) : s.notDue.lim = s.lim := rfl
theorem State.now_notDue (s : State) : s.notDue.now = s.now := rfl
theorem State.sameIn_notDue (s n : State) (x : Tab) : s.sameIn n.notDue x = s.sameIn n x := by cases x <;> rfl
theorem State.hearth_notDue (s : State) : s.notDue.hearth = s.hearth.idle := rfl
theorem State.lim_commit (s n : State) : (s.commit n).lim = n.lim := rfl

/-- What a run leaves beside registers, limits, and the Hearth. -/
theorem runDone_other {α : Type} {g : State → α} (hr : ∀ s x, g { s with regs := x } = g s) (hl : ∀ s x, g { s with limits := x } = g s)
    (lim : ∀ s x, g { s with lim := x } = g s) (hearth : ∀ s x, g { s with hearth := x } = g s) (s : State) :
    g s.runLimits.runCounted.notDue = g s.runAt := by
  have counted (t : State) : g t.runCounted = g t := State.puts_other hr hl t _
  have limits : g s.runLimits = g s.runDies := by
    rw [State.runLimits, replaceCredit_other (g := g) (State.put_other g hr hl) lim]
    exact State.put_other g hr hl _ _ _
  rw [State.notDue, hearth, counted, limits, runDies_run (run_of hr hl fun t x => hearth t _)]

theorem State.sameTabs_runDone (s : State) : s.sameTabsBut s.runLimits.runCounted.notDue [] := by
  intro x hx
  rw [runDone_other (g := fun n => s.sameIn n x) (fun _ _ => by cases x <;> rfl) (fun _ _ => by cases x <;> rfl) (fun _ _ => by cases x <;> rfl)
    fun _ _ => by cases x <;> rfl]
  exact s.sameTabs_runAt x hx

/-- What the Hearth keeps beside each die's record stands through the dies' runs. -/
theorem State.hearth_runDies {α : Type} {p : HearthState → α} (hd : ∀ h x, p { h with dies := x } = p h)
    (hp : ∀ h bins e1 e30 peak, p { h with bins := bins, e1 := e1, e30 := e30, closing := none, secPeak := peak } = p h) (s : State) :
    p s.runDies.hearth = p s.hearth := by
  rw [runDies_run (g := fun t => p t.hearth) (run_of (by intros; rfl) (by intros; rfl) fun t => hd t.hearth), State.hearth_runAt, State.hearth_fixBin hp]

theorem State.sAt_runDies (s : State) : s.runDies.hearth.sAt = s.hearth.sAt :=
  State.hearth_runDies (p := HearthState.sAt) (by intros; rfl) (by intros; rfl) s

theorem State.w1At_runDies (s : State) : s.runDies.hearth.w1At = s.hearth.w1At :=
  State.hearth_runDies (p := HearthState.w1At) (by intros; rfl) (by intros; rfl) s

theorem State.thermLim_lt (s : State) : s.thermLim < 2 ^ (fieldDef .alcThermlimLim).width :=
  Nat.lt_of_le_of_lt (Nat.min_le_left _ _) (by decide)

theorem State.thermlim_runLimits (s : State) : s.runLimits.rd .alcThermlimLim = s.runDies.thermLim := by
  rw [State.runLimits, State.rd_replaceCredit _ _ _ (by decide), State.rd_wr_same _ .alcThermlimLim _ _ _ rfl, Nat.mod_eq_of_lt (State.thermLim_lt _)]

theorem State.hearth_runDone (s : State) : (s.commit s.runLimits.runCounted.notDue).hearth = s.runDies.hearth.idle := by
  rw [State.hearth_commit, State.hearth_notDue, State.hearth_runCounted, State.runLimits, State.hearth_replaceCredit, State.wr_hearth]

theorem State.lim_runDone (s : State) : (s.commit s.runLimits.runCounted.notDue).lim = s.runDies.lim.reformed s.runDies.hearth := by
  rw [State.lim_commit, State.lim_notDue, State.lim_runCounted, State.runLimits, State.lim_replaceCredit, State.wr_hearth, State.wr_lim]

theorem State.thermLim_runDone (s : State) : (s.commit s.runLimits.runCounted.notDue).thermLim = s.runDies.thermLim := by
  refine State.thermLim_congr (fun d => ?_) fun d => ?_
  · rw [State.rd_commit _ _ _ _ _ rfl, State.rd_notDue, State.rd_runCounted _ _ _ (by decide), State.rd_runLimits _ _ _ (by decide) (by decide)]
  · rw [State.hd_commit, runDone_other (g := fun t => t.hd d) (by intros; rfl) (by intros; rfl) (by intros; rfl) (by intros; rfl),
      runDies_run (g := fun t => t.hd d) (run_of (by intros; rfl) (by intros; rfl) (by intros; rfl))]

theorem hearthRunCommit_lands {s : State} (hs : s.aon = true) (due : s.hearth.due = true) (able : s.hearth.able = true) :
    ∃ t, exec .hearthRunCommit s = .next t ∧ t.hearth.due = false ∧ 1000000 * s.hearth.ms + 200000 ≤ t.now ∧
      t.rd .hrtRunSeq = (s.rd .hrtRunSeq + 1) % 2 ^ (fieldDef .hrtRunSeq).width ∧ t.rd .hrtRunMiss = 0 ∧
      t.flag .hrtHstatHstale = false ∧ t.rd .alcThermlimLim = t.thermLim ∧
      t.lim.head30 = t.hearth.sAt * (30 * 32768000000000) - 4000 * t.hearth.e30 + t.lim.since30 ∧
      t.lim.head1 = t.hearth.w1At * 32768000000000 - 4000 * t.hearth.e1 + t.lim.since1 ∧ t.hearth.sAt = s.hearth.sAt ∧
      t.hearth.w1At = s.hearth.w1At ∧ t.lim.s = s.hearth.sAt ∧ t.lim.w1 = s.hearth.w1At ∧ s.sameTabsBut t [] := by
  have hearth := s.hearth_runDone
  have limits := s.lim_runDone
  refine ⟨_, exec_hearthRunCommit hs due able, ?_⟩
  refine ⟨?_, ?_, ?_, ?_, ?_, ?_, ?_, ?_, ?_, ?_, ?_, ?_, State.sameTabs_commit s.sameTabs_runDone⟩
  · rw [hearth, HearthState.due_idle]
  · have now : s.runLimits.runCounted.notDue.now = max s.now (1000000 * s.hearth.ms + 200000) :=
      (runDone_other (g := State.now) (by intros; rfl) (by intros; rfl) (by intros; rfl) (by intros; rfl) s).trans s.now_runAt
    exact (Nat.le_max_right _ _).trans ((le_of_eq now.symm).trans (Nat.le_max_right _ _))
  · rw [State.rd_commit _ _ _ _ _ rfl, State.rd_notDue, State.seq_runCounted, State.rd_runLimits _ _ _ (by decide) (by decide),
      runDies_run (run_rd 0 0 (by decide)), State.rd_runAt _ _ _ (by decide) (by decide) (by decide)]
  · rw [State.rd_commit _ _ _ _ _ rfl, State.rd_notDue, State.miss_runCounted]
  · rw [State.flag, State.rd_commit _ _ _ _ _ rfl, State.rd_notDue]
    exact State.stale_runCounted _
  · rw [State.thermLim_runDone, State.rd_commit _ _ _ _ _ rfl, State.rd_notDue, State.rd_runCounted _ _ _ (by decide), State.thermlim_runLimits]
  · rw [limits, hearth, HearthState.sAt_idle, HearthState.e30_idle, LimState.head30_reformed]
  · rw [limits, hearth, HearthState.w1At_idle, HearthState.e1_idle, LimState.head1_reformed]
  · rw [hearth, HearthState.sAt_idle, s.sAt_runDies]
  · rw [hearth, HearthState.w1At_idle, s.w1At_runDies]
  · rw [limits, LimState.s_reformed, s.sAt_runDies]
  · rw [limits, LimState.w1_reformed, s.w1At_runDies]

/-! ## A run missed (R228) -/

/-- A missed run counted, and due no more. -/
def State.missAt (s : State) : State := (s.runAt.count .hrtRunMiss).notDue

/-- What a missed run brings: its fourth the mark of stale terms, its twentieth the stale limit. -/
def State.missedRun (s : State) : State :=
  if s.missAt.rd .hrtRunMiss = s.rd .hrtRunMiss then s.missAt
  else if s.missAt.rd .hrtRunMiss = 4 then (s.missAt.wr .hrtHstatHstale 1).raise (corr 14 1 (unitOf (40 + s.active) 0) 0)
  else if s.missAt.rd .hrtRunMiss = 20 then s.missAt.staleTerms.raise (cont 14 2 (unitOf (40 + s.active) 0) .package 0)
  else s.missAt

theorem exec_hearthRunMissed {s : State} (hs : s.aon = true) (due : s.hearth.due = true) :
    exec .hearthRunMissed s = .next (s.commit s.missedRun) := by
  change execHearthRunMissed s = _
  rw [execHearthRunMissed, State.run_on _ hs]
  rw [State.missedRun, State.missAt, State.runAt]
  simp only [due, Bool.not_true, Bool.false_eq_true, if_false]
  generalize (s.fixBin.advanceTo (1000000 * s.hearth.ms + 200000)).count .hrtRunMiss = counted
  rfl

/-- What neither faults nor the terms and marks of missed runs touch stands as the count leaves it. -/
theorem missedRun_blind {α : Type} {g : State → α} (hg : FaultBlind g) (stale : ∀ s, g (State.wr s .hrtHstatHstale 1) = g s)
    (terms : ∀ s, g (State.staleTerms s) = g s) (s : State) : g s.missedRun = g s.missAt := by
  unfold State.missedRun
  split
  · rfl
  · split
    · rw [raise_blind hg _ _ FaultClass.noConfusion, stale]
    · split
      · rw [raise_blind hg _ _ FaultClass.noConfusion, terms]
      · rfl

theorem staleTerms_other {α : Type} {g : State → α} (term : ∀ s v d, g (State.wr s .hrtDieTerm v 0 d) = g s)
    (limit : ∀ s v, g (State.wr s .alcThermlimLim v) = g s) (s : State) : g s.staleTerms = g s := by
  unfold State.staleTerms
  dsimp only
  rw [limit, each_blind (g := g) _ _ fun t d => term t _ d]

theorem State.rd_missedRun (s : State) {f : Field} (i j : Nat) (hf : faultField f = false) (h : f ∉ [.hrtHstatHstale, .hrtDieTerm, .alcThermlimLim]) :
    s.missedRun.rd f i j = s.missAt.rd f i j := by
  simp only [List.mem_cons, List.not_mem_nil, or_false, not_or] at h
  obtain ⟨stale, term, limit⟩ := h
  have terms (t : State) : t.staleTerms.rd f i j = t.rd f i j :=
    staleTerms_other (g := fun t => t.rd f i j) (fun t _ _ => t.rd_wr_field _ _ _ _ _ (Ne.symm term))
      (fun t _ => t.rd_wr_field _ _ _ _ _ (Ne.symm limit)) t
  exact missedRun_blind (blind_rd f i j hf) (fun t => t.rd_wr_field _ _ _ _ _ (Ne.symm stale)) terms s

/-- What a missed run leaves beside registers: all but what its faults reach. -/
theorem missedRun_other {α : Type} {g : State → α} (hg : FaultBlind g) (put : ∀ s r v, g (State.put s r v) = g s) (s : State) :
    g s.missedRun = g s.missAt :=
  missedRun_blind hg (fun t => put t _ _) (staleTerms_other (fun t _ _ => put t _ _) fun t _ => put t _ _) s

theorem State.rd_missAt (s : State) {f : Field} (i j : Nat) (hm : .hrtRunMiss ≠ f) : s.missAt.rd f i j = s.runAt.rd f i j :=
  (State.rd_notDue _ _ _ _).trans (State.rd_wr_field _ _ _ _ _ _ hm)

theorem State.miss_runAt (s : State) : s.runAt.rd .hrtRunMiss = s.rd .hrtRunMiss := s.rd_runAt 0 0 (by decide) (by decide) (by decide)

theorem State.miss_missAt (s : State) : s.missAt.rd .hrtRunMiss = s.oneUp .hrtRunMiss := by
  rw [State.missAt, State.rd_notDue, State.rd_count_same _ (f := .hrtRunMiss) rfl, State.oneUp, State.miss_runAt, State.oneUp]

theorem State.oneUp_miss (s : State) : s.oneUp .hrtRunMiss = min (s.rd .hrtRunMiss + 1) 255 := rfl

/-- The twentieth missed run, and no other, lowers therm_lim. -/
theorem State.thermlim_missedRun (s : State) :
    s.missedRun.rd .alcThermlimLim =
      if s.rd .hrtRunMiss = 19 then min (s.rd .alcThermlimLim) (s.rd .hrtStalelimLim) % 2 ^ (fieldDef .alcThermlimLim).width
      else s.rd .alcThermlimLim := by
  have kept {f : Field} (h1 : .hrtE1 ≠ f) (h30 : .hrtE30 ≠ f) (ht : f ∉ timeFields) (hm : .hrtRunMiss ≠ f) :
      s.missAt.rd f = s.rd f := by
    rw [State.rd_missAt _ _ _ hm, State.rd_runAt _ _ _ h1 h30 ht]
  have lim : s.missAt.rd .alcThermlimLim = s.rd .alcThermlimLim := kept (by decide) (by decide) (by decide) (by decide)
  have stale : s.missAt.rd .hrtStalelimLim = s.rd .hrtStalelimLim := kept (by decide) (by decide) (by decide) (by decide)
  have up := s.oneUp_miss
  unfold State.missedRun
  rw [State.miss_missAt]
  by_cases twenty : s.rd .hrtRunMiss = 19
  · rw [if_pos twenty, if_neg (by omega), if_neg (by omega), if_pos (by omega), rd_raise _ _ _ _ _ FaultClass.noConfusion rfl, State.staleTerms,
      State.rd_wr_same _ .alcThermlimLim _ _ _ rfl, lim, stale]
  · rw [if_neg twenty]
    split
    · rw [lim]
    · split
      · rw [rd_raise _ _ _ _ _ FaultClass.noConfusion rfl, State.rd_wr_field _ _ _ _ _ _ (by decide), lim]
      · rw [if_neg (by omega), lim]

/-- The fourth missed run marks the terms stale, with its fault. -/
theorem State.missedRun_four (s : State) (h : s.rd .hrtRunMiss = 3) :
    s.missedRun = (s.missAt.wr .hrtHstatHstale 1).raise (corr 14 1 (unitOf (40 + s.active) 0) 0) := by
  have up := s.oneUp_miss
  unfold State.missedRun
  rw [State.miss_missAt, if_neg (by omega), if_pos (by omega)]

/-- A fault that is not FATAL reaches the pending slots, the ring sets, the vectors and the telemetry alone. -/
theorem State.sameTabs_raise {s n : State} {l : List Tab} (h : s.sameTabsBut n l) {x : FaultRec} (hx : x.cls ≠ .fatal)
    (pend : Tab.pend ∈ l) (rings : Tab.rings ∈ l) (msix : Tab.msix ∈ l) (tel : Tab.tel ∈ l) : s.sameTabsBut (n.raise x) l := by
  intro tab ht
  have blind : FaultBlind fun t => s.sameIn t tab := by
    refine blind_of _ ?_ ?_ (fun t y => ?_) (fun t y => ?_) (fun t y => ?_) ?_ ?_ ?_ ?_ ?_ ?_ ?_ ?_ fun t y => ?_
    case refine_3 => cases tab with
      | rings => exact absurd rings ht
      | _ => rfl
    case refine_4 => cases tab with
      | tel => exact absurd tel ht
      | _ => rfl
    case refine_5 => cases tab with
      | msix => exact absurd msix ht
      | _ => rfl
    case refine_14 => cases tab with
      | pend => exact absurd pend ht
      | _ => rfl
    all_goals intro t y; cases tab <;> rfl
  exact (raise_blind blind n x hx).mpr (h tab ht)

theorem State.sameTabs_missAt (s : State) : s.sameTabsBut s.missAt [] := by
  intro x hx
  rw [State.missAt, State.sameIn_notDue]
  exact State.sameTabs_wr s.sameTabs_runAt _ _ _ _ x hx

theorem State.sameTabs_missedRun (s : State) : s.sameTabsBut s.missedRun [.pend, .rings, .msix, .tel] := by
  have counted : s.sameTabsBut s.missAt [.pend, .rings, .msix, .tel] := fun x _ => s.sameTabs_missAt x List.not_mem_nil
  have terms : s.sameTabsBut s.missAt.staleTerms [.pend, .rings, .msix, .tel] := fun x hx => by
    have put (n : State) (r : FieldRef) (v : Nat) : s.sameIn (n.put r v) x = s.sameIn n x :=
      State.put_other (fun n => s.sameIn n x) (fun _ _ => by cases x <;> rfl) (fun _ _ => by cases x <;> rfl) n r v
    rw [staleTerms_other (g := fun n => s.sameIn n x) (fun t _ _ => put t _ _) fun t _ => put t _ _]
    exact counted x hx
  have raised {n : State} (h : s.sameTabsBut n [.pend, .rings, .msix, .tel]) {x : FaultRec} (hx : x.cls ≠ .fatal) :
      s.sameTabsBut (n.raise x) [.pend, .rings, .msix, .tel] :=
    State.sameTabs_raise h hx (by decide) (by decide) (by decide) (by decide)
  unfold State.missedRun
  split
  · exact counted
  · split
    · exact raised (State.sameTabs_wr counted _ _ _ _) FaultClass.noConfusion
    · split
      · exact raised terms FaultClass.noConfusion
      · exact counted

theorem hearthRunMissed_lands {s : State} (hs : s.aon = true) (due : s.hearth.due = true) :
    ∃ t, exec .hearthRunMissed s = .next t ∧ t.hearth.due = false ∧ 1000000 * s.hearth.ms + 200000 ≤ t.now ∧
      t.rd .hrtRunMiss = s.oneUp .hrtRunMiss ∧
      (s.rd .hrtRunMiss = 3 → t.flag .hrtHstatHstale = true ∧ t.rd .fltCorr = s.oneUp .fltCorr) ∧
      (s.rd .hrtRunMiss = 19 → t.rd .alcThermlimLim =
        min (s.rd .alcThermlimLim) (s.rd .hrtStalelimLim) % 2 ^ (fieldDef .alcThermlimLim).width) ∧
      (s.rd .hrtRunMiss ≠ 19 → t.rd .alcThermlimLim = s.rd .alcThermlimLim) ∧ s.sameTabsBut t [.pend, .rings, .msix, .tel] := by
  have limit := s.thermlim_missedRun
  have hearth : s.missedRun.hearth = s.missAt.hearth := missedRun_other blind_hearth State.put_hearth s
  have now : s.missedRun.now = s.missAt.now := missedRun_other blind_now State.put_now s
  refine ⟨_, exec_hearthRunMissed hs due, ?_, ?_, ?_, fun four => ⟨?_, ?_⟩, fun twenty => ?_, fun other => ?_, State.sameTabs_commit ?_⟩
  · rw [State.hearth_commit, hearth, State.missAt, State.hearth_notDue, HearthState.due_idle]
  · have late : s.missAt.now = max s.now (1000000 * s.hearth.ms + 200000) := by
      rw [State.missAt, State.now_notDue, State.count_now, State.now_runAt]
    exact (Nat.le_max_right _ _).trans ((le_of_eq (now.trans late).symm).trans (Nat.le_max_right _ _))
  · rw [State.rd_commit _ _ _ _ _ rfl, State.rd_missedRun _ _ _ rfl (by decide), State.miss_missAt]
  · rw [State.flag, State.rd_commit _ _ _ _ _ rfl, s.missedRun_four four, rd_raise _ _ _ _ _ FaultClass.noConfusion rfl]
    exact State.flag_wr_one _ (f := .hrtHstatHstale) rfl rfl
  · rw [State.rd_commit _ _ _ _ _ rfl, s.missedRun_four four, State.fltCorr_raise_corrected _ rfl, State.oneUp, State.rd_wr_field _ _ _ _ _ _ (by decide),
      State.rd_missAt _ _ _ (by decide), State.rd_runAt _ _ _ (by decide) (by decide) (by decide), State.oneUp]
  · rw [State.rd_commit _ _ _ _ _ rfl, limit, if_pos twenty]
  · rw [State.rd_commit _ _ _ _ _ rfl, limit, if_neg other]
  · exact s.sameTabs_missedRun

/-- Settles O40: a boundary's and a run's own writes are read off, and all that comes between leaves them. -/
theorem hearthRuns : Obligations.HearthRuns := by
  intro s hs
  refine ⟨hearthBoundary_lands hs, fun idle => ⟨_, exec_hearthRunCommit_idle hs idle, State.onlyChanges_commit (s.onlyChanges_refl _ _)⟩, fun due => ?_⟩
  exact ⟨hearthRunCommit_lands hs due, hearthRunMissed_lands hs due⟩

end Sys2Proof.Machine

/-!
Settles O41: a conversion shows what it read and counts it; the second in a row forces the floor state, and what a FATAL fault then does leaves
the trips' own forcings, pin and flags as they are.
-/

namespace Sys2Proof.Machine

/-! ## What a FATAL fault leaves of the other forcings -/

/-- What the junction trip and THERMTRIP drive. -/
def State.tripDrive (s : State) : Bool × Bool × Bool := (s.force.junction, s.force.thermtrip, s.pins.thermtripN)

theorem blind_tripDrive : FaultBlind State.tripDrive := by apply blind_of <;> intros <;> rfl
theorem svc_tripDrive : SvcBlind State.tripDrive := by apply svc_of (by apply notice_of <;> intros <;> rfl) <;> intros <;> rfl

theorem State.tripDrive_forceFloor (s : State) (f : Forcing → Forcing) :
    (s.forceFloor f).tripDrive = ((f s.force).junction, (f s.force).thermtrip, s.pins.thermtripN) :=
  State.enterFloor_other (g := State.tripDrive) (by intros; rfl) (by intros; rfl) _

theorem State.tripDrive_fatalLatched (s : State) : s.fatalLatched.tripDrive = s.tripDrive := by
  have pins (t : State) : t.govErr10.tripDrive = t.tripDrive := rfl
  have wrote : (s.wr .fltStatusFatal 1).tripDrive = s.tripDrive := State.put_other State.tripDrive (by intros; rfl) (by intros; rfl) s _ _
  rw [State.fatalLatched, pins, State.tripDrive_forceFloor]
  exact wrote

theorem failsafe_driven (s : State) (src unit : Nat) :
    (s.failsafe src unit).tripDrive = s.tripDrive ∧ (s.floorOn = true → (s.failsafe src unit).floorOn = true) := by
  by_cases latched : s.flag .fltStatusFatal = true
  · have same : s.failsafe src unit = s := if_pos latched
    rw [same]
    exact ⟨rfl, id⟩
  · have latched := Bool.eq_false_iff.2 latched
    have floor : SvcBlind State.floorOn := by apply svc_of (by apply notice_of <;> intros <;> rfl) <;> intros <;> rfl
    have forced : s.fatalLatched.floorOn = true := by
      have pins (t : State) : t.govErr10.floorOn = t.floorOn := rfl
      rw [State.fatalLatched, pins, State.floorOn_forceFloor]
    rw [failsafe_svc svc_tripDrive _ _ latched, failsafe_svc floor _ _ latched]
    refine ⟨?_, fun _ => ?_⟩
    · rw [State.trimEnded_other (g := State.tripDrive) (by intros; rfl) (by intros; rfl), State.tripDrive_fatalLatched]
    · rw [State.trimEnded_other (g := State.floorOn) (by intros; rfl) (by intros; rfl), forced]

/-- A fault of any class leaves what the trips drive, and ends no floor state. -/
theorem raise_driven (s : State) (x : FaultRec) :
    (s.raise x).tripDrive = s.tripDrive ∧ (s.floorOn = true → (s.raise x).floorOn = true) := by
  have floor : FaultBlind State.floorOn := by apply blind_of <;> intros <;> rfl
  by_cases fatal : x.cls = .fatal
  · obtain ⟨drive, on⟩ := failsafe_driven (s.fatalReported x) x.src x.unit
    rw [fatalReported_blind blind_tripDrive] at drive
    rw [fatalReported_blind floor] at on
    rw [State.raise_fatal s fatal]
    exact ⟨drive, on⟩
  · rw [raise_blind blind_tripDrive _ _ fatal, raise_blind floor _ _ fatal]
    exact ⟨rfl, id⟩

theorem dieFault_driven (s : State) (d : Nat) (x : FaultRec) :
    (s.dieFault d x).tripDrive = s.tripDrive ∧ (s.floorOn = true → (s.dieFault d x).floorOn = true) := by
  unfold State.dieFault
  split
  · exact ⟨rfl, id⟩
  · exact raise_driven s x

/-! ## The trips -/

theorem suspect_latch {α : Type} {g : State → α} (hg : LatchBlind g) (die : ∀ s d f, g (State.updDie s d f) = g s)
    (wr : ∀ s d i, g (State.wr s .dagTsSuspect 1 d i) = g s) (s : State) (d i : Nat) : g (s.suspect d i) = g s := by
  unfold State.suspect
  split
  · rfl
  · rw [dieFault_latch hg die, wr]

/-- A junction trip reaches, beside what any forced floor state and fault do, its flag and its list of dies. -/
theorem junctionTrip_latch {α : Type} {g : State → α} (hg : LatchBlind g) (die : ∀ s d f, g (State.updDie s d f) = g s)
    (wr : ∀ s, g (State.wr s .hrtHstatLtripact 1) = g s) (hearth : ∀ s x, g { s with hearth := x } = g s) (s : State) (d : Nat) :
    g (s.junctionTrip d) = g s := by
  unfold State.junctionTrip
  split
  · rfl
  · dsimp only
    rw [dieFault_latch hg die, hearth, wr, forceFloor_latch hg]

/-- THERMTRIP reaches, beside what any forced floor state and fault do, its flag. -/
theorem thermTrip_latch {α : Type} {g : State → α} (hg : LatchBlind g) (die : ∀ s d f, g (State.updDie s d f) = g s)
    (wr : ∀ s, g (State.wr s .hrtHstatTtrip 1) = g s) (s : State) (d i : Nat) : g (s.thermTrip d i) = g s := by
  unfold State.thermTrip
  split
  · exact wr s
  · dsimp only
    rw [dieFault_latch hg die, hg.pins, forceFloor_latch hg, wr]

/-- A die in its junction trip. -/
structure JunctionTripped (t : State) (d : Nat) : Prop where
  force : t.force.junction = true
  floor : t.floorOn = true
  flag : t.flag .hrtHstatLtripact = true
  die : d ∈ t.hearth.tripped

theorem JunctionTripped.dieFault {t : State} {d : Nat} (h : JunctionTripped t d) (e : Nat) (x : FaultRec) : JunctionTripped (t.dieFault e x) d := by
  obtain ⟨drive, floor⟩ := dieFault_driven t e x
  refine ⟨(congrArg (·.1) drive).trans h.force, floor h.floor, ?_, ?_⟩
  · rw [State.flag, State.rd_dieFault _ _ _ _ _ rfl]
    exact h.flag
  · rw [dieFault_latch latch_hearth (by intros; rfl)]
    exact h.die

/-- A die among those tripped, and hot now. -/
def State.tripNoted (s : State) (d : Nat) : State :=
  { s with hearth := { s.hearth with tripped := s.hearth.tripped ++ [d], hotAt := s.now } }

/-- The floor state forced by the junction, with its flag. -/
def State.junctionForced (s : State) : State := (s.forceFloor fun f => { f with junction := true }).wr .hrtHstatLtripact 1

theorem State.junctionForced_trips (s : State) (d : Nat) : JunctionTripped (s.junctionForced.tripNoted d) d := by
  have noted (t : State) : (t.tripNoted d).force = t.force ∧ (t.tripNoted d).floorOn = t.floorOn ∧ (∀ f, (t.tripNoted d).flag f = t.flag f) ∧
      (t.tripNoted d).hearth.tripped = t.hearth.tripped ++ [d] := ⟨rfl, rfl, fun _ => rfl, rfl⟩
  obtain ⟨force, floor, flag, tripped⟩ := noted s.junctionForced
  refine ⟨?_, ?_, ?_, ?_⟩
  · rw [force, State.junctionForced, State.wr_force, State.force_forceFloor]
  · rw [floor, State.junctionForced, State.floorOn_wr, State.floorOn_forceFloor]
  · rw [flag, State.junctionForced, State.flag_wr_one _ (f := .hrtHstatLtripact) rfl rfl]
  · rw [tripped]
    exact List.mem_append_right _ List.mem_cons_self

theorem State.junctionTrip_forced {s : State} {d : Nat} (h : d ∉ s.hearth.tripped) :
    s.junctionTrip d = (s.junctionForced.tripNoted d).dieFault d (cont 10 4 (unitOf d 0) (dieScope d) 6) := by
  have out : s.hearth.tripped.contains d = false := by simpa using h
  rw [State.junctionTrip, out, if_neg Bool.false_ne_true, State.junctionForced]
  dsimp only
  generalize (s.forceFloor _).wr .hrtHstatLtripact 1 = forced
  rfl

theorem State.junctionTrip_trips {s : State} {d : Nat} (h : d ∉ s.hearth.tripped) : JunctionTripped (s.junctionTrip d) d := by
  rw [State.junctionTrip_forced h]
  exact (s.junctionForced_trips d).dieFault d _

theorem State.thermtrip_junctionTrip (s : State) (d : Nat) : (s.junctionTrip d).force.thermtrip = s.force.thermtrip := by
  by_cases h : d ∈ s.hearth.tripped
  · have same : s.junctionTrip d = s := if_pos (by simpa using h)
    rw [same]
  · have noted (t : State) : (t.tripNoted d).force = t.force := rfl
    obtain ⟨drive, _⟩ := dieFault_driven (s.junctionForced.tripNoted d) d (cont 10 4 (unitOf d 0) (dieScope d) 6)
    rw [State.tripDrive, State.tripDrive, Prod.mk.injEq, Prod.mk.injEq] at drive
    obtain ⟨_, same, _⟩ := drive
    rw [State.junctionTrip_forced h, same, noted, State.junctionForced, State.wr_force, State.force_forceFloor]

/-- THERMTRIP asserted. -/
structure ThermTripped (t : State) : Prop where
  force : t.force.thermtrip = true
  floor : t.floorOn = true
  flag : t.flag .hrtHstatTtrip = true
  ball : t.pins.thermtripN = false
  fatal : t.flag .fltStatusFatal = true

/-- The ball driven low. -/
def State.ballDriven (s : State) : State := { s with pins := { s.pins with thermtripN := false } }

/-- The ball driven, and the floor state forced by THERMTRIP. -/
def State.thermForced (s : State) : State := ((s.wr .hrtHstatTtrip 1).forceFloor fun f => { f with thermtrip := true }).ballDriven

theorem State.floorOn_thermForced (s : State) : s.thermForced.floorOn = true := by
  have driven (t : State) : t.ballDriven.floorOn = t.floorOn := rfl
  rw [State.thermForced, driven, State.floorOn_forceFloor]

theorem State.thermTrip_forced {s : State} (h : s.force.thermtrip = false) (d i : Nat) :
    s.thermTrip d i = s.thermForced.raise (fatalFault 10 5 (unitOf d i) 6) := by
  have fault (t : State) : t.dieFault d (fatalFault 10 5 (unitOf d i) 6) = t.raise (fatalFault 10 5 (unitOf d i) 6) := by
    have steward : ((t.die d).steward && decide ((fatalFault 10 5 (unitOf d i) 6).cls ≠ .fatal)) = false := Bool.and_false _
    rw [State.dieFault, steward, if_neg Bool.false_ne_true]
  rw [State.thermTrip, h, if_neg Bool.false_ne_true, State.thermForced]
  dsimp only
  generalize (s.wr .hrtHstatTtrip 1).forceFloor _ = forced
  exact fault forced.ballDriven

theorem State.tripDrive_thermForced (s : State) : s.thermForced.tripDrive = (s.force.junction, true, false) := by
  have driven (t : State) : t.ballDriven.tripDrive = (t.tripDrive.1, t.tripDrive.2.1, false) := rfl
  rw [State.thermForced, driven, State.tripDrive_forceFloor, State.wr_force]

theorem State.thermTrip_trips {s : State} (h : s.force.thermtrip = false) (d i : Nat) : ThermTripped (s.thermTrip d i) := by
  obtain ⟨drive, floor⟩ := raise_driven s.thermForced (fatalFault 10 5 (unitOf d i) 6)
  rw [State.tripDrive_thermForced, State.tripDrive, Prod.mk.injEq, Prod.mk.injEq] at drive
  obtain ⟨_, forced, ball⟩ := drive
  rw [s.thermTrip_forced h d i]
  refine ⟨forced, floor s.floorOn_thermForced, ?_, ball, State.fatal_raise rfl _⟩
  have shown : s.thermForced.rd .hrtHstatTtrip = (s.wr .hrtHstatTtrip 1).rd .hrtHstatTtrip := by
    have driven (t : State) : t.ballDriven.rd .hrtHstatTtrip = t.rd .hrtHstatTtrip := rfl
    rw [State.thermForced, driven, forceFloor_latch (latch_rd .hrtHstatTtrip 0 0 rfl)]
  rw [State.flag, raise_latch (latch_rd (f := .hrtHstatTtrip) 0 0 rfl), shown]
  exact State.flag_wr_one _ (f := .hrtHstatTtrip) rfl rfl

/-- A die's junction trip stands through THERMTRIP. -/
theorem JunctionTripped.thermTrip {t : State} {d : Nat} (h : JunctionTripped t d) (e i : Nat) : JunctionTripped (t.thermTrip e i) d := by
  have flag : (t.thermTrip e i).rd .hrtHstatLtripact = t.rd .hrtHstatLtripact :=
    thermTrip_latch (g := fun u : State => u.rd .hrtHstatLtripact) (latch_rd _ 0 0 rfl) (by intros; rfl) (fun u => u.rd_wr_field _ _ _ _ _ (by decide)) t e i
  have hearth : (t.thermTrip e i).hearth = t.hearth :=
    thermTrip_latch latch_hearth (by intros; rfl) (fun u => u.wr_hearth _ _ _ _) t e i
  have drive : (t.thermTrip e i).force.junction = t.force.junction ∧ (t.thermTrip e i).floorOn = true := by
    by_cases done : t.force.thermtrip = true
    · have marked : t.thermTrip e i = t.wr .hrtHstatTtrip 1 := if_pos done
      rw [marked]
      exact ⟨congrArg Forcing.junction (t.wr_force _ _ _ _), (State.floorOn_wr _ _ _ _ _).trans h.floor⟩
    · obtain ⟨drive, floor⟩ := raise_driven t.thermForced (fatalFault 10 5 (unitOf e i) 6)
      rw [State.tripDrive_thermForced, State.tripDrive, Prod.mk.injEq] at drive
      rw [t.thermTrip_forced (Bool.eq_false_iff.2 done) e i]
      exact ⟨drive.1, floor t.floorOn_thermForced⟩
  exact ⟨drive.1.trans h.force, drive.2, (congrArg (fun n => decide (n = 1)) flag).trans h.flag, hearth.symm ▸ h.die⟩

/-! ## A conversion (R216, R217, R219) -/

/-- How many conversions in a row have been at a level. -/
def runOf (level t : Int) (n : Nat) : Nat := if level ≤ t then n + 1 else 0

theorem two_le_runOf {level t : Int} {n : Nat} (hn : 1 ≤ n) (ht : level ≤ t) : 2 ≤ runOf level t n := by
  rw [runOf, if_pos ht]
  omega

/-- How many conversions in a row have been far from the estimate. -/
def State.farRun (s : State) (d i : Nat) (t : Int) : Nat :=
  let est := (s.hearthDie d).temps
  let far : Bool := match est[sensorNode d i]? with
    | some e => decide (160 < (t : Rat) - e) || decide (160 < e - (t : Rat))
    | none => false
  if far then (s.sensor d i).dev + 1 else 0

def State.aboveRun (s : State) (d i : Nat) (t : Int) : Nat := runOf (toSigned 16 (s.rd .hrtLtripTrip)) t (s.sensor d i).above
def State.tripRun (s : State) (d i : Nat) (t : Int) : Nat := runOf (toSigned 16 (s.rd .hrtTtripTrip)) t (s.sensor d i).trip

/-- A conversion shown and counted. -/
def State.shows (s : State) (d i : Nat) (t : Int) : State :=
  (s.wr .dagTsT (ofSigned 16 t) d i).setSensor d i
    { above := min 2 (s.aboveRun d i t), trip := min 2 (s.tripRun d i t), dev := min 50 (s.farRun d i t), sum := (s.sensor d i).sum + t,
      n := (s.sensor d i).n + 1 }

/-- A sensor whose conversion is out of range, or the fiftieth far from the estimate, made suspect. -/
def State.doubts (s : State) (d i : Nat) (t : Int) : State :=
  if t < -640 || 2400 < t || s.farRun d i t = 50 then (s.shows d i t).suspect d i else s.shows d i t

/-- A tripped die that is still hot. -/
def State.staysHot (s : State) (d : Nat) (t : Int) : State :=
  if s.hearth.tripped.contains d && decide (toSigned 16 (s.rd .hrtLtripRel) ≤ t) then { s with hearth := { s.hearth with hotAt := s.now } } else s

/-- The junction trip at the second conversion. -/
def State.mayTrip (s u : State) (d i : Nat) (t : Int) : State := if 2 ≤ s.aboveRun d i t then u.junctionTrip d else u

theorem State.conversion_eq (s : State) (d i : Nat) (t : Int) :
    s.conversion d i t =
      if 2 ≤ s.tripRun d i t then (s.mayTrip ((s.doubts d i t).staysHot d t) d i t).thermTrip d i
      else s.mayTrip ((s.doubts d i t).staysHot d t) d i t := rfl

/-- What a conversion leaves up to its trips: all but the die, its registers, and the instant of the last hot conversion. -/
theorem conversion_latch {α : Type} {g : State → α} (hg : LatchBlind g) (die : ∀ s d f, g (State.updDie s d f) = g s)
    (t16 : ∀ s v d i, g (State.wr s .dagTsT v d i) = g s) (suspect : ∀ s d i, g (State.wr s .dagTsSuspect 1 d i) = g s)
    (hot : ∀ s x, g { s with hearth := { s.hearth with hotAt := x } } = g s) (s : State) (d i : Nat) (t : Int) :
    g ((s.doubts d i t).staysHot d t) = g s := by
  have shows : g (s.shows d i t) = g s := (die _ _ _).trans (t16 _ _ _ _)
  have doubts : g (s.doubts d i t) = g s := by
    unfold State.doubts
    split
    · rw [suspect_latch hg die suspect, shows]
    · exact shows
  unfold State.staysHot
  split
  · exact (hot _ _).trans doubts
  · exact doubts

theorem State.tripDrive_doubts (s : State) (d i : Nat) (t : Int) : ((s.doubts d i t).staysHot d t).tripDrive = s.tripDrive := by
  have wr (u : State) (f : Field) (v i j : Nat) : (u.wr f v i j).tripDrive = u.tripDrive := State.put_other State.tripDrive (by intros; rfl) (by intros; rfl) u _ _
  have shows : (s.shows d i t).tripDrive = s.tripDrive := wr s _ _ _ _
  have doubts : (s.doubts d i t).tripDrive = s.tripDrive := by
    unfold State.doubts
    split
    · unfold State.suspect
      split
      · exact shows
      · rw [(dieFault_driven _ _ _).1, wr, shows]
    · exact shows
  unfold State.staysHot
  split
  · exact doubts
  · exact doubts

/-- Once shown, a conversion's value stands through its trips. -/
theorem State.dagTsT_conversion (s : State) (d i : Nat) (t : Int) :
    (s.conversion d i t).rd .dagTsT d i = (s.wr .dagTsT (ofSigned 16 t) d i).rd .dagTsT d i := by
  have die (u : State) (e : Nat) (f : DieState → DieState) : (u.updDie e f).rd .dagTsT d i = u.rd .dagTsT d i := rfl
  have shows : (s.shows d i t).rd .dagTsT d i = (s.wr .dagTsT (ofSigned 16 t) d i).rd .dagTsT d i := State.rd_updDie _ _ _ _ _ _
  have doubts : (s.doubts d i t).rd .dagTsT d i = (s.wr .dagTsT (ofSigned 16 t) d i).rd .dagTsT d i := by
    unfold State.doubts
    split
    · rw [suspect_latch (g := fun u : State => u.rd .dagTsT d i) (latch_rd _ _ _ rfl) die fun u _ _ => u.rd_wr_field _ _ _ _ _ (by decide), shows]
    · exact shows
  have hot : ((s.doubts d i t).staysHot d t).rd .dagTsT d i = (s.doubts d i t).rd .dagTsT d i := by
    unfold State.staysHot
    split <;> rfl
  have junction : (s.mayTrip ((s.doubts d i t).staysHot d t) d i t).rd .dagTsT d i = ((s.doubts d i t).staysHot d t).rd .dagTsT d i := by
    unfold State.mayTrip
    split
    · exact junctionTrip_latch (g := fun u : State => u.rd .dagTsT d i) (latch_rd _ _ _ rfl) die (fun u => u.rd_wr_field _ _ _ _ _ (by decide))
        (by intros; rfl) _ _
    · rfl
  rw [State.conversion_eq]
  split
  · rw [thermTrip_latch (g := fun u : State => u.rd .dagTsT d i) (latch_rd _ _ _ rfl) die fun u => u.rd_wr_field _ _ _ _ _ (by decide), junction,
      hot, doubts]
  · rw [junction, hot, doubts]

/-- A value in the range of 16 bits is read back as it was written. -/
theorem toSigned_ofSigned {x : Int} (lo : -32768 ≤ x) (hi : x ≤ 32767) : toSigned 16 (ofSigned 16 x) = x := by
  unfold toSigned ofSigned
  split <;> omega

theorem State.trimmedT_range (s : State) (d i : Nat) (raw : Int) : -32768 ≤ s.trimmedT d i raw ∧ s.trimmedT d i raw ≤ 32767 := by
  unfold State.trimmedT
  omega

/-- A field of a sensor that the die has. -/
theorem sensor_exists {f : Field} {d i : Nat} (h : (⟨f, d, i⟩ : FieldRef).exists = (decide (d < 40) && decide (i < 48) && decide (i < dieSensors d)))
    (hd : d < 40) (hi : i < dieSensors d) : (⟨f, d, i⟩ : FieldRef).exists = true := by
  have most : dieSensors d ≤ 48 := by
    unfold dieSensors
    split <;> omega
  rw [h, decide_eq_true hd, decide_eq_true (lt_of_lt_of_le hi most), decide_eq_true hi]
  rfl

section Conversion
variable {s : State} {d : Die} {i : Fin 48} (hs : s.aon = true)

include hs in
theorem exec_conversion (raw : Int) (power : (s.die d.val).powered = true) (sensor : i.val < dieSensors d.val) :
    exec (.thermalConversion d i raw) s = .next (s.commit (if s.sensorOut d.val i.val then
      s.wr .dagTsT (ofSigned 16 (s.trimmedT d.val i.val raw)) d.val i.val else s.conversion d.val i.val (s.trimmedT d.val i.val raw))) := by
  have gate : (!(s.die d.val).powered || decide (dieSensors d.val ≤ i.val)) = false := by simp [power, sensor]
  change execThermalConversion d i raw s = _
  rw [execThermalConversion, State.run_on _ hs]
  simp only [gate, Bool.false_eq_true, if_false]

theorem State.shown_wr (s : State) {x : Int} (lo : -32768 ≤ x) (hi : x ≤ 32767) {d i : Nat} (hd : d < 40) (sensor : i < dieSensors d) :
    toSigned 16 ((s.wr .dagTsT (ofSigned 16 x) d i).rd .dagTsT d i) = x := by
  rw [State.rd_wr_same _ _ _ _ _ (sensor_exists rfl hd sensor)]
  have width : (fieldDef .dagTsT).width = 16 := rfl
  rw [width, Nat.mod_eq_of_lt (ofSigned_lt 16 x), toSigned_ofSigned lo hi]

theorem JunctionTripped.of_conversion {s : State} {d i : Nat} {t : Int} (two : 2 ≤ s.aboveRun d i t) (free : d ∉ s.hearth.tripped) :
    JunctionTripped (s.conversion d i t) d := by
  have tripped : ((s.doubts d i t).staysHot d t).hearth.tripped = s.hearth.tripped :=
    conversion_latch (g := fun u : State => u.hearth.tripped) (by apply latch_of _ (by apply blind_of <;> intros <;> rfl) <;> intros <;> rfl)
      (by intros; rfl) (fun u _ _ _ => congrArg (fun h => h.tripped) (u.wr_hearth _ _ _ _)) (fun u _ _ => congrArg (fun h => h.tripped) (u.wr_hearth _ _ _ _))
      (by intros; rfl) s d i t
  have trips : JunctionTripped (s.mayTrip ((s.doubts d i t).staysHot d t) d i t) d := by
    rw [State.mayTrip, if_pos two]
    exact State.junctionTrip_trips (by rw [tripped]; exact free)
  rw [State.conversion_eq]
  split
  · exact trips.thermTrip d i
  · exact trips

theorem ThermTripped.of_conversion {s : State} {d i : Nat} {t : Int} (two : 2 ≤ s.tripRun d i t) (first : s.force.thermtrip = false) :
    ThermTripped (s.conversion d i t) := by
  have drive : (s.mayTrip ((s.doubts d i t).staysHot d t) d i t).force.thermtrip = false := by
    have before := s.tripDrive_doubts d i t
    rw [State.tripDrive, State.tripDrive, Prod.mk.injEq, Prod.mk.injEq] at before
    obtain ⟨_, same, _⟩ := before
    unfold State.mayTrip
    split
    · rw [State.thermtrip_junctionTrip, same, first]
    · rw [same, first]
  rw [State.conversion_eq, if_pos two]
  exact State.thermTrip_trips drive d i

theorem conversion_lands (hs : s.aon = true) (raw x : Int) (power : (s.die d.val).powered = true) (sensor : i.val < dieSensors d.val)
    (hx : x = s.trimmedT d.val i.val raw) :
    ∃ t, exec (.thermalConversion d i raw) s = .next t ∧ t.sensorT d.val i.val = x ∧
      (s.sensorOut d.val i.val = true → s.onlyChanges t [⟨.dagTsT, d.val, i.val⟩] []) ∧
      (s.sensorOut d.val i.val = false → 1 ≤ (s.sensor d.val i.val).above → toSigned 16 (s.rd .hrtLtripTrip) ≤ x →
        d.val ∉ s.hearth.tripped →
        t.force.junction = true ∧ t.floorOn = true ∧ t.flag .hrtHstatLtripact = true ∧ d.val ∈ t.hearth.tripped) ∧
      (s.sensorOut d.val i.val = false → 1 ≤ (s.sensor d.val i.val).trip → toSigned 16 (s.rd .hrtTtripTrip) ≤ x →
        s.force.thermtrip = false →
        t.force.thermtrip = true ∧ t.floorOn = true ∧ t.flag .hrtHstatTtrip = true ∧ t.pins.thermtripN = false ∧
          t.flag .fltStatusFatal = true) := by
  obtain ⟨lo, hi⟩ := s.trimmedT_range d.val i.val raw
  rw [← hx] at lo hi
  refine ⟨_, exec_conversion hs raw power sensor, ?_, fun out => ?_, fun works above hot first => ?_, fun works trip hot first => ?_⟩
  · rw [State.sensorT, State.rd_commit _ _ _ _ _ rfl, ← hx]
    split
    · exact s.shown_wr lo hi d.isLt sensor
    · rw [State.dagTsT_conversion]
      exact s.shown_wr lo hi d.isLt sensor
  · rw [if_pos out]
    exact State.onlyChanges_commit (State.onlyChanges_wr (s.onlyChanges_refl _ _) _ _ _ _ List.mem_cons_self)
  · obtain ⟨force, floor, flag, die⟩ := JunctionTripped.of_conversion (t := x) (two_le_runOf above hot) first
    rw [works, if_neg Bool.false_ne_true, ← hx, State.flag, State.rd_commit _ _ _ _ _ rfl]
    exact ⟨force, floor, flag, die⟩
  · obtain ⟨force, floor, flag, ball, fatal⟩ := ThermTripped.of_conversion (t := x) (two_le_runOf trip hot) first
    rw [works, if_neg Bool.false_ne_true, ← hx, State.flag, State.flag, State.rd_commit _ _ _ _ _ rfl, State.rd_commit _ _ _ _ _ rfl]
    exact ⟨force, floor, flag, ball, fatal⟩

end Conversion

/-! ## The junction trip lets go (R219) -/

/-- No die tripped any more. -/
def State.noneTripped (s : State) : State := { s with hearth := { s.hearth with tripped := [] } }

/-- The junction trip let go, once its dies have been cool for 10 ms. -/
def State.cooled (s : State) : State := (s.advanceTo (s.hearth.hotAt + 10000000)).noneTripped.wr .hrtHstatLtripact 0

theorem releaseFloor_other {α : Type} {g : State → α} (put : ∀ s r v, g (State.put s r v) = g s) (force : ∀ s x, g { s with force := x } = g s)
    (s : State) (f : Forcing → Forcing) : g (s.releaseFloor f) = g s := by
  rw [State.releaseFloor]
  exact (put _ _ _).trans (force s _)

theorem State.force_releaseFloor (s : State) (f : Forcing → Forcing) : (s.releaseFloor f).force = f s.force :=
  State.wr_force _ _ _ _ _

theorem State.rd_releaseFloor (s : State) (f : Forcing → Forcing) {x : Field} (i j : Nat) (h : .govStateFloorf ≠ x) :
    (s.releaseFloor f).rd x i j = s.rd x i j := by
  rw [State.releaseFloor]
  exact (State.rd_wr_field _ _ _ _ _ _ h).trans rfl

theorem State.floorOn_put (s : State) (r : FieldRef) (v : Nat) : (s.put r v).floorOn = s.floorOn :=
  State.put_other State.floorOn (by intros; rfl) (by intros; rfl) s r v

theorem exec_tripRelease {s : State} (hs : s.aon = true) (trip : s.force.junction = true)
    (cool : ∀ e ∈ s.hearth.tripped, ∀ k, k < dieSensors e → s.sensorOut e k = true ∨ s.sensorT e k < toSigned 16 (s.rd .hrtLtripRel)) :
    exec .lintelTripRelease s = .next (s.commit (s.cooled.releaseFloor fun f => { f with junction := false })) := by
  have gate : (s.hearth.tripped.all fun d => (upto (dieSensors d)).all fun i =>
      s.sensorOut d i || decide (s.sensorT d i < toSigned 16 (s.rd .hrtLtripRel))) = true := by
    simpa only [List.all_eq_true, upto, List.mem_range, Bool.or_eq_true, decide_eq_true_eq] using cool
  change execLintelTripRelease s = _
  rw [execLintelTripRelease, State.run_on _ hs]
  simp only [trip, gate, Bool.and_self, if_true]
  rfl

theorem tripRelease_lands {s : State} (hs : s.aon = true) (trip : s.force.junction = true)
    (cool : ∀ e ∈ s.hearth.tripped, ∀ k, k < dieSensors e → s.sensorOut e k = true ∨ s.sensorT e k < toSigned 16 (s.rd .hrtLtripRel)) :
    ∃ t, exec .lintelTripRelease s = .next t ∧ t.force = { s.force with junction := false } ∧ t.hearth.tripped = [] ∧
      t.flag .hrtHstatLtripact = false ∧ t.floorOn = s.floorOn ∧ s.hearth.hotAt + 10000000 ≤ t.now ∧ s.sameTabsBut t [] := by
  have none (u : State) : u.noneTripped.force = u.force ∧ u.noneTripped.floorOn = u.floorOn ∧ u.noneTripped.now = u.now ∧
      u.noneTripped.hearth.tripped = [] := ⟨rfl, rfl, rfl, rfl⟩
  obtain ⟨force, floor, now, tripped⟩ := none (s.advanceTo (s.hearth.hotAt + 10000000))
  refine ⟨_, exec_tripRelease hs trip cool, ?_, ?_, ?_, ?_, ?_, State.sameTabs_commit fun x _ => ?_⟩
  · rw [State.force_commit, State.force_releaseFloor, State.cooled, State.wr_force, force,
      State.advanceTo_other State.force State.put_force (by intros; rfl) (by intros; rfl)]
  · rw [State.hearth_commit, releaseFloor_other (g := State.hearth) State.put_hearth (by intros; rfl), State.cooled, State.wr_hearth, tripped]
  · rw [State.flag, State.rd_commit _ _ _ _ _ rfl, State.rd_releaseFloor _ _ _ _ (by decide), State.cooled, State.rd_wr_zero]
    rfl
  · rw [State.floorOn_commit, releaseFloor_other (g := State.floorOn) State.floorOn_put (by intros; rfl), State.cooled, State.floorOn_wr, floor,
      State.advanceTo_other State.floorOn State.floorOn_put (by intros; rfl) (by intros; rfl)]
  · rw [State.commit_now, releaseFloor_other (g := State.now) State.put_now (by intros; rfl), State.cooled, State.wr_now, now, State.advanceTo_now]
    omega
  · have put (n : State) (r : FieldRef) (v : Nat) : s.sameIn (n.put r v) x = s.sameIn n x :=
      State.put_other (fun n => s.sameIn n x) (fun _ _ => by cases x <;> rfl) (fun _ _ => by cases x <;> rfl) n r v
    have none (u : State) : s.sameIn u.noneTripped x = s.sameIn u x := by cases x <;> rfl
    have wrote (u : State) : s.sameIn (u.wr .hrtHstatLtripact 0) x = s.sameIn u x := put u _ _
    rw [releaseFloor_other (g := fun n => s.sameIn n x) put (fun _ _ => by cases x <;> rfl), State.cooled, wrote, none]
    exact s.sameTabs_advanceTo _ x List.not_mem_nil

/-! ## A suspect sensor's self-test (R218) -/

/-- A sensor found good: suspect no more, and its deviations forgotten. -/
def State.cleared (s : State) (d i : Nat) : State :=
  ((s.selfTest true).wr .dagTsSuspect 0 d i).setSensor d i { (s.selfTest true).sensor d i with dev := 0 }

section Selftest
variable {s : State} {d : Die} {i : Fin 48} (hs : s.aon = true) (power : (s.die d.val).powered = true) (sus : s.flag .dagTsSuspect d.val i.val = true)
include hs power sus

theorem exec_sensorPasses {err : Int} (lo : -24 ≤ err) (hi : err ≤ 24) :
    exec (.sensorSelftest d i err) s = .next (s.commit (s.cleared d.val i.val)) := by
  have pass : (decide (-24 ≤ err) && decide (err ≤ 24)) = true := by simp [lo, hi]
  change execSensorSelftest d i err s = _
  rw [execSensorSelftest, State.run_on _ hs]
  simp only [power, sus, pass, Bool.and_self, if_true]
  rfl

theorem exec_sensorFails {err : Int} (h : err < -24 ∨ 24 < err) :
    exec (.sensorSelftest d i err) s = .next (s.commit ((s.selfTest false).retireSensor d.val i.val)) := by
  have fail : (decide (-24 ≤ err) && decide (err ≤ 24)) = false := by
    rw [Bool.and_eq_false_iff, decide_eq_false_iff_not, decide_eq_false_iff_not]
    omega
  change execSensorSelftest d i err s = _
  rw [execSensorSelftest, State.run_on _ hs]
  simp only [power, sus, fail, Bool.and_self, if_true, Bool.false_eq_true, if_false]

end Selftest

/-- A sensor that is suspect is one that the die has. -/
theorem State.sensor_of_suspect {s : State} {d i : Nat} (h : s.flag .dagTsSuspect d i = true) : (⟨.dagTsSuspect, d, i⟩ : FieldRef).exists = true := by
  by_contra out
  have zero : s.rd .dagTsSuspect d i = 0 := s.reg_absent (Bool.eq_false_iff.2 out)
  rw [State.flag, zero] at h
  exact absurd h (by decide)

/-- The registers of a sensor's retirement. -/
def State.sensorRetired (s : State) (d i : Nat) : State :=
  s.puts [(⟨.dagTsSuspect, d, i⟩, 0), (⟨.dagTsRetired, d, i⟩, 1), (⟨.hrtDieRetcnt, 0, d⟩, s.rd .hrtDieRetcnt 0 d + 1)]

theorem State.suspect_sensorRetired (s : State) (d i : Nat) : (s.sensorRetired d i).rd .dagTsSuspect d i = 0 := by
  change (((s.wr .dagTsSuspect 0 d i).wr .dagTsRetired 1 d i).wr .hrtDieRetcnt (s.rd .hrtDieRetcnt 0 d + 1) 0 d).rd .dagTsSuspect d i = 0
  rw [State.rd_wr_field _ _ _ _ _ _ (by decide), State.rd_wr_field _ _ _ _ _ _ (by decide), State.rd_wr_zero]

theorem State.retired_sensorRetired (s : State) {d i : Nat} (h : (⟨.dagTsSuspect, d, i⟩ : FieldRef).exists = true) :
    (s.sensorRetired d i).rd .dagTsRetired d i = 1 := by
  change (((s.wr .dagTsSuspect 0 d i).wr .dagTsRetired 1 d i).wr .hrtDieRetcnt (s.rd .hrtDieRetcnt 0 d + 1) 0 d).rd .dagTsRetired d i = 1
  rw [State.rd_wr_field _ _ _ _ _ _ (by decide), State.rd_wr_same _ .dagTsRetired _ _ _ h]
  rfl

theorem State.retcnt_sensorRetired (s : State) {d : Nat} (hd : d < 40) (i : Nat) :
    (s.sensorRetired d i).rd .hrtDieRetcnt 0 d = (s.rd .hrtDieRetcnt 0 d + 1) % 2 ^ (fieldDef .hrtDieRetcnt).width := by
  have there : (⟨.hrtDieRetcnt, 0, d⟩ : FieldRef).exists = true := by
    have one : Field.instances .hrtDieRetcnt = 1 := rfl
    have all : (fieldDef .hrtDieRetcnt).count = 40 := rfl
    have blk : (fieldDef .hrtDieRetcnt).blk = .hrt := rfl
    simp [FieldRef.exists, one, all, blk, hd]
  exact State.rd_wr_same ((s.wr .dagTsSuspect 0 d i).wr .dagTsRetired 1 d i) .hrtDieRetcnt _ 0 d there

/-- A retirement's faults leave what no fault touches. -/
theorem State.rd_retireSensor (s : State) (d i : Nat) {f : Field} (a b : Nat) (hf : latchField f = false) :
    (s.retireSensor d i).rd f a b = (s.sensorRetired d i).rd f a b := by
  have faults (u : State) (c : Prop) [Decidable c] : (if c then (u.dieFault d (corr 10 2 (unitOf d i) 7)).dieFault d
      (cont 10 3 (unitOf d i) (dieScope d) 7) else u.dieFault d (corr 10 2 (unitOf d i) 7)).rd f a b = u.rd f a b := by
    split
    · rw [State.rd_dieFault _ _ _ _ _ hf, State.rd_dieFault _ _ _ _ _ hf]
    · rw [State.rd_dieFault _ _ _ _ _ hf]
  exact faults _ _

theorem sensorSelftest_lands {s : State} {d : Die} {i : Fin 48} (hs : s.aon = true) (err : Int) (power : (s.die d.val).powered = true)
    (sus : s.flag .dagTsSuspect d.val i.val = true) :
    ∃ t, exec (.sensorSelftest d i err) s = .next t ∧ t.flag .dagTsSuspect d.val i.val = false ∧
      (-24 ≤ err → err ≤ 24 → t.sensorOut d.val i.val = s.sensorOut d.val i.val ∧ t.rd .fltTrans = s.oneUp .fltTrans) ∧
      (err < -24 ∨ 24 < err → t.sensorOut d.val i.val = true ∧ t.rd .fltLasting = s.oneUp .fltLasting ∧
        t.rd .hrtDieRetcnt 0 d.val = (s.rd .hrtDieRetcnt 0 d.val + 1) % 2 ^ (fieldDef .hrtDieRetcnt).width) := by
  have there := State.sensor_of_suspect sus
  by_cases pass : -24 ≤ err ∧ err ≤ 24
  · have rd (f : Field) (a b : Nat) : (s.cleared d.val i.val).rd f a b = ((s.selfTest true).wr .dagTsSuspect 0 d.val i.val).rd f a b :=
      State.rd_updDie _ _ _ _ _ _
    refine ⟨_, exec_sensorPasses hs power sus pass.1 pass.2, ?_, fun _ _ => ⟨?_, ?_⟩, fun h => by omega⟩
    · rw [State.flag, State.rd_commit _ _ _ _ _ rfl, rd, State.rd_wr_zero]
      rfl
    · rw [State.sensorOut, State.sensorOut, State.flag, State.flag, State.rd_commit _ _ _ _ _ rfl, rd, State.rd_wr_field _ _ _ _ _ _ (by decide),
        State.selfTest, State.count, State.rd_wr_field _ _ _ _ _ _ (by decide)]
    · rw [State.rd_commit _ _ _ _ _ rfl, rd, State.rd_wr_field _ _ _ _ _ _ (by decide), State.selfTest, if_pos rfl,
        State.rd_count_same _ (f := .fltTrans) rfl]
  · have fails : err < -24 ∨ 24 < err := by omega
    refine ⟨_, exec_sensorFails hs power sus fails, ?_, fun lo hi => absurd ⟨lo, hi⟩ pass, fun _ => ⟨?_, ?_, ?_⟩⟩
    · rw [State.flag, State.rd_commit _ _ _ _ _ rfl, State.rd_retireSensor _ _ _ _ _ rfl, State.suspect_sensorRetired]
      rfl
    · rw [State.sensorOut, State.flag, State.rd_commit _ _ _ _ _ rfl, State.rd_retireSensor _ _ _ _ _ rfl, State.retired_sensorRetired _ there]
      rfl
    · rw [State.rd_commit _ _ _ _ _ rfl, State.rd_retireSensor _ _ _ _ _ rfl, State.sensorRetired, State.rd_puts_other _ _ _ (by simp),
        State.selfTest, if_neg Bool.false_ne_true, State.rd_count_same _ (f := .fltLasting) rfl]
    · rw [State.rd_commit _ _ _ _ _ rfl, State.rd_retireSensor _ _ _ _ _ rfl, State.retcnt_sensorRetired _ d.isLt, State.selfTest, State.count,
        State.rd_wr_field _ _ _ _ _ _ (by decide)]

/-- Settles O41: a conversion's trips follow one another and leave each other's forcing; release and self-test write their own registers. -/
theorem sensorsTripAndRetire : Obligations.SensorsTripAndRetire :=
  fun _ _ _ hs => ⟨conversion_lands hs, tripRelease_lands hs, sensorSelftest_lands hs⟩

end Sys2Proof.Machine

/-!
Settles O42: the inlet temperature written and stale, the windows latched from the bins fixed so far, and the checkpoint of every powered die.
-/

namespace Sys2Proof.Machine

/-! ## The coolant inlet (R225, R226) -/

theorem exec_inletWrite (p : Port) (v : BitVec 16) {s : State} (hs : s.aon = true) :
    exec (.inletWrite p v) s = .next (s.commit (if p.isHost then s else s.inlet v.toNat)) :=
  State.run_on (fun s => if p.isHost then s else s.inlet v.toNat) hs

/-- An inlet temperature within what the run can use. -/
def clampedInlet (t : Int) : Int := max (-160) (min 1280 t)

/-- The registers of a fresh inlet temperature. -/
def State.inletShown (s : State) (c : Int) : State :=
  s.puts [(⟨.hrtInletVal, 0, 0⟩, ofSigned 16 c), (⟨.hrtInletAge, 0, 0⟩, 0), (⟨.hrtHstatStale, 0, 0⟩, 0)]

/-- The mark of an inlet temperature that was clamped. -/
def State.inletMarked (s : State) (t : Int) : State := if clampedInlet t = t then s else s.wr .hrtHstatInclamp 1

/-- The instant at which the inlet temperature was last written. -/
def State.inletTimed (s : State) (t : Nat) : State := { s with hearth := { s.hearth with inletAt := some t } }

theorem State.inlet_eq (s : State) (v : Nat) :
    s.inlet v = ((s.takeInlet.inletShown (clampedInlet (toSigned 16 v))).inletMarked (toSigned 16 v)).inletTimed s.now := rfl

/-- The registers that a written inlet temperature moves. -/
def inletRefs : List FieldRef := [⟨.hrtInletVal, 0, 0⟩, ⟨.hrtInletAge, 0, 0⟩, ⟨.hrtHstatStale, 0, 0⟩, ⟨.hrtHstatInclamp, 0, 0⟩]

theorem State.onlyChanges_inletShown (s : State) (c t : Int) : s.onlyChanges ((s.inletShown c).inletMarked t) inletRefs [] := by
  have shown : s.onlyChanges (s.inletShown c) inletRefs [] :=
    State.onlyChanges_puts (s.onlyChanges_refl _ _) _ (by simp [inletRefs])
  unfold State.inletMarked
  split
  · exact shown
  · exact State.onlyChanges_wr shown _ _ _ _ (by simp [inletRefs])

theorem State.rd_inletMarked (s : State) (t : Int) {f : Field} (i j : Nat) (h : .hrtHstatInclamp ≠ f) : (s.inletMarked t).rd f i j = s.rd f i j := by
  unfold State.inletMarked
  split
  · rfl
  · exact s.rd_wr_field _ _ _ _ _ h

theorem State.val_inletShown (s : State) (c : Int) : (s.inletShown c).rd .hrtInletVal = ofSigned 16 c := by
  change (((s.wr .hrtInletVal (ofSigned 16 c)).wr .hrtInletAge 0).wr .hrtHstatStale 0).rd .hrtInletVal = _
  rw [State.rd_wr_field _ _ _ _ _ _ (by decide), State.rd_wr_field _ _ _ _ _ _ (by decide), State.rd_wr_same _ .hrtInletVal _ _ _ rfl]
  exact Nat.mod_eq_of_lt (ofSigned_lt 16 c)

theorem State.age_inletShown (s : State) (c : Int) : (s.inletShown c).rd .hrtInletAge = 0 := by
  change (((s.wr .hrtInletVal (ofSigned 16 c)).wr .hrtInletAge 0).wr .hrtHstatStale 0).rd .hrtInletAge = _
  rw [State.rd_wr_field _ _ _ _ _ _ (by decide), State.rd_wr_zero]

theorem State.stale_inletShown (s : State) (c : Int) : (s.inletShown c).flag .hrtHstatStale = false := by
  have zero : (s.inletShown c).rd .hrtHstatStale = 0 :=
    State.rd_wr_zero ((s.wr .hrtInletVal (ofSigned 16 c)).wr .hrtInletAge 0) .hrtHstatStale 0 0
  rw [State.flag, zero]
  rfl

/-- A run that has started keeps its temperature, and one that starts takes the one in force. -/
theorem State.inletRun_takeInlet (s : State) :
    (s.hearth.inletRun = none → 1000000 * s.hearth.ms + 10000 ≤ s.now → s.takeInlet.hearth.inletRun = some s.inletNow) ∧
      ∀ x, s.hearth.inletRun = some x → s.takeInlet.hearth.inletRun = some x := by
  constructor
  · intro free started
    simp only [State.takeInlet, free, Option.isNone_none, started, decide_true, Bool.and_self, if_true]
  · intro x taken
    simp only [State.takeInlet, taken, Option.isNone_some, Bool.false_and, Bool.false_eq_true, if_false]

theorem State.takeInlet_other {α : Type} {g : State → α} (hearth : ∀ s x, g { s with hearth := x } = g s) (s : State) : g s.takeInlet = g s := by
  unfold State.takeInlet
  split
  · exact hearth s _
  · rfl

theorem State.core_takeInlet (s : State) : s.takeInlet.core = { s.core with hearth := s.takeInlet.hearth } := by
  unfold State.takeInlet
  split <;> rfl

/-- The inlet temperature written, before its instant is noted. -/
def State.inletWritten (s : State) (v : Nat) : State := (s.takeInlet.inletShown (clampedInlet (toSigned 16 v))).inletMarked (toSigned 16 v)

theorem State.rd_inletTimed (s : State) (n : Nat) (f : Field) (i j : Nat) : (s.inletTimed n).rd f i j = s.rd f i j := rfl
theorem State.reg_inletTimed (s : State) (n : Nat) (r : FieldRef) : (s.inletTimed n).reg r = s.reg r := rfl
theorem State.sameIn_inletTimed (s u : State) (n : Nat) (x : Tab) : s.sameIn (u.inletTimed n) x = s.sameIn u x := by cases x <;> rfl
theorem State.core_inletTimed (s : State) (n : Nat) : (s.inletTimed n).core = { s.core with hearth := { s.hearth with inletAt := some n } } := rfl

theorem puts_of_put {α : Type} {g : State → α} (put : ∀ s r v, g (State.put s r v) = g s) (s : State) (l : List (FieldRef × Nat)) : g (s.puts l) = g s := by
  induction l generalizing s with
  | nil => rfl
  | cons e l ih => exact (ih _).trans (put s _ _)

/-- What a written inlet temperature reaches beside registers and the Hearth. -/
theorem inletWritten_other {α : Type} {g : State → α} (put : ∀ s r v, g (State.put s r v) = g s) (hearth : ∀ s x, g { s with hearth := x } = g s)
    (s : State) (v : Nat) : g (s.inletWritten v) = g s := by
  have shown (u : State) (c : Int) : g (u.inletShown c) = g u := puts_of_put put u _
  unfold State.inletWritten State.inletMarked
  split
  · rw [shown, State.takeInlet_other hearth]
  · exact (put _ _ _).trans ((shown _ _).trans (State.takeInlet_other hearth s))

theorem State.hearth_inletWritten (s : State) (v : Nat) : (s.inletWritten v).hearth = s.takeInlet.hearth := by
  have core := (s.takeInlet.onlyChanges_inletShown (clampedInlet (toSigned 16 v)) (toSigned 16 v)).2.2
  exact (congrArg (fun x => x.hearth) core :)

theorem State.core_inletWritten (s : State) (v : Nat) : (s.inletWritten v).core = { s.core with hearth := s.takeInlet.hearth } :=
  (s.takeInlet.onlyChanges_inletShown (clampedInlet (toSigned 16 v)) (toSigned 16 v)).2.2.trans s.core_takeInlet

theorem exec_inletWrite_lands {s : State} {p : Port} (v : BitVec 16) (hs : s.aon = true) (own : p.isHost = false) :
    exec (.inletWrite p v) s = .next (s.commit ((s.inletWritten v.toNat).inletTimed s.now)) := by
  rw [exec_inletWrite p v hs, own, if_neg Bool.false_ne_true, State.inlet_eq, State.inletWritten]

theorem State.inclamp_inletWritten (s : State) {v : Nat} (h : toSigned 16 v < -160 ∨ 1280 < toSigned 16 v) :
    (s.inletWritten v).flag .hrtHstatInclamp = true := by
  have out : ¬ clampedInlet (toSigned 16 v) = toSigned 16 v := by
    unfold clampedInlet
    omega
  rw [State.inletWritten, State.inletMarked, if_neg out]
  exact State.flag_wr_one _ (f := .hrtHstatInclamp) rfl rfl

theorem inletWrite_lands {s : State} {p : Port} {v : BitVec 16} (hs : s.aon = true) (own : p.isHost = false) :
    ∃ t, exec (.inletWrite p v) s = .next t ∧
      t.rd .hrtInletVal = ofSigned 16 (max (-160) (min 1280 (toSigned 16 v.toNat))) ∧ t.rd .hrtInletAge = 0 ∧
      t.flag .hrtHstatStale = false ∧
      (toSigned 16 v.toNat < -160 ∨ 1280 < toSigned 16 v.toNat → t.flag .hrtHstatInclamp = true) ∧
      s.sameRegsBut t [⟨.hrtInletVal, 0, 0⟩, ⟨.hrtInletAge, 0, 0⟩, ⟨.hrtHstatStale, 0, 0⟩, ⟨.hrtHstatInclamp, 0, 0⟩] ∧ s.sameTabsBut t [] ∧
      t.core = { s.core with hearth := { s.takeInlet.hearth with inletAt := some s.now } } ∧
      (s.hearth.inletRun = none → 1000000 * s.hearth.ms + 10000 ≤ s.now → t.hearth.inletRun = some s.inletNow) ∧
      (∀ x, s.hearth.inletRun = some x → t.hearth.inletRun = some x) := by
  have put (x : Tab) (n : State) (r : FieldRef) (v : Nat) : s.sameIn (n.put r v) x = s.sameIn n x :=
    State.put_other (fun n => s.sameIn n x) (fun _ _ => by cases x <;> rfl) (fun _ _ => by cases x <;> rfl) n r v
  obtain ⟨fresh, taken⟩ := s.inletRun_takeInlet
  rw [← s.hearth_inletWritten v.toNat] at fresh taken
  refine ⟨_, exec_inletWrite_lands v hs own, ?_, ?_, ?_, fun out => ?_, State.sameRegs_commit fun r hr => ?_, State.sameTabs_commit fun x _ => ?_, ?_,
    fresh, taken⟩
  · rw [State.rd_commit _ _ _ _ _ rfl, State.rd_inletTimed, State.inletWritten, State.rd_inletMarked _ _ _ _ (by decide), State.val_inletShown,
      clampedInlet]
  · rw [State.rd_commit _ _ _ _ _ rfl, State.rd_inletTimed, State.inletWritten, State.rd_inletMarked _ _ _ _ (by decide), State.age_inletShown]
  · rw [State.flag, State.rd_commit _ _ _ _ _ rfl, State.rd_inletTimed, State.inletWritten, State.rd_inletMarked _ _ _ _ (by decide)]
    exact State.stale_inletShown _ _
  · rw [State.flag, State.rd_commit _ _ _ _ _ rfl, State.rd_inletTimed]
    exact s.inclamp_inletWritten out
  · rw [State.reg_inletTimed]
    exact ((s.takeInlet.onlyChanges_inletShown _ _).1 r hr).trans (State.takeInlet_other (g := fun n => n.reg r) (by intros; rfl) s)
  · rw [State.sameIn_inletTimed, inletWritten_other (g := fun n => s.sameIn n x) (put x) (fun _ _ => by cases x <;> rfl)]
    exact s.sameIn_refl x
  · have pending : ((s.inletWritten v.toNat).inletTimed s.now).pending = s.pending :=
      inletWritten_other (g := State.pending) State.put_pending (by intros; rfl) s _
    have now : ((s.inletWritten v.toNat).inletTimed s.now).now = s.now :=
      inletWritten_other (g := State.now) State.put_now (by intros; rfl) s _
    rw [State.core_commit pending now, State.core_inletTimed, State.core_inletWritten, State.hearth_inletWritten]

/-- The registers of a stale inlet temperature. -/
def State.staleShown (s : State) : State := s.puts [(⟨.hrtInletAge, 0, 0⟩, 1000), (⟨.hrtHstatStale, 0, 0⟩, 1)]

theorem State.flag_staleShown (s : State) : s.staleShown.flag .hrtHstatStale = true :=
  State.flag_wr_one (s.wr .hrtInletAge 1000) (f := .hrtHstatStale) rfl rfl

theorem State.age_staleShown (s : State) : s.staleShown.rd .hrtInletAge = 1000 := by
  change ((s.wr .hrtInletAge 1000).wr .hrtHstatStale 1).rd .hrtInletAge = 1000
  rw [State.rd_wr_field _ _ _ _ _ _ (by decide), State.rd_wr_same _ .hrtInletAge _ _ _ rfl]
  rfl

/-- The inlet temperature stale. -/
def State.inletAged (s : State) (a : Nat) : State := (s.advanceTo (a + 1000000000)).takeInlet.staleShown

theorem exec_inletStale {s : State} {a : Nat} (hs : s.aon = true) (written : s.hearth.inletAt = some a) (fresh : s.flag .hrtHstatStale = false) :
    exec .inletStale s = .next (s.commit ((s.inletAged a).event 2566 0 0 none)) := by
  change execInletStale s = _
  rw [execInletStale, State.run_on _ hs]
  simp only [written, fresh, Bool.false_eq_true, if_false]
  rfl

/-- An event joins the Attic's queue while that has room. -/
theorem State.queued_event (s : State) (code sev unit : Nat) (part : Option Nat) : s.queued (s.event code sev unit part) code := by
  unfold State.queued State.event
  by_cases room : s.attic.queue.length < 64
  · rw [if_pos room, if_pos room]
    exact ⟨_, rfl, rfl⟩
  · rw [if_neg room, if_neg room, State.count_attic]

theorem State.queued_of_attic {s u t : State} {code : Nat} (h : u.attic = s.attic) (q : u.queued t code) : s.queued t code := by
  rw [State.queued, h] at q
  exact q

theorem State.queued_commit {s t n : State} {code : Nat} (q : s.queued n code) : s.queued (t.commit n) code := q

theorem inletStale_lands {s : State} (hs : s.aon = true) (a : Nat) (written : s.hearth.inletAt = some a) (fresh : s.flag .hrtHstatStale = false) :
    ∃ t, exec .inletStale s = .next t ∧ t.flag .hrtHstatStale = true ∧ t.rd .hrtInletAge = 1000 ∧ a + 1000000000 ≤ t.now ∧
      t.rd .hrtInletVal = s.rd .hrtInletVal ∧ s.queued t 2566 ∧ s.sameTabsBut t [] := by
  have rd (f : Field) (i j : Nat) : (s.advanceTo (a + 1000000000)).takeInlet.rd f i j = (s.advanceTo (a + 1000000000)).rd f i j :=
    State.takeInlet_other (g := fun n => n.rd f i j) (by intros; rfl) _
  have aged {α : Type} {g : State → α} (put : ∀ s r v, g (State.put s r v) = g s) (hearth : ∀ s x, g { s with hearth := x } = g s) :
      g (s.inletAged a) = g (s.advanceTo (a + 1000000000)) := by
    rw [State.inletAged, State.staleShown, puts_of_put put, State.takeInlet_other hearth]
  refine ⟨_, exec_inletStale hs written fresh, ?_, ?_, ?_, ?_, ?_, State.sameTabs_commit fun x _ => ?_⟩
  · rw [State.flag, State.rd_commit _ _ _ _ _ rfl, event_blind (blind_rd .hrtHstatStale 0 0 rfl), State.inletAged]
    exact State.flag_staleShown _
  · rw [State.rd_commit _ _ _ _ _ rfl, event_blind (blind_rd .hrtInletAge 0 0 rfl), State.inletAged, State.age_staleShown]
  · have late : (s.inletAged a).now = max s.now (a + 1000000000) := (aged State.put_now (by intros; rfl)).trans (s.advanceTo_now _)
    rw [State.commit_now, event_blind blind_now, late]
    omega
  · rw [State.rd_commit _ _ _ _ _ rfl, event_blind (blind_rd .hrtInletVal 0 0 rfl), State.inletAged, State.staleShown, State.rd_puts_other _ _ _ (by simp), rd,
      State.rd_advanceTo _ _ _ _ (by decide)]
  · have attic : (s.inletAged a).attic = s.attic :=
      (aged State.put_attic (by intros; rfl)).trans (State.advanceTo_other State.attic State.put_attic (by intros; rfl) (by intros; rfl) s _)
    exact State.queued_commit (State.queued_of_attic attic (State.queued_event _ _ _ _ _))
  · have put (n : State) (r : FieldRef) (v : Nat) : s.sameIn (n.put r v) x = s.sameIn n x :=
      State.put_other (fun n => s.sameIn n x) (fun _ _ => by cases x <;> rfl) (fun _ _ => by cases x <;> rfl) n r v
    have event (u : State) : s.sameIn (u.event 2566 0 0 none) x = s.sameIn u x := by
      unfold State.event
      split
      · cases x <;> rfl
      · exact put u _ _
    rw [event, aged (g := fun n => s.sameIn n x) put (fun _ _ => by cases x <;> rfl)]
    exact s.sameTabs_advanceTo _ x List.not_mem_nil

/-! ## The windows latched (R232) -/

/-- The state 60 ns after the boundary, the bin fixed. -/
def State.latchAt (s : State) : State := s.fixBin.advanceTo (1000000 * s.hearth.ms + 60)

/-- What a latch of a window leaves beside registers and the Hearth. -/
theorem latchAt_other {α : Type} {g : State → α} (put : ∀ s r v, g (State.put s r v) = g s) (hearth : ∀ s x, g { s with hearth := x } = g s)
    (lim : ∀ s x, g { s with lim := x } = g s) (age : ∀ s x, g { s with age := x } = g s) (now : ∀ s x, g { s with now := x } = g s) (s : State) :
    g s.latchAt = g s := by
  rw [State.latchAt, State.advanceTo_other g put age now, State.fixBin_other put hearth lim]

theorem State.hearth_latchAt (s : State) : s.latchAt.hearth = s.fixBin.hearth := by
  rw [State.latchAt, State.hearth_advanceTo]

theorem State.now_latchAt (s : State) : s.latchAt.now = max s.now (1000000 * s.hearth.ms + 60) := by
  rw [State.latchAt, State.advanceTo_now, State.now_fixBin]

theorem State.sameTabs_latchAt (s : State) : s.sameTabsBut s.latchAt [] := by
  intro x _
  have put (n : State) (r : FieldRef) (v : Nat) : s.sameIn (n.put r v) x = s.sameIn n x :=
    State.put_other (fun n => s.sameIn n x) (fun _ _ => by cases x <;> rfl) (fun _ _ => by cases x <;> rfl) n r v
  rw [latchAt_other (g := fun n => s.sameIn n x) put (fun _ _ => by cases x <;> rfl) (fun _ _ => by cases x <;> rfl) (fun _ _ => by cases x <;> rfl)
    fun _ _ => by cases x <;> rfl]
  exact s.sameIn_refl x

/-- The registers of the window of 1 s. -/
def State.w1Shown (s : State) (h : HearthState) : State :=
  s.puts [(⟨.hrtW1lat, 0, 0⟩, h.e1 / 65536), (⟨.hrtW1statW1pk, 0, 0⟩, min 0xFFFF (roundNat 24 ((h.secPeak : Rat) / 8192000))),
    (⟨.hrtW1statW1cool, 0, 0⟩, min 1000 h.secCool)]

/-- The Hearth once the window of 1 s is latched. -/
def HearthState.latched1 (h : HearthState) (m : Nat) : HearthState := { h with secPeak := 0, secCool := 0, lat1 := m }

/-- The Hearth once the window of 30 s is latched. -/
def HearthState.latched30 (h : HearthState) (m : Nat) : HearthState := { h with lat30 := m }

/-- Another state of the Hearth. -/
def State.withHearth (s : State) (h : HearthState) : State := { s with hearth := h }

theorem State.rd_withHearth (s : State) (h : HearthState) (f : Field) (i j : Nat) : (s.withHearth h).rd f i j = s.rd f i j := rfl
theorem State.now_withHearth (s : State) (h : HearthState) : (s.withHearth h).now = s.now := rfl
theorem State.hearth_withHearth (s : State) (h : HearthState) : (s.withHearth h).hearth = h := rfl
theorem State.sameIn_withHearth (s n : State) (h : HearthState) (x : Tab) : s.sameIn (n.withHearth h) x = s.sameIn n x := by cases x <;> rfl

/-- The window of 1 s latched. -/
def State.latched1 (s : State) : State := (s.latchAt.w1Shown s.latchAt.hearth).withHearth (s.latchAt.hearth.latched1 s.hearth.ms)

/-- The window of 30 s latched. -/
def State.latched30 (s : State) : State :=
  (s.latchAt.wr .hrtW30lat (s.latchAt.hearth.e30 / 65536)).withHearth (s.latchAt.hearth.latched30 s.hearth.ms)

section Windows
variable {s : State} (hs : s.aon = true)
include hs

theorem exec_windowLatch1s (second : s.hearth.ms % 1000 = 0) (once : s.hearth.ms ≠ s.hearth.lat1) :
    exec .windowLatch1s s = .next (s.commit s.latched1) := by
  have gate : (decide (s.hearth.ms % 1000 ≠ 0) || decide (s.hearth.ms = s.hearth.lat1)) = false := by simp [second, once]
  change execWindowLatch1s s = _
  rw [execWindowLatch1s, State.run_on _ hs]
  simp only [gate, Bool.false_eq_true, if_false, State.latched1, State.latchAt, State.withHearth, State.w1Shown, HearthState.latched1]

theorem exec_windowLatch1s_idle (h : s.hearth.ms % 1000 ≠ 0 ∨ s.hearth.ms = s.hearth.lat1) : exec .windowLatch1s s = .next (s.commit s) := by
  have gate : (decide (s.hearth.ms % 1000 ≠ 0) || decide (s.hearth.ms = s.hearth.lat1)) = true := by
    rw [Bool.or_eq_true, decide_eq_true_eq, decide_eq_true_eq]
    exact h
  change execWindowLatch1s s = _
  rw [execWindowLatch1s, State.run_on _ hs]
  simp only [gate, if_true]

theorem exec_windowLatch30s (second : s.hearth.ms % 30000 = 0) (once : s.hearth.ms ≠ s.hearth.lat30) :
    exec .windowLatch30s s = .next (s.commit s.latched30) := by
  have gate : (decide (s.hearth.ms % 30000 ≠ 0) || decide (s.hearth.ms = s.hearth.lat30)) = false := by simp [second, once]
  change execWindowLatch30s s = _
  rw [execWindowLatch30s, State.run_on _ hs]
  simp only [gate, Bool.false_eq_true, if_false, State.latched30, State.latchAt, State.withHearth, HearthState.latched30]

theorem exec_windowLatch30s_idle (h : s.hearth.ms % 30000 ≠ 0 ∨ s.hearth.ms = s.hearth.lat30) : exec .windowLatch30s s = .next (s.commit s) := by
  have gate : (decide (s.hearth.ms % 30000 ≠ 0) || decide (s.hearth.ms = s.hearth.lat30)) = true := by
    rw [Bool.or_eq_true, decide_eq_true_eq, decide_eq_true_eq]
    exact h
  change execWindowLatch30s s = _
  rw [execWindowLatch30s, State.run_on _ hs]
  simp only [gate, if_true]

end Windows

theorem State.w1lat_w1Shown (s : State) (h : HearthState) : (s.w1Shown h).rd .hrtW1lat = h.e1 / 65536 % 2 ^ 64 := by
  change (((s.wr .hrtW1lat (h.e1 / 65536)).wr .hrtW1statW1pk _).wr .hrtW1statW1cool _).rd .hrtW1lat = _
  rw [State.rd_wr_field _ _ _ _ _ _ (by decide), State.rd_wr_field _ _ _ _ _ _ (by decide), State.rd_wr_same _ .hrtW1lat _ _ _ rfl]
  rfl

theorem State.w1pk_w1Shown (s : State) (h : HearthState) :
    (s.w1Shown h).rd .hrtW1statW1pk = min 0xFFFF (roundNat 24 ((h.secPeak : Rat) / 8192000)) := by
  change (((s.wr .hrtW1lat _).wr .hrtW1statW1pk (min 0xFFFF (roundNat 24 ((h.secPeak : Rat) / 8192000)))).wr .hrtW1statW1cool _).rd .hrtW1statW1pk = _
  rw [State.rd_wr_field _ _ _ _ _ _ (by decide), State.rd_wr_same _ .hrtW1statW1pk _ _ _ rfl]
  exact Nat.mod_eq_of_lt (Nat.lt_of_le_of_lt (Nat.min_le_left _ _) (by decide))

theorem State.w1cool_w1Shown (s : State) (h : HearthState) : (s.w1Shown h).rd .hrtW1statW1cool = min 1000 h.secCool := by
  change (((s.wr .hrtW1lat _).wr .hrtW1statW1pk _).wr .hrtW1statW1cool (min 1000 h.secCool)).rd .hrtW1statW1cool = _
  rw [State.rd_wr_same _ .hrtW1statW1cool _ _ _ rfl]
  exact Nat.mod_eq_of_lt (Nat.lt_of_le_of_lt (Nat.min_le_left _ _) (by decide))

theorem HearthState.e1_latched1 (h : HearthState) (m : Nat) : (h.latched1 m).e1 = h.e1 := rfl
theorem HearthState.lat1_latched1 (h : HearthState) (m : Nat) : (h.latched1 m).lat1 = m := rfl
theorem HearthState.secPeak_latched1 (h : HearthState) (m : Nat) : (h.latched1 m).secPeak = 0 := rfl
theorem HearthState.secCool_latched1 (h : HearthState) (m : Nat) : (h.latched1 m).secCool = 0 := rfl
theorem HearthState.e30_latched30 (h : HearthState) (m : Nat) : (h.latched30 m).e30 = h.e30 := rfl

theorem State.hearth_latched1 (s : State) : (s.commit s.latched1).hearth = s.fixBin.hearth.latched1 s.hearth.ms := by
  rw [State.hearth_commit, State.latched1, State.hearth_withHearth, State.hearth_latchAt]

theorem State.hearth_latched30 (s : State) : (s.commit s.latched30).hearth = s.fixBin.hearth.latched30 s.hearth.ms := by
  rw [State.hearth_commit, State.latched30, State.hearth_withHearth, State.hearth_latchAt]

theorem windowLatch1s_lands {s : State} (hs : s.aon = true) (second : s.hearth.ms % 1000 = 0) (once : s.hearth.ms ≠ s.hearth.lat1) :
    ∃ t, exec .windowLatch1s s = .next t ∧ t.hearth.lat1 = s.hearth.ms ∧
      1000000 * s.hearth.ms + 60 ≤ t.now ∧ t.rd .hrtW1lat = t.hearth.e1 / 65536 % 2 ^ 64 ∧
      t.rd .hrtW1statW1pk = min 0xFFFF (roundNat 24 ((s.fixBin.hearth.secPeak : Rat) / 8192000)) ∧
      t.rd .hrtW1statW1cool = min 1000 s.hearth.secCool ∧ t.hearth.secPeak = 0 ∧ t.hearth.secCool = 0 ∧ s.sameTabsBut t [] := by
  have cool : s.fixBin.hearth.secCool = s.hearth.secCool := State.hearth_fixBin (p := HearthState.secCool) (by intros; rfl) s
  refine ⟨_, exec_windowLatch1s hs second once, ?_, ?_, ?_, ?_, ?_, ?_, ?_, State.sameTabs_commit fun x hx => ?_⟩
  · rw [State.hearth_latched1, HearthState.lat1_latched1]
  · rw [State.commit_now, State.latched1, State.now_withHearth, State.w1Shown, puts_of_put (g := State.now) State.put_now, State.now_latchAt]
    omega
  · rw [State.hearth_latched1, HearthState.e1_latched1, State.rd_commit _ _ _ _ _ rfl, State.latched1, State.rd_withHearth, State.w1lat_w1Shown,
      State.hearth_latchAt]
  · rw [State.rd_commit _ _ _ _ _ rfl, State.latched1, State.rd_withHearth, State.w1pk_w1Shown, State.hearth_latchAt]
  · rw [State.rd_commit _ _ _ _ _ rfl, State.latched1, State.rd_withHearth, State.w1cool_w1Shown, State.hearth_latchAt, cool]
  · rw [State.hearth_latched1, HearthState.secPeak_latched1]
  · rw [State.hearth_latched1, HearthState.secCool_latched1]
  · have put (n : State) (r : FieldRef) (v : Nat) : s.sameIn (n.put r v) x = s.sameIn n x :=
      State.put_other (fun n => s.sameIn n x) (fun _ _ => by cases x <;> rfl) (fun _ _ => by cases x <;> rfl) n r v
    rw [State.latched1, State.sameIn_withHearth, State.w1Shown, puts_of_put (g := fun n => s.sameIn n x) put]
    exact s.sameTabs_latchAt x hx

theorem windowLatch30s_lands {s : State} (hs : s.aon = true) (second : s.hearth.ms % 30000 = 0) (once : s.hearth.ms ≠ s.hearth.lat30) :
    ∃ t, exec .windowLatch30s s = .next t ∧
      1000000 * s.hearth.ms + 60 ≤ t.now ∧ t.rd .hrtW30lat = t.hearth.e30 / 65536 % 2 ^ 64 ∧
      t.hearth = { s.fixBin.hearth with lat30 := s.hearth.ms } ∧ s.sameTabsBut t [] := by
  refine ⟨_, exec_windowLatch30s hs second once, ?_, ?_, ?_, State.sameTabs_commit fun x hx => ?_⟩
  · rw [State.commit_now, State.latched30, State.now_withHearth, State.wr_now, State.now_latchAt]
    omega
  · rw [State.hearth_latched30, HearthState.e30_latched30, State.rd_commit _ _ _ _ _ rfl, State.latched30, State.rd_withHearth,
      State.rd_wr_same _ .hrtW30lat _ _ _ rfl, State.hearth_latchAt]
    rfl
  · rw [State.hearth_latched30, HearthState.latched30]
  · rw [State.latched30, State.sameIn_withHearth]
    exact State.sameTabs_wr s.sameTabs_latchAt _ _ _ _ x hx

/-! ## The checkpoint (R74) -/

/-- What a checkpoint notes of a die. -/
def State.noted (s : State) (d : Nat) (x : HallDie) : HallDie :=
  { x with ckpt := s.accumulators d, ckptCum := (s.die d).cum, ckptPeriod := s.period, ckptIdle := (s.die d).idleCum
           ckptGain := (s.accumulators d).map fun e => (e.1, e.2 - Store.get (fun _ => 0) x.ckpt e.1) }

/-- The checkpoint of one die, where it has power. -/
def State.checkpointDie (s : State) (d : Nat) : State := if !(s.die d).powered then s else s.updHd d (s.noted d)

theorem exec_checkpoint {s : State} (hs : s.aon = true) : exec .accumulatorCheckpoint s = .next (s.commit (s.each (upto 32) State.checkpointDie)) :=
  State.run_on (fun s => s.each (upto 32) State.checkpointDie) hs

/-- A state that differs from another in what the Halls keep of the dies alone. -/
def State.sameButHalls (s t : State) : Prop := ∃ h, t = { s with halls := h }

theorem State.sameButHalls_checkpointDie {s t : State} (h : s.sameButHalls t) (d : Nat) : s.sameButHalls (t.checkpointDie d) := by
  obtain ⟨h, rfl⟩ := h
  unfold State.checkpointDie
  split
  · exact ⟨h, rfl⟩
  · exact ⟨_, rfl⟩

theorem State.noted_sameButHalls {s t : State} (h : s.sameButHalls t) (d : Nat) : t.noted d = s.noted d ∧ t.die d = s.die d := by
  obtain ⟨h, rfl⟩ := h
  exact ⟨rfl, rfl⟩

theorem State.hd_checkpointDie (s : State) (d e : Nat) :
    (s.checkpointDie d).hd e = if d = e ∧ (s.die d).powered = true then s.noted d (s.hd d) else s.hd e := by
  unfold State.checkpointDie
  by_cases power : (s.die d).powered = true
  · rw [power, Bool.not_true, if_neg Bool.false_ne_true, State.hd_updHd]
    by_cases same : d = e
    · rw [if_pos same, if_pos ⟨same, rfl⟩, same]
    · rw [if_neg same, if_neg fun h => same h.1]
  · have dead : (s.die d).powered = false := Bool.eq_false_iff.2 power
    rw [dead, Bool.not_false, if_pos rfl, if_neg fun h => Bool.false_ne_true h.2]

theorem upto_nodup (n : Nat) : (upto n).Nodup := List.nodup_range

theorem State.hd_checkpoint (s : State) {d : Nat} (hd : d < 32) (power : (s.die d).powered = true) :
    (s.each (upto 32) State.checkpointDie).hd d = s.noted d (s.hd d) := by
  refine (State.each_once (I := fun t => s.sameButHalls t ∧ t.hd d = s.hd d) (P := fun t => s.sameButHalls t ∧ t.hd d = s.noted d (s.hd d))
    (f := State.checkpointDie) (upto_nodup 32) (List.mem_range.2 hd) ?_ ?_ ?_ ⟨⟨s.halls, rfl⟩, rfl⟩).2
  · rintro t y other ⟨kept, same⟩
    exact ⟨State.sameButHalls_checkpointDie kept y, by rw [State.hd_checkpointDie, if_neg fun h => other h.1, same]⟩
  · rintro t ⟨kept, same⟩
    obtain ⟨noted, die⟩ := State.noted_sameButHalls kept d
    exact ⟨State.sameButHalls_checkpointDie kept d, by rw [State.hd_checkpointDie, die, if_pos ⟨rfl, power⟩, noted, same]⟩
  · rintro t y other ⟨kept, done⟩
    exact ⟨State.sameButHalls_checkpointDie kept y, by rw [State.hd_checkpointDie, if_neg fun h => other h.1, done]⟩

/-- What every round of a loop over a list keeps, each round's element being of the list, holds at its end. -/
theorem State.each_keeps_mem {β : Type} {P : State → Prop} {f : State → β → State} (l : List β) (keep : ∀ s, ∀ y ∈ l, P s → P (f s y)) {s : State}
    (h : P s) : P (s.each l f) := by
  unfold State.each
  induction l generalizing s with
  | nil => exact h
  | cons y l ih => exact ih (fun s x hx => keep s x (List.mem_cons_of_mem y hx)) (keep s y List.mem_cons_self h)

theorem State.hd_checkpoint_none (s : State) {d : Nat} (h : 32 ≤ d ∨ (s.die d).powered = false) :
    (s.each (upto 32) State.checkpointDie).hd d = s.hd d := by
  refine (State.each_keeps_mem (P := fun t => s.sameButHalls t ∧ t.hd d = s.hd d) (upto 32) ?_ ⟨⟨s.halls, rfl⟩, rfl⟩).2
  rintro t y hy ⟨kept, same⟩
  have die := (State.noted_sameButHalls kept y).2
  refine ⟨State.sameButHalls_checkpointDie kept y, ?_⟩
  rw [State.hd_checkpointDie, if_neg, same]
  rintro ⟨rfl, power⟩
  have low := List.mem_range.1 hy
  rw [die] at power
  rcases h with high | dead
  · omega
  · exact Bool.false_ne_true (dead.symm.trans power)

theorem State.sameButHalls_checkpoint (s : State) : s.sameButHalls (s.each (upto 32) State.checkpointDie) :=
  State.each_keeps (P := s.sameButHalls) (fun _ y kept => State.sameButHalls_checkpointDie kept y) _ ⟨s.halls, rfl⟩

theorem State.onlyChanges_sameButHalls {s t : State} (h : s.sameButHalls t) : s.onlyChanges t [] [.halls] := by
  obtain ⟨x, rfl⟩ := h
  exact State.onlyChanges_halls (s.onlyChanges_refl _ _) x List.mem_cons_self

theorem checkpoint_lands {s : State} (hs : s.aon = true) :
    ∃ t, exec .accumulatorCheckpoint s = .next t ∧ s.onlyChanges t [] [.halls] ∧
      (∀ d, d < 32 → (s.die d).powered = true → t.hd d = { s.hd d with
        ckpt := s.accumulators d, ckptCum := (s.die d).cum, ckptPeriod := s.period, ckptIdle := (s.die d).idleCum
        ckptGain := (s.accumulators d).map fun x => (x.1, x.2 - Store.get (fun _ => 0) (s.hd d).ckpt x.1) }) ∧
      ∀ d, 32 ≤ d ∨ (s.die d).powered = false → t.hd d = s.hd d := by
  refine ⟨_, exec_checkpoint hs, State.onlyChanges_commit (State.onlyChanges_sameButHalls s.sameButHalls_checkpoint), fun d hd power => ?_, fun d h => ?_⟩
  · rw [State.hd_commit, s.hd_checkpoint hd power, State.noted]
  · rw [State.hd_commit, s.hd_checkpoint_none h]

/-- Settles O42: each of the five commands is one write or latch, or none, and what it reaches is read off it. -/
theorem inletWindowsAndCheckpoint : Obligations.InletWindowsAndCheckpoint := by
  intro s p v hs
  refine ⟨fun host => ⟨_, exec_inletWrite p v hs, ?_⟩, inletWrite_lands hs, inletStale_lands hs, windowLatch1s_lands hs,
    fun h => ⟨_, exec_windowLatch1s_idle hs h, State.onlyChanges_commit (s.onlyChanges_refl _ _)⟩, windowLatch30s_lands hs,
    fun h => ⟨_, exec_windowLatch30s_idle hs h, State.onlyChanges_commit (s.onlyChanges_refl _ _)⟩, checkpoint_lands hs⟩
  rw [if_pos host]
  exact State.onlyChanges_commit (s.onlyChanges_refl _ _)

end Sys2Proof.Machine

/-!
Settles O43: the link that aligns, listens, enters and leaves the ring, and the frames that a node sends, cuts, stomps, passes on and strips.
-/

namespace Sys2Proof.Machine

/-! ## The chain's state -/

@[simp] theorem State.chain_updChain (s : State) (f : ChainState → ChainState) : (s.updChain f).chain = f s.chain := rfl

@[simp] theorem State.rd_updChain (s : State) (g : ChainState → ChainState) (f : Field) (i j : Nat) : (s.updChain g).rd f i j = s.rd f i j := rfl

theorem State.sameRegs_updChain {s t : State} {l : List FieldRef} (f : ChainState → ChainState) (h : s.sameRegsBut t l) :
    s.sameRegsBut (t.updChain f) l := h

theorem State.sameTabs_updChain {s t : State} {l : List Tab} (f : ChainState → ChainState) (h : s.sameTabsBut t l) :
    s.sameTabsBut (t.updChain f) l := by
  intro x hx
  specialize h x hx
  cases x <;> exact h

theorem State.chain_commit (s n : State) : (s.commit n).chain = n.chain := rfl

theorem State.chain_wr (s : State) (f : Field) (v i j : Nat) : (s.wr f v i j).chain = s.chain :=
  State.put_other State.chain (by intros; rfl) (by intros; rfl) s _ v

theorem State.chain_count (s : State) (f : Field) (n i j : Nat) : (s.count f n i j).chain = s.chain := s.chain_wr f _ i j

theorem State.chain_advanceTo (s : State) (t : Nat) : (s.advanceTo t).chain = s.chain :=
  State.advanceTo_other State.chain (fun s r v => State.put_other State.chain (by intros; rfl) (by intros; rfl) s r v)
    (by intros; rfl) (by intros; rfl) s t

theorem State.sameTabs_same (s : State) (l : List Tab) : s.sameTabsBut s l := fun x _ => s.sameIn_refl x

theorem State.sameRegs_same (s : State) (l : List FieldRef) : s.sameRegsBut s l := fun _ _ => rfl

theorem State.sameRegs_wr {s n : State} {l : List FieldRef} (h : s.sameRegsBut n l) (f : Field) (v i j : Nat) (hr : (⟨f, i, j⟩ : FieldRef) ∈ l) :
    s.sameRegsBut (n.wr f v i j) l := by
  intro r hl
  have other : ⟨f, i, j⟩ ≠ r := fun e => hl (e ▸ hr)
  exact (State.reg_put_other n v other).trans (h r hl)

theorem State.sameTabs_count {s n : State} {l : List Tab} (h : s.sameTabsBut n l) (f : Field) (v i j : Nat) : s.sameTabsBut (n.count f v i j) l :=
  State.sameTabs_wr h f _ i j

theorem State.sameRegs_count {s n : State} {l : List FieldRef} (h : s.sameRegsBut n l) (f : Field) (v i j : Nat)
    (hr : (⟨f, i, j⟩ : FieldRef) ∈ l) : s.sameRegsBut (n.count f v i j) l := State.sameRegs_wr h f _ i j hr

/-! ## The link (R257 to R260) -/

/-- An aligned node, which listens through its tap. -/
def State.aligned (s : State) : State :=
  (s.wr .chnPosLink 1).updChain fun c => { c with listening := true, listenAt := s.now, heard := false }

theorem exec_chainAligned {s : State} (hs : s.aon = true) (out : s.flag .chnPosLink = false) : exec .chainAligned s = .next (s.commit s.aligned) := by
  change execChainAligned s = _
  rw [execChainAligned, State.run_on _ hs]
  simp only [out, Bool.false_eq_true, if_false]
  rfl

theorem chainAligned_listens {s : State} (hs : s.aon = true) (out : s.flag .chnPosLink = false) :
    ∃ t, exec .chainAligned s = .next t ∧ t.flag .chnPosLink = true ∧ t.chain.listening = true ∧ t.chain.listenAt = s.now ∧
      t.chain.heard = false ∧ s.sameRegsBut t [⟨.chnPosLink, 0, 0⟩] ∧ s.sameTabsBut t [] := by
  refine ⟨_, exec_chainAligned hs out, ?_, rfl, rfl, rfl, ?_, ?_⟩
  · rw [State.flag, State.rd_commit _ _ _ _ _ rfl]
    exact State.flag_wr_one s (f := .chnPosLink) rfl rfl
  · exact State.sameRegs_commit (State.sameRegs_updChain _ (State.sameRegs_wr (s.sameRegs_same _) _ _ _ _ List.mem_cons_self))
  · exact State.sameTabs_commit (State.sameTabs_updChain _ (State.sameTabs_wr (s.sameTabs_same _) _ _ _ _))

/-- The link that has been lost for 1 ms, shown. -/
def State.linkMissing (s : State) : State := (s.advanceTo (s.chain.lostAt + 1000000)).wr .chnStatusNolink 1

/-- The fault of that link. -/
def State.linkFault (s : State) : FaultRec := cont 5 4 s.chainUnit .package 5

theorem exec_chainNolink {s : State} (hs : s.aon = true) (out : s.flag .chnPosLink = false) :
    exec .chainNolink s = .next (s.commit (s.linkMissing.raise s.linkFault)) := by
  change execChainNolink s = _
  rw [execChainNolink, State.run_on _ hs]
  simp only [out, Bool.false_eq_true, if_false]
  rfl

theorem chainNolink_shown {s : State} (hs : s.aon = true) (out : s.flag .chnPosLink = false) :
    ∃ t, exec .chainNolink s = .next t ∧ t.flag .chnStatusNolink = true ∧ s.chain.lostAt + 1000000 ≤ t.now ∧ t.rd .fltCont = s.oneUp .fltCont := by
  have mild : s.linkFault.cls ≠ .fatal := FaultClass.noConfusion
  have missing : s.linkMissing.rd .fltCont = s.rd .fltCont := by
    rw [State.linkMissing, State.rd_wr_field _ _ _ _ _ _ (by decide), State.rd_advanceTo _ _ _ _ (by decide)]
  refine ⟨_, exec_chainNolink hs out, ?_, ?_, ?_⟩
  · rw [State.flag, State.rd_commit _ _ _ _ _ rfl, rd_raise _ _ _ _ _ mild rfl]
    exact State.flag_wr_one (s.advanceTo _) (f := .chnStatusNolink) rfl rfl
  · have now : (s.linkMissing.raise s.linkFault).now = max s.now (s.chain.lostAt + 1000000) := by
      rw [raise_blind blind_now _ _ mild, State.linkMissing, State.wr, State.put_now, State.advanceTo_now]
    rw [State.commit_now, now]
    exact (le_max_right _ _).trans (le_max_right _ _)
  · rw [State.rd_commit _ _ _ _ _ rfl, State.fltCont_raise_contained _ rfl, State.oneUp, missing, State.oneUp]

/-- A node out of the ring. -/
def State.unlinked (s : State) : State :=
  ((s.wr .chnPosLink 0).chainOut).updChain fun c => { c with listening := false, heard := false, joined := false, lostAt := s.now }

theorem exec_chainAlignLoss {s : State} (hs : s.aon = true) (on : s.flag .chnPosLink = true) :
    exec .chainAlignLoss s = .next (s.commit s.unlinked) := by
  change execChainAlignLoss s = _
  rw [execChainAlignLoss, State.run_on _ hs]
  simp only [on, if_true]
  rfl

theorem State.chainRole_bypassed {s : State} (h : s.pins.bypHold = false) : s.chainRole = 0 := by simp [State.chainRole, h]

theorem State.rd_unlinked (s : State) (f : Field) (i j : Nat) : s.unlinked.rd f i j = ((s.wr .chnPosLink 0).wr .chnPosOrig 0).rd f i j := rfl

theorem chainAlignLoss_leaves {s : State} (hs : s.aon = true) (on : s.flag .chnPosLink = true) :
    ∃ t, exec .chainAlignLoss s = .next t ∧ t.flag .chnPosLink = false ∧ t.chainRole = 0 ∧
      t.pins.bypHold = false ∧ t.flag .chnPosOrig = false ∧ t.chain.joined = false ∧ t.chain.lostAt = s.now ∧
      s.sameRegsBut t [⟨.chnPosLink, 0, 0⟩, ⟨.chnPosOrig, 0, 0⟩] ∧ s.sameTabsBut t [] := by
  have link : s.unlinked.rd .chnPosLink = 0 := by
    rw [State.rd_unlinked, State.rd_wr_field _ _ _ _ _ _ (by decide), State.rd_wr_zero]
  have orig : s.unlinked.rd .chnPosOrig = 0 := by rw [State.rd_unlinked, State.rd_wr_zero]
  refine ⟨_, exec_chainAlignLoss hs on, ?_, State.chainRole_bypassed rfl, rfl, ?_, rfl, rfl, ?_, ?_⟩
  · rw [State.flag, State.rd_commit _ _ _ _ _ rfl, link]; rfl
  · rw [State.flag, State.rd_commit _ _ _ _ _ rfl, orig]; rfl
  · have wrote := State.sameRegs_wr (State.sameRegs_wr (l := [⟨.chnPosLink, 0, 0⟩, ⟨.chnPosOrig, 0, 0⟩]) (s.sameRegs_same _) .chnPosLink 0 0 0
      List.mem_cons_self) .chnPosOrig 0 0 0 (by simp)
    exact State.sameRegs_commit (n := s.unlinked) wrote
  · refine State.sameTabs_commit fun x hx => ?_
    have wrote := State.sameTabs_wr (State.sameTabs_wr (s.sameTabs_same []) .chnPosLink 0 0 0) .chnPosOrig 0 0 0 x hx
    cases x <;> exact wrote

/-- A listening node that enters the ring. -/
def State.joinedRing (s : State) : State := s.updChain fun c => { c with listening := false, joined := true, joinHome := c.heard }

/-- CHAIN_BYP_HOLD as the hub dies ask for it. -/
def State.heldAsAsked (s : State) : State := { s with pins := { s.pins with bypHold := s.bypWanted } }

/-- The end of listening: a LEDGER heard, or 64 µs. -/
def State.listened (s : State) : State := if s.chain.heard then s else s.advanceTo (s.chain.listenAt + 64000)

theorem exec_chainListenEnd {s : State} (hs : s.aon = true) (on : s.chain.listening = true) :
    exec .chainListenEnd s = .next (s.commit s.listened.joinedRing.heldAsAsked) := by
  change execChainListenEnd s = _
  rw [execChainListenEnd, State.run_on _ hs]
  simp only [on, if_true]
  rfl

theorem State.chain_listened (s : State) : s.listened.chain = s.chain := by
  unfold State.listened
  split
  · rfl
  · exact s.chain_advanceTo _

theorem State.sameTabs_listened (s : State) : s.sameTabsBut s.listened [] := by
  unfold State.listened
  split
  · exact s.sameTabs_same _
  · exact s.sameTabs_advanceTo _

theorem State.bypWanted_heldAsAsked (s : State) : s.heldAsAsked.bypWanted = s.bypWanted := rfl

theorem State.bypWanted_commit (s n : State) : (s.commit n).bypWanted = n.bypWanted := by
  have standby := s.rd_commit n .govHallStbyrdy 0 0 rfl
  have active := s.rd_commit n .govHallActive 0 0 rfl
  have link := s.rd_commit n .chnPosLink 0 0 rfl
  have svc := s.rd_commit n .govStateCur 0 0 rfl
  simp only [State.bypWanted, State.hubRequests, State.flag, State.svc, State.active, standby, active, link, svc]
  rfl

theorem chainListenEnd_enters {s : State} (hs : s.aon = true) (on : s.chain.listening = true) :
    ∃ t, exec .chainListenEnd s = .next t ∧ t.pins.bypHold = t.bypWanted ∧
      t.chain.joined = true ∧ t.chain.listening = false ∧ t.chain.joinHome = s.chain.heard ∧
      (s.chain.heard = false → s.chain.listenAt + 64000 ≤ t.now) ∧ s.sameTabsBut t [] := by
  refine ⟨_, exec_chainListenEnd hs on, ?_, rfl, rfl, ?_, fun quiet => ?_, ?_⟩
  · rw [State.bypWanted_commit, State.bypWanted_heldAsAsked]
    rfl
  · exact congrArg ChainState.heard s.chain_listened
  · have now : s.listened.joinedRing.heldAsAsked.now = max s.now (s.chain.listenAt + 64000) := by
      change s.listened.now = _
      simp only [State.listened, quiet, Bool.false_eq_true, if_false, State.advanceTo_now]
    rw [State.commit_now, now]
    exact (le_max_right _ _).trans (le_max_right _ _)
  · refine State.sameTabs_commit fun x hx => ?_
    have same := s.sameTabs_listened x hx
    cases x <;> exact same

/-! ## Own frames sent and cut (R238, R240) -/

/-- A frame leaves. -/
def State.framed (s : State) (f : OwnFrame) (rest : List OwnFrame) : State :=
  (s.transmit f.bytes (if f.inv then crc32c f.bytes ^^^ 1 else crc32c f.bytes)).updChain fun c => { c with outq := rest, sending := some f }

/-- The injected error on the chain is spent. -/
def State.disarmed (s : State) : State := { s with inject := { s.inject with chain := false } }

theorem exec_frameInsert {s : State} (hs : s.aon = true) {f : OwnFrame} {l : List OwnFrame} (waits : s.chain.outq = f :: l) (node : s.chainRole ≠ 0) :
    exec .frameInsert s = .next (s.commit (if s.inject.chain && !f.resend then s.disarmed.framed { f with inv := true } l else s.framed f l)) := by
  change execFrameInsert s = _
  rw [execFrameInsert, State.run_on _ hs]
  simp only [waits, node, if_false]
  cases armed : s.inject.chain && !f.resend with
  | true => simp only [Bool.or_true, if_true]; rfl
  | false => simp only [Bool.or_false, Bool.false_eq_true, if_false]; rfl

theorem frameInsert_sends {s : State} (hs : s.aon = true) {f : OwnFrame} {l : List OwnFrame} (waits : s.chain.outq = f :: l) (node : s.chainRole ≠ 0) :
    ∃ t x, exec .frameInsert s = .next t ∧ t.chain.outq = l ∧ t.chain.tx = s.chain.tx ++ [x] ∧ x.bytes = f.bytes ∧ x.aborted = false ∧
      (f.inv = false → s.inject.chain = false → x.check = crc32c f.bytes) ∧
      (f.inv = false → s.inject.chain = true → f.resend = false → x.check = crc32c f.bytes ^^^ 1 ∧ t.inject.chain = false) ∧
      s.sameRegsBut t [] ∧ s.sameTabsBut t [] := by
  have sent := exec_frameInsert hs waits node
  cases armed : s.inject.chain && !f.resend with
  | true =>
    rw [armed, if_pos rfl] at sent
    obtain ⟨on, _⟩ := Bool.and_eq_true_iff.1 armed
    refine ⟨_, ⟨f.bytes, crc32c f.bytes ^^^ 1, false⟩, sent, rfl, rfl, rfl, rfl, fun _ off => ?_, fun _ _ _ => ⟨rfl, rfl⟩,
      State.sameRegs_commit (s.sameRegs_same _), State.sameTabs_commit (fun x hx => ?_)⟩
    · simp [on] at off
    · have same := s.sameIn_refl x
      cases x <;> exact same
  | false =>
    rw [armed, if_neg Bool.false_ne_true] at sent
    refine ⟨_, ⟨f.bytes, if f.inv then crc32c f.bytes ^^^ 1 else crc32c f.bytes, false⟩, sent, rfl, rfl, rfl, rfl, fun good _ => ?_,
      fun _ on fresh => ?_, State.sameRegs_commit (s.sameRegs_same _), State.sameTabs_commit (fun x hx => ?_)⟩
    · simp [good]
    · simp [on, fresh] at armed
    · have same := s.sameIn_refl x
      cases x <;> exact same

/-- A frame cut while it is sent, which waits to be sent again. -/
def State.frameCut (s : State) (f : OwnFrame) : State :=
  (s.count .chnAbort).updChain fun c => { c with sending := none, outq := { f with resend := true } :: c.outq, tx := cutLast c.tx }

theorem exec_frameAbort {s : State} (hs : s.aon = true) {f : OwnFrame} (sends : s.chain.sending = some f) :
    exec .frameAbort s = .next (s.commit (s.frameCut f)) := by
  change execFrameAbort s = _
  rw [execFrameAbort, State.run_on _ hs]
  simp only [sends]
  rfl

theorem frameAbort_cuts {s : State} (hs : s.aon = true) {f : OwnFrame} (sends : s.chain.sending = some f) :
    ∃ t, exec .frameAbort s = .next t ∧ t.chain.sending = none ∧ t.chain.outq = { f with resend := true } :: s.chain.outq ∧
      t.rd .chnAbort = s.oneUp .chnAbort ∧ s.sameRegsBut t [⟨.chnAbort, 0, 0⟩] ∧ s.sameTabsBut t [] := by
  refine ⟨_, exec_frameAbort hs sends, rfl, ?_, ?_, ?_, ?_⟩
  · change _ :: (s.count .chnAbort).chain.outq = _
    rw [s.chain_count]
  · rw [State.rd_commit _ _ _ _ _ rfl]
    exact State.rd_count_same s (f := .chnAbort) rfl
  · exact State.sameRegs_commit (State.sameRegs_updChain _ (State.sameRegs_count (s.sameRegs_same _) _ _ _ _ List.mem_cons_self))
  · exact State.sameTabs_commit (State.sameTabs_updChain _ (State.sameTabs_count (s.sameTabs_same _) _ _ _ _))

/-! ## Frames that fail their check (R241) -/

/-- What a frame with a wrong check does before it is counted. -/
def State.stompedOn (s : State) (b : List Nat) : State :=
  if s.strips b then (if s.ranHops b then s.count .chnStrip else s) else s.transmit (s.forwarded b) (stomp (crc32c (s.forwarded b)))

theorem State.stompedOn_stripped {s : State} {b : List Nat} (h : s.strips b = true) :
    s.stompedOn b = if s.ranHops b then s.count .chnStrip else s := by simp only [State.stompedOn, h, if_true]

theorem State.stompedOn_passed {s : State} {b : List Nat} (h : s.strips b = false) :
    s.stompedOn b = s.transmit (s.forwarded b) (stomp (crc32c (s.forwarded b))) := by
  simp only [State.stompedOn, h, Bool.false_eq_true, if_false]

/-- The fault of a frame whose check is wrong here first. -/
def State.frameFault (s : State) (b : List Nat) : FaultRec := corr 5 1 s.chainUnit 5 (frameAddr b)

theorem State.strip_stompedOn (s : State) (b : List Nat) :
    (s.stompedOn b).rd .chnStrip = if s.strips b && s.ranHops b then s.oneUp .chnStrip else s.rd .chnStrip := by
  cases strips : s.strips b with
  | false => rw [State.stompedOn_passed strips]; rfl
  | true =>
    rw [State.stompedOn_stripped strips]
    cases s.ranHops b with
    | false => rfl
    | true => exact State.rd_count_same s (f := .chnStrip) rfl

theorem State.rd_stompedOn (s : State) (b : List Nat) {f : Field} (i j : Nat) (h : .chnStrip ≠ f) : (s.stompedOn b).rd f i j = s.rd f i j := by
  unfold State.stompedOn
  split
  · split
    · exact State.rd_wr_field _ _ _ _ _ _ h
    · rfl
  · rfl

theorem State.tx_stripped {s : State} {b : List Nat} (h : s.strips b = true) : (s.stompedOn b).chain = s.chain := by
  rw [State.stompedOn_stripped h]
  split
  · exact s.chain_count _ _ _ _
  · rfl

theorem exec_crcErrorFrame {s : State} (hs : s.aon = true) (f : Frame) (c : Word) (size : (frameBytes f).length = 32) (node : s.chainRole ≠ 0)
    (wrong : c.toNat ≠ crc32c (frameBytes f)) :
    exec (.crcErrorFrame f c) s = .next (s.commit
      (if c.toNat = stomp (crc32c (frameBytes f)) then
        (if s.strips (frameBytes f) then s.stompedOn (frameBytes f) else (s.stompedOn (frameBytes f)).count .chnStomp)
      else ((s.stompedOn (frameBytes f)).count .chnCrcerr).raise (s.frameFault (frameBytes f)))) := by
  change execCrcErrorFrame f c s = _
  rw [execCrcErrorFrame, State.run_on _ hs]
  simp only [frameOk, size, decide_true, Bool.not_true, node, wrong, decide_false, Bool.or_self, Bool.false_eq_true, if_false]
  cases strips : s.strips (frameBytes f) with
  | true =>
    simp only [State.stompedOn_stripped strips, State.frameFault, if_true, Bool.not_true, Bool.false_eq_true, if_false]
  | false =>
    simp only [State.stompedOn_passed strips, State.frameFault, if_true, Bool.not_false, Bool.false_eq_true, if_false]

/-- A frame passed on stomped, or stripped with its chain kept. -/
theorem crcErrorFrame_chain {s : State} (b : List Nat) (n : State) (same : n.chain = (s.stompedOn b).chain) :
    (s.strips b = false → n.chain.tx = s.chain.tx ++ [⟨s.forwarded b, stomp (crc32c (s.forwarded b)), false⟩]) ∧
      (s.strips b = true → n.chain.tx = s.chain.tx) := by
  rw [same]
  constructor
  · intro strips
    rw [State.stompedOn_passed strips]
    rfl
  · intro strips
    rw [State.tx_stripped strips]

/-- A frame stomped already is counted as such where it passes. -/
theorem stompedFrame_counted {s : State} (hs : s.aon = true) (f : Frame) (c : Word) (size : (frameBytes f).length = 32) (node : s.chainRole ≠ 0)
    (wrong : c.toNat ≠ crc32c (frameBytes f)) (stomped : c.toNat = stomp (crc32c (frameBytes f))) (passes : s.strips (frameBytes f) = false) :
    ∃ n, exec (.crcErrorFrame f c) s = .next (s.commit n) ∧ n.chain = (s.stompedOn (frameBytes f)).chain ∧ n.rd .chnStrip = s.rd .chnStrip ∧
      n.rd .chnStomp = s.oneUp .chnStomp ∧ s.sameRegsBut n [⟨.chnStomp, 0, 0⟩] := by
  refine ⟨(s.stompedOn (frameBytes f)).count .chnStomp, ?_, State.chain_count _ _ _ _ _, ?_, ?_, ?_⟩
  · rw [exec_crcErrorFrame hs f c size node wrong, if_pos stomped, passes, if_neg Bool.false_ne_true]
  · rw [State.count, State.rd_wr_field _ _ _ _ _ _ (by decide), State.strip_stompedOn, passes, Bool.false_and, if_neg Bool.false_ne_true]
  · rw [State.rd_count_same _ (f := .chnStomp) rfl, State.oneUp, State.rd_stompedOn _ _ _ _ (by decide), State.oneUp]
  · rw [State.stompedOn_passed passes]
    exact State.sameRegs_count (State.sameRegs_updChain _ (s.sameRegs_same _)) _ _ _ _ List.mem_cons_self

/-- A frame stomped already and stripped is counted as stripped at most. -/
theorem stompedFrame_stripped {s : State} (hs : s.aon = true) (f : Frame) (c : Word) (size : (frameBytes f).length = 32) (node : s.chainRole ≠ 0)
    (wrong : c.toNat ≠ crc32c (frameBytes f)) (stomped : c.toNat = stomp (crc32c (frameBytes f))) (strips : s.strips (frameBytes f) = true) :
    ∃ n, exec (.crcErrorFrame f c) s = .next (s.commit n) ∧ n.chain = (s.stompedOn (frameBytes f)).chain ∧
      n.rd .chnStrip = (if s.ranHops (frameBytes f) then s.oneUp .chnStrip else s.rd .chnStrip) ∧ s.onlyChanges n [⟨.chnStrip, 0, 0⟩] [] := by
  refine ⟨s.stompedOn (frameBytes f), ?_, rfl, ?_, ?_⟩
  · rw [exec_crcErrorFrame hs f c size node wrong, if_pos stomped, strips, if_pos rfl]
  · rw [State.strip_stompedOn, strips, Bool.true_and]
  · rw [State.stompedOn_stripped strips]
    split
    · exact State.onlyChanges_wr (s.onlyChanges_refl _ _) _ _ _ _ List.mem_cons_self
    · exact s.onlyChanges_refl _ _

/-- A frame whose check is wrong here first is counted and raised as a CORRECTED fault. -/
theorem wrongFrame_counted {s : State} (hs : s.aon = true) (f : Frame) (c : Word) (size : (frameBytes f).length = 32) (node : s.chainRole ≠ 0)
    (wrong : c.toNat ≠ crc32c (frameBytes f)) (fresh : c.toNat ≠ stomp (crc32c (frameBytes f))) :
    ∃ n, exec (.crcErrorFrame f c) s = .next (s.commit n) ∧ n.chain = (s.stompedOn (frameBytes f)).chain ∧
      n.rd .chnStrip = (if s.strips (frameBytes f) && s.ranHops (frameBytes f) then s.oneUp .chnStrip else s.rd .chnStrip) ∧
      n.rd .chnCrcerr = s.oneUp .chnCrcerr ∧ n.rd .fltCorr = s.oneUp .fltCorr := by
  have mild : (s.frameFault (frameBytes f)).cls ≠ .fatal := FaultClass.noConfusion
  refine ⟨((s.stompedOn (frameBytes f)).count .chnCrcerr).raise (s.frameFault (frameBytes f)), ?_, ?_, ?_, ?_, ?_⟩
  · rw [exec_crcErrorFrame hs f c size node wrong, if_neg fresh]
  · rw [raise_blind blind_chain _ _ mild, State.chain_count]
  · rw [rd_raise _ _ _ _ _ mild rfl, State.count, State.rd_wr_field _ _ _ _ _ _ (by decide), State.strip_stompedOn]
  · rw [rd_raise _ _ _ _ _ mild rfl, State.rd_count_same _ (f := .chnCrcerr) rfl, State.oneUp, State.rd_stompedOn _ _ _ _ (by decide), State.oneUp]
  · rw [State.fltCorr_raise_corrected _ rfl, State.oneUp, State.count, State.rd_wr_field _ _ _ _ _ _ (by decide),
      State.rd_stompedOn _ _ _ _ (by decide), State.oneUp]

theorem crcErrorFrame_stomps {s : State} (hs : s.aon = true) (f : Frame) (c : Word) (size : (frameBytes f).length = 32) (node : s.chainRole ≠ 0)
    (wrong : c.toNat ≠ crc32c (frameBytes f)) :
    ∃ t, exec (.crcErrorFrame f c) s = .next t ∧
      (s.strips (frameBytes f) = false → ∃ x, t.chain.tx = s.chain.tx ++ [x] ∧ x.bytes = s.forwarded (frameBytes f) ∧
        x.check = stomp (crc32c x.bytes) ∧ t.rd .chnStrip = s.rd .chnStrip ∧
        (c.toNat = stomp (crc32c (frameBytes f)) → t.rd .chnStomp = s.oneUp .chnStomp ∧ s.sameRegsBut t [⟨.chnStomp, 0, 0⟩])) ∧
      (s.strips (frameBytes f) = true → t.chain.tx = s.chain.tx ∧
        t.rd .chnStrip = (if s.ranHops (frameBytes f) then s.oneUp .chnStrip else s.rd .chnStrip) ∧
        (c.toNat = stomp (crc32c (frameBytes f)) → s.onlyChanges t [⟨.chnStrip, 0, 0⟩] [])) ∧
      (c.toNat ≠ stomp (crc32c (frameBytes f)) → t.rd .chnCrcerr = s.oneUp .chnCrcerr ∧ t.rd .fltCorr = s.oneUp .fltCorr) := by
  have rdc (n : State) (f : Field) (h : f.isLimit = false) := s.rd_commit n f 0 0 h
  by_cases stomped : c.toNat = stomp (crc32c (frameBytes f))
  · cases strips : s.strips (frameBytes f) with
    | false =>
      obtain ⟨n, run, chain, kept, counted, same⟩ := stompedFrame_counted hs f c size node wrong stomped strips
      refine ⟨_, run, fun _ => ⟨_, (crcErrorFrame_chain _ n chain).1 strips, rfl, rfl, (rdc n _ rfl).trans kept, fun _ =>
        ⟨(rdc n _ rfl).trans counted, State.sameRegs_commit same⟩⟩, fun h => absurd h Bool.false_ne_true, fun h => absurd stomped h⟩
    | true =>
      obtain ⟨n, run, chain, counted, only⟩ := stompedFrame_stripped hs f c size node wrong stomped strips
      refine ⟨_, run, fun h => absurd h.symm Bool.false_ne_true, fun _ => ⟨(crcErrorFrame_chain _ n chain).2 strips, (rdc n _ rfl).trans counted,
        fun _ => State.onlyChanges_commit only⟩, fun h => absurd stomped h⟩
  · obtain ⟨n, run, chain, strip, counted, corrected⟩ := wrongFrame_counted hs f c size node wrong stomped
    refine ⟨_, run, fun strips => ⟨_, (crcErrorFrame_chain _ n chain).1 strips, rfl, rfl, (rdc n _ rfl).trans (strip.trans ?_),
      fun h => absurd h stomped⟩, fun strips => ⟨(crcErrorFrame_chain _ n chain).2 strips, (rdc n _ rfl).trans (strip.trans ?_),
      fun h => absurd h stomped⟩, fun _ => ⟨(rdc n _ rfl).trans counted, (rdc n _ rfl).trans corrected⟩⟩
    · simp only [strips, Bool.false_and, Bool.false_eq_true, if_false]
    · simp only [strips, Bool.true_and]

/-! ## Frames passed on (R242, R243, R245) -/

/-- A frame that a node passes on as it came but for its hops. -/
theorem State.forwarded_plain {s : State} {b : List Nat} (ledger : frameType b ≠ tyLedger) (offer : frameType b ≠ tyOffer) : s.forwarded b = hop b := by
  simp [State.forwarded, ledger, offer]

/-- What a frame that passes does: sent on, and counted as a repeat or acted upon. -/
def State.passed (s : State) (b : List Nat) (act : State → List Nat → State) : State :=
  if s.repeated b then (s.forward b).count .chnRepeat else act ((s.forward b).note b) b

theorem State.receive_passes {s : State} {f : Frame} {types : List Nat} (act : State → List Nat → State) (size : (frameBytes f).length = 32)
    (type : frameType (frameBytes f) ∈ types) (node : s.chainRole ≠ 0) (foreign : s.ownFrame (frameBytes f) = false)
    (hops : frameHops (frameBytes f) < 127) : s.receive f types act = s.passed (frameBytes f) act := by
  have known : types.contains (frameType (frameBytes f)) = true := List.contains_iff_mem.2 type
  have short : ¬127 ≤ frameHops (frameBytes f) := by omega
  simp only [State.receive, frameOk, size, decide_true, Bool.not_true, known, node, decide_false, foreign, short, Bool.or_self,
    Bool.false_eq_true, if_false]
  rfl

theorem State.passed_repeat {s : State} {b : List Nat} (act : State → List Nat → State) (h : s.repeated b = true) :
    s.passed b act = (s.forward b).count .chnRepeat := if_pos h

theorem State.passed_new {s : State} {b : List Nat} (act : State → List Nat → State) (h : s.repeated b = false) :
    s.passed b act = act ((s.forward b).note b) b := by
  simp only [State.passed, h, Bool.false_eq_true, if_false]

theorem State.tx_forward (s : State) (b : List Nat) :
    (s.forward b).chain.tx = s.chain.tx ++ [⟨s.forwarded b, crc32c (s.forwarded b), false⟩] := rfl

theorem State.sameTabs_forward (s : State) (b : List Nat) : s.sameTabsBut (s.forward b) [] := State.sameTabs_updChain _ (s.sameTabs_same _)

theorem State.sameRegs_forward (s : State) (b : List Nat) (l : List FieldRef) : s.sameRegsBut (s.forward b) l :=
  State.sameRegs_updChain _ (s.sameRegs_same l)

theorem State.sameTabs_note (s : State) (b : List Nat) : s.sameTabsBut ((s.forward b).note b) [] :=
  State.sameTabs_updChain _ (s.sameTabs_forward b)

/-- A repeat is counted, and does nothing else to registers and tables. -/
theorem repeat_counted (s : State) (b : List Nat) :
    ((s.forward b).count .chnRepeat).chain = (s.forward b).chain ∧ ((s.forward b).count .chnRepeat).rd .chnRepeat = s.oneUp .chnRepeat ∧
      s.sameRegsBut ((s.forward b).count .chnRepeat) [⟨.chnRepeat, 0, 0⟩] ∧ s.sameTabsBut ((s.forward b).count .chnRepeat) [] :=
  ⟨State.chain_count _ _ _ _ _, State.rd_count_same (s.forward b) (f := .chnRepeat) rfl,
    State.sameRegs_count (s.sameRegs_forward b _) _ _ _ _ List.mem_cons_self, State.sameTabs_count (s.sameTabs_forward b) _ _ _ _⟩

theorem frameType_lt (b : List Nat) : frameType b < 16 := Nat.mod_lt _ (by omega)

theorem reservedTypes_mem {n : Nat} (small : n < 16) (h : n = 0 ∨ 7 ≤ n) : n ∈ reservedTypes ∧ n ≠ tyLedger ∧ n ≠ tyOffer := by
  simp only [reservedTypes, tyLedger, tyOffer, List.mem_cons, List.not_mem_nil, or_false]
  omega

theorem exec_reservedFrame {s : State} (hs : s.aon = true) (f : Frame) :
    exec (.reservedFrame f) s = .next (s.commit (s.receive f reservedTypes fun s _ => s.count .chnUnknown)) :=
  State.run_on (fun s => s.receive f reservedTypes fun s _ => s.count .chnUnknown) hs

theorem reservedFrame_passes {s : State} (hs : s.aon = true) (f : Frame) (size : (frameBytes f).length = 32) (node : s.chainRole ≠ 0)
    (foreign : s.ownFrame (frameBytes f) = false) (hops : frameHops (frameBytes f) < 127)
    (type : frameType (frameBytes f) = 0 ∨ 7 ≤ frameType (frameBytes f)) :
    ∃ t, exec (.reservedFrame f) s = .next t ∧
      t.chain.tx = s.chain.tx ++ [{ bytes := hop (frameBytes f), check := crc32c (hop (frameBytes f)), aborted := false }] ∧
      s.sameTabsBut t [] ∧
      (s.repeated (frameBytes f) = false → t.rd .chnUnknown = s.oneUp .chnUnknown ∧ s.sameRegsBut t [⟨.chnUnknown, 0, 0⟩]) ∧
      (s.repeated (frameBytes f) = true → t.rd .chnRepeat = s.oneUp .chnRepeat ∧ s.sameRegsBut t [⟨.chnRepeat, 0, 0⟩]) := by
  obtain ⟨listed, ledger, offer⟩ := reservedTypes_mem (frameType_lt _) type
  have plain := State.forwarded_plain (s := s) ledger offer
  have sent := s.tx_forward (frameBytes f)
  rw [plain] at sent
  have run := exec_reservedFrame hs f
  rw [State.receive_passes _ size listed node foreign hops] at run
  cases again : s.repeated (frameBytes f) with
  | true =>
    rw [State.passed_repeat _ again] at run
    obtain ⟨chain, counted, regs, tabs⟩ := repeat_counted s (frameBytes f)
    exact ⟨_, run, (congrArg ChainState.tx chain).trans sent, State.sameTabs_commit tabs, fun h => absurd h.symm Bool.false_ne_true,
      fun _ => ⟨(s.rd_commit _ .chnRepeat 0 0 rfl).trans counted, State.sameRegs_commit regs⟩⟩
  | false =>
    rw [State.passed_new _ again] at run
    refine ⟨_, run, (congrArg ChainState.tx (State.chain_count ((s.forward (frameBytes f)).note (frameBytes f)) .chnUnknown 1 0 0)).trans sent,
      State.sameTabs_commit (State.sameTabs_count (s.sameTabs_note _) _ _ _ _), fun _ => ⟨(s.rd_commit _ .chnUnknown 0 0 rfl).trans ?_,
      State.sameRegs_commit (State.sameRegs_count (State.sameRegs_updChain _ (s.sameRegs_forward _ _)) _ _ _ _ List.mem_cons_self)⟩,
      fun h => absurd h Bool.false_ne_true⟩
    exact State.rd_count_same ((s.forward (frameBytes f)).note (frameBytes f)) (f := .chnUnknown) rfl

theorem exec_frameStrip {s : State} (hs : s.aon = true) (f : Frame) (size : (frameBytes f).length = 32) (node : s.chainRole ≠ 0)
    (foreign : s.ownFrame (frameBytes f) = false) (hops : 127 ≤ frameHops (frameBytes f)) :
    exec (.frameStrip f) s = .next (s.commit (s.count .chnStrip)) := by
  change execFrameStrip f s = _
  rw [execFrameStrip, State.run_on _ hs]
  simp only [frameOk, size, decide_true, node, ne_eq, not_false_eq_true, foreign, Bool.not_false, hops, Bool.and_self, if_true]

theorem frameStrip_counted {s : State} (hs : s.aon = true) (f : Frame) (size : (frameBytes f).length = 32) (node : s.chainRole ≠ 0)
    (foreign : s.ownFrame (frameBytes f) = false) (hops : 127 ≤ frameHops (frameBytes f)) :
    ∃ t, exec (.frameStrip f) s = .next t ∧ t.rd .chnStrip = s.oneUp .chnStrip ∧ s.onlyChanges t [⟨.chnStrip, 0, 0⟩] [] :=
  ⟨_, exec_frameStrip hs f size node foreign hops, (s.rd_commit _ .chnStrip 0 0 rfl).trans (State.rd_count_same s (f := .chnStrip) rfl),
    State.onlyChanges_commit (State.onlyChanges_wr (s.onlyChanges_refl _ _) _ _ _ _ List.mem_cons_self)⟩

/-- Settles O43: each event of the link, of an own frame and of a frame that arrives. -/
theorem linkAndFrames : Obligations.LinkAndFrames := by
  unfold Obligations.LinkAndFrames
  intro s hs
  refine ⟨fun out => ⟨chainAligned_listens hs out, chainNolink_shown hs out⟩, fun on => chainAlignLoss_leaves hs on,
    fun on => chainListenEnd_enters hs on, fun f l waits node => frameInsert_sends hs waits node, fun f sends => frameAbort_cuts hs sends,
    fun f c size node wrong => crcErrorFrame_stomps hs f c size node wrong, fun f size node foreign => ⟨fun hops type => ?_, fun hops => ?_⟩⟩
  · exact reservedFrame_passes hs f size node foreign hops type
  · exact frameStrip_counted hs f size node foreign hops

end Sys2Proof.Machine

/-!
The chain's grains (R246 to R254): what a node that settles its home, lends, takes or gives back leaves as it was.
-/

namespace Sys2Proof.Machine

/-- The fields that a change of the grains held moves. -/
def grainField : Field → Bool
  | .chnHoldHolding | .chnHoldEff | .dagTrcdrop | .dagTrcocc => true
  | _ => false

/-- What settling and lending keep. -/
structure GrainKeeps (P : State → Prop) : Prop where
  put : ∀ s (r : FieldRef) v, grainField r.f = true → P s → P (s.put r v)
  die : ∀ s d f, P s → P (s.updDie d f)
  originate : ∀ s ty l, P s → P (s.originate ty l)
  home : ∀ s (x : ChainState → Option Nat) (y : ChainState → List OfferOut), P s →
    P (s.updChain fun c => { c with home := x c, joinHome := false, offers := y c })
  offers : ∀ s (y : List OfferOut), P s → P (s.updChain fun c => { c with offers := c.offers ++ y })
  lastOffer : ∀ s (x : ChainState → Store Nat Nat), P s → P (s.updChain fun c => { c with lastOffer := x c })
  lastRecall : ∀ s (x : Option Nat), P s → P (s.updChain fun c => { c with lastRecall := x })

/-- The home that a settling takes. -/
def State.homeNow (s : State) : Nat := if s.chain.home.isSome then s.rd .chnHome else 0

/-- What a settling would hold with the loans as they are. -/
def State.carried (s : State) : Nat := (s.holding + s.homeNow) - s.chainHome

/-- What a settling holds. -/
def State.settledHold (s : State) (recount : Bool) : Nat := if s.chain.joinHome || recount then s.homeNow else s.carried

/-- A node whose home and holding are settled. -/
def State.settled (s : State) (recount : Bool) : State :=
  (s.updChain fun c => { c with home := if c.home.isSome then some s.homeNow else none, joinHome := false,
                                offers := if recount then [] else c.offers }).setHolding (s.settledHold recount)

/-- The difference that a RECOUNT makes. -/
def State.recounted (s : State) (recount : Bool) : Nat :=
  if s.settledHold recount < s.carried then s.carried - s.settledHold recount else s.settledHold recount - s.carried

theorem State.settleHold_eq (s : State) (recount : Bool) :
    s.settleHold recount = if recount && decide (s.settledHold recount ≠ s.carried) then (s.settled recount).grainTrace 4 0 0 (s.recounted recount)
      else s.settled recount := rfl

section
variable {P : State → Prop} (keep : GrainKeeps P)
include keep

theorem GrainKeeps.traceRecord {s : State} (d : Nat) (r : TraceRec) (h : P s) : P (s.traceRecord d r) := by
  have counted (n : State) (f : State → State) (hf : ∀ n, P n → P (f n)) (c : Prop) [Decidable c] (hn : P n) : P (if c then f n else n) := by
    split
    · exact hf n hn
    · exact hn
  unfold State.traceRecord
  dsimp only
  split
  · exact h
  · split
    · exact keep.die _ _ _ (keep.put _ _ _ rfl h)
    · exact keep.put _ _ _ rfl (counted _ (fun n => n.count .dagTrcdrop 1 d) (fun n hn => keep.put n _ _ rfl hn) _ (keep.die _ _ _ h))

theorem GrainKeeps.grainTrace {s : State} (kind peer part amount : Nat) (h : P s) : P (s.grainTrace kind peer part amount) := by
  unfold State.grainTrace
  split
  · exact keep.traceRecord _ _ h
  · exact h

theorem GrainKeeps.showHold {s : State} (h : P s) : P s.showHold :=
  keep.put s ⟨.chnHoldEff, 0, 0⟩ _ rfl h

theorem GrainKeeps.setHolding {s : State} (n : Nat) (h : P s) : P (s.setHolding n) :=
  keep.showHold (keep.put s ⟨.chnHoldHolding, 0, 0⟩ _ rfl h)

theorem GrainKeeps.settleHold {s : State} (recount : Bool) (h : P s) : P (s.settleHold recount) := by
  have settled : P (s.settled recount) := keep.setHolding _ (keep.home s _ (fun c => if recount then [] else c.offers) h)
  rw [s.settleHold_eq]
  split
  · exact keep.grainTrace _ _ _ _ settled
  · exact settled

theorem GrainKeeps.sendOffer {s : State} (taker part tag amount : Nat) (h : P s) : P (s.sendOffer taker part tag amount) :=
  keep.grainTrace _ _ _ _ (keep.offers _ _ (keep.originate _ _ _ (keep.setHolding _ h)))

theorem GrainKeeps.lendPart {s : State} (p : Nat) (h : P s) : P (s.lendPart p) := by
  unfold State.lendPart
  dsimp only
  split
  all_goals
    split
    · exact h
    · split
      · exact keep.lastOffer _ (fun c => Store.insert natLt p s.now c.lastOffer) (keep.sendOffer _ _ _ _ h)
      · exact h

theorem GrainKeeps.answerRecall {s : State} (h : P s) : P s.answerRecall := by
  unfold State.answerRecall
  dsimp only
  split
  all_goals
    split
    · exact h
    · split
      · exact keep.lastRecall _ _ (keep.sendOffer _ _ _ _ h)
      · exact h

theorem GrainKeeps.drain {s : State} (h : P s) : P s.drain := by
  unfold State.drain
  split
  · exact h
  · split
    · exact keep.sendOffer _ _ _ _ h
    · exact h

theorem GrainKeeps.lend {s : State} (h : P s) : P s.lend := by
  unfold State.lend
  split
  · exact h
  · split
    · exact keep.drain h
    · refine keep.answerRecall ?_
      split
      · exact State.each_keeps (fun n p hn => keep.lendPart p hn) _ h
      · exact h

end

/-- A register field that no grain moves keeps its value. -/
theorem grainKeeps_rd (f : Field) (i j v : Nat) (h : grainField f = false) : GrainKeeps fun s => s.rd f i j = v where
  put s r w hr hs := by
    have other : r ≠ ⟨f, i, j⟩ := by
      rintro rfl
      exact Bool.false_ne_true (h.symm.trans hr)
    exact (State.reg_put_other s w other).trans hs
  die _ _ _ hs := hs
  originate _ _ _ hs := hs
  home _ _ _ hs := hs
  offers _ _ hs := hs
  lastOffer _ _ hs := hs
  lastRecall _ _ hs := hs

theorem grainKeeps_now (v : Nat) : GrainKeeps fun s => s.now = v where
  put s r w _ hs := (s.put_now r w).trans hs
  die _ _ _ hs := hs
  originate _ _ _ hs := hs
  home _ _ _ hs := hs
  offers _ _ hs := hs
  lastOffer _ _ hs := hs
  lastRecall _ _ hs := hs

theorem State.chain_put (s : State) (r : FieldRef) (v : Nat) : (s.put r v).chain = s.chain :=
  State.put_other State.chain (by intros; rfl) (by intros; rfl) s r v

/-- A part of the chain's state that no grain moves. -/
theorem grainKeeps_chain {α : Type} (g : ChainState → α) (v : α)
    (originated : ∀ (c : ChainState) a n q, g { c with alive := a, originated := n, outq := q } = g c)
    (home : ∀ (c : ChainState) x y, g { c with home := x, joinHome := false, offers := y } = g c)
    (offers : ∀ (c : ChainState) y, g { c with offers := y } = g c) (lastOffer : ∀ (c : ChainState) y, g { c with lastOffer := y } = g c)
    (lastRecall : ∀ (c : ChainState) y, g { c with lastRecall := y } = g c) : GrainKeeps fun s => g s.chain = v where
  put s r w _ hs := (congrArg g (s.chain_put r w)).trans hs
  die _ _ _ hs := hs
  originate s _ _ hs := (originated s.chain _ _ _).trans hs
  home s _ _ hs := (home s.chain _ _).trans hs
  offers s _ hs := (offers s.chain _).trans hs
  lastOffer s _ hs := (lastOffer s.chain _).trans hs
  lastRecall s _ hs := (lastRecall s.chain _).trans hs

/-- A frame that waits keeps waiting. -/
theorem grainKeeps_waits (f : OwnFrame) : GrainKeeps fun s => f ∈ s.chain.outq where
  put s r w _ hs := by rw [s.chain_put r w]; exact hs
  die _ _ _ hs := hs
  originate _ _ _ hs := List.mem_append_left _ hs
  home _ _ _ hs := hs
  offers _ _ hs := hs
  lastOffer _ _ hs := hs
  lastRecall _ _ hs := hs

/-! ## Settling alone -/

theorem State.chain_traceRecord (s : State) (d : Nat) (r : TraceRec) : (s.traceRecord d r).chain = s.chain := by
  unfold State.traceRecord
  dsimp only
  split
  · rfl
  · split
    · exact s.chain_count _ _ _ _
    · refine (State.chain_wr _ _ _ _ _).trans ?_
      split
      · exact State.chain_count _ _ _ _ _
      · rfl

theorem State.chain_grainTrace (s : State) (kind peer part amount : Nat) : (s.grainTrace kind peer part amount).chain = s.chain := by
  unfold State.grainTrace
  split
  · exact s.chain_traceRecord _ _
  · rfl

theorem State.chain_setHolding (s : State) (n : Nat) : (s.setHolding n).chain = s.chain :=
  (State.chain_wr _ _ _ _ _).trans (s.chain_wr _ _ _ _)

theorem State.offers_settleHold (s : State) (recount : Bool) :
    (s.settleHold recount).chain.offers = if recount then [] else s.chain.offers := by
  have settled : (s.settled recount).chain.offers = if recount then [] else s.chain.offers := by
    rw [State.settled, State.chain_setHolding]
    rfl
  rw [s.settleHold_eq]
  split
  · rw [State.chain_grainTrace, settled]
  · exact settled

theorem State.holding_setHolding (s : State) (n : Nat) : (s.setHolding n).holding = min 0xFFFF n := by
  have width : (fieldDef .chnHoldHolding).width = 16 := rfl
  have shown : (s.setHolding n).holding = (s.wr .chnHoldHolding (min 0xFFFF n)).rd .chnHoldHolding := State.rd_wr_field _ _ _ _ _ _ (by decide)
  rw [shown, State.rd_wr_same _ _ _ _ _ rfl, width]
  exact Nat.mod_eq_of_lt (by omega)

theorem State.rd_setHolding (s : State) (n : Nat) {f : Field} (i j : Nat) (held : .chnHoldHolding ≠ f) (eff : .chnHoldEff ≠ f) :
    (s.setHolding n).rd f i j = s.rd f i j := by
  rw [State.setHolding, State.showHold, State.rd_wr_field _ _ _ _ _ _ eff, State.rd_wr_field _ _ _ _ _ _ held]

/-- A record of a grain is no register but the die's trace counts. -/
theorem State.rd_grainTrace (s : State) (kind peer part amount : Nat) {f : Field} (i j : Nat) (drop : .dagTrcdrop ≠ f) (occ : .dagTrcocc ≠ f) :
    (s.grainTrace kind peer part amount).rd f i j = s.rd f i j := by
  unfold State.grainTrace
  split
  · unfold State.traceRecord
    dsimp only
    split
    · rfl
    · split
      · exact State.rd_wr_field _ _ _ _ _ _ drop
      · refine (State.rd_wr_field _ _ _ _ _ _ occ).trans ?_
        split
        · exact State.rd_wr_field _ _ _ _ _ _ drop
        · rfl
  · rfl

/-! ## A frame of one's own (R242) -/

/-- A field of a frame past its first byte leaves that byte. -/
theorem setLe_cons (x : Nat) (b : List Nat) {off : Nat} (n v : Nat) (h : 0 < off) : ∃ l, setLe (x :: b) off n v = x :: l := by
  obtain ⟨k, rfl⟩ := Nat.exists_eq_succ_of_ne_zero (Nat.pos_iff_ne_zero.1 h)
  exact ⟨_, rfl⟩

theorem foldl_setLe_cons (fields : List (Nat × Nat × Nat)) (h : ∀ e ∈ fields, 0 < e.1) (x : Nat) (b : List Nat) :
    ∃ l, fields.foldl (fun b e => setLe b e.1 e.2.1 e.2.2) (x :: b) = x :: l := by
  induction fields generalizing b with
  | nil => exact ⟨b, rfl⟩
  | cons e fields ih =>
    obtain ⟨l, hl⟩ := setLe_cons x b e.2.1 e.2.2 (h e List.mem_cons_self)
    rw [List.foldl_cons, hl]
    exact ih (fun e he => h e (List.mem_cons_of_mem _ he)) l

theorem frameType_cons (x : Nat) (l : List Nat) : frameType (x :: l) = x % 16 := rfl

theorem frameType_makeFrame (x : Nat) (hdr : List Nat) (fields : List (Nat × Nat × Nat)) (h : ∀ e ∈ fields, 0 < e.1) :
    frameType (makeFrame (x :: hdr) fields) = x % 16 := by
  obtain ⟨l, hl⟩ := foldl_setLe_cons fields h x ((hdr ++ List.replicate 32 0).take 31)
  have made : makeFrame (x :: hdr) fields = x :: l := hl
  rw [made, frameType_cons]

/-- The frame that a node originates. -/
def State.originated (s : State) (type : Nat) (fields : List (Nat × Nat × Nat)) : OwnFrame where
  bytes := makeFrame [type + 16 * s.rd .chnVerRver, s.chainPos, (s.chain.alive + 1) % 256, 0, s.rd .chnPosEpoch] fields
  inv := false
  resend := false

theorem State.type_originated (s : State) {type : Nat} (small : type < 16) (fields : List (Nat × Nat × Nat)) (h : ∀ e ∈ fields, 0 < e.1) :
    frameType (s.originated type fields).bytes = type := by
  rw [State.originated, frameType_makeFrame _ _ _ h]
  omega

theorem State.sameTabs_originate {s n : State} {l : List Tab} (h : s.sameTabsBut n l) (type : Nat) (fields : List (Nat × Nat × Nat)) :
    s.sameTabsBut (n.originate type fields) l := State.sameTabs_updChain _ h

/-! ## A frame that is due -/

theorem State.chain_dueAfter (s : State) (last : Option Nat) (ivl : Nat) : (s.dueAfter last ivl).chain = s.chain := by
  cases last with
  | none => rfl
  | some a => exact s.chain_advanceTo _

theorem State.now_dueAfter (s : State) (last : Option Nat) (ivl : Nat) :
    s.now ≤ (s.dueAfter last ivl).now ∧ ∀ a, last = some a → a + ivl ≤ (s.dueAfter last ivl).now := by
  cases last with
  | none => exact ⟨le_refl _, nofun⟩
  | some a =>
    have now : (s.dueAfter (some a) ivl).now = max s.now (a + ivl) := s.advanceTo_now _
    rw [now]
    refine ⟨le_max_left _ _, fun b hb => ?_⟩
    cases hb
    exact le_max_right _ _

theorem State.sameTabs_dueAfter (s : State) (last : Option Nat) (ivl : Nat) : s.sameTabsBut (s.dueAfter last ivl) [] := by
  cases last with
  | none => exact s.sameTabs_same _
  | some a => exact s.sameTabs_advanceTo _

end Sys2Proof.Machine

/-!
Settles O44: claims and the back-off, the originator's LEDGERs as they are sent, return and are lost, a LEDGER that passes, and HOME.
-/

namespace Sys2Proof.Machine

/-! ## Position and version (R245, R248) -/

theorem State.takePos_cases (s : State) (pos m : Nat) :
    s.takePos pos m = (s.wr .chnPos pos).wr .chnPosM m ∨
      s.takePos pos m = ((s.wr .chnPos pos).wr .chnPosM m).updChain fun c => { c with seen := [] } := by
  unfold State.takePos
  dsimp only
  split
  · exact Or.inl rfl
  · exact Or.inr rfl

theorem State.rd_takePos (s : State) (pos m : Nat) (f : Field) (i j : Nat) :
    (s.takePos pos m).rd f i j = ((s.wr .chnPos pos).wr .chnPosM m).rd f i j := by
  rcases s.takePos_cases pos m with e | e <;> rw [e]
  rfl

theorem State.rd_takePos_other (s : State) (pos m : Nat) {f : Field} (i j : Nat) (hp : .chnPos ≠ f) (hm : .chnPosM ≠ f) :
    (s.takePos pos m).rd f i j = s.rd f i j := by
  rw [State.rd_takePos, State.rd_wr_field _ _ _ _ _ _ hm, State.rd_wr_field _ _ _ _ _ _ hp]

theorem State.pos_takePos (s : State) {pos : Nat} (m : Nat) (h : pos < 128) : (s.takePos pos m).rd .chnPos = pos := by
  rw [State.rd_takePos, State.rd_wr_field _ _ _ _ _ _ (by decide), State.rd_wr_same _ .chnPos _ _ _ rfl]
  exact Nat.mod_eq_of_lt h

theorem State.posM_takePos (s : State) (pos : Nat) {m : Nat} (h : m < 256) : (s.takePos pos m).rd .chnPosM = m := by
  rw [State.rd_takePos, State.rd_wr_same _ .chnPosM _ _ _ rfl]
  exact Nat.mod_eq_of_lt h

theorem State.chain_takePos {α : Type} (g : ChainState → α) (hg : ∀ (c : ChainState) x, g { c with seen := x } = g c) (s : State) (pos m : Nat) :
    g (s.takePos pos m).chain = g s.chain := by
  have wrote : ((s.wr .chnPos pos).wr .chnPosM m).chain = s.chain := (State.chain_wr _ _ _ _ _).trans (s.chain_wr _ _ _ _)
  rcases s.takePos_cases pos m with e | e
  · rw [e, wrote]
  · rw [e, State.chain_updChain, hg, wrote]

theorem State.sameTabs_takePos {s n : State} {l : List Tab} (h : s.sameTabsBut n l) (pos m : Nat) : s.sameTabsBut (n.takePos pos m) l := by
  have wrote : s.sameTabsBut ((n.wr .chnPos pos).wr .chnPosM m) l := State.sameTabs_wr (State.sameTabs_wr h _ _ _ _) _ _ _ _
  rcases n.takePos_cases pos m with e | e
  · rw [e]; exact wrote
  · rw [e]; exact State.sameTabs_updChain _ wrote

/-- What no version adopted, position taken or LEDGER shown moves: it is blind to their fields, to contained faults and to grains. -/
def ledgerField : Field → Bool
  | .chnVerRver | .chnStatusVererr | .chnPosEpoch | .chnPos | .chnPosM | .chnPosFrozen | .chnStatusOversub | .chnRound | .chnPrevHome => true
  | f => grainField f

structure LedgerBlind {α : Type} (g : State → α) : Prop where
  fault : FaultBlind g
  put : ∀ s (r : FieldRef) v, ledgerField r.f = true → g (s.put r v) = g s
  chain : ∀ s f, g (State.updChain s f) = g s
  die : ∀ s d f, g (State.updDie s d f) = g s

theorem adoptVersion_other {α : Type} {g : State → α} (fault : FaultBlind g) (ver : ∀ s v, g (State.wr s .chnVerRver v) = g s)
    (err : ∀ s v, g (State.wr s .chnStatusVererr v) = g s) (s : State) (v : Nat) : g (s.adoptVersion v) = g s := by
  unfold State.adoptVersion
  dsimp only
  split
  · exact (raise_blind fault _ _ FaultClass.noConfusion).trans ((err _ _).trans (ver _ _))
  · exact (err _ _).trans (ver _ _)

theorem State.chain_adoptVersion (s : State) (v : Nat) : (s.adoptVersion v).chain = s.chain :=
  adoptVersion_other blind_chain (fun s v => s.chain_wr _ v _ _) (fun s v => s.chain_wr _ v _ _) s v

theorem State.now_adoptVersion (s : State) (v : Nat) : (s.adoptVersion v).now = s.now :=
  adoptVersion_other blind_now (fun s v => s.put_now _ v) (fun s v => s.put_now _ v) s v

/-- A LEDGER shown, without its instant. -/
def State.ledgerShown (s : State) (flags round prevHome : Nat) : State :=
  (((s.wr .chnPosFrozen (bit (testBit flags 0))).wr .chnStatusOversub (bit (testBit flags 2))).wr .chnRound round).wr .chnPrevHome prevHome

theorem State.ledgerSeen_eq (s : State) (flags round prevHome : Nat) :
    s.ledgerSeen flags round prevHome =
      ((s.ledgerShown flags round prevHome).updChain fun c => { c with lastLedger := some s.now }).showHold := rfl

theorem State.chain_ledgerShown (s : State) (flags round prevHome : Nat) : (s.ledgerShown flags round prevHome).chain = s.chain :=
  (State.chain_wr _ _ _ _ _).trans ((State.chain_wr _ _ _ _ _).trans ((State.chain_wr _ _ _ _ _).trans (State.chain_wr _ _ _ _ _)))

theorem State.chain_ledgerSeen (s : State) (flags round prevHome : Nat) :
    (s.ledgerSeen flags round prevHome).chain = { s.chain with lastLedger := some s.now } := by
  rw [State.ledgerSeen_eq, State.showHold, State.chain_wr, State.chain_updChain, State.chain_ledgerShown]

theorem State.round_ledgerSeen (s : State) (flags : Nat) {round : Nat} (prevHome : Nat) (h : round < 2 ^ 32) :
    (s.ledgerSeen flags round prevHome).rd .chnRound = round := by
  rw [State.ledgerSeen_eq, State.showHold, State.rd_wr_field _ _ _ _ _ _ (by decide), State.rd_updChain, State.ledgerShown,
    State.rd_wr_field _ _ _ _ _ _ (by decide), State.rd_wr_same _ .chnRound _ _ _ rfl]
  exact Nat.mod_eq_of_lt h

section
variable {α : Type} {g : State → α} (blind : LedgerBlind g)
include blind

theorem LedgerBlind.adoptVersion (s : State) (v : Nat) : g (s.adoptVersion v) = g s :=
  adoptVersion_other blind.fault (fun s v => blind.put s ⟨.chnVerRver, 0, 0⟩ v rfl) (fun s v => blind.put s ⟨.chnStatusVererr, 0, 0⟩ v rfl) s v

theorem LedgerBlind.takePos (s : State) (pos m : Nat) : g (s.takePos pos m) = g s := by
  have wrote : g ((s.wr .chnPos pos).wr .chnPosM m) = g s := (blind.put _ ⟨.chnPosM, 0, 0⟩ m rfl).trans (blind.put s ⟨.chnPos, 0, 0⟩ pos rfl)
  rcases s.takePos_cases pos m with e | e
  · rw [e, wrote]
  · rw [e, blind.chain, wrote]

theorem LedgerBlind.grains (v : α) : GrainKeeps fun s => g s = v where
  put s r w hr hs := by
    have ledger : ledgerField r.f = true := by
      revert hr
      cases r.f <;> simp [ledgerField, grainField]
    exact (blind.put s r w ledger).trans hs
  die _ _ _ hs := (blind.die _ _ _).trans hs
  originate s _ _ hs := by
    rw [State.originate, blind.chain]
    exact hs
  home _ _ _ hs := (blind.chain _ _).trans hs
  offers _ _ hs := (blind.chain _ _).trans hs
  lastOffer _ _ hs := (blind.chain _ _).trans hs
  lastRecall _ _ hs := (blind.chain _ _).trans hs

theorem LedgerBlind.ledgerSeen (s : State) (flags round prevHome : Nat) : g (s.ledgerSeen flags round prevHome) = g s := by
  have shown : g (s.ledgerShown flags round prevHome) = g s :=
    (blind.put _ ⟨.chnPrevHome, 0, 0⟩ _ rfl).trans ((blind.put _ ⟨.chnRound, 0, 0⟩ _ rfl).trans
      ((blind.put _ ⟨.chnStatusOversub, 0, 0⟩ _ rfl).trans (blind.put s ⟨.chnPosFrozen, 0, 0⟩ _ rfl)))
  rw [State.ledgerSeen_eq]
  exact (blind.put _ ⟨.chnHoldEff, 0, 0⟩ _ rfl).trans ((blind.chain _ _).trans shown)

end

theorem ledgerBlind_now : LedgerBlind fun s : State => s.now where
  fault := blind_now
  put s r v _ := s.put_now r v
  chain _ _ := rfl
  die _ _ _ := rfl

theorem ledgerBlind_rd (f : Field) (i j : Nat) (fault : faultField f = false) (ledger : ledgerField f = false) :
    LedgerBlind fun s : State => s.rd f i j where
  fault := blind_rd f i j fault
  put s r v hr := by
    have other : r ≠ ⟨f, i, j⟩ := by
      rintro rfl
      exact Bool.false_ne_true (ledger.symm.trans hr)
    exact State.reg_put_other s v other
  chain _ _ := rfl
  die _ _ _ := rfl

/-! ## The LEDGER that a node originates (R248, R249) -/

/-- The epoch of the next LEDGER. -/
def State.nextEpoch (s : State) : Nat := if testBit s.chain.nextFlags 1 then (s.chain.maxEpoch + 1) % 256 else s.rd .chnPosEpoch

/-- The round of the next LEDGER. -/
def State.nextRound (s : State) : Nat := (s.chain.round + 1) % 2 ^ 32

/-- The originator before it settles for the next LEDGER. -/
def State.ledgerPlaced (s : State) : State := ((s.wr .chnPosEpoch s.nextEpoch).adoptVersion s.ringVersion).takePos 0 s.chain.prevM

/-- The originator as it forms the next LEDGER. -/
def State.ledgerFormed (s : State) : State :=
  (s.ledgerPlaced.settleHold (testBit s.chain.nextFlags 1)).ledgerSeen s.chain.nextFlags s.nextRound s.chain.prevHome

/-- The fields of the next LEDGER. -/
def State.ledgerFields (s : State) : List (Nat × Nat × Nat) :=
  [(5, 1, s.chain.nextFlags), (6, 1, s.ledgerFormed.rd .chnVerRver), (8, 4, s.nextRound), (12, 1, 1), (13, 1, s.chain.prevM),
   (16, 4, s.ledgerFormed.holding), (20, 4, s.ledgerFormed.chainHome), (24, 4, s.ledgerFormed.rd .chnTotal), (28, 4, s.chain.prevHome)]

theorem State.newLedger_eq (s : State) :
    s.newLedger = (s.ledgerFormed.originate tyLedger s.ledgerFields).updChain fun c =>
      { c with ledgerOut := some c.alive, ledgerAt := some s.now, seam := 0, round := s.nextRound, lastFlags := s.chain.nextFlags,
               maxEpoch := s.nextEpoch,
               nextFlags := if testBit s.chain.nextFlags 1 then s.chain.nextFlags - 2 else s.chain.nextFlags } := rfl

/-- A LEDGER that is out, with its instant and round. -/
theorem State.out_newLedger (s : State) :
    s.newLedger.chain.ledgerOut.isSome = true ∧ s.newLedger.chain.ledgerAt = some s.now ∧ s.newLedger.chain.round = s.nextRound := by
  rw [State.newLedger_eq]
  exact ⟨rfl, rfl, rfl⟩

theorem State.waits_newLedger (s : State) : s.ledgerFormed.originated tyLedger s.ledgerFields ∈ s.newLedger.chain.outq := by
  rw [State.newLedger_eq]
  exact List.mem_append_right _ List.mem_cons_self

theorem State.type_ledger (s : State) : frameType (s.ledgerFormed.originated tyLedger s.ledgerFields).bytes = tyLedger :=
  State.type_originated _ (by decide) _ (by simp [State.ledgerFields])

theorem LedgerBlind.newLedger {α : Type} {g : State → α} (blind : LedgerBlind g) (s : State) : g s.newLedger = g s := by
  rw [State.newLedger_eq, blind.chain, State.originate, blind.chain, State.ledgerFormed, blind.ledgerSeen,
    (blind.grains _).settleHold _ rfl, State.ledgerPlaced, blind.takePos, blind.adoptVersion]
  exact blind.put s ⟨.chnPosEpoch, 0, 0⟩ _ rfl

theorem State.offers_newLedger (s : State) : ∀ o ∈ s.newLedger.chain.offers, o ∈ s.chain.offers := by
  have placed : s.ledgerPlaced.chain.offers = s.chain.offers := by
    rw [State.ledgerPlaced, State.chain_takePos ChainState.offers (by intros; rfl), State.chain_adoptVersion, State.chain_wr]
  have formed : s.newLedger.chain.offers = if testBit s.chain.nextFlags 1 then [] else s.chain.offers := by
    rw [State.newLedger_eq]
    change s.ledgerFormed.chain.offers = _
    rw [State.ledgerFormed, State.chain_ledgerSeen]
    change (s.ledgerPlaced.settleHold _).chain.offers = _
    rw [State.offers_settleHold, placed]
  rw [formed]
  split
  · exact fun o ho => absurd ho List.not_mem_nil
  · exact fun o ho => ho

/-- What a LEDGER sent keeps to, with the OFFERs that follow it. -/
theorem State.sent_newLedger (s : State) :
    s.newLedger.lend.chain.ledgerOut.isSome = true ∧ s.newLedger.lend.chain.ledgerAt = some s.now ∧
      s.newLedger.lend.chain.round = s.nextRound ∧ s.newLedger.lend.now = s.now ∧
      s.ledgerFormed.originated tyLedger s.ledgerFields ∈ s.newLedger.lend.chain.outq := by
  obtain ⟨out, sentAt, round⟩ := s.out_newLedger
  refine ⟨?_, ?_, ?_, ?_, (grainKeeps_waits _).lend s.waits_newLedger⟩
  · exact (grainKeeps_chain (fun c => c.ledgerOut.isSome) true (by intros; rfl) (by intros; rfl) (by intros; rfl) (by intros; rfl)
      (by intros; rfl)).lend out
  · exact (grainKeeps_chain ChainState.ledgerAt _ (by intros; rfl) (by intros; rfl) (by intros; rfl) (by intros; rfl) (by intros; rfl)).lend sentAt
  · exact (grainKeeps_chain ChainState.round _ (by intros; rfl) (by intros; rfl) (by intros; rfl) (by intros; rfl) (by intros; rfl)).lend round
  · exact (grainKeeps_now s.now).lend (ledgerBlind_now.newLedger s)

theorem exec_ledgerSend {s : State} (hs : s.aon = true) (orig : s.flag .chnPosOrig = true) (home : s.chain.ledgerOut = none) (node : s.chainRole = 2) :
    exec .ledgerSend s = .next (s.commit (s.dueAfter s.chain.ledgerAt s.roundNs).newLedger.lend) := by
  change execLedgerSend s = _
  rw [execLedgerSend, State.run_on _ hs]
  simp only [orig, home, node, Option.isNone_none, decide_true, Bool.and_self, if_true]
  cases s.chain.ledgerAt with
  | none => simp only [State.dueAfter]
  | some a => simp only [State.dueAfter]

theorem ledgerSend_originates {s : State} (hs : s.aon = true) (orig : s.flag .chnPosOrig = true) (home : s.chain.ledgerOut = none)
    (node : s.chainRole = 2) :
    ∃ t, exec .ledgerSend s = .next t ∧ t.chain.ledgerOut.isSome = true ∧ t.chain.ledgerAt = some t.now ∧
      t.chain.round = (s.chain.round + 1) % 2 ^ 32 ∧ (∃ f ∈ t.chain.outq, frameType f.bytes = tyLedger) ∧
      (∀ a, s.chain.ledgerAt = some a → a + s.roundNs ≤ t.now) := by
  obtain ⟨out, sentAt, round, now, waits⟩ := (s.dueAfter s.chain.ledgerAt s.roundNs).sent_newLedger
  obtain ⟨later, due⟩ := s.now_dueAfter s.chain.ledgerAt s.roundNs
  have ends : (s.commit (s.dueAfter s.chain.ledgerAt s.roundNs).newLedger.lend).now = (s.dueAfter s.chain.ledgerAt s.roundNs).now := by
    rw [State.commit_now, now]
    exact max_eq_right later
  refine ⟨_, exec_ledgerSend hs orig home node, out, ?_, ?_, ⟨_, waits, State.type_ledger _⟩, fun a ha => ?_⟩
  · rw [ends]
    exact sentAt
  · exact round.trans (by rw [State.nextRound, s.chain_dueAfter])
  · rw [ends]
    exact due a ha

/-! ## The LEDGER that returns or is lost (R250, R251) -/

theorem le_lt (f : Frame) (off n : Nat) : le (frameBytes f) off n < 256 ^ n := by
  unfold le
  have bytes : ∀ x ∈ (frameBytes f).drop off, x < 256 := fun x hx => by
    obtain ⟨b, _, rfl⟩ := List.mem_map.1 (List.mem_of_mem_drop hx)
    exact b.isLt
  generalize (frameBytes f).drop off = l at bytes
  induction n generalizing l with
  | zero => simp [bytesWord]
  | succ n ih =>
    cases l with
    | nil => simp [bytesWord]
    | cons x l =>
      have rest := ih l fun y hy => bytes y (List.mem_cons_of_mem x hy)
      have head := bytes x List.mem_cons_self
      rw [List.take_succ_cons, bytesWord, Nat.pow_succ]
      omega

theorem le_byte (f : Frame) (off : Nat) : le (frameBytes f) off 1 < 256 := le_lt f off 1

/-- The sums of a returned LEDGER, judged. -/
def State.ledgerJudged (s : State) (b : List Nat) : State :=
  if le b 16 4 + s.chain.seam ≠ le b 20 4 then (s.count .chnMismatch).updChain fun c => { c with nextFlags := 3 }
  else if le b 24 4 < le b 20 4 then s.updChain fun c => { c with nextFlags := 5 }
  else if testBit s.chain.lastFlags 1 || testBit s.chain.lastFlags 2 then s.updChain fun c => { c with nextFlags := 0 }
  else s

/-- The mark of grains that HOME does not cover. -/
def State.undersubMarked (s : State) (b : List Nat) : State := s.wr .chnStatusUndersub (bit (decide (le b 20 4 < le b 24 4)))

/-- A LEDGER that is out no more. -/
def State.ledgerHome (s : State) (b : List Nat) : State :=
  s.updChain fun c => { c with ledgerOut := none, seam := 0, prevM := le b 12 1, prevHome := le b 20 4, lastLedger := some s.now }

/-- The returned LEDGER taken. -/
def State.ledgerReturned (s : State) (b : List Nat) : State := (((s.ledgerJudged b).undersubMarked b).ledgerHome b).takePos 0 (le b 12 1)

theorem State.now_ledgerJudged (s : State) (b : List Nat) : ((s.ledgerJudged b).undersubMarked b).now = s.now := by
  rw [State.undersubMarked, State.wr, State.put_now, State.ledgerJudged]
  split
  · exact s.put_now _ _
  · split
    · rfl
    · split <;> rfl

theorem exec_ledgerReturn {s : State} (hs : s.aon = true) (f : Frame) (size : (frameBytes f).length = 32)
    (type : frameType (frameBytes f) = tyLedger) (node : s.chainRole ≠ 0) (own : s.ownFrame (frameBytes f) = true)
    (out : s.chain.ledgerOut = some (frameAlive (frameBytes f))) :
    exec (.ledgerReturn f) s = .next (s.commit (s.ledgerReturned (frameBytes f))) := by
  change execLedgerReturn f s = _
  rw [execLedgerReturn, State.run_on _ hs]
  simp only [frameOk, size, type, node, own, out, ne_eq, not_false_eq_true, decide_true, Bool.and_self, if_true]
  rw [State.ledgerReturned, State.ledgerHome, s.now_ledgerJudged]
  rfl

theorem State.flags_ledgerReturned (s : State) (b : List Nat) : (s.ledgerReturned b).chain.nextFlags = (s.ledgerJudged b).chain.nextFlags := by
  rw [State.ledgerReturned, State.chain_takePos ChainState.nextFlags (by intros; rfl)]
  have marked : ((s.ledgerJudged b).undersubMarked b).chain = (s.ledgerJudged b).chain := State.chain_wr _ _ _ _ _
  rw [State.ledgerHome, State.chain_updChain, marked]

theorem State.ledgerJudged_mismatch {s : State} {b : List Nat} (h : le b 16 4 + s.chain.seam ≠ le b 20 4) :
    s.ledgerJudged b = (s.count .chnMismatch).updChain fun c => { c with nextFlags := 3 } := if_pos h

theorem State.ledgerJudged_over {s : State} {b : List Nat} (h : le b 16 4 + s.chain.seam = le b 20 4) (beyond : le b 24 4 < le b 20 4) :
    s.ledgerJudged b = s.updChain fun c => { c with nextFlags := 5 } := (if_neg (not_not.2 h)).trans (if_pos beyond)

theorem State.sameTabs_ledgerJudged (s : State) (b : List Nat) : s.sameTabsBut (s.ledgerJudged b) [] := by
  unfold State.ledgerJudged
  split
  · exact State.sameTabs_updChain _ (State.sameTabs_count (s.sameTabs_same _) _ _ _ _)
  · split
    · exact State.sameTabs_updChain _ (s.sameTabs_same _)
    · split
      · exact State.sameTabs_updChain _ (s.sameTabs_same _)
      · exact s.sameTabs_same _

theorem ledgerReturn_checks {s : State} (hs : s.aon = true) (f : Frame) (size : (frameBytes f).length = 32)
    (type : frameType (frameBytes f) = tyLedger) (node : s.chainRole ≠ 0) (own : s.ownFrame (frameBytes f) = true)
    (out : s.chain.ledgerOut = some (frameAlive (frameBytes f))) :
    ∃ t, exec (.ledgerReturn f) s = .next t ∧ t.chain.ledgerOut = none ∧ t.chain.prevM = le (frameBytes f) 12 1 ∧
      t.rd .chnPosM = le (frameBytes f) 12 1 ∧ s.sameTabsBut t [] ∧
      (le (frameBytes f) 16 4 + s.chain.seam ≠ le (frameBytes f) 20 4 →
        t.chain.nextFlags = 3 ∧ t.rd .chnMismatch = s.oneUp .chnMismatch) ∧
      (le (frameBytes f) 16 4 + s.chain.seam = le (frameBytes f) 20 4 → le (frameBytes f) 24 4 < le (frameBytes f) 20 4 →
        t.chain.nextFlags = 5) := by
  refine ⟨_, exec_ledgerReturn hs f size type node own out, ?_, ?_, ?_, ?_, fun differ => ⟨?_, ?_⟩, fun agree beyond => ?_⟩
  · exact State.chain_takePos ChainState.ledgerOut (by intros; rfl) _ _ _
  · exact State.chain_takePos ChainState.prevM (by intros; rfl) _ _ _
  · rw [State.rd_commit _ _ _ _ _ rfl]
    exact State.posM_takePos _ _ (le_byte f 12)
  · exact State.sameTabs_commit (State.sameTabs_takePos (State.sameTabs_updChain _ (State.sameTabs_wr (s.sameTabs_ledgerJudged _) _ _ _ _)) _ _)
  · rw [State.chain_commit, State.flags_ledgerReturned, State.ledgerJudged_mismatch differ]
    rfl
  · rw [State.rd_commit _ _ _ _ _ rfl, State.ledgerReturned, State.rd_takePos_other _ _ _ _ _ (by decide) (by decide), State.ledgerHome,
      State.rd_updChain, State.undersubMarked, State.rd_wr_field _ _ _ _ _ _ (by decide), State.ledgerJudged_mismatch differ, State.rd_updChain]
    exact State.rd_count_same s (f := .chnMismatch) rfl
  · rw [State.chain_commit, State.flags_ledgerReturned, State.ledgerJudged_over agree beyond]
    rfl

/-- A LEDGER that is lost, counted. -/
def State.ledgerMissed (s : State) (b : Nat) : State :=
  ((s.advanceTo (b + s.outNs)).count .chnLdglost).updChain fun c => { c with ledgerOut := none, seam := 0, nextFlags := c.lastFlags }

theorem State.chainRole_congr {s n : State} (pins : n.pins = s.pins) (force : n.force = s.force) (svc : n.rd .govStateCur = s.rd .govStateCur)
    (en : n.rd .chnCfgEn = s.rd .chnCfgEn) (err : n.rd .chnStatusVererr = s.rd .chnStatusVererr) : n.chainRole = s.chainRole := by
  unfold State.chainRole State.svc State.flag
  rw [pins, force, svc, en, err]

theorem State.pins_advanceTo (s : State) (t : Nat) : (s.advanceTo t).pins = s.pins :=
  State.advanceTo_other State.pins (fun s r v => State.put_other State.pins (by intros; rfl) (by intros; rfl) s r v)
    (by intros; rfl) (by intros; rfl) s t

theorem State.force_advanceTo (s : State) (t : Nat) : (s.advanceTo t).force = s.force :=
  State.advanceTo_other State.force (fun s r v => s.put_force r v) (by intros; rfl) (by intros; rfl) s t

theorem State.chainRole_advanceTo (s : State) (t : Nat) : (s.advanceTo t).chainRole = s.chainRole :=
  State.chainRole_congr (s.pins_advanceTo t) (s.force_advanceTo t) (s.rd_advanceTo t _ _ (by decide)) (s.rd_advanceTo t _ _ (by decide))
    (s.rd_advanceTo t _ _ (by decide))

theorem State.rd_ledgerMissed (s : State) (b : Nat) {f : Field} (i j : Nat) (time : f ∉ timeFields) (other : .chnLdglost ≠ f) :
    (s.ledgerMissed b).rd f i j = s.rd f i j := by
  rw [State.ledgerMissed, State.rd_updChain, State.count, State.rd_wr_field _ _ _ _ _ _ other, s.rd_advanceTo _ _ _ time]

theorem State.chainRole_ledgerMissed (s : State) (b : Nat) : (s.ledgerMissed b).chainRole = s.chainRole := by
  refine State.chainRole_congr ?_ ?_ (s.rd_ledgerMissed b _ _ (by decide) (by decide)) (s.rd_ledgerMissed b _ _ (by decide) (by decide))
    (s.rd_ledgerMissed b _ _ (by decide) (by decide))
  · exact (State.put_other State.pins (by intros; rfl) (by intros; rfl) (s.advanceTo _) _ _).trans (s.pins_advanceTo _)
  · exact ((s.advanceTo _).put_force _ _).trans (s.force_advanceTo _)

theorem State.lost_ledgerMissed (s : State) (b : Nat) : (s.ledgerMissed b).rd .chnLdglost = s.oneUp .chnLdglost := by
  rw [State.ledgerMissed, State.rd_updChain, State.rd_count_same _ (f := .chnLdglost) rfl, State.oneUp, s.rd_advanceTo _ _ _ (by decide), State.oneUp]

theorem State.now_ledgerMissed (s : State) (b : Nat) : (s.ledgerMissed b).now = max s.now (b + s.outNs) := by
  have counted : (s.ledgerMissed b).now = (s.advanceTo (b + s.outNs)).now := State.put_now _ _ _
  rw [counted, State.advanceTo_now]

theorem State.offers_ledgerMissed (s : State) (b : Nat) : (s.ledgerMissed b).chain.offers = s.chain.offers := by
  change ((s.advanceTo _).count _).chain.offers = _
  rw [State.chain_count, State.chain_advanceTo]

/-- What follows a lost LEDGER: the next one, and OFFERs where it was lost within 32 µs. -/
def State.ledgerAgain (s : State) (soon : Prop) [Decidable soon] : State :=
  if s.chainRole = 2 then (if soon then s.newLedger.lend else s.newLedger) else s

theorem exec_ledgerLost {s : State} (hs : s.aon = true) {a b : Nat} (out : s.chain.ledgerOut = some a) (sentAt : s.chain.ledgerAt = some b) :
    exec .ledgerLost s = .next (s.commit ((s.ledgerMissed b).ledgerAgain (s.outNs ≤ 32000))) := by
  change execLedgerLost s = _
  rw [execLedgerLost, State.run_on _ hs]
  simp only [out, sentAt]
  rfl

theorem LedgerBlind.ledgerAgain {α : Type} {g : State → α} (blind : LedgerBlind g) (s : State) (soon : Prop) [Decidable soon] :
    g (s.ledgerAgain soon) = g s := by
  unfold State.ledgerAgain
  split
  · split
    · exact (blind.grains _).lend (blind.newLedger s)
    · exact blind.newLedger s
  · rfl

theorem ledgerLost_sendsNext {s : State} (hs : s.aon = true) {a b : Nat} (out : s.chain.ledgerOut = some a) (sentAt : s.chain.ledgerAt = some b) :
    ∃ t, exec .ledgerLost s = .next t ∧
      t.rd .chnLdglost = s.oneUp .chnLdglost ∧ b + s.outNs ≤ t.now ∧ (s.chainRole ≠ 2 → t.chain.ledgerOut = none) ∧
      (s.chainRole = 2 → t.chain.ledgerOut.isSome = true ∧ (32000 < s.outNs → ∀ o ∈ t.chain.offers, o ∈ s.chain.offers)) := by
  have role := s.chainRole_ledgerMissed b
  refine ⟨_, exec_ledgerLost hs out sentAt, ?_, ?_, fun node => ?_, fun node => ?_⟩
  · rw [State.rd_commit _ _ _ _ _ rfl, (ledgerBlind_rd .chnLdglost 0 0 rfl rfl).ledgerAgain, s.lost_ledgerMissed]
  · rw [State.commit_now, ledgerBlind_now.ledgerAgain, s.now_ledgerMissed]
    exact (le_max_right _ _).trans (le_max_right _ _)
  · rw [State.chain_commit, State.ledgerAgain, role, if_neg node]
    rfl
  · have sent : (s.ledgerMissed b).ledgerAgain (s.outNs ≤ 32000) =
        if s.outNs ≤ 32000 then (s.ledgerMissed b).newLedger.lend else (s.ledgerMissed b).newLedger := by
      rw [State.ledgerAgain, role, if_pos node]
    rw [sent, State.chain_commit]
    by_cases soon : s.outNs ≤ 32000
    · rw [if_pos soon]
      exact ⟨(s.ledgerMissed b).sent_newLedger.1, fun late => absurd soon (by omega)⟩
    · rw [if_neg soon]
      refine ⟨(s.ledgerMissed b).out_newLedger.1, fun _ o ho => ?_⟩
      have kept := (s.ledgerMissed b).offers_newLedger o ho
      rwa [s.offers_ledgerMissed] at kept

/-! ## Claims (R256) -/

theorem exec_claimSend {s : State} (hs : s.aon = true) (node : s.chainRole = 2) (orig : s.flag .chnPosOrig = false) (free : s.chain.backoff = none) :
    exec .claimSend s =
      .next (s.commit (s.dueAfter (if s.chain.claiming then some s.chain.claimAt else s.chain.lastLedger) 64000).claim) := by
  change execClaimSend s = _
  rw [execClaimSend, State.run_on _ hs]
  simp only [node, orig, free, ne_eq, not_true_eq_false, decide_false, Option.isSome_none, Bool.or_self, Bool.false_eq_true, if_false]
  cases s.chain.claiming with
  | true => rfl
  | false =>
    cases s.chain.lastLedger with
    | none => rfl
    | some a => rfl

/-- What a CLAIM changes of the chain. -/
theorem State.claim_claims (s : State) : s.claim.chain.claiming = true ∧ s.claim.chain.claimAt = s.now ∧ s.claim.now = s.now ∧
    s.claim.chain.outq = s.chain.outq ++ [s.originated tyClaim [(8, 8, s.rd .chnNodeidId)]] := ⟨rfl, rfl, rfl, rfl⟩

theorem claimSend_claims {s : State} (hs : s.aon = true) (node : s.chainRole = 2) (orig : s.flag .chnPosOrig = false)
    (free : s.chain.backoff = none) :
    ∃ t f, exec .claimSend s = .next t ∧ t.chain.claiming = true ∧ t.chain.outq = s.chain.outq ++ [f] ∧ frameType f.bytes = tyClaim ∧
      t.chain.claimAt = t.now ∧ (s.chain.claiming = true → s.chain.claimAt + 64000 ≤ t.now) ∧
      (∀ a, s.chain.claiming = false → s.chain.lastLedger = some a → a + 64000 ≤ t.now) ∧ s.sameTabsBut t [] := by
  have run := exec_claimSend hs node orig free
  generalize lastClaim : (if s.chain.claiming then some s.chain.claimAt else s.chain.lastLedger) = last at run
  obtain ⟨later, due⟩ := s.now_dueAfter last 64000
  have ends : (s.commit (s.dueAfter last 64000).claim).now = (s.dueAfter last 64000).now := max_eq_right later
  refine ⟨_, (s.dueAfter last 64000).originated tyClaim [(8, 8, (s.dueAfter last 64000).rd .chnNodeidId)], run, rfl, ?_,
    State.type_originated _ (by decide) _ (by simp), ?_, fun on => ?_, fun a off ha => ?_, ?_⟩
  · have outq : (s.dueAfter last 64000).chain.outq = s.chain.outq := congrArg ChainState.outq (s.chain_dueAfter last 64000)
    rw [State.chain_commit, (State.claim_claims _).2.2.2, outq]
  · rw [ends]
    rfl
  · rw [ends]
    exact due _ (by rw [← lastClaim, on, if_pos rfl])
  · rw [ends]
    exact due _ (by rw [← lastClaim, off, if_neg Bool.false_ne_true, ha])
  · exact State.sameTabs_commit (State.sameTabs_updChain _ (State.sameTabs_originate (s.sameTabs_dueAfter _ _) _ _))

/-- A claim received while the node claims, by the identity that it carries. -/
theorem exec_claimReceived {s : State} (hs : s.aon = true) (f : Frame) (size : (frameBytes f).length = 32)
    (type : frameType (frameBytes f) = tyClaim) (node : s.chainRole ≠ 0) (claims : s.chain.claiming = true) :
    exec (.claimReceived f) s = .next (s.commit
      (if le (frameBytes f) 8 8 = s.rd .chnNodeidId then s.becomeOrig
      else if 127 ≤ frameHops (frameBytes f) then s.count .chnStrip
      else if le (frameBytes f) 8 8 < s.rd .chnNodeidId then
        (s.forward (frameBytes f)).updChain fun c => { c with claiming := false, backoff := some s.now }
      else s)) := by
  change execClaimReceived f s = _
  rw [execClaimReceived, State.run_on _ hs]
  simp only [frameOk, size, type, node, claims, decide_true, Bool.not_true, ne_eq, not_true_eq_false, decide_false, Bool.or_self,
    Bool.false_eq_true, if_false, if_true]

/-- An originator that has just claimed the ring. -/
def ChainState.originator (c : ChainState) : ChainState :=
  { c with claiming := false, backoff := none, ledgerOut := none, ledgerAt := none, seam := 0, nextFlags := 3, lastFlags := 0, versions := [] }

theorem State.becomeOrig_eq (s : State) : s.becomeOrig = ((s.wr .chnPosOrig 1).takePos 0 (s.rd .chnPosM)).updChain ChainState.originator := rfl

theorem ownClaim_originates {s : State} (hs : s.aon = true) (f : Frame) (size : (frameBytes f).length = 32)
    (type : frameType (frameBytes f) = tyClaim) (node : s.chainRole ≠ 0) (claims : s.chain.claiming = true)
    (own : le (frameBytes f) 8 8 = s.rd .chnNodeidId) :
    ∃ t, exec (.claimReceived f) s = .next t ∧ t.flag .chnPosOrig = true ∧
      t.chain.claiming = false ∧ t.chain.nextFlags = 3 ∧ t.rd .chnPos = 0 ∧ s.sameTabsBut t [] := by
  have run := exec_claimReceived hs f size type node claims
  rw [if_pos own, s.becomeOrig_eq] at run
  refine ⟨_, run, ?_, rfl, rfl, ?_, ?_⟩
  · rw [State.flag, State.rd_commit _ _ _ _ _ rfl, State.rd_updChain, State.rd_takePos_other _ _ _ _ _ (by decide) (by decide)]
    exact State.flag_wr_one s (f := .chnPosOrig) rfl rfl
  · rw [State.rd_commit _ _ _ _ _ rfl, State.rd_updChain]
    exact State.pos_takePos _ _ (by decide)
  · exact State.sameTabs_commit (State.sameTabs_updChain _ (State.sameTabs_takePos (State.sameTabs_wr (s.sameTabs_same _) _ _ _ _) _ _))

theorem lowerClaim_passes {s : State} (hs : s.aon = true) (f : Frame) (size : (frameBytes f).length = 32)
    (type : frameType (frameBytes f) = tyClaim) (node : s.chainRole ≠ 0) (claims : s.chain.claiming = true)
    (lower : le (frameBytes f) 8 8 < s.rd .chnNodeidId) (hops : frameHops (frameBytes f) < 127) :
    ∃ t x, exec (.claimReceived f) s = .next t ∧ t.chain.claiming = false ∧ t.chain.backoff = some s.now ∧
      t.chain.tx = s.chain.tx ++ [x] ∧ x.bytes = hop (frameBytes f) ∧ s.sameRegsBut t [] ∧ s.sameTabsBut t [] := by
  have run := exec_claimReceived hs f size type node claims
  rw [if_neg (by omega), if_neg (by omega), if_pos lower] at run
  have plain : s.forwarded (frameBytes f) = hop (frameBytes f) :=
    State.forwarded_plain (by rw [type]; decide) (by rw [type]; decide)
  exact ⟨_, _, run, rfl, rfl, s.tx_forward _, plain, State.sameRegs_commit (State.sameRegs_updChain _ (s.sameRegs_forward _ _)),
    State.sameTabs_commit (State.sameTabs_updChain _ (s.sameTabs_forward _))⟩

theorem higherClaim_stripped {s : State} (hs : s.aon = true) (f : Frame) (size : (frameBytes f).length = 32)
    (type : frameType (frameBytes f) = tyClaim) (node : s.chainRole ≠ 0) (claims : s.chain.claiming = true)
    (higher : s.rd .chnNodeidId < le (frameBytes f) 8 8) (hops : frameHops (frameBytes f) < 127) :
    ∃ t, exec (.claimReceived f) s = .next t ∧ s.onlyChanges t [] [] := by
  have run := exec_claimReceived hs f size type node claims
  rw [if_neg (by omega), if_neg (by omega), if_neg (by omega)] at run
  exact ⟨_, run, State.onlyChanges_commit (s.onlyChanges_refl _ _)⟩

/-- A back-off that is over. -/
def State.backedOff (s : State) (a : Nat) : State := (s.advanceTo (a + 16000)).updChain fun c => { c with backoff := none }

/-- A LEDGER has been seen since a back-off began. -/
def State.ledgerSince (s : State) (a : Nat) : Bool := s.chain.lastLedger.any fun l => decide (a ≤ l)

theorem exec_claimBackoffEnd {s : State} (hs : s.aon = true) {a : Nat} (waits : s.chain.backoff = some a) :
    exec .claimBackoffEnd s =
      .next (s.commit (if s.ledgerSince a || (s.backedOff a).chainRole ≠ 2 then s.backedOff a else (s.backedOff a).claim)) := by
  change execClaimBackoffEnd s = _
  rw [execClaimBackoffEnd, State.run_on _ hs]
  cases seen : s.chain.lastLedger with
  | none =>
    simp only [waits]
    rw [State.ledgerSince, seen]
    rfl
  | some l =>
    simp only [waits]
    rw [State.ledgerSince, seen]
    rfl

theorem State.chainRole_backedOff (s : State) (a : Nat) : (s.backedOff a).chainRole = s.chainRole := s.chainRole_advanceTo _

theorem State.backedOff_off (s : State) (a : Nat) : (s.backedOff a).chain.backoff = none ∧ (s.backedOff a).now = max s.now (a + 16000) ∧
    (s.backedOff a).chain.claiming = s.chain.claiming :=
  ⟨rfl, s.advanceTo_now _, (congrArg ChainState.claiming (s.chain_advanceTo (a + 16000)) :)⟩

theorem claimBackoffEnd_ends {s : State} (hs : s.aon = true) {a : Nat} (waits : s.chain.backoff = some a) :
    ∃ t, exec .claimBackoffEnd s = .next t ∧ t.chain.backoff = none ∧ a + 16000 ≤ t.now ∧
      ((∀ b, s.chain.lastLedger = some b → b < a) → s.chainRole = 2 → t.chain.claiming = true) ∧
      (∀ b, s.chain.lastLedger = some b → a ≤ b → t.chain.claiming = s.chain.claiming) := by
  have run := exec_claimBackoffEnd hs waits
  rw [s.chainRole_backedOff a] at run
  obtain ⟨off, now, claiming⟩ := s.backedOff_off a
  cases quiet : s.ledgerSince a || decide (s.chainRole ≠ 2) with
  | true =>
    rw [quiet, if_pos rfl] at run
    refine ⟨_, run, off, ?_, fun old node => ?_, fun b _ _ => claiming⟩
    · rw [State.commit_now, now]
      exact (le_max_right _ _).trans (le_max_right _ _)
    · have since : s.ledgerSince a = true := by simpa [node] using quiet
      obtain ⟨b, hb, late⟩ := (Option.any_eq_true _ _).1 since
      exact absurd (of_decide_eq_true late) (Nat.not_le.2 (old b hb))
  | false =>
    rw [quiet, if_neg Bool.false_ne_true] at run
    refine ⟨_, run, off, ?_, fun _ _ => rfl, fun b hb late => ?_⟩
    · rw [State.commit_now, (s.backedOff a).claim_claims.2.2.1, now]
      exact (le_max_right _ _).trans (le_max_right _ _)
    · simp [State.ledgerSince, hb, late] at quiet

/-! ## A LEDGER that passes (R248, R249) -/

theorem exec_ledgerPass {s : State} (hs : s.aon = true) (f : Frame) (size : (frameBytes f).length = 32)
    (type : frameType (frameBytes f) = tyLedger) (listens : s.chain.listening = false) (node : s.chainRole ≠ 0)
    (foreign : s.ownFrame (frameBytes f) = false) (hops : frameHops (frameBytes f) < 127) :
    exec (.ledgerPass f) s = .next (s.commit (s.passed (frameBytes f) State.ledgerActs)) := by
  change execLedgerPass f s = _
  rw [execLedgerPass, State.run_on _ hs, if_neg (by rw [listens]; exact Bool.false_ne_true),
    State.receive_passes _ size (by rw [type]; exact List.mem_cons_self) node foreign hops]

/-- A node that has seen a LEDGER of another. -/
def State.ledgerTold (s : State) (b : List Nat) : State :=
  ((s.adoptVersion (le b 6 1 % 16)).ledgerSeen (le b 5 1) (le b 8 4) (le b 28 4)).updChain fun c =>
    { c with claiming := false, maxEpoch := frameEpoch b }

/-- A node that has taken its position and epoch from a LEDGER. -/
def State.ledgerPositioned (s : State) (b : List Nat) : State :=
  (((s.ledgerTold b).wr .chnPosEpoch (frameEpoch b)).takePos (le b 12 1 % 128) (le b 13 1)).note b

/-- A node that has settled with a LEDGER. -/
def State.ledgerSettled (s : State) (b : List Nat) : State :=
  ((((s.ledgerPositioned b).settleHold (testBit (le b 5 1) 1)).wr .chnStatusTotaldiff
    (bit (decide ((s.ledgerPositioned b).rd .chnTotal ≠ le b 24 4)))).ledgerFault b).lend

theorem State.ledgerActs_eq (s : State) (b : List Nat) :
    s.ledgerActs b = if s.chainRole = 2 then s.ledgerSettled b else (s.ledgerTold b).ledgerFault b := rfl

theorem ledgerFault_blind {α : Type} {g : State → α} (fault : FaultBlind g) (s : State) (b : List Nat) : g (s.ledgerFault b) = g s := by
  have first : g (if testBit (le b 5 1) 1 then s.raise (cont 5 2 s.chainUnit .package 5 (frameAddr b)) else s) = g s := by
    split
    · exact raise_blind fault _ _ FaultClass.noConfusion
    · rfl
  unfold State.ledgerFault
  dsimp only
  split
  · exact (raise_blind fault _ _ FaultClass.noConfusion).trans first
  · exact first

/-- What settling with a LEDGER keeps: what grains, the TOTAL mark and contained faults keep. -/
theorem ledgerSettled_keeps {α : Type} {g : State → α} (fault : FaultBlind g) (grains : ∀ v, GrainKeeps fun s => g s = v)
    (diff : ∀ s v, g (State.wr s .chnStatusTotaldiff v) = g s) (s : State) (b : List Nat) : g (s.ledgerSettled b) = g (s.ledgerPositioned b) := by
  refine (grains _).lend ?_
  rw [ledgerFault_blind fault, diff]
  exact (grains _).settleHold _ rfl

theorem State.rd_ledgerSettled (s : State) (b : List Nat) {f : Field} (i j : Nat) (fault : faultField f = false) (grain : grainField f = false)
    (diff : .chnStatusTotaldiff ≠ f) : (s.ledgerSettled b).rd f i j = (s.ledgerPositioned b).rd f i j :=
  ledgerSettled_keeps (g := fun s => s.rd f i j) (blind_rd f i j fault) (fun v => grainKeeps_rd f i j v grain)
    (fun s _ => s.rd_wr_field _ _ _ _ _ diff) s b

theorem State.chain_ledgerSettled {α : Type} (g : ChainState → α) (grains : ∀ v, GrainKeeps fun s => g s.chain = v) (s : State) (b : List Nat) :
    g (s.ledgerSettled b).chain = g (s.ledgerPositioned b).chain :=
  have fault : FaultBlind fun s : State => g s.chain := by apply blind_of <;> intros <;> rfl
  ledgerSettled_keeps fault grains (fun s v => congrArg g (s.chain_wr _ v _ _)) s b

theorem State.chain_ledgerTold (s : State) (b : List Nat) :
    (s.ledgerTold b).chain = { s.chain with lastLedger := some s.now, claiming := false, maxEpoch := frameEpoch b } := by
  rw [State.ledgerTold, State.chain_updChain, State.chain_ledgerSeen, State.chain_adoptVersion, State.now_adoptVersion]

theorem State.round_ledgerTold (s : State) (f : Frame) : (s.ledgerTold (frameBytes f)).rd .chnRound = le (frameBytes f) 8 4 := by
  rw [State.ledgerTold, State.rd_updChain]
  exact State.round_ledgerSeen _ _ _ (le_lt f 8 4)

theorem State.chain_ledgerPositioned {α : Type} (g : ChainState → α) (seen : ∀ (c : ChainState) x, g { c with seen := x } = g c) (s : State)
    (b : List Nat) : g (s.ledgerPositioned b).chain = g (s.ledgerTold b).chain := by
  rw [State.ledgerPositioned, State.note, State.chain_updChain, seen, State.chain_takePos g seen, State.chain_wr]

/-- What acting on a LEDGER leaves of the round shown, its instant and the frames sent. -/
theorem State.ledgerActs_shows (s : State) (f : Frame) :
    (s.ledgerActs (frameBytes f)).rd .chnRound = le (frameBytes f) 8 4 ∧ (s.ledgerActs (frameBytes f)).chain.lastLedger = some s.now ∧
      (s.ledgerActs (frameBytes f)).chain.tx = s.chain.tx := by
  have told := s.chain_ledgerTold (frameBytes f)
  rw [s.ledgerActs_eq]
  split
  · refine ⟨?_, ?_, ?_⟩
    · rw [s.rd_ledgerSettled _ _ _ rfl rfl (by decide), State.ledgerPositioned, State.note, State.rd_updChain,
        State.rd_takePos_other _ _ _ _ _ (by decide) (by decide), State.rd_wr_field _ _ _ _ _ _ (by decide), s.round_ledgerTold]
    · rw [State.chain_ledgerSettled ChainState.lastLedger (fun v => grainKeeps_chain _ v (by intros; rfl) (by intros; rfl) (by intros; rfl)
        (by intros; rfl) (by intros; rfl)), State.chain_ledgerPositioned ChainState.lastLedger (by intros; rfl), told]
    · rw [State.chain_ledgerSettled ChainState.tx (fun v => grainKeeps_chain _ v (by intros; rfl) (by intros; rfl) (by intros; rfl)
        (by intros; rfl) (by intros; rfl)), State.chain_ledgerPositioned ChainState.tx (by intros; rfl), told]
  · refine ⟨?_, ?_, ?_⟩
    · exact (ledgerFault_blind (blind_rd .chnRound 0 0 rfl) _ _).trans (s.round_ledgerTold f)
    · rw [ledgerFault_blind blind_chain, told]
    · rw [ledgerFault_blind blind_chain, told]

/-- Acting on a LEDGER in the ring takes its position and epoch. -/
theorem State.ledgerActs_positions (s : State) (f : Frame) (node : s.chainRole = 2) :
    (s.ledgerActs (frameBytes f)).rd .chnPos = le (frameBytes f) 12 1 % 128 ∧
      (s.ledgerActs (frameBytes f)).rd .chnPosEpoch = frameEpoch (frameBytes f) := by
  rw [s.ledgerActs_eq, if_pos node]
  constructor
  · rw [s.rd_ledgerSettled _ _ _ rfl rfl (by decide), State.ledgerPositioned, State.note, State.rd_updChain]
    exact State.pos_takePos _ _ (Nat.mod_lt _ (by decide))
  · rw [s.rd_ledgerSettled _ _ _ rfl rfl (by decide), State.ledgerPositioned, State.note, State.rd_updChain,
      State.rd_takePos_other _ _ _ _ _ (by decide) (by decide), State.rd_wr_same _ .chnPosEpoch _ _ _ rfl]
    exact Nat.mod_eq_of_lt (le_byte f 4)

theorem ledgerPass_forwards {s : State} (hs : s.aon = true) (f : Frame) (size : (frameBytes f).length = 32)
    (type : frameType (frameBytes f) = tyLedger) (listens : s.chain.listening = false) (node : s.chainRole ≠ 0)
    (foreign : s.ownFrame (frameBytes f) = false) (hops : frameHops (frameBytes f) < 127) :
    (s.repeated (frameBytes f) = true → ∃ t, exec (.ledgerPass f) s = .next t ∧ t.rd .chnRepeat = s.oneUp .chnRepeat ∧
        t.chain.tx.length = s.chain.tx.length + 1 ∧ s.sameRegsBut t [⟨.chnRepeat, 0, 0⟩] ∧ s.sameTabsBut t []) ∧
      (s.repeated (frameBytes f) = false → ∃ t, exec (.ledgerPass f) s = .next t ∧ t.chain.tx.length = s.chain.tx.length + 1 ∧
        t.rd .chnRound = le (frameBytes f) 8 4 ∧ t.chain.lastLedger = some s.now ∧
        (s.chainRole = 2 → t.rd .chnPos = le (frameBytes f) 12 1 % 128 ∧ t.rd .chnPosEpoch = frameEpoch (frameBytes f))) := by
  have run := exec_ledgerPass hs f size type listens node foreign hops
  have sent : (s.forward (frameBytes f)).chain.tx.length = s.chain.tx.length + 1 := by
    rw [s.tx_forward, List.length_append, List.length_singleton]
  constructor
  · intro again
    rw [State.passed_repeat _ again] at run
    obtain ⟨chain, counted, regs, tabs⟩ := repeat_counted s (frameBytes f)
    refine ⟨_, run, (s.rd_commit _ .chnRepeat 0 0 rfl).trans counted, ?_, State.sameRegs_commit regs, State.sameTabs_commit tabs⟩
    rw [State.chain_commit, chain, sent]
  · intro fresh
    rw [State.passed_new _ fresh] at run
    obtain ⟨round, seen, tx⟩ := ((s.forward (frameBytes f)).note (frameBytes f)).ledgerActs_shows f
    refine ⟨_, run, (congrArg List.length tx).trans sent, (s.rd_commit _ .chnRound 0 0 rfl).trans round, seen, fun inRing => ?_⟩
    obtain ⟨pos, epoch⟩ := ((s.forward (frameBytes f)).note (frameBytes f)).ledgerActs_positions f inRing
    exact ⟨(s.rd_commit _ .chnPos 0 0 rfl).trans pos, (s.rd_commit _ .chnPosEpoch 0 0 rfl).trans epoch⟩

/-! ## HOME (R246, R374) -/

/-- Grains are set once HOME has been written after TOTAL. -/
def State.grainsNoted (s : State) : State := { s with start := { s.start with grains := s.start.grains || s.start.totalSet } }

theorem State.homeWrite_first {s : State} (v : Nat) (h : s.chain.home = none) :
    s.homeWrite v = ((s.grainsNoted.wr .chnHome v).updChain fun c => { c with home := some v }).setHolding v := by
  simp only [State.homeWrite, h]
  rfl

theorem State.homeWrite_again {s : State} (v : Nat) (h : s.chain.home.isSome = true) : s.homeWrite v = s.grainsNoted.wr .chnHome v := by
  obtain ⟨x, hx⟩ := Option.isSome_iff_exists.1 h
  simp only [State.homeWrite, hx]
  rfl

theorem State.start_wr (s : State) (f : Field) (v i j : Nat) : (s.wr f v i j).start = s.start :=
  State.put_other State.start (by intros; rfl) (by intros; rfl) s _ v

theorem State.home_wr (s : State) (v : BitVec 16) : (s.wr .chnHome v.toNat).rd .chnHome = v.toNat := by
  rw [State.rd_wr_same _ .chnHome _ _ _ rfl]
  exact Nat.mod_eq_of_lt v.isLt

theorem homeWrite_sets {s : State} (hs : s.aon = true) (p : Port) (v : BitVec 16) (tray : p.isHost = false) :
    ∃ t, exec (.homeWrite p v) s = .next t ∧ t.rd .chnHome = v.toNat ∧
      t.start.grains = (s.start.grains || s.start.totalSet) ∧
      (s.chain.home = none → t.chain.home = some v.toNat ∧ t.holding = v.toNat) ∧
      (s.chain.home.isSome = true → t.chain.home = s.chain.home ∧ t.holding = s.holding) := by
  have run : exec (.homeWrite p v) s = .next (s.commit (s.homeWrite v.toNat)) := by
    change execHomeWrite p v s = _
    rw [execHomeWrite, State.run_on _ hs, if_neg (by rw [tray]; exact Bool.false_ne_true)]
  have holding (n : State) : (s.commit n).holding = n.holding := s.rd_commit n .chnHoldHolding 0 0 rfl
  cases written : s.chain.home with
  | none =>
    rw [State.homeWrite_first _ written] at run
    refine ⟨_, run, ?_, ?_, fun _ => ⟨?_, ?_⟩, nofun⟩
    · rw [State.rd_commit _ _ _ _ _ rfl, State.rd_setHolding _ _ _ _ (by decide) (by decide), State.rd_updChain, State.home_wr]
    · change (State.wr _ _ _).start.grains = _
      rw [State.start_wr, State.start_wr]
      change (s.grainsNoted.wr _ _).start.grains = _
      rw [State.start_wr]
      rfl
    · rw [State.chain_commit, State.chain_setHolding]
      rfl
    · rw [holding, State.holding_setHolding]
      have small := v.isLt
      omega
  | some x =>
    rw [State.homeWrite_again _ (by rw [written]; rfl)] at run
    refine ⟨_, run, ?_, ?_, nofun, fun _ => ⟨?_, ?_⟩⟩
    · rw [State.rd_commit _ _ _ _ _ rfl, State.home_wr]
    · change (s.grainsNoted.wr _ _).start.grains = _
      rw [State.start_wr]
      rfl
    · rw [State.chain_commit, State.chain_wr]
      exact written
    · rw [holding]
      exact State.rd_wr_field _ _ _ _ _ _ (by decide)

/-- Settles O44: each event of claiming, of the LEDGER and of HOME. -/
theorem claimsAndLedgers : Obligations.ClaimsAndLedgers := by
  unfold Obligations.ClaimsAndLedgers
  intro s hs
  refine ⟨fun node orig free => claimSend_claims hs node orig free, fun f size type node claims => ⟨?_, ?_, ?_⟩,
    fun a waits => claimBackoffEnd_ends hs waits, fun orig home node => ledgerSend_originates hs orig home node,
    fun f size type node own out => ledgerReturn_checks hs f size type node own out, fun a b out sentAt => ledgerLost_sendsNext hs out sentAt,
    fun f size type listens node foreign hops => ledgerPass_forwards hs f size type listens node foreign hops,
    fun p v tray => homeWrite_sets hs p v tray⟩
  · exact fun own => ownClaim_originates hs f size type node claims own
  · exact fun lower hops => lowerClaim_passes hs f size type node claims lower hops
  · exact fun higher hops => higherClaim_stripped hs f size type node claims higher hops

end Sys2Proof.Machine

/-!
Settles O45: OFFERs taken, returned and timed out, BEACONs and VERSIONs originated when due, and those of other nodes kept.
-/

namespace Sys2Proof.Machine

/-- A count raised by an amount. -/
theorem State.rd_count_amount (s : State) {f : Field} (n : Nat) {i j : Nat} (h : (⟨f, i, j⟩ : FieldRef).exists = true) :
    (s.count f n i j).rd f i j = min (s.rd f i j + n) (2 ^ (fieldDef f).width - 1) := by
  rw [State.count, State.rd_wr_same _ _ _ _ _ h]
  exact Nat.mod_eq_of_lt (lt_of_le_of_lt (min_le_right _ _) (Nat.sub_lt (Nat.two_pow_pos _) Nat.one_pos))

theorem State.holding_commit (s n : State) : (s.commit n).holding = n.holding := s.rd_commit n .chnHoldHolding 0 0 rfl

theorem State.holding_grainTrace (s : State) (kind peer part amount : Nat) : (s.grainTrace kind peer part amount).holding = s.holding :=
  s.rd_grainTrace _ _ _ _ _ _ (by decide) (by decide)

theorem State.holding_count (s : State) {f : Field} (n i j : Nat) (h : f ≠ .chnHoldHolding) : (s.count f n i j).holding = s.holding :=
  s.rd_wr_field _ _ _ _ _ h

/-! ## An OFFER received (R252, R253) -/

/-- An OFFER that this node takes. -/
def State.offerTaken (s : State) (b : List Nat) : State :=
  (((s.addSeam b).setHolding ((s.addSeam b).holding + le b 12 4)).count .chnGrin (le b 12 4)).grainTrace 1 (frameOrigin b) (le b 6 1 % 16) (le b 12 4)

theorem State.offerActs_taken (s : State) (b : List Nat) : s.offerActs true b = s.offerTaken b := rfl

theorem State.offerActs_left (s : State) (b : List Nat) : s.offerActs false b = s.addSeam b := rfl

theorem State.addSeam_cases (s : State) (b : List Nat) :
    s.addSeam b = s ∨ s.addSeam b = s.updChain fun c => { c with seam := c.seam + le b 16 4 } := by
  unfold State.addSeam
  split
  · exact Or.inr rfl
  · exact Or.inl rfl

theorem State.rd_addSeam (s : State) (b : List Nat) (f : Field) (i j : Nat) : (s.addSeam b).rd f i j = s.rd f i j := by
  rcases s.addSeam_cases b with e | e <;> rw [e]
  rfl

theorem State.tx_addSeam (s : State) (b : List Nat) : (s.addSeam b).chain.tx = s.chain.tx := by
  rcases s.addSeam_cases b with e | e <;> rw [e]
  rfl

theorem State.sameRegs_addSeam {s n : State} (h : s.sameRegsBut n []) (b : List Nat) : s.sameRegsBut (n.addSeam b) [] := by
  rcases n.addSeam_cases b with e | e <;> rw [e] <;> exact h

theorem State.sameTabs_addSeam {s n : State} (h : s.sameTabsBut n []) (b : List Nat) : s.sameTabsBut (n.addSeam b) [] := by
  rcases n.addSeam_cases b with e | e <;> rw [e]
  · exact h
  · exact State.sameTabs_updChain _ h

/-- What taking an OFFER does to the holding, the count of grains taken and the frames sent. -/
theorem State.offerTaken_holds (s : State) (b : List Nat) :
    (s.offerTaken b).holding = min 0xFFFF (s.holding + le b 12 4) ∧
      (s.offerTaken b).rd .chnGrin = min (s.rd .chnGrin + le b 12 4) (2 ^ (fieldDef .chnGrin).width - 1) ∧
      (s.offerTaken b).chain.tx = s.chain.tx := by
  have holding : (s.addSeam b).holding = s.holding := s.rd_addSeam b _ _ _
  refine ⟨?_, ?_, ?_⟩
  · rw [State.offerTaken, State.holding_grainTrace, State.holding_count _ _ _ _ (by decide), State.holding_setHolding, holding]
  · rw [State.offerTaken, State.rd_grainTrace _ _ _ _ _ _ _ (by decide) (by decide), State.rd_count_amount _ (f := .chnGrin) _ rfl,
      State.rd_setHolding _ _ _ _ (by decide) (by decide), s.rd_addSeam]
  · rw [State.offerTaken, State.chain_grainTrace, State.chain_count, State.chain_setHolding, s.tx_addSeam]

theorem exec_offerReceived {s : State} (hs : s.aon = true) (f : Frame) (size : (frameBytes f).length = 32)
    (type : frameType (frameBytes f) = tyOffer) (node : s.chainRole ≠ 0) (foreign : s.ownFrame (frameBytes f) = false)
    (hops : frameHops (frameBytes f) < 127) (fresh : s.repeated (frameBytes f) = false) :
    exec (.offerReceived f) s =
      .next (s.commit (((s.forward (frameBytes f)).note (frameBytes f)).offerActs (s.takes (frameBytes f)) (frameBytes f))) := by
  change execOfferReceived f s = _
  rw [execOfferReceived, State.run_on _ hs, State.receive_passes _ size (by rw [type]; exact List.mem_cons_self) node foreign hops,
    State.passed_new _ fresh, type, decide_eq_true rfl, Bool.true_and]

theorem State.tx_length_forward (s : State) (b : List Nat) : (s.forward b).chain.tx.length = s.chain.tx.length + 1 := by
  rw [s.tx_forward, List.length_append, List.length_singleton]

theorem offerReceived_taken {s : State} (hs : s.aon = true) (f : Frame) (size : (frameBytes f).length = 32)
    (type : frameType (frameBytes f) = tyOffer) (node : s.chainRole ≠ 0) (foreign : s.ownFrame (frameBytes f) = false)
    (hops : frameHops (frameBytes f) < 127) (fresh : s.repeated (frameBytes f) = false) :
    ∃ t, exec (.offerReceived f) s = .next t ∧ t.chain.tx.length = s.chain.tx.length + 1 ∧
      (s.takes (frameBytes f) = true → t.holding = min 0xFFFF (s.holding + le (frameBytes f) 12 4) ∧
        t.rd .chnGrin = min (s.rd .chnGrin + le (frameBytes f) 12 4) (2 ^ (fieldDef .chnGrin).width - 1)) ∧
      (s.takes (frameBytes f) = false → t.holding = s.holding ∧ s.sameRegsBut t [] ∧ s.sameTabsBut t []) := by
  have run := exec_offerReceived hs f size type node foreign hops fresh
  cases takes : s.takes (frameBytes f) with
  | true =>
    rw [takes, State.offerActs_taken] at run
    obtain ⟨holding, grin, tx⟩ := ((s.forward (frameBytes f)).note (frameBytes f)).offerTaken_holds (frameBytes f)
    refine ⟨_, run, ?_, fun _ => ⟨(s.holding_commit _).trans holding, (s.rd_commit _ .chnGrin 0 0 rfl).trans grin⟩, nofun⟩
    exact (congrArg List.length tx).trans (s.tx_length_forward _)
  | false =>
    rw [takes, State.offerActs_left] at run
    refine ⟨_, run, ?_, nofun, fun _ => ⟨?_, ?_, ?_⟩⟩
    · exact (congrArg List.length (State.tx_addSeam _ _)).trans (s.tx_length_forward _)
    · exact (s.holding_commit _).trans (State.rd_addSeam ((s.forward _).note _) _ _ _ _)
    · exact State.sameRegs_commit (State.sameRegs_addSeam (State.sameRegs_updChain _ (s.sameRegs_forward _ _)) _)
    · exact State.sameTabs_commit (State.sameTabs_addSeam (s.sameTabs_note _) _)

/-! ## BEACONs and VERSIONs of other nodes (R254, R255, R261) -/

/-- The record of one partition of a BEACON. -/
def State.heardRec (s : State) (b : List Nat) (k : Nat) : BeaconRec where
  pos := frameOrigin b
  part := le b (8 + 8 * k + 4) 1
  tag := le b (8 + 8 * k) 2
  slack := le b (8 + 8 * k + 2) 2
  takeOk := testBit (le b 6 1) 0
  asksBack := testBit (le b (8 + 8 * k + 5) 1) 0
  time := s.now

/-- That record kept in place of the one before. -/
def State.recKept (s : State) (r : BeaconRec) : State :=
  s.updChain fun c => { c with recs := c.recs.filter (fun x => !(x.pos = r.pos && x.part = r.part)) ++ [r] }

theorem State.keepBeacon_eq (s : State) (b : List Nat) :
    s.keepBeacon b = s.each (upto (min 3 (le b 5 1))) fun s k => s.recKept (s.heardRec b k) := rfl

/-- A node has a record of a partition at a position, of a given instant, which is its present one. -/
def State.knows (s : State) (pos part time : Nat) : Prop :=
  s.now = time ∧ ∃ r ∈ s.chain.recs, r.pos = pos ∧ r.part = part ∧ r.time = time

theorem State.knows_recKept {s : State} (r : BeaconRec) {time : Nat} (now : s.now = time) (hr : r.time = time) :
    (s.recKept r).knows r.pos r.part time := ⟨now, r, List.mem_append_right _ List.mem_cons_self, rfl, rfl, hr⟩

theorem State.recKept_keeps {s : State} {pos part time : Nat} (r : BeaconRec) (hr : r.time = time) (h : s.knows pos part time) :
    (s.recKept r).knows pos part time := by
  obtain ⟨now, x, hx, rfl, rfl, hxt⟩ := h
  by_cases same : x.pos = r.pos ∧ x.part = r.part
  · rw [same.1, same.2]
    exact State.knows_recKept r now hr
  · exact ⟨now, x, List.mem_append_left _ (List.mem_filter.2 ⟨hx, by simpa [← not_and_or] using same⟩), rfl, rfl, hxt⟩

theorem State.knows_keepBeacon (s : State) (b : List Nat) {k : Nat} (h : k < min 3 (le b 5 1)) :
    (s.keepBeacon b).knows (frameOrigin b) (le b (8 + 8 * k + 4) 1) s.now := by
  rw [s.keepBeacon_eq]
  exact State.each_sets_under (I := fun n => n.now = s.now) (P := fun n => n.knows (frameOrigin b) (le b (8 + 8 * k + 4) 1) s.now)
    (f := fun s k => s.recKept (s.heardRec b k)) (List.mem_range.2 h) (fun _ _ now => now)
    (fun n now => State.knows_recKept (n.heardRec b k) now now) (fun n y known => State.recKept_keeps (n.heardRec b y) known.1 known) rfl

/-- A BEACON kept changes the records alone. -/
theorem State.keepBeacon_keeps {P : State → Prop}
    (keep : ∀ s (f : ChainState → List BeaconRec), P s → P (State.updChain s fun c => { c with recs := f c })) {s : State} (h : P s)
    (b : List Nat) : P (s.keepBeacon b) := by
  rw [s.keepBeacon_eq]
  exact State.each_keeps (fun n k hn => keep n (fun c => c.recs.filter (fun x => !(x.pos = (n.heardRec b k).pos && x.part = (n.heardRec b k).part)) ++
    [n.heardRec b k]) hn) _ h

theorem exec_chainBeaconReceived {s : State} (hs : s.aon = true) (f : Frame) (size : (frameBytes f).length = 32)
    (type : frameType (frameBytes f) = tyBeacon) (node : s.chainRole ≠ 0) (foreign : s.ownFrame (frameBytes f) = false)
    (hops : frameHops (frameBytes f) < 127) (fresh : s.repeated (frameBytes f) = false) :
    exec (.chainBeaconReceived f) s = .next (s.commit (((s.forward (frameBytes f)).note (frameBytes f)).keepBeacon (frameBytes f))) := by
  change execChainBeaconReceived f s = _
  rw [execChainBeaconReceived, State.run_on _ hs, State.receive_passes _ size (by rw [type]; exact List.mem_cons_self) node foreign hops,
    State.passed_new _ fresh]

theorem chainBeaconReceived_kept {s : State} (hs : s.aon = true) (f : Frame) (size : (frameBytes f).length = 32)
    (type : frameType (frameBytes f) = tyBeacon) (node : s.chainRole ≠ 0) (foreign : s.ownFrame (frameBytes f) = false)
    (hops : frameHops (frameBytes f) < 127) (fresh : s.repeated (frameBytes f) = false) :
    ∃ t, exec (.chainBeaconReceived f) s = .next t ∧
      t.chain.tx.length = s.chain.tx.length + 1 ∧ s.sameRegsBut t [] ∧ s.sameTabsBut t [] ∧
      ∀ k, k < min 3 (le (frameBytes f) 5 1) → ∃ r ∈ t.chain.recs, r.pos = frameOrigin (frameBytes f) ∧
        r.part = le (frameBytes f) (8 + 8 * k + 4) 1 ∧ r.time = s.now := by
  have tx := State.keepBeacon_keeps (P := fun n => n.chain.tx.length = s.chain.tx.length + 1) (fun _ _ h => h)
    (s := (s.forward (frameBytes f)).note (frameBytes f)) (s.tx_length_forward _) (frameBytes f)
  have regs := State.keepBeacon_keeps (P := fun n => s.sameRegsBut n []) (fun _ _ h => h)
    (s := (s.forward (frameBytes f)).note (frameBytes f)) (s.sameRegs_forward (frameBytes f) []) (frameBytes f)
  have tabs := State.keepBeacon_keeps (P := fun n => s.sameTabsBut n []) (fun _ _ h => State.sameTabs_updChain _ h)
    (s.sameTabs_note (frameBytes f)) (frameBytes f)
  exact ⟨_, exec_chainBeaconReceived hs f size type node foreign hops fresh, tx, State.sameRegs_commit regs, State.sameTabs_commit tabs,
    fun k hk => (State.knows_keepBeacon ((s.forward (frameBytes f)).note (frameBytes f)) _ hk).2⟩

/-- The record of a VERSION. -/
def State.versionRec (s : State) (b : List Nat) : VersionRec where
  node := le b 8 8
  vmin := le b 5 1 % 16
  vmax := le b 6 1 % 16
  time := s.now

/-- A VERSION kept by the originator. -/
def State.versionKept (s : State) (r : VersionRec) : State :=
  s.updChain fun c => { c with versions := c.versions.filter (fun x => x.node ≠ r.node) ++ [r] }

theorem exec_versionReceived {s : State} (hs : s.aon = true) (f : Frame) (size : (frameBytes f).length = 32)
    (type : frameType (frameBytes f) = tyVersion) (node : s.chainRole ≠ 0) (foreign : s.ownFrame (frameBytes f) = false)
    (hops : frameHops (frameBytes f) < 127) (fresh : s.repeated (frameBytes f) = false) :
    exec (.versionReceived f) s = .next (s.commit
      (if s.flag .chnPosOrig then ((s.forward (frameBytes f)).note (frameBytes f)).versionKept (s.versionRec (frameBytes f))
      else (s.forward (frameBytes f)).note (frameBytes f))) := by
  change execVersionReceived f s = _
  rw [execVersionReceived, State.run_on _ hs, State.receive_passes _ size (by rw [type]; exact List.mem_cons_self) node foreign hops,
    State.passed_new _ fresh]
  rfl

theorem versionReceived_kept {s : State} (hs : s.aon = true) (f : Frame) (size : (frameBytes f).length = 32)
    (type : frameType (frameBytes f) = tyVersion) (node : s.chainRole ≠ 0) (foreign : s.ownFrame (frameBytes f) = false)
    (hops : frameHops (frameBytes f) < 127) (fresh : s.repeated (frameBytes f) = false) :
    ∃ t, exec (.versionReceived f) s = .next t ∧
      t.chain.tx.length = s.chain.tx.length + 1 ∧ s.sameRegsBut t [] ∧ s.sameTabsBut t [] ∧
      (s.flag .chnPosOrig = true → ∃ r ∈ t.chain.versions, r.node = le (frameBytes f) 8 8 ∧ r.time = s.now) ∧
      (s.flag .chnPosOrig = false → t.chain.versions = s.chain.versions) := by
  have run := exec_versionReceived hs f size type node foreign hops fresh
  cases orig : s.flag .chnPosOrig with
  | true =>
    rw [orig, if_pos rfl] at run
    exact ⟨_, run, s.tx_length_forward _, State.sameRegs_commit (State.sameRegs_updChain _ (State.sameRegs_updChain _ (s.sameRegs_forward _ _))),
      State.sameTabs_commit (State.sameTabs_updChain _ (s.sameTabs_note _)), fun _ => ⟨_, List.mem_append_right _ List.mem_cons_self, rfl, rfl⟩, nofun⟩
  | false =>
    rw [orig, if_neg Bool.false_ne_true] at run
    exact ⟨_, run, s.tx_length_forward _, State.sameRegs_commit (State.sameRegs_updChain _ (s.sameRegs_forward _ _)),
      State.sameTabs_commit (s.sameTabs_note _), nofun, fun _ => rfl⟩

/-! ## An OFFER that returns or times out (R253) -/

/-- An OFFER that is no longer outstanding. -/
def State.offerEnded (s : State) (o : OfferOut) : State :=
  s.updChain fun c => { c with offers := c.offers.filter fun x => x.alive ≠ o.alive }

theorem State.offerEnded_gone (s : State) (o : OfferOut) : o ∉ (s.offerEnded o).chain.offers := by
  intro h
  have differ := (List.mem_filter.1 h).2
  simp at differ

/-- What becomes of the grains of an OFFER that is back. -/
def State.offerBack (s : State) (o : OfferOut) (b : List Nat) : State :=
  if frameType b = tyTake then ((s.offerEnded o).count .chnGrout o.amount).grainTrace 2 o.taker o.part o.amount
  else if frameEpoch b = s.rd .chnPosEpoch then
    ((s.offerEnded o).setHolding ((s.offerEnded o).holding + o.amount)).grainTrace 3 o.taker o.part o.amount
  else s.offerEnded o

theorem exec_offerReturn {s : State} (hs : s.aon = true) (f : Frame) {o : OfferOut} (size : (frameBytes f).length = 32)
    (type : frameType (frameBytes f) = tyTake ∨ frameType (frameBytes f) = tyOffer) (node : s.chainRole ≠ 0)
    (own : s.ownFrame (frameBytes f) = true) (out : s.chain.offers.find? (fun x => x.alive = frameAlive (frameBytes f)) = some o) :
    exec (.offerReturn f) s = .next (s.commit (s.offerBack o (frameBytes f))) := by
  have known : (frameType (frameBytes f) = tyOffer || frameType (frameBytes f) = tyTake) = true := by
    rcases type with h | h <;> simp [h]
  change execOfferReturn f s = _
  rw [execOfferReturn, State.run_on _ hs]
  simp only [frameOk, size, known, node, own, out, ne_eq, not_false_eq_true, decide_true, Bool.and_self, if_true]
  rfl

theorem offerReturn_lent {s : State} (hs : s.aon = true) (f : Frame) {o : OfferOut} (size : (frameBytes f).length = 32) (node : s.chainRole ≠ 0)
    (own : s.ownFrame (frameBytes f) = true) (out : s.chain.offers.find? (fun x => x.alive = frameAlive (frameBytes f)) = some o)
    (type : frameType (frameBytes f) = tyTake) :
    ∃ t, exec (.offerReturn f) s = .next t ∧ o ∉ t.chain.offers ∧ t.holding = s.holding ∧
      t.rd .chnGrout = min (s.rd .chnGrout + o.amount) (2 ^ (fieldDef .chnGrout).width - 1) := by
  have run := exec_offerReturn hs f size (Or.inl type) node own out
  rw [State.offerBack, if_pos type] at run
  refine ⟨_, run, ?_, ?_, ?_⟩
  · rw [State.chain_commit, State.chain_grainTrace, State.chain_count]
    exact s.offerEnded_gone o
  · rw [State.holding_commit, State.holding_grainTrace, State.holding_count _ _ _ _ (by decide)]
    rfl
  · rw [State.rd_commit _ _ _ _ _ rfl, State.rd_grainTrace _ _ _ _ _ _ _ (by decide) (by decide), State.rd_count_amount _ (f := .chnGrout) _ rfl]
    rfl

theorem offerReturn_givenBack {s : State} (hs : s.aon = true) (f : Frame) {o : OfferOut} (size : (frameBytes f).length = 32)
    (node : s.chainRole ≠ 0) (own : s.ownFrame (frameBytes f) = true)
    (out : s.chain.offers.find? (fun x => x.alive = frameAlive (frameBytes f)) = some o)
    (type : frameType (frameBytes f) = tyOffer) (epoch : frameEpoch (frameBytes f) = s.rd .chnPosEpoch) :
    ∃ t, exec (.offerReturn f) s = .next t ∧ o ∉ t.chain.offers ∧ t.holding = min 0xFFFF (s.holding + o.amount) ∧
      t.rd .chnGrout = s.rd .chnGrout := by
  have run := exec_offerReturn hs f size (Or.inr type) node own out
  rw [State.offerBack, if_neg (by rw [type]; decide), if_pos epoch] at run
  refine ⟨_, run, ?_, ?_, ?_⟩
  · rw [State.chain_commit, State.chain_grainTrace, State.chain_setHolding]
    exact s.offerEnded_gone o
  · rw [State.holding_commit, State.holding_grainTrace, State.holding_setHolding]
    rfl
  · rw [State.rd_commit _ _ _ _ _ rfl, State.rd_grainTrace _ _ _ _ _ _ _ (by decide) (by decide), State.rd_setHolding _ _ _ _ (by decide) (by decide)]
    rfl

/-- An OFFER given up. -/
def State.offerLost (s : State) (k : Nat) (o : OfferOut) : State :=
  ((s.advanceTo (o.sentAt + s.outNs)).updChain fun c => { c with offers := c.offers.eraseIdx k }).count .chnGrout o.amount

theorem exec_offerTimeout {s : State} (hs : s.aon = true) {k : Nat} {o : OfferOut} (out : s.chain.offers[k]? = some o) :
    exec (.offerTimeout k) s = .next (s.commit (s.offerLost k o)) := by
  change execOfferTimeout k s = _
  rw [execOfferTimeout, State.run_on _ hs]
  simp only [out]
  rfl

theorem offerTimeout_givesUp {s : State} (hs : s.aon = true) {k : Nat} {o : OfferOut} (out : s.chain.offers[k]? = some o) :
    ∃ t, exec (.offerTimeout k) s = .next t ∧ t.chain.offers = s.chain.offers.eraseIdx k ∧
      o.sentAt + s.outNs ≤ t.now ∧ t.holding = s.holding ∧
      t.rd .chnGrout = min (s.rd .chnGrout + o.amount) (2 ^ (fieldDef .chnGrout).width - 1) ∧ s.sameTabsBut t [] := by
  refine ⟨_, exec_offerTimeout hs out, ?_, ?_, ?_, ?_, ?_⟩
  · rw [State.chain_commit, State.offerLost, State.chain_count, State.chain_updChain, s.chain_advanceTo]
  · have now : (s.offerLost k o).now = (s.advanceTo (o.sentAt + s.outNs)).now := State.put_now _ _ _
    rw [State.commit_now, now, State.advanceTo_now]
    exact (le_max_right _ _).trans (le_max_right _ _)
  · rw [State.holding_commit, State.offerLost, State.holding_count _ _ _ _ (by decide)]
    exact s.rd_advanceTo _ _ _ (by decide)
  · rw [State.rd_commit _ _ _ _ _ rfl, State.offerLost, State.rd_count_amount _ (f := .chnGrout) _ rfl, State.rd_updChain, s.rd_advanceTo _ _ _ (by decide)]
  · exact State.sameTabs_commit (State.sameTabs_count (State.sameTabs_updChain _ (s.sameTabs_advanceTo _)) _ _ _ _)

/-! ## Own BEACONs and VERSIONs (R254, R261) -/

theorem State.beaconParts_nonempty {s : State} (h : s.partsInForce ≠ []) : s.beaconParts.isEmpty = false := by
  obtain ⟨p, hp⟩ := List.exists_mem_of_ne_nil _ h
  have listed : p ∈ (s.partsInForce.filter fun p => s.chain.rotate ≤ p) ++ s.partsInForce.filter fun p => p < s.chain.rotate := by
    by_cases first : s.chain.rotate ≤ p
    · exact List.mem_append_left _ (List.mem_filter.2 ⟨hp, decide_eq_true first⟩)
    · exact List.mem_append_right _ (List.mem_filter.2 ⟨hp, decide_eq_true (Nat.lt_of_not_le first)⟩)
  have some_taken : (if s.rd .chnVerRver < 2 then 1 else 3) ≠ 0 := by split <;> decide
  rw [List.isEmpty_eq_false_iff, State.beaconParts, Ne, List.take_eq_nil_iff, not_or]
  exact ⟨some_taken, List.ne_nil_of_mem listed⟩

/-- The fields of a BEACON. -/
def State.beaconFields (s : State) (ps : List Nat) : List (Nat × Nat × Nat) :=
  (5, 1, ps.length) :: (6, 1, bit s.takeOk + 2 * bit (decide (s.svc = svcHeld))) :: (ps.zipIdx.flatMap fun x => s.beaconRec x.2 x.1)

theorem State.beaconFields_past (s : State) (ps : List Nat) : ∀ e ∈ s.beaconFields ps, 0 < e.1 := by
  have records (k p : Nat) : ∀ e ∈ s.beaconRec k p, 0 < e.1 := by simp [State.beaconRec]
  intro e he
  simp only [State.beaconFields, List.mem_cons, List.mem_flatMap] at he
  rcases he with rfl | rfl | ⟨x, -, hx⟩
  · exact Nat.succ_pos 4
  · exact Nat.succ_pos 5
  · exact records _ _ e hx

/-- A BEACON originated. -/
def State.beaconed (s : State) (ps : List Nat) : State :=
  (s.originate tyBeacon (s.beaconFields ps)).updChain fun c => { c with beaconAt := some s.now, rotate := ((ps.getLast?).getD 0 + 1) % 16 }

/-- The time between BEACONs. -/
def State.beaconIvl (s : State) : Nat := 10000 * max 1 (s.rd .chnCfgBcnivl)

theorem exec_chainBeaconSend {s : State} (hs : s.aon = true) (node : s.chainRole = 2) (parts : s.partsInForce ≠ []) :
    exec .chainBeaconSend s = .next (s.commit ((s.dueAfter s.chain.beaconAt s.beaconIvl).beaconed s.beaconParts)) := by
  change execChainBeaconSend s = _
  rw [execChainBeaconSend, State.run_on _ hs]
  simp only [node, State.beaconParts_nonempty parts, ne_eq, not_true_eq_false, decide_false, Bool.or_self, Bool.false_eq_true, if_false]
  rfl

theorem State.outq_dueAfter (s : State) (last : Option Nat) (ivl : Nat) : (s.dueAfter last ivl).chain.outq = s.chain.outq :=
  congrArg ChainState.outq (s.chain_dueAfter last ivl)

theorem chainBeaconSend_due {s : State} (hs : s.aon = true) (node : s.chainRole = 2) (parts : s.partsInForce ≠ []) :
    ∃ t f, exec .chainBeaconSend s = .next t ∧ t.chain.outq = s.chain.outq ++ [f] ∧
      frameType f.bytes = tyBeacon ∧ t.chain.beaconAt = some t.now ∧ s.sameTabsBut t [] ∧
      ∀ a, s.chain.beaconAt = some a → a + 10000 * max 1 (s.rd .chnCfgBcnivl) ≤ t.now := by
  have run := exec_chainBeaconSend hs node parts
  obtain ⟨later, due⟩ := s.now_dueAfter s.chain.beaconAt s.beaconIvl
  have outq := s.outq_dueAfter s.chain.beaconAt s.beaconIvl
  have tabs := s.sameTabs_dueAfter s.chain.beaconAt s.beaconIvl
  generalize s.dueAfter s.chain.beaconAt s.beaconIvl = n at run later due outq tabs
  have ends : (s.commit (n.beaconed s.beaconParts)).now = n.now := max_eq_right later
  refine ⟨_, n.originated tyBeacon (n.beaconFields s.beaconParts), run, ?_, State.type_originated _ (by decide) _ (n.beaconFields_past _), ?_, ?_,
    fun a ha => ?_⟩
  · rw [← outq]
    rfl
  · rw [ends]
    rfl
  · exact State.sameTabs_commit (State.sameTabs_updChain _ (State.sameTabs_originate tabs _ _))
  · rw [ends]
    exact due a ha

/-- The fields of a VERSION. -/
def State.versionFields (s : State) : List (Nat × Nat × Nat) := [(5, 1, s.rd .chnVerVmin), (6, 1, s.rd .chnVerVmax), (8, 8, s.rd .chnNodeidId)]

/-- A VERSION originated. -/
def State.versioned (s : State) : State := (s.originate tyVersion s.versionFields).updChain fun c => { c with versionAt := some s.now }

theorem exec_versionSend {s : State} (hs : s.aon = true) (node : s.chainRole = 2) :
    exec .versionSend s = .next (s.commit (s.dueAfter s.chain.versionAt 1000000).versioned) := by
  change execVersionSend s = _
  rw [execVersionSend, State.run_on _ hs]
  simp only [node, ne_eq, not_true_eq_false, if_false]
  rfl

theorem versionSend_due {s : State} (hs : s.aon = true) (node : s.chainRole = 2) :
    ∃ t f, exec .versionSend s = .next t ∧ t.chain.outq = s.chain.outq ++ [f] ∧ frameType f.bytes = tyVersion ∧
      t.chain.versionAt = some t.now ∧ s.sameTabsBut t [] ∧ ∀ a, s.chain.versionAt = some a → a + 1000000 ≤ t.now := by
  have run := exec_versionSend hs node
  obtain ⟨later, due⟩ := s.now_dueAfter s.chain.versionAt 1000000
  have outq := s.outq_dueAfter s.chain.versionAt 1000000
  have tabs := s.sameTabs_dueAfter s.chain.versionAt 1000000
  generalize s.dueAfter s.chain.versionAt 1000000 = n at run later due outq tabs
  have ends : (s.commit n.versioned).now = n.now := max_eq_right later
  refine ⟨_, n.originated tyVersion n.versionFields, run, ?_, State.type_originated _ (by decide) _ (by simp [State.versionFields]), ?_, ?_,
    fun a ha => ?_⟩
  · rw [← outq]
    rfl
  · rw [ends]
    rfl
  · exact State.sameTabs_commit (State.sameTabs_updChain _ (State.sameTabs_originate tabs _ _))
  · rw [ends]
    exact due a ha

/-- Settles O45: each frame received, returned, given up or originated. -/
theorem offersBeaconsAndVersions : Obligations.OffersBeaconsAndVersions := by
  unfold Obligations.OffersBeaconsAndVersions
  intro s hs
  refine ⟨fun f size node foreign hops fresh => ⟨fun type => ?_, fun type => ?_, fun type => ?_⟩,
    fun f o size node own out => ⟨fun type => ?_, fun type epoch => ?_⟩, fun k o out => offerTimeout_givesUp hs out,
    fun node => ⟨fun parts => chainBeaconSend_due hs node parts, versionSend_due hs node⟩⟩
  · exact offerReceived_taken hs f size type node foreign hops fresh
  · exact chainBeaconReceived_kept hs f size type node foreign hops fresh
  · exact versionReceived_kept hs f size type node foreign hops fresh
  · exact offerReturn_lent hs f size node own out type
  · exact offerReturn_givenBack hs f size node own out type epoch

end Sys2Proof.Machine

/-!
What a completion writes and leaves (R306): its ring set's entry and counts, and nothing else.
-/

namespace Sys2Proof.Machine

/-! ## A completion's frame -/

section
variable {α : Type} {g : State → α} (rings : ∀ s x, g { s with rings := x } = g s) (msix : ∀ s x, g { s with msix := x } = g s)
  (msixOut : ∀ s x, g { s with msixOut := x } = g s) (dma : ∀ s x, g { s with dma := x } = g s)

include msix msixOut in
theorem State.sendVector_other (s : State) (p : Port) (v : Nat) : g (s.sendVector p v) = g s := by
  unfold State.sendVector
  split
  · exact msix s _
  · exact msixOut s _

include rings msix msixOut in
theorem State.cplWritten_other (s : State) (n : Nat) (urgent : Bool) : g (s.cplWritten n urgent) = g s := by
  unfold State.cplWritten
  split
  · exact (rings _ _).trans (State.sendVector_other msix msixOut s _ _)
  · exact rings _ _

include rings dma in
theorem State.putCpl_other (n : Nat) (pi : ∀ s v, g (State.wr s .hifRsCplpi v 0 n) = g s) (s : State) (first : Nat) (l : List Word) :
    g (s.putCpl n first l) = g s := by
  unfold State.putCpl
  dsimp only
  split
  · exact (rings _ _).trans ((pi _ _).trans (dma s _))
  · exact (pi _ _).trans (dma s _)

include rings msix msixOut dma in
/-- A completion moves its ring set's INFLIGHT and CPLPI, its ring set, its vector and the host's memory. -/
theorem State.complete_other (n : Nat) (inflight : ∀ s v, g (State.wr s .hifRsStatInflight v 0 n) = g s)
    (pi : ∀ s v, g (State.wr s .hifRsCplpi v 0 n) = g s) (s : State) (cid status result : Nat) : g (s.complete n cid status result) = g s := by
  unfold State.complete State.postCpl
  dsimp only
  split
  · exact (State.cplWritten_other rings msix msixOut _ _ _).trans
      ((State.putCpl_other rings dma n pi _ _ _).trans ((inflight _ _).trans (rings _ _)))
  · exact (inflight _ _).trans (rings _ _)

end

theorem State.rd_complete_other (s : State) (n cid status result : Nat) {f : Field} (i j : Nat) (inflight : .hifRsStatInflight ≠ f)
    (pi : .hifRsCplpi ≠ f) : (s.complete n cid status result).rd f i j = s.rd f i j :=
  State.complete_other (g := fun s => s.rd f i j) (by intros; rfl) (by intros; rfl) (by intros; rfl) (by intros; rfl) n
    (fun s v => s.rd_wr_field v _ _ _ _ inflight) (fun s v => s.rd_wr_field v _ _ _ _ pi) s cid status result

/-- The two registers that a completion moves. -/
def cplRefs (n : Nat) : List FieldRef := [⟨.hifRsStatInflight, 0, n⟩, ⟨.hifRsCplpi, 0, n⟩]

theorem State.sameRegs_complete {s m : State} {n : Nat} {l : List FieldRef} (h : s.sameRegsBut m l) (listed : ∀ r ∈ cplRefs n, r ∈ l)
    (cid status result : Nat) : s.sameRegsBut (m.complete n cid status result) l := by
  intro r hr
  have inflight : (⟨.hifRsStatInflight, 0, n⟩ : FieldRef) ≠ r := fun e => hr (e ▸ listed _ List.mem_cons_self)
  have pi : (⟨.hifRsCplpi, 0, n⟩ : FieldRef) ≠ r := fun e => hr (e ▸ listed _ (List.mem_cons_of_mem _ List.mem_cons_self))
  have kept : (m.complete n cid status result).reg r = m.reg r :=
    State.complete_other (g := fun s => s.reg r) (by intros; rfl) (by intros; rfl) (by intros; rfl) (by intros; rfl) n
      (fun s v => State.reg_put_other s v inflight) (fun s v => State.reg_put_other s v pi) m cid status result
  exact kept.trans (h r hr)

theorem State.sameIn_rings (s a : State) (y : Store Nat RingState) {x : Tab} (h : x ≠ .rings) :
    s.sameIn { a with rings := y } x = s.sameIn a x := by
  cases x
  case rings => exact absurd rfl h
  all_goals rfl

theorem State.sameIn_msix (s a : State) (y : Store Nat MsixState) {x : Tab} (h : x ≠ .msix) :
    s.sameIn { a with msix := y } x = s.sameIn a x := by
  cases x
  case msix => exact absurd rfl h
  all_goals rfl

theorem State.sameIn_wr (s a : State) (f : Field) (v i j : Nat) (x : Tab) : s.sameIn (a.wr f v i j) x = s.sameIn a x :=
  State.put_other (fun a => s.sameIn a x) (fun _ _ => by cases x <;> rfl) (fun _ _ => by cases x <;> rfl) a _ v

theorem State.sameTabs_complete {s m : State} {l : List Tab} (h : s.sameTabsBut m l) (rings : Tab.rings ∈ l) (msix : Tab.msix ∈ l)
    (n cid status result : Nat) : s.sameTabsBut (m.complete n cid status result) l := by
  intro x hx
  have kept : s.sameIn (m.complete n cid status result) x = s.sameIn m x :=
    State.complete_other (g := fun a => s.sameIn a x) (fun a y => s.sameIn_rings a y fun e => hx (e ▸ rings))
      (fun a y => s.sameIn_msix a y fun e => hx (e ▸ msix)) (fun _ _ => by cases x <;> rfl) (fun _ _ => by cases x <;> rfl) n
      (fun a v => s.sameIn_wr a _ v _ _ x) (fun a v => s.sameIn_wr a _ v _ _ x) m cid status result
  rw [kept]
  exact h x hx

/-! ## What a completion looks at -/

/-- All that a completion looks at of the state. -/
structure RingView where
  running : List CmdRun
  cplci : Nat
  phase : Bool
  dma : List HostWrite
  state : Nat
  size : Nat
  pi : Nat
  base : Nat
  port : Nat
  cmdci : Nat

def State.ringView (s : State) (n : Nat) : RingView where
  running := (s.ring n).running
  cplci := (s.ring n).cplci
  phase := (s.ring n).cplPhase
  dma := s.dma
  state := s.rd .hifRsStatState 0 n
  size := s.rd .hifRsSizesCpl 0 n
  pi := s.rd .hifRsCplpi 0 n
  base := s.rd .hifRsCplbase 0 n
  port := s.rd .hifRsCtrlPort 0 n
  cmdci := s.rd .hifRsCmdci 0 n

/-- The register fields among it. -/
def viewField : Field → Bool
  | .hifRsStatState | .hifRsSizesCpl | .hifRsCplpi | .hifRsCplbase | .hifRsCtrlPort | .hifRsCmdci => true
  | _ => false

theorem ne_of_viewField {f a : Field} (h : viewField f = false) (ha : viewField a = true) : f ≠ a := by
  rintro rfl
  exact Bool.false_ne_true (h.symm.trans ha)

theorem State.dma_wr (s : State) (f : Field) (v i j : Nat) : (s.wr f v i j).dma = s.dma :=
  State.put_other State.dma (by intros; rfl) (by intros; rfl) s _ v

theorem State.view_wr (s : State) {f : Field} (v i j n : Nat) (h : viewField f = false) : (s.wr f v i j).ringView n = s.ringView n := by
  have rd {a : Field} (ha : viewField a = true) : (s.wr f v i j).rd a 0 n = s.rd a 0 n := s.rd_wr_field v _ _ _ _ (ne_of_viewField h ha)
  simp only [State.ringView, State.ring_wr, State.dma_wr, rd (a := .hifRsStatState) rfl, rd (a := .hifRsSizesCpl) rfl,
    rd (a := .hifRsCplpi) rfl, rd (a := .hifRsCplbase) rfl, rd (a := .hifRsCtrlPort) rfl, rd (a := .hifRsCmdci) rfl]

theorem State.view_updRing (s : State) (m : Nat) {f : RingState → RingState} (n : Nat)
    (hf : ∀ r, (f r).running = r.running ∧ (f r).cplci = r.cplci ∧ (f r).cplPhase = r.cplPhase) : (s.updRing m f).ringView n = s.ringView n := by
  have running := State.ring_updRing_kept (h := RingState.running) s m (fun r => (hf r).1) n
  have cplci := State.ring_updRing_kept (h := RingState.cplci) s m (fun r => (hf r).2.1) n
  have phase := State.ring_updRing_kept (h := RingState.cplPhase) s m (fun r => (hf r).2.2) n
  simp only [State.ringView, running, cplci, phase]
  rfl

/-- The completion that a view gives. -/
def RingView.completed (w : RingView) (t : State) (n cid status result : Nat) : Prop :=
  (t.ring n).running = w.running.eraseP (fun c => decide (c.cid = cid)) ∧
    (decide (w.state = 1) = true → ringFree (ringSize w.size) w.pi w.cplci ≠ 0 →
      t.dma = w.dma ++
        [{ port := hostPort w.port, addr := w.base + 16 * w.pi + 4, words := w32 w.cmdci :: w64 result },
         { port := hostPort w.port, addr := w.base + 16 * w.pi, words := [w32 (2 ^ 8 * status + 2 ^ 16 * cid + bit w.phase)] }])

theorem State.completes_iff (s t : State) (n cid status result : Nat) :
    s.completes t n cid status result ↔ (s.ringView n).completed t n cid status result := Iff.rfl

theorem State.dma_cplWritten (s : State) (n : Nat) (urgent : Bool) : (s.cplWritten n urgent).dma = s.dma :=
  State.cplWritten_other (g := State.dma) (by intros; rfl) (by intros; rfl) (by intros; rfl) s n urgent

theorem State.running_cplWritten (s : State) (n : Nat) (urgent : Bool) (m : Nat) :
    ((s.cplWritten n urgent).ring m).running = (s.ring m).running := by
  unfold State.cplWritten
  split
  · unfold State.sendCpl
    rw [State.ring_updRing_kept (h := RingState.running) _ _ (by intros; rfl), State.ring_sendVector]
  · exact State.ring_updRing_kept (h := RingState.running) _ _ (by intros; rfl) _

theorem State.running_putCpl (s : State) (n first : Nat) (l : List Word) (m : Nat) :
    ((s.putCpl n first l).ring m).running = (s.ring m).running := by
  unfold State.putCpl
  dsimp only
  split
  · rw [State.ring_updRing_kept (h := RingState.running) _ _ (by intros; rfl), State.ring_wr]
    rfl
  · rw [State.ring_wr]
    rfl

theorem State.dma_putCpl (s : State) (n first : Nat) (l : List Word) :
    (s.putCpl n first l).dma = s.dma ++
      [{ port := s.ringPort n, addr := s.rd .hifRsCplbase 0 n + 16 * s.rd .hifRsCplpi 0 n + 4, words := l },
       { port := s.ringPort n, addr := s.rd .hifRsCplbase 0 n + 16 * s.rd .hifRsCplpi 0 n, words := [w32 (first + bit (s.ring n).cplPhase)] }] := by
  unfold State.putCpl
  dsimp only
  split
  · exact State.dma_wr _ _ _ _ _
  · exact State.dma_wr _ _ _ _ _

/-- A command taken out of those that run. -/
def State.erased (s : State) (n cid : Nat) : State :=
  s.updRing n fun r => { r with running := r.running.eraseP fun c => decide (c.cid = cid) }

/-- Those that run still, counted. -/
def State.erasedShown (s : State) (n cid : Nat) : State :=
  (s.erased n cid).wr .hifRsStatInflight ((s.erased n cid).ring n).running.length 0 n

theorem State.complete_eq (s : State) (n cid status result : Nat) :
    s.complete n cid status result =
      if (s.erasedShown n cid).ringRunning n && decide ((s.erasedShown n cid).cplFree n ≠ 0) then
        ((s.erasedShown n cid).putCpl n (2 ^ 8 * status + 2 ^ 16 * cid) (w32 ((s.erasedShown n cid).rd .hifRsCmdci 0 n) :: w64 result)).cplWritten n
          false
      else s.erasedShown n cid := rfl

theorem State.view_erasedShown (s : State) (n cid : Nat) :
    (s.erasedShown n cid).ringView n = { s.ringView n with running := (s.ring n).running.eraseP fun c => decide (c.cid = cid) } := by
  have gone : (s.erased n cid).ring n = { s.ring n with running := (s.ring n).running.eraseP fun c => decide (c.cid = cid) } := by
    rw [State.erased, State.ring_updRing, if_pos rfl]
  rw [State.erasedShown, State.view_wr _ _ _ _ _ rfl]
  simp only [State.ringView, gone]
  rfl

/-- What a completion writes, by the view of the state from which its command has been taken. -/
theorem State.complete_view (s : State) (n cid status result : Nat) {w : RingView} (view : (s.erasedShown n cid).ringView n = w) :
    ((s.complete n cid status result).ring n).running = w.running ∧
      (decide (w.state = 1) = true → ringFree (ringSize w.size) w.pi w.cplci ≠ 0 →
        (s.complete n cid status result).dma = w.dma ++
          [{ port := hostPort w.port, addr := w.base + 16 * w.pi + 4, words := w32 w.cmdci :: w64 result },
           { port := hostPort w.port, addr := w.base + 16 * w.pi, words := [w32 (2 ^ 8 * status + 2 ^ 16 * cid + bit w.phase)] }]) := by
  subst view
  rw [s.complete_eq]
  generalize s.erasedShown n cid = m
  constructor
  · split
    · rw [State.running_cplWritten, State.running_putCpl]
      rfl
    · rfl
  · intro running room
    have entered : (m.ringRunning n && decide (m.cplFree n ≠ 0)) = true := Bool.and_eq_true_iff.2 ⟨running, decide_eq_true room⟩
    rw [if_pos entered, State.dma_cplWritten, State.dma_putCpl]
    rfl

theorem State.completes_complete (s : State) (n cid status result : Nat) :
    s.completes (s.complete n cid status result) n cid status result :=
  s.complete_view n cid status result (s.view_erasedShown n cid)

/-- A command completed after steps that leave what a completion looks at. -/
theorem State.completes_after {s m : State} {n : Nat} (view : m.ringView n = s.ringView n) (o : State) (cid status result : Nat) :
    s.completes (o.commit (m.complete n cid status result)) n cid status result := by
  have done := (m.completes_iff _ n cid status result).1 (m.completes_complete n cid status result)
  rw [view] at done
  obtain ⟨running, wrote⟩ := done
  refine (s.completes_iff _ n cid status result).2 ⟨?_, wrote⟩
  rw [State.ring_commit]
  exact running

/-! ## Commands that run -/

theorem State.hostCmd_runs {s : State} {n cid op : Nat} {c : CmdRun} (h : s.mayRun n cid op c) (f : CmdRun → State → State) :
    s.hostCmd n cid op f = f c s := by
  obtain ⟨found, may, safe⟩ := h
  have safe : (decide (s.svc = svcFailsafe) && !failsafeOpcode op) = false := by
    by_cases svc : s.svc = svcFailsafe
    · rw [safe svc, Bool.not_true, Bool.and_false]
    · rw [decide_eq_false svc, Bool.false_and]
  simp only [State.hostCmd, found, may, safe, Bool.false_eq_true, if_false]

theorem State.hostCmd_forbidden {s : State} {n cid op : Nat} {c : CmdRun} (found : s.cmdOf n cid op = some c) (no : c.forbidden = true)
    (f : CmdRun → State → State) : s.hostCmd n cid op f = s.complete n cid 3 0 := by
  simp only [State.hostCmd, found, no, if_true]

/-- A command that does nothing but complete. -/
theorem complete_alone (s : State) (n cid status result : Nat) :
    s.completes (s.commit (s.complete n cid status result)) n cid status result ∧
      s.sameRegsBut (s.commit (s.complete n cid status result)) [⟨.hifRsStatInflight, 0, n⟩, ⟨.hifRsCplpi, 0, n⟩] ∧
      s.sameTabsBut (s.commit (s.complete n cid status result)) [.rings, .msix] :=
  ⟨State.completes_after rfl s cid status result, State.sameRegs_commit (State.sameRegs_complete (s.sameRegs_same _) (fun _ h => h) _ _ _),
    State.sameTabs_commit (State.sameTabs_complete (s.sameTabs_same _) List.mem_cons_self (by simp) _ _ _ _)⟩

theorem State.flag_complete (s o : State) (n cid status result : Nat) {f : Field} (i j : Nat) (limit : f.isLimit = false)
    (inflight : .hifRsStatInflight ≠ f) (pi : .hifRsCplpi ≠ f) : (o.commit (s.complete n cid status result)).flag f i j = s.flag f i j := by
  rw [State.flag, State.rd_commit _ _ _ _ _ limit, State.rd_complete_other _ _ _ _ _ _ _ inflight pi, State.flag]

theorem State.rd_completed (s o : State) (n cid status result : Nat) {f : Field} (i j : Nat) (limit : f.isLimit = false)
    (inflight : .hifRsStatInflight ≠ f) (pi : .hifRsCplpi ≠ f) : (o.commit (s.complete n cid status result)).rd f i j = s.rd f i j := by
  rw [State.rd_commit _ _ _ _ _ limit, State.rd_complete_other _ _ _ _ _ _ _ inflight pi]

end Sys2Proof.Machine

/-!
Settles O49: the ring commands that complete at once, each with its effect and its status.
-/

namespace Sys2Proof.Machine

section Run
variable {s : State} {n : Part} {k : BitVec 16} {c : CmdRun} (hs : s.aon = true)
include hs

/-! ## NOP, and a command that its ring set may not give (R306, R307) -/

theorem nop_completes (h : s.mayRun n.val k.toNat 1 c) :
    ∃ t, exec (.nop n k) s = .next t ∧ s.completes t n.val k.toNat 0 0 ∧
      s.sameRegsBut t [⟨.hifRsStatInflight, 0, n.val⟩, ⟨.hifRsCplpi, 0, n.val⟩] ∧ s.sameTabsBut t [.rings, .msix] := by
  have run : exec (.nop n k) s = .next (s.commit (s.complete n.val k.toNat 0 0)) := by
    change execNop n k s = _
    rw [execNop, State.run_on _ hs, State.hostCmd_runs h]
  exact ⟨_, run, complete_alone s _ _ _ _⟩

theorem hostcap_forbidden (found : s.cmdOf n.val k.toNat 8 = some c) (no : c.forbidden = true) :
    ∃ t, exec (.hostcap n k) s = .next t ∧ s.completes t n.val k.toNat 3 0 ∧
      s.sameRegsBut t [⟨.hifRsStatInflight, 0, n.val⟩, ⟨.hifRsCplpi, 0, n.val⟩] ∧ s.sameTabsBut t [.rings, .msix] := by
  have run : exec (.hostcap n k) s = .next (s.commit (s.complete n.val k.toNat 3 0)) := by
    change execHostcap n k s = _
    rw [execHostcap, State.run_on _ hs, State.hostCmd_forbidden found no]
  exact ⟨_, run, complete_alone s _ _ _ _⟩

/-! ## ACKFAULT (R278) -/

omit hs in
theorem State.view_ack (s : State) (l : List Nat) (n : Nat) : (s.ack l).ringView n = s.ringView n :=
  each_blind (g := fun s => s.ringView n) l State.dropPending
    (fun s _ => (State.view_wr _ _ _ _ _ rfl).trans (State.view_wr s _ _ _ _ rfl)) s

theorem exec_ackfault (h : s.mayRun n.val k.toNat 2 c) {all mine : List Nat}
    (named : all = s.ackSlots (c.word 0 % 2 ^ 16) (testBit (c.word 0) 16))
    (own : mine = (if c.priv then all else all.filter (s.pendIsOf n.val))) :
    exec (.ackfault n k) s = .next (s.commit (if !testBit (c.word 0) 16 && decide (mine.length < all.length) then s.complete n.val k.toNat 3 0
      else (s.ack mine).complete n.val k.toNat 0 mine.length)) := by
  subst named own
  change execAckfault n k s = _
  rw [execAckfault, State.run_on _ hs, State.hostCmd_runs h]

theorem ackfault_acks (h : s.mayRun n.val k.toNat 2 c) (all mine : List Nat)
    (named : all = s.ackSlots (c.word 0 % 2 ^ 16) (testBit (c.word 0) 16))
    (own : mine = (if c.priv then all else all.filter (s.pendIsOf n.val))) :
    ∃ t, exec (.ackfault n k) s = .next t ∧
      if testBit (c.word 0) 16 = false ∧ mine.length < all.length then s.completes t n.val k.toNat 3 0 ∧
        ∀ j, t.flag .fltPendValid 0 j = s.flag .fltPendValid 0 j
      else s.completes t n.val k.toNat 0 mine.length ∧ (∀ j ∈ mine, t.flag .fltPendValid 0 j = false) ∧
        ∀ j, j ∉ mine → t.flag .fltPendValid 0 j = s.flag .fltPendValid 0 j := by
  have run := exec_ackfault hs h named own
  have kept (m : State) (st r j : Nat) : (s.commit (m.complete n.val k.toNat st r)).flag .fltPendValid 0 j = m.flag .fltPendValid 0 j :=
    m.flag_complete s _ _ _ _ _ _ rfl (by decide) (by decide)
  by_cases others : testBit (c.word 0) 16 = false ∧ mine.length < all.length
  · rw [if_pos (by simp [others.1, others.2])] at run
    refine ⟨_, run, ?_⟩
    rw [if_pos others]
    exact ⟨State.completes_after rfl s _ _ _, fun j => kept s 3 0 j⟩
  · have granted : ¬(!testBit (c.word 0) 16 && decide (mine.length < all.length)) = true := by simpa using others
    rw [if_neg granted] at run
    refine ⟨_, run, ?_⟩
    rw [if_neg others]
    refine ⟨State.completes_after (s.view_ack mine n.val) s _ _ _, fun j hj => ?_, fun j hj => ?_⟩
    · rw [kept, State.valid_ack, decide_eq_true hj, Bool.not_true, Bool.and_false]
    · rw [kept, State.valid_ack, decide_eq_false hj, Bool.not_false, Bool.and_true]

/-! ## SETCLASS (R187) -/

omit hs in
theorem cclass_exists {x : Nat} (h : x < 128) : (⟨.alcCclassCls, 0, x⟩ : FieldRef).exists = true := by
  have one : Field.instances .alcCclassCls = 1 := rfl
  have all : (fieldDef .alcCclassCls).count = 128 := rfl
  have blk : (fieldDef .alcCclassCls).blk = .alc := rfl
  simp [FieldRef.exists, one, all, blk, h]

/-- The cores of a mask take a class. -/
def State.classed (s : State) (l : List Nat) (v : Nat) : State := s.each l fun s k => s.wr .alcCclassCls v 0 k

omit hs in
theorem State.view_classed (s : State) (l : List Nat) (v n : Nat) : (s.classed l v).ringView n = s.ringView n :=
  each_blind (g := fun s => s.ringView n) l (fun s k => s.wr .alcCclassCls v 0 k) (fun s _ => State.view_wr s _ _ _ _ rfl) s

omit hs in
theorem State.rd_classed_other (s : State) (l : List Nat) (v : Nat) {x : Nat} (h : x ∉ l) :
    (s.classed l v).rd .alcCclassCls 0 x = s.rd .alcCclassCls 0 x :=
  State.each_keeps_mem (P := fun t => t.rd .alcCclassCls 0 x = s.rd .alcCclassCls 0 x) (f := fun s k => s.wr .alcCclassCls v 0 k) l
    (fun m k hk same => (State.reg_put_other m v (by rintro ⟨⟩; exact h hk)).trans same) rfl

omit hs in
theorem State.rd_classed_mem (s : State) (l : List Nat) {v : Nat} (small : v < 4) {x : Nat} (h : x ∈ l) (core : x < 128) :
    (s.classed l v).rd .alcCclassCls 0 x = v := by
  have set (m : State) : (m.wr .alcCclassCls v 0 x).rd .alcCclassCls 0 x = v := by
    rw [State.rd_wr_same _ _ _ _ _ (cclass_exists core)]
    exact Nat.mod_eq_of_lt small
  refine State.each_sets (P := fun t => t.rd .alcCclassCls 0 x = v) (f := fun s k => s.wr .alcCclassCls v 0 k) h set (fun m y hm => ?_) s
  by_cases same : y = x
  · rw [same]
    exact set m
  · exact (State.reg_put_other m v (by rintro ⟨⟩; exact same rfl)).trans hm

theorem setclass_sets (h : s.mayRun n.val k.toNat 3 c) (l : List Nat) (mask : l = maskCores (c.dword 0 + 2 ^ 64 * c.dword 2)) :
    ((∀ x ∈ l, s.partOf (x / 4) = some (c.target n.val)) → ∃ t, exec (.setclass n k) s = .next t ∧ s.completes t n.val k.toNat 0 0 ∧
        (∀ x ∈ l, t.rd .alcCclassCls 0 x = c.word 4 % 4) ∧ ∀ x, x ∉ l → t.rd .alcCclassCls 0 x = s.rd .alcCclassCls 0 x) ∧
      ((∃ x ∈ l, s.partOf (x / 4) ≠ some (c.target n.val)) → ∃ t, exec (.setclass n k) s = .next t ∧
        s.completes t n.val k.toNat 4 0 ∧ ∀ x, t.rd .alcCclassCls 0 x = s.rd .alcCclassCls 0 x) := by
  have run : exec (.setclass n k) s = .next (s.commit
      (if (l.all fun x => decide (s.partOf (x / 4) = some (c.target n.val))) then (s.classed l (c.word 4 % 4)).complete n.val k.toNat 0 0
      else s.complete n.val k.toNat 4 0)) := by
    subst mask
    change execSetclass n k s = _
    rw [execSetclass, State.run_on _ hs, State.hostCmd_runs h]
    rfl
  have kept (m : State) (st r x : Nat) : (s.commit (m.complete n.val k.toNat st r)).rd .alcCclassCls 0 x = m.rd .alcCclassCls 0 x :=
    m.rd_completed s _ _ _ _ _ _ rfl (by decide) (by decide)
  constructor
  · intro own
    rw [if_pos (List.all_eq_true.2 fun x hx => decide_eq_true (own x hx))] at run
    refine ⟨_, run, State.completes_after (s.view_classed l _ n.val) s _ _ _, fun x hx => ?_, fun x hx => ?_⟩
    · have core : x < 128 := by
        rw [mask, maskCores, List.mem_filter, upto, List.mem_range] at hx
        exact hx.1
      rw [kept, State.rd_classed_mem _ _ (Nat.mod_lt _ (by decide)) hx core]
    · rw [kept, State.rd_classed_other _ _ _ hx]
  · rintro ⟨x, hx, other⟩
    rw [if_neg (fun own => other (of_decide_eq_true (List.all_eq_true.1 own x hx)))] at run
    exact ⟨_, run, State.completes_after rfl s _ _ _, fun x => kept s _ _ x⟩

/-! ## STATEMENT (R69) -/

theorem exec_statement (h : s.mayRun n.val k.toNat 4 c) :
    exec (.statement n k) s = .next (s.commit (if !s.inForce (c.target n.val) then s.complete n.val k.toNat 4 0
      else if s.stmtsFull (c.target n.val) then s.stmtBusy n.val k.toNat
      else (s.stmtDue .demand (c.target n.val)).complete n.val k.toNat 0 (s.ring (c.target n.val)).stmSeq)) := by
  change execStatement n k s = _
  rw [execStatement, State.run_on _ hs, State.hostCmd_runs h]

omit hs in
/-- A demand puts a statement at the end of those due. -/
theorem State.due_stmtDue (s : State) (kind : StmtKind) (p : Nat) :
    ∃ e, ((s.stmtDue kind p).ring p).due = (s.ring p).due ++ [e] ∧ e.kind = kind ∧ e.seq = (s.ring p).stmSeq := by
  refine ⟨⟨kind, p, s.tagOf p, s.rd .alcPartDies 0 p, (s.ring p).stmSeq, ceilTo 250 s.now⟩, ?_, rfl, rfl⟩
  rw [State.stmtDue, State.ring_updRing, if_pos rfl]

omit hs in
theorem State.view_stmtDue (s : State) (kind : StmtKind) (p n : Nat) : (s.stmtDue kind p).ringView n = s.ringView n :=
  s.view_updRing p n fun _ => ⟨rfl, rfl, rfl⟩

omit hs in
theorem State.stmtBusy_completes (s : State) (n cid : Nat) :
    s.completes (s.commit (s.stmtBusy n cid)) n cid 2 0 ∧ (s.commit (s.stmtBusy n cid)).flag .obsEstatBusy = true :=
  ⟨State.completes_after (s.view_wr _ _ _ _ rfl) s _ _ _,
    ((s.wr .obsEstatBusy 1).flag_complete s _ _ _ _ _ _ rfl (by decide) (by decide)).trans (State.flag_wr_one s (f := .obsEstatBusy) rfl rfl)⟩

theorem statement_demands (h : s.mayRun n.val k.toNat 4 c) :
    (s.inForce (c.target n.val) = false → ∃ t, exec (.statement n k) s = .next t ∧ s.completes t n.val k.toNat 4 0) ∧
      (s.inForce (c.target n.val) = true → s.stmtsFull (c.target n.val) = true → ∃ t, exec (.statement n k) s = .next t ∧
        s.completes t n.val k.toNat 2 0 ∧ t.flag .obsEstatBusy = true) ∧
      (s.inForce (c.target n.val) = true → s.stmtsFull (c.target n.val) = false → ∃ t e, exec (.statement n k) s = .next t ∧
        s.completes t n.val k.toNat 0 (s.ring (c.target n.val)).stmSeq ∧
        (t.ring (c.target n.val)).due = (s.ring (c.target n.val)).due ++ [e] ∧ e.kind = .demand ∧
        e.seq = (s.ring (c.target n.val)).stmSeq) := by
  have run := exec_statement hs h
  refine ⟨fun idle => ?_, fun bound full => ?_, fun bound room => ?_⟩
  · rw [idle, Bool.not_false, if_pos rfl] at run
    exact ⟨_, run, State.completes_after rfl s _ _ _⟩
  · rw [bound, full, Bool.not_true, if_neg Bool.false_ne_true, if_pos rfl] at run
    exact ⟨_, run, s.stmtBusy_completes _ _⟩
  · rw [bound, room, Bool.not_true, if_neg Bool.false_ne_true, if_neg Bool.false_ne_true] at run
    obtain ⟨e, due, kind, seq⟩ := s.due_stmtDue .demand (c.target n.val)
    refine ⟨_, e, run, State.completes_after (s.view_stmtDue _ _ _) s _ _ _, ?_, kind, seq⟩
    rw [State.ring_commit, State.kept_complete ringKept_due]
    exact due

/-! ## HOSTCAP and FREEZE (R35, R352) -/

theorem exec_hostcap (h : s.mayRun n.val k.toNat 8 c) :
    exec (.hostcap n k) s = .next (s.commit
      (if s.heldForbids .alcHostcapCap (c.word 0) then (s.wr .alcStatusHeldrej 1).complete n.val k.toNat 6 0
      else (s.wr .alcHostcapCap (c.word 0)).complete n.val k.toNat 0 0)) := by
  change execHostcap n k s = _
  rw [execHostcap, State.run_on _ hs, State.hostCmd_runs h]

theorem hostcap_sets (h : s.mayRun n.val k.toNat 8 c) :
    (s.heldForbids .alcHostcapCap (c.word 0) = true → ∃ t, exec (.hostcap n k) s = .next t ∧ s.completes t n.val k.toNat 6 0 ∧
        t.flag .alcStatusHeldrej = true ∧ t.rd .alcHostcapCap = s.rd .alcHostcapCap) ∧
      (s.heldForbids .alcHostcapCap (c.word 0) = false → ∃ t, exec (.hostcap n k) s = .next t ∧ s.completes t n.val k.toNat 0 0 ∧
        t.rd .alcHostcapCap = c.word 0 % 2 ^ (fieldDef .alcHostcapCap).width) := by
  have run := exec_hostcap hs h
  constructor
  · intro held
    rw [held, if_pos rfl] at run
    refine ⟨_, run, State.completes_after (s.view_wr _ _ _ _ rfl) s _ _ _, ?_, ?_⟩
    · rw [State.flag_complete _ _ _ _ _ _ _ _ rfl (by decide) (by decide)]
      exact State.flag_wr_one s (f := .alcStatusHeldrej) rfl rfl
    · rw [State.rd_completed _ _ _ _ _ _ _ _ rfl (by decide) (by decide), State.rd_wr_field _ _ _ _ _ _ (by decide)]
  · intro free
    rw [free, if_neg Bool.false_ne_true] at run
    refine ⟨_, run, State.completes_after (s.view_wr _ _ _ _ rfl) s _ _ _, ?_⟩
    rw [State.rd_completed _ _ _ _ _ _ _ _ rfl (by decide) (by decide), State.rd_wr_same _ .alcHostcapCap _ _ _ rfl]

/-- The instant at which a freeze takes force. -/
def State.freezeAt (s : State) (t : Nat) : Nat := if t < s.now + 1000 then ceilTo 250 (s.now + 1) else t

/-- A freeze armed, marked late where its instant is too near. -/
def State.freezeShown (s : State) (t : Nat) : State :=
  if t < s.now + 1000 then (s.wr .obsFrzctlArmed 1).wr .obsFrzctlLate 1 else s.wr .obsFrzctlArmed 1

/-- A freeze that waits for its instant. -/
def State.freezeSet (s : State) (a : Nat) : State := { s with freezeT := some a }

omit hs in
theorem State.armFreeze_eq (s : State) (t : Nat) : s.armFreeze t = (s.freezeShown t).freezeSet (s.freezeAt t) := by
  unfold State.armFreeze State.freezeShown State.freezeAt State.freezeSet
  dsimp only
  split <;> rfl

omit hs in
theorem State.view_armFreeze (s : State) (t n : Nat) : (s.armFreeze t).ringView n = s.ringView n := by
  rw [s.armFreeze_eq]
  change (s.freezeShown t).ringView n = _
  unfold State.freezeShown
  split
  · exact (State.view_wr _ _ _ _ _ rfl).trans (s.view_wr _ _ _ _ rfl)
  · exact s.view_wr _ _ _ _ rfl

omit hs in
theorem State.freezeAt_later (s : State) (t : Nat) : s.now < s.freezeAt t := by
  unfold State.freezeAt
  split
  · exact Nat.lt_of_succ_le (ge_ceilTo 250 (s.now + 1) (by decide))
  · omega

theorem freeze_arms (h : s.mayRun n.val k.toNat 12 c) :
    ∃ t a, exec (.freeze n k) s = .next t ∧ s.completes t n.val k.toNat 0 0 ∧ t.freezeT = some a ∧ s.now < a ∧
      (s.now + 1000 ≤ c.dword 0 → a = c.dword 0) ∧ (c.dword 0 < s.now + 1000 → t.flag .obsFrzctlLate = true) ∧
      t.flag .obsFrzctlArmed = true := by
  have run : exec (.freeze n k) s = .next (s.commit ((s.armFreeze (c.dword 0)).complete n.val k.toNat 0 0)) := by
    change execFreeze n k s = _
    rw [execFreeze, State.run_on _ hs, State.hostCmd_runs h]
  have set (m : State) : (m.complete n.val k.toNat 0 0).freezeT = m.freezeT :=
    State.complete_other (g := State.freezeT) (by intros; rfl) (by intros; rfl) (by intros; rfl) (by intros; rfl) n.val
      (fun s v => State.put_other State.freezeT (by intros; rfl) (by intros; rfl) s _ v)
      (fun s v => State.put_other State.freezeT (by intros; rfl) (by intros; rfl) s _ v) m _ _ _
  refine ⟨_, s.freezeAt (c.dword 0), run, State.completes_after (s.view_armFreeze _ _) s _ _ _, ?_, s.freezeAt_later _, fun late => ?_,
    fun near => ?_, ?_⟩
  · change ((s.armFreeze _).complete _ _ _ _).freezeT = _
    rw [set, s.armFreeze_eq]
    rfl
  · exact if_neg (by omega)
  · rw [State.flag_complete _ _ _ _ _ _ _ _ rfl (by decide) (by decide), s.armFreeze_eq]
    change (s.freezeShown _).flag _ = _
    rw [State.freezeShown, if_pos near]
    exact State.flag_wr_one _ (f := .obsFrzctlLate) rfl rfl
  · rw [State.flag_complete _ _ _ _ _ _ _ _ rfl (by decide) (by decide), s.armFreeze_eq]
    change (s.freezeShown _).flag _ = _
    have armed := State.flag_wr_one s (f := .obsFrzctlArmed) (i := 0) rfl rfl
    unfold State.freezeShown
    split
    · rw [State.flag, State.rd_wr_field _ _ _ _ _ _ (by decide)]
      exact armed
    · exact armed

end Run

/-- Settles O49: each of the six commands, and one that may not be given. -/
theorem ringCommandsCompleteAtOnce : Obligations.RingCommandsCompleteAtOnce := by
  unfold Obligations.RingCommandsCompleteAtOnce
  intro s n k c hs
  exact ⟨fun h => nop_completes hs h, fun found no => hostcap_forbidden hs found no, fun h all mine named own => ackfault_acks hs h all mine named own,
    fun h l mask => setclass_sets hs h l mask, fun h => statement_demands hs h, fun h => hostcap_sets hs h, fun h => freeze_arms hs h⟩

end Sys2Proof.Machine

/-!
Settles O51: the ring commands that take time: those that ask for a change of two phases, SNAPSHOT with its capture, UPDATE and the policy blob.
-/

namespace Sys2Proof.Machine

/-! ## A command that waits for its change (R290) -/

theorem State.started_markStarted (s : State) (n cid : Nat) :
    ((s.markStarted n cid).ring n).running = (s.ring n).running.map fun c => if c.cid = cid then { c with started := true } else c := by
  rw [State.markStarted, State.ring_updRing, if_pos rfl]

theorem State.cmdOf_markStarted (s : State) (n cid op : Nat) : (s.markStarted n cid).cmdOf n cid op = none := by
  rw [State.cmdOf, s.started_markStarted, List.find?_eq_none]
  intro x hx
  obtain ⟨c, -, rfl⟩ := List.mem_map.1 hx
  by_cases named : c.cid = cid
  · simp [named]
  · simp [named]

theorem State.sameTabs_markStarted {s m : State} (h : s.sameTabsBut m []) (n cid : Nat) : s.sameTabsBut (m.markStarted n cid) [.rings] := by
  intro x hx
  have other : x ≠ .rings := fun e => hx (e ▸ List.mem_cons_self)
  rw [State.markStarted, State.updRing, s.sameIn_rings _ _ other]
  exact h x List.not_mem_nil

/-- A command whose change has joined those that wait. -/
theorem State.asked_lands (s : State) (c : Change) (n cid op : Nat) :
    (s.commit ((s.enqueued c).markStarted n cid)).changes = s.changes ++ [c] ∧
      (s.commit ((s.enqueued c).markStarted n cid)).cmdOf n cid op = none ∧
      s.sameRegsBut (s.commit ((s.enqueued c).markStarted n cid)) [⟨.fltCmtQueued, 0, 0⟩] ∧
      s.sameTabsBut (s.commit ((s.enqueued c).markStarted n cid)) [.rings] := by
  refine ⟨s.changes_enqueued c, ?_, State.sameRegs_commit (s.sameRegs_enqueued c),
    State.sameTabs_commit (State.sameTabs_markStarted (s.sameTabs_enqueued c) n cid)⟩
  rw [State.cmdOf, State.ring_commit]
  exact (s.enqueued c).cmdOf_markStarted n cid op

theorem State.cmdChange_asks {s : State} (room : s.changes.length < 4) (n cid : Nat) (c : Change) :
    s.cmdChange n cid c = (s.enqueued { c with cmd := some (n, cid) }).markStarted n cid := by
  rw [State.cmdChange, State.requestChange_enqueued room]

theorem State.cmdChange_full {s : State} (full : 4 ≤ s.changes.length) (n cid : Nat) (c : Change) :
    s.cmdChange n cid c = s.complete n cid 2 0 := by
  rw [State.cmdChange, State.requestChange, if_neg (by omega)]

/-- What a command that completes leaves of the changes, the flash and the update. -/
theorem State.kept_by_complete {α : Type} {g : State → α} (hr : ∀ s x, g { s with regs := x } = g s) (hl : ∀ s x, g { s with limits := x } = g s)
    (rings : ∀ s x, g { s with rings := x } = g s) (msix : ∀ s x, g { s with msix := x } = g s) (msixOut : ∀ s x, g { s with msixOut := x } = g s)
    (dma : ∀ s x, g { s with dma := x } = g s) (s : State) (n cid status result : Nat) : g (s.complete n cid status result) = g s :=
  State.complete_other rings msix msixOut dma n (fun s v => State.put_other g hr hl s _ v) (fun s v => State.put_other g hr hl s _ v) s cid
    status result

theorem State.changes_complete (s : State) (n cid status result : Nat) : (s.complete n cid status result).changes = s.changes :=
  State.kept_by_complete (g := State.changes) (by intros; rfl) (by intros; rfl) (by intros; rfl) (by intros; rfl) (by intros; rfl) (by intros; rfl)
    s n cid status result

theorem State.flash_complete (s : State) (n cid status result : Nat) : (s.complete n cid status result).flash = s.flash :=
  State.kept_by_complete (g := State.flash) (by intros; rfl) (by intros; rfl) (by intros; rfl) (by intros; rfl) (by intros; rfl) (by intros; rfl)
    s n cid status result

theorem State.upd_complete (s : State) (n cid status result : Nat) : (s.complete n cid status result).upd = s.upd :=
  State.kept_by_complete (g := State.upd) (by intros; rfl) (by intros; rfl) (by intros; rfl) (by intros; rfl) (by intros; rfl) (by intros; rfl)
    s n cid status result

section Run
variable {s : State} {n : Part} {k : BitVec 16} {c : CmdRun} (hs : s.aon = true)
include hs

/-! ## ENDJOB, BIND and SETPOLICY (R185, R203, R290, R291) -/

theorem exec_endjob (h : s.mayRun n.val k.toNat 5 c) (bound : s.inForce (c.target n.val) = true) (room : s.stmtsFull (c.target n.val) = false) :
    exec (.endjob n k) s = .next (s.commit (s.cmdChange n.val k.toNat
      (s.mkChange (.endJob (c.target n.val)) [(⟨.alcPartBindValid, 0, c.target n.val⟩, 0)] (s.diesOf (c.target n.val)) none))) := by
  change execEndjob n k s = _
  rw [execEndjob, State.run_on _ hs, State.hostCmd_runs h]
  simp only [bound, room, Bool.not_true, Bool.false_eq_true, if_false]

theorem endjob_asks (h : s.mayRun n.val k.toNat 5 c) (bound : s.inForce (c.target n.val) = true) (room : s.stmtsFull (c.target n.val) = false) :
    (s.changes.length < 4 → ∃ t x, exec (.endjob n k) s = .next t ∧ t.changes = s.changes ++ [x] ∧ x.kind = .endJob (c.target n.val) ∧
        x.cmd = some (n.val, k.toNat) ∧ x.dies = s.diesOf (c.target n.val) ∧ t.cmdOf n.val k.toNat 5 = none ∧
        s.sameRegsBut t [⟨.fltCmtQueued, 0, 0⟩] ∧ s.sameTabsBut t [.rings]) ∧
      (4 ≤ s.changes.length → ∃ t, exec (.endjob n k) s = .next t ∧ s.completes t n.val k.toNat 2 0 ∧ t.changes = s.changes) := by
  have run := exec_endjob hs h bound room
  constructor
  · intro few
    rw [State.cmdChange_asks few] at run
    obtain ⟨changes, gone, regs, tabs⟩ := s.asked_lands _ n.val k.toNat 5
    exact ⟨_, _, run, changes, rfl, rfl, rfl, gone, regs, tabs⟩
  · intro full
    rw [State.cmdChange_full full] at run
    exact ⟨_, run, State.completes_after rfl s _ _ _, s.changes_complete _ _ _ _⟩

/-- The writes of BIND. -/
def bindWrites (p dies tag : Nat) : List (FieldRef × Nat) :=
  [(⟨.alcPartDies, 0, p⟩, dies), (⟨.alcPartBindTag, 0, p⟩, tag), (⟨.alcPartBindValid, 0, p⟩, 1)]

/-- The change that BIND asks for. -/
def State.bindAsked (s : State) (p dies tag : Nat) (cmd : Nat × Nat) : Change :=
  s.mkChange (.bind p (s.inForce p) true) (bindWrites p dies tag)
    (distinct ((if s.inForce p then s.diesOf p else []) ++ (upto 32).filter (testBit dies))) (some cmd)

omit hs in
theorem State.bindChange_command_clashes {p dies : Nat} (clash : s.clashes p dies = true) (tag : Nat) (ws : List (FieldRef × Nat))
    (cmd : Option (Nat × Nat)) : s.bindChange p dies tag 1 ws cmd = (some 1, s.wr .alcAlstatParterr 1) := by
  simp only [State.bindChange, clash, decide_true, Bool.and_self, if_true]

omit hs in
theorem State.bindChange_command_asks {p dies : Nat} (alone : s.clashes p dies = false) (few : s.changes.length < 4) (tag : Nat) (cmd : Nat × Nat) :
    s.bindChange p dies tag 1 (bindWrites p dies tag) (some cmd) = (none, s.enqueued (s.bindAsked p dies tag cmd)) := by
  simp only [State.bindChange, alone, decide_true, Bool.and_false, Bool.false_eq_true, if_false, Option.isNone_some, Nat.one_ne_zero, decide_false,
    Bool.false_and, Option.isSome_some, Bool.true_or, Bool.and_true, Bool.or_true, Bool.and_self, State.requestChange_enqueued few, State.bindAsked]

/-- BIND after its partition has been looked at. -/
def bindDone (n cid : Nat) (r : Option Nat × State) : State :=
  match r.1 with
  | none => r.2.markStarted n cid
  | some 1 => r.2.complete n cid 4 0
  | some _ => r.2.complete n cid 2 0

theorem exec_bind (h : s.mayRun n.val k.toNat 6 c) (may : s.inForce (c.target n.val) = false ∨ s.stmtsFull (c.target n.val) = false) :
    exec (.bind n k) s = .next (s.commit (bindDone n.val k.toNat (s.bindChange (c.target n.val) (c.word 0) (c.word 1) 1
      (bindWrites (c.target n.val) (c.word 0) (c.word 1)) (some (n.val, k.toNat))))) := by
  have free : (s.inForce (c.target n.val) && s.stmtsFull (c.target n.val)) = false := by
    rcases may with e | e <;> simp [e]
  change execBind n k s = _
  rw [execBind, State.run_on _ hs, State.hostCmd_runs h]
  simp only [free, Bool.false_eq_true, if_false]
  rfl

theorem bind_asks (h : s.mayRun n.val k.toNat 6 c) (may : s.inForce (c.target n.val) = false ∨ s.stmtsFull (c.target n.val) = false) :
    (s.clashes (c.target n.val) (c.word 0) = true → ∃ t, exec (.bind n k) s = .next t ∧ s.completes t n.val k.toNat 4 0 ∧
        t.flag .alcAlstatParterr = true ∧ t.changes = s.changes) ∧
      (s.clashes (c.target n.val) (c.word 0) = false → s.changes.length < 4 →
        ∃ t x, exec (.bind n k) s = .next t ∧ t.changes = s.changes ++ [x] ∧
          x.kind = .bind (c.target n.val) (s.inForce (c.target n.val)) true ∧ x.cmd = some (n.val, k.toNat) ∧
          (⟨.alcPartDies, 0, c.target n.val⟩, c.word 0) ∈ x.writes ∧ (⟨.alcPartBindTag, 0, c.target n.val⟩, c.word 1) ∈ x.writes ∧
          s.sameRegsBut t [⟨.fltCmtQueued, 0, 0⟩] ∧ s.sameTabsBut t [.rings]) := by
  have run := exec_bind hs h may
  constructor
  · intro clash
    rw [State.bindChange_command_clashes clash] at run
    refine ⟨_, run, State.completes_after (s.view_wr _ _ _ _ rfl) s _ _ _, ?_, ?_⟩
    · exact (State.flag_complete (s.wr .alcAlstatParterr 1) s _ _ _ _ _ _ rfl (by decide) (by decide)).trans
        (State.flag_wr_one s (f := .alcAlstatParterr) rfl rfl)
    · exact (State.changes_complete _ _ _ _ _).trans (State.wr_changes _ _ _ _ _)
  · intro alone few
    rw [State.bindChange_command_asks alone few] at run
    obtain ⟨changes, -, regs, tabs⟩ := s.asked_lands (s.bindAsked (c.target n.val) (c.word 0) (c.word 1) (n.val, k.toNat)) n.val k.toNat 6
    exact ⟨_, _, run, changes, rfl, rfl, List.mem_cons_self, List.mem_cons_of_mem _ List.mem_cons_self, regs, tabs⟩

theorem setpolicy_asks (h : s.mayRun n.val k.toNat 7 c) (few : s.changes.length < 4) :
    ∃ t x, exec (.setpolicy n k) s = .next t ∧ t.changes = s.changes ++ [x] ∧
      x.kind = .policy (c.target n.val) ∧ x.cmd = some (n.val, k.toNat) ∧ (⟨.alcPartCap, 0, c.target n.val⟩, c.word 2) ∈ x.writes ∧
      s.sameRegsBut t [⟨.fltCmtQueued, 0, 0⟩] ∧ s.sameTabsBut t [.rings] := by
  have run : exec (.setpolicy n k) s = .next (s.commit (s.cmdChange n.val k.toNat (s.mkChange (.policy (c.target n.val))
      (polWrites (c.target n.val) (c.word 0) ++ pol2Writes (c.target n.val) (c.word 1) ++ [(⟨.alcPartCap, 0, c.target n.val⟩, c.word 2)])
      (if s.inForce (c.target n.val) then s.diesOf (c.target n.val) else []) none))) := by
    change execSetpolicy n k s = _
    rw [execSetpolicy, State.run_on _ hs, State.hostCmd_runs h]
  rw [State.cmdChange_asks few] at run
  obtain ⟨changes, -, regs, tabs⟩ := s.asked_lands _ n.val k.toNat 7
  exact ⟨_, _, run, changes, rfl, rfl, List.mem_append_right _ List.mem_cons_self, regs, tabs⟩

/-! ## SNAPSHOT (R360) -/

theorem exec_snapshot (h : s.mayRun n.val k.toNat 13 c) :
    exec (.snapshot n k) s = .next (s.commit (if c.misaligned || decide (c.word 2 < 64) then s.complete n.val k.toNat 4 0
      else s.markStarted n.val k.toNat)) := by
  change execSnapshot n k s = _
  rw [execSnapshot, State.run_on _ hs, State.hostCmd_runs h]

theorem snapshot_starts (h : s.mayRun n.val k.toNat 13 c) :
    (c.misaligned = false → 64 ≤ c.word 2 → ∃ t, exec (.snapshot n k) s = .next t ∧ s.onlyChanges t [] [.rings] ∧
        (t.ring n.val).running = (s.ring n.val).running.map fun x => if x.cid = k.toNat then { x with started := true } else x) ∧
      (c.misaligned = true ∨ c.word 2 < 64 → ∃ t, exec (.snapshot n k) s = .next t ∧ s.completes t n.val k.toNat 4 0) := by
  have run := exec_snapshot hs h
  constructor
  · intro aligned large
    have good : (c.misaligned || decide (c.word 2 < 64)) = false := by
      rw [aligned, Bool.false_or]
      exact decide_eq_false (by omega)
    rw [good, if_neg Bool.false_ne_true] at run
    refine ⟨_, run, State.onlyChanges_commit ⟨s.sameRegs_same _, State.sameTabs_markStarted (s.sameTabs_same _) _ _, rfl⟩, ?_⟩
    rw [State.ring_commit]
    exact s.started_markStarted _ _
  · intro bad
    have refused : (c.misaligned || decide (c.word 2 < 64)) = true := by
      rcases bad with e | e <;> simp [e]
    rw [refused, if_pos rfl] at run
    exact ⟨_, run, State.completes_after rfl s _ _ _⟩

omit hs in
theorem length_padTo (m : Nat) (l : List Nat) : (padTo m l).length = m := by
  simp [padTo]
  omega

omit hs in
theorem State.length_snapDie (s : State) (d : Nat) : (s.snapDie d).length = 64 := by
  unfold State.snapDie
  dsimp only
  split <;> exact length_padTo _ _

omit hs in
theorem State.length_snapshot (s : State) : s.snapshot.length = 2592 := by
  have dies : ((upto 40).flatMap s.snapDie).length = 2560 := by
    rw [List.length_flatMap]
    simp [s.length_snapDie, upto]
  simp only [State.snapshot, List.length_append, dies, length_padTo]

/-- What a capture writes of the buffer. -/
def State.captured (s : State) (p : Port) (c : CmdRun) : HostWrite where
  port := p
  addr := c.dword 0
  words := (s.snapshot.take (min (c.word 2) 10368 / 4 * 4 / 4)).map w32

/-- The boundary at which a capture comes. -/
def State.atCapture (s : State) : State := s.advanceTo (ceilTo 250 s.now)

/-- The buffer of a capture, written. -/
def State.bufferWritten (s : State) (w : HostWrite) : State := { s with dma := s.dma ++ [w] }

omit hs in
theorem State.view_advanceTo (s : State) (t m : Nat) : (s.advanceTo t).ringView m = s.ringView m := by
  have ring : (s.advanceTo t).ring m = s.ring m :=
    State.advanceTo_other (fun s => s.ring m) (fun s r v => State.put_other (fun s => s.ring m) (by intros; rfl) (by intros; rfl) s r v)
      (by intros; rfl) (by intros; rfl) s t
  have dma : (s.advanceTo t).dma = s.dma :=
    State.advanceTo_other State.dma (fun s r v => State.put_other State.dma (by intros; rfl) (by intros; rfl) s r v)
      (by intros; rfl) (by intros; rfl) s t
  simp only [State.ringView, ring, dma, s.rd_advanceTo t _ _ (f := .hifRsStatState) (by decide), s.rd_advanceTo t _ _ (f := .hifRsSizesCpl) (by decide),
    s.rd_advanceTo t _ _ (f := .hifRsCplpi) (by decide), s.rd_advanceTo t _ _ (f := .hifRsCplbase) (by decide),
    s.rd_advanceTo t _ _ (f := .hifRsCtrlPort) (by decide), s.rd_advanceTo t _ _ (f := .hifRsCmdci) (by decide)]

omit hs in
theorem State.view_bufferWritten {m : State} {j : Nat} (h : m.ringView j = s.ringView j) (w : HostWrite) :
    (m.bufferWritten w).ringView j = (s.bufferWritten w).ringView j := by
  have mine : (m.bufferWritten w).ringView j = { m.ringView j with dma := (m.ringView j).dma ++ [w] } := rfl
  rw [mine, h]
  rfl

theorem exec_snapshotCapture
    (found : (s.ring n.val).running.find? (fun x => decide (x.cid = k.toNat) && decide (x.opcode = 13) && x.started) = some c) (ok : Bool) :
    exec (.snapshotCapture n k ok) s = .next (s.commit (if !ok then s.atCapture.complete n.val c.cid 7 0
      else (s.atCapture.bufferWritten (s.atCapture.captured (s.atCapture.ringPort n.val) c)).complete n.val c.cid
        (bit (decide (min (c.word 2) 10368 / 4 * 4 < 10368))) (min (c.word 2) 10368 / 4 * 4))) := by
  change execSnapshotCapture n k ok s = _
  rw [execSnapshotCapture, State.run_on _ hs]
  simp only [found]
  rfl

theorem snapshotCapture_writes
    (found : (s.ring n.val).running.find? (fun x => decide (x.cid = k.toNat) && decide (x.opcode = 13) && x.started) = some c) :
    (∃ t w, exec (.snapshotCapture n k true) s = .next t ∧ w.port = s.ringPort n.val ∧ w.addr = c.dword 0 ∧
        w.words.length = min (c.word 2) 10368 / 4 ∧
        ({ s with dma := s.dma ++ [w] }).completes t n.val c.cid (bit (decide (min (c.word 2) 10368 / 4 * 4 < 10368))) (min (c.word 2) 10368 / 4 * 4)) ∧
      ∃ t, exec (.snapshotCapture n k false) s = .next t ∧ s.completes t n.val c.cid 7 0 := by
  have view : s.atCapture.ringView n.val = s.ringView n.val := s.view_advanceTo _ _
  constructor
  · have run := exec_snapshotCapture hs found true
    rw [Bool.not_true, if_neg Bool.false_ne_true] at run
    refine ⟨_, s.atCapture.captured (s.atCapture.ringPort n.val) c, run, congrArg (fun w : RingView => hostPort w.port) view, rfl, ?_, ?_⟩
    · have size := s.atCapture.length_snapshot
      simp only [State.captured, List.length_map, List.length_take, size]
      omega
    · exact State.completes_after (s := s.bufferWritten _) (State.view_bufferWritten view _) s _ _ _
  · have run := exec_snapshotCapture hs found false
    rw [Bool.not_false, if_pos rfl] at run
    exact ⟨_, run, State.completes_after view s _ _ _⟩

/-! ## UPDATE and the policy blob (R203, R334, R338) -/

omit hs in
theorem State.view_program (s : State) (r : Nat) (ws : List Word) (m : Nat) : (s.program r ws).ringView m = s.ringView m := rfl

/-- A live update begun, before its stage is shown. -/
def State.updateBegun (s : State) (ws : List Word) : State :=
  let slot := 1 - s.sel.act
  { s with upd := { words := ws, slot, oldHall := s.active, accepted := false, swapAt := 0, quiet := false } }.program (3 + slot) []

/-- The number of the next update. -/
def State.nextUpdate (s : State) : Nat := (s.rd .fwcUpdNum + 1) % 256

/-- A live update numbered and in its first stage. -/
def State.updateStarted (s : State) (ws : List Word) : State :=
  (((s.updateBegun ws).wr .fwcUpdNum s.nextUpdate).wr .fwcUpdFailc 0).setStage 1

omit hs in
theorem event_view (s : State) (code sev unit : Nat) (part : Option Nat) (m : Nat) : (s.event code sev unit part).ringView m = s.ringView m := by
  unfold State.event
  split
  · rfl
  · exact s.view_wr _ _ _ _ rfl

omit hs in
theorem State.view_setStage (s : State) (v m : Nat) : (s.setStage v).ringView m = s.ringView m :=
  (event_view _ _ _ _ _ _).trans (s.view_wr _ _ _ _ rfl)

omit hs in
theorem State.rd_setStage (s : State) (v : Nat) {f : Field} (i j : Nat) (lost : .atcHeldlost ≠ f) :
    (s.setStage v).rd f i j = (s.wr .fwcUpdStage v).rd f i j := by
  change ((s.wr .fwcUpdStage v).event 2 0 0 none).rd f i j = _
  unfold State.event
  split
  · rfl
  · exact State.rd_wr_field _ _ _ _ _ _ lost

omit hs in
theorem State.upd_setStage (s : State) (v : Nat) : (s.setStage v).upd = s.upd :=
  (event_blind blind_upd (s.wr .fwcUpdStage v) 2 0 0 none).trans (State.put_other State.upd (by intros; rfl) (by intros; rfl) s _ v)

omit hs in
theorem State.upd_updateStarted (s : State) (ws : List Word) :
    (s.updateStarted ws).upd.words = ws ∧ (s.updateStarted ws).upd.slot = 1 - s.sel.act := by
  have upd : (s.updateStarted ws).upd = (s.updateBegun ws).upd := by
    rw [State.updateStarted, State.upd_setStage]
    exact (State.put_other State.upd (by intros; rfl) (by intros; rfl) _ _ _).trans
      (State.put_other State.upd (by intros; rfl) (by intros; rfl) _ _ _)
  rw [upd]
  exact ⟨rfl, rfl⟩

omit hs in
theorem State.num_updateStarted (s : State) (ws : List Word) :
    (s.updateStarted ws).rd .fwcUpdStage = 1 ∧ (s.updateStarted ws).rd .fwcUpdNum = s.nextUpdate := by
  constructor
  · rw [State.updateStarted, State.rd_setStage _ _ _ _ (by decide), State.rd_wr_same _ .fwcUpdStage _ _ _ rfl]
    rfl
  · rw [State.updateStarted, State.rd_setStage _ _ _ _ (by decide), State.rd_wr_field _ _ _ _ _ _ (by decide),
      State.rd_wr_field _ _ _ _ _ _ (by decide), State.rd_wr_same _ .fwcUpdNum _ _ _ rfl]
    exact Nat.mod_mod _ _

omit hs in
theorem State.view_updateStarted (s : State) (ws : List Word) (m : Nat) : (s.updateStarted ws).ringView m = s.ringView m := by
  rw [State.updateStarted, State.view_setStage, State.view_wr _ _ _ _ _ rfl, State.view_wr _ _ _ _ _ rfl]
  rfl

theorem exec_update (h : s.mayRun n.val k.toNat 14 c) (aligned : c.misaligned = false) (i : Image) :
    exec (.update n k (.data i)) s = .next (s.commit (if s.svc ≠ svcFull then s.complete n.val k.toNat 6 0
      else if wordAt i.words 0 = blobMagic then s.installBlob n.val k.toNat i.words
      else if 1 ≤ s.rd .fwcUpdStage && s.rd .fwcUpdStage ≤ 7 then s.complete n.val k.toNat 0 (s.rd .fwcUpdNum + 2 ^ 63)
      else (s.updateStarted i.words).complete n.val k.toNat 0 s.nextUpdate)) := by
  change execUpdate n k (.data i) s = _
  rw [execUpdate, State.run_on _ hs, State.hostCmd_runs h]
  simp only [aligned, Bool.false_eq_true, if_false]
  rfl

theorem update_starts (h : s.mayRun n.val k.toNat 14 c) (aligned : c.misaligned = false) (i : Image) :
    (s.svc ≠ svcFull → ∃ t, exec (.update n k (.data i)) s = .next t ∧ s.completes t n.val k.toNat 6 0) ∧
      (s.svc = svcFull → wordAt i.words 0 ≠ blobMagic → 1 ≤ s.rd .fwcUpdStage → s.rd .fwcUpdStage ≤ 7 →
        ∃ t, exec (.update n k (.data i)) s = .next t ∧ s.completes t n.val k.toNat 0 (s.rd .fwcUpdNum + 2 ^ 63) ∧ t.upd = s.upd) ∧
      (s.svc = svcFull → wordAt i.words 0 ≠ blobMagic → s.rd .fwcUpdStage = 0 →
        ∃ t, exec (.update n k (.data i)) s = .next t ∧ s.completes t n.val k.toNat 0 ((s.rd .fwcUpdNum + 1) % 256) ∧
          t.rd .fwcUpdStage = 1 ∧ t.rd .fwcUpdNum = (s.rd .fwcUpdNum + 1) % 256 ∧ t.upd.words = i.words ∧ t.upd.slot = 1 - s.sel.act) := by
  have run := exec_update hs h aligned i
  refine ⟨fun svc => ?_, fun svc image low high => ?_, fun svc image idle => ?_⟩
  · rw [if_pos svc] at run
    exact ⟨_, run, State.completes_after rfl s _ _ _⟩
  · rw [if_neg (not_not.2 svc), if_neg image, if_pos (by simp [low, high])] at run
    exact ⟨_, run, State.completes_after rfl s _ _ _, s.upd_complete _ _ _ _⟩
  · rw [if_neg (not_not.2 svc), if_neg image, if_neg (by simp [idle])] at run
    obtain ⟨words, slot⟩ := s.upd_updateStarted i.words
    obtain ⟨stage, num⟩ := s.num_updateStarted i.words
    have upd := (s.updateStarted i.words).upd_complete n.val k.toNat 0 s.nextUpdate
    refine ⟨_, run, State.completes_after (s.view_updateStarted _ _) s _ _ _, ?_, ?_, (congrArg _ upd).trans words, (congrArg _ upd).trans slot⟩
    · rw [State.rd_completed _ _ _ _ _ _ _ _ rfl (by decide) (by decide), stage]
    · rw [State.rd_completed _ _ _ _ _ _ _ _ rfl (by decide) (by decide), num, State.nextUpdate]

omit hs in
theorem State.region_program (s : State) (r : Nat) (ws : List Word) : (s.program r ws).region r = ws := by
  unfold State.region State.program
  dsimp only
  rw [Store.get_insert, if_pos rfl]

theorem policyInstall_installs (h : s.mayRun n.val k.toNat 14 c) (aligned : c.misaligned = false) (svc : s.svc = svcFull) (b : Blob) :
    ∃ t, exec (.policyInstall n k b) s = .next t ∧
      if blobValid b.words then s.completes t n.val k.toNat 0 0 ∧ t.region 2 = b.words.take (wordAt b.words 2 / 4)
      else s.completes t n.val k.toNat 4 0 ∧ t.flash = s.flash := by
  have run : exec (.policyInstall n k b) s = .next (s.commit (s.installBlob n.val k.toNat b.words)) := by
    change execPolicyInstall n k b s = _
    rw [execPolicyInstall, State.run_on _ hs, State.hostCmd_runs h]
    simp only [aligned, svc, ne_eq, not_true_eq_false, Bool.false_eq_true, if_false]
  rw [State.installBlob] at run
  refine ⟨_, run, ?_⟩
  by_cases valid : blobValid b.words = true
  · rw [if_pos valid, if_pos valid]
    refine ⟨State.completes_after (s.view_program _ _ _) s _ _ _, ?_⟩
    have flash := (s.program 2 (b.words.take (wordAt b.words 2 / 4))).flash_complete n.val k.toNat 0 0
    exact (congrArg (fun f : FlashState => Store.get Config.factoryFlash f.regions 2) flash).trans (s.region_program _ _)
  · rw [if_neg valid, if_neg valid]
    exact ⟨State.completes_after rfl s _ _ _, s.flash_complete _ _ _ _⟩

end Run

/-- Settles O51: each of the commands that take time. -/
theorem ringCommandsThatTakeTime : Obligations.RingCommandsThatTakeTime := by
  unfold Obligations.RingCommandsThatTakeTime
  intro s n k c hs
  exact ⟨fun h bound room => endjob_asks hs h bound room, fun h may => bind_asks hs h may, fun h few => setpolicy_asks hs h few,
    fun h => snapshot_starts hs h, fun found => snapshotCapture_writes hs found, fun i h aligned => update_starts hs h aligned i,
    fun b h aligned svc => policyInstall_installs hs h aligned svc b⟩

end Sys2Proof.Machine

/-!
Settles O52: a vector that moderation held, the mailboxes as each port posts, releases and reads them, and a link that changes.
-/

namespace Sys2Proof.Machine

/-! ## Vectors held by moderation (R316) -/

theorem exec_msixModerationExpiry_completion {s : State} (hs : s.aon = true) (v : Fin 32) (low : v.val < 16) (waits : (s.ring v.val).cplWaits = true) :
    exec (.msixModerationExpiry v) s = .next (s.commit
      ((s.advanceTo ((s.ring v.val).lastCpl.getD s.now + 1000 * s.rd .hifRsCtrlImod 0 v.val)).sendCpl v.val)) := by
  change execMsixModerationExpiry v s = _
  rw [execMsixModerationExpiry, State.run_on _ hs]
  simp only [low, waits, if_true]

theorem exec_msixModerationExpiry_telemetry {s : State} (hs : s.aon = true) (v : Fin 32) (high : 16 ≤ v.val)
    (waits : (s.ring (v.val - 16)).telWaits = true) :
    exec (.msixModerationExpiry v) s = .next (s.commit
      ((s.advanceTo ((s.ring (v.val - 16)).lastTel.getD s.now + 1000 * s.rd .hifRsCtrlImod 0 (v.val - 16))).sendTel (v.val - 16))) := by
  have second : ¬v.val < 16 := by omega
  change execMsixModerationExpiry v s = _
  rw [execMsixModerationExpiry, State.run_on _ hs]
  simp only [second, waits, if_false, if_true]

theorem State.now_sendVector (s : State) (p : Port) (v : Nat) : (s.sendVector p v).now = s.now :=
  State.sendVector_other (g := State.now) (by intros; rfl) (by intros; rfl) s p v

/-- A vector that its table does not mask goes out. -/
theorem State.out_sendVector {s : State} {p : Port} {v : Nat} (clear : s.msixWord p (4 * v + 3) % 2 = 0) :
    ∃ x, (s.sendVector p v).msixOut = s.msixOut ++ [x] ∧ x.vector = v := by
  rw [State.sendVector, if_neg (by omega)]
  exact ⟨_, rfl, rfl⟩

theorem State.sendCpl_sends (s : State) (n : Nat) :
    ((s.sendCpl n).ring n).cplWaits = false ∧ ((s.sendCpl n).ring n).lastCpl = some s.now ∧ (s.sendCpl n).now = s.now := by
  refine ⟨?_, ?_, s.now_sendVector _ _⟩ <;> rw [State.sendCpl, State.ring_updRing, if_pos rfl]

theorem State.sendTel_sends (s : State) (n : Nat) :
    ((s.sendTel n).ring n).telWaits = false ∧ ((s.sendTel n).ring n).lastTel = some s.now ∧ (s.sendTel n).now = s.now := by
  refine ⟨?_, ?_, s.now_sendVector _ _⟩ <;> rw [State.sendTel, State.ring_updRing, if_pos rfl]

theorem State.sameTabs_sendCpl {s m : State} (h : s.sameTabsBut m []) (n : Nat) : s.sameTabsBut (m.sendCpl n) [.rings, .msix] := by
  intro x hx
  have other : x ≠ .rings := fun e => hx (e ▸ List.mem_cons_self)
  have kept : s.sameIn (m.sendVector (m.ringPort n) n) x = s.sameIn m x :=
    State.sendVector_other (g := fun a => s.sameIn a x) (fun a y => s.sameIn_msix a y fun e => hx (by simp [e])) (fun _ _ => by cases x <;> rfl) m _ _
  rw [State.sendCpl, State.updRing, s.sameIn_rings _ _ other, kept]
  exact h x List.not_mem_nil

theorem State.msixWord_advanceTo (s : State) (t : Nat) (p : Port) (w : Nat) : (s.advanceTo t).msixWord p w = s.msixWord p w :=
  State.advanceTo_other (fun s => s.msixWord p w) (fun s r v => State.put_other (fun s => s.msixWord p w) (by intros; rfl) (by intros; rfl) s r v)
    (by intros; rfl) (by intros; rfl) s t

theorem State.msixOut_advanceTo (s : State) (t : Nat) : (s.advanceTo t).msixOut = s.msixOut :=
  State.advanceTo_other State.msixOut (fun s r v => State.put_other State.msixOut (by intros; rfl) (by intros; rfl) s r v)
    (by intros; rfl) (by intros; rfl) s t

theorem State.ringPort_advanceTo (s : State) (t n : Nat) : (s.advanceTo t).ringPort n = s.ringPort n := by
  rw [State.ringPort, s.rd_advanceTo _ _ _ (by decide), State.ringPort]

/-- A vector of a ring set that goes out after a wait. -/
theorem State.out_later (s : State) (t n v : Nat) (clear : s.msixWord (s.ringPort n) (4 * v + 3) % 2 = 0) :
    ∃ x, ((s.advanceTo t).sendVector ((s.advanceTo t).ringPort n) v).msixOut = s.msixOut ++ [x] ∧ x.vector = v := by
  rw [s.ringPort_advanceTo]
  rw [← s.msixWord_advanceTo t] at clear
  obtain ⟨x, out, vector⟩ := State.out_sendVector clear
  exact ⟨x, out.trans (by rw [s.msixOut_advanceTo]), vector⟩

theorem moderation_sendsCompletion {s : State} (hs : s.aon = true) (v : Fin 32) (low : v.val < 16) (waits : (s.ring v.val).cplWaits = true) :
    ∃ t, exec (.msixModerationExpiry v) s = .next t ∧
      (t.ring v.val).cplWaits = false ∧ (t.ring v.val).lastCpl = some t.now ∧ s.sameTabsBut t [.rings, .msix] ∧
      (∀ a, (s.ring v.val).lastCpl = some a → a + 1000 * s.rd .hifRsCtrlImod 0 v.val ≤ t.now) ∧
      (s.msixWord (s.ringPort v.val) (4 * v.val + 3) % 2 = 0 → ∃ x, t.msixOut = s.msixOut ++ [x] ∧ x.vector = v.val) := by
  have run := exec_msixModerationExpiry_completion hs v low waits
  generalize due : (s.ring v.val).lastCpl.getD s.now + 1000 * s.rd .hifRsCtrlImod 0 v.val = a at run
  obtain ⟨idle, sentAt, now⟩ := (s.advanceTo a).sendCpl_sends v.val
  have ends : (s.commit ((s.advanceTo a).sendCpl v.val)).now = (s.advanceTo a).now := by
    rw [State.commit_now, now, State.advanceTo_now]
    omega
  refine ⟨_, run, ?_, ?_, State.sameTabs_commit (State.sameTabs_sendCpl (s.sameTabs_advanceTo _) _), fun b hb => ?_, fun clear => ?_⟩
  · rw [State.ring_commit, idle]
  · rw [State.ring_commit, sentAt, ends]
  · rw [ends, State.advanceTo_now, ← due, hb, Option.getD_some]
    exact le_max_right _ _
  · exact s.out_later a v.val v.val clear

theorem moderation_sendsTelemetry {s : State} (hs : s.aon = true) (v : Fin 32) (high : 16 ≤ v.val)
    (waits : (s.ring (v.val - 16)).telWaits = true) :
    ∃ t, exec (.msixModerationExpiry v) s = .next t ∧
      (t.ring (v.val - 16)).telWaits = false ∧ (t.ring (v.val - 16)).lastTel = some t.now ∧
      (s.msixWord (s.ringPort (v.val - 16)) (4 * v.val + 3) % 2 = 0 → ∃ x, t.msixOut = s.msixOut ++ [x] ∧ x.vector = v.val) := by
  have run := exec_msixModerationExpiry_telemetry hs v high waits
  generalize (s.ring (v.val - 16)).lastTel.getD s.now + 1000 * s.rd .hifRsCtrlImod 0 (v.val - 16) = a at run
  obtain ⟨idle, sentAt, now⟩ := (s.advanceTo a).sendTel_sends (v.val - 16)
  have ends : (s.commit ((s.advanceTo a).sendTel (v.val - 16))).now = (s.advanceTo a).now := by
    rw [State.commit_now, now, State.advanceTo_now]
    omega
  refine ⟨_, run, ?_, ?_, fun clear => ?_⟩
  · rw [State.ring_commit, idle]
  · rw [State.ring_commit, sentAt, ends]
  · obtain ⟨x, out, vector⟩ := s.out_later a (v.val - 16) v.val clear
    have vectorNumber : v.val - 16 + 16 = v.val := Nat.sub_add_cancel high
    refine ⟨x, ?_, vector⟩
    change ((s.advanceTo a).sendVector _ (v.val - 16 + 16)).msixOut = _
    rw [vectorNumber]
    exact out

/-! ## A message posted (R317 to R320) -/

section
variable {α : Type} {g : State → α} (msix : ∀ s x, g { s with msix := x } = g s) (msixOut : ∀ s x, g { s with msixOut := x } = g s)
  (i3c : ∀ s x, g { s with i3c := x } = g s) (fwInt : ∀ s x, g { s with fwInt := x } = g s)
include msix msixOut i3c fwInt

theorem State.tellSender_other (s : State) (m : Nat) (released : Bool) : g (s.tellSender m released) = g s := by
  unfold State.tellSender
  split
  · exact State.sendVector_other msix msixOut s _ _
  · exact State.raiseIbi_other g i3c s _
  · exact fwInt s _

/-- A mailbox's receiver is told beside the registers that show the message. -/
theorem State.mbPost_other (s : State) (m : Nat) : g (s.mbPost m) = g (s.filled m) := by
  have again : g (if m = 0 && s.flag .hifMbStatFull 0 0 then (s.filled m).sendVector (s.filled m).mbPort 33 else s.filled m) = g (s.filled m) := by
    split
    · exact State.sendVector_other msix msixOut _ _ _
    · rfl
  unfold State.mbPost
  dsimp only
  split
  · exact (State.sendVector_other msix msixOut _ _ _).trans again
  · split
    · exact (State.raiseIbi_other g i3c _ _).trans again
    · exact (fwInt _ _).trans again

end

theorem State.mbParity_other {α : Type} {g : State → α} (bad : ∀ s x, g { s with mbBad := x } = g s) (inject : ∀ s x, g { s with inject := x } = g s)
    (s : State) (m : Nat) : g (s.mbParity m) = g s := by
  unfold State.mbParity
  split
  · exact (inject { s with mbBad := m :: s.mbBad.filter (· ≠ m) } _).trans (bad s _)
  · exact bad s _

theorem State.rd_mbPost (s : State) (m : Nat) (f : Field) (i j : Nat) : (s.mbPost m).rd f i j = (s.filled m).rd f i j :=
  State.mbPost_other (g := fun s => s.rd f i j) (by intros; rfl) (by intros; rfl) (by intros; rfl) (by intros; rfl) s m

theorem State.rd_mbParity (s : State) (m : Nat) (f : Field) (i j : Nat) : (s.mbParity m).rd f i j = s.rd f i j :=
  State.mbParity_other (g := fun s => s.rd f i j) (by intros; rfl) (by intros; rfl) s m

theorem mailbox_exists (m : Mbox) : (⟨.hifMbTag, 0, m.val⟩ : FieldRef).exists = true ∧ (⟨.hifMbStatFull, 0, m.val⟩ : FieldRef).exists = true ∧
    (⟨.hifMbStatCollision, 0, m.val⟩ : FieldRef).exists = true ∧ (⟨.hifMbStatPerr, 0, m.val⟩ : FieldRef).exists = true := by
  revert m
  decide

theorem State.rd_filled_other (s : State) (m : Nat) {f : Field} (i j : Nat) (full : .hifMbStatFull ≠ f) (collision : .hifMbStatCollision ≠ f) :
    (s.filled m).rd f i j = s.rd f i j := by
  rw [State.filled, State.rd_wr_field _ _ _ _ _ _ full]
  split
  · exact State.rd_wr_field _ _ _ _ _ _ collision
  · rfl

theorem State.flags_filled (s : State) (m : Mbox) : (s.filled m.val).flag .hifMbStatFull 0 m.val = true ∧
    (s.flag .hifMbStatFull 0 m.val = true → (s.filled m.val).flag .hifMbStatCollision 0 m.val = true) := by
  obtain ⟨-, full, collision, -⟩ := mailbox_exists m
  refine ⟨State.flag_wr_set _ full rfl, fun stood => ?_⟩
  rw [State.filled, if_pos stood, State.flag_wr_field _ _ _ _ _ _ (by decide)]
  exact State.flag_wr_set _ collision rfl

/-- A mailbox's tag and the parity of its message. -/
def State.tagged (s : State) (m tag : Nat) : State := (s.wr .hifMbTag tag 0 m).mbParity m

theorem State.rd_tagged_other (s : State) (m tag : Nat) {f : Field} (i j : Nat) (h : .hifMbTag ≠ f) : (s.tagged m tag).rd f i j = s.rd f i j := by
  rw [State.tagged, State.rd_mbParity, State.rd_wr_field _ _ _ _ _ _ h]

/-- What a message posted shows. -/
theorem State.posted_shows (s : State) (m : Mbox) (v : Word) :
    ((s.tagged m.val v.toNat).mbPost m.val).rd .hifMbTag 0 m.val = v.toNat ∧
      ((s.tagged m.val v.toNat).mbPost m.val).flag .hifMbStatFull 0 m.val = true ∧
      (s.flag .hifMbStatFull 0 m.val = true → ((s.tagged m.val v.toNat).mbPost m.val).flag .hifMbStatCollision 0 m.val = true) ∧
      ((s.tagged m.val v.toNat).mbPost m.val).rd .hifMbPtr 0 m.val = s.rd .hifMbPtr 0 m.val := by
  obtain ⟨tag, -, -, -⟩ := mailbox_exists m
  obtain ⟨full, collision⟩ := (s.tagged m.val v.toNat).flags_filled m
  have flag (f : Field) : ((s.tagged m.val v.toNat).mbPost m.val).flag f 0 m.val = ((s.tagged m.val v.toNat).filled m.val).flag f 0 m.val := by
    rw [State.flag, State.rd_mbPost, State.flag]
  have stood : (s.tagged m.val v.toNat).flag .hifMbStatFull 0 m.val = s.flag .hifMbStatFull 0 m.val := by
    rw [State.flag, State.rd_tagged_other _ _ _ _ _ (by decide), State.flag]
  refine ⟨?_, (flag _).trans full, fun h => (flag _).trans (collision (stood.trans h)), ?_⟩
  · rw [State.rd_mbPost, State.rd_filled_other _ _ _ _ (by decide) (by decide), State.tagged, State.rd_mbParity, State.rd_wr_same _ _ _ _ _ tag]
    exact Nat.mod_eq_of_lt v.isLt
  · rw [State.rd_mbPost, State.rd_filled_other _ _ _ _ (by decide) (by decide), State.rd_tagged_other _ _ _ _ _ (by decide)]

theorem State.resp_wrote (s : State) (p : Port) (base off : Nat) : ((s.wrote p base off).port p).resp = .ok := by
  have answered : ((s.answered p).port p).resp = .ok := by rw [State.answered, State.port_updPort, if_pos rfl]
  unfold State.wrote State.dropHeld
  split
  · split
    · exact answered
    · rw [State.setHeld, State.port_updPort, if_pos rfl]
      exact answered
  · exact answered

theorem State.port_posted (s : State) (m : Nat) (tag : Nat) (p : Port) : ((s.tagged m tag).mbPost m).port p = s.port p := by
  have post := State.mbPost_other (g := fun s => s.port p) (by intros; rfl) (by intros; rfl) (by intros; rfl) (by intros; rfl) (s.tagged m tag) m
  have wr (n : State) (f : Field) (v i j : Nat) : (n.wr f v i j).port p = n.port p :=
    State.put_other (fun s => s.port p) (by intros; rfl) (by intros; rfl) n _ v
  have filled (n : State) : (n.filled m).port p = n.port p := by
    unfold State.filled
    split
    · exact (wr _ _ _ _ _).trans (wr _ _ _ _ _)
    · exact wr _ _ _ _ _
  rw [post, filled, State.tagged, State.mbParity_other (g := fun s => s.port p) (by intros; rfl) (by intros; rfl), wr]

theorem State.receiverUp_wrote (s : State) (p : Port) (base off m : Nat) : (s.wrote p base off).receiverUp m = s.receiverUp m :=
  State.wrote_other (fun s => s.receiverUp m) (by intros; rfl) s p base off

theorem exec_mailboxPost {s : State} (hs : s.aon = true) (p : Port) (m : Mbox) (v : Word) :
    exec (.mailboxPost p m v) s = .next (s.commit (if isSender p m.val && !s.receiverUp m.val then s.mbDown p
      else if mayPost p m.val then (s.wrote p hifBase (0x608 + 0x20 * m.val)).mailboxPost p m.val v.toNat
      else s.answered p)) :=
  State.run_on (fun s => if isSender p m.val && !s.receiverUp m.val then s.mbDown p
    else if mayPost p m.val then (s.wrote p hifBase (0x608 + 0x20 * m.val)).mailboxPost p m.val v.toNat else s.answered p) hs

theorem mailboxPost_posts {s : State} (hs : s.aon = true) (p : Port) (m : Mbox) (v : Word) (may : mayPost p m.val = true)
    (up : s.receiverUp m.val = true) :
    ∃ t, exec (.mailboxPost p m v) s = .next t ∧ t.rd .hifMbTag 0 m.val = v.toNat ∧
      t.flag .hifMbStatFull 0 m.val = true ∧ (s.flag .hifMbStatFull 0 m.val = true → t.flag .hifMbStatCollision 0 m.val = true) ∧
      (t.port p).resp = .ok ∧ t.rd .hifMbPtr 0 m.val = s.rd .hifMbPtr 0 m.val := by
  have run := exec_mailboxPost hs p m v
  have posted : (s.wrote p hifBase (0x608 + 0x20 * m.val)).mailboxPost p m.val v.toNat =
      ((s.wrote p hifBase (0x608 + 0x20 * m.val)).tagged m.val v.toNat).mbPost m.val := by
    rw [State.mailboxPost, may, s.receiverUp_wrote, up]
    rfl
  rw [up, Bool.not_true, Bool.and_false, if_neg Bool.false_ne_true, if_pos may, posted] at run
  have rd (f : Field) (j : Nat) : (s.wrote p hifBase (0x608 + 0x20 * m.val)).rd f 0 j = s.rd f 0 j :=
    State.wrote_other (fun s => s.rd f 0 j) (by intros; rfl) s p _ _
  have resp := s.resp_wrote p hifBase (0x608 + 0x20 * m.val)
  have stood : (s.wrote p hifBase (0x608 + 0x20 * m.val)).flag .hifMbStatFull 0 m.val = s.flag .hifMbStatFull 0 m.val := State.flag_wrote _ _ _ _ _ _ _
  generalize s.wrote p hifBase (0x608 + 0x20 * m.val) = n at run rd resp stood
  obtain ⟨tag, full, collision, ptr⟩ := n.posted_shows m v
  refine ⟨_, run, ?_, ?_, fun h => ?_, ?_, ?_⟩
  · rw [State.rd_commit _ _ _ _ _ rfl, tag]
  · rw [State.flag, State.rd_commit _ _ _ _ _ rfl]
    exact full
  · rw [State.flag, State.rd_commit _ _ _ _ _ rfl]
    exact collision (stood.trans h)
  · rw [State.port_commit, n.port_posted, resp]
  · rw [State.rd_commit _ _ _ _ _ rfl, ptr, rd]

theorem mailboxPost_hostDown {s : State} (hs : s.aon = true) (p : Port) (m : Mbox) (v : Word) (may : mayPost p m.val = true)
    (down : s.receiverUp m.val = false) (host : p.isHost = true) :
    ∃ t, exec (.mailboxPost p m v) s = .next t ∧ t.flag .hifStatusMbdown = true ∧ s.onlyChanges t [⟨.hifStatusMbdown, 0, 0⟩] [] := by
  have sender : isSender p m.val = true := by
    have notControl : decide (p = .cc) = false := by
      refine decide_eq_false ?_
      rintro rfl
      exact absurd host (by decide)
    rwa [mayPost, notControl, Bool.or_false] at may
  have run := exec_mailboxPost hs p m v
  rw [sender, down, Bool.not_false, Bool.and_self, if_pos rfl, State.mbDown, if_pos host] at run
  refine ⟨_, run, ?_, State.onlyChanges_commit (State.onlyChanges_wr (s.onlyChanges_refl _ _) _ _ _ _ List.mem_cons_self)⟩
  rw [State.flag, State.rd_commit _ _ _ _ _ rfl]
  exact State.flag_wr_one s (f := .hifStatusMbdown) rfl rfl

/-- A port that meets an error. -/
theorem State.erred_answers {s n : State} {l : List FieldRef} (h : s.onlyChanges n l [.ports]) (p : Port) (tray : p.isHost = false) :
    ((s.commit (n.mbDown p)).port p).resp = .error ∧ s.onlyChanges (s.commit (n.mbDown p)) l [.ports] := by
  rw [State.mbDown, tray, if_neg Bool.false_ne_true]
  refine ⟨?_, State.onlyChanges_commit (State.onlyChanges_ports h _ List.mem_cons_self)⟩
  rw [State.port_commit, State.port_updPort, if_pos rfl]

theorem mailboxPost_trayDown {s : State} (hs : s.aon = true) (p : Port) (m : Mbox) (v : Word) (may : mayPost p m.val = true)
    (down : s.receiverUp m.val = false) (tray : p.isHost = false) :
    ∃ t, exec (.mailboxPost p m v) s = .next t ∧ (t.port p).resp = .error ∧ s.onlyChanges t [] [.ports] := by
  have run := exec_mailboxPost hs p m v
  rw [down, Bool.not_false, Bool.and_true, if_pos may, State.mailboxPost, may, s.receiverUp_wrote, down, Bool.not_true, Bool.not_false,
    if_neg Bool.false_ne_true, if_pos rfl] at run
  cases sender : isSender p m.val with
  | true =>
    rw [sender, if_pos rfl] at run
    exact ⟨_, run, State.erred_answers (s.onlyChanges_refl _ _) p tray⟩
  | false =>
    rw [sender, if_neg Bool.false_ne_true] at run
    exact ⟨_, run, State.erred_answers (s.onlyChanges_wrote p _ _ _) p tray⟩

theorem mailboxPost_unreached {s : State} (hs : s.aon = true) (p : Port) (m : Mbox) (v : Word) (may : mayPost p m.val = false) :
    ∃ t, exec (.mailboxPost p m v) s = .next t ∧ s.onlyChanges t [] [.ports] := by
  have run := exec_mailboxPost hs p m v
  obtain ⟨other, -⟩ := (Bool.or_eq_false_iff).1 may
  rw [other, Bool.false_and, if_neg Bool.false_ne_true, may, if_neg Bool.false_ne_true] at run
  exact ⟨_, run, State.onlyChanges_commit (s.onlyChanges_answered p [])⟩

/-! ## A message released (R319) -/

theorem exec_mailboxRelease {s : State} (hs : s.aon = true) (p : Port) (m : Mbox) :
    exec (.mailboxRelease p m) s = .next (s.commit (if mayRelease p m.val then
      (s.wrote p hifBase (0x60C + 0x20 * m.val)).mailboxRelease p m.val else s.answered p)) :=
  State.run_on (fun s => if mayRelease p m.val then (s.wrote p hifBase (0x60C + 0x20 * m.val)).mailboxRelease p m.val else s.answered p) hs

theorem mailboxRelease_frees {s : State} (hs : s.aon = true) (p : Port) (m : Mbox) (may : mayRelease p m.val = true)
    (full : s.flag .hifMbStatFull 0 m.val = true) :
    ∃ t, exec (.mailboxRelease p m) s = .next t ∧
      t.flag .hifMbStatFull 0 m.val = false ∧ s.sameRegsBut t [⟨.hifMbStatFull, 0, m.val⟩] := by
  have run := exec_mailboxRelease hs p m
  have regs (n : State) (r : FieldRef) : (n.tellSender m.val true).reg r = n.reg r :=
    State.tellSender_other (g := fun s => s.reg r) (by intros; rfl) (by intros; rfl) (by intros; rfl) (by intros; rfl) n m.val true
  rw [if_pos may, State.mailboxRelease, may, State.flag_wrote, full, Bool.and_self, if_pos rfl] at run
  refine ⟨_, run, ?_, State.sameRegs_commit fun r hr => ?_⟩
  · rw [State.flag, State.rd_commit _ _ _ _ _ rfl, State.rd_tellSender, State.rd_wr_zero]
    rfl
  · rw [regs]
    exact State.sameRegs_wr (s.onlyChanges_wrote p _ _ _).1 _ _ _ _ List.mem_cons_self r hr

theorem mailboxRelease_idles {s : State} (hs : s.aon = true) (p : Port) (m : Mbox)
    (no : mayRelease p m.val = false ∨ s.flag .hifMbStatFull 0 m.val = false) :
    ∃ t, exec (.mailboxRelease p m) s = .next t ∧ s.onlyChanges t [] [.ports] := by
  have run := exec_mailboxRelease hs p m
  cases may : mayRelease p m.val with
  | false =>
    rw [may, if_neg Bool.false_ne_true] at run
    exact ⟨_, run, State.onlyChanges_commit (s.onlyChanges_answered p [])⟩
  | true =>
    have empty : s.flag .hifMbStatFull 0 m.val = false := by simpa [may] using no
    rw [may, if_pos rfl, State.mailboxRelease, may, State.flag_wrote, empty, Bool.and_false, if_neg Bool.false_ne_true] at run
    exact ⟨_, run, State.onlyChanges_commit (s.onlyChanges_wrote p _ _ _)⟩

/-! ## A message read (R321, R322) -/

/-- The offset of a mailbox's TAG or PTR, and the element that stands there. -/
def mbOff (m : Nat) (tag : Bool) : Nat := 0x600 + 0x20 * m + if tag then 8 else 0
def mbRef (m : Nat) (tag : Bool) : FieldRef := if tag then ⟨.hifMbTag, 0, m⟩ else ⟨.hifMbPtr, 0, m⟩

/-- The address of that word. -/
def mbWord (m : Nat) (tag : Bool) : Nat := mbAddr m + if tag then 8 else 0

theorem mbWord_place (m : Mbox) (tag : Bool) : mbWord m.val tag % 4 = 0 ∧ locate (mbWord m.val tag) = some (.hif, 0, mbOff m.val tag) ∧
    mboxOf .hif (mbOff m.val tag) = some m.val ∧ mbOff m.val tag % 0x20 = (if tag then 8 else 0) ∧ (mbRef m.val tag).exists = true := by
  revert m tag
  decide

theorem reaches_mbox (p : Port) (m : Mbox) (tag : Bool) : reaches p .hif (mbOff m.val tag) = reaches p .hif (0x600 + 0x20 * m.val) := by
  revert m tag
  cases p <;> decide

theorem pieces_mbox (p : Port) (m : Mbox) (tag : Bool) : pieces p .hif 0 (mbOff m.val tag) = [⟨mbRef m.val tag, 0, 0⟩] := by
  revert m tag
  cases p <;> decide +kernel

theorem State.shown_mbox (s : State) (m : Mbox) (tag : Bool) : s.shown (mbRef m.val tag) = s.reg (mbRef m.val tag) := by
  obtain ⟨-, -, -, -, here⟩ := mbWord_place m tag
  cases tag <;> simp only [State.shown, here] <;> rfl

theorem State.peek_mbox (s : State) (p : Port) (m : Mbox) (tag : Bool) :
    s.peek p (mbWord m.val tag) = s.reg (mbRef m.val tag) % 2 ^ 32 := by
  obtain ⟨-, place, -, -, -⟩ := mbWord_place m tag
  have plain : s.msixRead p (mbOff m.val tag) = none := by
    have below : mbOff m.val tag < 0xC00 := by
      have last := m.isLt
      unfold mbOff
      split <;> omega
    simp [State.msixRead, Nat.not_le.2 below, show mbOff m.val tag ≠ 0xE80 by omega, show mbOff m.val tag ≠ 0xE84 by omega]
  have word : s.blockWord p .hif 0 (mbOff m.val tag) = s.reg (mbRef m.val tag) % 2 ^ 32 := by
    rw [State.blockWord, pieces_mbox, List.foldl_cons, List.foldl_nil, State.pieceBits, s.shown_mbox]
    simp
  simp only [State.peek, place, plain, Option.getD_none, word]

theorem halfOf_mbox (p : Port) (m : Mbox) (tag : Bool) : halfOf p .hif 0 (mbOff m.val tag) = if tag then none else some 0 := by
  revert m tag
  cases p <;> decide +kernel

theorem State.readValue_mbox (s : State) (p : Port) (m : Mbox) (tag : Bool) :
    s.readValue p .hif 0 (mbOff m.val tag) (mbWord m.val tag) = s.reg (mbRef m.val tag) % 2 ^ 32 := by
  have lower : halfOf p .hif 0 (mbOff m.val tag) ≠ some 1 := by
    rw [halfOf_mbox]
    cases tag <;> decide
  rw [State.readValue, if_neg lower, s.peek_mbox]

/-- A port with the upper half of the word latched, where it has one. -/
def State.mbLatched (s : State) (p : Port) (m : Nat) (tag : Bool) : State := s.latchUpper p .hif 0 (mbOff m tag) (mbWord m tag)

theorem State.onlyChanges_mbLatched (s : State) (p : Port) (m : Nat) (tag : Bool) : s.onlyChanges (s.mbLatched p m tag) [] [.ports] := by
  unfold State.mbLatched State.latchUpper
  split
  · exact State.onlyChanges_ports (s.onlyChanges_refl _ _) _ List.mem_cons_self
  · exact s.onlyChanges_refl _ _

theorem State.clearOnRead_mbox (s : State) (p : Port) (m : Mbox) (tag : Bool) (hw : HwBits) :
    (pieces p .hif 0 (mbOff m.val tag)).foldl (fun s x => s.clearOnRead x.ref (x.hw hw)) s = s := by
  have kind : (fieldDef (mbRef m.val tag).f).kind ≠ .rc := by
    cases tag with
    | false => exact (by decide : (fieldDef .hifMbPtr).kind ≠ .rc)
    | true => exact (by decide : (fieldDef .hifMbTag).kind ≠ .rc)
  rw [pieces_mbox, List.foldl_cons, List.foldl_nil]
  exact if_pos (decide_eq_true kind)

theorem State.readActs_mbox (s : State) (p : Port) (m : Mbox) (tag : Bool) :
    s.readActs p .hif 0 (mbOff m.val tag) none = s.mailboxRead p m.val tag := by
  obtain ⟨-, -, box, word, -⟩ := mbWord_place m tag
  unfold State.readActs
  rw [State.clearOnRead_mbox, box, word]
  cases tag <;> rfl

theorem State.busRead_mbox (s : State) (p : Port) (m : Mbox) (tag : Bool) :
    s.busRead p (mbWord m.val tag) 4 none =
      if !reaches p .hif (0x600 + 0x20 * m.val) then s.returns p 0
      else if isSender p m.val && !s.receiverUp m.val then s.updPort p fun x => { x with resp := .error }
      else ((s.mbLatched p m.val tag).mailboxRead p m.val tag).returns p (s.reg (mbRef m.val tag) % 2 ^ 32) := by
  obtain ⟨aligned, place, box, -, -⟩ := mbWord_place m tag
  have meets : s.meetsDown p .hif (mbOff m.val tag) = (isSender p m.val && !s.receiverUp m.val) := by
    simp only [State.meetsDown, box]
  have word : readBytes (mbWord m.val tag) 4 (s.reg (mbRef m.val tag) % 2 ^ 32) = s.reg (mbRef m.val tag) % 2 ^ 32 := by
    simp [readBytes, aligned]
  simp only [State.busRead, aligned, Nat.sub_zero, place, reaches_mbox, meets, s.readValue_mbox, State.readActs_mbox, word, State.mbLatched]

theorem exec_mailboxRead {s : State} (hs : s.aon = true) (p : Port) (m : Mbox) (tag : Bool) :
    exec (.mailboxRead p m tag) s = .next (s.commit (s.busRead p (mbWord m.val tag) 4 none)) :=
  State.run_on (fun s => s.busRead p (mbWord m.val tag) 4 none) hs

/-- A message whose parity is bad, taken by its receiver. -/
def State.mbBroken (s : State) (m : Nat) : State :=
  ({ s with mbBad := s.mbBad.filter (· ≠ m) }.wr .hifMbStatPerr 1 0 m).wr .hifMbStatFull 0 0 m

/-- The fault of such a message. -/
def State.mbFault (s : State) (m : Nat) (tag : Bool) : FaultRec := corr 6 1 (unitOf (36 + s.active) m) 1 (mbAddr m + if tag then 8 else 0)

theorem State.mailboxRead_bad {s : State} {p : Port} {m : Nat} (tag : Bool) (receiver : isReceiver p m = true) (bad : m ∈ s.mbBad) :
    s.mailboxRead p m tag = ((s.mbBroken m).tellSender m false).raise (s.mbFault m tag) := by
  have found : (isReceiver p m && s.mbBad.contains m) = true := by simp [receiver, bad]
  rw [State.mailboxRead, if_pos found]
  rfl

theorem State.mailboxRead_good {s : State} {p : Port} {m : Nat} (tag : Bool) (good : isReceiver p m = false ∨ m ∉ s.mbBad) :
    s.mailboxRead p m tag = s := by
  have clean : (isReceiver p m && s.mbBad.contains m) = false := by
    rcases good with e | e <;> simp [e]
  rw [State.mailboxRead, clean, if_neg Bool.false_ne_true]

theorem State.mbBad_wr (s : State) (f : Field) (v i j : Nat) : (s.wr f v i j).mbBad = s.mbBad :=
  State.put_other State.mbBad (by intros; rfl) (by intros; rfl) s _ v

theorem State.gone_mbBroken (s : State) (m : Nat) : m ∉ (s.mbBroken m).mbBad := by
  rw [State.mbBroken, State.mbBad_wr, State.mbBad_wr]
  simp

theorem State.full_raise_corrected (s : State) {x : FaultRec} (mild : x.cls = .corrected) (m : Nat) :
    (s.raise x).rd .hifMbStatFull 0 m = s.rd .hifMbStatFull 0 m := by
  have event (n : State) (a b c : Nat) (p : Option Nat) : (n.event a b c p).rd .hifMbStatFull 0 m = n.rd .hifMbStatFull 0 m := by
    unfold State.event
    split
    · rfl
    · exact State.rd_wr_field _ _ _ _ _ _ (by decide)
  have captured (n : State) : (n.capture x).rd .hifMbStatFull 0 m = n.rd .hifMbStatFull 0 m := by
    unfold State.capture
    dsimp only
    split
    · exact State.rd_wr_field _ _ _ _ _ _ (by decide)
    · exact State.rd_puts_other _ _ _ (by simp)
  rw [s.raise_corrected mild, event, captured]
  simp only [State.countFault, mild, State.count]
  rw [State.rd_wr_field _ _ _ _ _ _ (by decide), State.rd_wr_field _ _ _ _ _ _ (by decide)]

/-- What a message with bad parity leaves: PERR, an empty mailbox and a CORRECTED fault. -/
theorem State.mailboxRead_breaks (s : State) (m : Mbox) {x : FaultRec} (mild : x.cls = .corrected) :
    (((s.mbBroken m.val).tellSender m.val false).raise x).flag .hifMbStatPerr 0 m.val = true ∧
      (((s.mbBroken m.val).tellSender m.val false).raise x).flag .hifMbStatFull 0 m.val = false ∧
      m.val ∉ (((s.mbBroken m.val).tellSender m.val false).raise x).mbBad ∧
      (((s.mbBroken m.val).tellSender m.val false).raise x).rd .fltCorr = s.oneUp .fltCorr := by
  obtain ⟨-, -, -, perr⟩ := mailbox_exists m
  have notFatal : x.cls ≠ .fatal := by rw [mild]; exact FaultClass.noConfusion
  refine ⟨?_, ?_, ?_, ?_⟩
  · rw [State.flag, rd_raise _ _ _ _ _ notFatal rfl, State.rd_tellSender, State.mbBroken, State.rd_wr_field _ _ _ _ _ _ (by decide)]
    exact State.flag_wr_set _ perr rfl
  · rw [State.flag, State.full_raise_corrected _ mild, State.rd_tellSender, State.mbBroken, State.rd_wr_zero]
    rfl
  · have raised := State.raise_corrected_other (g := State.mbBad) (by intros; rfl) (by intros; rfl) (by intros; rfl)
      ((s.mbBroken m.val).tellSender m.val false) mild
    have told := State.tellSender_other (g := State.mbBad) (by intros; rfl) (by intros; rfl) (by intros; rfl) (by intros; rfl) (s.mbBroken m.val) m.val
      false
    rw [raised, told]
    exact s.gone_mbBroken m.val
  · rw [State.fltCorr_raise_corrected _ mild, State.oneUp, State.rd_tellSender, State.mbBroken, State.rd_wr_field _ _ _ _ _ _ (by decide),
      State.rd_wr_field _ _ _ _ _ _ (by decide), State.oneUp]
    rfl

theorem State.reg_mbRef (s : State) (m : Nat) (tag : Bool) : s.reg (mbRef m tag) = if tag then s.rd .hifMbTag 0 m else s.rd .hifMbPtr 0 m := by
  cases tag <;> rfl

theorem State.resp_returns (s : State) (p : Port) (v : Nat) : ((s.returns p v).port p).resp = .ok := by
  rw [State.returns, State.port_updPort, if_pos rfl]

theorem mailboxRead_reads {s : State} (hs : s.aon = true) (p : Port) (m : Mbox) (b : Bool) (reach : reaches p .hif (0x600 + 0x20 * m.val) = true)
    (free : isSender p m.val = false ∨ s.receiverUp m.val = true) :
    ∃ t, exec (.mailboxRead p m b) s = .next t ∧ (t.port p).resp = .ok ∧
      (t.port p).rdata = (if b then s.rd .hifMbTag 0 m.val else s.rd .hifMbPtr 0 m.val) % 2 ^ 32 ∧
      (isReceiver p m.val = false ∨ m.val ∉ s.mbBad → s.onlyChanges t [] [.ports]) ∧
      (isReceiver p m.val = true → m.val ∈ s.mbBad → t.flag .hifMbStatPerr 0 m.val = true ∧ t.flag .hifMbStatFull 0 m.val = false ∧
        m.val ∉ t.mbBad ∧ t.rd .fltCorr = s.oneUp .fltCorr) := by
  have run := exec_mailboxRead hs p m b
  have up : (isSender p m.val && !s.receiverUp m.val) = false := by
    rcases free with e | e <;> simp [e]
  rw [s.busRead_mbox, reach, Bool.not_true, if_neg Bool.false_ne_true, up, if_neg Bool.false_ne_true] at run
  have latched := s.onlyChanges_mbLatched p m.val b
  have bad : (s.mbLatched p m.val b).mbBad = s.mbBad := s.mbBad_latchUpper _ _ _ _ _
  have corrected : (s.mbLatched p m.val b).rd .fltCorr = s.rd .fltCorr := latched.1 _ List.not_mem_nil
  generalize s.mbLatched p m.val b = n at run latched bad corrected
  refine ⟨_, run, ?_, ?_, fun good => ?_, fun receiver broken => ?_⟩
  · rw [State.port_commit, State.resp_returns]
  · rw [State.port_commit, State.rdata_returns, s.reg_mbRef]
  · rw [← bad] at good
    rw [State.mailboxRead_good b good]
    exact State.onlyChanges_commit (State.onlyChanges_returns latched p _)
  · rw [← bad] at broken
    rw [State.mailboxRead_bad b receiver broken]
    obtain ⟨perr, full, gone, count⟩ := n.mailboxRead_breaks m (x := n.mbFault m.val b) rfl
    generalize ((n.mbBroken m.val).tellSender m.val false).raise (n.mbFault m.val b) = broke at perr full gone count
    refine ⟨?_, ?_, gone, ?_⟩
    · rw [State.flag, State.rd_commit _ _ _ _ _ rfl]
      exact perr
    · rw [State.flag, State.rd_commit _ _ _ _ _ rfl]
      exact full
    · rw [State.rd_commit _ _ _ _ _ rfl, State.oneUp, ← corrected]
      exact count

theorem mailboxRead_down {s : State} (hs : s.aon = true) (p : Port) (m : Mbox) (b : Bool) (reach : reaches p .hif (0x600 + 0x20 * m.val) = true)
    (sender : isSender p m.val = true) (down : s.receiverUp m.val = false) :
    ∃ t, exec (.mailboxRead p m b) s = .next t ∧ (t.port p).resp = .error ∧ s.onlyChanges t [] [.ports] := by
  have run := exec_mailboxRead hs p m b
  rw [s.busRead_mbox, reach, Bool.not_true, if_neg Bool.false_ne_true, sender, down, Bool.not_false, Bool.and_self, if_pos rfl] at run
  refine ⟨_, run, ?_, State.onlyChanges_commit (State.onlyChanges_ports (s.onlyChanges_refl _ _) _ List.mem_cons_self)⟩
  rw [State.port_commit, State.port_updPort, if_pos rfl]

theorem mailboxRead_unreached {s : State} (hs : s.aon = true) (p : Port) (m : Mbox) (b : Bool)
    (reach : reaches p .hif (0x600 + 0x20 * m.val) = false) :
    ∃ t, exec (.mailboxRead p m b) s = .next t ∧ (t.port p).rdata = 0 ∧ s.onlyChanges t [] [.ports] := by
  have run := exec_mailboxRead hs p m b
  rw [s.busRead_mbox, reach, Bool.not_false, if_pos rfl] at run
  refine ⟨_, run, ?_, State.onlyChanges_commit (State.onlyChanges_returns (s.onlyChanges_refl _ _) p _)⟩
  rw [State.port_commit, State.rdata_returns]

/-! ## Links (R323) -/

theorem pcieLinkChange_shown {s : State} (hs : s.aon = true) (h : Hall) (u : Bool) :
    ∃ t, exec (.pcieLinkChange h u) s = .next t ∧
      t.rd (if h.val = 0 then .hifPortstLink0 else .hifPortstLink1) = bit u ∧
      s.onlyChanges t [⟨if h.val = 0 then .hifPortstLink0 else .hifPortstLink1, 0, 0⟩] [] := by
  have run : exec (.pcieLinkChange h u) s = .next (s.commit (s.wr (if h.val = 0 then .hifPortstLink0 else .hifPortstLink1) (bit u))) :=
    State.run_on (fun s => s.wr (if h.val = 0 then .hifPortstLink0 else .hifPortstLink1) (bit u)) hs
  refine ⟨_, run, ?_, State.onlyChanges_commit (State.onlyChanges_wr (s.onlyChanges_refl _ _) _ _ _ _ List.mem_cons_self)⟩
  have small : bit u % 2 ^ 1 = bit u := by cases u <;> rfl
  split
  · rw [State.rd_commit _ _ _ _ _ rfl, State.rd_wr_same _ _ _ _ _ rfl]
    exact small
  · rw [State.rd_commit _ _ _ _ _ rfl, State.rd_wr_same _ _ _ _ _ rfl]
    exact small

/-- Settles O52: each event of a moderated vector, a mailbox and a link. -/
theorem moderationMailboxesAndLinks : Obligations.ModerationMailboxesAndLinks := by
  unfold Obligations.ModerationMailboxesAndLinks
  intro s p m hs
  refine ⟨fun v low waits => moderation_sendsCompletion hs v low waits, fun v high waits => moderation_sendsTelemetry hs v high waits,
    fun v may => ⟨fun up => mailboxPost_posts hs p m v may up, fun down host => mailboxPost_hostDown hs p m v may down host,
      fun down tray => mailboxPost_trayDown hs p m v may down tray⟩, fun v no => mailboxPost_unreached hs p m v no,
    fun may full => mailboxRelease_frees hs p m may full, fun no => mailboxRelease_idles hs p m no,
    fun b reach free => mailboxRead_reads hs p m b reach free, fun b reach sender down => mailboxRead_down hs p m b reach sender down,
    fun b reach => mailboxRead_unreached hs p m b reach, fun h u => pcieLinkChange_shown hs h u⟩

end Sys2Proof.Machine

/-!
Settles O55: trace records drained into the trace ring, its vector and its consumer index, and a wait that is traced.
-/

namespace Sys2Proof.Machine

/-! ## A record drained (R355, R356) -/

/-- A die agent's oldest record, taken. -/
def State.traceTaken (s : State) (d : Nat) (rest : List TraceRec) : State :=
  (s.updDie d fun y => { y with trace := rest, traceTokens := y.traceTokens - 222 }).wr .dagTrcocc rest.length d

theorem exec_traceDrain {s : State} (hs : s.aon = true) (d : Die) {r : TraceRec} {l : List TraceRec} (waits : (s.die d.val).trace = r :: l)
    (on : s.traceOn = true) (serves : (s.die d.val).steward = false) (powered : (s.die d.val).powered = true)
    (tokens : 222 ≤ (s.die d.val).traceTokens) :
    exec (.traceDrain d) s = .next (s.commit
      (if ringFree (ringSize (s.rd .obsTrccfgSize)) (s.rd .obsTrcpi) s.tring.ci = 0 then s.wr .obsTrcfull 1
      else (s.traceTaken d.val l).putTrace d.val r)) := by
  have enough : ¬(s.die d.val).traceTokens < 222 := by omega
  change execTraceDrain d s = _
  rw [execTraceDrain, State.run_on _ hs]
  simp only [waits, on, serves, powered, enough, Bool.not_true, decide_false, Bool.or_self, Bool.false_eq_true, if_false]
  rfl

/-- A record in the trace ring moves the producer index, the ring's own state, the host's memory and vectors. -/
theorem State.putTrace_other {α : Type} {g : State → α} (dma : ∀ s x, g { s with dma := x } = g s) (tring : ∀ s x, g { s with tring := x } = g s)
    (msix : ∀ s x, g { s with msix := x } = g s) (msixOut : ∀ s x, g { s with msixOut := x } = g s)
    (pi : ∀ s v, g (State.wr s .obsTrcpi v) = g s) (s : State) (d : Nat) (r : TraceRec) : g (s.putTrace d r) = g s := by
  unfold State.putTrace
  dsimp only
  split
  · exact (State.sendVector_other msix msixOut _ _ _).trans ((tring _ _).trans ((pi _ _).trans (dma s _)))
  · exact (tring _ _).trans ((pi _ _).trans (dma s _))

theorem State.dma_putTrace (s : State) (d : Nat) (r : TraceRec) :
    (s.putTrace d r).dma = s.dma ++
      [{ port := s.ringPort (s.rd .obsPrivRs), addr := s.rd .obsTrcbase + 16 * s.rd .obsTrcpi + 4, words := w32 r.b :: w64 r.time },
       { port := s.ringPort (s.rd .obsPrivRs), addr := s.rd .obsTrcbase + 16 * s.rd .obsTrcpi
         words := [w32 (r.word0 d + bit s.tring.phase)] }] := by
  unfold State.putTrace
  dsimp only
  split
  · rw [State.sendVector_other (g := State.dma) (by intros; rfl) (by intros; rfl)]
    exact State.dma_wr _ _ _ _ _
  · exact State.dma_wr _ _ _ _ _

theorem State.sameRegs_putTrace {s m : State} {l : List FieldRef} (h : s.sameRegsBut m l) (listed : (⟨.obsTrcpi, 0, 0⟩ : FieldRef) ∈ l) (d : Nat)
    (r : TraceRec) : s.sameRegsBut (m.putTrace d r) l := by
  intro x hx
  have other : (⟨.obsTrcpi, 0, 0⟩ : FieldRef) ≠ x := fun e => hx (e ▸ listed)
  have kept : (m.putTrace d r).reg x = m.reg x :=
    State.putTrace_other (g := fun s => s.reg x) (by intros; rfl) (by intros; rfl) (by intros; rfl) (by intros; rfl)
      (fun s v => State.reg_put_other s v other) m d r
  exact kept.trans (h x hx)

theorem State.sameTabs_putTrace {s m : State} {l : List Tab} (h : s.sameTabsBut m l) (msix : Tab.msix ∈ l) (d : Nat) (r : TraceRec) :
    s.sameTabsBut (m.putTrace d r) l := by
  intro x hx
  have kept : s.sameIn (m.putTrace d r) x = s.sameIn m x :=
    State.putTrace_other (g := fun a => s.sameIn a x) (fun _ _ => by cases x <;> rfl) (fun _ _ => by cases x <;> rfl)
      (fun a y => s.sameIn_msix a y fun e => hx (e ▸ msix)) (fun _ _ => by cases x <;> rfl) (fun a v => s.sameIn_wr a _ v _ _ x) m d r
  rw [kept]
  exact h x hx

theorem State.die_putTrace (s : State) (d : Nat) (r : TraceRec) (k : Nat) : (s.putTrace d r).die k = s.die k :=
  State.putTrace_other (g := fun s => s.die k) (by intros; rfl) (by intros; rfl) (by intros; rfl) (by intros; rfl)
    (fun s v => State.put_other (fun s => s.die k) (by intros; rfl) (by intros; rfl) s _ v) s d r

theorem State.die_traceTaken (s : State) (d : Nat) (l : List TraceRec) :
    (s.traceTaken d l).die d = { s.die d with trace := l, traceTokens := (s.die d).traceTokens - 222 } := by
  have wrote : (s.traceTaken d l).die d = (s.updDie d fun y => { y with trace := l, traceTokens := y.traceTokens - 222 }).die d :=
    State.put_other (fun s => s.die d) (by intros; rfl) (by intros; rfl) _ _ _
  rw [wrote, State.die_updDie, if_pos rfl]

theorem State.sameIn_dies (s a : State) (y : Store Nat DieState) {x : Tab} (h : x ≠ .dies) : s.sameIn { a with dies := y } x = s.sameIn a x := by
  cases x
  case dies => exact absurd rfl h
  all_goals rfl

theorem State.sameTabs_updDie {s m : State} {l : List Tab} (h : s.sameTabsBut m l) (dies : Tab.dies ∈ l) (d : Nat) (f : DieState → DieState) :
    s.sameTabsBut (m.updDie d f) l := by
  intro x hx
  have other : x ≠ .dies := fun e => hx (by rw [e]; exact dies)
  rw [State.updDie, s.sameIn_dies _ _ other]
  exact h x hx

/-- The view of the trace ring that a record taken leaves. -/
theorem State.ring_traceTaken (s : State) (d : Nat) (l : List TraceRec) :
    (s.traceTaken d l).dma = s.dma ∧ (s.traceTaken d l).tring = s.tring ∧
      ∀ f i j, f ≠ .dagTrcocc → (s.traceTaken d l).rd f i j = s.rd f i j :=
  ⟨State.dma_wr _ _ _ _ _, State.put_other State.tring (by intros; rfl) (by intros; rfl) _ _ _,
    fun _ _ _ other => State.rd_wr_field _ _ _ _ _ _ other.symm⟩

theorem traceDrain_drains {s : State} (hs : s.aon = true) (d : Die) {r : TraceRec} {l : List TraceRec} (waits : (s.die d.val).trace = r :: l)
    (on : s.traceOn = true) (serves : (s.die d.val).steward = false) (powered : (s.die d.val).powered = true)
    (tokens : 222 ≤ (s.die d.val).traceTokens) :
    (ringFree (ringSize (s.rd .obsTrccfgSize)) (s.rd .obsTrcpi) s.tring.ci ≠ 0 →
        ∃ t, exec (.traceDrain d) s = .next t ∧
          t.die d.val = { s.die d.val with trace := l, traceTokens := (s.die d.val).traceTokens - 222 } ∧
          t.dma = s.dma ++
            [{ port := s.ringPort (s.rd .obsPrivRs), addr := s.rd .obsTrcbase + 16 * s.rd .obsTrcpi + 4, words := w32 r.b :: w64 r.time },
             { port := s.ringPort (s.rd .obsPrivRs), addr := s.rd .obsTrcbase + 16 * s.rd .obsTrcpi
               words := [w32 (r.word0 d.val + bit s.tring.phase)] }] ∧
          s.sameRegsBut t [⟨.dagTrcocc, d.val, 0⟩, ⟨.obsTrcpi, 0, 0⟩] ∧ s.sameTabsBut t [.dies, .msix]) ∧
      (ringFree (ringSize (s.rd .obsTrccfgSize)) (s.rd .obsTrcpi) s.tring.ci = 0 →
        ∃ t, exec (.traceDrain d) s = .next t ∧ t.flag .obsTrcfull = true ∧ s.onlyChanges t [⟨.obsTrcfull, 0, 0⟩] []) := by
  have run := exec_traceDrain hs d waits on serves powered tokens
  constructor
  · intro room
    rw [if_neg room] at run
    obtain ⟨dma, tring, rd⟩ := s.ring_traceTaken d.val l
    refine ⟨_, run, ?_, ?_, State.sameRegs_commit (State.sameRegs_putTrace ?_ (by simp) _ _),
      State.sameTabs_commit (State.sameTabs_putTrace ?_ (by simp) _ _)⟩
    · rw [State.die_commit, State.die_putTrace, s.die_traceTaken]
    · change ((s.traceTaken d.val l).putTrace d.val r).dma = _
      rw [State.dma_putTrace, dma, tring, State.ringPort, rd .obsPrivRs _ _ (by decide), rd .hifRsCtrlPort _ _ (by decide),
        rd .obsTrcbase _ _ (by decide), rd .obsTrcpi _ _ (by decide), State.ringPort]
    · exact fun r hr => State.sameRegs_wr (n := s.updDie d.val _) (s.sameRegs_same _) _ _ _ _ List.mem_cons_self r hr
    · exact State.sameTabs_wr (State.sameTabs_updDie (s.sameTabs_same _) List.mem_cons_self _ _) _ _ _ _
  · intro full
    rw [if_pos full] at run
    refine ⟨_, run, ?_, State.onlyChanges_commit (State.onlyChanges_wr (s.onlyChanges_refl _ _) _ _ _ _ List.mem_cons_self)⟩
    rw [State.flag, State.rd_commit _ _ _ _ _ rfl]
    exact State.flag_wr_one s (f := .obsTrcfull) rfl rfl

/-! ## The ring's vector and its consumer index (R357) -/

/-- No entry awaits the ring's vector. -/
def State.vectorSettled (s : State) : State := { s with tring := { s.tring with lastWrite := none } }

/-- Settling moves the trace ring's own state alone. -/
theorem State.vectorSettled_keeps (s : State) : (∀ p w, s.vectorSettled.msixWord p w = s.msixWord p w) ∧ s.vectorSettled.msixOut = s.msixOut ∧
    s.vectorSettled.now = s.now ∧ s.vectorSettled.tring.lastWrite = none ∧ ∀ (o : State) x, o.sameIn s.vectorSettled x = o.sameIn s x :=
  ⟨fun _ _ => rfl, rfl, rfl, rfl, fun _ x => by cases x <;> rfl⟩

theorem exec_traceVectorTimer {s : State} (hs : s.aon = true) {a : Nat} (waits : s.tring.lastWrite = some a) :
    exec .traceVectorTimer s = .next (s.commit ((s.advanceTo (a + 1000000)).vectorSettled.sendVector
      ((s.advanceTo (a + 1000000)).ringPort ((s.advanceTo (a + 1000000)).rd .obsPrivRs)) 34)) := by
  change execTraceVectorTimer s = _
  rw [execTraceVectorTimer, State.run_on _ hs]
  simp only [waits]
  rfl

theorem State.port_sendVector {s : State} {p : Port} {v : Nat} (clear : s.msixWord p (4 * v + 3) % 2 = 0) :
    ∃ x, (s.sendVector p v).msixOut = s.msixOut ++ [x] ∧ x.vector = v ∧ x.port = p := by
  rw [State.sendVector, if_neg (by omega)]
  exact ⟨_, rfl, rfl, rfl⟩

/-- What sending the ring's vector at the time `b` leaves and says. -/
theorem State.vector_sends (s : State) (b : Nat) {t : State}
    (sent : t = s.commit ((s.advanceTo b).vectorSettled.sendVector (s.ringPort (s.rd .obsPrivRs)) 34)) :
    t.tring.lastWrite = none ∧ b ≤ t.now ∧ s.sameTabsBut t [.msix] ∧
      (s.msixWord (s.ringPort (s.rd .obsPrivRs)) 139 % 2 = 0 →
        ∃ m, t.msixOut = s.msixOut ++ [m] ∧ m.vector = 34 ∧ m.port = s.ringPort (s.rd .obsPrivRs)) := by
  subst sent
  obtain ⟨word, out, now, idle, tab⟩ := (s.advanceTo b).vectorSettled_keeps
  rw [s.msixOut_advanceTo] at out
  rw [s.advanceTo_now] at now
  have word (w : Nat) := (word (s.ringPort (s.rd .obsPrivRs)) w).trans (s.msixWord_advanceTo b _ w)
  have tabs : s.sameTabsBut (s.advanceTo b).vectorSettled [.msix] := fun x _ => by
    rw [tab]
    exact s.sameTabs_advanceTo b x List.not_mem_nil
  generalize (s.advanceTo b).vectorSettled = n at word out now tabs idle
  refine ⟨?_, ?_, State.sameTabs_commit fun x hx => ?_, fun clear => ?_⟩
  · exact (congrArg TraceRing.lastWrite (State.sendVector_other (g := State.tring) (by intros; rfl) (by intros; rfl) n _ _)).trans idle
  · rw [State.commit_now, State.now_sendVector, now]
    exact (le_max_right _ _).trans (le_max_right _ _)
  · have kept : s.sameIn (n.sendVector (s.ringPort (s.rd .obsPrivRs)) 34) x = s.sameIn n x :=
      State.sendVector_other (g := fun a => s.sameIn a x) (fun a y => s.sameIn_msix a y fun e => hx (by simp [e])) (fun _ _ => by cases x <;> rfl)
        n _ _
    rw [kept]
    exact tabs x hx
  · rw [← word] at clear
    obtain ⟨x, sent, vector, port⟩ := State.port_sendVector (v := 34) clear
    exact ⟨x, sent.trans (by rw [out]), vector, port⟩

theorem traceVectorTimer_sends {s : State} (hs : s.aon = true) {a : Nat} (waits : s.tring.lastWrite = some a) :
    ∃ t, exec .traceVectorTimer s = .next t ∧ t.tring.lastWrite = none ∧ a + 1000000 ≤ t.now ∧ s.sameTabsBut t [.msix] ∧
      (s.msixWord (s.ringPort (s.rd .obsPrivRs)) 139 % 2 = 0 →
        ∃ m, t.msixOut = s.msixOut ++ [m] ∧ m.vector = 34 ∧ m.port = s.ringPort (s.rd .obsPrivRs)) := by
  have run := exec_traceVectorTimer hs waits
  rw [s.ringPort_advanceTo, s.rd_advanceTo _ _ _ (by decide)] at run
  exact ⟨_, run, s.vector_sends (a + 1000000) rfl⟩

/-- The trace ring's consumer index, taken. -/
def State.ciTaken (s : State) (ci : Nat) : State := { s with tring := { s.tring with ci := ci % ringSize (s.rd .obsTrccfgSize) } }

theorem State.onlyChanges_readTraceCi (s : State) (ci : Nat) :
    (s.readTraceCi ci).core = { s.core with tring := { s.tring with ci := ci % ringSize (s.rd .obsTrccfgSize) } } ∧
      s.sameRegsBut (s.readTraceCi ci) [⟨.obsTrcfull, 0, 0⟩] ∧ s.sameTabsBut (s.readTraceCi ci) [] ∧
      (s.readTraceCi ci).pending = s.pending ∧ (s.readTraceCi ci).now = s.now := by
  have moved : s.readTraceCi ci = s.ciTaken ci ∨ s.readTraceCi ci = (s.ciTaken ci).wr .obsTrcfull 0 := by
    unfold State.readTraceCi
    dsimp only
    split
    · exact Or.inl rfl
    · exact Or.inr rfl
  have tabs : s.sameTabsBut (s.ciTaken ci) [] := fun x _ => by
    have same := s.sameIn_refl x
    cases x <;> exact same
  rcases moved with e | e <;> rw [e]
  · exact ⟨rfl, s.sameRegs_same _, tabs, rfl, rfl⟩
  · exact ⟨State.core_wr _ _ _ _ _, State.sameRegs_wr (s.sameRegs_same _) _ _ _ _ List.mem_cons_self, State.sameTabs_wr tabs _ _ _ _,
      State.put_other State.pending (by intros; rfl) (by intros; rfl) _ _ _, State.put_now _ _ _⟩

theorem traceRingPoll_moves {s : State} (hs : s.aon = true) (ci : Word) (on : s.flag .obsTrccfgEn = true) :
    ∃ t, exec (.traceRingPoll ci) s = .next t ∧
      t.core = { s.core with tring := { s.tring with ci := ci.toNat % ringSize (s.rd .obsTrccfgSize) } } ∧
      s.sameRegsBut t [⟨.obsTrcfull, 0, 0⟩] ∧ s.sameTabsBut t [] := by
  have run : exec (.traceRingPoll ci) s = .next (s.commit (s.readTraceCi ci.toNat)) := by
    change execTraceRingPoll ci s = _
    rw [execTraceRingPoll, State.run_on _ hs, if_pos on]
  obtain ⟨core, regs, tabs, pending, now⟩ := s.onlyChanges_readTraceCi ci.toNat
  exact ⟨_, run, (State.core_commit pending now).trans core, State.sameRegs_commit regs, State.sameTabs_commit tabs⟩

/-! ## A wait that is traced (R358) -/

/-- The record of a wait. -/
def waitRec (w : WaitInfo) (now : Nat) : TraceRec where
  type := 1
  core := w.core.val
  eng := w.eng.val
  a := (w.queue.val + 2 ^ 7 * w.obj.val) % 2 ^ 15
  b := (w.sigDie.val + 2 ^ 6 * w.sigCore.val + 2 ^ 8 * w.sigEng.val + 2 ^ 11 * bit w.coll + 2 ^ 12 * min 0xFFFFF w.periods) % 2 ^ 32
  time := now

/-- A record put at the end of a die agent's trace, with none lost. -/
def State.traceKept (s : State) (d : Nat) (r : TraceRec) : State :=
  (s.updDie d fun x => { x with trace := (s.die d).trace ++ [r], traceLost := 0 }).wr .dagTrcocc ((s.die d).trace ++ [r]).length d

theorem State.traceRecord_kept {s : State} {d : Nat} (powered : (s.die d).powered = true) (room : (s.die d).trace.length < 4096)
    (whole : (s.die d).traceLost = 0) (r : TraceRec) : s.traceRecord d r = s.traceKept d r := by
  have fits : ¬4096 ≤ (s.die d).trace.length := by omega
  simp only [State.traceRecord, powered, Bool.not_true, Bool.false_eq_true, if_false, fits, whole, if_true, ne_eq, not_true_eq_false, decide_false,
    Bool.false_and, Nat.zero_ne_one]
  rfl

theorem exec_waitEnd {s : State} (hs : s.aon = true) (d : Die) (w : WaitInfo) (long : s.rd .obsTrcenWmin ≤ w.periods)
    (traced : s.traced d.val 1 = true) : exec (.waitEnd d w) s = .next (s.commit (s.traceRecord d.val (waitRec w s.now))) := by
  change execWaitEnd d w s = _
  rw [execWaitEnd, State.run_on _ hs, if_pos long, State.trace, if_pos traced]
  rfl

theorem waitEnd_traces {s : State} (hs : s.aon = true) (d : Die) (w : WaitInfo) (long : s.rd .obsTrcenWmin ≤ w.periods)
    (traced : s.traced d.val 1 = true) (powered : (s.die d.val).powered = true) (room : (s.die d.val).trace.length < 4096)
    (whole : (s.die d.val).traceLost = 0) :
    ∃ t r, exec (.waitEnd d w) s = .next t ∧ t.die d.val = { s.die d.val with trace := (s.die d.val).trace ++ [r] } ∧ r.type = 1 ∧
      r.core = w.core.val ∧ r.eng = w.eng.val ∧ r.time = s.now ∧ s.onlyChanges t [⟨.dagTrcocc, d.val, 0⟩] [.dies] := by
  have run := exec_waitEnd hs d w long traced
  rw [State.traceRecord_kept powered room whole] at run
  refine ⟨_, waitRec w s.now, run, ?_, rfl, rfl, rfl, rfl, ?_⟩
  · have wrote : (s.traceKept d.val (waitRec w s.now)).die d.val =
        (s.updDie d.val fun x => { x with trace := (s.die d.val).trace ++ [waitRec w s.now], traceLost := 0 }).die d.val :=
      State.put_other (fun s => s.die d.val) (by intros; rfl) (by intros; rfl) _ _ _
    rw [State.die_commit, wrote, State.die_updDie, if_pos rfl, ← whole]
  · exact State.onlyChanges_commit (State.onlyChanges_wr (State.onlyChanges_updDie (s.onlyChanges_refl _ _) _ _ List.mem_cons_self) _ _ _ _
      List.mem_cons_self)

/-- Settles O55: each event of the trace ring. -/
theorem tracesDrain : Obligations.TracesDrain := by
  unfold Obligations.TracesDrain
  intro s d hs
  exact ⟨fun r l waits on serves powered tokens => traceDrain_drains hs d waits on serves powered tokens, fun a waits => traceVectorTimer_sends hs waits,
    fun ci on => traceRingPoll_moves hs ci on, fun w long traced powered room whole => waitEnd_traces hs d w long traced powered room whole⟩

end Sys2Proof.Machine

/-!
What faults and notices leave of the Attic: a CONTAINED fault moves its event queue alone, and a notice nothing of it.
-/

namespace Sys2Proof.Machine

/-! ## What faults and notices leave of the Attic -/

/-- A reading of the state that no register, no queue to a partner and no part of the collector carries; of the Attic it may read anything. -/
structure AtticRead {α : Type} (g : State → α) : Prop where
  regs : ∀ s x, g { s with regs := x } = g s
  limits : ∀ s x, g { s with limits := x } = g s
  rings : ∀ s x, g { s with rings := x } = g s
  tel : ∀ s x, g { s with tel := x } = g s
  msix : ∀ s x, g { s with msix := x } = g s
  msixOut : ∀ s x, g { s with msixOut := x } = g s
  dma : ∀ s x, g { s with dma := x } = g s
  i3c : ∀ s x, g { s with i3c := x } = g s
  mbBad : ∀ s x, g { s with mbBad := x } = g s
  inject : ∀ s x, g { s with inject := x } = g s
  fwInt : ∀ s x, g { s with fwInt := x } = g s
  faultSeq : ∀ s x, g { s with faultSeq := x } = g s
  pend : ∀ s x, g { s with pend := x } = g s

section Reading
variable {α : Type} {g : State → α} (hg : AtticRead g)
include hg

theorem AtticRead.wr (s : State) (f : Field) (v i j : Nat) : g (s.wr f v i j) = g s :=
  State.wr_other hg.regs hg.limits s f v i j

theorem AtticRead.count (s : State) (f : Field) (n i j : Nat) : g (s.count f n i j) = g s :=
  State.count_other hg.regs hg.limits s f n i j

theorem AtticRead.complete (s : State) (n cid status result : Nat) : g (s.complete n cid status result) = g s :=
  State.kept_by_complete hg.regs hg.limits hg.rings hg.msix hg.msixOut hg.dma s n cid status result

theorem AtticRead.noticeTo (s : State) (ncode seq detail n : Nat) : g (s.noticeTo ncode seq detail n) = g s := by
  unfold State.noticeTo
  split
  · split
    · exact (hg.rings _ _).trans (hg.wr _ _ _ _ _)
    · exact (State.cplWritten_other hg.rings hg.msix hg.msixOut _ _ _).trans
        ((hg.rings _ _).trans (State.putCpl_other hg.rings hg.dma n (fun s v => hg.wr s _ v _ _) s _ _))
  · rfl

theorem AtticRead.noticePart (s : State) (ncode seq detail p : Nat) : g (s.noticePart ncode seq detail p) = g s := by
  unfold State.noticePart
  dsimp only
  split
  · split
    · exact hg.noticeTo _ _ _ _ _
    · exact (hg.noticeTo _ _ _ _ _).trans (hg.noticeTo _ _ _ _ _)
  · exact hg.noticeTo _ _ _ _ _

theorem AtticRead.filled (s : State) (m : Nat) : g (s.filled m) = g s := by
  unfold State.filled
  split
  · exact (hg.wr _ _ _ _ _).trans (hg.wr _ _ _ _ _)
  · exact hg.wr _ _ _ _ _

theorem AtticRead.noticeAll (s : State) (ncode detail : Nat) : g (s.noticeAll ncode detail) = g s := by
  have sent := each_blind (g := g) (upto 16) (fun t n => t.noticeTo ncode 0 detail n) (fun t n => hg.noticeTo t ncode 0 detail n) s
  unfold State.noticeAll
  dsimp only
  split
  · exact (State.mbPost_other hg.msix hg.msixOut hg.i3c hg.fwInt _ _).trans ((hg.filled _ _).trans
      ((State.mbParity_other hg.mbBad hg.inject _ _).trans ((hg.wr _ _ _ _ _).trans ((hg.wr _ _ _ _ _).trans sent))))
  · exact sent

theorem AtticRead.closeBlock (s : State) (d : Nat) : g (s.closeBlock d) = g s := by
  have sent (t : State) (n : Nat) : g (t.telWritten n) = g t := by
    unfold State.telWritten
    split
    · exact (hg.rings _ _).trans (State.sendVector_other hg.msix hg.msixOut t _ _)
    · exact hg.rings _ _
  unfold State.closeBlock
  dsimp only
  split
  · rfl
  · split
    · exact hg.tel s _
    · split
      · exact hg.tel s _
      · split
        · exact (hg.count _ _ _ _ _).trans (hg.tel s _)
        · exact (sent _ _).trans ((hg.rings _ _).trans ((hg.dma _ _).trans (hg.tel s _)))

theorem AtticRead.faultNotice (s : State) (f : FaultRec) (seq : Nat) : g (s.faultNotice f seq) = g s := by
  unfold State.faultNotice
  dsimp only
  split
  · exact each_blind _ _ (fun t n => hg.noticeTo t _ _ _ n) s
  · exact each_blind _ _ (fun t p => hg.noticePart t _ _ _ p) s

theorem AtticRead.puts (s : State) (l : List (FieldRef × Nat)) : g (s.puts l) = g s :=
  State.puts_other hg.regs hg.limits s l

variable (queued : ∀ s code sev unit part, g (State.event s code sev unit part) = g s)
include queued

theorem AtticRead.stopPart (s : State) (seq p : Nat) : g (s.stopPart seq p) = g s := by
  unfold State.stopPart State.abortRunning State.stmtDue
  dsimp only
  rw [queued, hg.wr, each_blind _ _ (fun t c => hg.complete t _ _ _ _), hg.noticePart, hg.wr, each_blind _ _ hg.closeBlock, State.updRing, hg.rings]

theorem AtticRead.collect (s : State) (f : FaultRec) : g (s.collect f) = g s := by
  unfold State.collect
  split
  · exact hg.count _ _ _ _ _
  · dsimp only
    split
    · exact (hg.faultNotice _ _ _).trans ((hg.pend _ _).trans ((hg.puts _ _).trans (hg.faultSeq s _)))
    · exact (each_blind _ _ (fun t p => hg.stopPart queued t _ p) _).trans ((hg.faultNotice _ _ _).trans ((hg.wr _ _ _ _ _).trans (hg.faultSeq s _)))

theorem AtticRead.raise_contained (s : State) {f : FaultRec} (contained : f.cls = .contained) : g (s.raise f) = g s := by
  have counted : g (s.countFault f) = g s := by
    simp only [State.countFault, contained]
    exact (hg.count _ _ _ _ _).trans (hg.count _ _ _ _ _)
  have captured (t : State) : g (t.capture f) = g t := by
    unfold State.capture
    dsimp only
    split
    · exact hg.count _ _ _ _ _
    · exact hg.puts _ _
  simp only [State.raise, contained]
  rw [hg.collect queued, queued, captured, counted]

end Reading

theorem atticRead_attic : AtticRead State.attic := by constructor <;> intros <;> rfl

theorem State.event_records (s : State) (code sev unit : Nat) (part : Option Nat) :
    (s.event code sev unit part).attic.ram = s.attic.ram ∧ (s.event code sev unit part).attic.flash = s.attic.flash := by
  unfold State.event
  split
  · exact ⟨rfl, rfl⟩
  · rw [State.count_attic]
    exact ⟨rfl, rfl⟩

/-- A CONTAINED fault leaves the records of the RAM ring and of the flash. -/
theorem State.raise_records (s : State) {f : FaultRec} (contained : f.cls = .contained) :
    (s.raise f).attic.ram = s.attic.ram ∧ (s.raise f).attic.flash = s.attic.flash := by
  constructor
  · exact AtticRead.raise_contained (g := fun s => s.attic.ram) (by constructor <;> intros <;> rfl)
      (fun s _ _ _ _ => (s.event_records _ _ _ _).1) s contained
  · exact AtticRead.raise_contained (g := fun s => s.attic.flash) (by constructor <;> intros <;> rfl)
      (fun s _ _ _ _ => (s.event_records _ _ _ _).2) s contained

end Sys2Proof.Machine

/-!
The Attic's records, in flash and in the RAM ring, and its failure (R361, R363, R366).
-/

namespace Sys2Proof.Machine

/-! ## A record (R361, R363, R366) -/

/-- The Attic's own state, replaced. -/
def State.withAttic (s : State) (x : AtticState) : State := { s with attic := x }

/-- An event taken from the queue, with the rate limit of its code moved on and the failures counted so far. -/
def State.eventTaken (s : State) (code : Nat) (l : List AtticEvent) (fails : Nat) (r : RateState) : State :=
  s.withAttic { s.attic with queue := l, fails := fails, rates := Store.insert natLt code r s.attic.rates }

/-- A failed program: the event waits for another try. -/
def State.programFails (s : State) (r : AtticRec) : State :=
  (s.atticProgram { r with bad := true }).withAttic
    { (s.atticProgram { r with bad := true }).attic with seq := s.attic.seq, fails := s.attic.fails + 1 }

/-- The rate limit as it stands for an event. -/
def State.limited (s : State) (e : AtticEvent) : Bool × Nat × RateState :=
  rateStep (max 1 (s.rd .atcCfgRaten)) (max 1 (s.rd .atcCfgRatewin)) s.opSec (decide (e.sev = 3)) (s.rate e.code)

/-- What the oldest event becomes. -/
def State.recordWrite (s : State) (ok : Bool) (e : AtticEvent) (l : List AtticEvent) (r : Bool × Nat × RateState) : State :=
  if !r.1 then (s.eventTaken e.code l s.attic.fails r.2.2).count .atcSupp
  else if s.flag .atcStatRam then (s.eventTaken e.code l s.attic.fails r.2.2).atticRing (s.atticRec e r.2.1)
  else if ok then (s.eventTaken e.code l 0 r.2.2).atticProgram (s.atticRec e r.2.1)
  else s.programFails (s.atticRec e r.2.1)

theorem exec_atticRecordWrite {s : State} (hs : s.aon = true) (ok : Bool) {e : AtticEvent} {l : List AtticEvent} (waits : s.attic.queue = e :: l)
    (records : s.recording = true) : exec (.atticRecordWrite ok) s = .next (s.commit (s.recordWrite ok e l (s.limited e))) := by
  change execAtticRecordWrite ok s = _
  rw [execAtticRecordWrite, State.run_on _ hs]
  simp only [waits, records, Bool.not_true, Bool.false_eq_true, if_false]
  rfl

theorem State.attic_commit (s n : State) : (s.commit n).attic = n.attic := rfl

/-- A store filtered by its keys reads at a key that is kept as before. -/
theorem Store.get_filter {α : Type} (d : Nat → α) (keep : Nat × α → Bool) {k : Nat} (kept : ∀ v, keep (k, v) = true) (l : Store Nat α) :
    Store.get d (l.filter keep) k = Store.get d l k := by
  induction l with
  | nil => rfl
  | cons x l ih =>
    obtain ⟨a, v⟩ := x
    by_cases same : a = k
    · subst same
      simp [kept, Store.get]
    · cases h : keep (a, v) with
      | true => simp [h, Store.get, same, ih]
      | false => simp [h, Store.get, same, ih]

/-- The flash once a record stands at a place, with the sector that the pointer reaches erased. -/
def flashWith (p : Nat) (r : AtticRec) (l : Store Nat (Option AtticRec)) : Store Nat (Option AtticRec) :=
  if (p + 1) % atticSize % 128 = 0 then
    (Store.insert natLt p (some r) l).filter fun e => !(decide ((p + 1) % atticSize ≤ e.1) && decide (e.1 < (p + 1) % atticSize + 128))
  else Store.insert natLt p (some r) l

theorem flashWith_holds (p : Nat) (r : AtticRec) (l : Store Nat (Option AtticRec)) :
    Store.get (fun _ => none) (flashWith p r l) p = some r := by
  have stands : Store.get (fun _ => none) (Store.insert natLt p (some r) l) p = some r := by rw [Store.get_insert, if_pos rfl]
  unfold flashWith
  split
  · rw [Store.get_filter _ _ (fun _ => ?_), stands]
    have size : atticSize = 131072 := rfl
    have outside : p < (p + 1) % 131072 ∨ (p + 1) % 131072 + 128 ≤ p := by omega
    simpa [size] using outside
  · exact stands

/-- The fields that a record programmed moves. -/
abbrev pointerRefs : List FieldRef := [⟨.atcWrptr, 0, 0⟩, ⟨.atcOldest, 0, 0⟩]

/-- The Attic's own state replaced moves no register and no table. -/
theorem State.sameTabs_withAttic {s n : State} {l : List Tab} (h : s.sameTabsBut n l) (x : AtticState) : s.sameTabsBut (n.withAttic x) l := by
  intro y hy
  have same := h y hy
  cases y <;> exact same

theorem State.sameRegs_withAttic {s n : State} {l : List FieldRef} (h : s.sameRegsBut n l) (x : AtticState) : s.sameRegsBut (n.withAttic x) l := h

/-- A record programmed: the flash holds it, the sequence number and the write pointer move on, and OLDEST with them. -/
theorem State.atticProgram_writes (s : State) (r : AtticRec) :
    ∃ oldest, s.atticProgram r = ((s.withAttic
      { s.attic with flash := flashWith (s.rd .atcWrptr) r s.attic.flash, seq := (s.attic.seq + 1) % 2 ^ 32 }).wr .atcWrptr
        ((s.rd .atcWrptr + 1) % atticSize)).wr .atcOldest oldest :=
  ⟨_, rfl⟩

theorem State.programs (s : State) (r : AtticRec) :
    (s.atticProgram r).attic = { s.attic with flash := flashWith (s.rd .atcWrptr) r s.attic.flash, seq := (s.attic.seq + 1) % 2 ^ 32 } ∧
      (s.atticProgram r).rd .atcWrptr = (s.rd .atcWrptr + 1) % 131072 := by
  obtain ⟨oldest, writes⟩ := s.atticProgram_writes r
  rw [writes]
  constructor
  · rw [State.wr_attic, State.wr_attic, State.withAttic]
  · rw [State.rd_wr_field _ _ _ _ _ _ (by decide), State.rd_wr_same _ .atcWrptr _ _ _ rfl]
    exact Nat.mod_eq_of_lt (lt_of_lt_of_le (Nat.mod_lt _ (by decide)) (by decide : atticSize ≤ 2 ^ 17))

theorem State.same_atticProgram {s n : State} (regs : s.sameRegsBut n pointerRefs) (tabs : s.sameTabsBut n []) (r : AtticRec) :
    s.sameRegsBut (n.atticProgram r) pointerRefs ∧ s.sameTabsBut (n.atticProgram r) [] := by
  obtain ⟨oldest, writes⟩ := n.atticProgram_writes r
  rw [writes]
  exact ⟨State.sameRegs_wr (State.sameRegs_wr (State.sameRegs_withAttic regs _) _ _ _ _ (by simp)) _ _ _ _ (by simp),
    State.sameTabs_wr (State.sameTabs_wr (State.sameTabs_withAttic tabs _) _ _ _ _) _ _ _ _⟩

theorem State.attic_eventTaken (s : State) (code : Nat) (l : List AtticEvent) (fails : Nat) (r : RateState) :
    (s.eventTaken code l fails r).attic = { s.attic with queue := l, fails := fails, rates := Store.insert natLt code r s.attic.rates } := rfl

theorem State.rd_eventTaken (s : State) (code : Nat) (l : List AtticEvent) (fails : Nat) (r : RateState) (f : Field) (i j : Nat) :
    (s.eventTaken code l fails r).rd f i j = s.rd f i j := rfl

section Record
variable {s : State} (hs : s.aon = true) {e : AtticEvent} {l : List AtticEvent} (waits : s.attic.queue = e :: l) (records : s.recording = true)
include hs waits records

theorem atticRecordWrite_programs (made : (s.limited e).1 = true) (flash : s.flag .atcStatRam = false) :
    ∃ t x, exec (.atticRecordWrite true) s = .next t ∧ t.attic.queue = l ∧
      Store.get (fun _ => none) t.attic.flash (s.rd .atcWrptr) = some x ∧ x.ev = e ∧ x.seq = s.attic.seq ∧ x.bad = false ∧
      t.rd .atcWrptr = (s.rd .atcWrptr + 1) % 131072 ∧ s.sameRegsBut t [⟨.atcWrptr, 0, 0⟩, ⟨.atcOldest, 0, 0⟩] ∧ s.sameTabsBut t [] := by
  have run := exec_atticRecordWrite hs true waits records
  simp only [State.recordWrite, made, flash, Bool.not_true, Bool.false_eq_true, if_false, if_true] at run
  have taken := s.attic_eventTaken e.code l 0 (s.limited e).2.2
  have pointer := s.rd_eventTaken e.code l 0 (s.limited e).2.2 .atcWrptr 0 0
  obtain ⟨regs, tabs⟩ : s.sameRegsBut (s.eventTaken e.code l 0 (s.limited e).2.2) pointerRefs ∧
      s.sameTabsBut (s.eventTaken e.code l 0 (s.limited e).2.2) [] :=
    ⟨State.sameRegs_withAttic (s.sameRegs_same _) _, State.sameTabs_withAttic (s.sameTabs_same _) _⟩
  generalize s.eventTaken e.code l 0 (s.limited e).2.2 = n at run taken pointer regs tabs
  obtain ⟨attic, next⟩ := n.programs (s.atticRec e (s.limited e).2.1)
  obtain ⟨regs, tabs⟩ := State.same_atticProgram regs tabs (s.atticRec e (s.limited e).2.1)
  rw [pointer] at attic next
  refine ⟨_, s.atticRec e (s.limited e).2.1, run, ?_, ?_, rfl, rfl, rfl, ?_, State.sameRegs_commit regs, State.sameTabs_commit tabs⟩
  · rw [State.attic_commit, attic, taken]
  · rw [State.attic_commit, attic]
    exact flashWith_holds _ _ _
  · rw [State.rd_commit _ _ _ _ _ rfl, next]

theorem atticRecordWrite_fails (made : (s.limited e).1 = true) (flash : s.flag .atcStatRam = false) :
    ∃ t x, exec (.atticRecordWrite false) s = .next t ∧ t.attic.queue = s.attic.queue ∧
      Store.get (fun _ => none) t.attic.flash (s.rd .atcWrptr) = some x ∧ x.bad = true ∧ t.attic.fails = s.attic.fails + 1 ∧
      t.attic.seq = s.attic.seq ∧ t.rd .atcWrptr = (s.rd .atcWrptr + 1) % 131072 ∧ s.sameTabsBut t [] := by
  have run := exec_atticRecordWrite hs false waits records
  simp only [State.recordWrite, made, flash, Bool.not_true, Bool.false_eq_true, if_false] at run
  obtain ⟨attic, next⟩ := s.programs { s.atticRec e (s.limited e).2.1 with bad := true }
  obtain ⟨-, tabs⟩ := State.same_atticProgram (s.sameRegs_same _) (s.sameTabs_same _) { s.atticRec e (s.limited e).2.1 with bad := true }
  unfold State.programFails at run
  generalize s.atticProgram { s.atticRec e (s.limited e).2.1 with bad := true } = n at run attic next tabs
  refine ⟨_, { s.atticRec e (s.limited e).2.1 with bad := true }, run, ?_, ?_, rfl, rfl, rfl, ?_,
    State.sameTabs_commit (State.sameTabs_withAttic tabs _)⟩
  · rw [State.attic_commit, State.withAttic, attic]
  · rw [State.attic_commit, State.withAttic, attic]
    exact flashWith_holds _ _ _
  · rw [State.rd_commit _ _ _ _ _ rfl]
    exact next

theorem atticRecordWrite_ring (made : (s.limited e).1 = true) (ram : s.flag .atcStatRam = true) :
    ∃ t x, exec (.atticRecordWrite true) s = .next t ∧ t.attic.queue = l ∧ x ∈ t.attic.ram ∧ x.ev = e ∧ t.attic.flash = s.attic.flash ∧
      s.sameRegsBut t [] ∧ s.sameTabsBut t [] := by
  have run := exec_atticRecordWrite hs true waits records
  simp only [State.recordWrite, made, ram, Bool.not_true, Bool.false_eq_true, if_false, if_true] at run
  have taken := s.attic_eventTaken e.code l s.attic.fails (s.limited e).2.2
  obtain ⟨regs, tabs⟩ : s.sameRegsBut (s.eventTaken e.code l s.attic.fails (s.limited e).2.2) [] ∧
      s.sameTabsBut (s.eventTaken e.code l s.attic.fails (s.limited e).2.2) [] :=
    ⟨State.sameRegs_withAttic (s.sameRegs_same _) _, State.sameTabs_withAttic (s.sameTabs_same _) _⟩
  generalize s.eventTaken e.code l s.attic.fails (s.limited e).2.2 = n at run taken regs tabs
  refine ⟨_, s.atticRec e (s.limited e).2.1, run, ?_, ?_, rfl, ?_, State.sameRegs_commit (State.sameRegs_withAttic regs _),
    State.sameTabs_commit (State.sameTabs_withAttic tabs _)⟩
  · exact (congrArg AtticState.queue taken :)
  · exact List.mem_append_left _ (List.mem_append_right _ List.mem_cons_self)
  · exact (congrArg AtticState.flash taken :)

theorem atticRecordWrite_suppresses (limited : (s.limited e).1 = false) :
    ∃ t, exec (.atticRecordWrite true) s = .next t ∧ t.attic.queue = l ∧ t.attic.flash = s.attic.flash ∧ t.attic.ram = s.attic.ram ∧
      t.rd .atcSupp = s.oneUp .atcSupp ∧ s.sameRegsBut t [⟨.atcSupp, 0, 0⟩] ∧ s.sameTabsBut t [] := by
  have run := exec_atticRecordWrite hs true waits records
  simp only [State.recordWrite, limited, Bool.not_false, if_true] at run
  have taken := s.attic_eventTaken e.code l s.attic.fails (s.limited e).2.2
  have up : (s.eventTaken e.code l s.attic.fails (s.limited e).2.2).oneUp .atcSupp = s.oneUp .atcSupp := rfl
  obtain ⟨regs, tabs⟩ : s.sameRegsBut (s.eventTaken e.code l s.attic.fails (s.limited e).2.2) [⟨.atcSupp, 0, 0⟩] ∧
      s.sameTabsBut (s.eventTaken e.code l s.attic.fails (s.limited e).2.2) [] :=
    ⟨State.sameRegs_withAttic (s.sameRegs_same _) _, State.sameTabs_withAttic (s.sameTabs_same _) _⟩
  generalize s.eventTaken e.code l s.attic.fails (s.limited e).2.2 = n at run taken up regs tabs
  have kept : (s.commit (n.count .atcSupp)).attic = n.attic := (s.attic_commit _).trans (n.count_attic _ _ _ _)
  rw [taken] at kept
  refine ⟨_, run, ?_, ?_, ?_, ?_, State.sameRegs_commit (State.sameRegs_wr regs _ _ _ _ List.mem_cons_self),
    State.sameTabs_commit (State.sameTabs_wr tabs _ _ _ _)⟩
  · rw [kept]
  · rw [kept]
  · rw [kept]
  · rw [State.rd_commit _ _ _ _ _ rfl, State.rd_count_same _ (f := .atcSupp) rfl, up]

end Record

/-! ## The failure of the flash (R366) -/

/-- The RAM ring begun with the failure as its record 0. -/
def State.ramBegun (s : State) (e : AtticEvent) : State :=
  s.withAttic { s.attic with ram := [s.atticRec e 0], ramN := 0, seq := (s.attic.seq + 1) % 2 ^ 32, fails := 0 }

/-- The Attic's event queue as it was given. -/
def State.withQueue (s : State) (q : List AtticEvent) : State := s.withAttic { s.attic with queue := q }

/-- The failure's fault and its event. -/
def State.atticFault (s : State) : FaultRec := cont 19 1 (unitOf (40 + s.active) 0) .package 2

def State.failureEvent (s : State) : AtticEvent := { code := 19 * 256 + 1, sev := 2, unit := s.atticFault.unit, part := none, time := s.now }

theorem exec_atticFailure {s : State} (hs : s.aon = true) (flash : s.flag .atcStatRam = false) (runs : s.ccUp = true) :
    exec .atticFailure s = .next (s.commit (((((s.ramBegun s.failureEvent).wr .atcStatRam 1).raise s.atticFault).withQueue s.attic.queue).noticeAll
      7 0)) := by
  have passes : (s.flag .atcStatRam || !s.ccUp) = false := by rw [flash, runs]; rfl
  change execAtticFailure s = _
  rw [execAtticFailure, State.run_on _ hs, passes, if_neg Bool.false_ne_true]
  extract_lets f e attic s1 s2
  have begun : s1 = s.ramBegun s.failureEvent := rfl
  have raised : s2 = (s1.wr .atcStatRam 1).raise s.atticFault := rfl
  clear_value s1 s2
  subst begun
  rw [← raised]
  rfl

theorem State.ramBegun_holds (s : State) (e : AtticEvent) :
    ((s.ramBegun e).wr .atcStatRam 1).attic.ram = [s.atticRec e 0] ∧ ((s.ramBegun e).wr .atcStatRam 1).attic.flash = s.attic.flash := by
  rw [State.wr_attic]
  exact ⟨rfl, rfl⟩

theorem atticFailure_begins {s : State} (hs : s.aon = true) (flash : s.flag .atcStatRam = false) (runs : s.ccUp = true) :
    ∃ t x, exec .atticFailure s = .next t ∧ t.flag .atcStatRam = true ∧ t.attic.ram = [x] ∧ x.ev.code = 4865 ∧ x.seq = s.attic.seq ∧
      t.attic.queue = s.attic.queue ∧ t.attic.flash = s.attic.flash := by
  have run := exec_atticFailure hs flash runs
  obtain ⟨ram, kept⟩ := s.ramBegun_holds s.failureEvent
  have shown : ((s.ramBegun s.failureEvent).wr .atcStatRam 1).flag .atcStatRam = true := State.flag_wr_one _ (f := .atcStatRam) rfl rfl
  have contained : s.atticFault.cls = .contained := rfl
  generalize (s.ramBegun s.failureEvent).wr .atcStatRam 1 = m at run ram kept shown
  generalize s.atticFault = f at run contained
  obtain ⟨ramAfter, keptAfter⟩ := m.raise_records contained
  have shownAfter : (m.raise f).flag .atcStatRam = true := by
    rw [State.flag, rd_raise _ _ _ _ _ (by rw [contained]; exact FaultClass.noConfusion) rfl]
    exact shown
  generalize m.raise f = n at run ramAfter keptAfter shownAfter
  have told : (s.commit ((n.withQueue s.attic.queue).noticeAll 7 0)).attic = { n.attic with queue := s.attic.queue } :=
    (s.attic_commit _).trans (atticRead_attic.noticeAll _ _ _)
  refine ⟨_, s.atticRec s.failureEvent 0, run, ?_, ?_, rfl, rfl, ?_, ?_⟩
  · rw [State.flag, State.rd_commit _ _ _ _ _ rfl, noticeAll_notice (notice_rd 0 0 rfl)]
    exact shownAfter
  · rw [told, ramAfter, ram]
  · rw [told]
  · rw [told, keptAfter, kept]

end Sys2Proof.Machine

/-!
Settles O56: the Attic's cursors and its freeze, with its records and its failure.
-/

namespace Sys2Proof.Machine

/-! ## The cursors (R364, R365) -/

theorem port_field (p : Port) : (⟨.atcCurIdx, p.num, 0⟩ : FieldRef).exists = true ∧ (⟨.atcCurAuto, p.num, 0⟩ : FieldRef).exists = true ∧
    ∀ k, k < 8 → (⟨.atcData, p.num, k⟩ : FieldRef).exists = true := by
  cases p <;> decide

theorem State.port_wr (s : State) (f : Field) (v i j : Nat) (q : Port) : (s.wr f v i j).port q = s.port q :=
  State.wr_other (g := fun s => s.port q) (by intros; rfl) (by intros; rfl) s f v i j

/-- A fetch started: the port is among those that fetch, and BUSY shows it. -/
theorem State.startFetch_starts (s : State) (p : Nat) :
    p ∈ (s.startFetch p).attic.fetching ∧ (s.startFetch p).flag .atcStatBusy = true ∧
      (∀ f i j, f ≠ .atcStatBusy → (s.startFetch p).rd f i j = s.rd f i j) ∧ ∀ q, (s.startFetch p).port q = s.port q := by
  unfold State.startFetch
  refine ⟨?_, State.flag_wr_one _ (f := .atcStatBusy) rfl rfl, fun f i j other => State.rd_wr_field _ _ _ _ _ _ other.symm,
    fun q => State.port_wr _ _ _ _ _ _⟩
  rw [State.wr_attic]
  dsimp only
  split
  · next listed => exact List.contains_iff_mem.1 listed
  · exact List.mem_append_right _ List.mem_cons_self

theorem State.same_startFetch {s n : State} {l : List FieldRef} {ts : List Tab} (regs : s.sameRegsBut n l) (tabs : s.sameTabsBut n ts) (p : Nat)
    (listed : (⟨.atcStatBusy, 0, 0⟩ : FieldRef) ∈ l) : s.sameRegsBut (n.startFetch p) l ∧ s.sameTabsBut (n.startFetch p) ts :=
  ⟨State.sameRegs_wr (State.sameRegs_withAttic regs _) _ _ _ _ listed, State.sameTabs_wr (State.sameTabs_withAttic tabs _) _ _ _ _⟩

theorem atticCursorWrite_fetches {s : State} (hs : s.aon = true) (p : Port) (v : Word) :
    ∃ t, exec (.atticCursorWrite p v) s = .next t ∧ t.rd .atcCurIdx p.num = v.toNat % 2 ^ 17 ∧ t.rd .atcCurAuto p.num = v.toNat / 2 ^ 31 ∧
      t.flag .atcStatBusy = true ∧ p.num ∈ t.attic.fetching ∧
      s.sameRegsBut t [⟨.atcCurIdx, p.num, 0⟩, ⟨.atcCurAuto, p.num, 0⟩, ⟨.atcStatBusy, 0, 0⟩] ∧ s.sameTabsBut t [] := by
  have run : exec (.atticCursorWrite p v) s = .next (s.commit (s.cursorWrite p v.toNat)) := State.run_on (fun s => s.cursorWrite p v.toNat) hs
  obtain ⟨index, auto, -⟩ := port_field p
  have regs : s.sameRegsBut ((s.wr .atcCurIdx (v.toNat % 2 ^ 17) p.num).wr .atcCurAuto (v.toNat / 2 ^ 31 % 2) p.num)
      [⟨.atcCurIdx, p.num, 0⟩, ⟨.atcCurAuto, p.num, 0⟩, ⟨.atcStatBusy, 0, 0⟩] :=
    State.sameRegs_wr (State.sameRegs_wr (s.sameRegs_same _) _ _ _ _ (by simp)) _ _ _ _ (by simp)
  have atIndex : ((s.wr .atcCurIdx (v.toNat % 2 ^ 17) p.num).wr .atcCurAuto (v.toNat / 2 ^ 31 % 2) p.num).rd .atcCurIdx p.num = v.toNat % 2 ^ 17 := by
    rw [State.rd_wr_field _ _ _ _ _ _ (by decide), State.rd_wr_same _ _ _ _ _ index]
    exact Nat.mod_mod _ _
  have bit : ((s.wr .atcCurIdx (v.toNat % 2 ^ 17) p.num).wr .atcCurAuto (v.toNat / 2 ^ 31 % 2) p.num).rd .atcCurAuto p.num = v.toNat / 2 ^ 31 := by
    have small := v.isLt
    rw [State.rd_wr_same _ _ _ _ _ auto]
    change v.toNat / 2 ^ 31 % 2 % 2 ^ 1 = _
    omega
  unfold State.cursorWrite at run
  obtain ⟨regs, tabs⟩ := State.same_startFetch regs (State.sameTabs_wr (State.sameTabs_wr (s.sameTabs_same []) _ _ _ _) _ _ _ _) p.num (by simp)
  obtain ⟨fetching, busy, rd, -⟩ := ((s.wr .atcCurIdx (v.toNat % 2 ^ 17) p.num).wr .atcCurAuto (v.toNat / 2 ^ 31 % 2) p.num).startFetch_starts p.num
  refine ⟨_, run, ?_, ?_, ?_, fetching, State.sameRegs_commit regs, State.sameTabs_commit tabs⟩
  · rw [State.rd_commit _ _ _ _ _ rfl, rd _ _ _ (by decide), atIndex]
  · rw [State.rd_commit _ _ _ _ _ rfl, rd _ _ _ (by decide), bit]
  · rw [State.flag, State.rd_commit _ _ _ _ _ rfl]
    exact busy

/-! ## A record fetched (R361, R364) -/

/-- The words of a record stand in DATA one after the other. -/
theorem State.rd_fill (p : Port) (l : List Nat) (n : Nat) (s : State) :
    (∀ k, k < n → (s.each (l.zipIdx n) fun s x => s.wr .atcData x.1 p.num x.2).rd .atcData p.num k = s.rd .atcData p.num k) ∧
      ∀ k w, n + k < 8 → l[k]? = some w → (s.each (l.zipIdx n) fun s x => s.wr .atcData x.1 p.num x.2).rd .atcData p.num (n + k) = w % 2 ^ 32 := by
  induction l generalizing n s with
  | nil => exact ⟨fun _ _ => rfl, fun k w _ h => absurd h (by simp)⟩
  | cons x l ih =>
    obtain ⟨before, after⟩ := ih (n + 1) (s.wr .atcData x p.num n)
    constructor
    · intro k low
      exact (before k (by omega)).trans (State.reg_put_other s x (by simp; omega))
    · intro k w room at_k
      cases k with
      | zero =>
        obtain rfl : x = w := by simpa using at_k
        exact (before n (Nat.lt_succ_self n)).trans (State.rd_wr_same _ _ _ _ _ ((port_field p).2.2 n room))
      | succ k =>
        have shifted := after k w (by omega) (by simpa using at_k)
        rwa [show n + 1 + k = n + (k + 1) by omega] at shifted

/-- A filling of DATA reaches nothing else. -/
theorem State.fillData_other (s : State) (p : Nat) (l : List Nat) :
    (∀ f i j, f ≠ .atcData → (s.fillData p l).rd f i j = s.rd f i j) ∧ (s.fillData p l).attic = s.attic ∧
      ∀ (o : State) x, o.sameIn (s.fillData p l) x = o.sameIn s x :=
  ⟨fun f i j other => each_blind (g := fun s => s.rd f i j) _ _ (fun _ _ => State.rd_wr_field _ _ _ _ _ _ other.symm) s,
    each_blind (g := State.attic) _ _ (fun _ _ => State.wr_attic _ _ _ _ _) s,
    fun o x => each_blind (g := fun s => o.sameIn s x) _ _ (fun _ _ => o.sameIn_wr _ _ _ _ _ _) s⟩

/-- So does a filling with free values. -/
theorem State.fillFree_other {α : Type} {g : State → α} (data : ∀ s v i j, g (State.wr s .atcData v i j) = g s) (free : ∀ s, g (State.useFree s) = g s)
    (p n : Nat) (s : State) (j : Nat) : g (s.fillFree p n j) = g s := by
  induction n generalizing s j with
  | zero => rfl
  | succ n ih => exact (ih _ _).trans ((free _).trans (data _ _ _ _))

/-- A fetch that has ended. -/
def State.fetched (s : State) (p : Nat) : State :=
  (s.withAttic { s.attic with fetching := s.attic.fetching.filter (· ≠ p) }).wr .atcStatBusy (bit (!(s.attic.fetching.filter (· ≠ p)).isEmpty))

/-- What DATA and the flags show of the record found. -/
def State.fetchShown (s : State) (p : Nat) (found : Option AtticRec) : State :=
  match found with
  | none => (((s.fetched p).fillData p (List.replicate 8 0xFFFFFFFF)).wr .atcStatEmpty 1).wr .atcStatBad 0
  | some r =>
    if r.bad then (((s.fetched p).wr .atcStatEmpty 0).wr .atcStatBad (bit r.bad)).fillFree p 8 0
    else (((s.fetched p).wr .atcStatEmpty 0).wr .atcStatBad (bit r.bad)).fillData p r.words

theorem exec_atticFetchComplete {s : State} (hs : s.aon = true) (p : Port) (waits : p.num ∈ s.attic.fetching) :
    exec (.atticFetchComplete p) s = .next (s.commit (s.fetchShown p.num (s.atticAt (s.rd .atcCurIdx p.num)))) := by
  change execAtticFetchComplete p s = _
  rw [execAtticFetchComplete, State.run_on _ hs]
  dsimp only
  rw [if_pos (List.contains_iff_mem.2 waits)]
  cases s.atticAt (s.rd .atcCurIdx p.num) <;> rfl

theorem State.fetched_ends (s : State) (p : Nat) :
    p ∉ (s.fetched p).attic.fetching ∧ s.sameTabsBut (s.fetched p) [] := by
  refine ⟨?_, State.sameTabs_wr (State.sameTabs_withAttic (s.sameTabs_same _) _) _ _ _ _⟩
  rw [State.fetched, State.wr_attic]
  exact fun listed => of_decide_eq_true (List.mem_filter.1 listed).2 rfl

/-- What a port's fetch shows reaches DATA and the three flags alone, beside the fetch itself. -/
theorem State.fetchShown_leaves (s : State) (p : Nat) (found : Option AtticRec) :
    (s.fetchShown p found).attic = (s.fetched p).attic ∧ ∀ (o : State) x, o.sameIn (s.fetchShown p found) x = o.sameIn (s.fetched p) x := by
  cases found with
  | none =>
    obtain ⟨-, attic, tab⟩ := (s.fetched p).fillData_other p (List.replicate 8 0xFFFFFFFF)
    exact ⟨((State.wr_attic _ _ _ _ _).trans (State.wr_attic _ _ _ _ _)).trans attic,
      fun o x => ((o.sameIn_wr _ _ _ _ _ x).trans (o.sameIn_wr _ _ _ _ _ x)).trans (tab o x)⟩
  | some r =>
    have flags : (((s.fetched p).wr .atcStatEmpty 0).wr .atcStatBad (bit r.bad)).attic = (s.fetched p).attic :=
      (State.wr_attic _ _ _ _ _).trans (State.wr_attic _ _ _ _ _)
    have tabs (o : State) (x : Tab) : o.sameIn (((s.fetched p).wr .atcStatEmpty 0).wr .atcStatBad (bit r.bad)) x = o.sameIn (s.fetched p) x :=
      (o.sameIn_wr _ _ _ _ _ x).trans (o.sameIn_wr _ _ _ _ _ x)
    unfold State.fetchShown
    dsimp only
    generalize ((s.fetched p).wr .atcStatEmpty 0).wr .atcStatBad (bit r.bad) = n at flags tabs
    split
    · exact ⟨(State.fillFree_other (g := State.attic) (fun _ _ _ _ => State.wr_attic _ _ _ _ _) (by intros; rfl) _ _ _ _).trans flags,
        fun o x => (State.fillFree_other (g := fun n => o.sameIn n x) (fun _ _ _ _ => o.sameIn_wr _ _ _ _ _ _) (fun _ => by cases x <;> rfl)
          _ _ _ _).trans (tabs o x)⟩
    · obtain ⟨-, attic, tab⟩ := n.fillData_other p r.words
      exact ⟨attic.trans flags, fun o x => (tab o x).trans (tabs o x)⟩

theorem State.fetchShown_erased (s : State) (p : Port) :
    (s.fetchShown p.num none).flag .atcStatEmpty = true ∧ (s.fetchShown p.num none).flag .atcStatBad = false ∧
      ∀ k, k < 8 → (s.fetchShown p.num none).rd .atcData p.num k = 0xFFFFFFFF := by
  unfold State.fetchShown
  dsimp only
  refine ⟨?_, ?_, fun k hk => ?_⟩
  · rw [State.flag_wr_field _ _ _ _ _ _ (by decide)]
    exact State.flag_wr_one _ (f := .atcStatEmpty) rfl rfl
  · rw [State.flag, State.rd_wr_zero]
    rfl
  · have stands := (State.rd_fill p (List.replicate 8 0xFFFFFFFF) 0 (s.fetched p.num)).2 k 0xFFFFFFFF (by omega) (by rw [List.getElem?_replicate, if_pos hk])
    rw [Nat.zero_add] at stands
    rw [State.rd_wr_field _ _ _ _ _ _ (by decide), State.rd_wr_field _ _ _ _ _ _ (by decide)]
    exact stands

theorem State.fetchShown_record (s : State) (p : Port) (r : AtticRec) :
    (s.fetchShown p.num (some r)).flag .atcStatEmpty = false ∧ (s.fetchShown p.num (some r)).flag .atcStatBad = r.bad ∧
      (r.bad = false → ∀ k w, r.words[k]? = some w → (s.fetchShown p.num (some r)).rd .atcData p.num k = w % 2 ^ 32) := by
  have full : (((s.fetched p.num).wr .atcStatEmpty 0).wr .atcStatBad (bit r.bad)).flag .atcStatEmpty = false := by
    rw [State.flag_wr_field _ _ _ _ _ _ (by decide), State.flag, State.rd_wr_zero]
    rfl
  have good : (((s.fetched p.num).wr .atcStatEmpty 0).wr .atcStatBad (bit r.bad)).flag .atcStatBad = r.bad := by
    rw [State.flag, State.rd_wr_same _ _ _ _ _ rfl]
    cases r.bad <;> rfl
  unfold State.fetchShown
  dsimp only
  generalize ((s.fetched p.num).wr .atcStatEmpty 0).wr .atcStatBad (bit r.bad) = n at full good
  cases bad : r.bad with
  | true =>
    rw [if_pos rfl]
    have rd (f : Field) (h : f ≠ .atcData) : (n.fillFree p.num 8 0).rd f 0 0 = n.rd f 0 0 :=
      State.fillFree_other (g := fun s => s.rd f 0 0) (fun _ _ _ _ => State.rd_wr_field _ _ _ _ _ _ h.symm) (by intros; rfl) _ _ _ _
    refine ⟨?_, ?_, fun ok => absurd ok Bool.true_eq_false.mp⟩
    · rw [State.flag, rd _ (by decide)]
      exact full
    · rw [State.flag, rd _ (by decide)]
      exact good.trans bad
  | false =>
    rw [if_neg Bool.false_ne_true]
    obtain ⟨rd, -, -⟩ := n.fillData_other p.num r.words
    refine ⟨?_, ?_, fun _ k w stands => ?_⟩
    · rw [State.flag, rd _ _ _ (by decide)]
      exact full
    · rw [State.flag, rd _ _ _ (by decide)]
      exact good.trans bad
    · have eight : r.words.length = 8 := rfl
      obtain ⟨room, -⟩ := List.getElem?_eq_some_iff.1 stands
      have filled := (State.rd_fill p r.words 0 n).2 k w (by omega) stands
      rwa [Nat.zero_add] at filled

theorem atticFetchComplete_ends {s : State} (hs : s.aon = true) (p : Port) (waits : p.num ∈ s.attic.fetching) :
    ∃ t, exec (.atticFetchComplete p) s = .next t ∧ p.num ∉ t.attic.fetching ∧ s.sameTabsBut t [] ∧
      (s.atticAt (s.rd .atcCurIdx p.num) = none → t.flag .atcStatEmpty = true ∧ t.flag .atcStatBad = false ∧
        ∀ k, k < 8 → t.rd .atcData p.num k = 0xFFFFFFFF) ∧
      ∀ r, s.atticAt (s.rd .atcCurIdx p.num) = some r → t.flag .atcStatEmpty = false ∧ t.flag .atcStatBad = r.bad ∧
        (r.bad = false → ∀ k w, r.words[k]? = some w → t.rd .atcData p.num k = w % 2 ^ 32) := by
  have run := exec_atticFetchComplete hs p waits
  obtain ⟨left, tabs⟩ := s.fetched_ends p.num
  obtain ⟨attic, tab⟩ := s.fetchShown_leaves p.num (s.atticAt (s.rd .atcCurIdx p.num))
  have shown (f : Field) (j : Nat) (h : f.isLimit = false) (i : Nat) :
      (s.commit (s.fetchShown p.num (s.atticAt (s.rd .atcCurIdx p.num)))).rd f i j = _ := State.rd_commit _ _ f i j h
  refine ⟨_, run, ?_, State.sameTabs_commit fun x hx => ?_, fun found => ?_, fun r found => ?_⟩
  · rw [State.attic_commit, attic]
    exact left
  · rw [tab]
    exact tabs x hx
  · obtain ⟨empty, sound, data⟩ := s.fetchShown_erased p
    rw [State.flag, State.flag, shown .atcStatEmpty _ rfl, shown .atcStatBad _ rfl, found]
    refine ⟨empty, sound, fun k hk => ?_⟩
    rw [← found, shown .atcData _ rfl, found]
    exact data k hk
  · obtain ⟨empty, sound, data⟩ := s.fetchShown_record p r
    rw [State.flag, State.flag, shown .atcStatEmpty _ rfl, shown .atcStatBad _ rfl, found]
    refine ⟨empty, sound, fun ok k w stands => ?_⟩
    rw [← found, shown .atcData _ rfl, found]
    exact data ok k w stands

/-! ## A read of DATA[7] (R364) -/

theorem atticData7Read_moves {s : State} (hs : s.aon = true) (p : Port) :
    ∃ t, exec (.atticData7Read p) s = .next t ∧ (t.port p).rdata = s.rd .atcData p.num 7 ∧ s.sameTabsBut t [.ports] ∧
      if s.flag .atcCurAuto p.num then t.rd .atcCurIdx p.num = (s.rd .atcCurIdx p.num + 1) % (if s.flag .atcStatRam then 256 else 131072) ∧
        p.num ∈ t.attic.fetching
      else s.onlyChanges t [] [.ports] := by
  have run : exec (.atticData7Read p) s = .next (s.commit (s.data7 p)) := State.run_on (fun s => s.data7 p) hs
  have read : s.onlyChanges (s.returns p (s.rd .atcData p.num 7)) [] [.ports] := State.onlyChanges_returns (s.onlyChanges_refl _ _) p _
  have answer := s.rdata_returns p (s.rd .atcData p.num 7)
  cases auto : s.flag .atcCurAuto p.num with
  | false =>
    have still : s.data7 p = s.returns p (s.rd .atcData p.num 7) := by
      rw [State.data7, auto]
      rfl
    rw [still] at run
    refine ⟨_, run, ?_, State.sameTabs_commit read.2.1, ?_⟩
    · rw [State.port_commit, answer]
    · rw [if_neg Bool.false_ne_true]
      exact State.onlyChanges_commit read
  | true =>
    have moves : s.data7 p = ((s.returns p (s.rd .atcData p.num 7)).wr .atcCurIdx
        ((s.rd .atcCurIdx p.num + 1) % (if s.flag .atcStatRam then 256 else atticSize)) p.num).startFetch p.num := by
      rw [State.data7, auto]
      rfl
    rw [moves] at run
    generalize s.returns p (s.rd .atcData p.num 7) = n at run read answer
    obtain ⟨fetching, -, rd, port⟩ :=
      (n.wr .atcCurIdx ((s.rd .atcCurIdx p.num + 1) % (if s.flag .atcStatRam then 256 else atticSize)) p.num).startFetch_starts p.num
    refine ⟨_, run, ?_, State.sameTabs_commit (State.sameTabs_wr (State.sameTabs_withAttic (State.sameTabs_wr read.2.1 _ _ _ _) _) _ _ _ _), ?_⟩
    · rw [State.port_commit, port, State.port_wr, answer]
    · rw [if_pos rfl]
      refine ⟨?_, fetching⟩
      rw [State.rd_commit _ _ _ _ _ rfl, rd _ _ _ (by decide), State.rd_wr_same _ _ _ _ _ (port_field p).1]
      have low : (s.rd .atcCurIdx p.num + 1) % (if s.flag .atcStatRam then 256 else atticSize) < 2 ^ 17 := by
        split
        · exact lt_trans (Nat.mod_lt _ (by decide)) (by decide)
        · exact Nat.mod_lt _ (by decide)
      exact Nat.mod_eq_of_lt low

/-! ## The freeze (R365) -/

theorem atticFreeze_freezes {s : State} (hs : s.aon = true) (p : Port) :
    ∃ t, exec (.atticFreeze p) s = .next t ∧ t.flag .atcCfgFreeze = true ∧ t.flag .atcStatFrozen = true ∧
      s.sameRegsBut t [⟨.atcCfgFreeze, 0, 0⟩, ⟨.atcStatFrozen, 0, 0⟩] ∧ s.sameTabsBut t [] ∧
      t.core = { s.core with attic := { s.attic with freezeAt := s.now } } := by
  have run : exec (.atticFreeze p) s = .next (s.commit s.atticFreeze) := State.run_on (fun s => s.atticFreeze) hs
  have frozen : s.atticFreeze = ((s.wr .atcCfgFreeze 1).wr .atcStatFrozen 1).withAttic { s.attic with freezeAt := s.now } := rfl
  have regs : s.sameRegsBut ((s.wr .atcCfgFreeze 1).wr .atcStatFrozen 1) [⟨.atcCfgFreeze, 0, 0⟩, ⟨.atcStatFrozen, 0, 0⟩] :=
    State.sameRegs_wr (State.sameRegs_wr (s.sameRegs_same _) _ _ _ _ (by simp)) _ _ _ _ (by simp)
  have tabs : s.sameTabsBut ((s.wr .atcCfgFreeze 1).wr .atcStatFrozen 1) [] := State.sameTabs_wr (State.sameTabs_wr (s.sameTabs_same _) _ _ _ _) _ _ _ _
  have set : ((s.wr .atcCfgFreeze 1).wr .atcStatFrozen 1).flag .atcCfgFreeze = true := by
    rw [State.flag_wr_field _ _ _ _ _ _ (by decide)]
    exact State.flag_wr_one _ (f := .atcCfgFreeze) rfl rfl
  have shown : ((s.wr .atcCfgFreeze 1).wr .atcStatFrozen 1).flag .atcStatFrozen = true := State.flag_wr_one _ (f := .atcStatFrozen) rfl rfl
  have core : ((s.wr .atcCfgFreeze 1).wr .atcStatFrozen 1).core = s.core := (State.core_wr _ _ _ _ _).trans (State.core_wr _ _ _ _ _)
  rw [frozen] at run
  generalize (s.wr .atcCfgFreeze 1).wr .atcStatFrozen 1 = n at run regs tabs set shown core
  have now : n.now = s.now := (congrArg State.now core :)
  have pending : n.pending = s.pending := (congrArg State.pending core :)
  refine ⟨_, run, ?_, ?_, State.sameRegs_commit (State.sameRegs_withAttic regs _), State.sameTabs_commit (State.sameTabs_withAttic tabs _), ?_⟩
  · rw [State.flag, State.rd_commit _ _ _ _ _ rfl]
    exact set
  · rw [State.flag, State.rd_commit _ _ _ _ _ rfl]
    exact shown
  · exact (State.core_commit (n := n.withAttic { s.attic with freezeAt := s.now }) pending now).trans (core ▸ rfl)

theorem atticFreezeExpiry_thaws {s : State} (hs : s.aon = true) (frozen : s.flag .atcCfgFreeze = true) :
    ∃ t, exec .atticFreezeExpiry s = .next t ∧ t.flag .atcCfgFreeze = false ∧ t.flag .atcStatFrozen = false ∧
      s.attic.freezeAt + 10000000000 ≤ t.now ∧ s.sameTabsBut t [] := by
  have run : exec .atticFreezeExpiry s =
      .next (s.commit (((s.advanceTo (s.attic.freezeAt + 10000000000)).wr .atcCfgFreeze 0).wr .atcStatFrozen 0)) := by
    change execAtticFreezeExpiry s = _
    rw [execAtticFreezeExpiry, State.run_on _ hs, if_pos frozen]
  have now := s.advanceTo_now (s.attic.freezeAt + 10000000000)
  have tabs := s.sameTabs_advanceTo (s.attic.freezeAt + 10000000000)
  generalize s.attic.freezeAt + 10000000000 = a at run now tabs ⊢
  refine ⟨_, run, ?_, ?_, ?_, State.sameTabs_commit (State.sameTabs_wr (State.sameTabs_wr tabs _ _ _ _) _ _ _ _)⟩
  · rw [State.flag, State.rd_commit _ _ _ _ _ rfl, State.rd_wr_field _ _ _ _ _ _ (by decide), State.rd_wr_zero]
    rfl
  · rw [State.flag, State.rd_commit _ _ _ _ _ rfl, State.rd_wr_zero]
    rfl
  · rw [State.commit_now, State.wr_now, State.wr_now, now]
    exact (le_max_right _ _).trans (le_max_right _ _)

/-- Settles O56: each command of the Attic. -/
theorem atticRecordsAndCursors : Obligations.AtticRecordsAndCursors := by
  unfold Obligations.AtticRecordsAndCursors
  intro s p e l hs
  refine ⟨fun waits records r limited => ?_, fun flash runs => atticFailure_begins hs flash runs, fun v => atticCursorWrite_fetches hs p v,
    fun waits => atticFetchComplete_ends hs p waits, atticData7Read_moves hs p, atticFreeze_freezes hs p, fun frozen => atticFreezeExpiry_thaws hs frozen⟩
  subst limited
  exact ⟨fun made flash => ⟨atticRecordWrite_programs hs waits records made flash, atticRecordWrite_fails hs waits records made flash⟩,
    fun made ram => atticRecordWrite_ring hs waits records made ram, fun limited => atticRecordWrite_suppresses hs waits records limited⟩

end Sys2Proof.Machine

/-!
Settles O58: the common command codes of the I3C port and its transfers of data.
-/

namespace Sys2Proof.Machine

/-! ## The port's own state -/

/-- A command of the I3C port that moves its own state alone. -/
theorem State.updI3c_lands (s : State) (f : I3cState → I3cState) :
    (s.commit (s.updI3c f)).core = { s.core with i3c := f s.i3c } ∧ s.sameRegsBut (s.commit (s.updI3c f)) [] ∧
      s.sameTabsBut (s.commit (s.updI3c f)) [] := by
  refine ⟨State.core_commit (n := s.updI3c f) rfl rfl, State.sameRegs_commit (s.sameRegs_same _), State.sameTabs_commit fun x _ => ?_⟩
  have same := s.sameIn_refl x
  cases x <;> exact same

/-- An address set or given up is shown in TMSTAT. -/
theorem State.setDa_lands (s : State) {a : Nat} (low : a < 2 ^ 7) :
    (s.commit (s.setDa a)).i3c = { s.i3c with da := if a = 0 then none else some a } ∧ (s.commit (s.setDa a)).rd .govTmstatDa = a ∧
      s.sameRegsBut (s.commit (s.setDa a)) [⟨.govTmstatDa, 0, 0⟩] ∧ s.sameTabsBut (s.commit (s.setDa a)) [] := by
  have i3c : (s.wr .govTmstatDa a).i3c = s.i3c := s.wr_i3c _ _ _ _
  have shown : (s.wr .govTmstatDa a).rd .govTmstatDa = a := (State.rd_wr_same _ _ _ _ _ rfl).trans (Nat.mod_eq_of_lt low)
  have regs : s.sameRegsBut (s.wr .govTmstatDa a) [⟨.govTmstatDa, 0, 0⟩] := State.sameRegs_wr (s.sameRegs_same _) _ _ _ _ List.mem_cons_self
  have tabs : s.sameTabsBut (s.wr .govTmstatDa a) [] := State.sameTabs_wr (s.sameTabs_same _) _ _ _ _
  unfold State.setDa
  generalize s.wr .govTmstatDa a = n at i3c shown regs tabs
  refine ⟨?_, ?_, State.sameRegs_commit regs, State.sameTabs_commit fun x hx => ?_⟩
  · rw [State.i3c_commit, State.updI3c, i3c]
  · rw [State.rd_commit _ _ _ _ _ rfl]
    exact shown
  · have same := tabs x hx
    cases x <;> exact same

/-! ## The common command codes (R375) -/

section Codes
variable {s : State} (hs : s.aon = true)
include hs

omit hs in
theorem address_lands {c : Instr} {a : BitVec 7} (valid : a.toNat ≠ 0) (run : exec c s = .next (s.commit (s.setDa a.toNat))) :
    ∃ t, exec c s = .next t ∧ t.i3c = { s.i3c with da := some a.toNat } ∧ t.rd .govTmstatDa = a.toNat ∧
      s.sameRegsBut t [⟨.govTmstatDa, 0, 0⟩] ∧ s.sameTabsBut t [] := by
  obtain ⟨i3c, shown, regs, tabs⟩ := s.setDa_lands a.isLt
  rw [if_neg valid] at i3c
  exact ⟨_, run, i3c, shown, regs, tabs⟩

theorem exec_entdaa (a : BitVec 7) (free : s.i3c.da = none) : exec (.entdaa a) s = .next (s.commit (s.setDa a.toNat)) := by
  change execEntdaa a s = _
  rw [execEntdaa, State.run_on _ hs, free]
  rfl

theorem exec_setnewda (a : BitVec 7) (taken : s.i3c.da.isSome = true) (valid : a.toNat ≠ 0) :
    exec (.setnewda a) s = .next (s.commit (s.setDa a.toNat)) := by
  change execSetnewda a s = _
  rw [execSetnewda, State.run_on _ hs, taken, decide_eq_true valid]
  rfl

theorem rstdaa_lands : ∃ t, exec .rstdaa s = .next t ∧ t.i3c = { s.i3c with da := none } ∧ t.rd .govTmstatDa = 0 ∧ s.sameTabsBut t [] := by
  obtain ⟨i3c, shown, -, tabs⟩ := s.setDa_lands (a := 0) (by decide)
  exact ⟨_, State.run_on (fun s => s.setDa 0) hs, i3c, shown, tabs⟩

omit hs in
theorem enabled_lands {c : Instr} {b : Bool} (run : exec c s = .next (s.commit (s.updI3c fun x => { x with ibiEn := b }))) :
    ∃ t, exec c s = .next t ∧ t.core = { s.core with i3c := { s.i3c with ibiEn := b } } ∧ s.sameRegsBut t [] ∧ s.sameTabsBut t [] := by
  obtain ⟨core, regs, tabs⟩ := s.updI3c_lands fun x => { x with ibiEn := b }
  exact ⟨_, run, core, regs, tabs⟩

omit hs in
theorem answer_lands {c : Instr} {l : List Nat} (run : exec c s = .next (s.commit (s.answer l))) :
    ∃ t, exec c s = .next t ∧ t.core = { s.core with i3c := { s.i3c with reply := if s.i3c.da.isSome then l else [] } } ∧ s.sameRegsBut t [] ∧
      s.sameTabsBut t [] := by
  obtain ⟨core, regs, tabs⟩ := s.updI3c_lands fun x => { x with reply := if x.da.isSome then l else [] }
  exact ⟨_, run, core, regs, tabs⟩

/-- The commands whose answers the table fixes. -/
theorem fixed_answers {c : Instr} {l : List Nat}
    (listed : (c, l) ∈ [(Instr.getbcr, [6]), (.getdcr, [0]), (.getmwl, [0, 64]), (.getmrl, [0, 64]),
      (.getpid, (leBytes 6 (s.rd .chnNodeidId % 2 ^ 32 + 2 ^ 32 + 2 ^ 33 * 0x2C31)).reverse)]) : exec c s = .next (s.commit (s.answer l)) := by
  have pid : s.pid = s.rd .chnNodeidId % 2 ^ 32 + 2 ^ 32 + 2 ^ 33 * 0x2C31 := rfl
  rw [← pid] at listed
  simp only [List.mem_cons, List.not_mem_nil, or_false, Prod.mk.injEq] at listed
  rcases listed with ⟨rfl, rfl⟩ | ⟨rfl, rfl⟩ | ⟨rfl, rfl⟩ | ⟨rfl, rfl⟩ | ⟨rfl, rfl⟩
  · exact State.run_on (fun s => s.answer [6]) hs
  · exact State.run_on (fun s => s.answer [0]) hs
  · exact State.run_on (fun s => s.answer [0, 64]) hs
  · exact State.run_on (fun s => s.answer [0, 64]) hs
  · exact State.run_on (fun s => s.answer (leBytes 6 s.pid).reverse) hs

theorem getstatus_answers :
    ∃ t, exec .getstatus s = .next t ∧ t.i3c.reply.length = (if s.i3c.da.isSome then 2 else 0) ∧ t.free = s.free + 1 ∧ s.sameRegsBut t [] ∧
      s.sameTabsBut t [] := by
  refine ⟨_, State.run_on (fun s => (s.answer (leBytes 2 (s.freeNat 16)).reverse).useFree) hs, ?_, rfl, State.sameRegs_commit (s.sameRegs_same _),
    State.sameTabs_commit fun x _ => ?_⟩
  · change (if s.i3c.da.isSome then (leBytes 2 (s.freeNat 16)).reverse else []).length = _
    split
    · rw [List.length_reverse]
      rfl
    · rfl
  · have same := s.sameIn_refl x
    cases x <;> exact same

end Codes

/-! ## Private transfers (R225, R376) -/

/-- What a command that may lower limits leaves. -/
def State.guarded (s n : State) : State := { s.commit n with limits := lowered s.limits n.limits }

theorem State.rd_guarded (s n : State) {f : Field} (i j : Nat) (h : f.isLimit = false) : (s.guarded n).rd f i j = n.rd f i j :=
  State.rd_runLower s n i j _ h

/-- With the limits as they were, the guard keeps to a list of changes. -/
theorem State.sameRegs_guarded {s n : State} {l : List FieldRef} (h : s.sameRegsBut n l) (hn : n.limits = s.limits) :
    s.sameRegsBut (s.guarded n) l := by
  intro r hr
  cases hl : r.f.isLimit with
  | false => exact (State.rd_guarded s n r.i r.j hl).trans (h r hr)
  | true =>
    cases he : r.exists with
    | false => rw [State.reg_absent _ he, State.reg_absent _ he]
    | true =>
      rw [State.reg_limit _ he hl, State.reg_limit _ he hl]
      exact (congrArg (fun x => Store.get FieldRef.reset (lowered s.limits x) r) hn).trans (get_lowered_self _ _)

/-- The words that a write transfer brings. -/
def i3cBody (l : List Nat) : List Nat := wordsOf (l.length / 4 - 1) (l.drop 4)

/-- The address that a write transfer sets, kept for a read where no words follow. -/
def State.pointed (s : State) (l : List Nat) : State :=
  s.updI3c fun x => { x with ptr := if (i3cBody l).isEmpty then some (bytesWord (l.take 4)) else none }

/-- The state after a read, with its bytes for the port's answer. -/
def State.readEnded (r : List Nat × State) : State := r.2.updI3c fun x => { x with reply := r.1, ptr := none }

section Transfers
variable {s : State} (hs : s.aon = true) (addressed : s.i3c.da.isSome = true)
include hs addressed

theorem exec_i3cPrivateWrite (l : List Octet) :
    exec (.i3cPrivateWrite l) s = .next (s.guarded (if i3cLegal (l.map BitVec.toNat) then
      (s.pointed (l.map BitVec.toNat)).i3cWords (bytesWord ((l.map BitVec.toNat).take 4)) (i3cBody (l.map BitVec.toNat))
      else s.i3cError)) := by
  have stands : s.i3c.da.isNone = false := by rw [Option.isNone_eq_false_iff]; exact addressed
  change execI3cPrivateWrite l s = _
  rw [execI3cPrivateWrite, State.runLower_on _ hs]
  dsimp only
  rw [stands, if_neg Bool.false_ne_true]
  cases i3cLegal (l.map BitVec.toNat) <;> rfl

omit hs addressed in
/-- A protocol error is counted, and takes the address; the first in a second is a CORRECTED fault. -/
theorem State.i3cError_counts (s : State) :
    s.i3cError.rd .govTmstatPerr = s.oneUp .govTmstatPerr ∧ s.i3cError.i3c.ptr = none ∧
      (s.i3c.errSecond ≠ some (s.now / 1000000000) → s.i3cError.rd .fltCorr = s.oneUp .fltCorr) ∧
      (s.i3c.errSecond = some (s.now / 1000000000) → s.sameRegsBut s.i3cError [⟨.govTmstatPerr, 0, 0⟩] ∧ s.i3cError.limits = s.limits) := by
  have counted : (s.count .govTmstatPerr).rd .govTmstatPerr = s.oneUp .govTmstatPerr := s.rd_count_same (f := .govTmstatPerr) rfl
  have corr : (s.count .govTmstatPerr).oneUp .fltCorr = s.oneUp .fltCorr := by
    rw [State.oneUp, State.oneUp, State.count, State.rd_wr_field _ _ _ _ _ _ (by decide)]
  have regs : s.sameRegsBut (s.count .govTmstatPerr) [⟨.govTmstatPerr, 0, 0⟩] := State.sameRegs_wr (s.sameRegs_same _) _ _ _ _ List.mem_cons_self
  have limits : (s.count .govTmstatPerr).limits = s.limits := State.wr_limits _ _ _ _ _ rfl
  unfold State.i3cError
  dsimp only
  generalize s.count .govTmstatPerr = n at counted corr regs limits
  split
  · next again => exact ⟨counted, rfl, fun first => absurd again first, fun _ => ⟨regs, limits⟩⟩
  · next first =>
    refine ⟨?_, ?_, fun _ => ?_, fun again => absurd again first⟩
    · rw [rd_raise _ _ _ _ _ FaultClass.noConfusion rfl]
      exact counted
    · rw [State.i3c_raise_corrected _ rfl]
      rfl
    · rw [State.fltCorr_raise_corrected _ rfl]
      exact corr

theorem i3cPrivateWrite_error (l : List Octet) (illegal : i3cLegal (l.map BitVec.toNat) = false) :
    ∃ t, exec (.i3cPrivateWrite l) s = .next t ∧ t.rd .govTmstatPerr = s.oneUp .govTmstatPerr ∧ t.i3c.ptr = none ∧
      (s.i3c.errSecond ≠ some (s.now / 1000000000) → t.rd .fltCorr = s.oneUp .fltCorr) ∧
      (s.i3c.errSecond = some (s.now / 1000000000) → s.sameRegsBut t [⟨.govTmstatPerr, 0, 0⟩]) := by
  have run := exec_i3cPrivateWrite hs addressed l
  rw [illegal, if_neg Bool.false_ne_true] at run
  obtain ⟨counted, ptr, first, again⟩ := s.i3cError_counts
  refine ⟨_, run, ?_, ptr, fun h => ?_, fun h => ?_⟩
  · rw [State.rd_guarded _ _ _ _ rfl, counted]
  · rw [State.rd_guarded _ _ _ _ rfl, first h]
  · obtain ⟨regs, limits⟩ := again h
    exact State.sameRegs_guarded regs limits

theorem i3cPrivateWrite_address (l : List Octet) (legal : i3cLegal (l.map BitVec.toNat) = true) (four : l.length = 4) :
    ∃ t, exec (.i3cPrivateWrite l) s = .next t ∧ t.core = { s.core with i3c := { s.i3c with ptr := some (bytesWord (l.map BitVec.toNat)) } } ∧
      s.sameRegsBut t [] ∧ s.sameTabsBut t [] := by
  have run := exec_i3cPrivateWrite hs addressed l
  have length : (l.map BitVec.toNat).length = 4 := by rw [List.length_map, four]
  have body : i3cBody (l.map BitVec.toNat) = [] := by rw [i3cBody, length]; rfl
  have whole : (l.map BitVec.toNat).take 4 = l.map BitVec.toNat := List.take_of_length_le length.le
  rw [legal, if_pos rfl, State.pointed, body, whole] at run
  obtain ⟨core, regs, tabs⟩ := s.updI3c_lands fun x => { x with ptr := some (bytesWord (l.map BitVec.toNat)) }
  exact ⟨_, run, core, State.sameRegs_guarded (n := s.updI3c _) (s.sameRegs_same _) rfl, fun x hx => by
    have same := tabs x hx
    cases x <;> exact same⟩

/-! ### HRT.INLET -/

omit hs addressed in
theorem State.busWrite_inlet (s : State) (v : Nat) :
    s.busWrite .i3c 0x0500C v true none = (s.wrote .i3c 0x5000 0xC).inlet (v / 2 ^ 0 % 2 ^ 16) := by
  rfl

theorem i3cPrivateWrite_inlet (x y : Octet) :
    ∃ t, exec (.i3cPrivateWrite [0x0C#8, 0x50#8, 0#8, 0#8, x, y, 0#8, 0#8]) s = .next t ∧
      t.rd .hrtInletVal = ofSigned 16 (max (-160) (min 1280 (toSigned 16 (x.toNat + 256 * y.toNat)))) ∧ t.flag .hrtHstatStale = false ∧
      t.i3c.ptr = none := by
  have run := exec_i3cPrivateWrite hs addressed [0x0C#8, 0x50#8, 0#8, 0#8, x, y, 0#8, 0#8]
  have bytes : [0x0C#8, 0x50#8, 0#8, 0#8, x, y, 0#8, 0#8].map BitVec.toNat = [0x0C, 0x50, 0, 0, x.toNat, y.toNat, 0, 0] := rfl
  have address : bytesWord ([0x0C, 0x50, 0, 0, x.toNat, y.toNat, 0, 0].take 4) = 0x0500C := by
    simp [bytesWord]
  have legal : i3cLegal [0x0C, 0x50, 0, 0, x.toNat, y.toNat, 0, 0] = true := by
    rw [i3cLegal, address]
    simp
  have body : i3cBody [0x0C, 0x50, 0, 0, x.toNat, y.toNat, 0, 0] = [x.toNat + 256 * y.toNat] := by
    simp [i3cBody, wordsOf, bytesWord]
  rw [bytes, legal, if_pos rfl, address, body, State.pointed, body] at run
  have value : (x.toNat + 256 * y.toNat) / 2 ^ 0 % 2 ^ 16 = x.toNat + 256 * y.toNat := by
    have := x.isLt
    have := y.isLt
    omega
  have single (n : State) (v : Nat) : n.i3cWords 0x0500C [v] = (n.wrote .i3c 0x5000 0xC).inlet (v / 2 ^ 0 % 2 ^ 16) := n.busWrite_inlet v
  rw [single, value, State.inlet_eq, List.isEmpty_cons, if_neg Bool.false_ne_true] at run
  have ptr : ((s.updI3c fun x => { x with ptr := none }).wrote .i3c 0x5000 0xC).i3c.ptr = none := by
    rw [State.i3c_wrote]
    rfl
  generalize (s.updI3c fun x => { x with ptr := none }).wrote .i3c 0x5000 0xC = n at run ptr
  refine ⟨_, run, ?_, ?_, ?_⟩
  · rw [State.rd_guarded _ _ _ _ rfl, State.rd_inletTimed, State.rd_inletMarked _ _ _ _ (by decide), State.val_inletShown]
    rfl
  · rw [State.flag, State.rd_guarded _ _ _ _ rfl, State.rd_inletTimed, State.rd_inletMarked _ _ _ _ (by decide)]
    exact State.stale_inletShown _ _
  · exact (congrArg I3cState.ptr (inletWritten_other (g := State.i3c) State.put_i3c (by intros; rfl) n _)).trans ptr

/-! ### A read transfer -/

omit hs addressed in
theorem State.i3cFetch_length (s : State) (a n : Nat) : (s.i3cFetch a n).1.length = 4 * n := by
  induction n generalizing s a with
  | zero => rfl
  | succ n ih =>
    rw [State.i3cFetch, List.length_append, ih]
    change 4 + 4 * n = _
    omega

theorem i3cPrivateRead_zeros (n : Nat) (none : s.i3c.ptr = none) :
    ∃ t, exec (.i3cPrivateRead n) s = .next t ∧ t.i3c.reply = List.replicate (4 * min 16 n) 0 ∧ s.sameRegsBut t [] ∧ s.sameTabsBut t [] := by
  have stands : s.i3c.da.isNone = false := by rw [Option.isNone_eq_false_iff]; exact addressed
  have run : exec (.i3cPrivateRead n) s = .next (s.commit (s.updI3c fun x => { x with reply := List.replicate (4 * min 16 n) 0 })) := by
    change execI3cPrivateRead n s = _
    rw [execI3cPrivateRead, State.run_on _ hs]
    simp only [stands, none, Bool.false_eq_true, if_false]
  obtain ⟨-, regs, tabs⟩ := s.updI3c_lands fun x => { x with reply := List.replicate (4 * min 16 n) 0 }
  exact ⟨_, run, rfl, regs, tabs⟩

theorem i3cPrivateRead_words (n a : Nat) (set : s.i3c.ptr = some a) :
    ∃ t, exec (.i3cPrivateRead n) s = .next t ∧ t.i3c.reply.length = 4 * min 16 n ∧ t.i3c.ptr = none ∧
      (n = 1 → t.i3c.reply = wordBytes (t.port .i3c).rdata) := by
  have stands : s.i3c.da.isNone = false := by rw [Option.isNone_eq_false_iff]; exact addressed
  have run : exec (.i3cPrivateRead n) s = .next (s.commit (State.readEnded (s.i3cFetch a (min 16 n)))) := by
    change execI3cPrivateRead n s = _
    rw [execI3cPrivateRead, State.run_on _ hs]
    simp only [stands, set, Bool.false_eq_true, if_false]
    rfl
  refine ⟨_, run, s.i3cFetch_length a _, rfl, fun one => ?_⟩
  subst one
  rw [State.port_commit]
  exact List.append_nil _

end Transfers

/-- Settles O58: each command code, and each transfer of data. -/
theorem i3cPort : Obligations.I3cPort := by
  unfold Obligations.I3cPort
  refine ⟨fun s a hs => ⟨fun free valid => address_lands valid (exec_entdaa hs a free),
    fun taken valid => address_lands valid (exec_setnewda hs a taken valid),
    rstdaa_lands hs, enabled_lands (State.run_on (fun s => s.updI3c fun x => { x with ibiEn := true }) hs),
    enabled_lands (State.run_on (fun s => s.updI3c fun x => { x with ibiEn := false }) hs), fun x c l listed da => ?_, getstatus_answers hs⟩,
    fun s hs => ⟨fun l addressed => ⟨i3cPrivateWrite_error hs addressed l, i3cPrivateWrite_address hs addressed l⟩,
      fun x y addressed => i3cPrivateWrite_inlet hs addressed x y,
      fun n addressed => ⟨i3cPrivateRead_zeros hs addressed n, fun a set => i3cPrivateRead_words hs addressed n a set⟩⟩⟩
  subst da
  exact answer_lands (fixed_answers hs listed)

end Sys2Proof.Machine

/-!
Settles O57: the service states from COLD to FULL, the rail groups, the calibration steps and the policy's defaults.
-/

namespace Sys2Proof.Machine

/-! ## What new divisors and voltages leave -/

/-- A reading that a branch set to a divisor and a voltage that follows it do not reach. -/
structure PaceBlind {α : Type} (g : State → α) : Prop where
  put : ∀ s (r : FieldRef) v, r.f ∈ clampFields → g (State.put s r v) = g s
  raise : ∀ s (x : FaultRec), x.cls ≠ .fatal → g (State.raise s x) = g s
  dies : ∀ s x, g { s with dies := x } = g s
  rails : ∀ s x, g { s with rails := x } = g s

theorem pace_svc : PaceBlind State.svc where
  put s r v hr := State.reg_put_other (r := ⟨.govStateCur, 0, 0⟩) s v (by rintro rfl; exact absurd hr (by decide))
  raise s x hx := rd_raise s x _ _ _ hx rfl
  dies _ _ := rfl
  rails _ _ := rfl

theorem pace_now : PaceBlind State.now where
  put s r v _ := s.put_now r v
  raise s x hx := raise_blind blind_now s x hx
  dies _ _ := rfl
  rails _ _ := rfl

section Pace
variable {α : Type} {g : State → α} (hg : PaceBlind g)
include hg

theorem PaceBlind.wr (s : State) {f : Field} (v i j : Nat) (h : f ∈ clampFields) : g (s.wr f v i j) = g s := hg.put s ⟨f, i, j⟩ v h

theorem PaceBlind.setBranch (s : State) (k div : Nat) : g (s.setBranch k div) = g s := by
  have clamp (b : Bool) (t : State) : g (if b then t.wr .clkStatusDivclamp 1 else t) = g t := by
    split
    · exact hg.wr _ _ _ _ (by decide)
    · rfl
  have slow (b : Bool) (d : Nat) (t : State) : g (if b then t.raise (corr 15 2 d 8) else t) = g t := by
    split
    · exact hg.raise _ _ FaultClass.noConfusion
    · rfl
  have deep (t : State) (v : Nat) : g (t.setGdep k v) = g t := (hg.dies _ _).trans ((hg.wr _ _ _ _ (by decide)).trans (hg.dies t _))
  unfold State.setBranch
  dsimp only
  split
  · rw [slow, clamp, hg.wr _ _ _ _ (by decide)]
  · rw [deep, slow, clamp, hg.wr _ _ _ _ (by decide)]

theorem PaceBlind.follow : FollowBlind g :=
  ⟨fun s r v hr => hg.put s r v (by revert hr; cases r.f <;> decide), hg.rails⟩

theorem PaceBlind.enterFloor (s : State) : g s.enterFloorState = g (s.setSvc svcFloor) :=
  each_blind _ _ (fun t d => (followVf_follow hg.follow _ d).trans (each_blind _ _ (fun u k => hg.setBranch u k _) t)) _

end Pace

theorem takeVids_follow {α : Type} {g : State → α} (hg : FollowBlind g) (s : State) : g s.takeVids = g s := by
  unfold State.takeVids
  split
  · rfl
  · refine each_blind _ _ (fun t r => ?_) s
    split
    · exact (hg.rails _ _).trans (setVid_follow hg _ _ _)
    · rfl

/-! ## The service state advances at a boundary (R371, R373, R374) -/

theorem State.now_setSvc (s : State) (st : Nat) : (s.setSvc st).now = s.now := setSvc_latch latch_now s st

/-- A state entered at the boundary, with the time of that boundary. -/
theorem State.at_boundary (s : State) {n : State} (now : n.now = (s.advanceTo (ceilTo 250 s.now)).now) : (s.commit n).now = ceilTo 250 s.now := by
  have later := ge_ceilTo 250 s.now (by decide)
  rw [State.commit_now, now, State.advanceTo_now, max_eq_right later, max_eq_right later]

theorem State.svc_advanceTo (s : State) (t : Nat) : (s.advanceTo t).svc = s.svc := s.rd_advanceTo t _ _ (by decide)

theorem State.svc_commit (s n : State) : (s.commit n).svc = n.svc := State.rd_commit _ _ _ _ _ rfl

/-- CALIBRATING before its first step begins. -/
def State.calibratingShown (s : State) : State := ((s.setSvc svcCalibrating).takeVids).each (upto 40) fun s d => s.wr .dagDrpcfgEn 1 d

theorem State.calibratingShown_stands (s : State) :
    s.calibratingShown.svc = svcCalibrating ∧ s.calibratingShown.now = s.now ∧ ∀ d, d < 40 → s.calibratingShown.flag .dagDrpcfgEn d = true := by
  refine ⟨?_, ?_, fun d hd => ?_⟩
  · exact (each_blind (g := State.svc) _ _ (fun t _ => t.rd_wr_field _ _ _ _ _ (by decide)) _).trans
      ((takeVids_follow (follow_rd 0 0 (by decide)) _).trans (State.svc_setSvc _ (by decide)))
  · exact (each_blind (g := State.now) _ _ (fun t _ => t.wr_now _ _ _ _) _).trans ((takeVids_follow pace_now.follow _).trans (State.now_setSvc _ _))
  · have there : (⟨.dagDrpcfgEn, d, 0⟩ : FieldRef).exists = true := by
      have all : ∀ d : Fin 40, (⟨.dagDrpcfgEn, d.val, 0⟩ : FieldRef).exists = true := by decide
      exact all ⟨d, hd⟩
    refine State.each_sets (P := fun t => t.flag .dagDrpcfgEn d = true) (x := d) (List.mem_range.2 hd) (fun t => State.flag_wr_one t there rfl)
      (fun t e set => ?_) _
    by_cases same : e = d
    · rw [same]
      exact State.flag_wr_one t there rfl
    · refine (congrArg (fun v => decide (v = 1)) (State.reg_put_other t 1 ?_)).trans set
      exact fun h => same (congrArg FieldRef.i h)

section Advance
variable {s : State} (hs : s.aon = true)
include hs

theorem stateAdvance_floor (cold : s.svc = svcCold) (ready : s.floorReady = true) :
    ∃ t, exec .stateAdvance s = .next t ∧ t.svc = svcFloor ∧ t.now = ceilTo 250 s.now := by
  have run : exec .stateAdvance s = .next (s.commit (s.advanceTo (ceilTo 250 s.now)).enterFloorState) := by
    change execStateAdvance s = _
    rw [execStateAdvance, State.run_on _ hs]
    simp only [cold, ready, decide_true, Bool.and_self, if_true]
  refine ⟨_, run, ?_, s.at_boundary ?_⟩
  · rw [State.svc_commit, pace_svc.enterFloor, State.svc_setSvc _ (by decide)]
  · rw [pace_now.enterFloor, State.now_setSvc]

theorem stateAdvance_calibrating (floor : s.svc = svcFloor) (ready : s.refReady = true) :
    ∃ t, exec .stateAdvance s = .next t ∧ t.svc = svcCalibrating ∧ t.now = ceilTo 250 s.now ∧ t.start.step = 1 ∧ t.start.calAt = t.now ∧
      t.start.waitOver = false ∧ ∀ d, d < 40 → t.flag .dagDrpcfgEn d = true := by
  have run : exec .stateAdvance s = .next (s.commit (s.advanceTo (ceilTo 250 s.now)).enterCalibrating) := by
    have notCold : svcFloor ≠ svcCold := by decide
    change execStateAdvance s = _
    rw [execStateAdvance, State.run_on _ hs]
    simp only [floor, ready, notCold, decide_false, decide_true, Bool.false_and, Bool.and_self, Bool.false_eq_true, if_false, if_true]
  have begun : (s.advanceTo (ceilTo 250 s.now)).enterCalibrating = (s.advanceTo (ceilTo 250 s.now)).calibratingShown.updStart fun x =>
      { x with calAt := (s.advanceTo (ceilTo 250 s.now)).calibratingShown.now, step := 1, waitOver := false } := rfl
  rw [begun] at run
  obtain ⟨svc, now, detects⟩ := (s.advanceTo (ceilTo 250 s.now)).calibratingShown_stands
  generalize (s.advanceTo (ceilTo 250 s.now)).calibratingShown = n at run svc now detects
  have ends : (s.commit (n.updStart fun x => { x with calAt := n.now, step := 1, waitOver := false })).now = ceilTo 250 s.now := s.at_boundary now
  have starts : n.now = ceilTo 250 s.now := by rw [now, State.advanceTo_now, max_eq_right (ge_ceilTo 250 s.now (by decide))]
  refine ⟨_, run, ?_, ends, rfl, starts.trans ends.symm, rfl, fun d hd => ?_⟩
  · rw [State.svc_commit]
    exact svc
  · rw [State.flag, State.rd_commit _ _ _ _ _ rfl]
    exact detects d hd

/-- FULL as the state before a missing standby is reported. -/
def State.fullShown (s : State) : State :=
  (s.setSvc svcFull).updStart fun x => { x with fullAt := some (x.fullAt.getD ((s.setSvc svcFull).rd .fltAonns)) }

omit hs in
theorem State.fullShown_stands (s : State) : s.fullShown.svc = svcFull ∧ s.fullShown.now = s.now ∧
    s.fullShown.flag .govHallStbyrdy = s.flag .govHallStbyrdy := by
  have svc : (s.setSvc svcFull).svc = svcFull := State.svc_setSvc _ (by decide)
  have now := s.now_setSvc svcFull
  have ready : (s.setSvc svcFull).rd .govHallStbyrdy = s.rd .govHallStbyrdy := setSvc_svc (svc_rd 0 0 rfl rfl) s svcFull
  unfold State.fullShown
  generalize s.setSvc svcFull = n at svc now ready
  exact ⟨svc, now, congrArg (fun v => decide (v = 1)) ready⟩

omit hs in
theorem State.nostby_noStandby (s : State) : s.noStandby.flag .fltStatusNostby = true := by
  unfold State.noStandby
  dsimp only
  split
  · assumption
  · rw [State.flag, rd_raise _ _ _ _ _ FaultClass.noConfusion rfl]
    exact State.flag_wr_one _ (f := .fltStatusNostby) rfl rfl

theorem stateAdvance_full (calibrating : s.svc = svcCalibrating) (done : s.start.step = 6) (ready : s.waitBits = 0) :
    ∃ t, exec .stateAdvance s = .next t ∧ t.svc = svcFull ∧ t.now = ceilTo 250 s.now ∧ (∀ d, t.detectsOn d = true) ∧
      (s.flag .govHallStbyrdy = false → t.flag .fltStatusNostby = true) := by
  have run : exec .stateAdvance s = .next (s.commit (s.advanceTo (ceilTo 250 s.now)).enterFull) := by
    have notCold : svcCalibrating ≠ svcCold := by decide
    have notFloor : svcCalibrating ≠ svcFloor := by decide
    change execStateAdvance s = _
    rw [execStateAdvance, State.run_on _ hs]
    simp only [calibrating, done, ready, notCold, notFloor, decide_false, decide_true, Bool.false_and, Bool.and_self, Bool.false_eq_true, if_false,
      if_true]
  have begun : (s.advanceTo (ceilTo 250 s.now)).enterFull = if (s.advanceTo (ceilTo 250 s.now)).fullShown.flag .govHallStbyrdy then
      (s.advanceTo (ceilTo 250 s.now)).fullShown else (s.advanceTo (ceilTo 250 s.now)).fullShown.noStandby := rfl
  obtain ⟨svc, now, standby⟩ := (s.advanceTo (ceilTo 250 s.now)).fullShown_stands
  have before : (s.advanceTo (ceilTo 250 s.now)).flag .govHallStbyrdy = s.flag .govHallStbyrdy :=
    congrArg (fun v => decide (v = 1)) (s.rd_advanceTo _ _ _ (by decide))
  rw [before] at standby
  rw [begun] at run
  generalize (s.advanceTo (ceilTo 250 s.now)).fullShown = n at run svc now standby
  rw [standby] at run
  have full (m : State) (h : m.svc = svcFull) (d : Nat) : (s.commit m).detectsOn d = true := by
    rw [State.detectsOn, State.svc_commit, h]
    exact Bool.or_true _
  cases missing : s.flag .govHallStbyrdy with
  | true =>
    rw [missing, if_pos rfl] at run
    exact ⟨_, run, (s.svc_commit n).trans svc, s.at_boundary now, full n svc, fun h => absurd h Bool.true_eq_false.mp⟩
  | false =>
    rw [missing, if_neg Bool.false_ne_true] at run
    have svc : n.noStandby.svc = svcFull := (n.rd_noStandby 0 0 rfl (by decide) (by decide)).trans svc
    refine ⟨_, run, (s.svc_commit _).trans svc, s.at_boundary (n.now_noStandby.trans now), full _ svc, fun _ => ?_⟩
    rw [State.flag, State.rd_commit _ _ _ _ _ rfl]
    exact n.nostby_noStandby

end Advance

/-! ## The rail groups (R372) -/

theorem groupRails_kind {g r : Nat} (h : r ∈ groupRails g) : (railType r).isSome = true := by
  have found := (List.mem_filter.1 h).2
  cases kind : railType r with
  | none => simp [kind] at found
  | some _ => rfl

/-- A group's rails with EN set. -/
def State.groupEnabled (s : State) (g : Nat) : State :=
  (s.updStart fun x => { x with group := g }).each (groupRails g) fun s r => s.wr .rgcCfgEn 1 r

theorem State.groupEnabled_sets (s : State) (g : Nat) :
    ((s.groupEnabled g).each (groupRails g) State.startRail).start.group = g ∧
      ∀ r ∈ groupRails g, ((s.groupEnabled g).each (groupRails g) State.startRail).flag .rgcCfgEn r = true := by
  constructor
  · have started (t : State) (r : Nat) : (t.startRail r).start = t.start := t.startRail_other State.put_start (by intros; rfl) r
    rw [each_blind (g := State.start) _ _ started, State.groupEnabled, each_blind (g := State.start) _ _ (fun t _ => t.wr_start _ _ _ _)]
    rfl
  · intro r hr
    have kept (t : State) (q : Nat) : (t.startRail q).rd .rgcCfgEn r = t.rd .rgcCfgEn r := t.rd_startRail q _ _ (by decide) (by decide)
    rw [State.flag, each_blind (g := fun t => t.rd .rgcCfgEn r) _ _ kept]
    refine State.each_sets (P := fun t => t.flag .rgcCfgEn r = true) hr (fun t => t.en_enabled (groupRails_kind hr)) (fun t q set => ?_) _
    by_cases same : q = r
    · rw [same]
      exact t.en_enabled (groupRails_kind hr)
    · refine (congrArg (fun v => decide (v = 1)) (State.reg_put_other t 1 ?_)).trans set
      exact fun h => same (congrArg FieldRef.i h)

theorem railGroupStart_starts {s : State} (hs : s.aon = true) {g : Nat} (group : s.start.group = g) (more : g < 4) (cold : s.svc = svcCold)
    (runs : s.ccUp = true) (go : s.flag .govTmctlRailgo = true) (steady : s.start.draining = false) (up : s.start.stopping = false)
    (ready : g = 0 ∨ s.groupReady g = true) (still : ∀ r ∈ groupRails (g + 1), s.railSt r ≠ railDown) :
    ∃ t, exec .railGroupStart s = .next t ∧ t.start.group = g + 1 ∧ ∀ r ∈ groupRails (g + 1), t.flag .rgcCfgEn r = true := by
  have run : exec .railGroupStart s = .next (s.commit ((s.groupEnabled (g + 1)).each (groupRails (g + 1)) State.startRail)) := by
    have few : ¬4 ≤ g := by omega
    have none : (groupRails (g + 1)).any (fun r => decide (s.railSt r = railDown)) = false := by simpa using still
    have next : (decide (g = 0) || s.groupReady g) = true := by simpa using ready
    change execRailGroupStart s = _
    rw [execRailGroupStart, State.run_on _ hs]
    simp only [group, cold, runs, go, steady, up, few, none, next, ne_eq, not_true_eq_false, decide_false, Bool.not_true, Bool.or_self,
      Bool.false_eq_true, if_false]
    rfl
  obtain ⟨started, enabled⟩ := s.groupEnabled_sets (g + 1)
  refine ⟨_, run, started, fun r hr => ?_⟩
  rw [State.flag, State.rd_commit _ _ _ _ _ rfl]
  exact enabled r hr

end Sys2Proof.Machine

/-!
Settles O57: the calibration steps and what a step leaves (R88, R155, R217, R373).
-/

namespace Sys2Proof.Machine

/-! ## The work of a calibration step -/

/-- A reading that no register, no rail, no die and no ageing state carries, and that a CORRECTED fault leaves. -/
structure WorkBlind {α : Type} (g : State → α) : Prop where
  put : ∀ s r v, g (State.put s r v) = g s
  rails : ∀ s x, g { s with rails := x } = g s
  dies : ∀ s x, g { s with dies := x } = g s
  halls : ∀ s x, g { s with halls := x } = g s
  age : ∀ s x, g { s with age := x } = g s
  raise : ∀ s (x : FaultRec), x.cls ≠ .fatal → g (State.raise s x) = g s

theorem work_start : WorkBlind State.start where
  put := State.put_start
  rails _ _ := rfl
  dies _ _ := rfl
  halls _ _ := rfl
  age _ _ := rfl
  raise s x hx := raise_blind (by apply blind_of <;> intros <;> rfl) s x hx

section Work
variable {α : Type} {g : State → α} (hg : WorkBlind g)
include hg

theorem WorkBlind.wr (s : State) (f : Field) (v i j : Nat) : g (s.wr f v i j) = g s := hg.put s ⟨f, i, j⟩ v

theorem WorkBlind.tuneRail (s : State) (f : RailFound) : g (s.tuneRail f) = g s := by
  have shadow (x : RailState → RailState) : g (s.updRail f.rail.val x) = g s := hg.rails s _
  unfold State.tuneRail State.commitComp
  dsimp only
  split
  · exact shadow _
  · split
    · split
      · exact (hg.rails _ _).trans (shadow _)
      · exact (State.takeComp_other hg.put hg.rails _ _).trans ((hg.rails _ _).trans (shadow _))
    · exact (hg.wr _ _ _ _ _).trans (shadow _)

theorem WorkBlind.applyFound (s : State) (f : DieFound) : g (s.applyFound f) = g s := by
  have dets : g (s.each f.dets fun s x =>
      (s.wr .dagDrpchrClo x.clo.toNat f.die.val x.det.val).wr .dagDrpchrChi x.chi.toNat f.die.val x.det.val) = g s :=
    each_blind _ _ (fun t x => (hg.wr _ _ _ _ _).trans (hg.wr _ _ _ _ _)) s
  have coefs (t : State) : g (t.each f.coefs fun s x => s.wr .dagEcoefCoef x.2.toNat f.die.val x.1.val) = g t :=
    each_blind _ _ (fun t x => hg.wr _ _ _ _ _) t
  have leak (t : State) : g (t.each f.leak fun s x =>
      if x.1.val % 2 = 0 then s.wr .dagEleakLo x.2.toNat f.die.val (x.1.val / 2) else s.wr .dagEleakHi x.2.toNat f.die.val (x.1.val / 2)) = g t := by
    refine each_blind _ _ (fun t x => ?_) t
    split <;> exact hg.wr _ _ _ _ _
  have taps (t : State) (b : Bool) (v : Nat) :
      g (if b then t else (t.wr .dagDrptcTcal v f.die.val).retap f.die.val) = g t := by
    split
    · rfl
    · exact (State.retap_other (fun t v i => hg.wr t _ _ _ _) (fun t v i => hg.wr t _ _ _ _) _).trans (hg.wr _ _ _ _ _)
  unfold State.applyFound
  dsimp only
  split <;> split
  · rw [hg.wr, hg.wr, leak, coefs, taps, dets]
  · rw [hg.wr, leak, coefs, taps, dets]
  · rw [hg.wr, leak, coefs, taps, dets]
  · rw [leak, coefs, taps, dets]

theorem WorkBlind.suspect (s : State) (d i : Nat) : g (s.suspect d i) = g s := by
  unfold State.suspect State.dieFault
  split
  · rfl
  · split
    · exact (hg.dies _ _).trans (hg.wr _ _ _ _ _)
    · exact (hg.raise _ _ FaultClass.noConfusion).trans (hg.wr _ _ _ _ _)

theorem WorkBlind.trimSensors (s : State) (d : Nat) : g (s.trimSensors d) = g s := by
  refine each_blind _ _ (fun t i => ?_) s
  dsimp only
  split
  · exact hg.wr _ _ _ _ _
  · exact (hg.suspect _ _ _).trans (hg.wr _ _ _ _ _)

theorem WorkBlind.releaseAge (s : State) (d : Nat) : g (s.releaseAge d) = g s := by
  unfold State.releaseAge
  dsimp only
  split
  · exact (hg.halls _ _).trans (hg.age s _)
  · exact hg.age s _

theorem WorkBlind.calWork (s : State) (r : StepResult) : g (s.calWork r) = g s := by
  unfold State.calWork
  dsimp only
  split
  · exact each_blind _ _ hg.tuneRail s
  · exact each_blind _ _ (fun t f => hg.applyFound t _) s
  · exact each_blind _ _ hg.trimSensors s
  · exact each_blind _ _ (fun t f => hg.applyFound t _) s
  · exact each_blind _ _ hg.releaseAge s
  · rfl

end Work

/-- The last step moves no register. -/
theorem State.rd_calWork {s : State} (last : s.start.step = 5) (r : StepResult) (f : Field) (i j : Nat) : (s.calWork r).rd f i j = s.rd f i j := by
  simp only [State.calWork, last]
  refine each_blind (g := fun t => t.rd f i j) _ _ (fun t d => ?_) s
  unfold State.releaseAge
  dsimp only
  split <;> rfl

/-! ## The end of a step (R373) -/

section Step
variable {s : State} (hs : s.aon = true)
include hs

/-- A step done, the next one begun. -/
def State.nextStep (s : State) (r : StepResult) : State := (s.calWork r).updStart fun x => { x with step := x.step + 1 }

/-- An overrun reported. -/
def State.overrun (s : State) : State :=
  s.useFree.raise (corr (1 + s.freeNat 16 % 21) (s.freeNat 24 / 2 ^ 16) (unitOf (40 + s.active) 0) 0)

theorem exec_calibrationStepEnd (r : StepResult) (calibrating : s.svc = svcCalibrating) (first : 1 ≤ s.start.step) (last : s.start.step ≤ 5) :
    exec (.calibrationStepEnd r) s = .next (s.commit (if r.missed.isEmpty then s.nextStep r else (s.nextStep r).overrun)) := by
  change execCalibrationStepEnd r s = _
  rw [execCalibrationStepEnd, State.run_on _ hs]
  simp only [calibrating, first, last, decide_true, Bool.and_self, if_true]
  rfl

omit hs in
theorem State.start_overrun (s : State) : s.overrun.start = s.start :=
  work_start.raise _ _ FaultClass.noConfusion

omit hs in
theorem State.fltCorr_overrun (s : State) : s.overrun.rd .fltCorr = s.oneUp .fltCorr := State.fltCorr_raise_corrected _ rfl

theorem calibrationStepEnd_advances (r : StepResult) (calibrating : s.svc = svcCalibrating) (first : 1 ≤ s.start.step) (last : s.start.step ≤ 5) :
    ∃ t, exec (.calibrationStepEnd r) s = .next t ∧ t.start.step = s.start.step + 1 ∧
      (s.start.step = 5 → t.rd .fltCorr = if r.missed = [] then s.rd .fltCorr else s.oneUp .fltCorr) := by
  have run := exec_calibrationStepEnd hs r calibrating first last
  have step : (s.nextStep r).start.step = s.start.step + 1 := congrArg (fun x => x.step + 1) (work_start.calWork s r)
  have corr (five : s.start.step = 5) : (s.nextStep r).rd .fltCorr = s.rd .fltCorr := State.rd_calWork five r _ _ _
  generalize s.nextStep r = n at run step corr
  by_cases none : r.missed = []
  · rw [none, List.isEmpty_nil, if_pos rfl] at run
    refine ⟨_, run, step, fun five => ?_⟩
    rw [State.rd_commit _ _ _ _ _ rfl, corr five, if_pos none]
  · have some : r.missed.isEmpty = false := by simpa using none
    rw [some, if_neg Bool.false_ne_true] at run
    refine ⟨_, run, (congrArg StartState.step n.start_overrun).trans step, fun five => ?_⟩
    rw [State.rd_commit _ _ _ _ _ rfl, n.fltCorr_overrun, State.oneUp, corr five, if_neg none, State.oneUp]

omit hs in
/-- What the end of the wait at the time `a` leaves. -/
theorem State.waited (s : State) (a : Nat) {t : State} (ended : t = s.commit ((s.advanceTo a).updStart fun x => { x with waitOver := true })) :
    t.start.waitOver = true ∧ a ≤ t.now ∧ s.sameTabsBut t [] := by
  subst ended
  have now := s.advanceTo_now a
  have tabs := s.sameTabs_advanceTo a
  generalize s.advanceTo a = n at now tabs
  refine ⟨rfl, ?_, State.sameTabs_commit fun x hx => ?_⟩
  · have later : a ≤ n.now := now ▸ le_max_right _ _
    exact later.trans (le_max_right _ _)
  · have same := tabs x hx
    cases x <;> exact same

theorem calibratingWaitExpiry_ends (calibrating : s.svc = svcCalibrating) :
    ∃ t, exec .calibratingWaitExpiry s = .next t ∧ t.start.waitOver = true ∧ s.start.calAt + 2000000000 ≤ t.now ∧ s.sameTabsBut t [] := by
  have run : exec .calibratingWaitExpiry s =
      .next (s.commit ((s.advanceTo (s.start.calAt + 2000000000)).updStart fun x => { x with waitOver := true })) := by
    change execCalibratingWaitExpiry s = _
    rw [execCalibratingWaitExpiry, State.run_on _ hs, if_pos calibrating]
  exact ⟨_, run, s.waited _ rfl⟩

end Step

end Sys2Proof.Machine

/-!
Settles O57: the policy that the active Hall takes as its control complex starts (R333), and the whole of start-up.
-/

namespace Sys2Proof.Machine

/-- The three registers that show what the policy came to. -/
def State.policyShown (s : State) (defaulted pver : Nat) : State :=
  ((s.wr .fwcBootPolicydefaulted defaulted).wr .fwcPolicyPver pver).wr .fwcPolicySkip 0

abbrev policyRefs : List FieldRef := [⟨.fwcBootPolicydefaulted, 0, 0⟩, ⟨.fwcPolicyPver, 0, 0⟩, ⟨.fwcPolicySkip, 0, 0⟩]

theorem State.rd_policyShown (s : State) (defaulted pver : Nat) :
    (s.policyShown defaulted pver).rd .fwcBootPolicydefaulted = defaulted % 2 ∧ (s.policyShown defaulted pver).rd .fwcPolicyPver = pver % 2 ^ 16 ∧
      (s.policyShown defaulted pver).rd .fwcPolicySkip = 0 ∧ (s.policyShown defaulted pver).rd .lrdCellarSize = s.rd .lrdCellarSize := by
  unfold State.policyShown
  refine ⟨?_, ?_, State.rd_wr_zero _ _ _ _, ?_⟩
  · rw [State.rd_wr_field _ _ _ _ _ _ (by decide), State.rd_wr_field _ _ _ _ _ _ (by decide), State.rd_wr_same _ .fwcBootPolicydefaulted _ _ _ rfl]
    rfl
  · rw [State.rd_wr_field _ _ _ _ _ _ (by decide), State.rd_wr_same _ .fwcPolicyPver _ _ _ rfl]
    rfl
  · rw [State.rd_wr_field _ _ _ _ _ _ (by decide), State.rd_wr_field _ _ _ _ _ _ (by decide), State.rd_wr_field _ _ _ _ _ _ (by decide)]

theorem State.onlyChanges_policyShown (s : State) (defaulted pver : Nat) : s.onlyChanges (s.policyShown defaulted pver) policyRefs [] :=
  State.onlyChanges_wr (State.onlyChanges_wr (State.onlyChanges_wr (s.onlyChanges_refl _ _) _ _ _ _ (by simp)) _ _ _ _ (by simp)) _ _ _ _ (by simp)

theorem State.limits_policyShown (s : State) (defaulted pver : Nat) : (s.policyShown defaulted pver).limits = s.limits :=
  (State.wr_limits _ _ _ _ _ rfl).trans ((State.wr_limits _ _ _ _ _ rfl).trans (State.wr_limits _ _ _ _ _ rfl))

theorem State.cellar_setCellarSize (s : State) : (s.setCellarSize 0).rd .lrdCellarSize = 0 := by
  unfold State.setCellarSize
  split
  · next same => exact same.symm
  · exact s.rd_wr_zero .lrdCellarSize 0 0

/-- The thermal networks as fused. -/
def State.networkFused (s : State) : State := { s with hearth := { s.hearth with network := [] } }

theorem State.policyDefaults_eq (s : State) :
    s.policyDefaults = ((((s.setCellarSize 0).policyShown 1 0).networkFused.noticeAll 8 0).event (19 * 256 + 2) 0 (unitOf (40 + s.active) 0) none) :=
  rfl

theorem State.policyDefaults_shows (s : State) :
    s.policyDefaults.flag .fwcBootPolicydefaulted = true ∧ s.policyDefaults.rd .fwcPolicyPver = 0 ∧ s.policyDefaults.rd .lrdCellarSize = 0 ∧
      s.policyDefaults.hearth.network = [] := by
  obtain ⟨defaulted, pver, -, cellar⟩ := (s.setCellarSize 0).rd_policyShown 1 0
  rw [s.cellar_setCellarSize] at cellar
  rw [s.policyDefaults_eq]
  generalize (s.setCellarSize 0).policyShown 1 0 = n at defaulted pver cellar
  have told (f : Field) (h : noticeField f = false) :
      ((n.networkFused.noticeAll 8 0).event (19 * 256 + 2) 0 (unitOf (40 + s.active) 0) none).rd f = n.rd f :=
    (event_notice (notice_rd 0 0 h) _ _ _ _ _).trans (noticeAll_notice (notice_rd 0 0 h) _ _ _)
  have hearth : NoticeBlind State.hearth := by apply notice_of <;> intros <;> rfl
  refine ⟨?_, ?_, ?_, ?_⟩
  · rw [State.flag, told _ rfl, defaulted]
    rfl
  · rw [told _ rfl, pver]
    rfl
  · rw [told _ rfl, cellar]
  · rw [event_notice hearth, noticeAll_notice hearth]
    rfl

/-- What the active Hall's control complex takes as policy. -/
def State.policyTaken (s : State) : State :=
  if !blobValid (s.region 2) then s.policyDefaults
  else State.applyRecords ((((s.region 2).take (wordAt (s.region 2) 2 / 4 - 1)).drop 4).map BitVec.toNat).length
    ((((s.region 2).take (wordAt (s.region 2) 2 / 4 - 1)).drop 4).map BitVec.toNat) (s.policyShown 0 (wordAt (s.region 2) 3 % 2 ^ 16))

section Policy
variable {s : State} (hs : s.aon = true) {h : Hall} (runs : s.ccUp = true) (active : h.val = s.active)
include hs runs active

theorem exec_policyApply : exec (.policyApply h) s = .next (s.guarded s.policyTaken) := by
  change execPolicyApply h s = _
  rw [execPolicyApply, State.runLower_on _ hs]
  simp only [runs, active, Bool.not_true, ne_eq, not_true_eq_false, decide_false, Bool.or_self, Bool.false_eq_true, if_false]
  rfl

theorem policyApply_defaults (invalid : blobValid (s.region 2) = false) :
    ∃ t, exec (.policyApply h) s = .next t ∧ t.flag .fwcBootPolicydefaulted = true ∧ t.rd .fwcPolicyPver = 0 ∧ t.rd .lrdCellarSize = 0 ∧
      t.hearth.network = [] := by
  have run := exec_policyApply hs runs active
  rw [State.policyTaken, invalid, Bool.not_false, if_pos rfl] at run
  obtain ⟨defaulted, pver, cellar, network⟩ := s.policyDefaults_shows
  generalize s.policyDefaults = n at run defaulted pver cellar network
  refine ⟨_, run, ?_, ?_, ?_, network⟩
  · rw [State.flag, State.rd_guarded _ _ _ _ rfl]
    exact defaulted
  · rw [State.rd_guarded _ _ _ _ rfl, pver]
  · rw [State.rd_guarded _ _ _ _ rfl, cellar]

/-- A blob of a header and its check word alone holds no records. -/
theorem policyApply_empty (valid : blobValid (s.region 2) = true) (short : wordAt (s.region 2) 2 = 20) :
    ∃ t, exec (.policyApply h) s = .next t ∧ t.flag .fwcBootPolicydefaulted = false ∧ t.rd .fwcPolicyPver = wordAt (s.region 2) 3 % 2 ^ 16 ∧
      t.rd .fwcPolicySkip = 0 ∧ s.onlyChanges t [⟨.fwcBootPolicydefaulted, 0, 0⟩, ⟨.fwcPolicyPver, 0, 0⟩, ⟨.fwcPolicySkip, 0, 0⟩] [] := by
  have run := exec_policyApply hs runs active
  have none : ((s.region 2).take (20 / 4 - 1)).drop 4 = [] := List.drop_eq_nil_of_le (List.length_take_le 4 _)
  rw [State.policyTaken, valid, short, none, Bool.not_true, if_neg Bool.false_ne_true, List.map_nil, List.length_nil, State.applyRecords] at run
  obtain ⟨defaulted, pver, skip, -⟩ := s.rd_policyShown 0 (wordAt (s.region 2) 3 % 2 ^ 16)
  have changes := s.onlyChanges_policyShown 0 (wordAt (s.region 2) 3 % 2 ^ 16)
  have limits := s.limits_policyShown 0 (wordAt (s.region 2) 3 % 2 ^ 16)
  generalize s.policyShown 0 (wordAt (s.region 2) 3 % 2 ^ 16) = n at run defaulted pver skip changes limits
  refine ⟨_, run, ?_, ?_, ?_, State.onlyChanges_runLower changes limits⟩
  · rw [State.flag, State.rd_guarded _ _ _ _ rfl, defaulted]
    rfl
  · rw [State.rd_guarded _ _ _ _ rfl, pver, Nat.mod_mod]
  · rw [State.rd_guarded _ _ _ _ rfl, skip]

end Policy

/-- Settles O57: each step of start-up, and the policy. -/
theorem startUpAdvances : Obligations.StartUpAdvances := by
  unfold Obligations.StartUpAdvances
  intro s hs
  exact ⟨fun cold ready => stateAdvance_floor hs cold ready, fun floor ready => stateAdvance_calibrating hs floor ready,
    fun calibrating done ready => stateAdvance_full hs calibrating done ready,
    fun g group more cold runs go steady up ready still => railGroupStart_starts hs group more cold runs go steady up ready still,
    fun r calibrating first last => calibrationStepEnd_advances hs r calibrating first last, fun calibrating => calibratingWaitExpiry_ends hs calibrating,
    fun h runs active => ⟨fun invalid => policyApply_defaults hs runs active invalid, fun valid short => policyApply_empty hs runs active valid short⟩⟩

end Sys2Proof.Machine

/-!
Settles O60: the heartbeats of the tray and of the block (R25, R378 to R380).
-/

namespace Sys2Proof.Machine

theorem State.start_advanceTo (s : State) (t : Nat) : (s.advanceTo t).start = s.start :=
  State.advanceTo_other State.start State.put_start (by intros; rfl) (by intros; rfl) s t

theorem State.sameTabs_updStart {s n : State} {l : List Tab} (h : s.sameTabsBut n l) (f : StartState → StartState) :
    s.sameTabsBut (n.updStart f) l := by
  intro x hx
  have same := h x hx
  cases x <;> exact same

/-! ## Edges (R378) -/

/-- The instant of an edge after the one before it. -/
def State.edgeAt (s : State) (n : Nat) : Nat := match s.start.lastEdge with | some l => l + n | none => s.now

/-- Whether an edge counts. -/
def State.edgeCounts (s : State) (n : Nat) : Bool := s.start.lastEdge.isSome && decide (250000 ≤ n) && decide (n ≤ 2000000)

/-- An edge noted at the instant that the state shows. -/
def State.edgeNoted (s : State) (counts : Bool) : State :=
  s.updStart fun x => { x with edges := if counts then min 16 (x.edges + 1) else 0, lastEdge := some s.now }

section Beats
variable {s : State} (hs : s.aon = true)
include hs

theorem tmHeartbeatEdge_counts (n : Nat) :
    ∃ t, exec (.tmHeartbeatEdge n) s = .next t ∧ t.start.lastEdge = some t.now ∧ s.sameTabsBut t [] ∧
      (∀ a, s.start.lastEdge = some a → a + n ≤ t.now) ∧
      t.start.edges = if s.start.lastEdge.isSome ∧ 250000 ≤ n ∧ n ≤ 2000000 then min 16 (s.start.edges + 1) else 0 := by
  have run : exec (.tmHeartbeatEdge n) s = .next (s.commit ((s.advanceTo (s.edgeAt n)).edgeNoted (s.edgeCounts n))) := by
    change execTmHeartbeatEdge n s = _
    rw [execTmHeartbeatEdge, State.run_on _ hs]
    rfl
  have now := s.advanceTo_now (s.edgeAt n)
  have start := s.start_advanceTo (s.edgeAt n)
  have tabs := s.sameTabs_advanceTo (s.edgeAt n)
  have later : s.now ≤ (s.advanceTo (s.edgeAt n)).now ∧ s.edgeAt n ≤ (s.advanceTo (s.edgeAt n)).now := by
    rw [now]
    exact ⟨le_max_left _ _, le_max_right _ _⟩
  generalize s.advanceTo (s.edgeAt n) = m at run now start tabs later
  have ends : (s.commit (m.edgeNoted (s.edgeCounts n))).now = m.now := max_eq_right later.1
  refine ⟨_, run, congrArg some ends.symm, State.sameTabs_commit (State.sameTabs_updStart tabs _), fun a at_a => ?_, ?_⟩
  · rw [ends]
    refine le_trans (le_of_eq ?_) later.2
    rw [State.edgeAt, at_a]
  · change (if s.edgeCounts n then min 16 (m.start.edges + 1) else 0) = _
    rw [start]
    refine if_congr ?_ rfl rfl
    rw [State.edgeCounts, Bool.and_eq_true, Bool.and_eq_true, decide_eq_true_eq, decide_eq_true_eq, and_assoc]

/-! ## Presence and loss (R378, R380) -/

/-- The heartbeat shown as present. -/
def State.presentShown (s : State) : State :=
  ((s.wr .govTmhbPresent 1).wr .govTmhbSeen 1).updStart fun x => { x with lost := false }

theorem tmHeartbeatPresent_shows (sixteen : 16 ≤ s.start.edges) (absent : s.flag .govTmhbPresent = false) :
    ∃ t, exec .tmHeartbeatPresent s = .next t ∧ t.flag .govTmhbPresent = true ∧ t.flag .govTmhbSeen = true ∧
      t.force = { s.force with held8 := false } ∧ t.floorOn = s.floorOn ∧ t.start.lost = false ∧
      s.sameRegsBut t [⟨.govTmhbPresent, 0, 0⟩, ⟨.govTmhbSeen, 0, 0⟩, ⟨.govStateFloorf, 0, 0⟩] ∧ s.sameTabsBut t [] := by
  have run : exec .tmHeartbeatPresent s = .next (s.commit (s.presentShown.releaseFloor fun f => { f with held8 := false })) := by
    have enough : ¬s.start.edges < 16 := by omega
    change execTmHeartbeatPresent s = _
    rw [execTmHeartbeatPresent, State.run_on _ hs]
    simp only [enough, absent, decide_false, Bool.or_self, Bool.false_eq_true, if_false]
    rfl
  have present : ((s.wr .govTmhbPresent 1).wr .govTmhbSeen 1).flag .govTmhbPresent = true := by
    rw [State.flag_wr_field _ _ _ _ _ _ (by decide)]
    exact State.flag_wr_one s (f := .govTmhbPresent) rfl rfl
  have seen : ((s.wr .govTmhbPresent 1).wr .govTmhbSeen 1).flag .govTmhbSeen = true := State.flag_wr_one _ (f := .govTmhbSeen) rfl rfl
  have force : ((s.wr .govTmhbPresent 1).wr .govTmhbSeen 1).force = s.force := (State.wr_force _ _ _ _ _).trans (State.wr_force _ _ _ _ _)
  have floor : ((s.wr .govTmhbPresent 1).wr .govTmhbSeen 1).floorOn = s.floorOn := (State.floorOn_wr _ _ _ _ _).trans (State.floorOn_wr _ _ _ _ _)
  have regs : s.sameRegsBut ((s.wr .govTmhbPresent 1).wr .govTmhbSeen 1)
      [⟨.govTmhbPresent, 0, 0⟩, ⟨.govTmhbSeen, 0, 0⟩, ⟨.govStateFloorf, 0, 0⟩] :=
    State.sameRegs_wr (State.sameRegs_wr (s.sameRegs_same _) _ _ _ _ (by simp)) _ _ _ _ (by simp)
  have tabs : s.sameTabsBut ((s.wr .govTmhbPresent 1).wr .govTmhbSeen 1) [] :=
    State.sameTabs_wr (State.sameTabs_wr (s.sameTabs_same _) _ _ _ _) _ _ _ _
  unfold State.presentShown at run
  generalize (s.wr .govTmhbPresent 1).wr .govTmhbSeen 1 = n at run present seen force floor regs tabs
  have kept (r : FieldRef) (h : (⟨.govStateFloorf, 0, 0⟩ : FieldRef) ≠ r) :
      ((n.updStart fun x => { x with lost := false }).releaseFloor fun f => { f with held8 := false }).reg r = n.reg r :=
    State.reg_put_other _ _ h
  refine ⟨_, run, ?_, ?_, ?_, ?_, ?_, State.sameRegs_commit fun r hr => ?_, State.sameTabs_commit fun x hx => ?_⟩
  · rw [State.flag, State.rd_commit _ _ _ _ _ rfl, State.rd_releaseFloor _ _ _ _ (by decide)]
    exact present
  · rw [State.flag, State.rd_commit _ _ _ _ _ rfl, State.rd_releaseFloor _ _ _ _ (by decide)]
    exact seen
  · rw [State.force_commit, State.force_releaseFloor, ← force]
    rfl
  · rw [State.floorOn_commit, releaseFloor_other (g := State.floorOn) State.floorOn_put (by intros; rfl)]
    exact floor
  · rw [State.start_commit, releaseFloor_other (g := State.start) State.put_start (by intros; rfl)]
    rfl
  · exact (kept r fun e => hr (e ▸ by simp)).trans (regs r hr)
  · rw [releaseFloor_other (g := fun a => s.sameIn a x) (fun a r v => s.sameIn_wr a r.f v r.i r.j x) (fun _ _ => by cases x <;> rfl)]
    exact State.sameTabs_updStart tabs _ x hx

/-- The heartbeat shown as lost at the instant `a`. -/
def State.lostShown (s : State) (a : Nat) : State := ((s.advanceTo a).wr .govTmhbPresent 0).updStart fun x => { x with edges := 0, lost := true }

/-- What HELD notes, where FULL is the state that gives way, beneath STEWARD too. -/
def State.heldNoted (s : State) : State := if s.baseSvc = svcFull then s.enterHeld else s

def State.heldUnder (s : State) : State := { s with svcUnder := svcHeld }

/-- What the loss makes of FULL. -/
def State.heldBegun (s : State) : State :=
  if s.svc = svcFull then s.heldNoted.setSvc svcHeld else if s.baseSvc = svcFull then s.heldNoted.heldUnder else s.heldNoted

/-- The fault of a heartbeat that is lost. -/
def State.heartbeatFault (s : State) (detail : Nat) : FaultRec := corr 20 detail (unitOf (40 + s.active) 0) 0

omit hs in
theorem State.lostShown_stands (s : State) (a : Nat) :
    (s.lostShown a).flag .govTmhbPresent = false ∧ (s.lostShown a).start.lost = true ∧ (s.lostShown a).start.edges = 0 ∧
      a ≤ (s.lostShown a).now ∧ (s.lostShown a).lim = s.lim ∧
      ∀ f, f ∉ timeFields → f ≠ .govTmhbPresent → (s.lostShown a).rd f = s.rd f := by
  have now : (s.lostShown a).now = max s.now a := ((s.advanceTo a).wr_now _ _ _ _).trans (s.advanceTo_now a)
  have lim : (s.lostShown a).lim = s.lim := ((s.advanceTo a).wr_lim _ _ _ _).trans (s.lim_advanceTo a)
  refine ⟨?_, rfl, rfl, now ▸ le_max_right _ _, lim, fun f timed other => ?_⟩
  · exact congrArg (fun v => decide (v = 1)) ((s.advanceTo a).rd_wr_zero .govTmhbPresent 0 0)
  · exact ((s.advanceTo a).rd_wr_field _ _ _ _ _ other.symm).trans (s.rd_advanceTo a _ _ timed)

theorem exec_tmHeartbeatLost (present : s.flag .govTmhbPresent = true) :
    exec .tmHeartbeatLost s =
      .next (s.commit ((s.lostShown (s.start.lastEdge.getD s.now + 500000000)).heldBegun.raise (s.heartbeatFault 1))) := by
  change execTmHeartbeatLost s = _
  rw [execTmHeartbeatLost, State.run_on _ hs]
  simp only [present, Bool.not_true, Bool.false_eq_true, if_false]
  rfl

end Beats

/-! ### HELD (R34, R228, R247) -/

section Held
variable {α : Type} {g : State → α} (lim : ∀ s x, g { s with lim := x } = g s) (chain : ∀ s x, g { s with chain := x } = g s)
  (halls : ∀ s x, g { s with halls := x } = g s) (hearth : ∀ s x, g { s with hearth := x } = g s)
  (eff : ∀ s v, g (State.wr s .chnHoldEff v) = g s)
include halls hearth eff

/-- The limits and the holding as HELD notes them. -/
def State.heldLimits (s : State) : State :=
  { s with lim := { s.lim with heldElec := some s.lim.elec, heldTherm := some s.lim.therm, heldBand := s.lim.band }
           chain := { s.chain with heldHold := some s.holding } }

theorem State.enterHeld_after (s : State) : g s.enterHeld = g s.heldLimits := by
  have grants (t : State) : g (t.each (upto 32) fun s d => s.updHd d fun x =>
      match x.lastGrant with
      | some g => { x with heldG := g.g, heldSb := g.sb }
      | none => x) = g t := each_blind _ _ (fun t _ => halls t _) t
  have terms (t : State) : g (t.each (upto 40) fun s d => s.updHearthDie d fun x => { x with heldTerm := s.rd .hrtDieTerm 0 d }) = g t :=
    each_blind _ _ (fun t _ => hearth t _) t
  exact (eff _ _).trans ((terms _).trans (grants _))

include lim chain in
theorem State.heldNoted_other (s : State) : g s.heldNoted = g s := by
  unfold State.heldNoted
  split
  · exact (State.enterHeld_after halls hearth eff s).trans
      ((lim { s with chain := { s.chain with heldHold := some s.holding } }
        { s.lim with heldElec := some s.lim.elec, heldTherm := some s.lim.therm, heldBand := s.lim.band }).trans
        (chain s { s.chain with heldHold := some s.holding }))
  · rfl

end Held

theorem State.heldNoted_svc (s : State) : s.heldNoted.svc = s.svc :=
  State.heldNoted_other (g := State.svc) (by intros; rfl) (by intros; rfl) (by intros; rfl) (by intros; rfl)
    (fun s v => s.rd_wr_field v 0 0 0 0 (by decide)) s

/-- A reading that HELD leaves as it begins. -/
structure HeldBlind {α : Type} (g : State → α) : Prop extends SvcBlind g where
  lim : ∀ s x, g { s with lim := x } = g s
  halls : ∀ s x, g { s with halls := x } = g s
  hearth : ∀ s x, g { s with hearth := x } = g s
  svcUnder : ∀ s x, g { s with svcUnder := x } = g s
  eff : ∀ s v, g (State.wr s .chnHoldEff v) = g s

theorem State.heldBegun_other {α : Type} {g : State → α} (hg : HeldBlind g) (s : State) : g s.heldBegun = g s := by
  have noted := State.heldNoted_other hg.lim hg.chain hg.halls hg.hearth hg.eff s
  unfold State.heldBegun
  split
  · exact (setSvc_svc hg.toSvcBlind _ _).trans noted
  · split
    · exact (hg.svcUnder _ _).trans noted
    · exact noted

theorem held_rd {f : Field} (hn : noticeField f = false) (hs : svcField f = false) (h : .chnHoldEff ≠ f) : HeldBlind fun s : State => s.rd f where
  toSvcBlind := svc_rd 0 0 hn hs
  lim _ _ := rfl
  halls _ _ := rfl
  hearth _ _ := rfl
  svcUnder _ _ := rfl
  eff s v := s.rd_wr_field v 0 0 0 0 h

theorem held_start : HeldBlind State.start :=
  ⟨by apply svc_of (by apply notice_of <;> intros <;> rfl) <;> intros <;> rfl, by intros; rfl, by intros; rfl, by intros; rfl, by intros; rfl,
    fun s v => s.start_wr _ _ _ _⟩

theorem held_now : HeldBlind State.now :=
  ⟨by apply svc_of (by apply notice_of <;> intros <;> rfl) <;> intros <;> rfl, by intros; rfl, by intros; rfl, by intros; rfl, by intros; rfl,
    fun s v => s.wr_now _ _ _ _⟩

/-- A change of service state before the Chain answers it. -/
def State.svcMoved (s : State) (st : Nat) : State :=
  if s.svc = svcFull && st ≠ svcFailsafe && ((((s.wr .govStatePrev s.svc).wr .govStateCur st).noticeAll 4 (st + 8 * s.svc)).info 1).updating then
    ((((s.wr .govStatePrev s.svc).wr .govStateCur st).noticeAll 4 (st + 8 * s.svc)).info 1).failUpdate 5
  else (((s.wr .govStatePrev s.svc).wr .govStateCur st).noticeAll 4 (st + 8 * s.svc)).info 1

/-- It reaches neither the Chain nor the pins. -/
theorem State.svcMoved_other {α : Type} {g : State → α} (hg : NoticeBlind g) (hr : ∀ s x, g { s with regs := x } = g s)
    (hl : ∀ s x, g { s with limits := x } = g s) (upd : ∀ s x, g { s with upd := x } = g s) (ctrl : ∀ s x, g { s with ctrl := x } = g s) (s : State)
    (st : Nat) : g (s.svcMoved st) = g s := by
  have wr (t : State) (f : Field) (v i j : Nat) : g (t.wr f v i j) = g t := State.wr_other hr hl t f v i j
  have moved : g ((((s.wr .govStatePrev s.svc).wr .govStateCur st).noticeAll 4 (st + 8 * s.svc)).info 1) = g s := by
    rw [State.info, event_notice hg, noticeAll_notice hg, wr, wr]
  have failed (t : State) : g (t.failUpdate 5) = g t := by
    unfold State.failUpdate State.setStage
    dsimp only
    rw [State.info, event_notice hg, wr, wr, upd]
    split
    · exact (wr _ _ _ _ _).trans (ctrl t _)
    · rfl
  unfold State.svcMoved
  split
  · exact (failed _).trans moved
  · exact moved

theorem State.setSvc_moves {s : State} {st : Nat} (new : s.svc ≠ st) (h : st ≠ svcSteward) :
    s.setSvc st = if s.svc = svcSteward then { s.svcMoved st with pins := { (s.svcMoved st).pins with bypHold := (s.svcMoved st).bypWanted } }
      else s.svcMoved st := by
  rw [State.setSvc, if_neg new]
  dsimp only
  rw [if_neg h]
  rfl

/-- A change of service state other than to STEWARD leaves the Chain as it is. -/
theorem State.chain_setSvc (s : State) {st : Nat} (h : st ≠ svcSteward) : (s.setSvc st).chain = s.chain := by
  by_cases new : s.svc = st
  · rw [State.setSvc, if_pos new]
  · have moved : (s.svcMoved st).chain = s.chain :=
      State.svcMoved_other (g := State.chain) (by apply notice_of <;> intros <;> rfl) (by intros; rfl) (by intros; rfl) (by intros; rfl) (by intros; rfl) s st
    rw [State.setSvc_moves new h]
    split
    · exact moved
    · exact moved

/-- What HELD notes as FULL gives way: the holding and the limits, which may not rise. -/
theorem State.heldBegun_notes {s : State} (full : s.svc = svcFull) :
    s.heldBegun.svc = svcHeld ∧ s.heldBegun.chain.heldHold = some s.holding ∧ s.heldBegun.lim.heldElec = some s.lim.elec ∧
      s.heldBegun.lim.heldTherm = some s.lim.therm := by
  have base : s.baseSvc = svcFull := by
    rw [State.baseSvc, full]
    rfl
  have begun : s.heldBegun = s.enterHeld.setSvc svcHeld := by rw [State.heldBegun, if_pos full, State.heldNoted, if_pos base]
  have chain : s.enterHeld.chain = s.heldLimits.chain :=
    State.enterHeld_after (g := State.chain) (by intros; rfl) (by intros; rfl) (fun s v => s.chain_wr _ _ _ _) s
  have lim : s.enterHeld.lim = s.heldLimits.lim :=
    State.enterHeld_after (g := State.lim) (by intros; rfl) (by intros; rfl) (fun s v => s.wr_lim _ _ _ _) s
  have kept : (s.enterHeld.setSvc svcHeld).lim = s.enterHeld.lim :=
    setSvc_svc (by apply svc_of (by apply notice_of <;> intros <;> rfl) <;> intros <;> rfl) _ _
  rw [begun, State.chain_setSvc _ (by decide), kept, chain, lim]
  exact ⟨State.svc_setSvc _ (by decide), rfl, rfl, rfl⟩

theorem State.heldBegun_svc {s : State} (other : s.svc ≠ svcFull) : s.heldBegun.svc = s.svc := by
  unfold State.heldBegun
  rw [if_neg other]
  split
  · exact s.heldNoted_svc
  · exact s.heldNoted_svc

/-! ### The loss -/

theorem tmHeartbeatLost_shows {s : State} (hs : s.aon = true) (present : s.flag .govTmhbPresent = true) :
    ∃ t, exec .tmHeartbeatLost s = .next t ∧ t.flag .govTmhbPresent = false ∧ t.start.lost = true ∧
      t.start.edges = 0 ∧ t.rd .fltCorr = s.oneUp .fltCorr ∧ (∀ a, s.start.lastEdge = some a → a + 500000000 ≤ t.now) ∧
      (s.svc = svcFull → t.svc = svcHeld ∧ t.chain.heldHold = some s.holding ∧ t.lim.heldElec = some s.lim.elec ∧
        t.lim.heldTherm = some s.lim.therm) ∧
      (s.svc ≠ svcFull → t.svc = s.svc) := by
  have run := exec_tmHeartbeatLost hs present
  have corrected : (s.heartbeatFault 1).cls = .corrected := rfl
  generalize s.heartbeatFault 1 = f at run corrected
  have later (a : Nat) (h : s.start.lastEdge = some a) : a + 500000000 = s.start.lastEdge.getD s.now + 500000000 := by rw [h, Option.getD_some]
  generalize s.start.lastEdge.getD s.now + 500000000 = a at run later
  obtain ⟨absent, lost, edges, now, lim, rd⟩ := s.lostShown_stands a
  have corr := rd .fltCorr (by decide) (by decide)
  have svc := rd .govStateCur (by decide) (by decide)
  have hold := rd .chnHoldHolding (by decide) (by decide)
  generalize s.lostShown a = n at run absent lost edges now lim corr svc hold
  have notes (full : n.svc = svcFull) := State.heldBegun_notes full
  have same (other : n.svc ≠ svcFull) := State.heldBegun_svc other
  have absent : n.heldBegun.flag .govTmhbPresent = false :=
    (congrArg (fun v => decide (v = 1)) (State.heldBegun_other (held_rd (f := .govTmhbPresent) rfl rfl (by decide)) n)).trans absent
  have corr : n.heldBegun.oneUp .fltCorr = s.oneUp .fltCorr := by
    have through : n.heldBegun.rd .fltCorr = s.rd .fltCorr := (State.heldBegun_other (held_rd (f := .fltCorr) rfl rfl (by decide)) n).trans corr
    rw [State.oneUp, through, State.oneUp]
  have start := State.heldBegun_other held_start n
  have now : a ≤ n.heldBegun.now := now.trans (State.heldBegun_other held_now n).ge
  generalize n.heldBegun = m at run notes same absent corr start now
  have field (f' : Field) (h : faultField f' = false) : (m.raise f).rd f' = m.rd f' := rd_raise _ _ _ _ _ (by rw [corrected]; exact FaultClass.noConfusion) h
  have startAfter : (m.raise f).start = n.start :=
    (State.raise_corrected_other (g := State.start) (by intros; rfl) (by intros; rfl) (by intros; rfl) m corrected).trans start
  have chainAfter : (m.raise f).chain = m.chain :=
    State.raise_corrected_other (g := State.chain) (by intros; rfl) (by intros; rfl) (by intros; rfl) m corrected
  have limAfter : (m.raise f).lim = m.lim :=
    State.raise_corrected_other (g := State.lim) (by intros; rfl) (by intros; rfl) (by intros; rfl) m corrected
  have nowAfter : (m.raise f).now = m.now :=
    State.raise_corrected_other (g := State.now) (by intros; rfl) (by intros; rfl) (by intros; rfl) m corrected
  have corrAfter := m.fltCorr_raise_corrected corrected
  have svcAfter : (m.raise f).svc = m.svc := field .govStateCur rfl
  have absentAfter : (m.raise f).flag .govTmhbPresent = false := (congrArg (fun v => decide (v = 1)) (field .govTmhbPresent rfl)).trans absent
  generalize m.raise f = e at run startAfter chainAfter limAfter nowAfter corrAfter svcAfter absentAfter
  refine ⟨_, run, ?_, ?_, ?_, ?_, fun b h => ?_, fun full => ?_, fun other => ?_⟩
  · rw [State.flag, State.rd_commit _ _ _ _ _ rfl]
    exact absentAfter
  · rw [State.start_commit, startAfter, lost]
  · rw [State.start_commit, startAfter, edges]
  · rw [State.rd_commit _ _ _ _ _ rfl, corrAfter, corr]
  · rw [later b h, State.commit_now, nowAfter]
    exact now.trans (le_max_right _ _)
  · obtain ⟨held, holding, elec, therm⟩ := notes (svc.trans full)
    refine ⟨?_, ?_, ?_, ?_⟩
    · rw [State.svc_commit, svcAfter, held]
    · rw [State.chain_commit, chainAfter, holding, State.holding, hold, State.holding]
    · rw [State.lim_commit, limAfter, elec, lim]
    · rw [State.lim_commit, limAfter, therm, lim]
  · rw [State.svc_commit, svcAfter, same fun h => other (svc.symm.trans h)]
    exact svc

/-! ## 8 s without an edge (R379) -/

/-- The floor state that the loss forces. -/
def State.lossForced (s : State) : State := s.forceFloor fun f => { f with held8 := true }

theorem State.lossForced_stands (s : State) :
    s.lossForced.force.held8 = true ∧ s.lossForced.floorOn = true ∧ s.lossForced.now = s.now ∧ s.lossForced.svc = s.svc ∧
      s.lossForced.rd .fltCorr = s.rd .fltCorr ∧ ∀ c, c < 128 → s.lossForced.rd .clkCbrCur 0 c = 0x200 := by
  have force := s.force_forceFloor fun f => { f with held8 := true }
  exact ⟨congrArg Forcing.held8 force, s.floorOn_forceFloor _, State.enterFloor_other (g := State.now) (by intros; rfl) (by intros; rfl) _,
    s.rd_forceFloor _ _ _ rfl, s.rd_forceFloor _ _ _ rfl, fun c hc => State.at32_enterFloor hc _⟩

theorem exec_held8s {s : State} (hs : s.aon = true) (lost : s.start.lost = true) (absent : s.flag .govTmhbPresent = false)
    (first : s.force.held8 = false) :
    exec .held8s s = .next (s.commit (((s.advanceTo (s.start.lastEdge.getD s.now + 8000000000)).lossForced.raise (s.heartbeatFault 2)).noticeAll 5 0)) := by
  change execHeld8s s = _
  rw [execHeld8s, State.run_on _ hs]
  simp only [lost, absent, first, Bool.not_true, Bool.or_self, Bool.false_eq_true, if_false]
  rfl

theorem held8s_forces {s : State} (hs : s.aon = true) (lost : s.start.lost = true) (absent : s.flag .govTmhbPresent = false)
    (first : s.force.held8 = false) :
    ∃ t, exec .held8s s = .next t ∧ t.force.held8 = true ∧ t.floorOn = true ∧ t.svc = s.svc ∧ t.rd .fltCorr = s.oneUp .fltCorr ∧
      (∀ a, s.start.lastEdge = some a → a + 8000000000 ≤ t.now) ∧ ∀ c, c < 128 → t.rd .clkCbrCur 0 c = 0x200 := by
  have run := exec_held8s hs lost absent first
  have corrected : (s.heartbeatFault 2).cls = .corrected := rfl
  generalize s.heartbeatFault 2 = f at run corrected
  have later (a : Nat) (h : s.start.lastEdge = some a) : a + 8000000000 = s.start.lastEdge.getD s.now + 8000000000 := by rw [h, Option.getD_some]
  generalize s.start.lastEdge.getD s.now + 8000000000 = a at run later
  obtain ⟨force, floor, now, svc, corr, slow⟩ := (s.advanceTo a).lossForced_stands
  rw [s.advanceTo_now] at now
  rw [s.svc_advanceTo] at svc
  rw [s.rd_advanceTo _ _ _ (by decide)] at corr
  generalize (s.advanceTo a).lossForced = n at run force floor now svc corr slow
  have raised (f' : Field) (i j : Nat) (h : faultField f' = false) : (n.raise f).rd f' i j = n.rd f' i j :=
    rd_raise _ _ _ _ _ (by rw [corrected]; exact FaultClass.noConfusion) h
  have count := n.fltCorr_raise_corrected corrected
  rw [State.oneUp, corr, ← State.oneUp] at count
  have nowAfter : (n.raise f).now = n.now :=
    State.raise_corrected_other (g := State.now) (by intros; rfl) (by intros; rfl) (by intros; rfl) n corrected
  have forceAfter : (n.raise f).force = n.force :=
    State.raise_corrected_other (g := State.force) (by intros; rfl) (by intros; rfl) (by intros; rfl) n corrected
  have floorAfter : (n.raise f).floorOn = n.floorOn :=
    State.raise_corrected_other (g := State.floorOn) (by intros; rfl) (by intros; rfl) (by intros; rfl) n corrected
  have svcAfter : (n.raise f).svc = s.svc := (raised .govStateCur 0 0 rfl).trans svc
  have slowAfter (c : Nat) (hc : c < 128) : (n.raise f).rd .clkCbrCur 0 c = 0x200 := (raised _ _ _ rfl).trans (slow c hc)
  rw [← forceAfter] at force
  rw [← floorAfter] at floor
  rw [← nowAfter] at now
  generalize n.raise f = m at run force floor now count svcAfter slowAfter
  refine ⟨_, run, ?_, ?_, ?_, ?_, fun b h => ?_, fun c hc => ?_⟩
  · rw [State.force_commit, noticeAll_notice (g := State.force) (by apply notice_of <;> intros <;> rfl), force]
  · rw [State.floorOn_commit, noticeAll_notice (g := State.floorOn) (by apply notice_of <;> intros <;> rfl), floor]
  · rw [State.svc_commit]
    exact (noticeAll_notice (notice_rd 0 0 rfl) m 5 0).trans svcAfter
  · rw [State.rd_commit _ _ _ _ _ rfl, noticeAll_notice (notice_rd 0 0 rfl), count]
  · rw [later b h, State.commit_now, noticeAll_notice (g := State.now) (by apply notice_of <;> intros <;> rfl), now]
    exact (le_max_right _ _).trans (le_max_right _ _)
  · rw [State.rd_commit _ _ _ _ _ rfl, noticeAll_notice (notice_rd 0 c rfl), slowAfter c hc]

/-! ## GOV_HEARTBEAT (R25) -/

/-- The heartbeat toggled at the instant that the state shows. -/
def State.heartbeatToggled (s : State) : State :=
  { s with pins := { s.pins with govHeartbeat := !s.pins.govHeartbeat }, start := { s.start with hbAt := s.now } }

theorem State.toggled_at (s : State) (a : Nat) {t : State} (ended : t = s.commit (s.advanceTo a).heartbeatToggled) :
    t.pins = { s.pins with govHeartbeat := !s.pins.govHeartbeat } ∧ a ≤ t.now ∧ t.start.hbAt = t.now ∧ s.sameTabsBut t [] := by
  subst ended
  have now := s.advanceTo_now a
  have tabs := s.sameTabs_advanceTo a
  have pins := s.pins_advanceTo a
  generalize s.advanceTo a = n at now tabs pins
  have ends : (s.commit n.heartbeatToggled).now = n.now := max_eq_right (now ▸ le_max_left _ _)
  refine ⟨?_, ?_, ends.symm, State.sameTabs_commit fun x hx => ?_⟩
  · rw [← pins]
    rfl
  · rw [ends, now]
    exact le_max_right _ _
  · have same := tabs x hx
    cases x <;> exact same

theorem govHeartbeatToggle_toggles {s : State} (hs : s.aon = true) (runs : s.ccUp = true) (serves : s.svc ≠ svcFailsafe) :
    ∃ t, exec .govHeartbeatToggle s = .next t ∧ t.pins = { s.pins with govHeartbeat := !s.pins.govHeartbeat } ∧ s.start.hbAt + 500000 ≤ t.now ∧
      t.start.hbAt = t.now ∧ s.sameTabsBut t [] := by
  have run : exec .govHeartbeatToggle s = .next (s.commit (s.advanceTo (s.start.hbAt + 500000)).heartbeatToggled) := by
    have passes : (!s.ccUp || decide (s.svc = svcFailsafe)) = false := by rw [runs, decide_eq_false serves]; rfl
    change execGovHeartbeatToggle s = _
    rw [execGovHeartbeatToggle, State.run_on _ hs, State.heartbeatToggled, s.pins_advanceTo]
    dsimp only
    rw [s.pins_advanceTo, if_neg (by rw [passes]; exact Bool.false_ne_true)]
  exact ⟨_, run, s.toggled_at _ rfl⟩

end Sys2Proof.Machine

/-!
Settles O60: the orderly shutdown (R67, R69, R385), with the heartbeats.
-/

namespace Sys2Proof.Machine

/-! ## The bindings end with FINAL statements -/

/-- The statement that a binding's end leaves due. -/
def State.finalDue (s : State) (p : Nat) : StmtDue :=
  { kind := .final, part := p, tag := s.tagOf p, dies := s.rd .alcPartDies 0 p, seq := (s.ring p).stmSeq, tEnd := ceilTo 250 s.now }

/-- A binding's end reaches, beside telemetry, its own field and the ring sets. -/
theorem endBinding_traffic {α : Type} {g : State → α} (hg : TrafficBlind g) (s : State) (p : Nat)
    (bind : ∀ t, g (State.wr t .alcPartBindValid 0 0 p) = g t) : g (s.endBinding p) = g s := by
  rw [State.endBinding, bind, each_blind _ _ (closeBlock_traffic hg), State.stmtDue, updRing_notice hg.toNoticeBlind]

theorem State.rd_endBinding (s : State) (p : Nat) {f : Field} (i j : Nat) (hn : noticeField f = false) (ht : trafficField f = false)
    (hb : .alcPartBindValid ≠ f) : (s.endBinding p).rd f i j = s.rd f i j :=
  endBinding_traffic (traffic_rd i j hn ht) s p fun t => t.rd_wr_field _ _ _ _ _ hb

theorem State.due_endBinding (s : State) (p q : Nat) :
    ((s.endBinding p).ring q).due = if p = q then (s.ring q).due ++ [s.finalDue q] else (s.ring q).due := by
  have closed (t : State) (l : List Nat) : ((t.each l State.closeBlock).ring q).due = (t.ring q).due :=
    each_blind (g := fun t => (t.ring q).due) _ _ (fun t d => t.kept_closeBlock ringKept_due q d) t
  rw [State.endBinding, State.ring_wr, closed, State.stmtDue, State.ring_updRing]
  split
  · next e => rw [← e]; rfl
  · rfl

theorem State.inForce_endBinding {s : State} {p q : Nat} (h : p = q ∨ s.inForce q = false) : (s.endBinding p).inForce q = false := by
  refine decide_eq_false ?_
  by_cases e : p = q
  · subst e
    rw [State.endBinding, State.rd_wr_zero]
    decide
  · have free := of_decide_eq_false (h.resolve_left e)
    have other : (s.endBinding p).rd .alcPartBindValid 0 q = s.rd .alcPartBindValid 0 q :=
      endBinding_traffic (traffic_rd 0 q rfl rfl) s p fun t => State.reg_put_other t 0 (by simpa using e)
    rw [other]
    exact free

/-- A partition that is bound no more, owed its FINAL statement. -/
def State.ended (q tag : Nat) (s : State) : Prop :=
  s.inForce q = false ∧ ∃ e ∈ (s.ring q).due, e.kind = .final ∧ e.part = q ∧ e.tag = tag

theorem State.ended_endBinding {s : State} {q tag : Nat} (p : Nat) (h : s.ended q tag) : (s.endBinding p).ended q tag := by
  obtain ⟨free, e, owed, final⟩ := h
  refine ⟨State.inForce_endBinding (.inr free), e, ?_, final⟩
  rw [s.due_endBinding p q]
  split
  · exact List.mem_append_left _ owed
  · exact owed

/-- Every partition in force ends so. -/
theorem State.bindings_end (s : State) {q : Nat} (bound : q ∈ s.partsInForce) : (s.each s.partsInForce State.endBinding).ended q (s.tagOf q) := by
  refine State.each_sets_under (I := fun t => t.tagOf q = s.tagOf q) bound (fun t p tag => ?_) (fun t tag => ?_)
    (fun t p => State.ended_endBinding p) rfl
  · exact (t.rd_endBinding p 0 q rfl rfl (by decide)).trans tag
  · refine ⟨State.inForce_endBinding (.inl rfl), t.finalDue q, ?_, rfl, rfl, tag⟩
    rw [t.due_endBinding q q, if_pos rfl]
    exact List.mem_append_right _ List.mem_cons_self

/-! ## SHUT written (R385) -/

theorem shutdown_refused {s : State} (hs : s.aon = true) (p : Port) (v : Word) (host : p.isHost = true) :
    ∃ t, exec (.shutdown p v) s = .next t ∧ s.onlyChanges t [] [] := by
  have run : exec (.shutdown p v) s = .next (s.commit s) := by
    change execShutdown p v s = _
    rw [execShutdown, State.run_on _ hs, State.tmctlWrite, if_pos host]
  exact ⟨_, run, State.onlyChanges_commit (s.onlyChanges_refl _ _)⟩

/-- The word of TMCTL as it is written. -/
def State.tmctlShown (s : State) (v : Nat) : State := (s.wr .govTmctlRailgo (v % 2)).wr .govTmctlShut (v / 2 % 2)

/-- The drain begun. -/
def State.drainBegun (s : State) : State :=
  (s.each s.partsInForce State.endBinding).updStart fun x => { x with shutAt := s.now, draining := true }

theorem exec_shutdown {s : State} (hs : s.aon = true) {p : Port} {v : Word} (own : p.isHost = false) (shut : v.toNat / 2 % 2 = 1)
    (stays : v.toNat % 2 = 1 ∨ s.svc ≠ svcCold) (fresh : s.start.draining = false) (up : s.start.stopping = false) :
    exec (.shutdown p v) s = .next (s.commit (s.tmctlShown v.toNat).drainBegun) := by
  have keeps : (decide (v.toNat % 2 = 0) && decide (s.svc = svcCold)) = false := by
    rcases stays with go | warm
    · simp [go]
    · simp [warm]
  have start : (s.tmctlShown v.toNat).start = s.start := (State.start_wr _ _ _ _ _).trans (State.start_wr _ _ _ _ _)
  have begins : ((s.tmctlShown v.toNat).start.draining || (s.tmctlShown v.toNat).start.stopping) = false := by rw [start, fresh, up]; rfl
  change execShutdown p v s = _
  rw [execShutdown, State.run_on _ hs, State.tmctlWrite, own, if_neg Bool.false_ne_true]
  dsimp only
  rw [keeps, if_neg Bool.false_ne_true, if_pos shut]
  change Host.Outcome.next (s.commit (s.tmctlShown v.toNat).beginShutdown) = _
  rw [State.beginShutdown, begins, if_neg Bool.false_ne_true]
  rfl

theorem shutdown_drains {s : State} (hs : s.aon = true) {p : Port} {v : Word} (own : p.isHost = false) (shut : v.toNat / 2 % 2 = 1)
    (stays : v.toNat % 2 = 1 ∨ s.svc ≠ svcCold) (fresh : s.start.draining = false) (up : s.start.stopping = false) :
    ∃ t, exec (.shutdown p v) s = .next t ∧ t.start.draining = true ∧ t.start.shutAt = s.now ∧ t.flag .govTmctlShut = true ∧
      ∀ q, q < 16 → s.inForce q = true → t.inForce q = false ∧ ∃ e ∈ (t.ring q).due, e.kind = .final ∧ e.part = q ∧ e.tag = s.tagOf q := by
  have run := exec_shutdown hs own shut stays fresh up
  have shown : (s.tmctlShown v.toNat).flag .govTmctlShut = true := by
    rw [State.tmctlShown, shut]
    exact State.flag_wr_one _ (f := .govTmctlShut) rfl rfl
  have now : (s.tmctlShown v.toNat).now = s.now := (State.wr_now _ _ _ _ _).trans (State.wr_now _ _ _ _ _)
  have other (f : Field) (i j : Nat) (h : f ≠ .govTmctlRailgo) (h' : f ≠ .govTmctlShut) : (s.tmctlShown v.toNat).rd f i j = s.rd f i j := by
    rw [State.tmctlShown, State.rd_wr_field _ _ _ _ _ _ h'.symm, State.rd_wr_field _ _ _ _ _ _ h.symm]
  have force (q : Nat) : (s.tmctlShown v.toNat).inForce q = s.inForce q := congrArg (fun n => decide (n = 1)) (other _ 0 q (by decide) (by decide))
  have tag (q : Nat) : (s.tmctlShown v.toNat).tagOf q = s.tagOf q := other _ 0 q (by decide) (by decide)
  generalize s.tmctlShown v.toNat = n at run shown now force tag
  have flag : (n.each n.partsInForce State.endBinding).flag .govTmctlShut = true :=
    (congrArg (fun n => decide (n = 1)) (each_blind (g := fun t => t.rd .govTmctlShut) _ _
      (fun t p => t.rd_endBinding p 0 0 rfl rfl (by decide)) n)).trans shown
  have ends (q : Nat) (low : q < 16) (bound : s.inForce q = true) : (n.each n.partsInForce State.endBinding).ended q (s.tagOf q) :=
    tag q ▸ n.bindings_end (List.mem_filter.2 ⟨List.mem_range.2 low, (force q).trans bound⟩)
  unfold State.drainBegun at run
  generalize n.each n.partsInForce State.endBinding = m at run flag ends
  refine ⟨_, run, rfl, now, ?_, fun q low bound => ?_⟩
  · rw [State.flag, State.rd_commit _ _ _ _ _ rfl]
    exact flag
  · obtain ⟨free, e, owed, final⟩ := ends q low bound
    refine ⟨?_, e, ?_, final⟩
    · rw [State.inForce, State.flag, State.rd_commit _ _ _ _ _ rfl]
      exact free
    · rw [State.ring_commit]
      exact owed

/-! ## The drain's end (R385) -/

/-- The state when the drain ends: at once where the holding is the home, else once DRAINMS has passed. -/
def State.drainOver (s : State) : State :=
  if s.holding = s.chainHome then s else s.advanceTo (s.start.shutAt + 1000000 * max 1 (s.rd .govShutDrainms))

/-- The operating time saved. -/
def State.optimeSaved (s : State) : State := { s with flash := { s.flash with optime := s.opSec } }

/-- The floor state forced, the drain over and the operating time saved. -/
def State.drainSaved (s : State) : State :=
  ((s.forceFloor fun f => { f with shutdown := true }).updStart fun x => { x with draining := false, stopping := true }).optimeSaved

theorem State.drainOver_stands (s : State) :
    s.sameTabsBut s.drainOver [] ∧ (s.holding ≠ s.chainHome → s.start.shutAt + 1000000 * max 1 (s.rd .govShutDrainms) ≤ s.drainOver.now) := by
  unfold State.drainOver
  split
  · next home => exact ⟨s.sameTabs_same _, fun away => absurd home away⟩
  · refine ⟨s.sameTabs_advanceTo _, fun _ => ?_⟩
    rw [s.advanceTo_now]
    exact le_max_right _ _

theorem State.drainSaved_stands {s n : State} (tabs : s.sameTabsBut n []) :
    n.drainSaved.start.draining = false ∧ n.drainSaved.start.stopping = true ∧ n.drainSaved.force.shutdown = true ∧ n.drainSaved.floorOn = true ∧
      n.drainSaved.flash.optime = n.drainSaved.opSec ∧ n.drainSaved.now = n.now ∧ s.sameTabsBut n.drainSaved [] := by
  have force := n.force_forceFloor fun f => { f with shutdown := true }
  have floor := n.floorOn_forceFloor fun f => { f with shutdown := true }
  have now : (n.forceFloor fun f => { f with shutdown := true }).now = n.now :=
    State.enterFloor_other (g := State.now) (by intros; rfl) (by intros; rfl) _
  have tabs : s.sameTabsBut (n.forceFloor fun f => { f with shutdown := true }) [] := fun x hx => by
    have forced := n.sameTabs_forceFloor (fun f => { f with shutdown := true }) x hx
    have before := tabs x hx
    cases x <;> exact fun k => (forced k).trans (before k)
  unfold State.drainSaved
  generalize (n.forceFloor fun f => { f with shutdown := true }) = m at force floor now tabs
  refine ⟨rfl, rfl, congrArg Forcing.shutdown force, floor, rfl, now, fun x hx => ?_⟩
  have same := tabs x hx
  cases x <;> exact same

theorem State.chainRole_shutdown {s : State} (h : s.force.shutdown = true) : s.chainRole ≠ 2 := by
  unfold State.chainRole
  split
  · decide
  · rw [h, Bool.not_true, Bool.and_false, if_neg Bool.false_ne_true]
    decide

theorem shutdownDrainEnd_saves {s : State} (hs : s.aon = true) (draining : s.start.draining = true) :
    ∃ t, exec .shutdownDrainEnd s = .next t ∧ t.start.draining = false ∧ t.start.stopping = true ∧ t.force.shutdown = true ∧ t.floorOn = true ∧
      t.chainRole ≠ 2 ∧ t.flash.optime = t.opSec ∧
      (s.holding ≠ s.chainHome → s.start.shutAt + 1000000 * max 1 (s.rd .govShutDrainms) ≤ t.now) ∧ s.sameTabsBut t [] := by
  have run : exec .shutdownDrainEnd s = .next (s.commit s.drainOver.drainSaved) := by
    change execShutdownDrainEnd s = _
    rw [execShutdownDrainEnd, State.run_on _ hs, draining, Bool.not_true, if_neg Bool.false_ne_true]
    rfl
  obtain ⟨tabs, later⟩ := s.drainOver_stands
  obtain ⟨over', stopping, force, floor, saved, now, tabs⟩ := State.drainSaved_stands tabs
  rw [← now] at later
  generalize s.drainOver.drainSaved = n at run over' stopping force floor saved later tabs
  exact ⟨_, run, over', stopping, force, floor, State.chainRole_shutdown (s := s.commit n) force, saved,
    fun away => (later away).trans (le_max_right _ _), State.sameTabs_commit tabs⟩

/-! ## The rail groups stop in reverse (R385) -/

theorem State.en_disableRail_any (s : State) (q r : Nat) (h : q = r ∨ s.rd .rgcCfgEn r = 0) : (s.disableRail q).rd .rgcCfgEn r = 0 := by
  have hg := trouble_rd .rgcCfgEn r 0 rfl (by decide) (by decide)
  have cleared : (s.wr .rgcCfgEn 0 q).rd .rgcCfgEn r = 0 := by
    by_cases e : q = r
    · rw [e, State.rd_wr_zero]
    · exact (State.reg_put_other s 0 (by simpa using e)).trans (h.resolve_left e)
  have quiet (t : State) (x : Nat) : (t.railQuiet x railOff).rd .rgcCfgEn r = t.rd .rgcCfgEn r := t.rd_railQuiet _ _ _ _ (by decide)
  have down (t : State) (x : Nat) : (t.goDown x).rd .rgcCfgEn r = t.rd .rgcCfgEn r :=
    (State.rd_railTo _ _ _ _ _ (by decide) (by decide)).trans (t.leaveReg_trouble hg x)
  rw [State.disableRail]
  split
  · exact (each_blind (g := fun t : State => t.rd .rgcCfgEn r) _ State.goDown down _).trans cleared
  · split
    · exact ((each_blind (g := fun t : State => t.rd .rgcCfgEn r) _ _ quiet _).trans (quiet _ _)).trans cleared
    · exact cleared

theorem shutdownRailGroupStop_stops {s : State} (hs : s.aon = true) {k : Nat} (stopping : s.start.stopping = true) (at_k : s.start.stopped = k)
    (before : k = 0 ∨ ∀ r ∈ groupRails (5 - k), s.railStopped r = true) (more : k < 4) :
    ∃ t, exec .shutdownRailGroupStop s = .next t ∧ t.start.stopped = k + 1 ∧ ∀ r ∈ groupRails (4 - k), t.flag .rgcCfgEn r = false := by
  have few : ¬5 ≤ k := by omega
  have notLast : k ≠ 4 := by omega
  have waits : (decide (0 < k) && !(groupRails (5 - k)).all s.railStopped) = false := by
    rcases before with rfl | all
    · rfl
    · rw [List.all_eq_true.2 all]
      exact Bool.and_false _
  have run : exec .shutdownRailGroupStop s =
      .next (s.commit ((s.each (groupRails (4 - k)) State.disableRail).updStart fun x => { x with stopped := k + 1 })) := by
    change execShutdownRailGroupStop s = _
    rw [execShutdownRailGroupStop, State.run_on _ hs]
    simp only [stopping, at_k, few, notLast, waits, Bool.not_true, decide_false, Bool.or_self, Bool.false_eq_true, if_false]
  have cleared (r : Nat) (hr : r ∈ groupRails (4 - k)) : (s.each (groupRails (4 - k)) State.disableRail).rd .rgcCfgEn r = 0 :=
    State.each_sets (P := fun t => t.rd .rgcCfgEn r = 0) hr (fun t => t.en_disableRail_any r r (.inl rfl))
      (fun t q zero => t.en_disableRail_any q r (.inr zero)) s
  generalize s.each (groupRails (4 - k)) State.disableRail = n at run cleared
  refine ⟨_, run, rfl, fun r hr => ?_⟩
  rw [State.flag, State.rd_commit _ _ _ _ _ rfl]
  exact decide_eq_false (by rw [show (n.updStart _).rd .rgcCfgEn r = n.rd .rgcCfgEn r from rfl, cleared r hr]; decide)

/-! ## The shutdown's end (R282, R385) -/

/-- SHUTDONE shown and the Chain left, before the service state changes. -/
def State.shutShown (s : State) : State :=
  (((s.wr .govTmstatShutdone 1).chainOut).updChain fun c => { c with listening := false, joined := false }).updStart fun x => { x with stopped := 5 }

theorem State.shutShown_stands (s : State) :
    s.shutShown.flag .govTmstatShutdone = true ∧ s.shutShown.pins.bypHold = false ∧ s.shutShown.chain.joined = false ∧ s.shutShown.start.stopped = 5 ∧
      s.shutShown.svc = s.svc := by
  refine ⟨?_, rfl, rfl, rfl, ?_⟩
  · have shown : ((s.wr .govTmstatShutdone 1).wr .chnPosOrig 0).flag .govTmstatShutdone = true := by
      rw [State.flag_wr_field _ _ _ _ _ _ (by decide)]
      exact State.flag_wr_one s (f := .govTmstatShutdone) rfl rfl
    exact shown
  · have kept : ((s.wr .govTmstatShutdone 1).wr .chnPosOrig 0).rd .govStateCur = s.rd .govStateCur := by
      rw [State.rd_wr_field _ _ _ _ _ _ (by decide), State.rd_wr_field _ _ _ _ _ _ (by decide)]
    exact kept

/-- With the ring left, a change of service state to another than STEWARD leaves the bypass closed. -/
theorem State.bypHold_setSvc {s : State} {st : Nat} (h : st ≠ svcSteward) (closed : s.pins.bypHold = false) (left : s.chain.joined = false) :
    (s.setSvc st).pins.bypHold = false := by
  by_cases new : s.svc = st
  · rw [State.setSvc, if_pos new]
    exact closed
  · have chain : (s.svcMoved st).chain = s.chain :=
      State.svcMoved_other (g := State.chain) (by apply notice_of <;> intros <;> rfl) (by intros; rfl) (by intros; rfl) (by intros; rfl) (by intros; rfl) s st
    have pins : (s.svcMoved st).pins = s.pins :=
      State.svcMoved_other (g := State.pins) (by apply notice_of <;> intros <;> rfl) (by intros; rfl) (by intros; rfl) (by intros; rfl) (by intros; rfl) s st
    rw [State.setSvc_moves new h]
    generalize s.svcMoved st = n at chain pins
    split
    · have request (d : Nat) : n.hubRequests d = false := by
        rw [State.hubRequests, chain, left, Bool.and_false, Bool.false_and, Bool.false_and]
      change n.bypWanted = false
      rw [State.bypWanted, request, request]
      rfl
    · rw [pins]
      exact closed

theorem shutdownRailGroupStop_ends {s : State} (hs : s.aon = true) (stopping : s.start.stopping = true) (at_4 : s.start.stopped = 4)
    (before : ∀ r ∈ groupRails 1, s.railStopped r = true) :
    ∃ t, exec .shutdownRailGroupStop s = .next t ∧ t.start.stopped = 5 ∧ t.flag .govTmstatShutdone = true ∧ t.pins.bypHold = false ∧
      t.svc = if s.svc = svcFailsafe then svcFailsafe else svcCold := by
  have waits : (decide (0 < 4) && !(groupRails (5 - 4)).all s.railStopped) = false := by
    rw [List.all_eq_true.2 before]
    rfl
  have run : exec .shutdownRailGroupStop s =
      .next (s.commit (if s.shutShown.svc = svcFailsafe then s.shutShown else s.shutShown.setSvc svcCold)) := by
    change execShutdownRailGroupStop s = _
    rw [execShutdownRailGroupStop, State.run_on _ hs]
    simp only [stopping, at_4, waits, Bool.not_true, Nat.reduceLeDiff, decide_false, Bool.or_self, Bool.false_eq_true, if_false, if_true]
    rfl
  obtain ⟨done, closed, left, stopped, svc⟩ := s.shutShown_stands
  rw [svc] at run
  generalize s.shutShown = n at run done closed left stopped svc
  by_cases failsafe : s.svc = svcFailsafe
  · rw [if_pos failsafe] at run ⊢
    refine ⟨_, run, stopped, ?_, closed, ?_⟩
    · rw [State.flag, State.rd_commit _ _ _ _ _ rfl]
      exact done
    · rw [State.svc_commit]
      exact svc.trans failsafe
  · rw [if_neg failsafe] at run ⊢
    have startKept : (n.setSvc svcCold).start = n.start :=
      setSvc_svc (by apply svc_of (by apply notice_of <;> intros <;> rfl) <;> intros <;> rfl) _ _
    have doneKept : (n.setSvc svcCold).rd .govTmstatShutdone = n.rd .govTmstatShutdone := setSvc_svc (svc_rd 0 0 rfl rfl) _ _
    refine ⟨_, run, ?_, ?_, State.bypHold_setSvc (by decide) closed left, ?_⟩
    · rw [State.start_commit, startKept, stopped]
    · rw [State.flag, State.rd_commit _ _ _ _ _ rfl, doneKept]
      exact done
    · rw [State.svc_commit, State.svc_setSvc _ (by decide)]

/-- Settles O60: each edge and loss of the heartbeats, and each step of the shutdown. -/
theorem heartbeatsAndShutdown : Obligations.HeartbeatsAndShutdown := by
  unfold Obligations.HeartbeatsAndShutdown
  refine ⟨fun s hs => ⟨tmHeartbeatEdge_counts hs, fun sixteen absent => tmHeartbeatPresent_shows hs sixteen absent,
    fun present => tmHeartbeatLost_shows hs present, fun lost absent first => held8s_forces hs lost absent first,
    fun runs serves => govHeartbeatToggle_toggles hs runs serves⟩,
    fun s hs => ⟨fun p v host => shutdown_refused hs p v host, fun p v own shut stays fresh up => shutdown_drains hs own shut stays fresh up,
      fun draining => shutdownDrainEnd_saves hs draining, fun k stopping at_k before => ⟨fun more => ?_, fun four => ?_⟩⟩⟩
  · exact shutdownRailGroupStop_stops hs stopping at_k before more
  · subst four
    exact shutdownRailGroupStop_ends hs stopping at_k (before.resolve_left (by decide))

end Sys2Proof.Machine
